-- ==== Sys2Proof/Word.lean ====
section
/-! DEFINITION. Sys2Proof/Word.lean: the word and byte types (R9) and a total update of a fixed table. -/

namespace Sys2Proof

/-- A register of the address map: 32 bits (R9). -/
abbrev Word := BitVec 32

/-- The addressable unit of the address map (R9). -/
abbrev Byte := BitVec 8

/-- The entry `i` of a fixed table replaced by `f` of it. -/
def upd {α : Type} {n : Nat} (t : Vector α n) (i : Fin n) (f : α → α) : Vector α n :=
  t.set i (f (t.get i))

end Sys2Proof
end

