-- ==== Sys2Proof/Syntax.lean ====
section
/-! DEFINITION. Sys2Proof/Syntax.lean: the commands the block takes, one constructor per row of spec/opcode_table.json,
and the types of their operands. -/

namespace Sys2Proof

/-- What a lane word carries beside its opcode: CTX, PORT and ARG (R78). -/
structure LaneFields where
  ctx : BitVec 7
  port : BitVec 5
  arg : BitVec 14
  deriving DecidableEq, Repr

/-- Bits [lo + n - 1 : lo] of ARG. -/
def LaneFields.argBits (l : LaneFields) (lo n : Nat) : Nat := (l.arg.toNat >>> lo) % 2 ^ n

/-- A whole lane word: the opcode and its fields (R78). -/
structure LaneWord where
  op : BitVec 6
  fields : LaneFields
  deriving DecidableEq, Repr

/-- The paths by which map accesses reach the device (R10, R58). -/
inductive Path where
  | bulk | twoWire | harness | core
  deriving DecidableEq, Repr

/-- The place of a path in the table of captures. -/
def Path.idx : Path → Nat
  | .bulk => 0 | .twoWire => 1 | .harness => 2 | .core => 3

/-- The four gate outputs of a port (R108). -/
inductive Gate where
  | a | an | b | bn
  deriving DecidableEq, Repr

/-- The place of an output in the tables of a port. -/
def Gate.idx : Gate → Fin 4
  | .a => 0 | .an => 1 | .b => 2 | .bn => 3

/-- The complementary output of the pair. -/
def Gate.compl : Gate → Gate
  | .a => .an | .an => .a | .b => .bn | .bn => .b

/-- The three Harness ports (R314). -/
inductive HPort where
  | hup | hdn | hbr
  deriving DecidableEq, Repr

/-- The place of a port in the tables of the Harness. -/
def HPort.idx : HPort → Fin 3
  | .hup => 0 | .hdn => 1 | .hbr => 2

/-- The fields of a Harness frame; LEN is the length of the payload, and the CRC follows from the rest (R319). -/
structure Frame where
  dest : Nat
  src : Nat
  typ : Nat
  epoch : Nat
  role : Nat
  seq : Nat
  flags : Nat
  payload : List Word
  deriving DecidableEq, Repr

/-- A frame as it arrives (R319, R321): its words from W0 to the CRC, whether a character between SOF and its end had a code or disparity
error, and whether it ended with ABORT in place of EOF. -/
structure RxFrame where
  words : List Word
  codeBad : Bool
  aborted : Bool
  deriving DecidableEq, Repr

/-- A port, and the fret of the round in which something happens at it. -/
structure PortFret where
  port : Fin 32
  fret : Nat
  deriving DecidableEq, Repr

/-- FnnVS and FnnVL of a feed, in volts, and for how long the comparison has had its outcome: in ticks, for REV in interface clocks of
5 ns (R226, R227). -/
structure FeedDiff where
  feed : Fin 8
  vs : Rat
  vl : Rat
  time : Nat
  deriving DecidableEq, Repr

/-- FnnVL or FnnIS of a feed, in volts, and for how long the comparison has had its outcome: in ticks, for OC in interface clocks of
5 ns (R226, R227). -/
structure FeedLevel where
  feed : Fin 8
  v : Rat
  time : Nat
  deriving DecidableEq, Repr

/-- SQnnMON of a rail: its volts, its level as a digital input, and for how many ticks the comparisons have had their outcome (R247, R249). -/
structure RailSense where
  mon : Rat
  pin : Bool
  held : Nat
  deriving DecidableEq, Repr

/-- What a rail's monitor ball shows. -/
structure RailLevel where
  rail : Fin 16
  sense : RailSense
  deriving DecidableEq, Repr

/-- The arrival of a SOF: its fret of the round, and `sub` × 0.5 ns after the start of that fret (R338). -/
structure Arrival where
  fret : Nat
  sub : Nat
  deriving DecidableEq, Repr

/-- A VIO bank, its volts, and for how many ticks it has stood on that side of its threshold (R507). -/
structure BankLevel where
  bank : Fin 4
  v : Rat
  held : Nat
  deriving DecidableEq, Repr

/-- The inputs that the keep-alive comparators can watch (R185), in volts at the balls: the two batteries, the current sense inputs of
the ports, the FnnVS inputs of the feeds, and VSUP behind its divider. -/
structure KaInputs where
  batts : Vector Rat 2
  ports : Vector Rat 32
  feeds : Vector Rat 8
  vsup : Rat
  deriving DecidableEq, Repr

/-- What a slow housekeeping round converts (R298): the 40 codes, and the calibrated readings of the eight on-die sensors in
units of 1/16 °C. -/
structure HkCodes where
  codes : Vector (BitVec 12) 40
  die : Vector (BitVec 16) 8
  deriving DecidableEq, Repr


/-- A TAP instruction (R492). -/
inductive TapInstr where
  | bypass | idcode | samplePreload | extest | intest | clamp | highz | coreHalt | coreRun
  deriving DecidableEq, Repr

/-- A gate edge of a captured carrier: its position in steps from carrier phase 0, the output, rising (R487). -/
structure EdgeRec where
  pos : Nat
  out : Gate
  rise : Bool
  deriving DecidableEq, Repr

/-- The SRAM regions that the scrub reads: an entry of the queue pool by its queue and its place in it, oldest 0;
keep-alive SRAM by its owning block, the receive buffer of staging among them (R404, R446, R474, R488). -/
inductive SramKind where
  | engine | core | queuePool (q : Fin 64) (place : Nat) | keepAliveBatt (b : Fin 2) | keepAliveRecorder | keepAliveHarness | keepAliveTime
  | keepAliveStaging | bulkStaging
  deriving DecidableEq, Repr

/-- A read of one ECC word (R404, R488, R489): its byte address in its memory, and whether it is a read of the scrub or one that the function
that owns the word makes itself (log entry 181). -/
structure EccRead where
  addr : Nat
  scrub : Bool
  deriving DecidableEq, Repr

/-- The header of a bulk transaction (R353). -/
structure BulkHead where
  cmd : BitVec 8
  addr : BitVec 32
  len : BitVec 16
  deriving DecidableEq, Repr

/-- The commands of the block: one constructor per row of the opcode table, with what the command carries. -/
inductive Instr where
  /-- ROUND_BOUNDARY (R28): The engine reaches the end of a round of L frets; round-aligned work (bank swaps, mutes, region changes, zero-crossing windows) takes effect. -/
  | roundBoundary (clkKHz : Nat) (pllLocked : Bool)
  /-- CYCLE_BOUNDARY (R30): The engine completes N frets and starts fret 0 of a new local cycle; the engine frequency for that cycle is chosen. -/
  | cycleBoundary
  /-- ANGLE_WRAP (R29): The shared angle wraps through zero and the 40-bit cycle count increments. -/
  | angleWrap
  /-- HOLD_EXPIRE (R34): HOLD cycle boundaries have passed since the source loss, and the timebase enters SLEW. -/
  | holdExpire
  /-- MAINS_QUALIFIED (R37): The mains conditions hold for RET complete cycles, and the mains becomes qualified. -/
  | mainsQualified
  /-- MAINS_SAMPLE (R35): The mains converter samples MSA, MSB, MSC and MSN together at its compiled fret. -/
  | mainsSample (a b c n : BitVec 14) (fret : Nat)
  /-- MAINS_SAMPLE_READY (R35): A mains conversion becomes usable by the engine after its fixed delay. -/
  | mainsSampleReady
  /-- TUNING_MISS (R48): No valid TUNING frame arrives in two consecutive cycles; the Harness source is lost, with holdover or fallback to the mains. -/
  | tuningMiss
  /-- XTAL_FAIL (R43): The 25 MHz crystal stops; fault 0x0309 is fatal and the device enters SAFE. -/
  | xtalFail
  /-- LFXTAL_FAIL (R55): The 32.768 kHz crystal fails; corrected fault 0x030A is reported. -/
  | lfxtalFail
  /-- TIME_FLEET_WRITE (R50): The host writes a new fleet angle target. -/
  | timeFleetWrite (v : Word)
  /-- FLEET_ANGLE_APPLY (R50): A new fleet angle target takes effect at a round boundary and begins its slew. -/
  | fleetAngleApply
  /-- TS_LO_CAPTURE (R58): A read of a _TS_LO register captures the whole 64-bit value for the reading path. -/
  | tsLoCapture (path : Path) (addr : Nat)
  /-- REPLICA_REFRESH (R52): The interface-domain replica of the timestamp and status values is refreshed from the engine through a reserved queue. -/
  | replicaRefresh
  /-- NOP (R79): A NOP lane word executes and does nothing. -/
  | nop (l : LaneFields) (fret : Nat)
  /-- SAMPLE (R99): A SAMPLE lane word closes the track-and-hold of a port channel and starts a conversion. -/
  | sample (l : LaneFields) (fret : Nat)
  /-- ADC_CONV_DONE (R99): A port conversion completes after the sample-ready delay and its result becomes available. -/
  | adcConvDone (p : PortFret) (c1 c2 : Int)
  /-- READ (R101): A READ lane word moves the latest converted sample of a port channel, or the foldback input, to the engine. -/
  | read (l : LaneFields) (fret : Nat)
  /-- MEAS (R138): A MEAS lane word loads a measured engine signal as a loop's measurement. -/
  | meas (l : LaneFields) (fret : Nat)
  /-- PASS_E (R139): The error pass forms r_eff, e and x of a loop. -/
  | passE (l : LaneFields) (fret : Nat)
  /-- PASS_P (R140): The proportional pass forms P of a loop. -/
  | passP (l : LaneFields) (fret : Nat)
  /-- PASS_I (R141): The two-slot integral pass performs any preset due and updates the integrator with anti-windup. -/
  | passI (l : LaneFields) (fret : Nat)
  /-- PASS_D (R140): The two-slot derivative pass forms the filtered derivative D. -/
  | passD (l : LaneFields) (fret : Nat)
  /-- PASS_SUM (R142): The sum-and-limit pass forms u by state and sets the limit flags. -/
  | passSum (l : LaneFields) (fret : Nat)
  /-- REGION (R150): A REGION lane word reads z and forms the candidate gain region. -/
  | region (l : LaneFields) (fret : Nat)
  /-- COMMIT (R158): A COMMIT lane word converts u to q and writes the port shadow of the target. -/
  | commit (l : LaneFields) (fret : Nat)
  /-- THRESH (R160): A THRESH lane word selects a foldback segment, or completes the evaluation and writes the CMP0 HI shadow. -/
  | thresh (l : LaneFields) (fret : Nat)
  /-- TARGET (R156): A TARGET lane word writes u to another loop's reference input or to a Capo limit. -/
  | target (l : LaneFields) (fret : Nat)
  /-- PLL (R35): A PLL lane word performs one step of the mains synchronous-reference-frame PLL. -/
  | pll (l : LaneFields) (fret : Nat)
  /-- CAPO_TERM (R205): The CAPO TERM step forms the product of one power term. -/
  | capoTerm (l : LaneFields) (fret : Nat)
  /-- CAPO_POWER (R205): The CAPO POWER step forms P_in, Pf, every Lp_k and B. -/
  | capoPower (l : LaneFields) (fret : Nat)
  /-- CAPO_CAP (R205): The CAPO CAP step applies the budget decisions due and forms C. -/
  | capoCap (l : LaneFields) (fret : Nat)
  /-- CAPO_ALLOC (R206): The CAPO ALLOC step allocates power to the limits of one priority level. -/
  | capoAlloc (l : LaneFields) (fret : Nat)
  /-- CAPO_WRITE (R207): The CAPO WRITE step updates λ of one group of limits, cutting at once and releasing by RISE. -/
  | capoWrite (l : LaneFields) (fret : Nat)
  /-- CAPO_CTRIM (R200): The CAPO CTRIM step updates the course trim of a sharing course. -/
  | capoCtrim (l : LaneFields) (fret : Nat)
  /-- CAPO_HOLDUP (R216): The CAPO HOLDUP step judges the input window as inside or outside. -/
  | capoHoldup (l : LaneFields) (fret : Nat)
  /-- SHARE_ACC (R199): The SHARE ACC step filters a port current and adds it to its course sum. -/
  | shareAcc (l : LaneFields) (fret : Nat)
  /-- SHARE_PTRIM (R199): The SHARE PTRIM step updates the balance trim of a port. -/
  | sharePtrim (l : LaneFields) (fret : Nat)
  /-- SHARE_APPLY (R201): The SHARE APPLY step writes the trim multiplier of the port's sharing loop. -/
  | shareApply (l : LaneFields) (fret : Nat)
  /-- QPUSH (R87): A QPUSH lane word writes one telemetry entry to a queue, whole records only. -/
  | qpush (l : LaneFields) (fret : Nat)
  /-- ENGINE_START (R75): At the next cycle boundary after the application, the engine starts at fret 0 with V0. -/
  | engineStart
  /-- ENGINE_MEM_WRITE (R77): A host write to engine memory is accepted in IDLE or TEST and sets MODIFIED, or is refused otherwise. -/
  | engineMemWrite (addr : BitVec 32) (v : Word)
  /-- SCHED_SWAP_GO (R85): A write of GO requests a parameter-bank swap of the masked loops. -/
  | schedSwapGo
  /-- BANK_EXCHANGE (R85): At a round boundary the active and shadow banks of the pending loops exchange. -/
  | bankExchange
  /-- SCHED_VSEL (R89): A keyed write requests a schedule variant. -/
  | schedVsel (v : Word)
  /-- VARIANT_SWITCH (R91): At fret 0 of the due cycle the requested variant takes effect. -/
  | variantSwitch
  /-- QDROP_CLR (R96): The command clears SCHED_QDROP. -/
  | qdropClr
  /-- LOOP_SHADOW_WRITE (R166): A host write to a shadow-bank word, refused while a swap is pending. -/
  | loopShadowWrite (n : Fin 64) (w : Fin 64) (v : Word)
  /-- CARRIER_START (R106): A port carrier reaches phase 0 and begins a new carrier. -/
  | carrierStart (p : Fin 32) (t : Nat)
  /-- UPDATE_POINT (R112): At a port update point all shadows are copied to the active values at once. -/
  | updatePoint (p : Fin 32) (t : Nat)
  /-- PWM_EDGE (R110): A nominal edge of a gate output occurs at its commanded carrier position. -/
  | pwmEdge (p : Fin 32) (g : Gate)
  /-- DEAD_TIME_TURN_ON (R528): An output turns on one dead time after the nominal edge that commands it. -/
  | deadTimeTurnOn (p : Fin 32) (g : Gate)
  /-- EN_SETTLE_END (R119): The enable-settle time after PnnEN rose expires. -/
  | enSettleEnd (p : Fin 32) (fret : Nat)
  /-- DRV_FLT_INPUT (R120): The PnnFLT input changes level and the glitch filter starts counting. -/
  | drvFltInput (p : Fin 32) (level : Bool) (fret : Nat)
  /-- DRIVER_FAULT (R120): The filtered PnnFLT becomes a driver fault, gating off its scope with fault 0x0101. -/
  | driverFault (p : Fin 32) (fret : Nat)
  /-- PORT_CNT_CLR (R129): The command clears PORT_CNT. -/
  | portCntClr (p : Fin 32)
  /-- CMP_CROSSING (R169): A comparator side's analogue output changes as the input crosses a threshold. -/
  | cmpCrossing (p : Fin 32) (c : Fin 4) (vp vn : Rat) (fret : Nat)
  /-- CMP_LATCH_SET (R170): A side's glitch filter passes and its latch sets, subject to the acceptance rule. -/
  | cmpLatchSet (p : Fin 32) (c : Fin 4) (hiSide : Bool) (fret : Nat)
  /-- CMP_BLANK_END (R171): A comparator blanking interval ends. -/
  | cmpBlankEnd (p : Fin 32) (c : Fin 4) (fret : Nat)
  /-- CMP_LATCH_WRITE (R174): A host write to CMP_LATCH requests a latch clear. -/
  | cmpLatchWrite (p : Fin 32) (c : Fin 4) (v : Word)
  /-- CMP_LATCH_CLEAR_APPLY (R174): A host latch clear acts at a round boundary. -/
  | cmpLatchClearApply (p : Fin 32) (c : Fin 4)
  /-- CMP_THR_WRITE (R179): A host write to CMP_THR; a HI owned by the engine is left unchanged. -/
  | cmpThrWrite (p : Fin 32) (c : Fin 4) (v : Word)
  /-- CMP_THR_SHADOW_APPLY (R180): A host threshold write reaches the port shadows at a round boundary. -/
  | cmpThrShadowApply (p : Fin 32) (c : Fin 4)
  /-- CMP_CNT_CLR (R191): The command clears CMP_CNT. -/
  | cmpCntClr (p : Fin 32) (c : Fin 4)
  /-- KA_TICK (R186): A keep-alive tick powers the enabled keep-alive comparators and samples them. -/
  | kaTick (volts : KaInputs)
  /-- KA_LATCH_SET (R187): A keep-alive comparator active at CNT consecutive ticks sets its latch. -/
  | kaLatchSet (k : Fin 6)
  /-- KA_LATCH_CLEAR (R187): A write of KA_LATCH clears keep-alive latches and restarts their counting. -/
  | kaLatchClear (v : Word)
  /-- LOOP_MODE_WRITE (R148): The host writes LOOP_MODE; MAN_PEND is set. -/
  | loopModeWrite (n : Fin 64) (v : Word)
  /-- LOOP_UMAN_WRITE (R148): The host writes the manual output LOOP_UMAN. -/
  | loopUmanWrite (n : Fin 64) (v : Word)
  /-- LOOP_MODE_APPLY (R148): The mode or UMAN write takes effect at a round boundary and MODE_DONE is raised. -/
  | loopModeApply (n : Fin 64)
  /-- LOOP_CNT_CLR (R164): The command clears LOOP_CNT. -/
  | loopCntClr (n : Fin 64)
  /-- INPUT_LOSS_BEGIN (R216): The LOSSN-th consecutive outside judgement begins input loss. -/
  | inputLossBegin (fret : Nat)
  /-- INPUT_LOSS_END (R216): The RETW-th consecutive inside judgement ends input loss. -/
  | inputLossEnd
  /-- HOLDUP_SWITCH (R218): The selectors switch to hold-up at the next round boundary; HLOOPs are preset, and fault 0x02A3 and a record are written. -/
  | holdupSwitch
  /-- HOLDUP_RETURN (R220): The selectors return to normal once the input is qualified again; NLOOPs are preset. -/
  | holdupReturn
  /-- HALF_CYCLE_BOUNDARY (R213): The shared angle passes 0 or 2^31; pending budget raises apply and AGE advances. -/
  | halfCycleBoundary (second : Bool)
  /-- BUDGET_DECREASE_APPLY (R213): An accepted budget decrease takes effect at a round boundary. -/
  | budgetDecreaseApply
  /-- BUDGET_STALE (R214): AGE reaches 2; FLEETCAP becomes SAFE_CAP and fault 0x02A1 is reported. -/
  | budgetStale
  /-- BUDGET_EMIT (R215): The root emits the BUDGET frames of its committed table after a half-cycle boundary. -/
  | budgetEmit
  /-- TRIM_CLR (R202): The command requests that every sharing trim be cleared. -/
  | trimClr
  /-- TRIM_CLR_APPLY (R202): Every t and τ is set to 0 at a round boundary. -/
  | trimClrApply
  /-- CAPO_CNT_CLR (R225): The command clears CAPO_BCNT and CAPO_HCNT. -/
  | capoCntClr
  /-- BTX_COMMIT (R215): The command commits the edited budget table for emission. -/
  | btxCommit
  /-- HOSTCAP_WRITE (R205): The host writes HOSTCAP. -/
  | hostcapWrite (v : Word)
  /-- HOSTCAP_APPLY (R205): The new HOSTCAP reaches the engine at a round boundary and enters C. -/
  | hostcapApply
  /-- FEED_CMD_WRITE (R230): The host writes the FEED_CMD.ON bits, giving or removing run permission. -/
  | feedCmdWrite (v : Word)
  /-- FEED_VS_WINDOW_CHANGE (R232): The filtered VS window becomes satisfied or is lost. -/
  | feedVsWindowChange (f : Fin 8) (vs : Rat) (held : Nat)
  /-- FEED_INSDLY_EXPIRE (R232): The insertion delay expires; the feed enters PRECHARGE or ON. -/
  | feedInsdlyExpire (f : Fin 8)
  /-- FEED_RATIO_HELD (R233): RATIO has held at 16 consecutive ticks in PRECHARGE; FnnG rises. -/
  | feedRatioHeld (x : FeedDiff)
  /-- FEED_POVL_EXPIRE (R233): The precharge overlap ends; FnnPC falls and the feed is ON. -/
  | feedPovlExpire (f : Fin 8)
  /-- FEED_PCTO_EXPIRE (R233): The precharge timeout expires; the feed enters FAULT with fault 0x0403. -/
  | feedPctoExpire (f : Fin 8)
  /-- FEED_OC_TRIP (R236): The filtered OC output trips the electronic fuse, leading to RETRY_WAIT or FAULT. -/
  | feedOcTrip (x : FeedLevel)
  /-- FEED_RETRY_EXPIRE (R236): The retry wait ends; the feed enters QUALIFY with the insertion delay waived. -/
  | feedRetryExpire (f : Fin 8)
  /-- FEED_RHOLD_EXPIRE (R237): The feed has been ON for RHOLD × 10 ms and its retry count resets. -/
  | feedRholdExpire (f : Fin 8)
  /-- FEED_REV_BLOCK (R238): The filtered REV output turns the ideal diode off; the feed enters BLOCKED. -/
  | feedRevBlock (x : FeedDiff)
  /-- FEED_FWD_UNBLOCK (R239): FWD passes its filter in BLOCKED; FnnG rises and the feed is ON. -/
  | feedFwdUnblock (x : FeedDiff)
  /-- FEED_DISCHARGE_END (R241): DDLY since the last gate-off expires; DISCHARGE ends and the short check applies. -/
  | feedDischargeEnd (f : Fin 8)
  /-- FEED_SHORT_CHECK_RESUME (R241): DDLY after the group suspension expires and the short check resumes. -/
  | feedShortCheckResume (f : Fin 8)
  /-- FEED_SHORT_DETECT (R242): VLPRES is active while the check applies; fault 0x0404 and the feed enters FAULT. -/
  | feedShortDetect (x : FeedLevel)
  /-- FEED_MONITOR_CONV (R228): The shared monitor converter converts one feed input in its tick of the frame. -/
  | feedMonitorConv (f : Fin 8) (j : Fin 3) (v : Rat)
  /-- FEED_CNT_CLR (R246): The command clears FEED_CNT. -/
  | feedCntClr (f : Fin 8)
  /-- SEQ_UP (R254): A write of SEQ_CMD.UP makes an on request. -/
  | seqUp (v : Word)
  /-- SEQ_DOWN (R254): A write of SEQ_CMD.DOWN makes an off request. -/
  | seqDown (v : Word)
  /-- SEQ_DWELL_END (R256): The minimum off dwell passes and the power-up begins. -/
  | seqDwellEnd
  /-- SEQ_DLY_EXPIRE (R257): A rail's power-up delay expires; SQnnEN rises and the rise window starts. -/
  | seqDlyExpire (r : Fin 16)
  /-- SEQ_RAIL_GOOD (R257): The filtered good result of a rising rail becomes active and the rail is GOOD. -/
  | seqRailGood (x : RailLevel)
  /-- SEQ_RISE_TIMEOUT (R257): The rise window ends without a good result; the rail enters FAULT with fault 0x0501. -/
  | seqRiseTimeout (r : Fin 16)
  /-- SEQ_RAIL_OVER (R258): The over side of a rising rail becomes active; the rail fails with fault 0x0504. -/
  | seqRailOver (x : RailLevel)
  /-- SEQ_DNDLY_EXPIRE (R259): A rail's power-down delay expires; SQnnEN falls and the fall window starts. -/
  | seqDndlyExpire (r : Fin 16)
  /-- SEQ_RAIL_FALLEN (R259): The filtered fallen result becomes active and the rail is OFF. -/
  | seqRailFallen (x : RailLevel)
  /-- SEQ_FALL_TIMEOUT (R259): The fall window ends without a fallen result; fault 0x0502 is reported. -/
  | seqFallTimeout (r : Fin 16)
  /-- SEQ_RAIL_COLLAPSE (R261): The good result of a GOOD or PREDOWN rail is lost; the rail enters FAULT. -/
  | seqRailCollapse (r : Fin 16) (x : RailSense)
  /-- SEQ_CNT_CLR (R272): The command clears SEQ_CNT. -/
  | seqCntClr
  /-- BATT_CONV_DONE (R273): The battery converter completes a voltage sample. -/
  | battConvDone (b : Fin 2) (code : BitVec 16)
  /-- BATT_STEP (R277): A 10 ms estimator step updates the charge account, the observer and the RC voltages. -/
  | battStep (b : Fin 2)
  /-- BATT_REST_POINT (R280): A rest point falls after TREST of rest. -/
  | battRestPoint (b : Fin 2)
  /-- BATT_UNANCHORED (R281): The anchor age reaches AMAX; the state is UNANCHORED and fault 0x0602 is reported. -/
  | battUnanchored (b : Fin 2)
  /-- BATT_DISAGREE (R282): The gap has stayed above DTHR for DTIME; DISAGREE is set and fault 0x0603 is reported. -/
  | battDisagree (b : Fin 2)
  /-- BATT_SNAP (R288): The command requests a snapshot. -/
  | battSnap (b : Fin 2)
  /-- BATT_SAVEP_EXPIRE (R288): The snapshot period expires and a snapshot is requested. -/
  | battSavepExpire (b : Fin 2)
  /-- BATT_RESTORE (R290): The command requests a restore from BATT_RESTORE. -/
  | battRestore (b : Fin 2)
  /-- HK_ROUND_START (R299): A slow housekeeping round begins and converts its 40 channels in turn. -/
  | hkRoundStart (codes : HkCodes)
  /-- HK_EVALUATE (R299): At tick 40 the temperatures, group values and permissions are formed. -/
  | hkEvaluate
  /-- HK_PUBLISH (R299): At tick 41 the results are published to the registers, the engine signals and the throttle path. -/
  | hkPublish
  /-- THROTTLE_APPLY (R306): A course throttle level takes effect at the next 16-round frame. -/
  | throttleApply (c : Fin 32)
  /-- HK_CNT_CLR (R312): The command clears HK_ROUNDS. -/
  | hkCntClr
  /-- HARNESS_LINK_UP (R316): A Harness link comes up after 128 clean IDLE sets. -/
  | harnessLinkUp (p : HPort)
  /-- HARNESS_LINK_DOWN (R316): A Harness link goes down on code errors or lack of transitions; fault 0x0801. -/
  | harnessLinkDown (p : HPort)
  /-- FRAME_FORWARD (R325): A received frame not consumed here is routed and forwarded cut-through. -/
  | frameForward (p : HPort) (f : RxFrame)
  /-- CMD_READ (R342): A CMD READ frame reads map words and is answered with an RSP. -/
  | cmdRead (p : HPort) (f : RxFrame)
  /-- CMD_WRITE (R342): A CMD WRITE frame writes map words when CMDWR = 1. -/
  | cmdWrite (p : HPort) (f : RxFrame)
  /-- CMD_REPORT (R442): A CMD REPORT frame requests an attestation report. -/
  | cmdReport (p : HPort) (f : RxFrame)
  /-- CMD_ACTIVATE (R447): A CMD ACTIVATE frame requests an image activation at cycle C. -/
  | cmdActivate (p : HPort) (f : RxFrame)
  /-- RSP_FRAME (R345): A consumed RSP frame is written as a record to the receive queue. -/
  | rspFrame (p : HPort) (f : RxFrame)
  /-- EVT_FRAME (R345): A consumed EVT frame is written as a record to the receive queue. -/
  | evtFrame (p : HPort) (f : RxFrame)
  /-- NAK_FRAME (R345): A consumed NAK frame is written as a record to the receive queue. -/
  | nakFrame (p : HPort) (f : RxFrame)
  /-- TUNING_FRAME (R47): A TUNING frame arrives on the up port; the source angle and delay are taken. -/
  | tuningFrame (p : HPort) (f : RxFrame) (sof : Arrival) (late : Vector Bool 3)
  /-- BUDGET_FRAME (R212): A BUDGET frame is searched for this device's entry, which is accepted or refused. -/
  | budgetFrame (p : HPort) (f : RxFrame)
  /-- IMG_FRAME (R344): An IMG frame is stored whole, judged as a staging piece, then forwarded. -/
  | imgFrame (p : HPort) (f : RxFrame)
  /-- ENUM_ASSIGN (R329): An ASSIGN gives the device its address and starts enumeration of its subtree. -/
  | enumAssign (p : HPort) (f : RxFrame)
  /-- ENUM_DONE (R329): A DONE from a down port sets its range and enumeration continues. -/
  | enumDone (p : HPort) (f : RxFrame)
  /-- ENUM_PROBE (R335): A PROBE is answered with an ECHO exactly 1,000 ns later. -/
  | enumProbe (p : HPort) (f : RxFrame)
  /-- ENUM_ECHO (R335): An ECHO arrives and gives one hop-delay value. -/
  | enumEcho (p : HPort) (f : RxFrame) (d : Int)
  /-- ENUM_RING (R330): A RING answer ends enumeration of that port with an empty range. -/
  | enumRing (p : HPort) (f : RxFrame)
  /-- ROLE_FRAME (R332): A ROLE frame from the root assigns a role and epoch. -/
  | roleFrame (p : HPort) (f : RxFrame)
  /-- PAUSE_RECEIVED (R328): A PAUSE makes the transmitter hold new frames other than TUNING. -/
  | pauseReceived (p : HPort)
  /-- RESUME_RECEIVED (R328): A RESUME ends a pause. -/
  | resumeReceived (p : HPort)
  /-- HARNESS_GUARD_OPEN (R327): A guard opens GT before the expected TUNING on a down port. -/
  | harnessGuardOpen (p : HPort)
  /-- HARNESS_GUARD_CLOSE (R327): The guard closes after the TUNING is forwarded or 10 µs after its expected arrival. -/
  | harnessGuardClose (p : HPort)
  /-- TUNING_EMIT (R336): The root emits a TUNING frame after the round boundary at which its angle wraps. -/
  | tuningEmit (sub : Nat)
  /-- HARNESS_ENUM (R329): The command makes the root start enumeration. -/
  | harnessEnum
  /-- HOP_PROBE_START (R335): A hop-delay measurement starts in the device's scheduled cycle. -/
  | hopProbeStart
  /-- HOP_PROBE_DONE (R335): The eight probes complete and the link delay is accepted or refused. -/
  | hopProbeDone (lat : BitVec 16)
  /-- HARNESS_REPROBE (R335): The command starts a measurement of the up link. -/
  | harnessReprobe
  /-- HARNESS_TX_GO (R345): The command sends the host frame from HARNESS_TXBUF, or refuses it. -/
  | harnessTxGo
  /-- HARNESS_CNT_CLR (R348): The command clears the Harness counters. -/
  | harnessCntClr
  /-- ROOTEPOCH_WRITE (R332): A root host write takes a new epoch. -/
  | rootepochWrite (v : Word)
  /-- BULK_WRITE (R359): A bulk WRITE transaction writes map bytes, with an optional CRC-checked commit. -/
  | bulkWrite (h : BulkHead) (data : List Byte) (check : BitVec 16) (n : Nat)
  /-- BULK_READ (R353): A bulk READ transaction returns map bytes. -/
  | bulkRead (h : BulkHead) (n : Nat)
  /-- BULK_QWRITE (R354): A quad-line bulk write transaction. -/
  | bulkQwrite (h : BulkHead) (data : List Byte) (check : BitVec 16) (n : Nat)
  /-- BULK_QREAD (R354): A quad-line bulk read transaction. -/
  | bulkQread (h : BulkHead) (n : Nat)
  /-- BULK_STATUS (R354): The STATUS command returns HOSTIF_BULK_STAT. -/
  | bulkStatus
  /-- BULK_CLRSTAT (R354): The CLRSTAT command clears the status bits of HOSTIF_BULK_STAT. -/
  | bulkClrstat
  /-- BULK_ABORT (R361): BCS_N rises before the transaction ends and aborts it. -/
  | bulkAbort
  /-- BULK_WAIT_TIMEOUT (R358): A bulk word wait exceeds TMO; filler is returned, with fault 0x0905. -/
  | bulkWaitTimeout
  /-- QUEUE_ENTRY_VISIBLE (R372): A written queue entry becomes visible to the consumer. -/
  | queueEntryVisible (q : Fin 64)
  /-- QUEUE_SPACE_FREED (R372): A popped entry becomes free to the producer. -/
  | queueSpaceFreed (q : Fin 64)
  /-- QUEUE_POP (R374): A read of a queue window pops the oldest visible entry. -/
  | queuePop (path : Path) (q : Fin 64)
  /-- TW_WRITE (R363): A two-wire write transfer sets the pointer and writes bytes with page wrap. -/
  | twWrite (bytes : List Byte) (stop : Bool)
  /-- TW_READ (R364): A two-wire read transfer returns bytes from the pointer onward. -/
  | twRead (ptr : Option (BitVec 16)) (n : Nat)
  /-- TW_STRETCH_TIMEOUT (R365): The clock-stretch limit expires and filler is returned. -/
  | twStretchTimeout
  /-- TW_SMB_TIMEOUT (R366): SCL is low for 32 ms and the two-wire interface resets, with fault 0x0908. -/
  | twSmbTimeout
  /-- TW_RESET (R366): The command resets the two-wire interface. -/
  | twReset
  /-- TWC_GO (R369): The command requests a controller transfer. -/
  | twcGo (v : Word)
  /-- TWC_START (R370): After a STOP and bus-free time, the controller transfer starts. -/
  | twcStart (lost : Option Bool)
  /-- TWC_DONE (R369): The controller transfer completes or ends on a NACK. -/
  | twcDone (nack : Option Nat) (data : List Byte) (code : Byte)
  /-- HOSTIF_CNT_CLR (R383): The command clears HOSTIF_CNT. -/
  | hostifCntClr
  /-- QUEUE_WM_WRITE (R376): A write of a queue's watermarks, with its reserved-encoding rule. -/
  | queueWmWrite (q : Fin 64) (v : Word)
  /-- QUEUE_FLUSH (R377): The command requests a queue flush. -/
  | queueFlush (q : Fin 64)
  /-- QUEUE_FLUSH_APPLY (R377): The flush acts at a round boundary or between records. -/
  | queueFlushApply (q : Fin 64)
  /-- QUEUE_DROP_CLR (R377): The command clears the queue's drop counter. -/
  | queueDropClr (q : Fin 64)
  /-- WAKE_PIN (R379): A WAKE level is accepted; it wakes from HIBERNATE or raises WAKE_PIN. -/
  | wakePin (level : Bool)
  /-- RST_N_ASSERT (R380): A low pulse of RST_N of 2 µs or longer resets the device. -/
  | rstNAssert
  /-- REG_WRITE (R14): A write to a register without behaviour of its own acts by its access codes. -/
  | regWrite (path : Path) (addr : BitVec 32) (v : Word)
  /-- FAULT_CLR (R392): The host writes FAULT_CLR to request a clear of entries. -/
  | faultClr (v : Word)
  /-- FAULT_CLEAR_APPLY (R392): Candidate entries whose cause is gone are cleared; the others raise CLR_REF. -/
  | faultClearApply (engine xtal : Bool)
  /-- ALIVE_TOGGLE (R394): The ALIVE half-period expires and ALIVE toggles. -/
  | aliveToggle
  /-- HWD_ANS (R396): A write of an answer byte to the host watchdog. -/
  | hwdAns (v : Word)
  /-- HWD_CLOSE_EXPIRE (R398): The service window closes without a good service; fault 0x0A01. -/
  | hwdCloseExpire
  /-- HWD_CHECKIN (R399): A check-in adds 1 to the count of its slot. -/
  | hwdCheckin (v : Word)
  /-- HWD_ENABLE (R401): A write of EN = 1 enables the host watchdog, or is refused with fault 0x0A06. -/
  | hwdEnable
  /-- HWD_LOCK (R402): A write of HWD_LOCK = 1 locks the watchdog until reset or wake. -/
  | hwdLock
  /-- HWD_KEY (R402): A write of the disable key sequence disables the watchdog, or fails with fault 0x0A06. -/
  | hwdKey (v : Word)
  /-- FWD_EXPIRE (R403): The firmware watchdog expires; evidence is captured, fatal 0x0A08 is reported and the core restarts. -/
  | fwdExpire (pc : Word) (last : BitVec 64)
  /-- FAULT_CNT_CLR (R406): The command clears the block fault counters and FAULT_HWD_SCNT. -/
  | faultCntClr
  /-- REC_BLOCK_WRITE_START (R409): The device starts the NVM block write of the highest-priority waiting item. -/
  | recBlockWriteStart
  /-- REC_BLOCK_WRITE_DONE (R412): An NVM block write completes, with verify and MARK. -/
  | recBlockWriteDone (ok : Bool)
  /-- REC_FREEZE (R416): The command freezes the recorder. -/
  | recFreeze
  /-- REC_THAW (R416): The command ends a freeze. -/
  | recThaw
  /-- REC_COMMIT (R428): The command requests a ledger commit. -/
  | recCommit
  /-- REC_NONCE_NEW (R417): The command draws a fresh clear nonce. -/
  | recNonceNew
  /-- REC_NOTE (R414): The command forms a Host note record. -/
  | recNote
  /-- REC_CNT_CLR (R433): The command clears REC_CNT. -/
  | recCntClr
  /-- REC_CLEAR (R418): A tokened clear of the Saddlebag or the snapshots is accepted or refused. -/
  | recClear (v : Word)
  /-- REC_SCRUB_ERASE (R418): The background erase removes one slot below the floor every 2 ms. -/
  | recScrubErase (snapshot : Bool)
  /-- SNAPSHOT_CAPTURE (R422): A fault snapshot is captured from the replicas after registration. -/
  | snapshotCapture
  /-- LEDGER_COMMIT_DUE (R428): The commit period expires and a ledger commit is due. -/
  | ledgerCommitDue
  /-- BROWNOUT (R419): A VSUP collapse is detected; the recorder runs from HUCAP and the device resets. -/
  | brownout
  /-- REC_WALL_TICK (R430): REC_WALL advances by one second. -/
  | recWallTick
  /-- STG_PIECE (R444): The host submits a staging piece, which is judged and stored or refused. -/
  | stgPiece (v : Word)
  /-- STG_ERASE_DONE (R445): The staged-slot erase completes and the slot is RECEIVING. -/
  | stgEraseDone
  /-- STG_PAGE_DONE (R446): An image page program and verify completes; the slot may become COMPLETE or INVALID. -/
  | stgPageDone (ok : Bool)
  /-- TRUST_ACTIVATE (R447): The host requests an activation. -/
  | trustActivate
  /-- ACTIVATION_DUE (R448): A pending activation acts or is refused at the start of cycle C. -/
  | activationDue
  /-- FW_PAUSE_END (R450): The host-service pause of a firmware activation ends. -/
  | fwPauseEnd
  /-- STRUCT_LOAD_DONE (R451): The activation check and application complete, by acceptance or rejection. -/
  | structLoadDone
  /-- STRUCT_PROGRAM_START (R451): The new or restored program starts at fret 0 of the next cycle. -/
  | structProgramStart
  /-- TRUST_REPORT (R442): The host requests an attestation report. -/
  | trustReport
  /-- REPORT_DONE (R443): The signed report is formed and delivered. -/
  | reportDone
  /-- TRUST_CANCEL_FW (R456): The command cancels a pending firmware activation. -/
  | trustCancelFw
  /-- TRUST_CANCEL_ST (R456): The command cancels a pending structure activation. -/
  | trustCancelSt
  /-- TRUST_NONCE_NEW (R453): The command draws a key nonce. -/
  | trustNonceNew
  /-- KEY_WRITE_OEM (R453): The key operation writes an OEM structure key into an empty slot. -/
  | keyWriteOem (slot : Fin 4)
  /-- KEY_REVOKE (R453): The key operation revokes an OEM structure key under a token. -/
  | keyRevoke (slot : Fin 4)
  /-- KEY_WRITE_CLEAR (R453): The key operation writes the OEM clear key. -/
  | keyWriteClear
  /-- KEY_LIFECYCLE_PROD (R453): The key operation changes the lifecycle to PRODUCTION under a token. -/
  | keyLifecycleProd (slot : Fin 4)
  /-- POWER_ON (R459): VSUP rises from below 0.85 V in OFF and a power-on reset begins. -/
  | powerOn
  /-- VKA_LOSS (R459): VKA falls below its range; keep-alive contents are lost. -/
  | vkaLoss
  /-- SOFT_RESET (R459): GLOBAL_CTRL op RESET starts a reset. -/
  | softReset
  /-- RESET_END (R459): Every reset source has ended and BOOT begins. -/
  | resetEnd (addr : BitVec 3)
  /-- BOOT_COMPLETE (R462): BOOT completes; the device enters IDLE, or SAFE after a fatal fault. -/
  | bootComplete (autoarm : Bool)
  /-- GLOBAL_ARM (R465): A write of an arm key; a completing second write is judged, and a discarded sequence is refused. -/
  | globalArm (v : Word)
  /-- ARM_APPLY (R467): A pending arming takes effect at a round boundary with RUN = 1; the device enters ARMED. -/
  | armApply
  /-- DISARM (R469): GLOBAL_CTRL op DISARM moves ARMED to IDLE, or abandons a pending arming. -/
  | disarm
  /-- TEST_ENTER (R470): GLOBAL_CTRL op TEST_ENTER moves IDLE to whole-device TEST. -/
  | testEnter
  /-- TEST_EXIT (R470): GLOBAL_CTRL op TEST_EXIT returns TEST to IDLE. -/
  | testExit
  /-- HIBERNATE_REQUEST (R472): GLOBAL_CTRL op HIBERNATE starts hibernation entry, or is refused. -/
  | hibernateRequest
  /-- HIBERNATE_ENTERED (R473): Entry completes and VSUP-domain circuits power down in HIBERNATE. -/
  | hibernateEntered
  /-- HIBERNATE_WAKE (R477): A wake source wakes the device and BOOT begins once VSUP is good. -/
  | hibernateWake
  /-- TW_ADDRESS_WAKE (R476): A START with the device's own address is detected in HIBERNATE. -/
  | twAddressWake
  /-- HARNESS_ACTIVITY_WAKE (R476): Transitions on an RX pair for 2 µs are detected in HIBERNATE. -/
  | harnessActivityWake
  /-- VIO_UNDERVOLTAGE (R507): A VIO bank falls below its threshold and fault 0x0707 or 0x0708 is reported. -/
  | vioUndervoltage (x : BankLevel)
  /-- TEST_OOS_WRITE (R481): The host requests ports out of service or back in service. -/
  | testOosWrite (v : Word)
  /-- OOS_APPLY (R481): An out-of-service request takes effect at a round boundary. -/
  | oosApply
  /-- PORT_ADC_CHECK (R484): A port makes its check conversions in its check window and is judged. -/
  | portAdcCheck (p : Fin 32) (c1 c2 : Int)
  /-- CMP_SWEEP_GO (R486): The command starts a comparator sweep of a port, or is refused. -/
  | cmpSweepGo (v : Word)
  /-- CMP_SWEEP_STEP (R486): A 32 µs sweep step is judged; the last step restores the port. -/
  | cmpSweepStep (seen : Rat)
  /-- PWM_CAPTURE_GO (R487): The command requests a capture of one carrier of gate outputs. -/
  | pwmCaptureGo (v : Word)
  /-- PWM_CAPTURE_DONE (R487): The captured carrier ends and is compared with the expected edges. -/
  | pwmCaptureDone (edges : List EdgeRec)
  /-- SRAM_SCRUB_WORD (R488): A scrub read of one SRAM word corrects or reports ECC errors. -/
  | sramScrubWord (kind : SramKind) (ecc : EccRead) (errs : Nat) (last : Bool)
  /-- NVM_SCRUB_WORD (R489): A scrub read of one NVM word reports errors and may refresh its block. -/
  | nvmScrubWord (ecc : EccRead) (errs : Nat) (last : Bool)
  /-- TEST_HARN_WRITE (R490): A write cuts or resumes Harness ports. -/
  | testHarnWrite (v : Word)
  /-- JTAG_INSTRUCTION (R492): A TAP instruction is served, or loads BYPASS when not permitted. -/
  | jtagInstruction (load : TapInstr)
  /-- DBG_NONCE_NEW (R493): The command draws a debug nonce. -/
  | dbgNonceNew
  /-- DBG_UNLOCK (R493): A tokened debug unlock is accepted or refused with fault 0x0C06. -/
  | dbgUnlock (v : Word)
  /-- VIO_ABOVE_THRESHOLD (R507): A VIO bank that fell below threshold has stayed above threshold plus hysteresis for 1 ms, and the cause of fault 0x0707 or 0x0708 is gone. -/
  | vioAboveThreshold (x : BankLevel)
  /-- FEED_VLPRES_INACTIVE (R242): VLPRES of a feed in FAULT for a pass-element short has been inactive for DDLY ms, and the cause of fault 0x0404 is gone. -/
  | feedVlpresInactive (x : FeedLevel)
  deriving DecidableEq, Repr

end Sys2Proof
end

