-- ==== Sys2Proof/Decode.lean ====
section
/-! DEFINITION. Sys2Proof/Decode.lean: what command a word of the opcode table spells. -/

namespace Sys2Proof

/-- The command that an `nbits`-bit word `w` spells by the bits of the opcode table. No row of the table gives a bit: the
block is commanded by accesses, frames, pins and events, not by words of one encoding. So no word spells a command. -/
def decodeTableWord (_nbits _w : Nat) : Option Instr := none

end Sys2Proof
end

