-- ==== Sys2Proof/Machine/Regs.lean ====
section
/-! DEFINITION. Sys2Proof/Machine/Regs.lean: every register and every field of the register tables of spec/, by name.
Written from those tables: the address of a register, the place of a field, its access code (R14) and its reset value.
`Reg.X` is the map address of register X (an index per dimension where the table numbers it), `Fld.X_Y` is field Y of register X.
-/

namespace Sys2Proof.Machine

/-- A field of a register: the register's address, the lowest bit and the width (R9, R14). -/
structure Field where
  addr : Nat
  lo : Nat
  width : Nat
  deriving DecidableEq, Repr

/-- Access codes of R14. -/
inductive Access where
  | ro | rw | w1c | wo | rwl | rwi
  deriving DecidableEq, Repr

/-- One row of the register tables: base address, (stride, count) of each index, whether the structure image loads it (R64), and its fields as (lowest bit, width, access code). -/
structure RegRow where
  base : Nat
  dims : List (Nat × Nat)
  image : Bool
  fields : List (Nat × Nat × Access)
  deriving DecidableEq, Repr

namespace Reg
-- chapter 01
abbrev TIME_CTRL : Nat := 0x1000
abbrev TIME_FLO : Nat := 0x1004
abbrev TIME_FHI : Nat := 0x1008
abbrev TIME_VFREQ : Nat := 0x100C
abbrev TIME_RPC : Nat := 0x1010
abbrev TIME_RLEN : Nat := 0x1014
abbrev TIME_N : Nat := 0x1018
abbrev TIME_STATUS : Nat := 0x101C
abbrev TIME_EVENT : Nat := 0x1020
abbrev TIME_IRQEN : Nat := 0x1024
abbrev TIME_FREQ : Nat := 0x1028
abbrev TIME_GFREQ : Nat := 0x102C
abbrev TIME_GAMPL : Nat := 0x1030
abbrev TIME_GANGLE : Nat := 0x1034
abbrev TIME_ANGLE : Nat := 0x1038
abbrev TIME_PERR : Nat := 0x103C
abbrev TIME_FLEET : Nat := 0x1040
abbrev TIME_FLEET_EFF : Nat := 0x1044
abbrev TIME_TS_LO : Nat := 0x1048
abbrev TIME_TS_HI : Nat := 0x104C
abbrev TIME_HOLD_FREQ : Nat := 0x1050
abbrev TIME_COUNT : Nat := 0x1054
-- chapter 02
abbrev SCHED_STATUS : Nat := 0x2000
abbrev SCHED_LOAD : Nat := 0x2004
abbrev SCHED_EVENT : Nat := 0x2008
abbrev SCHED_IRQEN : Nat := 0x200C
abbrev SCHED_CTRL : Nat := 0x2010
abbrev SCHED_VSEL : Nat := 0x2014
abbrev SCHED_SWAP_MASK_LO : Nat := 0x2018
abbrev SCHED_SWAP_MASK_HI : Nat := 0x201C
abbrev SCHED_SWAP_GO : Nat := 0x2020
abbrev SCHED_SWAP_PEND_LO : Nat := 0x2024
abbrev SCHED_SWAP_PEND_HI : Nat := 0x2028
abbrev SCHED_SWAP_CNT : Nat := 0x202C
abbrev SCHED_QDROP : Nat := 0x2030
abbrev SCHED_IMG_ID_LO : Nat := 0x2034
abbrev SCHED_IMG_ID_HI : Nat := 0x2038
abbrev SCHED_IMG_VER : Nat := 0x203C
abbrev SCHED_SHUIDE_VER : Nat := 0x2040
abbrev SCHED_SLOTS : Nat := 0x2044
abbrev SCHED_LATSEL : Nat := 0x2048
abbrev SCHED_LAT : Nat := 0x204C
abbrev SCHED_ROUNDS : Nat := 0x2050
-- chapter 03
abbrev PORT_CFG (i : Nat) : Nat := 0x10000 + 0x400 * i
abbrev PORT_CARRIER (i : Nat) : Nat := 0x10004 + 0x400 * i
abbrev PORT_DT_A (i : Nat) : Nat := 0x10008 + 0x400 * i
abbrev PORT_DT_B (i : Nat) : Nat := 0x1000C + 0x400 * i
abbrev PORT_PMIN (i : Nat) : Nat := 0x10010 + 0x400 * i
abbrev PORT_PMAX (i : Nat) : Nat := 0x10014 + 0x400 * i
abbrev PORT_DRV (i : Nat) : Nat := 0x10018 + 0x400 * i
abbrev PORT_ZC (i : Nat) : Nat := 0x1001C + 0x400 * i
abbrev PORT_STATUS (i : Nat) : Nat := 0x10020 + 0x400 * i
abbrev PORT_EVENT (i : Nat) : Nat := 0x10024 + 0x400 * i
abbrev PORT_IRQEN (i : Nat) : Nat := 0x10028 + 0x400 * i
abbrev PORT_CTRL (i : Nat) : Nat := 0x1002C + 0x400 * i
abbrev PORT_PERIOD (i : Nat) : Nat := 0x10030 + 0x400 * i
abbrev PORT_ONTIME_A (i : Nat) : Nat := 0x10034 + 0x400 * i
abbrev PORT_ONTIME_B (i : Nat) : Nat := 0x10038 + 0x400 * i
abbrev PORT_SHIFT (i : Nat) : Nat := 0x1003C + 0x400 * i
abbrev PORT_SHIFT_B (i : Nat) : Nat := 0x10040 + 0x400 * i
abbrev PORT_SAMP_I (i : Nat) : Nat := 0x10044 + 0x400 * i
abbrev PORT_SAMP_VO (i : Nat) : Nat := 0x10048 + 0x400 * i
abbrev PORT_SAMP_VI (i : Nat) : Nat := 0x1004C + 0x400 * i
abbrev PORT_CNT (i : Nat) : Nat := 0x10050 + 0x400 * i
abbrev PORT_TRIM (i : Nat) : Nat := 0x10054 + 0x400 * i
-- chapter 04
abbrev LOOP_CFG (i : Nat) : Nat := 0x18000 + 0x200 * i
abbrev LOOP_SRC (i : Nat) : Nat := 0x18004 + 0x200 * i
abbrev LOOP_MODE (i : Nat) : Nat := 0x18008 + 0x200 * i
abbrev LOOP_UMAN (i : Nat) : Nat := 0x1800C + 0x200 * i
abbrev LOOP_STATUS (i : Nat) : Nat := 0x18010 + 0x200 * i
abbrev LOOP_EVENT (i : Nat) : Nat := 0x18014 + 0x200 * i
abbrev LOOP_IRQEN (i : Nat) : Nat := 0x18018 + 0x200 * i
abbrev LOOP_CTRL (i : Nat) : Nat := 0x1801C + 0x200 * i
abbrev LOOP_CNT (i : Nat) : Nat := 0x18020 + 0x200 * i
abbrev LOOP_R (i : Nat) : Nat := 0x18024 + 0x200 * i
abbrev LOOP_Y (i : Nat) : Nat := 0x18028 + 0x200 * i
abbrev LOOP_E (i : Nat) : Nat := 0x1802C + 0x200 * i
abbrev LOOP_P (i : Nat) : Nat := 0x18030 + 0x200 * i
abbrev LOOP_I (i : Nat) : Nat := 0x18034 + 0x200 * i
abbrev LOOP_D (i : Nat) : Nat := 0x18038 + 0x200 * i
abbrev LOOP_U (i : Nat) : Nat := 0x1803C + 0x200 * i
abbrev LOOP_Z (i : Nat) : Nat := 0x18040 + 0x200 * i
abbrev LOOP_Q (i : Nat) : Nat := 0x18044 + 0x200 * i
abbrev LOOP_SHADOW (i : Nat) (j : Nat) : Nat := 0x18100 + 0x200 * i + 0x4 * j
-- chapter 05
abbrev CMP_CFG (i : Nat) (j : Nat) : Nat := 0x10100 + 0x400 * i + 0x40 * j
abbrev CMP_TIME (i : Nat) (j : Nat) : Nat := 0x10104 + 0x400 * i + 0x40 * j
abbrev CMP_THR (i : Nat) (j : Nat) : Nat := 0x10108 + 0x400 * i + 0x40 * j
abbrev CMP_THR_ACT (i : Nat) (j : Nat) : Nat := 0x1010C + 0x400 * i + 0x40 * j
abbrev CMP_STATUS (i : Nat) (j : Nat) : Nat := 0x10110 + 0x400 * i + 0x40 * j
abbrev CMP_LATCH (i : Nat) (j : Nat) : Nat := 0x10114 + 0x400 * i + 0x40 * j
abbrev CMP_EVENT (i : Nat) (j : Nat) : Nat := 0x10118 + 0x400 * i + 0x40 * j
abbrev CMP_IRQEN (i : Nat) (j : Nat) : Nat := 0x1011C + 0x400 * i + 0x40 * j
abbrev CMP_CNT (i : Nat) (j : Nat) : Nat := 0x10120 + 0x400 * i + 0x40 * j
abbrev CMP_CTRL (i : Nat) (j : Nat) : Nat := 0x10124 + 0x400 * i + 0x40 * j
abbrev KA_TICK : Nat := 0x9800
abbrev KA_STATUS : Nat := 0x9804
abbrev KA_LATCH : Nat := 0x9808
abbrev KA_IRQEN : Nat := 0x980C
abbrev KA_CFG (i : Nat) : Nat := 0x9810 + 0x4 * i
-- chapter 06
abbrev CAPO_CFG : Nat := 0xA000
abbrev CAPO_HCFG : Nat := 0xA004
abbrev CAPO_STATUS : Nat := 0xA008
abbrev CAPO_EVENT : Nat := 0xA00C
abbrev CAPO_IRQEN : Nat := 0xA010
abbrev CAPO_CTRL : Nat := 0xA014
abbrev CAPO_BUDGET : Nat := 0xA060
abbrev CAPO_BSTAMP : Nat := 0xA064
abbrev CAPO_BCNT : Nat := 0xA068
abbrev CAPO_BTX : Nat := 0xA06C
abbrev CAPO_HCNT : Nat := 0xA070
abbrev CAPO_COURSE (i : Nat) : Nat := 0xA080 + 0x4 * i
abbrev CAPO_CSCALE (i : Nat) : Nat := 0xA100 + 0x4 * i
abbrev CAPO_CTRIM (i : Nat) : Nat := 0xA180 + 0x4 * i
abbrev CAPO_PORT (i : Nat) : Nat := 0xA200 + 0x4 * i
abbrev CAPO_PTRIM (i : Nat) : Nat := 0xA280 + 0x4 * i
abbrev CAPO_LOOP (i : Nat) : Nat := 0xA300 + 0x4 * i
abbrev CAPO_LIM_CFG (i : Nat) : Nat := 0xA400 + 0x10 * i
abbrev CAPO_LIM_MAX (i : Nat) : Nat := 0xA404 + 0x10 * i
abbrev CAPO_LIM_FLOOR (i : Nat) : Nat := 0xA408 + 0x10 * i
abbrev CAPO_LIM_LAMBDA (i : Nat) : Nat := 0xA40C + 0x10 * i
abbrev CAPO_TERM_SIG (i : Nat) : Nat := 0xA800 + 0x8 * i
abbrev CAPO_TERM_K (i : Nat) : Nat := 0xA804 + 0x8 * i
abbrev CAPO_HSEL_CFG (i : Nat) : Nat := 0xA8C0 + 0x10 * i
abbrev CAPO_HSEL_KFFN (i : Nat) : Nat := 0xA8C4 + 0x10 * i
abbrev CAPO_HSEL_KFFH (i : Nat) : Nat := 0xA8C8 + 0x10 * i
abbrev CAPO_HSEL_OUT (i : Nat) : Nat := 0xA8CC + 0x10 * i
abbrev CAPO_BTAB_ADDR (i : Nat) : Nat := 0xA900 + 0x8 * i
abbrev CAPO_BTAB_VAL (i : Nat) : Nat := 0xA904 + 0x8 * i
abbrev CAPO_LCAP : Nat := 0xA018
abbrev CAPO_SAFECAP : Nat := 0xA01C
abbrev CAPO_HOSTCAP : Nat := 0xA020
abbrev CAPO_CAP : Nat := 0xA024
abbrev CAPO_FLEETCAP : Nat := 0xA028
abbrev CAPO_PIN : Nat := 0xA02C
abbrev CAPO_BASE : Nat := 0xA030
abbrev CAPO_GAMMA : Nat := 0xA034
abbrev CAPO_RISE : Nat := 0xA038
abbrev CAPO_BETA : Nat := 0xA03C
abbrev CAPO_KSP : Nat := 0xA040
abbrev CAPO_KSC : Nat := 0xA044
abbrev CAPO_PB : Nat := 0xA048
abbrev CAPO_CB : Nat := 0xA04C
abbrev CAPO_SMIN : Nat := 0xA050
abbrev CAPO_WBAND : Nat := 0xA054
abbrev CAPO_DCLO : Nat := 0xA058
abbrev CAPO_DCHI : Nat := 0xA05C
-- chapter 07
abbrev FEED_CMD : Nat := 0x7000
abbrev FEED_SUMMARY : Nat := 0x7004
abbrev FEED_CFG (i : Nat) : Nat := 0x7100 + 0x40 * i
abbrev FEED_VSWIN (i : Nat) : Nat := 0x7104 + 0x40 * i
abbrev FEED_ITHR (i : Nat) : Nat := 0x7108 + 0x40 * i
abbrev FEED_DIODE (i : Nat) : Nat := 0x710C + 0x40 * i
abbrev FEED_PCFG (i : Nat) : Nat := 0x7110 + 0x40 * i
abbrev FEED_TIME (i : Nat) : Nat := 0x7114 + 0x40 * i
abbrev FEED_RETRY (i : Nat) : Nat := 0x7118 + 0x40 * i
abbrev FEED_SHORT (i : Nat) : Nat := 0x711C + 0x40 * i
abbrev FEED_STATUS (i : Nat) : Nat := 0x7120 + 0x40 * i
abbrev FEED_EVENT (i : Nat) : Nat := 0x7124 + 0x40 * i
abbrev FEED_IRQEN (i : Nat) : Nat := 0x7128 + 0x40 * i
abbrev FEED_CTRL (i : Nat) : Nat := 0x712C + 0x40 * i
abbrev FEED_MEAS_VS (i : Nat) : Nat := 0x7130 + 0x40 * i
abbrev FEED_MEAS_VL (i : Nat) : Nat := 0x7134 + 0x40 * i
abbrev FEED_MEAS_IS (i : Nat) : Nat := 0x7138 + 0x40 * i
abbrev FEED_CNT (i : Nat) : Nat := 0x713C + 0x40 * i
-- chapter 08
abbrev SEQ_CFG : Nat := 0x6000
abbrev SEQ_CMD : Nat := 0x6004
abbrev SEQ_STATUS : Nat := 0x6008
abbrev SEQ_SUMMARY : Nat := 0x600C
abbrev SEQ_FLAGS : Nat := 0x6010
abbrev SEQ_EVENT : Nat := 0x6014
abbrev SEQ_IRQEN : Nat := 0x6018
abbrev SEQ_CNT : Nat := 0x601C
abbrev SEQ_CTRL : Nat := 0x6020
abbrev SEQ_RCFG (i : Nat) : Nat := 0x6100 + 0x20 * i
abbrev SEQ_RTHR (i : Nat) : Nat := 0x6104 + 0x20 * i
abbrev SEQ_ROFF (i : Nat) : Nat := 0x6108 + 0x20 * i
abbrev SEQ_RTIME (i : Nat) : Nat := 0x610C + 0x20 * i
abbrev SEQ_RTO (i : Nat) : Nat := 0x6110 + 0x20 * i
abbrev SEQ_RSTAT (i : Nat) : Nat := 0x6114 + 0x20 * i
-- chapter 09
abbrev BATT_CFG (i : Nat) : Nat := 0x8000 + 0x800 * i
abbrev BATT_CHGMASK (i : Nat) : Nat := 0x8004 + 0x800 * i
abbrev BATT_TIMING (i : Nat) : Nat := 0x8008 + 0x800 * i
abbrev BATT_DTIME (i : Nat) : Nat := 0x800C + 0x800 * i
abbrev BATT_STATUS (i : Nat) : Nat := 0x8010 + 0x800 * i
abbrev BATT_WARN (i : Nat) : Nat := 0x8014 + 0x800 * i
abbrev BATT_EVENT (i : Nat) : Nat := 0x8018 + 0x800 * i
abbrev BATT_IRQEN (i : Nat) : Nat := 0x801C + 0x800 * i
abbrev BATT_CTRL (i : Nat) : Nat := 0x8020 + 0x800 * i
abbrev BATT_IDENT (i : Nat) : Nat := 0x8024 + 0x800 * i
abbrev BATT_GAP (i : Nat) : Nat := 0x8028 + 0x800 * i
abbrev BATT_SEQ (i : Nat) : Nat := 0x802C + 0x800 * i
abbrev BATT_AGE (i : Nat) : Nat := 0x8030 + 0x800 * i
abbrev BATT_RRES (i : Nat) : Nat := 0x8034 + 0x800 * i
abbrev BATT_SAVE (i : Nat) (j : Nat) : Nat := 0x8100 + 0x800 * i + 0x4 * j
abbrev BATT_RESTORE (i : Nat) (j : Nat) : Nat := 0x8180 + 0x800 * i + 0x4 * j
abbrev BATT_TEMP (i : Nat) (j : Nat) : Nat := 0x8200 + 0x800 * i + 0x4 * j
abbrev BATT_MODEL (i : Nat) (j : Nat) (k : Nat) : Nat := 0x8210 + 0x800 * i + 0x14 * j + 0x4 * k
abbrev BATT_CTERM_SIG (i : Nat) (j : Nat) : Nat := 0x8280 + 0x800 * i + 0x8 * j
abbrev BATT_CTERM_K (i : Nat) (j : Nat) : Nat := 0x8284 + 0x800 * i + 0x8 * j
abbrev BATT_OCVT (i : Nat) (j : Nat) (k : Nat) : Nat := 0x8400 + 0x800 * i + 0x84 * j + 0x4 * k
abbrev BATT_VSCALE (i : Nat) : Nat := 0x8040 + 0x800 * i
abbrev BATT_QRATED (i : Nat) : Nat := 0x8044 + 0x800 * i
abbrev BATT_IPAR (i : Nat) : Nat := 0x8048 + 0x800 * i
abbrev BATT_IREST (i : Nat) : Nat := 0x804C + 0x800 * i
abbrev BATT_DTHR (i : Nat) : Nat := 0x8050 + 0x800 * i
abbrev BATT_UANC (i : Nat) : Nat := 0x8054 + 0x800 * i
abbrev BATT_UCOLD (i : Nat) : Nat := 0x8058 + 0x800 * i
abbrev BATT_UQ (i : Nat) : Nat := 0x805C + 0x800 * i
abbrev BATT_LGAIN (i : Nat) : Nat := 0x8060 + 0x800 * i
abbrev BATT_LSTEP (i : Nat) : Nat := 0x8064 + 0x800 * i
abbrev BATT_KQ (i : Nat) : Nat := 0x8068 + 0x800 * i
abbrev BATT_KR (i : Nat) : Nat := 0x806C + 0x800 * i
abbrev BATT_IDSTEP (i : Nat) : Nat := 0x8070 + 0x800 * i
abbrev BATT_SLOPEMIN (i : Nat) : Nat := 0x8074 + 0x800 * i
abbrev BATT_W1S (i : Nat) : Nat := 0x8080 + 0x800 * i
abbrev BATT_W2S (i : Nat) : Nat := 0x8084 + 0x800 * i
abbrev BATT_W3S (i : Nat) : Nat := 0x8088 + 0x800 * i
abbrev BATT_C1S (i : Nat) : Nat := 0x808C + 0x800 * i
abbrev BATT_C2S (i : Nat) : Nat := 0x8090 + 0x800 * i
abbrev BATT_SHYS (i : Nat) : Nat := 0x8094 + 0x800 * i
abbrev BATT_W1V (i : Nat) : Nat := 0x8098 + 0x800 * i
abbrev BATT_W2V (i : Nat) : Nat := 0x809C + 0x800 * i
abbrev BATT_W3V (i : Nat) : Nat := 0x80A0 + 0x800 * i
abbrev BATT_C1V (i : Nat) : Nat := 0x80A4 + 0x800 * i
abbrev BATT_C2V (i : Nat) : Nat := 0x80A8 + 0x800 * i
abbrev BATT_VHYS (i : Nat) : Nat := 0x80AC + 0x800 * i
abbrev BATT_V (i : Nat) : Nat := 0x80C0 + 0x800 * i
abbrev BATT_I (i : Nat) : Nat := 0x80C4 + 0x800 * i
abbrev BATT_T (i : Nat) : Nat := 0x80C8 + 0x800 * i
abbrev BATT_SOC (i : Nat) : Nat := 0x80CC + 0x800 * i
abbrev BATT_SOCQ (i : Nat) : Nat := 0x80D0 + 0x800 * i
abbrev BATT_OCV (i : Nat) : Nat := 0x80D4 + 0x800 * i
abbrev BATT_V1 (i : Nat) : Nat := 0x80D8 + 0x800 * i
abbrev BATT_V2 (i : Nat) : Nat := 0x80DC + 0x800 * i
abbrev BATT_U (i : Nat) : Nat := 0x80E0 + 0x800 * i
abbrev BATT_QCAP (i : Nat) : Nat := 0x80E4 + 0x800 * i
abbrev BATT_SOH (i : Nat) : Nat := 0x80E8 + 0x800 * i
abbrev BATT_R0F (i : Nat) : Nat := 0x80EC + 0x800 * i
abbrev BATT_SOCA (i : Nat) : Nat := 0x80F0 + 0x800 * i
abbrev BATT_QSUM (i : Nat) : Nat := 0x80F4 + 0x800 * i
-- chapter 10
abbrev HK_CFG : Nat := 0x9000
abbrev HK_STATUS : Nat := 0x9004
abbrev HK_EVENT : Nat := 0x9008
abbrev HK_IRQEN : Nat := 0x900C
abbrev HK_CTRL : Nat := 0x9010
abbrev HK_ROUNDS : Nat := 0x9014
abbrev HK_LEVEL (i : Nat) : Nat := 0x9018 + 0x4 * i
abbrev HK_MUTABLE : Nat := 0x9028
abbrev HK_BROKEN : Nat := 0x902C
abbrev HK_TJ : Nat := 0x9030
abbrev HK_BCHG (i : Nat) : Nat := 0x9034 + 0x4 * i
abbrev HK_CHGINH (i : Nat) : Nat := 0x903C + 0x4 * i
abbrev HK_CODE (i : Nat) : Nat := 0x9100 + 0x4 * i
abbrev HK_TEMP (i : Nat) : Nat := 0x9200 + 0x4 * i
abbrev HK_SCFG (i : Nat) : Nat := 0x9300 + 0x4 * i
abbrev HK_G_CFG (i : Nat) : Nat := 0x9400 + 0x10 * i
abbrev HK_G_LIM (i : Nat) : Nat := 0x9404 + 0x10 * i
abbrev HK_G_CRS (i : Nat) : Nat := 0x9408 + 0x10 * i
abbrev HK_G_STAT (i : Nat) : Nat := 0x940C + 0x10 * i
-- chapter 11
abbrev HARNESS_CFG : Nat := 0x4000
abbrev HARNESS_ADDR : Nat := 0x4004
abbrev HARNESS_ROLE : Nat := 0x4008
abbrev HARNESS_STATUS : Nat := 0x400C
abbrev HARNESS_EVENT : Nat := 0x4010
abbrev HARNESS_IRQEN : Nat := 0x4014
abbrev HARNESS_CTRL : Nat := 0x4018
abbrev HARNESS_RANGE_DN : Nat := 0x401C
abbrev HARNESS_RANGE_BR : Nat := 0x4020
abbrev HARNESS_LINKDLY : Nat := 0x4024
abbrev HARNESS_PATHDLY : Nat := 0x4028
abbrev HARNESS_FWDLAT : Nat := 0x402C
abbrev HARNESS_PCNT (i : Nat) : Nat := 0x4030 + 0x4 * i
abbrev HARNESS_NCNT : Nat := 0x403C
abbrev HARNESS_TXSTAT : Nat := 0x4040
abbrev HARNESS_ROOTEPOCH : Nat := 0x4044
abbrev HARNESS_TXBUF (i : Nat) : Nat := 0x4100 + 0x4 * i
-- chapter 12
abbrev HOSTIF_STATUS : Nat := 0x5000
abbrev HOSTIF_EVENT : Nat := 0x5004
abbrev HOSTIF_IRQEN : Nat := 0x5008
abbrev HOSTIF_IRQSUM : Nat := 0x500C
abbrev HOSTIF_WINBASE : Nat := 0x5010
abbrev HOSTIF_BULK_CFG : Nat := 0x5014
abbrev HOSTIF_FILL : Nat := 0x5018
abbrev HOSTIF_BULK_STAT : Nat := 0x501C
abbrev HOSTIF_TW_CFG : Nat := 0x5020
abbrev HOSTIF_TW_TIMING : Nat := 0x5024
abbrev HOSTIF_TWC_CTRL : Nat := 0x5028
abbrev HOSTIF_TWC_SCL : Nat := 0x502C
abbrev HOSTIF_TWC_STAT : Nat := 0x5030
abbrev HOSTIF_CNT : Nat := 0x5034
abbrev HOSTIF_CTRL : Nat := 0x5038
abbrev HOSTIF_QFL_CFG : Nat := 0x503C
abbrev HOSTIF_QEVENT_LO : Nat := 0x5040
abbrev HOSTIF_QEVENT_HI : Nat := 0x5044
abbrev HOSTIF_QIRQEN_LO : Nat := 0x5048
abbrev HOSTIF_QIRQEN_HI : Nat := 0x504C
abbrev HOSTIF_TWC_BUF (i : Nat) : Nat := 0x5080 + 0x4 * i
abbrev HOSTIF_Q_CFG (i : Nat) : Nat := 0x5800 + 0x20 * i
abbrev HOSTIF_Q_WM (i : Nat) : Nat := 0x5804 + 0x20 * i
abbrev HOSTIF_Q_STAT (i : Nat) : Nat := 0x5808 + 0x20 * i
abbrev HOSTIF_Q_DROP (i : Nat) : Nat := 0x580C + 0x20 * i
abbrev HOSTIF_Q_CTRL (i : Nat) : Nat := 0x5810 + 0x20 * i
-- chapter 13
abbrev FAULT_STATUS : Nat := 0x3000
abbrev FAULT_EVENT : Nat := 0x3004
abbrev FAULT_IRQEN : Nat := 0x3008
abbrev FAULT_CLR : Nat := 0x300C
abbrev FAULT_LAST : Nat := 0x3010
abbrev FAULT_LAST_TS_LO : Nat := 0x3014
abbrev FAULT_LAST_TS_HI : Nat := 0x3018
abbrev FAULT_CORR : Nat := 0x301C
abbrev FAULT_CFG : Nat := 0x3020
abbrev FAULT_CTRL : Nat := 0x3024
abbrev FAULT_HWD_CTRL : Nat := 0x3040
abbrev FAULT_HWD_CFG : Nat := 0x3044
abbrev FAULT_HWD_OPEN : Nat := 0x3048
abbrev FAULT_HWD_CLOSE : Nat := 0x304C
abbrev FAULT_HWD_TOKKEY : Nat := 0x3050
abbrev FAULT_HWD_KEY : Nat := 0x3054
abbrev FAULT_HWD_Q : Nat := 0x3058
abbrev FAULT_HWD_ANS : Nat := 0x305C
abbrev FAULT_HWD_CHECKIN : Nat := 0x3060
abbrev FAULT_HWD_EXP : Nat := 0x3064
abbrev FAULT_HWD_STAT : Nat := 0x3068
abbrev FAULT_HWD_TIME : Nat := 0x306C
abbrev FAULT_HWD_SCNT : Nat := 0x3070
abbrev FAULT_FWD_STAT : Nat := 0x3080
abbrev FAULT_FWD_PC : Nat := 0x3084
abbrev FAULT_FWD_TS_LO : Nat := 0x3088
abbrev FAULT_FWD_TS_HI : Nat := 0x308C
abbrev FAULT_BCNT (i : Nat) : Nat := 0x3104 + 0x4 * i
abbrev FAULT_ENTRY_CODE (i : Nat) : Nat := 0x3200 + 0x10 * i
abbrev FAULT_ENTRY_CNT (i : Nat) : Nat := 0x3204 + 0x10 * i
abbrev FAULT_ENTRY_TS_LO (i : Nat) : Nat := 0x3208 + 0x10 * i
abbrev FAULT_ENTRY_TS_HI (i : Nat) : Nat := 0x320C + 0x10 * i
-- chapter 14
abbrev REC_CFG : Nat := 0xB000
abbrev REC_STATUS : Nat := 0xB004
abbrev REC_EVENT : Nat := 0xB008
abbrev REC_IRQEN : Nat := 0xB00C
abbrev REC_CTRL : Nat := 0xB010
abbrev REC_NEXT : Nat := 0xB014
abbrev REC_FLOOR : Nat := 0xB018
abbrev REC_CNT : Nat := 0xB01C
abbrev REC_WALL : Nat := 0xB020
abbrev REC_LEDGER : Nat := 0xB024
abbrev REC_SNAPSEQ : Nat := 0xB028
abbrev REC_CLEAR : Nat := 0xB02C
abbrev REC_NONCE (i : Nat) : Nat := 0xB040 + 0x4 * i
abbrev REC_TOKEN (i : Nat) : Nat := 0xB060 + 0x4 * i
abbrev REC_NOTE (i : Nat) : Nat := 0xB080 + 0x4 * i
-- chapter 15
abbrev TRUST_STATUS : Nat := 0xC000
abbrev TRUST_EVENT : Nat := 0xC004
abbrev TRUST_IRQEN : Nat := 0xC008
abbrev TRUST_CTRL : Nat := 0xC00C
abbrev TRUST_ACT_CFG : Nat := 0xC010
abbrev TRUST_ACT_CC : Nat := 0xC014
abbrev TRUST_ACT_ID_LO : Nat := 0xC018
abbrev TRUST_ACT_ID_HI : Nat := 0xC01C
abbrev TRUST_ACT_RES : Nat := 0xC020
abbrev TRUST_PEND_FW : Nat := 0xC024
abbrev TRUST_PEND_ST : Nat := 0xC028
abbrev TRUST_BOOTCNT : Nat := 0xC02C
abbrev TRUST_DEVID_LO : Nat := 0xC030
abbrev TRUST_DEVID_HI : Nat := 0xC034
abbrev TRUST_STG_OFS : Nat := 0xC038
abbrev TRUST_STG_TOTAL : Nat := 0xC03C
abbrev TRUST_STG_CTRL : Nat := 0xC040
abbrev TRUST_STG_STAT : Nat := 0xC044
abbrev TRUST_STG_NEXT : Nat := 0xC048
abbrev TRUST_KEYCMD : Nat := 0xC04C
abbrev TRUST_KEYSTAT : Nat := 0xC050
abbrev TRUST_NONCE (i : Nat) : Nat := 0xC060 + 0x4 * i
abbrev TRUST_TOKEN (i : Nat) : Nat := 0xC080 + 0x4 * i
abbrev TRUST_KNONCE (i : Nat) : Nat := 0xC0A0 + 0x4 * i
abbrev TRUST_REPORT (i : Nat) : Nat := 0xC100 + 0x4 * i
abbrev TRUST_M (i : Nat) (j : Nat) : Nat := 0xC300 + 0x30 * i + 0x4 * j
abbrev TRUST_KEYDATA (i : Nat) : Nat := 0xC400 + 0x4 * i
abbrev TRUST_STG_DATA (i : Nat) : Nat := 0xC800 + 0x4 * i
-- chapter 16
abbrev GLOBAL_ID : Nat := 0x0
abbrev GLOBAL_STATE : Nat := 0x4
abbrev GLOBAL_EVENT : Nat := 0x8
abbrev GLOBAL_IRQEN : Nat := 0xC
abbrev GLOBAL_ARM : Nat := 0x10
abbrev GLOBAL_ARMSTAT : Nat := 0x14
abbrev GLOBAL_CTRL : Nat := 0x18
abbrev GLOBAL_RSTCAUSE : Nat := 0x1C
abbrev GLOBAL_WAKE_EN : Nat := 0x20
abbrev GLOBAL_WAKESRC : Nat := 0x24
abbrev GLOBAL_ALARM : Nat := 0x28
abbrev GLOBAL_CFG : Nat := 0x2C
abbrev GLOBAL_STRAP : Nat := 0x30
abbrev GLOBAL_BOOTTIME : Nat := 0x34
abbrev GLOBAL_HIBTIME : Nat := 0x38
-- chapter 17
abbrev TEST_STATUS : Nat := 0xD000
abbrev TEST_EVENT : Nat := 0xD004
abbrev TEST_IRQEN : Nat := 0xD008
abbrev TEST_OOS : Nat := 0xD00C
abbrev TEST_OOS_ACT : Nat := 0xD010
abbrev TEST_CHK_CFG : Nat := 0xD014
abbrev TEST_ADC_EN : Nat := 0xD018
abbrev TEST_ADC_FAIL : Nat := 0xD01C
abbrev TEST_ADC_NA : Nat := 0xD020
abbrev TEST_HK_FAIL : Nat := 0xD024
abbrev TEST_CMP_CTRL : Nat := 0xD028
abbrev TEST_CMP_STAT : Nat := 0xD02C
abbrev TEST_CMP_RES (i : Nat) : Nat := 0xD030 + 0x4 * i
abbrev TEST_PWM_CTRL : Nat := 0xD040
abbrev TEST_PWM_STAT : Nat := 0xD044
abbrev TEST_SCRUB_CFG : Nat := 0xD048
abbrev TEST_SCRUB_STAT : Nat := 0xD04C
abbrev TEST_HARN : Nat := 0xD050
abbrev TEST_JTAG : Nat := 0xD054
abbrev TEST_IDCODE : Nat := 0xD058
abbrev TEST_DBG_CTRL : Nat := 0xD05C
abbrev TEST_DNONCE (i : Nat) : Nat := 0xD060 + 0x4 * i
abbrev TEST_DTOKEN (i : Nat) : Nat := 0xD070 + 0x4 * i
abbrev TEST_PWM_EDGE (i : Nat) : Nat := 0xD100 + 0x4 * i
-- image-only words of the TIME block (R65, R524)
abbrev PLL_KP : Nat := 0x1200
abbrev PLL_KI : Nat := 0x1204
abbrev PLL_WFF : Nat := 0x1208
end Reg

namespace Fld
abbrev TIME_CTRL_SRC : Field := ⟨Reg.TIME_CTRL, 0, 2⟩
abbrev TIME_CTRL_FB : Field := ⟨Reg.TIME_CTRL, 2, 1⟩
abbrev TIME_CTRL_THREE_PH : Field := ⟨Reg.TIME_CTRL, 3, 1⟩
abbrev TIME_CTRL_HOLD : Field := ⟨Reg.TIME_CTRL, 8, 5⟩
abbrev TIME_CTRL_PULL : Field := ⟨Reg.TIME_CTRL, 16, 2⟩
abbrev TIME_CTRL_SLEW : Field := ⟨Reg.TIME_CTRL, 18, 2⟩
abbrev TIME_CTRL_RET : Field := ⟨Reg.TIME_CTRL, 24, 8⟩
abbrev TIME_FLO_MHZ : Field := ⟨Reg.TIME_FLO, 0, 17⟩
abbrev TIME_FHI_MHZ : Field := ⟨Reg.TIME_FHI, 0, 17⟩
abbrev TIME_VFREQ_MHZ : Field := ⟨Reg.TIME_VFREQ, 0, 17⟩
abbrev TIME_RPC_RPC : Field := ⟨Reg.TIME_RPC, 0, 16⟩
abbrev TIME_RLEN_RLEN : Field := ⟨Reg.TIME_RLEN, 0, 13⟩
abbrev TIME_N_N : Field := ⟨Reg.TIME_N, 0, 32⟩
abbrev TIME_STATUS_STATE : Field := ⟨Reg.TIME_STATUS, 0, 3⟩
abbrev TIME_STATUS_SRC_ACT : Field := ⟨Reg.TIME_STATUS, 4, 2⟩
abbrev TIME_STATUS_MAINS_QUAL : Field := ⟨Reg.TIME_STATUS, 8, 1⟩
abbrev TIME_STATUS_MAINS_LOCK : Field := ⟨Reg.TIME_STATUS, 9, 1⟩
abbrev TIME_STATUS_HARN_VALID : Field := ⟨Reg.TIME_STATUS, 10, 1⟩
abbrev TIME_STATUS_ALIGNED : Field := ⟨Reg.TIME_STATUS, 11, 1⟩
abbrev TIME_STATUS_CLAMP : Field := ⟨Reg.TIME_STATUS, 12, 1⟩
abbrev TIME_STATUS_FLEET_SLEW : Field := ⟨Reg.TIME_STATUS, 13, 1⟩
abbrev TIME_STATUS_SEQ_REV : Field := ⟨Reg.TIME_STATUS, 14, 1⟩
abbrev TIME_STATUS_CC_ADOPTED : Field := ⟨Reg.TIME_STATUS, 15, 1⟩
abbrev TIME_EVENT_LOCK_GAIN : Field := ⟨Reg.TIME_EVENT, 0, 1⟩
abbrev TIME_EVENT_LOCK_LOSS : Field := ⟨Reg.TIME_EVENT, 1, 1⟩
abbrev TIME_EVENT_HOLD_ENTER : Field := ⟨Reg.TIME_EVENT, 2, 1⟩
abbrev TIME_EVENT_SLEW_START : Field := ⟨Reg.TIME_EVENT, 3, 1⟩
abbrev TIME_EVENT_VIRT_REACHED : Field := ⟨Reg.TIME_EVENT, 4, 1⟩
abbrev TIME_EVENT_TRANSFER_START : Field := ⟨Reg.TIME_EVENT, 5, 1⟩
abbrev TIME_EVENT_LOCKED_REACHED : Field := ⟨Reg.TIME_EVENT, 6, 1⟩
abbrev TIME_EVENT_PHASE_JUMP : Field := ⟨Reg.TIME_EVENT, 7, 1⟩
abbrev TIME_EVENT_CLAMP_HIT : Field := ⟨Reg.TIME_EVENT, 8, 1⟩
abbrev TIME_EVENT_TUNING_MISS : Field := ⟨Reg.TIME_EVENT, 9, 1⟩
abbrev TIME_EVENT_CC_MISMATCH : Field := ⟨Reg.TIME_EVENT, 10, 1⟩
abbrev TIME_EVENT_SEQ_REV : Field := ⟨Reg.TIME_EVENT, 11, 1⟩
abbrev TIME_IRQEN_LOCK_GAIN : Field := ⟨Reg.TIME_IRQEN, 0, 1⟩
abbrev TIME_IRQEN_LOCK_LOSS : Field := ⟨Reg.TIME_IRQEN, 1, 1⟩
abbrev TIME_IRQEN_HOLD_ENTER : Field := ⟨Reg.TIME_IRQEN, 2, 1⟩
abbrev TIME_IRQEN_SLEW_START : Field := ⟨Reg.TIME_IRQEN, 3, 1⟩
abbrev TIME_IRQEN_VIRT_REACHED : Field := ⟨Reg.TIME_IRQEN, 4, 1⟩
abbrev TIME_IRQEN_TRANSFER_START : Field := ⟨Reg.TIME_IRQEN, 5, 1⟩
abbrev TIME_IRQEN_LOCKED_REACHED : Field := ⟨Reg.TIME_IRQEN, 6, 1⟩
abbrev TIME_IRQEN_PHASE_JUMP : Field := ⟨Reg.TIME_IRQEN, 7, 1⟩
abbrev TIME_IRQEN_CLAMP_HIT : Field := ⟨Reg.TIME_IRQEN, 8, 1⟩
abbrev TIME_IRQEN_TUNING_MISS : Field := ⟨Reg.TIME_IRQEN, 9, 1⟩
abbrev TIME_IRQEN_CC_MISMATCH : Field := ⟨Reg.TIME_IRQEN, 10, 1⟩
abbrev TIME_IRQEN_SEQ_REV : Field := ⟨Reg.TIME_IRQEN, 11, 1⟩
abbrev TIME_FREQ_FREQ : Field := ⟨Reg.TIME_FREQ, 0, 27⟩
abbrev TIME_GFREQ_GFREQ : Field := ⟨Reg.TIME_GFREQ, 0, 27⟩
abbrev TIME_GAMPL_GAMPL : Field := ⟨Reg.TIME_GAMPL, 0, 16⟩
abbrev TIME_GANGLE_GANGLE : Field := ⟨Reg.TIME_GANGLE, 0, 32⟩
abbrev TIME_ANGLE_ANGLE : Field := ⟨Reg.TIME_ANGLE, 0, 32⟩
abbrev TIME_PERR_PERR : Field := ⟨Reg.TIME_PERR, 0, 32⟩
abbrev TIME_FLEET_FLEET : Field := ⟨Reg.TIME_FLEET, 0, 32⟩
abbrev TIME_FLEET_EFF_FLEET_EFF : Field := ⟨Reg.TIME_FLEET_EFF, 0, 32⟩
abbrev TIME_TS_LO_TS_LO : Field := ⟨Reg.TIME_TS_LO, 0, 32⟩
abbrev TIME_TS_HI_TS_HI : Field := ⟨Reg.TIME_TS_HI, 0, 32⟩
abbrev TIME_HOLD_FREQ_HOLD_FREQ : Field := ⟨Reg.TIME_HOLD_FREQ, 0, 27⟩
abbrev TIME_COUNT_LOSS_CNT : Field := ⟨Reg.TIME_COUNT, 0, 16⟩
abbrev TIME_COUNT_JUMP_CNT : Field := ⟨Reg.TIME_COUNT, 16, 16⟩
abbrev SCHED_STATUS_LOADED : Field := ⟨Reg.SCHED_STATUS, 0, 1⟩
abbrev SCHED_STATUS_RUN : Field := ⟨Reg.SCHED_STATUS, 1, 1⟩
abbrev SCHED_STATUS_MODIFIED : Field := ⟨Reg.SCHED_STATUS, 2, 1⟩
abbrev SCHED_STATUS_VACT : Field := ⟨Reg.SCHED_STATUS, 3, 2⟩
abbrev SCHED_STATUS_VPEND : Field := ⟨Reg.SCHED_STATUS, 5, 1⟩
abbrev SCHED_STATUS_VREQ : Field := ⟨Reg.SCHED_STATUS, 6, 2⟩
abbrev SCHED_STATUS_VAVAIL : Field := ⟨Reg.SCHED_STATUS, 8, 4⟩
abbrev SCHED_STATUS_PROFILE : Field := ⟨Reg.SCHED_STATUS, 12, 2⟩
abbrev SCHED_STATUS_AUTOARM_HON : Field := ⟨Reg.SCHED_STATUS, 14, 1⟩
abbrev SCHED_STATUS_DEVKEY : Field := ⟨Reg.SCHED_STATUS, 15, 1⟩
abbrev SCHED_LOAD_RESULT : Field := ⟨Reg.SCHED_LOAD, 0, 2⟩
abbrev SCHED_LOAD_REASON : Field := ⟨Reg.SCHED_LOAD, 8, 8⟩
abbrev SCHED_LOAD_SECT : Field := ⟨Reg.SCHED_LOAD, 16, 5⟩
abbrev SCHED_LOAD_SOURCE : Field := ⟨Reg.SCHED_LOAD, 24, 1⟩
abbrev SCHED_EVENT_LOAD_OK : Field := ⟨Reg.SCHED_EVENT, 0, 1⟩
abbrev SCHED_EVENT_LOAD_REJ : Field := ⟨Reg.SCHED_EVENT, 1, 1⟩
abbrev SCHED_EVENT_ENGINE_START : Field := ⟨Reg.SCHED_EVENT, 2, 1⟩
abbrev SCHED_EVENT_SWAP_DONE : Field := ⟨Reg.SCHED_EVENT, 3, 1⟩
abbrev SCHED_EVENT_SWAP_IGN : Field := ⟨Reg.SCHED_EVENT, 4, 1⟩
abbrev SCHED_EVENT_SHADOW_BUSY : Field := ⟨Reg.SCHED_EVENT, 5, 1⟩
abbrev SCHED_EVENT_VSEL_DONE : Field := ⟨Reg.SCHED_EVENT, 6, 1⟩
abbrev SCHED_EVENT_VSEL_REFUSED : Field := ⟨Reg.SCHED_EVENT, 7, 1⟩
abbrev SCHED_EVENT_QDROP : Field := ⟨Reg.SCHED_EVENT, 8, 1⟩
abbrev SCHED_EVENT_MODIFIED : Field := ⟨Reg.SCHED_EVENT, 9, 1⟩
abbrev SCHED_IRQEN_LOAD_OK : Field := ⟨Reg.SCHED_IRQEN, 0, 1⟩
abbrev SCHED_IRQEN_LOAD_REJ : Field := ⟨Reg.SCHED_IRQEN, 1, 1⟩
abbrev SCHED_IRQEN_ENGINE_START : Field := ⟨Reg.SCHED_IRQEN, 2, 1⟩
abbrev SCHED_IRQEN_SWAP_DONE : Field := ⟨Reg.SCHED_IRQEN, 3, 1⟩
abbrev SCHED_IRQEN_SWAP_IGN : Field := ⟨Reg.SCHED_IRQEN, 4, 1⟩
abbrev SCHED_IRQEN_SHADOW_BUSY : Field := ⟨Reg.SCHED_IRQEN, 5, 1⟩
abbrev SCHED_IRQEN_VSEL_DONE : Field := ⟨Reg.SCHED_IRQEN, 6, 1⟩
abbrev SCHED_IRQEN_VSEL_REFUSED : Field := ⟨Reg.SCHED_IRQEN, 7, 1⟩
abbrev SCHED_IRQEN_QDROP : Field := ⟨Reg.SCHED_IRQEN, 8, 1⟩
abbrev SCHED_IRQEN_MODIFIED : Field := ⟨Reg.SCHED_IRQEN, 9, 1⟩
abbrev SCHED_CTRL_QDROP_CLR : Field := ⟨Reg.SCHED_CTRL, 0, 1⟩
abbrev SCHED_VSEL_VARIANT : Field := ⟨Reg.SCHED_VSEL, 0, 2⟩
abbrev SCHED_VSEL_KEY : Field := ⟨Reg.SCHED_VSEL, 16, 16⟩
abbrev SCHED_SWAP_MASK_LO_MASK_LO : Field := ⟨Reg.SCHED_SWAP_MASK_LO, 0, 32⟩
abbrev SCHED_SWAP_MASK_HI_MASK_HI : Field := ⟨Reg.SCHED_SWAP_MASK_HI, 0, 32⟩
abbrev SCHED_SWAP_GO_GO : Field := ⟨Reg.SCHED_SWAP_GO, 0, 1⟩
abbrev SCHED_SWAP_PEND_LO_PEND_LO : Field := ⟨Reg.SCHED_SWAP_PEND_LO, 0, 32⟩
abbrev SCHED_SWAP_PEND_HI_PEND_HI : Field := ⟨Reg.SCHED_SWAP_PEND_HI, 0, 32⟩
abbrev SCHED_SWAP_CNT_SWAP_CNT : Field := ⟨Reg.SCHED_SWAP_CNT, 0, 32⟩
abbrev SCHED_QDROP_QDROP : Field := ⟨Reg.SCHED_QDROP, 0, 32⟩
abbrev SCHED_IMG_ID_LO_IMG_ID_LO : Field := ⟨Reg.SCHED_IMG_ID_LO, 0, 32⟩
abbrev SCHED_IMG_ID_HI_IMG_ID_HI : Field := ⟨Reg.SCHED_IMG_ID_HI, 0, 32⟩
abbrev SCHED_IMG_VER_IMG_VER : Field := ⟨Reg.SCHED_IMG_VER, 0, 32⟩
abbrev SCHED_SHUIDE_VER_SHUIDE_VER : Field := ⟨Reg.SCHED_SHUIDE_VER, 0, 32⟩
abbrev SCHED_SLOTS_USED : Field := ⟨Reg.SCHED_SLOTS, 0, 16⟩
abbrev SCHED_SLOTS_CAPACITY : Field := ⟨Reg.SCHED_SLOTS, 16, 16⟩
abbrev SCHED_LATSEL_SEL : Field := ⟨Reg.SCHED_LATSEL, 0, 7⟩
abbrev SCHED_LAT_SFRET : Field := ⟨Reg.SCHED_LAT, 0, 12⟩
abbrev SCHED_LAT_CFRET : Field := ⟨Reg.SCHED_LAT, 12, 12⟩
abbrev SCHED_LAT_CROSS : Field := ⟨Reg.SCHED_LAT, 24, 1⟩
abbrev SCHED_LAT_DECLARED : Field := ⟨Reg.SCHED_LAT, 25, 1⟩
abbrev SCHED_LAT_D : Field := ⟨Reg.SCHED_LAT, 26, 6⟩
abbrev SCHED_ROUNDS_ROUNDS : Field := ⟨Reg.SCHED_ROUNDS, 0, 32⟩
abbrev PORT_CFG_ENABLE (i : Nat) : Field := ⟨Reg.PORT_CFG i, 0, 1⟩
abbrev PORT_CFG_TOPO (i : Nat) : Field := ⟨Reg.PORT_CFG i, 1, 4⟩
abbrev PORT_CFG_COURSE (i : Nat) : Field := ⟨Reg.PORT_CFG i, 5, 5⟩
abbrev PORT_CFG_MEMBER (i : Nat) : Field := ⟨Reg.PORT_CFG i, 10, 3⟩
abbrev PORT_CFG_PHASE (i : Nat) : Field := ⟨Reg.PORT_CFG i, 13, 2⟩
abbrev PORT_CFG_FREE (i : Nat) : Field := ⟨Reg.PORT_CFG i, 15, 1⟩
abbrev PORT_CFG_MODE_A (i : Nat) : Field := ⟨Reg.PORT_CFG i, 16, 1⟩
abbrev PORT_CFG_MODE_B (i : Nat) : Field := ⟨Reg.PORT_CFG i, 17, 1⟩
abbrev PORT_CFG_UPD (i : Nat) : Field := ⟨Reg.PORT_CFG i, 18, 2⟩
abbrev PORT_CFG_FULLB (i : Nat) : Field := ⟨Reg.PORT_CFG i, 20, 1⟩
abbrev PORT_CFG_PGA (i : Nat) : Field := ⟨Reg.PORT_CFG i, 24, 2⟩
abbrev PORT_CARRIER_OFFSET (i : Nat) : Field := ⟨Reg.PORT_CARRIER i, 0, 24⟩
abbrev PORT_CARRIER_RATIO (i : Nat) : Field := ⟨Reg.PORT_CARRIER i, 24, 4⟩
abbrev PORT_DT_A_DT_ON_A (i : Nat) : Field := ⟨Reg.PORT_DT_A i, 0, 10⟩
abbrev PORT_DT_A_DT_ON_AN (i : Nat) : Field := ⟨Reg.PORT_DT_A i, 16, 10⟩
abbrev PORT_DT_B_DT_ON_B (i : Nat) : Field := ⟨Reg.PORT_DT_B i, 0, 10⟩
abbrev PORT_DT_B_DT_ON_BN (i : Nat) : Field := ⟨Reg.PORT_DT_B i, 16, 10⟩
abbrev PORT_PMIN_PMIN (i : Nat) : Field := ⟨Reg.PORT_PMIN i, 0, 24⟩
abbrev PORT_PMAX_PMAX (i : Nat) : Field := ⟨Reg.PORT_PMAX i, 0, 24⟩
abbrev PORT_DRV_FLT_POL (i : Nat) : Field := ⟨Reg.PORT_DRV i, 0, 1⟩
abbrev PORT_DRV_FLT_USE (i : Nat) : Field := ⟨Reg.PORT_DRV i, 1, 1⟩
abbrev PORT_DRV_FLT_FILT (i : Nat) : Field := ⟨Reg.PORT_DRV i, 2, 6⟩
abbrev PORT_DRV_FLT_SCOPE (i : Nat) : Field := ⟨Reg.PORT_DRV i, 8, 2⟩
abbrev PORT_DRV_EN_SETTLE (i : Nat) : Field := ⟨Reg.PORT_DRV i, 10, 8⟩
abbrev PORT_ZC_ZCW (i : Nat) : Field := ⟨Reg.PORT_ZC i, 0, 16⟩
abbrev PORT_STATUS_STATE (i : Nat) : Field := ⟨Reg.PORT_STATUS i, 0, 3⟩
abbrev PORT_STATUS_EN (i : Nat) : Field := ⟨Reg.PORT_STATUS i, 3, 1⟩
abbrev PORT_STATUS_FLT (i : Nat) : Field := ⟨Reg.PORT_STATUS i, 4, 1⟩
abbrev PORT_STATUS_ZC (i : Nat) : Field := ⟨Reg.PORT_STATUS i, 5, 1⟩
abbrev PORT_STATUS_HALF_NEG (i : Nat) : Field := ⟨Reg.PORT_STATUS i, 6, 1⟩
abbrev PORT_STATUS_SHORT_CYC (i : Nat) : Field := ⟨Reg.PORT_STATUS i, 7, 1⟩
abbrev PORT_STATUS_DCLAMP (i : Nat) : Field := ⟨Reg.PORT_STATUS i, 8, 1⟩
abbrev PORT_EVENT_DRV_FLT (i : Nat) : Field := ⟨Reg.PORT_EVENT i, 0, 1⟩
abbrev PORT_EVENT_ADC_BUSY (i : Nat) : Field := ⟨Reg.PORT_EVENT i, 1, 1⟩
abbrev PORT_EVENT_ADC_OVR (i : Nat) : Field := ⟨Reg.PORT_EVENT i, 2, 1⟩
abbrev PORT_EVENT_DCLAMP (i : Nat) : Field := ⟨Reg.PORT_EVENT i, 3, 1⟩
abbrev PORT_EVENT_STRETCH (i : Nat) : Field := ⟨Reg.PORT_EVENT i, 4, 1⟩
abbrev PORT_EVENT_ACTIVE_START (i : Nat) : Field := ⟨Reg.PORT_EVENT i, 5, 1⟩
abbrev PORT_EVENT_INERT_ENTER (i : Nat) : Field := ⟨Reg.PORT_EVENT i, 6, 1⟩
abbrev PORT_IRQEN_DRV_FLT (i : Nat) : Field := ⟨Reg.PORT_IRQEN i, 0, 1⟩
abbrev PORT_IRQEN_ADC_BUSY (i : Nat) : Field := ⟨Reg.PORT_IRQEN i, 1, 1⟩
abbrev PORT_IRQEN_ADC_OVR (i : Nat) : Field := ⟨Reg.PORT_IRQEN i, 2, 1⟩
abbrev PORT_IRQEN_DCLAMP (i : Nat) : Field := ⟨Reg.PORT_IRQEN i, 3, 1⟩
abbrev PORT_IRQEN_STRETCH (i : Nat) : Field := ⟨Reg.PORT_IRQEN i, 4, 1⟩
abbrev PORT_IRQEN_ACTIVE_START (i : Nat) : Field := ⟨Reg.PORT_IRQEN i, 5, 1⟩
abbrev PORT_IRQEN_INERT_ENTER (i : Nat) : Field := ⟨Reg.PORT_IRQEN i, 6, 1⟩
abbrev PORT_CTRL_CNT_CLR (i : Nat) : Field := ⟨Reg.PORT_CTRL i, 0, 1⟩
abbrev PORT_PERIOD_PERIOD (i : Nat) : Field := ⟨Reg.PORT_PERIOD i, 0, 25⟩
abbrev PORT_ONTIME_A_ONTIME (i : Nat) : Field := ⟨Reg.PORT_ONTIME_A i, 0, 24⟩
abbrev PORT_ONTIME_B_ONTIME (i : Nat) : Field := ⟨Reg.PORT_ONTIME_B i, 0, 24⟩
abbrev PORT_SHIFT_SHIFT (i : Nat) : Field := ⟨Reg.PORT_SHIFT i, 0, 24⟩
abbrev PORT_SHIFT_B_SHIFT (i : Nat) : Field := ⟨Reg.PORT_SHIFT_B i, 0, 24⟩
abbrev PORT_SAMP_I_CODE (i : Nat) : Field := ⟨Reg.PORT_SAMP_I i, 0, 14⟩
abbrev PORT_SAMP_I_STALE (i : Nat) : Field := ⟨Reg.PORT_SAMP_I i, 14, 1⟩
abbrev PORT_SAMP_I_OVR (i : Nat) : Field := ⟨Reg.PORT_SAMP_I i, 15, 1⟩
abbrev PORT_SAMP_I_SEQ (i : Nat) : Field := ⟨Reg.PORT_SAMP_I i, 16, 16⟩
abbrev PORT_SAMP_VO_CODE (i : Nat) : Field := ⟨Reg.PORT_SAMP_VO i, 0, 14⟩
abbrev PORT_SAMP_VO_STALE (i : Nat) : Field := ⟨Reg.PORT_SAMP_VO i, 14, 1⟩
abbrev PORT_SAMP_VO_OVR (i : Nat) : Field := ⟨Reg.PORT_SAMP_VO i, 15, 1⟩
abbrev PORT_SAMP_VO_SEQ (i : Nat) : Field := ⟨Reg.PORT_SAMP_VO i, 16, 16⟩
abbrev PORT_SAMP_VI_CODE (i : Nat) : Field := ⟨Reg.PORT_SAMP_VI i, 0, 14⟩
abbrev PORT_SAMP_VI_STALE (i : Nat) : Field := ⟨Reg.PORT_SAMP_VI i, 14, 1⟩
abbrev PORT_SAMP_VI_OVR (i : Nat) : Field := ⟨Reg.PORT_SAMP_VI i, 15, 1⟩
abbrev PORT_SAMP_VI_SEQ (i : Nat) : Field := ⟨Reg.PORT_SAMP_VI i, 16, 16⟩
abbrev PORT_CNT_ADC_BUSY_CNT (i : Nat) : Field := ⟨Reg.PORT_CNT i, 0, 16⟩
abbrev PORT_CNT_DCLAMP_CNT (i : Nat) : Field := ⟨Reg.PORT_CNT i, 16, 16⟩
abbrev PORT_TRIM_OFS_TRIM (i : Nat) : Field := ⟨Reg.PORT_TRIM i, 0, 16⟩
abbrev PORT_TRIM_GAIN_TRIM (i : Nat) : Field := ⟨Reg.PORT_TRIM i, 16, 16⟩
abbrev LOOP_CFG_USED (i : Nat) : Field := ⟨Reg.LOOP_CFG i, 0, 1⟩
abbrev LOOP_CFG_SIGN (i : Nat) : Field := ⟨Reg.LOOP_CFG i, 1, 1⟩
abbrev LOOP_CFG_DMODE (i : Nat) : Field := ⟨Reg.LOOP_CFG i, 2, 1⟩
abbrev LOOP_CFG_SWAP_PRESET (i : Nat) : Field := ⟨Reg.LOOP_CFG i, 3, 1⟩
abbrev LOOP_CFG_CARRY (i : Nat) : Field := ⟨Reg.LOOP_CFG i, 4, 1⟩
abbrev LOOP_CFG_REFSRC (i : Nat) : Field := ⟨Reg.LOOP_CFG i, 5, 3⟩
abbrev LOOP_CFG_COURSE (i : Nat) : Field := ⟨Reg.LOOP_CFG i, 8, 6⟩
abbrev LOOP_CFG_EMAX (i : Nat) : Field := ⟨Reg.LOOP_CFG i, 14, 6⟩
abbrev LOOP_CFG_EI (i : Nat) : Field := ⟨Reg.LOOP_CFG i, 20, 6⟩
abbrev LOOP_CFG_GROUP (i : Nat) : Field := ⟨Reg.LOOP_CFG i, 26, 5⟩
abbrev LOOP_SRC_ZSRC (i : Nat) : Field := ⟨Reg.LOOP_SRC i, 0, 12⟩
abbrev LOOP_SRC_GS (i : Nat) : Field := ⟨Reg.LOOP_SRC i, 12, 1⟩
abbrev LOOP_SRC_REFSIG (i : Nat) : Field := ⟨Reg.LOOP_SRC i, 16, 12⟩
abbrev LOOP_SRC_REFMUL (i : Nat) : Field := ⟨Reg.LOOP_SRC i, 28, 1⟩
abbrev LOOP_MODE_MAN (i : Nat) : Field := ⟨Reg.LOOP_MODE i, 0, 1⟩
abbrev LOOP_MODE_LOAD_U (i : Nat) : Field := ⟨Reg.LOOP_MODE i, 1, 1⟩
abbrev LOOP_UMAN_UMAN (i : Nat) : Field := ⟨Reg.LOOP_UMAN i, 0, 32⟩
abbrev LOOP_STATUS_STATE (i : Nat) : Field := ⟨Reg.LOOP_STATUS i, 0, 3⟩
abbrev LOOP_STATUS_REGION (i : Nat) : Field := ⟨Reg.LOOP_STATUS i, 3, 2⟩
abbrev LOOP_STATUS_ABANK (i : Nat) : Field := ⟨Reg.LOOP_STATUS i, 5, 1⟩
abbrev LOOP_STATUS_LIMH (i : Nat) : Field := ⟨Reg.LOOP_STATUS i, 6, 1⟩
abbrev LOOP_STATUS_LIML (i : Nat) : Field := ⟨Reg.LOOP_STATUS i, 7, 1⟩
abbrev LOOP_STATUS_IFROZEN (i : Nat) : Field := ⟨Reg.LOOP_STATUS i, 8, 1⟩
abbrev LOOP_STATUS_MAN_PEND (i : Nat) : Field := ⟨Reg.LOOP_STATUS i, 9, 1⟩
abbrev LOOP_STATUS_PRESET_CLIP (i : Nat) : Field := ⟨Reg.LOOP_STATUS i, 10, 1⟩
abbrev LOOP_STATUS_QSAT (i : Nat) : Field := ⟨Reg.LOOP_STATUS i, 11, 1⟩
abbrev LOOP_EVENT_OVF (i : Nat) : Field := ⟨Reg.LOOP_EVENT i, 0, 1⟩
abbrev LOOP_EVENT_REGION_CHG (i : Nat) : Field := ⟨Reg.LOOP_EVENT i, 1, 1⟩
abbrev LOOP_EVENT_LIMIT (i : Nat) : Field := ⟨Reg.LOOP_EVENT i, 2, 1⟩
abbrev LOOP_EVENT_PRESET_CLIP (i : Nat) : Field := ⟨Reg.LOOP_EVENT i, 3, 1⟩
abbrev LOOP_EVENT_MODE_DONE (i : Nat) : Field := ⟨Reg.LOOP_EVENT i, 4, 1⟩
abbrev LOOP_EVENT_QSAT (i : Nat) : Field := ⟨Reg.LOOP_EVENT i, 5, 1⟩
abbrev LOOP_EVENT_SWAP_BAD (i : Nat) : Field := ⟨Reg.LOOP_EVENT i, 6, 1⟩
abbrev LOOP_IRQEN_OVF (i : Nat) : Field := ⟨Reg.LOOP_IRQEN i, 0, 1⟩
abbrev LOOP_IRQEN_REGION_CHG (i : Nat) : Field := ⟨Reg.LOOP_IRQEN i, 1, 1⟩
abbrev LOOP_IRQEN_LIMIT (i : Nat) : Field := ⟨Reg.LOOP_IRQEN i, 2, 1⟩
abbrev LOOP_IRQEN_PRESET_CLIP (i : Nat) : Field := ⟨Reg.LOOP_IRQEN i, 3, 1⟩
abbrev LOOP_IRQEN_MODE_DONE (i : Nat) : Field := ⟨Reg.LOOP_IRQEN i, 4, 1⟩
abbrev LOOP_IRQEN_QSAT (i : Nat) : Field := ⟨Reg.LOOP_IRQEN i, 5, 1⟩
abbrev LOOP_IRQEN_SWAP_BAD (i : Nat) : Field := ⟨Reg.LOOP_IRQEN i, 6, 1⟩
abbrev LOOP_CTRL_CNT_CLR (i : Nat) : Field := ⟨Reg.LOOP_CTRL i, 0, 1⟩
abbrev LOOP_CNT_OVF_CNT (i : Nat) : Field := ⟨Reg.LOOP_CNT i, 0, 16⟩
abbrev LOOP_CNT_REGION_CNT (i : Nat) : Field := ⟨Reg.LOOP_CNT i, 16, 16⟩
abbrev LOOP_R_R (i : Nat) : Field := ⟨Reg.LOOP_R i, 0, 32⟩
abbrev LOOP_Y_Y (i : Nat) : Field := ⟨Reg.LOOP_Y i, 0, 32⟩
abbrev LOOP_E_E (i : Nat) : Field := ⟨Reg.LOOP_E i, 0, 32⟩
abbrev LOOP_P_P (i : Nat) : Field := ⟨Reg.LOOP_P i, 0, 32⟩
abbrev LOOP_I_I (i : Nat) : Field := ⟨Reg.LOOP_I i, 0, 32⟩
abbrev LOOP_D_D (i : Nat) : Field := ⟨Reg.LOOP_D i, 0, 32⟩
abbrev LOOP_U_U (i : Nat) : Field := ⟨Reg.LOOP_U i, 0, 32⟩
abbrev LOOP_Z_Z (i : Nat) : Field := ⟨Reg.LOOP_Z i, 0, 32⟩
abbrev LOOP_Q_Q (i : Nat) : Field := ⟨Reg.LOOP_Q i, 0, 24⟩
abbrev LOOP_SHADOW_WORD (i : Nat) (j : Nat) : Field := ⟨Reg.LOOP_SHADOW i j, 0, 32⟩
abbrev CMP_CFG_ENABLE (i : Nat) (j : Nat) : Field := ⟨Reg.CMP_CFG i j, 0, 1⟩
abbrev CMP_CFG_MODE (i : Nat) (j : Nat) : Field := ⟨Reg.CMP_CFG i j, 1, 2⟩
abbrev CMP_CFG_HI_EN (i : Nat) (j : Nat) : Field := ⟨Reg.CMP_CFG i j, 3, 1⟩
abbrev CMP_CFG_LO_EN (i : Nat) (j : Nat) : Field := ⟨Reg.CMP_CFG i j, 4, 1⟩
abbrev CMP_CFG_HYST (i : Nat) (j : Nat) : Field := ⟨Reg.CMP_CFG i j, 5, 2⟩
abbrev CMP_CFG_CLR (i : Nat) (j : Nat) : Field := ⟨Reg.CMP_CFG i j, 7, 1⟩
abbrev CMP_CFG_ACTION (i : Nat) (j : Nat) : Field := ⟨Reg.CMP_CFG i j, 8, 3⟩
abbrev CMP_CFG_MIRROR (i : Nat) (j : Nat) : Field := ⟨Reg.CMP_CFG i j, 11, 1⟩
abbrev CMP_CFG_BMASK (i : Nat) (j : Nat) : Field := ⟨Reg.CMP_CFG i j, 12, 4⟩
abbrev CMP_TIME_BLANK (i : Nat) (j : Nat) : Field := ⟨Reg.CMP_TIME i j, 0, 8⟩
abbrev CMP_TIME_GF (i : Nat) (j : Nat) : Field := ⟨Reg.CMP_TIME i j, 8, 6⟩
abbrev CMP_TIME_CBC_ESC (i : Nat) (j : Nat) : Field := ⟨Reg.CMP_TIME i j, 16, 8⟩
abbrev CMP_THR_LO (i : Nat) (j : Nat) : Field := ⟨Reg.CMP_THR i j, 0, 10⟩
abbrev CMP_THR_HI (i : Nat) (j : Nat) : Field := ⟨Reg.CMP_THR i j, 16, 10⟩
abbrev CMP_THR_ACT_LO (i : Nat) (j : Nat) : Field := ⟨Reg.CMP_THR_ACT i j, 0, 10⟩
abbrev CMP_THR_ACT_HI (i : Nat) (j : Nat) : Field := ⟨Reg.CMP_THR_ACT i j, 16, 10⟩
abbrev CMP_STATUS_OUT_HI (i : Nat) (j : Nat) : Field := ⟨Reg.CMP_STATUS i j, 0, 1⟩
abbrev CMP_STATUS_OUT_LO (i : Nat) (j : Nat) : Field := ⟨Reg.CMP_STATUS i j, 1, 1⟩
abbrev CMP_STATUS_LAT_HI (i : Nat) (j : Nat) : Field := ⟨Reg.CMP_STATUS i j, 2, 1⟩
abbrev CMP_STATUS_LAT_LO (i : Nat) (j : Nat) : Field := ⟨Reg.CMP_STATUS i j, 3, 1⟩
abbrev CMP_STATUS_BLANKED (i : Nat) (j : Nat) : Field := ⟨Reg.CMP_STATUS i j, 4, 1⟩
abbrev CMP_STATUS_HI_OWNED (i : Nat) (j : Nat) : Field := ⟨Reg.CMP_STATUS i j, 5, 1⟩
abbrev CMP_STATUS_CBC_RUN (i : Nat) (j : Nat) : Field := ⟨Reg.CMP_STATUS i j, 8, 8⟩
abbrev CMP_LATCH_LAT_HI (i : Nat) (j : Nat) : Field := ⟨Reg.CMP_LATCH i j, 0, 1⟩
abbrev CMP_LATCH_LAT_LO (i : Nat) (j : Nat) : Field := ⟨Reg.CMP_LATCH i j, 1, 1⟩
abbrev CMP_EVENT_TRIP_HI (i : Nat) (j : Nat) : Field := ⟨Reg.CMP_EVENT i j, 0, 1⟩
abbrev CMP_EVENT_TRIP_LO (i : Nat) (j : Nat) : Field := ⟨Reg.CMP_EVENT i j, 1, 1⟩
abbrev CMP_EVENT_CBC_ESC (i : Nat) (j : Nat) : Field := ⟨Reg.CMP_EVENT i j, 2, 1⟩
abbrev CMP_EVENT_THR_OWNED (i : Nat) (j : Nat) : Field := ⟨Reg.CMP_EVENT i j, 3, 1⟩
abbrev CMP_IRQEN_TRIP_HI (i : Nat) (j : Nat) : Field := ⟨Reg.CMP_IRQEN i j, 0, 1⟩
abbrev CMP_IRQEN_TRIP_LO (i : Nat) (j : Nat) : Field := ⟨Reg.CMP_IRQEN i j, 1, 1⟩
abbrev CMP_IRQEN_CBC_ESC (i : Nat) (j : Nat) : Field := ⟨Reg.CMP_IRQEN i j, 2, 1⟩
abbrev CMP_IRQEN_THR_OWNED (i : Nat) (j : Nat) : Field := ⟨Reg.CMP_IRQEN i j, 3, 1⟩
abbrev CMP_CNT_TRIP_CNT (i : Nat) (j : Nat) : Field := ⟨Reg.CMP_CNT i j, 0, 16⟩
abbrev CMP_CNT_CBC_CNT (i : Nat) (j : Nat) : Field := ⟨Reg.CMP_CNT i j, 16, 16⟩
abbrev CMP_CTRL_CNT_CLR (i : Nat) (j : Nat) : Field := ⟨Reg.CMP_CTRL i j, 0, 1⟩
abbrev KA_TICK_PER : Field := ⟨Reg.KA_TICK, 0, 12⟩
abbrev KA_STATUS_OUT : Field := ⟨Reg.KA_STATUS, 0, 6⟩
abbrev KA_STATUS_LAT : Field := ⟨Reg.KA_STATUS, 8, 6⟩
abbrev KA_LATCH_LAT : Field := ⟨Reg.KA_LATCH, 0, 6⟩
abbrev KA_IRQEN_IRQ : Field := ⟨Reg.KA_IRQEN, 0, 6⟩
abbrev KA_CFG_THR (i : Nat) : Field := ⟨Reg.KA_CFG i, 0, 10⟩
abbrev KA_CFG_EN (i : Nat) : Field := ⟨Reg.KA_CFG i, 10, 1⟩
abbrev KA_CFG_POL (i : Nat) : Field := ⟨Reg.KA_CFG i, 11, 1⟩
abbrev KA_CFG_HYST (i : Nat) : Field := ⟨Reg.KA_CFG i, 12, 2⟩
abbrev KA_CFG_CNT (i : Nat) : Field := ⟨Reg.KA_CFG i, 14, 4⟩
abbrev KA_CFG_WAKE (i : Nat) : Field := ⟨Reg.KA_CFG i, 18, 1⟩
abbrev KA_CFG_SEL (i : Nat) : Field := ⟨Reg.KA_CFG i, 19, 5⟩
abbrev CAPO_CFG_FLEET : Field := ⟨Reg.CAPO_CFG, 0, 1⟩
abbrev CAPO_CFG_HOLD_EN : Field := ⟨Reg.CAPO_CFG, 1, 1⟩
abbrev CAPO_CFG_INSRC : Field := ⟨Reg.CAPO_CFG, 2, 1⟩
abbrev CAPO_CFG_LOSSN : Field := ⟨Reg.CAPO_CFG, 8, 4⟩
abbrev CAPO_CFG_DCSIG : Field := ⟨Reg.CAPO_CFG, 16, 12⟩
abbrev CAPO_HCFG_RETW : Field := ⟨Reg.CAPO_HCFG, 0, 16⟩
abbrev CAPO_STATUS_CAPPING : Field := ⟨Reg.CAPO_STATUS, 0, 1⟩
abbrev CAPO_STATUS_UNMET : Field := ⟨Reg.CAPO_STATUS, 1, 1⟩
abbrev CAPO_STATUS_BSTALE : Field := ⟨Reg.CAPO_STATUS, 2, 1⟩
abbrev CAPO_STATUS_INPUT_LOSS : Field := ⟨Reg.CAPO_STATUS, 3, 1⟩
abbrev CAPO_STATUS_HOLDUP : Field := ⟨Reg.CAPO_STATUS, 4, 1⟩
abbrev CAPO_STATUS_BPEND : Field := ⟨Reg.CAPO_STATUS, 5, 1⟩
abbrev CAPO_STATUS_CAPSRC : Field := ⟨Reg.CAPO_STATUS, 6, 2⟩
abbrev CAPO_STATUS_AGE : Field := ⟨Reg.CAPO_STATUS, 8, 3⟩
abbrev CAPO_EVENT_CAP_START : Field := ⟨Reg.CAPO_EVENT, 0, 1⟩
abbrev CAPO_EVENT_UNMET : Field := ⟨Reg.CAPO_EVENT, 1, 1⟩
abbrev CAPO_EVENT_BUDGET_OK : Field := ⟨Reg.CAPO_EVENT, 2, 1⟩
abbrev CAPO_EVENT_BUDGET_REF : Field := ⟨Reg.CAPO_EVENT, 3, 1⟩
abbrev CAPO_EVENT_BSTALE : Field := ⟨Reg.CAPO_EVENT, 4, 1⟩
abbrev CAPO_EVENT_LOSS : Field := ⟨Reg.CAPO_EVENT, 5, 1⟩
abbrev CAPO_EVENT_RETURN : Field := ⟨Reg.CAPO_EVENT, 6, 1⟩
abbrev CAPO_EVENT_PB_HIT : Field := ⟨Reg.CAPO_EVENT, 7, 1⟩
abbrev CAPO_EVENT_CB_HIT : Field := ⟨Reg.CAPO_EVENT, 8, 1⟩
abbrev CAPO_IRQEN_CAP_START : Field := ⟨Reg.CAPO_IRQEN, 0, 1⟩
abbrev CAPO_IRQEN_UNMET : Field := ⟨Reg.CAPO_IRQEN, 1, 1⟩
abbrev CAPO_IRQEN_BUDGET_OK : Field := ⟨Reg.CAPO_IRQEN, 2, 1⟩
abbrev CAPO_IRQEN_BUDGET_REF : Field := ⟨Reg.CAPO_IRQEN, 3, 1⟩
abbrev CAPO_IRQEN_BSTALE : Field := ⟨Reg.CAPO_IRQEN, 4, 1⟩
abbrev CAPO_IRQEN_LOSS : Field := ⟨Reg.CAPO_IRQEN, 5, 1⟩
abbrev CAPO_IRQEN_RETURN : Field := ⟨Reg.CAPO_IRQEN, 6, 1⟩
abbrev CAPO_IRQEN_PB_HIT : Field := ⟨Reg.CAPO_IRQEN, 7, 1⟩
abbrev CAPO_IRQEN_CB_HIT : Field := ⟨Reg.CAPO_IRQEN, 8, 1⟩
abbrev CAPO_CTRL_TRIM_CLR : Field := ⟨Reg.CAPO_CTRL, 0, 1⟩
abbrev CAPO_CTRL_CNT_CLR : Field := ⟨Reg.CAPO_CTRL, 1, 1⟩
abbrev CAPO_CTRL_BTX_COMMIT : Field := ⟨Reg.CAPO_CTRL, 2, 1⟩
abbrev CAPO_BUDGET_BUDGET : Field := ⟨Reg.CAPO_BUDGET, 0, 32⟩
abbrev CAPO_BSTAMP_BSTAMP : Field := ⟨Reg.CAPO_BSTAMP, 0, 32⟩
abbrev CAPO_BCNT_OK : Field := ⟨Reg.CAPO_BCNT, 0, 16⟩
abbrev CAPO_BCNT_REF : Field := ⟨Reg.CAPO_BCNT, 16, 16⟩
abbrev CAPO_BTX_COUNT : Field := ⟨Reg.CAPO_BTX, 0, 8⟩
abbrev CAPO_HCNT_HOLD_CNT : Field := ⟨Reg.CAPO_HCNT, 0, 16⟩
abbrev CAPO_HCNT_UNMET_CNT : Field := ⟨Reg.CAPO_HCNT, 16, 16⟩
abbrev CAPO_COURSE_IBUS (i : Nat) : Field := ⟨Reg.CAPO_COURSE i, 0, 3⟩
abbrev CAPO_COURSE_OBUS (i : Nat) : Field := ⟨Reg.CAPO_COURSE i, 3, 3⟩
abbrev CAPO_COURSE_BATT (i : Nat) : Field := ⟨Reg.CAPO_COURSE i, 6, 2⟩
abbrev CAPO_COURSE_SHARE (i : Nat) : Field := ⟨Reg.CAPO_COURSE i, 8, 1⟩
abbrev CAPO_COURSE_BAL (i : Nat) : Field := ⟨Reg.CAPO_COURSE i, 9, 1⟩
abbrev CAPO_CSCALE_CSCALE (i : Nat) : Field := ⟨Reg.CAPO_CSCALE i, 0, 32⟩
abbrev CAPO_CTRIM_CTRIM (i : Nat) : Field := ⟨Reg.CAPO_CTRIM i, 0, 32⟩
abbrev CAPO_PORT_SLOOP (i : Nat) : Field := ⟨Reg.CAPO_PORT i, 0, 7⟩
abbrev CAPO_PORT_SEN (i : Nat) : Field := ⟨Reg.CAPO_PORT i, 7, 1⟩
abbrev CAPO_PTRIM_PTRIM (i : Nat) : Field := ⟨Reg.CAPO_PTRIM i, 0, 32⟩
abbrev CAPO_LOOP_LIM (i : Nat) : Field := ⟨Reg.CAPO_LOOP i, 0, 7⟩
abbrev CAPO_LIM_CFG_EN (i : Nat) : Field := ⟨Reg.CAPO_LIM_CFG i, 0, 1⟩
abbrev CAPO_LIM_CFG_PRIO (i : Nat) : Field := ⟨Reg.CAPO_LIM_CFG i, 1, 3⟩
abbrev CAPO_LIM_CFG_POL (i : Nat) : Field := ⟨Reg.CAPO_LIM_CFG i, 4, 1⟩
abbrev CAPO_LIM_MAX_MAX (i : Nat) : Field := ⟨Reg.CAPO_LIM_MAX i, 0, 32⟩
abbrev CAPO_LIM_FLOOR_FLOOR (i : Nat) : Field := ⟨Reg.CAPO_LIM_FLOOR i, 0, 32⟩
abbrev CAPO_LIM_LAMBDA_LAMBDA (i : Nat) : Field := ⟨Reg.CAPO_LIM_LAMBDA i, 0, 32⟩
abbrev CAPO_TERM_SIG_VSIG (i : Nat) : Field := ⟨Reg.CAPO_TERM_SIG i, 0, 12⟩
abbrev CAPO_TERM_SIG_ISIG (i : Nat) : Field := ⟨Reg.CAPO_TERM_SIG i, 12, 12⟩
abbrev CAPO_TERM_SIG_LIM (i : Nat) : Field := ⟨Reg.CAPO_TERM_SIG i, 24, 7⟩
abbrev CAPO_TERM_SIG_EN (i : Nat) : Field := ⟨Reg.CAPO_TERM_SIG i, 31, 1⟩
abbrev CAPO_TERM_K_K (i : Nat) : Field := ⟨Reg.CAPO_TERM_K i, 0, 32⟩
abbrev CAPO_HSEL_CFG_NLOOP (i : Nat) : Field := ⟨Reg.CAPO_HSEL_CFG i, 0, 6⟩
abbrev CAPO_HSEL_CFG_NUSE (i : Nat) : Field := ⟨Reg.CAPO_HSEL_CFG i, 6, 1⟩
abbrev CAPO_HSEL_CFG_HLOOP (i : Nat) : Field := ⟨Reg.CAPO_HSEL_CFG i, 8, 6⟩
abbrev CAPO_HSEL_CFG_HUSE (i : Nat) : Field := ⟨Reg.CAPO_HSEL_CFG i, 14, 1⟩
abbrev CAPO_HSEL_CFG_EN (i : Nat) : Field := ⟨Reg.CAPO_HSEL_CFG i, 15, 1⟩
abbrev CAPO_HSEL_KFFN_KFFN (i : Nat) : Field := ⟨Reg.CAPO_HSEL_KFFN i, 0, 32⟩
abbrev CAPO_HSEL_KFFH_KFFH (i : Nat) : Field := ⟨Reg.CAPO_HSEL_KFFH i, 0, 32⟩
abbrev CAPO_HSEL_OUT_OUT (i : Nat) : Field := ⟨Reg.CAPO_HSEL_OUT i, 0, 32⟩
abbrev CAPO_BTAB_ADDR_ADDR (i : Nat) : Field := ⟨Reg.CAPO_BTAB_ADDR i, 0, 16⟩
abbrev CAPO_BTAB_VAL_VAL (i : Nat) : Field := ⟨Reg.CAPO_BTAB_VAL i, 0, 32⟩
abbrev CAPO_LCAP_VW : Field := ⟨Reg.CAPO_LCAP, 0, 32⟩
abbrev CAPO_SAFECAP_VW : Field := ⟨Reg.CAPO_SAFECAP, 0, 32⟩
abbrev CAPO_HOSTCAP_VW : Field := ⟨Reg.CAPO_HOSTCAP, 0, 32⟩
abbrev CAPO_CAP_VW : Field := ⟨Reg.CAPO_CAP, 0, 32⟩
abbrev CAPO_FLEETCAP_VW : Field := ⟨Reg.CAPO_FLEETCAP, 0, 32⟩
abbrev CAPO_PIN_VW : Field := ⟨Reg.CAPO_PIN, 0, 32⟩
abbrev CAPO_BASE_VW : Field := ⟨Reg.CAPO_BASE, 0, 32⟩
abbrev CAPO_GAMMA_VW : Field := ⟨Reg.CAPO_GAMMA, 0, 32⟩
abbrev CAPO_RISE_VW : Field := ⟨Reg.CAPO_RISE, 0, 32⟩
abbrev CAPO_BETA_VW : Field := ⟨Reg.CAPO_BETA, 0, 32⟩
abbrev CAPO_KSP_VW : Field := ⟨Reg.CAPO_KSP, 0, 32⟩
abbrev CAPO_KSC_VW : Field := ⟨Reg.CAPO_KSC, 0, 32⟩
abbrev CAPO_PB_VW : Field := ⟨Reg.CAPO_PB, 0, 32⟩
abbrev CAPO_CB_VW : Field := ⟨Reg.CAPO_CB, 0, 32⟩
abbrev CAPO_SMIN_VW : Field := ⟨Reg.CAPO_SMIN, 0, 32⟩
abbrev CAPO_WBAND_VW : Field := ⟨Reg.CAPO_WBAND, 0, 32⟩
abbrev CAPO_DCLO_VW : Field := ⟨Reg.CAPO_DCLO, 0, 32⟩
abbrev CAPO_DCHI_VW : Field := ⟨Reg.CAPO_DCHI, 0, 32⟩
abbrev FEED_CMD_ON : Field := ⟨Reg.FEED_CMD, 0, 8⟩
abbrev FEED_SUMMARY_G : Field := ⟨Reg.FEED_SUMMARY, 0, 8⟩
abbrev FEED_SUMMARY_PC : Field := ⟨Reg.FEED_SUMMARY, 8, 8⟩
abbrev FEED_SUMMARY_FAULT : Field := ⟨Reg.FEED_SUMMARY, 16, 8⟩
abbrev FEED_CFG_EN (i : Nat) : Field := ⟨Reg.FEED_CFG i, 0, 1⟩
abbrev FEED_CFG_IDEAL (i : Nat) : Field := ⟨Reg.FEED_CFG i, 1, 1⟩
abbrev FEED_CFG_SHCHK (i : Nat) : Field := ⟨Reg.FEED_CFG i, 2, 1⟩
abbrev FEED_CFG_AUTO (i : Nat) : Field := ⟨Reg.FEED_CFG i, 3, 1⟩
abbrev FEED_CFG_UVOFF (i : Nat) : Field := ⟨Reg.FEED_CFG i, 4, 1⟩
abbrev FEED_CFG_PC_USE (i : Nat) : Field := ⟨Reg.FEED_CFG i, 5, 1⟩
abbrev FEED_CFG_GROUP (i : Nat) : Field := ⟨Reg.FEED_CFG i, 6, 3⟩
abbrev FEED_VSWIN_UV (i : Nat) : Field := ⟨Reg.FEED_VSWIN i, 0, 10⟩
abbrev FEED_VSWIN_OV (i : Nat) : Field := ⟨Reg.FEED_VSWIN i, 16, 10⟩
abbrev FEED_VSWIN_HYST (i : Nat) : Field := ⟨Reg.FEED_VSWIN i, 26, 2⟩
abbrev FEED_ITHR_OC (i : Nat) : Field := ⟨Reg.FEED_ITHR i, 0, 10⟩
abbrev FEED_ITHR_OCF (i : Nat) : Field := ⟨Reg.FEED_ITHR i, 16, 5⟩
abbrev FEED_DIODE_RTH (i : Nat) : Field := ⟨Reg.FEED_DIODE i, 0, 6⟩
abbrev FEED_DIODE_FTH (i : Nat) : Field := ⟨Reg.FEED_DIODE i, 8, 6⟩
abbrev FEED_DIODE_RVF (i : Nat) : Field := ⟨Reg.FEED_DIODE i, 16, 3⟩
abbrev FEED_DIODE_FWDF (i : Nat) : Field := ⟨Reg.FEED_DIODE i, 24, 8⟩
abbrev FEED_PCFG_PCF (i : Nat) : Field := ⟨Reg.FEED_PCFG i, 0, 6⟩
abbrev FEED_PCFG_PCTO (i : Nat) : Field := ⟨Reg.FEED_PCFG i, 8, 12⟩
abbrev FEED_PCFG_POVL (i : Nat) : Field := ⟨Reg.FEED_PCFG i, 20, 8⟩
abbrev FEED_TIME_INSDLY (i : Nat) : Field := ⟨Reg.FEED_TIME i, 0, 14⟩
abbrev FEED_TIME_VSF (i : Nat) : Field := ⟨Reg.FEED_TIME i, 16, 8⟩
abbrev FEED_RETRY_RETRY (i : Nat) : Field := ⟨Reg.FEED_RETRY i, 0, 3⟩
abbrev FEED_RETRY_RDLY (i : Nat) : Field := ⟨Reg.FEED_RETRY i, 4, 8⟩
abbrev FEED_RETRY_RHOLD (i : Nat) : Field := ⟨Reg.FEED_RETRY i, 12, 8⟩
abbrev FEED_SHORT_SHTH (i : Nat) : Field := ⟨Reg.FEED_SHORT i, 0, 10⟩
abbrev FEED_SHORT_DDLY (i : Nat) : Field := ⟨Reg.FEED_SHORT i, 16, 14⟩
abbrev FEED_STATUS_STATE (i : Nat) : Field := ⟨Reg.FEED_STATUS i, 0, 4⟩
abbrev FEED_STATUS_G (i : Nat) : Field := ⟨Reg.FEED_STATUS i, 4, 1⟩
abbrev FEED_STATUS_PC (i : Nat) : Field := ⟨Reg.FEED_STATUS i, 5, 1⟩
abbrev FEED_STATUS_VSWIN (i : Nat) : Field := ⟨Reg.FEED_STATUS i, 6, 1⟩
abbrev FEED_STATUS_OC (i : Nat) : Field := ⟨Reg.FEED_STATUS i, 7, 1⟩
abbrev FEED_STATUS_REV (i : Nat) : Field := ⟨Reg.FEED_STATUS i, 8, 1⟩
abbrev FEED_STATUS_FWD (i : Nat) : Field := ⟨Reg.FEED_STATUS i, 9, 1⟩
abbrev FEED_STATUS_RATIO (i : Nat) : Field := ⟨Reg.FEED_STATUS i, 10, 1⟩
abbrev FEED_STATUS_VLPRES (i : Nat) : Field := ⟨Reg.FEED_STATUS i, 11, 1⟩
abbrev FEED_STATUS_RTRY (i : Nat) : Field := ⟨Reg.FEED_STATUS i, 12, 3⟩
abbrev FEED_STATUS_SHBLK (i : Nat) : Field := ⟨Reg.FEED_STATUS i, 15, 1⟩
abbrev FEED_STATUS_SHSUSP (i : Nat) : Field := ⟨Reg.FEED_STATUS i, 16, 1⟩
abbrev FEED_EVENT_CLOSED (i : Nat) : Field := ⟨Reg.FEED_EVENT i, 0, 1⟩
abbrev FEED_EVENT_OPENED (i : Nat) : Field := ⟨Reg.FEED_EVENT i, 1, 1⟩
abbrev FEED_EVENT_TRIP (i : Nat) : Field := ⟨Reg.FEED_EVENT i, 2, 1⟩
abbrev FEED_EVENT_BLOCK (i : Nat) : Field := ⟨Reg.FEED_EVENT i, 3, 1⟩
abbrev FEED_EVENT_VS_LOST (i : Nat) : Field := ⟨Reg.FEED_EVENT i, 4, 1⟩
abbrev FEED_EVENT_PC_TIMEOUT (i : Nat) : Field := ⟨Reg.FEED_EVENT i, 5, 1⟩
abbrev FEED_EVENT_SHORT (i : Nat) : Field := ⟨Reg.FEED_EVENT i, 6, 1⟩
abbrev FEED_EVENT_FAULT (i : Nat) : Field := ⟨Reg.FEED_EVENT i, 7, 1⟩
abbrev FEED_IRQEN_CLOSED (i : Nat) : Field := ⟨Reg.FEED_IRQEN i, 0, 1⟩
abbrev FEED_IRQEN_OPENED (i : Nat) : Field := ⟨Reg.FEED_IRQEN i, 1, 1⟩
abbrev FEED_IRQEN_TRIP (i : Nat) : Field := ⟨Reg.FEED_IRQEN i, 2, 1⟩
abbrev FEED_IRQEN_BLOCK (i : Nat) : Field := ⟨Reg.FEED_IRQEN i, 3, 1⟩
abbrev FEED_IRQEN_VS_LOST (i : Nat) : Field := ⟨Reg.FEED_IRQEN i, 4, 1⟩
abbrev FEED_IRQEN_PC_TIMEOUT (i : Nat) : Field := ⟨Reg.FEED_IRQEN i, 5, 1⟩
abbrev FEED_IRQEN_SHORT (i : Nat) : Field := ⟨Reg.FEED_IRQEN i, 6, 1⟩
abbrev FEED_IRQEN_FAULT (i : Nat) : Field := ⟨Reg.FEED_IRQEN i, 7, 1⟩
abbrev FEED_CTRL_CNT_CLR (i : Nat) : Field := ⟨Reg.FEED_CTRL i, 0, 1⟩
abbrev FEED_MEAS_VS_CODE (i : Nat) : Field := ⟨Reg.FEED_MEAS_VS i, 0, 10⟩
abbrev FEED_MEAS_VL_CODE (i : Nat) : Field := ⟨Reg.FEED_MEAS_VL i, 0, 10⟩
abbrev FEED_MEAS_IS_CODE (i : Nat) : Field := ⟨Reg.FEED_MEAS_IS i, 0, 10⟩
abbrev FEED_CNT_TRIP_CNT (i : Nat) : Field := ⟨Reg.FEED_CNT i, 0, 16⟩
abbrev FEED_CNT_BLOCK_CNT (i : Nat) : Field := ⟨Reg.FEED_CNT i, 16, 16⟩
abbrev SEQ_CFG_AUTOUP : Field := ⟨Reg.SEQ_CFG, 0, 1⟩
abbrev SEQ_CFG_MINOFF : Field := ⟨Reg.SEQ_CFG, 4, 12⟩
abbrev SEQ_CMD_UP : Field := ⟨Reg.SEQ_CMD, 0, 1⟩
abbrev SEQ_CMD_DOWN : Field := ⟨Reg.SEQ_CMD, 1, 1⟩
abbrev SEQ_STATUS_PHASE : Field := ⟨Reg.SEQ_STATUS, 0, 3⟩
abbrev SEQ_STATUS_UPLATCH : Field := ⟨Reg.SEQ_STATUS, 3, 1⟩
abbrev SEQ_STATUS_PARTIAL : Field := ⟨Reg.SEQ_STATUS, 4, 1⟩
abbrev SEQ_STATUS_CFG_PEND : Field := ⟨Reg.SEQ_STATUS, 5, 1⟩
abbrev SEQ_STATUS_CUR : Field := ⟨Reg.SEQ_STATUS, 8, 5⟩
abbrev SEQ_SUMMARY_EN : Field := ⟨Reg.SEQ_SUMMARY, 0, 16⟩
abbrev SEQ_SUMMARY_GOOD : Field := ⟨Reg.SEQ_SUMMARY, 16, 16⟩
abbrev SEQ_FLAGS_RISEFAIL : Field := ⟨Reg.SEQ_FLAGS, 0, 16⟩
abbrev SEQ_FLAGS_FALLFAIL : Field := ⟨Reg.SEQ_FLAGS, 16, 16⟩
abbrev SEQ_EVENT_UP_DONE : Field := ⟨Reg.SEQ_EVENT, 0, 1⟩
abbrev SEQ_EVENT_DOWN_DONE : Field := ⟨Reg.SEQ_EVENT, 1, 1⟩
abbrev SEQ_EVENT_RISEFAIL : Field := ⟨Reg.SEQ_EVENT, 2, 1⟩
abbrev SEQ_EVENT_FALLFAIL : Field := ⟨Reg.SEQ_EVENT, 3, 1⟩
abbrev SEQ_EVENT_COLLAPSE : Field := ⟨Reg.SEQ_EVENT, 4, 1⟩
abbrev SEQ_EVENT_LATCHED : Field := ⟨Reg.SEQ_EVENT, 5, 1⟩
abbrev SEQ_EVENT_CMD_BAD : Field := ⟨Reg.SEQ_EVENT, 6, 1⟩
abbrev SEQ_IRQEN_UP_DONE : Field := ⟨Reg.SEQ_IRQEN, 0, 1⟩
abbrev SEQ_IRQEN_DOWN_DONE : Field := ⟨Reg.SEQ_IRQEN, 1, 1⟩
abbrev SEQ_IRQEN_RISEFAIL : Field := ⟨Reg.SEQ_IRQEN, 2, 1⟩
abbrev SEQ_IRQEN_FALLFAIL : Field := ⟨Reg.SEQ_IRQEN, 3, 1⟩
abbrev SEQ_IRQEN_COLLAPSE : Field := ⟨Reg.SEQ_IRQEN, 4, 1⟩
abbrev SEQ_IRQEN_LATCHED : Field := ⟨Reg.SEQ_IRQEN, 5, 1⟩
abbrev SEQ_IRQEN_CMD_BAD : Field := ⟨Reg.SEQ_IRQEN, 6, 1⟩
abbrev SEQ_CNT_UP_CNT : Field := ⟨Reg.SEQ_CNT, 0, 16⟩
abbrev SEQ_CNT_DOWN_CNT : Field := ⟨Reg.SEQ_CNT, 16, 16⟩
abbrev SEQ_CTRL_CNT_CLR : Field := ⟨Reg.SEQ_CTRL, 0, 1⟩
abbrev SEQ_RCFG_EN (i : Nat) : Field := ⟨Reg.SEQ_RCFG i, 0, 1⟩
abbrev SEQ_RCFG_MODE (i : Nat) : Field := ⟨Reg.SEQ_RCFG i, 1, 1⟩
abbrev SEQ_RCFG_PGPOL (i : Nat) : Field := ⟨Reg.SEQ_RCFG i, 2, 1⟩
abbrev SEQ_RCFG_CRIT (i : Nat) : Field := ⟨Reg.SEQ_RCFG i, 3, 1⟩
abbrev SEQ_RCFG_HYST (i : Nat) : Field := ⟨Reg.SEQ_RCFG i, 4, 2⟩
abbrev SEQ_RTHR_LO (i : Nat) : Field := ⟨Reg.SEQ_RTHR i, 0, 10⟩
abbrev SEQ_RTHR_HI (i : Nat) : Field := ⟨Reg.SEQ_RTHR i, 16, 10⟩
abbrev SEQ_ROFF_OFF (i : Nat) : Field := ⟨Reg.SEQ_ROFF i, 0, 10⟩
abbrev SEQ_ROFF_GF (i : Nat) : Field := ⟨Reg.SEQ_ROFF i, 16, 8⟩
abbrev SEQ_RTIME_DLY (i : Nat) : Field := ⟨Reg.SEQ_RTIME i, 0, 16⟩
abbrev SEQ_RTIME_DNDLY (i : Nat) : Field := ⟨Reg.SEQ_RTIME i, 16, 16⟩
abbrev SEQ_RTO_RTO (i : Nat) : Field := ⟨Reg.SEQ_RTO i, 0, 12⟩
abbrev SEQ_RTO_FTO (i : Nat) : Field := ⟨Reg.SEQ_RTO i, 16, 12⟩
abbrev SEQ_RSTAT_STATE (i : Nat) : Field := ⟨Reg.SEQ_RSTAT i, 0, 3⟩
abbrev SEQ_RSTAT_EN (i : Nat) : Field := ⟨Reg.SEQ_RSTAT i, 3, 1⟩
abbrev SEQ_RSTAT_GOOD (i : Nat) : Field := ⟨Reg.SEQ_RSTAT i, 4, 1⟩
abbrev SEQ_RSTAT_FALLEN (i : Nat) : Field := ⟨Reg.SEQ_RSTAT i, 5, 1⟩
abbrev SEQ_RSTAT_OVER (i : Nat) : Field := ⟨Reg.SEQ_RSTAT i, 6, 1⟩
abbrev BATT_CFG_EN (i : Nat) : Field := ⟨Reg.BATT_CFG i, 0, 1⟩
abbrev BATT_CFG_ID_USE (i : Nat) : Field := ⟨Reg.BATT_CFG i, 1, 1⟩
abbrev BATT_CFG_HIBREST (i : Nat) : Field := ⟨Reg.BATT_CFG i, 2, 1⟩
abbrev BATT_CHGMASK_CHGMASK (i : Nat) : Field := ⟨Reg.BATT_CHGMASK i, 0, 32⟩
abbrev BATT_TIMING_TREST (i : Nat) : Field := ⟨Reg.BATT_TIMING i, 0, 16⟩
abbrev BATT_TIMING_AMAX (i : Nat) : Field := ⟨Reg.BATT_TIMING i, 16, 8⟩
abbrev BATT_TIMING_SAVEP (i : Nat) : Field := ⟨Reg.BATT_TIMING i, 24, 8⟩
abbrev BATT_DTIME_DTIME (i : Nat) : Field := ⟨Reg.BATT_DTIME i, 0, 16⟩
abbrev BATT_STATUS_STATE (i : Nat) : Field := ⟨Reg.BATT_STATUS i, 0, 2⟩
abbrev BATT_STATUS_VALID (i : Nat) : Field := ⟨Reg.BATT_STATUS i, 2, 1⟩
abbrev BATT_STATUS_COLD (i : Nat) : Field := ⟨Reg.BATT_STATUS i, 3, 1⟩
abbrev BATT_STATUS_DISAGREE (i : Nat) : Field := ⟨Reg.BATT_STATUS i, 4, 1⟩
abbrev BATT_STATUS_RESTING (i : Nat) : Field := ⟨Reg.BATT_STATUS i, 5, 1⟩
abbrev BATT_STATUS_ABSENT (i : Nat) : Field := ⟨Reg.BATT_STATUS i, 6, 1⟩
abbrev BATT_STATUS_CHG_INH (i : Nat) : Field := ⟨Reg.BATT_STATUS i, 7, 1⟩
abbrev BATT_STATUS_VOVR (i : Nat) : Field := ⟨Reg.BATT_STATUS i, 8, 1⟩
abbrev BATT_STATUS_IDCODE (i : Nat) : Field := ⟨Reg.BATT_STATUS i, 9, 4⟩
abbrev BATT_WARN_SOCW (i : Nat) : Field := ⟨Reg.BATT_WARN i, 0, 5⟩
abbrev BATT_WARN_VW (i : Nat) : Field := ⟨Reg.BATT_WARN i, 8, 5⟩
abbrev BATT_EVENT_SOCW (i : Nat) : Field := ⟨Reg.BATT_EVENT i, 0, 5⟩
abbrev BATT_EVENT_VW (i : Nat) : Field := ⟨Reg.BATT_EVENT i, 8, 5⟩
abbrev BATT_EVENT_ANCHOR (i : Nat) : Field := ⟨Reg.BATT_EVENT i, 16, 1⟩
abbrev BATT_EVENT_REST_WEAK (i : Nat) : Field := ⟨Reg.BATT_EVENT i, 17, 1⟩
abbrev BATT_EVENT_UNANCHORED (i : Nat) : Field := ⟨Reg.BATT_EVENT i, 18, 1⟩
abbrev BATT_EVENT_DISAGREE (i : Nat) : Field := ⟨Reg.BATT_EVENT i, 19, 1⟩
abbrev BATT_EVENT_SWAP (i : Nat) : Field := ⟨Reg.BATT_EVENT i, 20, 1⟩
abbrev BATT_EVENT_SNAP_READY (i : Nat) : Field := ⟨Reg.BATT_EVENT i, 21, 1⟩
abbrev BATT_EVENT_RESTORE_OK (i : Nat) : Field := ⟨Reg.BATT_EVENT i, 22, 1⟩
abbrev BATT_EVENT_RESTORE_REF (i : Nat) : Field := ⟨Reg.BATT_EVENT i, 23, 1⟩
abbrev BATT_EVENT_VOVR (i : Nat) : Field := ⟨Reg.BATT_EVENT i, 24, 1⟩
abbrev BATT_IRQEN_SOCW (i : Nat) : Field := ⟨Reg.BATT_IRQEN i, 0, 5⟩
abbrev BATT_IRQEN_VW (i : Nat) : Field := ⟨Reg.BATT_IRQEN i, 8, 5⟩
abbrev BATT_IRQEN_ANCHOR (i : Nat) : Field := ⟨Reg.BATT_IRQEN i, 16, 1⟩
abbrev BATT_IRQEN_REST_WEAK (i : Nat) : Field := ⟨Reg.BATT_IRQEN i, 17, 1⟩
abbrev BATT_IRQEN_UNANCHORED (i : Nat) : Field := ⟨Reg.BATT_IRQEN i, 18, 1⟩
abbrev BATT_IRQEN_DISAGREE (i : Nat) : Field := ⟨Reg.BATT_IRQEN i, 19, 1⟩
abbrev BATT_IRQEN_SWAP (i : Nat) : Field := ⟨Reg.BATT_IRQEN i, 20, 1⟩
abbrev BATT_IRQEN_SNAP_READY (i : Nat) : Field := ⟨Reg.BATT_IRQEN i, 21, 1⟩
abbrev BATT_IRQEN_RESTORE_OK (i : Nat) : Field := ⟨Reg.BATT_IRQEN i, 22, 1⟩
abbrev BATT_IRQEN_RESTORE_REF (i : Nat) : Field := ⟨Reg.BATT_IRQEN i, 23, 1⟩
abbrev BATT_IRQEN_VOVR (i : Nat) : Field := ⟨Reg.BATT_IRQEN i, 24, 1⟩
abbrev BATT_CTRL_SNAP (i : Nat) : Field := ⟨Reg.BATT_CTRL i, 0, 1⟩
abbrev BATT_CTRL_RESTORE (i : Nat) : Field := ⟨Reg.BATT_CTRL i, 1, 1⟩
abbrev BATT_IDENT_IDENT (i : Nat) : Field := ⟨Reg.BATT_IDENT i, 0, 32⟩
abbrev BATT_GAP_GAP (i : Nat) : Field := ⟨Reg.BATT_GAP i, 0, 32⟩
abbrev BATT_SEQ_SEQ (i : Nat) : Field := ⟨Reg.BATT_SEQ i, 0, 32⟩
abbrev BATT_AGE_AGE (i : Nat) : Field := ⟨Reg.BATT_AGE i, 0, 32⟩
abbrev BATT_RRES_REASON (i : Nat) : Field := ⟨Reg.BATT_RRES i, 0, 8⟩
abbrev BATT_RRES_DONE (i : Nat) : Field := ⟨Reg.BATT_RRES i, 8, 1⟩
abbrev BATT_SAVE_WORD (i : Nat) (j : Nat) : Field := ⟨Reg.BATT_SAVE i j, 0, 32⟩
abbrev BATT_RESTORE_WORD (i : Nat) (j : Nat) : Field := ⟨Reg.BATT_RESTORE i j, 0, 32⟩
abbrev BATT_TEMP_TEMP (i : Nat) (j : Nat) : Field := ⟨Reg.BATT_TEMP i j, 0, 32⟩
abbrev BATT_MODEL_MODEL (i : Nat) (j : Nat) (k : Nat) : Field := ⟨Reg.BATT_MODEL i j k, 0, 32⟩
abbrev BATT_CTERM_SIG_SIG (i : Nat) (j : Nat) : Field := ⟨Reg.BATT_CTERM_SIG i j, 0, 12⟩
abbrev BATT_CTERM_SIG_EN (i : Nat) (j : Nat) : Field := ⟨Reg.BATT_CTERM_SIG i j, 31, 1⟩
abbrev BATT_CTERM_K_K (i : Nat) (j : Nat) : Field := ⟨Reg.BATT_CTERM_K i j, 0, 32⟩
abbrev BATT_OCVT_OCV (i : Nat) (j : Nat) (k : Nat) : Field := ⟨Reg.BATT_OCVT i j k, 0, 32⟩
abbrev BATT_VSCALE_VW (i : Nat) : Field := ⟨Reg.BATT_VSCALE i, 0, 32⟩
abbrev BATT_QRATED_VW (i : Nat) : Field := ⟨Reg.BATT_QRATED i, 0, 32⟩
abbrev BATT_IPAR_VW (i : Nat) : Field := ⟨Reg.BATT_IPAR i, 0, 32⟩
abbrev BATT_IREST_VW (i : Nat) : Field := ⟨Reg.BATT_IREST i, 0, 32⟩
abbrev BATT_DTHR_VW (i : Nat) : Field := ⟨Reg.BATT_DTHR i, 0, 32⟩
abbrev BATT_UANC_VW (i : Nat) : Field := ⟨Reg.BATT_UANC i, 0, 32⟩
abbrev BATT_UCOLD_VW (i : Nat) : Field := ⟨Reg.BATT_UCOLD i, 0, 32⟩
abbrev BATT_UQ_VW (i : Nat) : Field := ⟨Reg.BATT_UQ i, 0, 32⟩
abbrev BATT_LGAIN_VW (i : Nat) : Field := ⟨Reg.BATT_LGAIN i, 0, 32⟩
abbrev BATT_LSTEP_VW (i : Nat) : Field := ⟨Reg.BATT_LSTEP i, 0, 32⟩
abbrev BATT_KQ_VW (i : Nat) : Field := ⟨Reg.BATT_KQ i, 0, 32⟩
abbrev BATT_KR_VW (i : Nat) : Field := ⟨Reg.BATT_KR i, 0, 32⟩
abbrev BATT_IDSTEP_VW (i : Nat) : Field := ⟨Reg.BATT_IDSTEP i, 0, 32⟩
abbrev BATT_SLOPEMIN_VW (i : Nat) : Field := ⟨Reg.BATT_SLOPEMIN i, 0, 32⟩
abbrev BATT_W1S_VW (i : Nat) : Field := ⟨Reg.BATT_W1S i, 0, 32⟩
abbrev BATT_W2S_VW (i : Nat) : Field := ⟨Reg.BATT_W2S i, 0, 32⟩
abbrev BATT_W3S_VW (i : Nat) : Field := ⟨Reg.BATT_W3S i, 0, 32⟩
abbrev BATT_C1S_VW (i : Nat) : Field := ⟨Reg.BATT_C1S i, 0, 32⟩
abbrev BATT_C2S_VW (i : Nat) : Field := ⟨Reg.BATT_C2S i, 0, 32⟩
abbrev BATT_SHYS_VW (i : Nat) : Field := ⟨Reg.BATT_SHYS i, 0, 32⟩
abbrev BATT_W1V_VW (i : Nat) : Field := ⟨Reg.BATT_W1V i, 0, 32⟩
abbrev BATT_W2V_VW (i : Nat) : Field := ⟨Reg.BATT_W2V i, 0, 32⟩
abbrev BATT_W3V_VW (i : Nat) : Field := ⟨Reg.BATT_W3V i, 0, 32⟩
abbrev BATT_C1V_VW (i : Nat) : Field := ⟨Reg.BATT_C1V i, 0, 32⟩
abbrev BATT_C2V_VW (i : Nat) : Field := ⟨Reg.BATT_C2V i, 0, 32⟩
abbrev BATT_VHYS_VW (i : Nat) : Field := ⟨Reg.BATT_VHYS i, 0, 32⟩
abbrev BATT_V_VW (i : Nat) : Field := ⟨Reg.BATT_V i, 0, 32⟩
abbrev BATT_I_VW (i : Nat) : Field := ⟨Reg.BATT_I i, 0, 32⟩
abbrev BATT_T_VW (i : Nat) : Field := ⟨Reg.BATT_T i, 0, 32⟩
abbrev BATT_SOC_VW (i : Nat) : Field := ⟨Reg.BATT_SOC i, 0, 32⟩
abbrev BATT_SOCQ_VW (i : Nat) : Field := ⟨Reg.BATT_SOCQ i, 0, 32⟩
abbrev BATT_OCV_VW (i : Nat) : Field := ⟨Reg.BATT_OCV i, 0, 32⟩
abbrev BATT_V1_VW (i : Nat) : Field := ⟨Reg.BATT_V1 i, 0, 32⟩
abbrev BATT_V2_VW (i : Nat) : Field := ⟨Reg.BATT_V2 i, 0, 32⟩
abbrev BATT_U_VW (i : Nat) : Field := ⟨Reg.BATT_U i, 0, 32⟩
abbrev BATT_QCAP_VW (i : Nat) : Field := ⟨Reg.BATT_QCAP i, 0, 32⟩
abbrev BATT_SOH_VW (i : Nat) : Field := ⟨Reg.BATT_SOH i, 0, 32⟩
abbrev BATT_R0F_VW (i : Nat) : Field := ⟨Reg.BATT_R0F i, 0, 32⟩
abbrev BATT_SOCA_VW (i : Nat) : Field := ⟨Reg.BATT_SOCA i, 0, 32⟩
abbrev BATT_QSUM_VW (i : Nat) : Field := ⟨Reg.BATT_QSUM i, 0, 32⟩
abbrev HK_CFG_PER : Field := ⟨Reg.HK_CFG, 0, 7⟩
abbrev HK_STATUS_NVM_INH : Field := ⟨Reg.HK_STATUS, 0, 1⟩
abbrev HK_STATUS_CHG_INH0 : Field := ⟨Reg.HK_STATUS, 1, 1⟩
abbrev HK_STATUS_CHG_INH1 : Field := ⟨Reg.HK_STATUS, 2, 1⟩
abbrev HK_STATUS_BROKEN : Field := ⟨Reg.HK_STATUS, 3, 1⟩
abbrev HK_STATUS_FIRST : Field := ⟨Reg.HK_STATUS, 4, 1⟩
abbrev HK_EVENT_HOT1 : Field := ⟨Reg.HK_EVENT, 0, 1⟩
abbrev HK_EVENT_HOT2 : Field := ⟨Reg.HK_EVENT, 1, 1⟩
abbrev HK_EVENT_ROR : Field := ⟨Reg.HK_EVENT, 2, 1⟩
abbrev HK_EVENT_BROKEN : Field := ⟨Reg.HK_EVENT, 3, 1⟩
abbrev HK_EVENT_CHG_INH : Field := ⟨Reg.HK_EVENT, 4, 1⟩
abbrev HK_EVENT_NVM_INH : Field := ⟨Reg.HK_EVENT, 5, 1⟩
abbrev HK_EVENT_LEVEL_CHG : Field := ⟨Reg.HK_EVENT, 6, 1⟩
abbrev HK_IRQEN_HOT1 : Field := ⟨Reg.HK_IRQEN, 0, 1⟩
abbrev HK_IRQEN_HOT2 : Field := ⟨Reg.HK_IRQEN, 1, 1⟩
abbrev HK_IRQEN_ROR : Field := ⟨Reg.HK_IRQEN, 2, 1⟩
abbrev HK_IRQEN_BROKEN : Field := ⟨Reg.HK_IRQEN, 3, 1⟩
abbrev HK_IRQEN_CHG_INH : Field := ⟨Reg.HK_IRQEN, 4, 1⟩
abbrev HK_IRQEN_NVM_INH : Field := ⟨Reg.HK_IRQEN, 5, 1⟩
abbrev HK_IRQEN_LEVEL_CHG : Field := ⟨Reg.HK_IRQEN, 6, 1⟩
abbrev HK_CTRL_CNT_CLR : Field := ⟨Reg.HK_CTRL, 0, 1⟩
abbrev HK_ROUNDS_ROUNDS : Field := ⟨Reg.HK_ROUNDS, 0, 32⟩
abbrev HK_LEVEL_LEVEL (i : Nat) : Field := ⟨Reg.HK_LEVEL i, 0, 32⟩
abbrev HK_MUTABLE_MUTABLE : Field := ⟨Reg.HK_MUTABLE, 0, 32⟩
abbrev HK_BROKEN_BROKEN : Field := ⟨Reg.HK_BROKEN, 0, 18⟩
abbrev HK_TJ_TJMAX : Field := ⟨Reg.HK_TJ, 0, 16⟩
abbrev HK_TJ_TJMIN : Field := ⟨Reg.HK_TJ, 16, 16⟩
abbrev HK_BCHG_TLO (i : Nat) : Field := ⟨Reg.HK_BCHG i, 0, 8⟩
abbrev HK_BCHG_THI (i : Nat) : Field := ⟨Reg.HK_BCHG i, 8, 8⟩
abbrev HK_BCHG_HYS (i : Nat) : Field := ⟨Reg.HK_BCHG i, 16, 4⟩
abbrev HK_CHGINH_CHGINH (i : Nat) : Field := ⟨Reg.HK_CHGINH i, 0, 32⟩
abbrev HK_CODE_CODE (i : Nat) : Field := ⟨Reg.HK_CODE i, 0, 12⟩
abbrev HK_TEMP_TEMP (i : Nat) : Field := ⟨Reg.HK_TEMP i, 0, 16⟩
abbrev HK_TEMP_BROKEN (i : Nat) : Field := ⟨Reg.HK_TEMP i, 16, 1⟩
abbrev HK_SCFG_GROUP (i : Nat) : Field := ⟨Reg.HK_SCFG i, 0, 3⟩
abbrev HK_SCFG_GEN (i : Nat) : Field := ⟨Reg.HK_SCFG i, 3, 1⟩
abbrev HK_SCFG_R25 (i : Nat) : Field := ⟨Reg.HK_SCFG i, 4, 12⟩
abbrev HK_SCFG_BETA (i : Nat) : Field := ⟨Reg.HK_SCFG i, 16, 13⟩
abbrev HK_G_CFG_EN (i : Nat) : Field := ⟨Reg.HK_G_CFG i, 0, 1⟩
abbrev HK_G_CFG_FATAL (i : Nat) : Field := ⟨Reg.HK_G_CFG i, 1, 1⟩
abbrev HK_G_CFG_RORLVL (i : Nat) : Field := ⟨Reg.HK_G_CFG i, 2, 4⟩
abbrev HK_G_CFG_ROR (i : Nat) : Field := ⟨Reg.HK_G_CFG i, 6, 8⟩
abbrev HK_G_LIM_HOT1 (i : Nat) : Field := ⟨Reg.HK_G_LIM i, 0, 8⟩
abbrev HK_G_LIM_HOT2 (i : Nat) : Field := ⟨Reg.HK_G_LIM i, 8, 8⟩
abbrev HK_G_LIM_STEP (i : Nat) : Field := ⟨Reg.HK_G_LIM i, 16, 5⟩
abbrev HK_G_LIM_HYS (i : Nat) : Field := ⟨Reg.HK_G_LIM i, 24, 4⟩
abbrev HK_G_CRS_CRS (i : Nat) : Field := ⟨Reg.HK_G_CRS i, 0, 32⟩
abbrev HK_G_STAT_TEMP (i : Nat) : Field := ⟨Reg.HK_G_STAT i, 0, 16⟩
abbrev HK_G_STAT_LEVEL (i : Nat) : Field := ⟨Reg.HK_G_STAT i, 16, 4⟩
abbrev HK_G_STAT_HOT2 (i : Nat) : Field := ⟨Reg.HK_G_STAT i, 20, 1⟩
abbrev HK_G_STAT_ROR (i : Nat) : Field := ⟨Reg.HK_G_STAT i, 21, 1⟩
abbrev HK_G_STAT_BROKEN (i : Nat) : Field := ⟨Reg.HK_G_STAT i, 22, 1⟩
abbrev HARNESS_CFG_ROOT : Field := ⟨Reg.HARNESS_CFG, 0, 1⟩
abbrev HARNESS_CFG_RATE : Field := ⟨Reg.HARNESS_CFG, 1, 1⟩
abbrev HARNESS_CFG_AUTOENUM : Field := ⟨Reg.HARNESS_CFG, 2, 1⟩
abbrev HARNESS_CFG_RING : Field := ⟨Reg.HARNESS_CFG, 3, 1⟩
abbrev HARNESS_CFG_EVT_EN : Field := ⟨Reg.HARNESS_CFG, 4, 1⟩
abbrev HARNESS_CFG_CMDWR : Field := ⟨Reg.HARNESS_CFG, 5, 1⟩
abbrev HARNESS_CFG_RXQ : Field := ⟨Reg.HARNESS_CFG, 8, 7⟩
abbrev HARNESS_CFG_ROOT_ADDR : Field := ⟨Reg.HARNESS_CFG, 16, 16⟩
abbrev HARNESS_ADDR_ADDR : Field := ⟨Reg.HARNESS_ADDR, 0, 16⟩
abbrev HARNESS_ADDR_ROOTA : Field := ⟨Reg.HARNESS_ADDR, 16, 16⟩
abbrev HARNESS_ROLE_ROLE : Field := ⟨Reg.HARNESS_ROLE, 0, 8⟩
abbrev HARNESS_ROLE_EPOCH : Field := ⟨Reg.HARNESS_ROLE, 16, 16⟩
abbrev HARNESS_STATUS_LINK_UP : Field := ⟨Reg.HARNESS_STATUS, 0, 1⟩
abbrev HARNESS_STATUS_LINK_DN : Field := ⟨Reg.HARNESS_STATUS, 1, 1⟩
abbrev HARNESS_STATUS_LINK_BR : Field := ⟨Reg.HARNESS_STATUS, 2, 1⟩
abbrev HARNESS_STATUS_UPPORT : Field := ⟨Reg.HARNESS_STATUS, 3, 2⟩
abbrev HARNESS_STATUS_ENUMERATED : Field := ⟨Reg.HARNESS_STATUS, 5, 1⟩
abbrev HARNESS_STATUS_ENUM_BUSY : Field := ⟨Reg.HARNESS_STATUS, 6, 1⟩
abbrev HARNESS_STATUS_RINGMODE : Field := ⟨Reg.HARNESS_STATUS, 7, 1⟩
abbrev HARNESS_STATUS_RINGBRK : Field := ⟨Reg.HARNESS_STATUS, 8, 1⟩
abbrev HARNESS_STATUS_SWAPPED : Field := ⟨Reg.HARNESS_STATUS, 9, 1⟩
abbrev HARNESS_STATUS_DELAY_VALID : Field := ⟨Reg.HARNESS_STATUS, 10, 1⟩
abbrev HARNESS_STATUS_DEPTH : Field := ⟨Reg.HARNESS_STATUS, 16, 16⟩
abbrev HARNESS_EVENT_LINK_CHG : Field := ⟨Reg.HARNESS_EVENT, 0, 1⟩
abbrev HARNESS_EVENT_ENUM_DONE : Field := ⟨Reg.HARNESS_EVENT, 1, 1⟩
abbrev HARNESS_EVENT_ADDR_SET : Field := ⟨Reg.HARNESS_EVENT, 2, 1⟩
abbrev HARNESS_EVENT_ROLE_SET : Field := ⟨Reg.HARNESS_EVENT, 3, 1⟩
abbrev HARNESS_EVENT_RX_FRAME : Field := ⟨Reg.HARNESS_EVENT, 4, 1⟩
abbrev HARNESS_EVENT_TX_DONE : Field := ⟨Reg.HARNESS_EVENT, 5, 1⟩
abbrev HARNESS_EVENT_RING_BRK : Field := ⟨Reg.HARNESS_EVENT, 6, 1⟩
abbrev HARNESS_EVENT_RING_HEAL : Field := ⟨Reg.HARNESS_EVENT, 7, 1⟩
abbrev HARNESS_EVENT_TWO_ROOTS : Field := ⟨Reg.HARNESS_EVENT, 8, 1⟩
abbrev HARNESS_EVENT_DELAY_BAD : Field := ⟨Reg.HARNESS_EVENT, 9, 1⟩
abbrev HARNESS_EVENT_DROP : Field := ⟨Reg.HARNESS_EVENT, 10, 1⟩
abbrev HARNESS_IRQEN_LINK_CHG : Field := ⟨Reg.HARNESS_IRQEN, 0, 1⟩
abbrev HARNESS_IRQEN_ENUM_DONE : Field := ⟨Reg.HARNESS_IRQEN, 1, 1⟩
abbrev HARNESS_IRQEN_ADDR_SET : Field := ⟨Reg.HARNESS_IRQEN, 2, 1⟩
abbrev HARNESS_IRQEN_ROLE_SET : Field := ⟨Reg.HARNESS_IRQEN, 3, 1⟩
abbrev HARNESS_IRQEN_RX_FRAME : Field := ⟨Reg.HARNESS_IRQEN, 4, 1⟩
abbrev HARNESS_IRQEN_TX_DONE : Field := ⟨Reg.HARNESS_IRQEN, 5, 1⟩
abbrev HARNESS_IRQEN_RING_BRK : Field := ⟨Reg.HARNESS_IRQEN, 6, 1⟩
abbrev HARNESS_IRQEN_RING_HEAL : Field := ⟨Reg.HARNESS_IRQEN, 7, 1⟩
abbrev HARNESS_IRQEN_TWO_ROOTS : Field := ⟨Reg.HARNESS_IRQEN, 8, 1⟩
abbrev HARNESS_IRQEN_DELAY_BAD : Field := ⟨Reg.HARNESS_IRQEN, 9, 1⟩
abbrev HARNESS_IRQEN_DROP : Field := ⟨Reg.HARNESS_IRQEN, 10, 1⟩
abbrev HARNESS_CTRL_ENUM : Field := ⟨Reg.HARNESS_CTRL, 0, 1⟩
abbrev HARNESS_CTRL_TX_GO : Field := ⟨Reg.HARNESS_CTRL, 1, 1⟩
abbrev HARNESS_CTRL_CNT_CLR : Field := ⟨Reg.HARNESS_CTRL, 2, 1⟩
abbrev HARNESS_CTRL_REPROBE : Field := ⟨Reg.HARNESS_CTRL, 3, 1⟩
abbrev HARNESS_RANGE_DN_LO : Field := ⟨Reg.HARNESS_RANGE_DN, 0, 16⟩
abbrev HARNESS_RANGE_DN_HI : Field := ⟨Reg.HARNESS_RANGE_DN, 16, 16⟩
abbrev HARNESS_RANGE_BR_LO : Field := ⟨Reg.HARNESS_RANGE_BR, 0, 16⟩
abbrev HARNESS_RANGE_BR_HI : Field := ⟨Reg.HARNESS_RANGE_BR, 16, 16⟩
abbrev HARNESS_LINKDLY_LINKDLY : Field := ⟨Reg.HARNESS_LINKDLY, 0, 24⟩
abbrev HARNESS_PATHDLY_PATHDLY : Field := ⟨Reg.HARNESS_PATHDLY, 0, 32⟩
abbrev HARNESS_FWDLAT_FWDLAT : Field := ⟨Reg.HARNESS_FWDLAT, 0, 16⟩
abbrev HARNESS_PCNT_CRC_CNT (i : Nat) : Field := ⟨Reg.HARNESS_PCNT i, 0, 16⟩
abbrev HARNESS_PCNT_DROP_CNT (i : Nat) : Field := ⟨Reg.HARNESS_PCNT i, 16, 16⟩
abbrev HARNESS_NCNT_ROLE_CNT : Field := ⟨Reg.HARNESS_NCNT, 0, 16⟩
abbrev HARNESS_NCNT_NAK_CNT : Field := ⟨Reg.HARNESS_NCNT, 16, 16⟩
abbrev HARNESS_TXSTAT_BUSY : Field := ⟨Reg.HARNESS_TXSTAT, 0, 1⟩
abbrev HARNESS_TXSTAT_SENT : Field := ⟨Reg.HARNESS_TXSTAT, 1, 1⟩
abbrev HARNESS_TXSTAT_REFUSED : Field := ⟨Reg.HARNESS_TXSTAT, 2, 1⟩
abbrev HARNESS_ROOTEPOCH_ROOTEPOCH : Field := ⟨Reg.HARNESS_ROOTEPOCH, 0, 16⟩
abbrev HARNESS_TXBUF_WORD (i : Nat) : Field := ⟨Reg.HARNESS_TXBUF i, 0, 32⟩
abbrev HOSTIF_STATUS_ADDR : Field := ⟨Reg.HOSTIF_STATUS, 0, 3⟩
abbrev HOSTIF_STATUS_BULK_ACT : Field := ⟨Reg.HOSTIF_STATUS, 3, 1⟩
abbrev HOSTIF_STATUS_TW_ACT : Field := ⟨Reg.HOSTIF_STATUS, 4, 1⟩
abbrev HOSTIF_STATUS_TWC_BUSY : Field := ⟨Reg.HOSTIF_STATUS, 5, 1⟩
abbrev HOSTIF_STATUS_IRQ : Field := ⟨Reg.HOSTIF_STATUS, 6, 1⟩
abbrev HOSTIF_STATUS_WAKE : Field := ⟨Reg.HOSTIF_STATUS, 7, 1⟩
abbrev HOSTIF_STATUS_QFL : Field := ⟨Reg.HOSTIF_STATUS, 8, 4⟩
abbrev HOSTIF_EVENT_UNASSIGNED : Field := ⟨Reg.HOSTIF_EVENT, 0, 1⟩
abbrev HOSTIF_EVENT_REFUSED : Field := ⟨Reg.HOSTIF_EVENT, 1, 1⟩
abbrev HOSTIF_EVENT_PARTIAL : Field := ⟨Reg.HOSTIF_EVENT, 2, 1⟩
abbrev HOSTIF_EVENT_OVERRUN : Field := ⟨Reg.HOSTIF_EVENT, 3, 1⟩
abbrev HOSTIF_EVENT_CRC_ERR : Field := ⟨Reg.HOSTIF_EVENT, 4, 1⟩
abbrev HOSTIF_EVENT_BULK_TMO : Field := ⟨Reg.HOSTIF_EVENT, 5, 1⟩
abbrev HOSTIF_EVENT_CMD_BAD : Field := ⟨Reg.HOSTIF_EVENT, 6, 1⟩
abbrev HOSTIF_EVENT_PEC_ERR : Field := ⟨Reg.HOSTIF_EVENT, 7, 1⟩
abbrev HOSTIF_EVENT_SMB_TMO : Field := ⟨Reg.HOSTIF_EVENT, 8, 1⟩
abbrev HOSTIF_EVENT_TWC_DONE : Field := ⟨Reg.HOSTIF_EVENT, 9, 1⟩
abbrev HOSTIF_EVENT_TWC_FAIL : Field := ⟨Reg.HOSTIF_EVENT, 10, 1⟩
abbrev HOSTIF_EVENT_Q_FILL : Field := ⟨Reg.HOSTIF_EVENT, 11, 1⟩
abbrev HOSTIF_EVENT_WAKE_PIN : Field := ⟨Reg.HOSTIF_EVENT, 12, 1⟩
abbrev HOSTIF_IRQEN_UNASSIGNED : Field := ⟨Reg.HOSTIF_IRQEN, 0, 1⟩
abbrev HOSTIF_IRQEN_REFUSED : Field := ⟨Reg.HOSTIF_IRQEN, 1, 1⟩
abbrev HOSTIF_IRQEN_PARTIAL : Field := ⟨Reg.HOSTIF_IRQEN, 2, 1⟩
abbrev HOSTIF_IRQEN_OVERRUN : Field := ⟨Reg.HOSTIF_IRQEN, 3, 1⟩
abbrev HOSTIF_IRQEN_CRC_ERR : Field := ⟨Reg.HOSTIF_IRQEN, 4, 1⟩
abbrev HOSTIF_IRQEN_BULK_TMO : Field := ⟨Reg.HOSTIF_IRQEN, 5, 1⟩
abbrev HOSTIF_IRQEN_CMD_BAD : Field := ⟨Reg.HOSTIF_IRQEN, 6, 1⟩
abbrev HOSTIF_IRQEN_PEC_ERR : Field := ⟨Reg.HOSTIF_IRQEN, 7, 1⟩
abbrev HOSTIF_IRQEN_SMB_TMO : Field := ⟨Reg.HOSTIF_IRQEN, 8, 1⟩
abbrev HOSTIF_IRQEN_TWC_DONE : Field := ⟨Reg.HOSTIF_IRQEN, 9, 1⟩
abbrev HOSTIF_IRQEN_TWC_FAIL : Field := ⟨Reg.HOSTIF_IRQEN, 10, 1⟩
abbrev HOSTIF_IRQEN_Q_FILL : Field := ⟨Reg.HOSTIF_IRQEN, 11, 1⟩
abbrev HOSTIF_IRQEN_WAKE_PIN : Field := ⟨Reg.HOSTIF_IRQEN, 12, 1⟩
abbrev HOSTIF_IRQSUM_BLK : Field := ⟨Reg.HOSTIF_IRQSUM, 0, 14⟩
abbrev HOSTIF_IRQSUM_PORT : Field := ⟨Reg.HOSTIF_IRQSUM, 14, 1⟩
abbrev HOSTIF_IRQSUM_LOOP : Field := ⟨Reg.HOSTIF_IRQSUM, 15, 1⟩
abbrev HOSTIF_WINBASE_BASE : Field := ⟨Reg.HOSTIF_WINBASE, 13, 19⟩
abbrev HOSTIF_BULK_CFG_CRCREQ : Field := ⟨Reg.HOSTIF_BULK_CFG, 0, 1⟩
abbrev HOSTIF_BULK_CFG_TMO : Field := ⟨Reg.HOSTIF_BULK_CFG, 8, 8⟩
abbrev HOSTIF_FILL_FILL : Field := ⟨Reg.HOSTIF_FILL, 0, 32⟩
abbrev HOSTIF_BULK_STAT_DONE : Field := ⟨Reg.HOSTIF_BULK_STAT, 0, 1⟩
abbrev HOSTIF_BULK_STAT_CRC_ERR : Field := ⟨Reg.HOSTIF_BULK_STAT, 1, 1⟩
abbrev HOSTIF_BULK_STAT_OVERRUN : Field := ⟨Reg.HOSTIF_BULK_STAT, 2, 1⟩
abbrev HOSTIF_BULK_STAT_TMO : Field := ⟨Reg.HOSTIF_BULK_STAT, 3, 1⟩
abbrev HOSTIF_BULK_STAT_PARTIAL : Field := ⟨Reg.HOSTIF_BULK_STAT, 4, 1⟩
abbrev HOSTIF_BULK_STAT_CMD_BAD : Field := ⟨Reg.HOSTIF_BULK_STAT, 5, 1⟩
abbrev HOSTIF_BULK_STAT_REFUSED : Field := ⟨Reg.HOSTIF_BULK_STAT, 6, 1⟩
abbrev HOSTIF_BULK_STAT_COUNT : Field := ⟨Reg.HOSTIF_BULK_STAT, 8, 13⟩
abbrev HOSTIF_TW_CFG_SMBTO : Field := ⟨Reg.HOSTIF_TW_CFG, 0, 1⟩
abbrev HOSTIF_TW_CFG_PEC : Field := ⟨Reg.HOSTIF_TW_CFG, 1, 1⟩
abbrev HOSTIF_TW_CFG_PECLEN : Field := ⟨Reg.HOSTIF_TW_CFG, 2, 6⟩
abbrev HOSTIF_TW_CFG_STRETCH : Field := ⟨Reg.HOSTIF_TW_CFG, 8, 8⟩
abbrev HOSTIF_TW_TIMING_HOLD : Field := ⟨Reg.HOSTIF_TW_TIMING, 0, 8⟩
abbrev HOSTIF_TW_TIMING_SETUP : Field := ⟨Reg.HOSTIF_TW_TIMING, 8, 8⟩
abbrev HOSTIF_TWC_CTRL_TADDR : Field := ⟨Reg.HOSTIF_TWC_CTRL, 0, 7⟩
abbrev HOSTIF_TWC_CTRL_WLEN : Field := ⟨Reg.HOSTIF_TWC_CTRL, 8, 6⟩
abbrev HOSTIF_TWC_CTRL_RLEN : Field := ⟨Reg.HOSTIF_TWC_CTRL, 16, 6⟩
abbrev HOSTIF_TWC_CTRL_PEC : Field := ⟨Reg.HOSTIF_TWC_CTRL, 22, 1⟩
abbrev HOSTIF_TWC_CTRL_RETRY : Field := ⟨Reg.HOSTIF_TWC_CTRL, 24, 3⟩
abbrev HOSTIF_TWC_CTRL_GO : Field := ⟨Reg.HOSTIF_TWC_CTRL, 31, 1⟩
abbrev HOSTIF_TWC_SCL_LOW : Field := ⟨Reg.HOSTIF_TWC_SCL, 0, 10⟩
abbrev HOSTIF_TWC_SCL_HIGH : Field := ⟨Reg.HOSTIF_TWC_SCL, 16, 10⟩
abbrev HOSTIF_TWC_STAT_BUSY : Field := ⟨Reg.HOSTIF_TWC_STAT, 0, 1⟩
abbrev HOSTIF_TWC_STAT_OK : Field := ⟨Reg.HOSTIF_TWC_STAT, 1, 1⟩
abbrev HOSTIF_TWC_STAT_NACK : Field := ⟨Reg.HOSTIF_TWC_STAT, 2, 1⟩
abbrev HOSTIF_TWC_STAT_ARB_LOST : Field := ⟨Reg.HOSTIF_TWC_STAT, 3, 1⟩
abbrev HOSTIF_TWC_STAT_PEC_ERR : Field := ⟨Reg.HOSTIF_TWC_STAT, 4, 1⟩
abbrev HOSTIF_TWC_STAT_AS_TARGET : Field := ⟨Reg.HOSTIF_TWC_STAT, 5, 1⟩
abbrev HOSTIF_TWC_STAT_TRIES : Field := ⟨Reg.HOSTIF_TWC_STAT, 8, 3⟩
abbrev HOSTIF_TWC_STAT_RCOUNT : Field := ⟨Reg.HOSTIF_TWC_STAT, 16, 6⟩
abbrev HOSTIF_CNT_BULK_ERR : Field := ⟨Reg.HOSTIF_CNT, 0, 16⟩
abbrev HOSTIF_CNT_TW_ERR : Field := ⟨Reg.HOSTIF_CNT, 16, 16⟩
abbrev HOSTIF_CTRL_CNT_CLR : Field := ⟨Reg.HOSTIF_CTRL, 0, 1⟩
abbrev HOSTIF_CTRL_TW_RESET : Field := ⟨Reg.HOSTIF_CTRL, 1, 1⟩
abbrev HOSTIF_QFL_CFG_POL : Field := ⟨Reg.HOSTIF_QFL_CFG, 0, 4⟩
abbrev HOSTIF_QEVENT_LO_WM : Field := ⟨Reg.HOSTIF_QEVENT_LO, 0, 32⟩
abbrev HOSTIF_QEVENT_HI_WM : Field := ⟨Reg.HOSTIF_QEVENT_HI, 0, 32⟩
abbrev HOSTIF_QIRQEN_LO_WM : Field := ⟨Reg.HOSTIF_QIRQEN_LO, 0, 32⟩
abbrev HOSTIF_QIRQEN_HI_WM : Field := ⟨Reg.HOSTIF_QIRQEN_HI, 0, 32⟩
abbrev HOSTIF_TWC_BUF_BYTES (i : Nat) : Field := ⟨Reg.HOSTIF_TWC_BUF i, 0, 32⟩
abbrev HOSTIF_Q_CFG_BASE (i : Nat) : Field := ⟨Reg.HOSTIF_Q_CFG i, 0, 13⟩
abbrev HOSTIF_Q_CFG_DEPTH (i : Nat) : Field := ⟨Reg.HOSTIF_Q_CFG i, 16, 8⟩
abbrev HOSTIF_Q_CFG_PROD (i : Nat) : Field := ⟨Reg.HOSTIF_Q_CFG i, 24, 2⟩
abbrev HOSTIF_Q_CFG_CONS (i : Nat) : Field := ⟨Reg.HOSTIF_Q_CFG i, 26, 1⟩
abbrev HOSTIF_Q_WM_HI (i : Nat) : Field := ⟨Reg.HOSTIF_Q_WM i, 0, 13⟩
abbrev HOSTIF_Q_WM_LO (i : Nat) : Field := ⟨Reg.HOSTIF_Q_WM i, 16, 13⟩
abbrev HOSTIF_Q_WM_PIN_EN (i : Nat) : Field := ⟨Reg.HOSTIF_Q_WM i, 29, 1⟩
abbrev HOSTIF_Q_WM_PIN (i : Nat) : Field := ⟨Reg.HOSTIF_Q_WM i, 30, 2⟩
abbrev HOSTIF_Q_STAT_FILL (i : Nat) : Field := ⟨Reg.HOSTIF_Q_STAT i, 0, 13⟩
abbrev HOSTIF_Q_STAT_FREE (i : Nat) : Field := ⟨Reg.HOSTIF_Q_STAT i, 16, 13⟩
abbrev HOSTIF_Q_STAT_EMPTY (i : Nat) : Field := ⟨Reg.HOSTIF_Q_STAT i, 29, 1⟩
abbrev HOSTIF_Q_STAT_FULL (i : Nat) : Field := ⟨Reg.HOSTIF_Q_STAT i, 30, 1⟩
abbrev HOSTIF_Q_STAT_WMF (i : Nat) : Field := ⟨Reg.HOSTIF_Q_STAT i, 31, 1⟩
abbrev HOSTIF_Q_DROP_DROP (i : Nat) : Field := ⟨Reg.HOSTIF_Q_DROP i, 0, 32⟩
abbrev HOSTIF_Q_CTRL_FLUSH (i : Nat) : Field := ⟨Reg.HOSTIF_Q_CTRL i, 0, 1⟩
abbrev HOSTIF_Q_CTRL_DROP_CLR (i : Nat) : Field := ⟨Reg.HOSTIF_Q_CTRL i, 1, 1⟩
abbrev FAULT_STATUS_SAFE : Field := ⟨Reg.FAULT_STATUS, 0, 1⟩
abbrev FAULT_STATUS_FULL : Field := ⟨Reg.FAULT_STATUS, 1, 1⟩
abbrev FAULT_STATUS_ALIVE : Field := ⟨Reg.FAULT_STATUS, 2, 1⟩
abbrev FAULT_STATUS_NCONT : Field := ⟨Reg.FAULT_STATUS, 8, 7⟩
abbrev FAULT_STATUS_NFATAL : Field := ⟨Reg.FAULT_STATUS, 16, 7⟩
abbrev FAULT_EVENT_CORR : Field := ⟨Reg.FAULT_EVENT, 0, 1⟩
abbrev FAULT_EVENT_CONT : Field := ⟨Reg.FAULT_EVENT, 1, 1⟩
abbrev FAULT_EVENT_FATAL : Field := ⟨Reg.FAULT_EVENT, 2, 1⟩
abbrev FAULT_EVENT_CLR_DONE : Field := ⟨Reg.FAULT_EVENT, 3, 1⟩
abbrev FAULT_EVENT_CLR_REF : Field := ⟨Reg.FAULT_EVENT, 4, 1⟩
abbrev FAULT_EVENT_HWD_OK : Field := ⟨Reg.FAULT_EVENT, 5, 1⟩
abbrev FAULT_EVENT_HWD_FAIL : Field := ⟨Reg.FAULT_EVENT, 6, 1⟩
abbrev FAULT_EVENT_FWD_EXP : Field := ⟨Reg.FAULT_EVENT, 7, 1⟩
abbrev FAULT_EVENT_FULL : Field := ⟨Reg.FAULT_EVENT, 8, 1⟩
abbrev FAULT_IRQEN_CORR : Field := ⟨Reg.FAULT_IRQEN, 0, 1⟩
abbrev FAULT_IRQEN_CONT : Field := ⟨Reg.FAULT_IRQEN, 1, 1⟩
abbrev FAULT_IRQEN_FATAL : Field := ⟨Reg.FAULT_IRQEN, 2, 1⟩
abbrev FAULT_IRQEN_CLR_DONE : Field := ⟨Reg.FAULT_IRQEN, 3, 1⟩
abbrev FAULT_IRQEN_CLR_REF : Field := ⟨Reg.FAULT_IRQEN, 4, 1⟩
abbrev FAULT_IRQEN_HWD_OK : Field := ⟨Reg.FAULT_IRQEN, 5, 1⟩
abbrev FAULT_IRQEN_HWD_FAIL : Field := ⟨Reg.FAULT_IRQEN, 6, 1⟩
abbrev FAULT_IRQEN_FWD_EXP : Field := ⟨Reg.FAULT_IRQEN, 7, 1⟩
abbrev FAULT_IRQEN_FULL : Field := ⟨Reg.FAULT_IRQEN, 8, 1⟩
abbrev FAULT_CLR_ENTRY : Field := ⟨Reg.FAULT_CLR, 0, 6⟩
abbrev FAULT_CLR_ALL : Field := ⟨Reg.FAULT_CLR, 8, 1⟩
abbrev FAULT_LAST_CODE : Field := ⟨Reg.FAULT_LAST, 0, 16⟩
abbrev FAULT_LAST_CLASS : Field := ⟨Reg.FAULT_LAST, 16, 2⟩
abbrev FAULT_LAST_KIND : Field := ⟨Reg.FAULT_LAST, 18, 3⟩
abbrev FAULT_LAST_INDEX : Field := ⟨Reg.FAULT_LAST, 21, 5⟩
abbrev FAULT_LAST_TS_LO_TS : Field := ⟨Reg.FAULT_LAST_TS_LO, 0, 32⟩
abbrev FAULT_LAST_TS_HI_TS : Field := ⟨Reg.FAULT_LAST_TS_HI, 0, 32⟩
abbrev FAULT_CORR_BLK : Field := ⟨Reg.FAULT_CORR, 1, 13⟩
abbrev FAULT_CFG_HALF : Field := ⟨Reg.FAULT_CFG, 0, 10⟩
abbrev FAULT_CFG_HOLDOFF : Field := ⟨Reg.FAULT_CFG, 16, 8⟩
abbrev FAULT_CTRL_CNT_CLR : Field := ⟨Reg.FAULT_CTRL, 0, 1⟩
abbrev FAULT_HWD_CTRL_EN : Field := ⟨Reg.FAULT_HWD_CTRL, 0, 1⟩
abbrev FAULT_HWD_CTRL_HWD_LOCK : Field := ⟨Reg.FAULT_HWD_CTRL, 1, 1⟩
abbrev FAULT_HWD_CFG_SEED : Field := ⟨Reg.FAULT_HWD_CFG, 0, 8⟩
abbrev FAULT_HWD_CFG_FAILTH : Field := ⟨Reg.FAULT_HWD_CFG, 8, 3⟩
abbrev FAULT_HWD_CFG_SLOT_EN : Field := ⟨Reg.FAULT_HWD_CFG, 16, 8⟩
abbrev FAULT_HWD_OPEN_OPEN : Field := ⟨Reg.FAULT_HWD_OPEN, 0, 24⟩
abbrev FAULT_HWD_CLOSE_CLOSE : Field := ⟨Reg.FAULT_HWD_CLOSE, 0, 24⟩
abbrev FAULT_HWD_TOKKEY_K : Field := ⟨Reg.FAULT_HWD_TOKKEY, 0, 16⟩
abbrev FAULT_HWD_KEY_KEY : Field := ⟨Reg.FAULT_HWD_KEY, 0, 16⟩
abbrev FAULT_HWD_Q_Q : Field := ⟨Reg.FAULT_HWD_Q, 0, 8⟩
abbrev FAULT_HWD_Q_NEXT : Field := ⟨Reg.FAULT_HWD_Q, 8, 2⟩
abbrev FAULT_HWD_ANS_ANSWER : Field := ⟨Reg.FAULT_HWD_ANS, 0, 8⟩
abbrev FAULT_HWD_ANS_INDEX : Field := ⟨Reg.FAULT_HWD_ANS, 8, 2⟩
abbrev FAULT_HWD_CHECKIN_SLOT : Field := ⟨Reg.FAULT_HWD_CHECKIN, 0, 3⟩
abbrev FAULT_HWD_EXP_EXP : Field := ⟨Reg.FAULT_HWD_EXP, 0, 32⟩
abbrev FAULT_HWD_STAT_FAILCNT : Field := ⟨Reg.FAULT_HWD_STAT, 0, 3⟩
abbrev FAULT_HWD_STAT_CAUSE : Field := ⟨Reg.FAULT_HWD_STAT, 4, 4⟩
abbrev FAULT_HWD_STAT_SLOTERR : Field := ⟨Reg.FAULT_HWD_STAT, 8, 8⟩
abbrev FAULT_HWD_TIME_ELAPSED : Field := ⟨Reg.FAULT_HWD_TIME, 0, 24⟩
abbrev FAULT_HWD_SCNT_SCNT : Field := ⟨Reg.FAULT_HWD_SCNT, 0, 32⟩
abbrev FAULT_FWD_STAT_EXPIRED : Field := ⟨Reg.FAULT_FWD_STAT, 0, 1⟩
abbrev FAULT_FWD_STAT_FROZEN : Field := ⟨Reg.FAULT_FWD_STAT, 1, 1⟩
abbrev FAULT_FWD_PC_PC : Field := ⟨Reg.FAULT_FWD_PC, 0, 32⟩
abbrev FAULT_FWD_TS_LO_TS : Field := ⟨Reg.FAULT_FWD_TS_LO, 0, 32⟩
abbrev FAULT_FWD_TS_HI_TS : Field := ⟨Reg.FAULT_FWD_TS_HI, 0, 32⟩
abbrev FAULT_BCNT_COUNT (i : Nat) : Field := ⟨Reg.FAULT_BCNT i, 0, 32⟩
abbrev FAULT_ENTRY_CODE_CODE (i : Nat) : Field := ⟨Reg.FAULT_ENTRY_CODE i, 0, 16⟩
abbrev FAULT_ENTRY_CODE_CLASS (i : Nat) : Field := ⟨Reg.FAULT_ENTRY_CODE i, 16, 2⟩
abbrev FAULT_ENTRY_CODE_KIND (i : Nat) : Field := ⟨Reg.FAULT_ENTRY_CODE i, 18, 3⟩
abbrev FAULT_ENTRY_CODE_INDEX (i : Nat) : Field := ⟨Reg.FAULT_ENTRY_CODE i, 21, 5⟩
abbrev FAULT_ENTRY_CODE_GONE (i : Nat) : Field := ⟨Reg.FAULT_ENTRY_CODE i, 26, 1⟩
abbrev FAULT_ENTRY_CODE_VALID (i : Nat) : Field := ⟨Reg.FAULT_ENTRY_CODE i, 31, 1⟩
abbrev FAULT_ENTRY_CNT_CNT (i : Nat) : Field := ⟨Reg.FAULT_ENTRY_CNT i, 0, 16⟩
abbrev FAULT_ENTRY_TS_LO_TS (i : Nat) : Field := ⟨Reg.FAULT_ENTRY_TS_LO i, 0, 32⟩
abbrev FAULT_ENTRY_TS_HI_TS (i : Nat) : Field := ⟨Reg.FAULT_ENTRY_TS_HI i, 0, 32⟩
abbrev REC_CFG_WVERIFY : Field := ⟨Reg.REC_CFG, 0, 1⟩
abbrev REC_CFG_SNAP_EN : Field := ⟨Reg.REC_CFG, 1, 1⟩
abbrev REC_CFG_COMMIT : Field := ⟨Reg.REC_CFG, 8, 6⟩
abbrev REC_STATUS_FROZEN : Field := ⟨Reg.REC_STATUS, 0, 1⟩
abbrev REC_STATUS_HU_READY : Field := ⟨Reg.REC_STATUS, 1, 1⟩
abbrev REC_STATUS_SCRUB : Field := ⟨Reg.REC_STATUS, 2, 1⟩
abbrev REC_STATUS_SNAPCLR : Field := ⟨Reg.REC_STATUS, 3, 1⟩
abbrev REC_STATUS_LEDGER_NEW : Field := ⟨Reg.REC_STATUS, 4, 1⟩
abbrev REC_STATUS_WALL_SET : Field := ⟨Reg.REC_STATUS, 5, 1⟩
abbrev REC_STATUS_NONCE : Field := ⟨Reg.REC_STATUS, 6, 1⟩
abbrev REC_STATUS_LOCKOUT : Field := ⟨Reg.REC_STATUS, 7, 1⟩
abbrev REC_STATUS_PEND : Field := ⟨Reg.REC_STATUS, 8, 8⟩
abbrev REC_STATUS_SPEND : Field := ⟨Reg.REC_STATUS, 16, 4⟩
abbrev REC_EVENT_LOST : Field := ⟨Reg.REC_EVENT, 0, 1⟩
abbrev REC_EVENT_VERIFY : Field := ⟨Reg.REC_EVENT, 1, 1⟩
abbrev REC_EVENT_SNAP_LOST : Field := ⟨Reg.REC_EVENT, 2, 1⟩
abbrev REC_EVENT_CLR_DONE : Field := ⟨Reg.REC_EVENT, 3, 1⟩
abbrev REC_EVENT_CLR_REF : Field := ⟨Reg.REC_EVENT, 4, 1⟩
abbrev REC_EVENT_COMMIT_DONE : Field := ⟨Reg.REC_EVENT, 5, 1⟩
abbrev REC_EVENT_HU_NOTREADY : Field := ⟨Reg.REC_EVENT, 6, 1⟩
abbrev REC_EVENT_NOTE_DONE : Field := ⟨Reg.REC_EVENT, 7, 1⟩
abbrev REC_IRQEN_LOST : Field := ⟨Reg.REC_IRQEN, 0, 1⟩
abbrev REC_IRQEN_VERIFY : Field := ⟨Reg.REC_IRQEN, 1, 1⟩
abbrev REC_IRQEN_SNAP_LOST : Field := ⟨Reg.REC_IRQEN, 2, 1⟩
abbrev REC_IRQEN_CLR_DONE : Field := ⟨Reg.REC_IRQEN, 3, 1⟩
abbrev REC_IRQEN_CLR_REF : Field := ⟨Reg.REC_IRQEN, 4, 1⟩
abbrev REC_IRQEN_COMMIT_DONE : Field := ⟨Reg.REC_IRQEN, 5, 1⟩
abbrev REC_IRQEN_HU_NOTREADY : Field := ⟨Reg.REC_IRQEN, 6, 1⟩
abbrev REC_IRQEN_NOTE_DONE : Field := ⟨Reg.REC_IRQEN, 7, 1⟩
abbrev REC_CTRL_FREEZE : Field := ⟨Reg.REC_CTRL, 0, 1⟩
abbrev REC_CTRL_THAW : Field := ⟨Reg.REC_CTRL, 1, 1⟩
abbrev REC_CTRL_COMMIT : Field := ⟨Reg.REC_CTRL, 2, 1⟩
abbrev REC_CTRL_NONCE_NEW : Field := ⟨Reg.REC_CTRL, 3, 1⟩
abbrev REC_CTRL_NOTE : Field := ⟨Reg.REC_CTRL, 4, 1⟩
abbrev REC_CTRL_CNT_CLR : Field := ⟨Reg.REC_CTRL, 5, 1⟩
abbrev REC_NEXT_NEXT : Field := ⟨Reg.REC_NEXT, 0, 32⟩
abbrev REC_FLOOR_FLOOR : Field := ⟨Reg.REC_FLOOR, 0, 32⟩
abbrev REC_CNT_LOST : Field := ⟨Reg.REC_CNT, 0, 16⟩
abbrev REC_CNT_VERIFY_CNT : Field := ⟨Reg.REC_CNT, 16, 16⟩
abbrev REC_WALL_WALL : Field := ⟨Reg.REC_WALL, 0, 32⟩
abbrev REC_LEDGER_LEDGER : Field := ⟨Reg.REC_LEDGER, 0, 32⟩
abbrev REC_SNAPSEQ_SNAPSEQ : Field := ⟨Reg.REC_SNAPSEQ, 0, 32⟩
abbrev REC_CLEAR_SB : Field := ⟨Reg.REC_CLEAR, 0, 1⟩
abbrev REC_CLEAR_SNAP : Field := ⟨Reg.REC_CLEAR, 1, 1⟩
abbrev REC_CLEAR_KEY : Field := ⟨Reg.REC_CLEAR, 16, 16⟩
abbrev REC_NONCE_NONCE (i : Nat) : Field := ⟨Reg.REC_NONCE i, 0, 32⟩
abbrev REC_TOKEN_TOKEN (i : Nat) : Field := ⟨Reg.REC_TOKEN i, 0, 32⟩
abbrev REC_NOTE_NOTE (i : Nat) : Field := ⟨Reg.REC_NOTE i, 0, 32⟩
abbrev TRUST_STATUS_LIFECYCLE : Field := ⟨Reg.TRUST_STATUS, 0, 2⟩
abbrev TRUST_STATUS_RECOVERY : Field := ⟨Reg.TRUST_STATUS, 2, 1⟩
abbrev TRUST_STATUS_FW_SLOT : Field := ⟨Reg.TRUST_STATUS, 3, 1⟩
abbrev TRUST_STATUS_ST_SLOT : Field := ⟨Reg.TRUST_STATUS, 4, 1⟩
abbrev TRUST_STATUS_FW_STG : Field := ⟨Reg.TRUST_STATUS, 5, 3⟩
abbrev TRUST_STATUS_ST_STG : Field := ⟨Reg.TRUST_STATUS, 8, 3⟩
abbrev TRUST_STATUS_RPT_BUSY : Field := ⟨Reg.TRUST_STATUS, 11, 1⟩
abbrev TRUST_STATUS_ACT_FW : Field := ⟨Reg.TRUST_STATUS, 12, 1⟩
abbrev TRUST_STATUS_ACT_ST : Field := ⟨Reg.TRUST_STATUS, 13, 1⟩
abbrev TRUST_EVENT_STG_DONE : Field := ⟨Reg.TRUST_EVENT, 0, 1⟩
abbrev TRUST_EVENT_STG_ERR : Field := ⟨Reg.TRUST_EVENT, 1, 1⟩
abbrev TRUST_EVENT_ACT_DONE : Field := ⟨Reg.TRUST_EVENT, 2, 1⟩
abbrev TRUST_EVENT_ACT_REF : Field := ⟨Reg.TRUST_EVENT, 3, 1⟩
abbrev TRUST_EVENT_RPT_DONE : Field := ⟨Reg.TRUST_EVENT, 4, 1⟩
abbrev TRUST_EVENT_KEY_DONE : Field := ⟨Reg.TRUST_EVENT, 5, 1⟩
abbrev TRUST_EVENT_KEY_REF : Field := ⟨Reg.TRUST_EVENT, 6, 1⟩
abbrev TRUST_IRQEN_STG_DONE : Field := ⟨Reg.TRUST_IRQEN, 0, 1⟩
abbrev TRUST_IRQEN_STG_ERR : Field := ⟨Reg.TRUST_IRQEN, 1, 1⟩
abbrev TRUST_IRQEN_ACT_DONE : Field := ⟨Reg.TRUST_IRQEN, 2, 1⟩
abbrev TRUST_IRQEN_ACT_REF : Field := ⟨Reg.TRUST_IRQEN, 3, 1⟩
abbrev TRUST_IRQEN_RPT_DONE : Field := ⟨Reg.TRUST_IRQEN, 4, 1⟩
abbrev TRUST_IRQEN_KEY_DONE : Field := ⟨Reg.TRUST_IRQEN, 5, 1⟩
abbrev TRUST_IRQEN_KEY_REF : Field := ⟨Reg.TRUST_IRQEN, 6, 1⟩
abbrev TRUST_CTRL_REPORT : Field := ⟨Reg.TRUST_CTRL, 0, 1⟩
abbrev TRUST_CTRL_ACTIVATE : Field := ⟨Reg.TRUST_CTRL, 1, 1⟩
abbrev TRUST_CTRL_CANCEL_FW : Field := ⟨Reg.TRUST_CTRL, 2, 1⟩
abbrev TRUST_CTRL_CANCEL_ST : Field := ⟨Reg.TRUST_CTRL, 3, 1⟩
abbrev TRUST_CTRL_NONCE_NEW : Field := ⟨Reg.TRUST_CTRL, 4, 1⟩
abbrev TRUST_ACT_CFG_KIND : Field := ⟨Reg.TRUST_ACT_CFG, 0, 2⟩
abbrev TRUST_ACT_CFG_CC_HI : Field := ⟨Reg.TRUST_ACT_CFG, 8, 8⟩
abbrev TRUST_ACT_CC_CC : Field := ⟨Reg.TRUST_ACT_CC, 0, 32⟩
abbrev TRUST_ACT_ID_LO_ID : Field := ⟨Reg.TRUST_ACT_ID_LO, 0, 32⟩
abbrev TRUST_ACT_ID_HI_ID : Field := ⟨Reg.TRUST_ACT_ID_HI, 0, 32⟩
abbrev TRUST_ACT_RES_KIND : Field := ⟨Reg.TRUST_ACT_RES, 0, 2⟩
abbrev TRUST_ACT_RES_RESULT : Field := ⟨Reg.TRUST_ACT_RES, 8, 8⟩
abbrev TRUST_PEND_FW_CC : Field := ⟨Reg.TRUST_PEND_FW, 0, 32⟩
abbrev TRUST_PEND_ST_CC : Field := ⟨Reg.TRUST_PEND_ST, 0, 32⟩
abbrev TRUST_BOOTCNT_BOOTCNT : Field := ⟨Reg.TRUST_BOOTCNT, 0, 32⟩
abbrev TRUST_DEVID_LO_DEVID : Field := ⟨Reg.TRUST_DEVID_LO, 0, 32⟩
abbrev TRUST_DEVID_HI_DEVID : Field := ⟨Reg.TRUST_DEVID_HI, 0, 32⟩
abbrev TRUST_STG_OFS_OFS : Field := ⟨Reg.TRUST_STG_OFS, 0, 20⟩
abbrev TRUST_STG_TOTAL_TOTAL : Field := ⟨Reg.TRUST_STG_TOTAL, 0, 20⟩
abbrev TRUST_STG_CTRL_WORDS : Field := ⟨Reg.TRUST_STG_CTRL, 0, 8⟩
abbrev TRUST_STG_CTRL_GO : Field := ⟨Reg.TRUST_STG_CTRL, 31, 1⟩
abbrev TRUST_STG_STAT_RESULT : Field := ⟨Reg.TRUST_STG_STAT, 0, 8⟩
abbrev TRUST_STG_NEXT_NEXT : Field := ⟨Reg.TRUST_STG_NEXT, 0, 20⟩
abbrev TRUST_KEYCMD_OP : Field := ⟨Reg.TRUST_KEYCMD, 0, 4⟩
abbrev TRUST_KEYCMD_SLOT : Field := ⟨Reg.TRUST_KEYCMD, 4, 4⟩
abbrev TRUST_KEYCMD_KEY : Field := ⟨Reg.TRUST_KEYCMD, 16, 16⟩
abbrev TRUST_KEYSTAT_PRESENT : Field := ⟨Reg.TRUST_KEYSTAT, 0, 4⟩
abbrev TRUST_KEYSTAT_REVOKED : Field := ⟨Reg.TRUST_KEYSTAT, 4, 4⟩
abbrev TRUST_KEYSTAT_CLEARKEY : Field := ⟨Reg.TRUST_KEYSTAT, 8, 1⟩
abbrev TRUST_NONCE_NONCE (i : Nat) : Field := ⟨Reg.TRUST_NONCE i, 0, 32⟩
abbrev TRUST_TOKEN_TOKEN (i : Nat) : Field := ⟨Reg.TRUST_TOKEN i, 0, 32⟩
abbrev TRUST_KNONCE_KNONCE (i : Nat) : Field := ⟨Reg.TRUST_KNONCE i, 0, 32⟩
abbrev TRUST_REPORT_REPORT (i : Nat) : Field := ⟨Reg.TRUST_REPORT i, 0, 32⟩
abbrev TRUST_M_M (i : Nat) (j : Nat) : Field := ⟨Reg.TRUST_M i j, 0, 32⟩
abbrev TRUST_KEYDATA_KEYDATA (i : Nat) : Field := ⟨Reg.TRUST_KEYDATA i, 0, 32⟩
abbrev TRUST_STG_DATA_DATA (i : Nat) : Field := ⟨Reg.TRUST_STG_DATA i, 0, 32⟩
abbrev GLOBAL_ID_PART : Field := ⟨Reg.GLOBAL_ID, 0, 16⟩
abbrev GLOBAL_ID_STEPPING : Field := ⟨Reg.GLOBAL_ID, 16, 8⟩
abbrev GLOBAL_ID_FAMILY : Field := ⟨Reg.GLOBAL_ID, 24, 8⟩
abbrev GLOBAL_STATE_STATE : Field := ⟨Reg.GLOBAL_STATE, 0, 3⟩
abbrev GLOBAL_STATE_PREV : Field := ⟨Reg.GLOBAL_STATE, 3, 3⟩
abbrev GLOBAL_STATE_ARM_PEND : Field := ⟨Reg.GLOBAL_STATE, 6, 1⟩
abbrev GLOBAL_STATE_HIB_PEND : Field := ⟨Reg.GLOBAL_STATE, 7, 1⟩
abbrev GLOBAL_EVENT_STATE_CHG : Field := ⟨Reg.GLOBAL_EVENT, 0, 1⟩
abbrev GLOBAL_EVENT_ARM_DONE : Field := ⟨Reg.GLOBAL_EVENT, 1, 1⟩
abbrev GLOBAL_EVENT_ARM_REF : Field := ⟨Reg.GLOBAL_EVENT, 2, 1⟩
abbrev GLOBAL_EVENT_CTRL_REF : Field := ⟨Reg.GLOBAL_EVENT, 3, 1⟩
abbrev GLOBAL_IRQEN_STATE_CHG : Field := ⟨Reg.GLOBAL_IRQEN, 0, 1⟩
abbrev GLOBAL_IRQEN_ARM_DONE : Field := ⟨Reg.GLOBAL_IRQEN, 1, 1⟩
abbrev GLOBAL_IRQEN_ARM_REF : Field := ⟨Reg.GLOBAL_IRQEN, 2, 1⟩
abbrev GLOBAL_IRQEN_CTRL_REF : Field := ⟨Reg.GLOBAL_IRQEN, 3, 1⟩
abbrev GLOBAL_ARM_KEY : Field := ⟨Reg.GLOBAL_ARM, 0, 16⟩
abbrev GLOBAL_ARMSTAT_REASON : Field := ⟨Reg.GLOBAL_ARMSTAT, 0, 8⟩
abbrev GLOBAL_ARMSTAT_ARM_CNT : Field := ⟨Reg.GLOBAL_ARMSTAT, 16, 16⟩
abbrev GLOBAL_CTRL_OP : Field := ⟨Reg.GLOBAL_CTRL, 0, 4⟩
abbrev GLOBAL_CTRL_KEY : Field := ⟨Reg.GLOBAL_CTRL, 16, 16⟩
abbrev GLOBAL_RSTCAUSE_COLD : Field := ⟨Reg.GLOBAL_RSTCAUSE, 0, 1⟩
abbrev GLOBAL_RSTCAUSE_POR : Field := ⟨Reg.GLOBAL_RSTCAUSE, 1, 1⟩
abbrev GLOBAL_RSTCAUSE_BROWNOUT : Field := ⟨Reg.GLOBAL_RSTCAUSE, 2, 1⟩
abbrev GLOBAL_RSTCAUSE_RSTN : Field := ⟨Reg.GLOBAL_RSTCAUSE, 3, 1⟩
abbrev GLOBAL_RSTCAUSE_SOFT : Field := ⟨Reg.GLOBAL_RSTCAUSE, 4, 1⟩
abbrev GLOBAL_RSTCAUSE_WAKE : Field := ⟨Reg.GLOBAL_RSTCAUSE, 5, 1⟩
abbrev GLOBAL_WAKE_EN_TW : Field := ⟨Reg.GLOBAL_WAKE_EN, 0, 1⟩
abbrev GLOBAL_WAKE_EN_HARN : Field := ⟨Reg.GLOBAL_WAKE_EN, 1, 1⟩
abbrev GLOBAL_WAKE_EN_PIN : Field := ⟨Reg.GLOBAL_WAKE_EN, 2, 1⟩
abbrev GLOBAL_WAKE_EN_ALARM : Field := ⟨Reg.GLOBAL_WAKE_EN, 3, 1⟩
abbrev GLOBAL_WAKESRC_KA : Field := ⟨Reg.GLOBAL_WAKESRC, 0, 1⟩
abbrev GLOBAL_WAKESRC_TW : Field := ⟨Reg.GLOBAL_WAKESRC, 1, 1⟩
abbrev GLOBAL_WAKESRC_HARN : Field := ⟨Reg.GLOBAL_WAKESRC, 2, 1⟩
abbrev GLOBAL_WAKESRC_PIN : Field := ⟨Reg.GLOBAL_WAKESRC, 3, 1⟩
abbrev GLOBAL_WAKESRC_ALARM : Field := ⟨Reg.GLOBAL_WAKESRC, 4, 1⟩
abbrev GLOBAL_WAKESRC_RSTN : Field := ⟨Reg.GLOBAL_WAKESRC, 5, 1⟩
abbrev GLOBAL_ALARM_ALARM : Field := ⟨Reg.GLOBAL_ALARM, 0, 32⟩
abbrev GLOBAL_CFG_PROFILE : Field := ⟨Reg.GLOBAL_CFG, 0, 2⟩
abbrev GLOBAL_STRAP_AUTOARM : Field := ⟨Reg.GLOBAL_STRAP, 0, 1⟩
abbrev GLOBAL_BOOTTIME_BOOTTIME : Field := ⟨Reg.GLOBAL_BOOTTIME, 0, 16⟩
abbrev GLOBAL_HIBTIME_HIBTIME : Field := ⟨Reg.GLOBAL_HIBTIME, 0, 32⟩
abbrev TEST_STATUS_DBG : Field := ⟨Reg.TEST_STATUS, 0, 1⟩
abbrev TEST_STATUS_DLOCKOUT : Field := ⟨Reg.TEST_STATUS, 1, 1⟩
abbrev TEST_STATUS_DNONCE : Field := ⟨Reg.TEST_STATUS, 2, 1⟩
abbrev TEST_EVENT_ADC_FAIL : Field := ⟨Reg.TEST_EVENT, 0, 1⟩
abbrev TEST_EVENT_HK_FAIL : Field := ⟨Reg.TEST_EVENT, 1, 1⟩
abbrev TEST_EVENT_CMP_DONE : Field := ⟨Reg.TEST_EVENT, 2, 1⟩
abbrev TEST_EVENT_PWM_DONE : Field := ⟨Reg.TEST_EVENT, 3, 1⟩
abbrev TEST_IRQEN_ADC_FAIL : Field := ⟨Reg.TEST_IRQEN, 0, 1⟩
abbrev TEST_IRQEN_HK_FAIL : Field := ⟨Reg.TEST_IRQEN, 1, 1⟩
abbrev TEST_IRQEN_CMP_DONE : Field := ⟨Reg.TEST_IRQEN, 2, 1⟩
abbrev TEST_IRQEN_PWM_DONE : Field := ⟨Reg.TEST_IRQEN, 3, 1⟩
abbrev TEST_OOS_OOS : Field := ⟨Reg.TEST_OOS, 0, 32⟩
abbrev TEST_OOS_ACT_ACT : Field := ⟨Reg.TEST_OOS_ACT, 0, 32⟩
abbrev TEST_CHK_CFG_ADCTOL : Field := ⟨Reg.TEST_CHK_CFG, 0, 8⟩
abbrev TEST_CHK_CFG_HKTOL : Field := ⟨Reg.TEST_CHK_CFG, 8, 8⟩
abbrev TEST_CHK_CFG_FAILN : Field := ⟨Reg.TEST_CHK_CFG, 16, 4⟩
abbrev TEST_CHK_CFG_CMPTOL : Field := ⟨Reg.TEST_CHK_CFG, 20, 4⟩
abbrev TEST_CHK_CFG_PWMTOL : Field := ⟨Reg.TEST_CHK_CFG, 24, 8⟩
abbrev TEST_ADC_EN_EN : Field := ⟨Reg.TEST_ADC_EN, 0, 32⟩
abbrev TEST_ADC_FAIL_FAIL : Field := ⟨Reg.TEST_ADC_FAIL, 0, 32⟩
abbrev TEST_ADC_NA_NA : Field := ⟨Reg.TEST_ADC_NA, 0, 32⟩
abbrev TEST_HK_FAIL_CH : Field := ⟨Reg.TEST_HK_FAIL, 0, 10⟩
abbrev TEST_CMP_CTRL_PORT : Field := ⟨Reg.TEST_CMP_CTRL, 0, 5⟩
abbrev TEST_CMP_CTRL_LEVEL : Field := ⟨Reg.TEST_CMP_CTRL, 16, 10⟩
abbrev TEST_CMP_CTRL_GO : Field := ⟨Reg.TEST_CMP_CTRL, 31, 1⟩
abbrev TEST_CMP_STAT_BUSY : Field := ⟨Reg.TEST_CMP_STAT, 0, 1⟩
abbrev TEST_CMP_STAT_DONE : Field := ⟨Reg.TEST_CMP_STAT, 1, 1⟩
abbrev TEST_CMP_STAT_REFUSED : Field := ⟨Reg.TEST_CMP_STAT, 2, 1⟩
abbrev TEST_CMP_RES_T_HI (i : Nat) : Field := ⟨Reg.TEST_CMP_RES i, 0, 10⟩
abbrev TEST_CMP_RES_T_LO (i : Nat) : Field := ⟨Reg.TEST_CMP_RES i, 16, 10⟩
abbrev TEST_CMP_RES_PASS_HI (i : Nat) : Field := ⟨Reg.TEST_CMP_RES i, 30, 1⟩
abbrev TEST_CMP_RES_PASS_LO (i : Nat) : Field := ⟨Reg.TEST_CMP_RES i, 31, 1⟩
abbrev TEST_PWM_CTRL_PORT : Field := ⟨Reg.TEST_PWM_CTRL, 0, 5⟩
abbrev TEST_PWM_CTRL_GO : Field := ⟨Reg.TEST_PWM_CTRL, 31, 1⟩
abbrev TEST_PWM_STAT_BUSY : Field := ⟨Reg.TEST_PWM_STAT, 0, 1⟩
abbrev TEST_PWM_STAT_PASS : Field := ⟨Reg.TEST_PWM_STAT, 1, 1⟩
abbrev TEST_PWM_STAT_OVF : Field := ⟨Reg.TEST_PWM_STAT, 2, 1⟩
abbrev TEST_PWM_STAT_ABORTED : Field := ⟨Reg.TEST_PWM_STAT, 3, 1⟩
abbrev TEST_PWM_STAT_COUNT : Field := ⟨Reg.TEST_PWM_STAT, 4, 5⟩
abbrev TEST_SCRUB_CFG_SRAM_EN : Field := ⟨Reg.TEST_SCRUB_CFG, 0, 1⟩
abbrev TEST_SCRUB_CFG_NVM_EN : Field := ⟨Reg.TEST_SCRUB_CFG, 1, 1⟩
abbrev TEST_SCRUB_CFG_REFRESH : Field := ⟨Reg.TEST_SCRUB_CFG, 2, 1⟩
abbrev TEST_SCRUB_CFG_SPER : Field := ⟨Reg.TEST_SCRUB_CFG, 8, 8⟩
abbrev TEST_SCRUB_STAT_SRAM_PASS : Field := ⟨Reg.TEST_SCRUB_STAT, 0, 16⟩
abbrev TEST_SCRUB_STAT_NVM_PASS : Field := ⟨Reg.TEST_SCRUB_STAT, 16, 16⟩
abbrev TEST_HARN_OFF : Field := ⟨Reg.TEST_HARN, 0, 3⟩
abbrev TEST_JTAG_BSCAN_EN : Field := ⟨Reg.TEST_JTAG, 0, 1⟩
abbrev TEST_IDCODE_ONE : Field := ⟨Reg.TEST_IDCODE, 0, 1⟩
abbrev TEST_IDCODE_MANUF : Field := ⟨Reg.TEST_IDCODE, 1, 11⟩
abbrev TEST_IDCODE_PART : Field := ⟨Reg.TEST_IDCODE, 12, 16⟩
abbrev TEST_IDCODE_VERSION : Field := ⟨Reg.TEST_IDCODE, 28, 4⟩
abbrev TEST_DBG_CTRL_NONCE_NEW : Field := ⟨Reg.TEST_DBG_CTRL, 0, 1⟩
abbrev TEST_DBG_CTRL_UNLOCK : Field := ⟨Reg.TEST_DBG_CTRL, 1, 1⟩
abbrev TEST_DBG_CTRL_KEY : Field := ⟨Reg.TEST_DBG_CTRL, 16, 16⟩
abbrev TEST_DNONCE_DNONCE (i : Nat) : Field := ⟨Reg.TEST_DNONCE i, 0, 32⟩
abbrev TEST_DTOKEN_DTOKEN (i : Nat) : Field := ⟨Reg.TEST_DTOKEN i, 0, 32⟩
abbrev TEST_PWM_EDGE_POS (i : Nat) : Field := ⟨Reg.TEST_PWM_EDGE i, 0, 24⟩
abbrev TEST_PWM_EDGE_OUT (i : Nat) : Field := ⟨Reg.TEST_PWM_EDGE i, 24, 2⟩
abbrev TEST_PWM_EDGE_RISE (i : Nat) : Field := ⟨Reg.TEST_PWM_EDGE i, 26, 1⟩
abbrev TEST_PWM_EDGE_VALID (i : Nat) : Field := ⟨Reg.TEST_PWM_EDGE i, 31, 1⟩
end Fld

/-- Rows 0.. of the register tables (R14, R64). -/
def regRows0 : List RegRow := [
  ⟨0x1000, [], true, [(0, 2, .ro), (2, 1, .ro), (3, 1, .ro), (8, 5, .ro), (16, 2, .ro), (18, 2, .ro), (24, 8, .ro)]⟩,
  ⟨0x1004, [], true, [(0, 17, .ro)]⟩,
  ⟨0x1008, [], true, [(0, 17, .ro)]⟩,
  ⟨0x100C, [], true, [(0, 17, .ro)]⟩,
  ⟨0x1010, [], true, [(0, 16, .ro)]⟩,
  ⟨0x1014, [], true, [(0, 13, .ro)]⟩,
  ⟨0x1018, [], true, [(0, 32, .ro)]⟩,
  ⟨0x101C, [], false, [(0, 3, .ro), (4, 2, .ro), (8, 1, .ro), (9, 1, .ro), (10, 1, .ro), (11, 1, .ro), (12, 1, .ro), (13, 1, .ro), (14, 1, .ro), (15, 1, .ro)]⟩,
  ⟨0x1020, [], false, [(0, 1, .w1c), (1, 1, .w1c), (2, 1, .w1c), (3, 1, .w1c), (4, 1, .w1c), (5, 1, .w1c), (6, 1, .w1c), (7, 1, .w1c), (8, 1, .w1c), (9, 1, .w1c), (10, 1, .w1c), (11, 1, .w1c)]⟩,
  ⟨0x1024, [], false, [(0, 1, .rw), (1, 1, .rw), (2, 1, .rw), (3, 1, .rw), (4, 1, .rw), (5, 1, .rw), (6, 1, .rw), (7, 1, .rw), (8, 1, .rw), (9, 1, .rw), (10, 1, .rw), (11, 1, .rw)]⟩,
  ⟨0x1028, [], false, [(0, 27, .ro)]⟩,
  ⟨0x102C, [], false, [(0, 27, .ro)]⟩,
  ⟨0x1030, [], false, [(0, 16, .ro)]⟩,
  ⟨0x1034, [], false, [(0, 32, .ro)]⟩,
  ⟨0x1038, [], false, [(0, 32, .ro)]⟩,
  ⟨0x103C, [], false, [(0, 32, .ro)]⟩,
  ⟨0x1040, [], false, [(0, 32, .rw)]⟩,
  ⟨0x1044, [], false, [(0, 32, .ro)]⟩,
  ⟨0x1048, [], false, [(0, 32, .ro)]⟩,
  ⟨0x104C, [], false, [(0, 32, .ro)]⟩,
  ⟨0x1050, [], false, [(0, 27, .ro)]⟩,
  ⟨0x1054, [], false, [(0, 16, .ro), (16, 16, .ro)]⟩,
  ⟨0x2000, [], false, [(0, 1, .ro), (1, 1, .ro), (2, 1, .ro), (3, 2, .ro), (5, 1, .ro), (6, 2, .ro), (8, 4, .ro), (12, 2, .ro), (14, 1, .ro), (15, 1, .ro)]⟩,
  ⟨0x2004, [], false, [(0, 2, .ro), (8, 8, .ro), (16, 5, .ro), (24, 1, .ro)]⟩,
  ⟨0x2008, [], false, [(0, 1, .w1c), (1, 1, .w1c), (2, 1, .w1c), (3, 1, .w1c), (4, 1, .w1c), (5, 1, .w1c), (6, 1, .w1c), (7, 1, .w1c), (8, 1, .w1c), (9, 1, .w1c)]⟩,
  ⟨0x200C, [], false, [(0, 1, .rw), (1, 1, .rw), (2, 1, .rw), (3, 1, .rw), (4, 1, .rw), (5, 1, .rw), (6, 1, .rw), (7, 1, .rw), (8, 1, .rw), (9, 1, .rw)]⟩,
  ⟨0x2010, [], false, [(0, 1, .wo)]⟩,
  ⟨0x2014, [], false, [(0, 2, .wo), (16, 16, .wo)]⟩,
  ⟨0x2018, [], false, [(0, 32, .rw)]⟩,
  ⟨0x201C, [], false, [(0, 32, .rw)]⟩,
  ⟨0x2020, [], false, [(0, 1, .wo)]⟩,
  ⟨0x2024, [], false, [(0, 32, .ro)]⟩,
  ⟨0x2028, [], false, [(0, 32, .ro)]⟩,
  ⟨0x202C, [], false, [(0, 32, .ro)]⟩,
  ⟨0x2030, [], false, [(0, 32, .ro)]⟩,
  ⟨0x2034, [], false, [(0, 32, .ro)]⟩,
  ⟨0x2038, [], false, [(0, 32, .ro)]⟩,
  ⟨0x203C, [], false, [(0, 32, .ro)]⟩,
  ⟨0x2040, [], false, [(0, 32, .ro)]⟩,
  ⟨0x2044, [], false, [(0, 16, .ro), (16, 16, .ro)]⟩]

/-- Rows 40.. of the register tables (R14, R64). -/
def regRows1 : List RegRow := [
  ⟨0x2048, [], false, [(0, 7, .rw)]⟩,
  ⟨0x204C, [], false, [(0, 12, .ro), (12, 12, .ro), (24, 1, .ro), (25, 1, .ro), (26, 6, .ro)]⟩,
  ⟨0x2050, [], false, [(0, 32, .ro)]⟩,
  ⟨0x10000, [(0x400, 32)], true, [(0, 1, .ro), (1, 4, .ro), (5, 5, .ro), (10, 3, .ro), (13, 2, .ro), (15, 1, .ro), (16, 1, .ro), (17, 1, .ro), (18, 2, .ro), (20, 1, .ro), (24, 2, .ro)]⟩,
  ⟨0x10004, [(0x400, 32)], true, [(0, 24, .ro), (24, 4, .ro)]⟩,
  ⟨0x10008, [(0x400, 32)], true, [(0, 10, .ro), (16, 10, .ro)]⟩,
  ⟨0x1000C, [(0x400, 32)], true, [(0, 10, .ro), (16, 10, .ro)]⟩,
  ⟨0x10010, [(0x400, 32)], true, [(0, 24, .ro)]⟩,
  ⟨0x10014, [(0x400, 32)], true, [(0, 24, .ro)]⟩,
  ⟨0x10018, [(0x400, 32)], true, [(0, 1, .ro), (1, 1, .ro), (2, 6, .ro), (8, 2, .ro), (10, 8, .ro)]⟩,
  ⟨0x1001C, [(0x400, 32)], true, [(0, 16, .ro)]⟩,
  ⟨0x10020, [(0x400, 32)], false, [(0, 3, .ro), (3, 1, .ro), (4, 1, .ro), (5, 1, .ro), (6, 1, .ro), (7, 1, .ro), (8, 1, .ro)]⟩,
  ⟨0x10024, [(0x400, 32)], false, [(0, 1, .w1c), (1, 1, .w1c), (2, 1, .w1c), (3, 1, .w1c), (4, 1, .w1c), (5, 1, .w1c), (6, 1, .w1c)]⟩,
  ⟨0x10028, [(0x400, 32)], false, [(0, 1, .rw), (1, 1, .rw), (2, 1, .rw), (3, 1, .rw), (4, 1, .rw), (5, 1, .rw), (6, 1, .rw)]⟩,
  ⟨0x1002C, [(0x400, 32)], false, [(0, 1, .wo)]⟩,
  ⟨0x10030, [(0x400, 32)], false, [(0, 25, .ro)]⟩,
  ⟨0x10034, [(0x400, 32)], false, [(0, 24, .ro)]⟩,
  ⟨0x10038, [(0x400, 32)], false, [(0, 24, .ro)]⟩,
  ⟨0x1003C, [(0x400, 32)], false, [(0, 24, .ro)]⟩,
  ⟨0x10040, [(0x400, 32)], false, [(0, 24, .ro)]⟩,
  ⟨0x10044, [(0x400, 32)], false, [(0, 14, .ro), (14, 1, .ro), (15, 1, .ro), (16, 16, .ro)]⟩,
  ⟨0x10048, [(0x400, 32)], false, [(0, 14, .ro), (14, 1, .ro), (15, 1, .ro), (16, 16, .ro)]⟩,
  ⟨0x1004C, [(0x400, 32)], false, [(0, 14, .ro), (14, 1, .ro), (15, 1, .ro), (16, 16, .ro)]⟩,
  ⟨0x10050, [(0x400, 32)], false, [(0, 16, .ro), (16, 16, .ro)]⟩,
  ⟨0x10054, [(0x400, 32)], false, [(0, 16, .ro), (16, 16, .ro)]⟩,
  ⟨0x18000, [(0x200, 64)], true, [(0, 1, .ro), (1, 1, .ro), (2, 1, .ro), (3, 1, .ro), (4, 1, .ro), (5, 3, .ro), (8, 6, .ro), (14, 6, .ro), (20, 6, .ro), (26, 5, .ro)]⟩,
  ⟨0x18004, [(0x200, 64)], true, [(0, 12, .ro), (12, 1, .ro), (16, 12, .ro), (28, 1, .ro)]⟩,
  ⟨0x18008, [(0x200, 64)], false, [(0, 1, .rw), (1, 1, .rw)]⟩,
  ⟨0x1800C, [(0x200, 64)], false, [(0, 32, .rw)]⟩,
  ⟨0x18010, [(0x200, 64)], false, [(0, 3, .ro), (3, 2, .ro), (5, 1, .ro), (6, 1, .ro), (7, 1, .ro), (8, 1, .ro), (9, 1, .ro), (10, 1, .ro), (11, 1, .ro)]⟩,
  ⟨0x18014, [(0x200, 64)], false, [(0, 1, .w1c), (1, 1, .w1c), (2, 1, .w1c), (3, 1, .w1c), (4, 1, .w1c), (5, 1, .w1c), (6, 1, .w1c)]⟩,
  ⟨0x18018, [(0x200, 64)], false, [(0, 1, .rw), (1, 1, .rw), (2, 1, .rw), (3, 1, .rw), (4, 1, .rw), (5, 1, .rw), (6, 1, .rw)]⟩,
  ⟨0x1801C, [(0x200, 64)], false, [(0, 1, .wo)]⟩,
  ⟨0x18020, [(0x200, 64)], false, [(0, 16, .ro), (16, 16, .ro)]⟩,
  ⟨0x18024, [(0x200, 64)], false, [(0, 32, .ro)]⟩,
  ⟨0x18028, [(0x200, 64)], false, [(0, 32, .ro)]⟩,
  ⟨0x1802C, [(0x200, 64)], false, [(0, 32, .ro)]⟩,
  ⟨0x18030, [(0x200, 64)], false, [(0, 32, .ro)]⟩,
  ⟨0x18034, [(0x200, 64)], false, [(0, 32, .ro)]⟩,
  ⟨0x18038, [(0x200, 64)], false, [(0, 32, .ro)]⟩]

/-- Rows 80.. of the register tables (R14, R64). -/
def regRows2 : List RegRow := [
  ⟨0x1803C, [(0x200, 64)], false, [(0, 32, .ro)]⟩,
  ⟨0x18040, [(0x200, 64)], false, [(0, 32, .ro)]⟩,
  ⟨0x18044, [(0x200, 64)], false, [(0, 24, .ro)]⟩,
  ⟨0x18100, [(0x200, 64), (0x4, 64)], true, [(0, 32, .rw)]⟩,
  ⟨0x10100, [(0x400, 32), (0x40, 4)], true, [(0, 1, .ro), (1, 2, .ro), (3, 1, .ro), (4, 1, .ro), (5, 2, .ro), (7, 1, .ro), (8, 3, .ro), (11, 1, .ro), (12, 4, .ro)]⟩,
  ⟨0x10104, [(0x400, 32), (0x40, 4)], true, [(0, 8, .ro), (8, 6, .ro), (16, 8, .ro)]⟩,
  ⟨0x10108, [(0x400, 32), (0x40, 4)], false, [(0, 10, .rw), (16, 10, .rw)]⟩,
  ⟨0x1010C, [(0x400, 32), (0x40, 4)], false, [(0, 10, .ro), (16, 10, .ro)]⟩,
  ⟨0x10110, [(0x400, 32), (0x40, 4)], false, [(0, 1, .ro), (1, 1, .ro), (2, 1, .ro), (3, 1, .ro), (4, 1, .ro), (5, 1, .ro), (8, 8, .ro)]⟩,
  ⟨0x10114, [(0x400, 32), (0x40, 4)], false, [(0, 1, .w1c), (1, 1, .w1c)]⟩,
  ⟨0x10118, [(0x400, 32), (0x40, 4)], false, [(0, 1, .w1c), (1, 1, .w1c), (2, 1, .w1c), (3, 1, .w1c)]⟩,
  ⟨0x1011C, [(0x400, 32), (0x40, 4)], false, [(0, 1, .rw), (1, 1, .rw), (2, 1, .rw), (3, 1, .rw)]⟩,
  ⟨0x10120, [(0x400, 32), (0x40, 4)], false, [(0, 16, .ro), (16, 16, .ro)]⟩,
  ⟨0x10124, [(0x400, 32), (0x40, 4)], false, [(0, 1, .wo)]⟩,
  ⟨0x9800, [], false, [(0, 12, .rw)]⟩,
  ⟨0x9804, [], false, [(0, 6, .ro), (8, 6, .ro)]⟩,
  ⟨0x9808, [], false, [(0, 6, .w1c)]⟩,
  ⟨0x980C, [], false, [(0, 6, .rw)]⟩,
  ⟨0x9810, [(0x4, 6)], false, [(0, 10, .rw), (10, 1, .rw), (11, 1, .rw), (12, 2, .rw), (14, 4, .rw), (18, 1, .rw), (19, 5, .rw)]⟩,
  ⟨0xA000, [], true, [(0, 1, .ro), (1, 1, .ro), (2, 1, .ro), (8, 4, .ro), (16, 12, .ro)]⟩,
  ⟨0xA004, [], true, [(0, 16, .ro)]⟩,
  ⟨0xA008, [], false, [(0, 1, .ro), (1, 1, .ro), (2, 1, .ro), (3, 1, .ro), (4, 1, .ro), (5, 1, .ro), (6, 2, .ro), (8, 3, .ro)]⟩,
  ⟨0xA00C, [], false, [(0, 1, .w1c), (1, 1, .w1c), (2, 1, .w1c), (3, 1, .w1c), (4, 1, .w1c), (5, 1, .w1c), (6, 1, .w1c), (7, 1, .w1c), (8, 1, .w1c)]⟩,
  ⟨0xA010, [], false, [(0, 1, .rw), (1, 1, .rw), (2, 1, .rw), (3, 1, .rw), (4, 1, .rw), (5, 1, .rw), (6, 1, .rw), (7, 1, .rw), (8, 1, .rw)]⟩,
  ⟨0xA014, [], false, [(0, 1, .wo), (1, 1, .wo), (2, 1, .wo)]⟩,
  ⟨0xA060, [], false, [(0, 32, .ro)]⟩,
  ⟨0xA064, [], false, [(0, 32, .ro)]⟩,
  ⟨0xA068, [], false, [(0, 16, .ro), (16, 16, .ro)]⟩,
  ⟨0xA06C, [], false, [(0, 8, .rw)]⟩,
  ⟨0xA070, [], false, [(0, 16, .ro), (16, 16, .ro)]⟩,
  ⟨0xA080, [(0x4, 32)], true, [(0, 3, .ro), (3, 3, .ro), (6, 2, .ro), (8, 1, .ro), (9, 1, .ro)]⟩,
  ⟨0xA100, [(0x4, 32)], true, [(0, 32, .ro)]⟩,
  ⟨0xA180, [(0x4, 32)], false, [(0, 32, .ro)]⟩,
  ⟨0xA200, [(0x4, 32)], true, [(0, 7, .ro), (7, 1, .ro)]⟩,
  ⟨0xA280, [(0x4, 32)], false, [(0, 32, .ro)]⟩,
  ⟨0xA300, [(0x4, 64)], true, [(0, 7, .ro)]⟩,
  ⟨0xA400, [(0x10, 64)], true, [(0, 1, .ro), (1, 3, .ro), (4, 1, .ro)]⟩,
  ⟨0xA404, [(0x10, 64)], true, [(0, 32, .ro)]⟩,
  ⟨0xA408, [(0x10, 64)], true, [(0, 32, .ro)]⟩,
  ⟨0xA40C, [(0x10, 64)], false, [(0, 32, .ro)]⟩]

/-- Rows 120.. of the register tables (R14, R64). -/
def regRows3 : List RegRow := [
  ⟨0xA800, [(0x8, 24)], true, [(0, 12, .ro), (12, 12, .ro), (24, 7, .ro), (31, 1, .ro)]⟩,
  ⟨0xA804, [(0x8, 24)], true, [(0, 32, .ro)]⟩,
  ⟨0xA8C0, [(0x10, 4)], true, [(0, 6, .ro), (6, 1, .ro), (8, 6, .ro), (14, 1, .ro), (15, 1, .ro)]⟩,
  ⟨0xA8C4, [(0x10, 4)], true, [(0, 32, .ro)]⟩,
  ⟨0xA8C8, [(0x10, 4)], true, [(0, 32, .ro)]⟩,
  ⟨0xA8CC, [(0x10, 4)], false, [(0, 32, .ro)]⟩,
  ⟨0xA900, [(0x8, 224)], false, [(0, 16, .rw)]⟩,
  ⟨0xA904, [(0x8, 224)], false, [(0, 32, .rw)]⟩,
  ⟨0xA018, [], true, [(0, 32, .ro)]⟩,
  ⟨0xA01C, [], true, [(0, 32, .ro)]⟩,
  ⟨0xA020, [], false, [(0, 32, .rw)]⟩,
  ⟨0xA024, [], false, [(0, 32, .ro)]⟩,
  ⟨0xA028, [], false, [(0, 32, .ro)]⟩,
  ⟨0xA02C, [], false, [(0, 32, .ro)]⟩,
  ⟨0xA030, [], false, [(0, 32, .ro)]⟩,
  ⟨0xA034, [], true, [(0, 32, .ro)]⟩,
  ⟨0xA038, [], true, [(0, 32, .ro)]⟩,
  ⟨0xA03C, [], true, [(0, 32, .ro)]⟩,
  ⟨0xA040, [], true, [(0, 32, .ro)]⟩,
  ⟨0xA044, [], true, [(0, 32, .ro)]⟩,
  ⟨0xA048, [], true, [(0, 32, .ro)]⟩,
  ⟨0xA04C, [], true, [(0, 32, .ro)]⟩,
  ⟨0xA050, [], true, [(0, 32, .ro)]⟩,
  ⟨0xA054, [], true, [(0, 32, .ro)]⟩,
  ⟨0xA058, [], true, [(0, 32, .ro)]⟩,
  ⟨0xA05C, [], true, [(0, 32, .ro)]⟩,
  ⟨0x7000, [], false, [(0, 8, .rw)]⟩,
  ⟨0x7004, [], false, [(0, 8, .ro), (8, 8, .ro), (16, 8, .ro)]⟩,
  ⟨0x7100, [(0x40, 8)], true, [(0, 1, .ro), (1, 1, .ro), (2, 1, .ro), (3, 1, .ro), (4, 1, .ro), (5, 1, .ro), (6, 3, .ro)]⟩,
  ⟨0x7104, [(0x40, 8)], true, [(0, 10, .ro), (16, 10, .ro), (26, 2, .ro)]⟩,
  ⟨0x7108, [(0x40, 8)], true, [(0, 10, .ro), (16, 5, .ro)]⟩,
  ⟨0x710C, [(0x40, 8)], true, [(0, 6, .ro), (8, 6, .ro), (16, 3, .ro), (24, 8, .ro)]⟩,
  ⟨0x7110, [(0x40, 8)], true, [(0, 6, .ro), (8, 12, .ro), (20, 8, .ro)]⟩,
  ⟨0x7114, [(0x40, 8)], true, [(0, 14, .ro), (16, 8, .ro)]⟩,
  ⟨0x7118, [(0x40, 8)], true, [(0, 3, .ro), (4, 8, .ro), (12, 8, .ro)]⟩,
  ⟨0x711C, [(0x40, 8)], true, [(0, 10, .ro), (16, 14, .ro)]⟩,
  ⟨0x7120, [(0x40, 8)], false, [(0, 4, .ro), (4, 1, .ro), (5, 1, .ro), (6, 1, .ro), (7, 1, .ro), (8, 1, .ro), (9, 1, .ro), (10, 1, .ro), (11, 1, .ro), (12, 3, .ro), (15, 1, .ro), (16, 1, .ro)]⟩,
  ⟨0x7124, [(0x40, 8)], false, [(0, 1, .w1c), (1, 1, .w1c), (2, 1, .w1c), (3, 1, .w1c), (4, 1, .w1c), (5, 1, .w1c), (6, 1, .w1c), (7, 1, .w1c)]⟩,
  ⟨0x7128, [(0x40, 8)], false, [(0, 1, .rw), (1, 1, .rw), (2, 1, .rw), (3, 1, .rw), (4, 1, .rw), (5, 1, .rw), (6, 1, .rw), (7, 1, .rw)]⟩,
  ⟨0x712C, [(0x40, 8)], false, [(0, 1, .wo)]⟩]

/-- Rows 160.. of the register tables (R14, R64). -/
def regRows4 : List RegRow := [
  ⟨0x7130, [(0x40, 8)], false, [(0, 10, .ro)]⟩,
  ⟨0x7134, [(0x40, 8)], false, [(0, 10, .ro)]⟩,
  ⟨0x7138, [(0x40, 8)], false, [(0, 10, .ro)]⟩,
  ⟨0x713C, [(0x40, 8)], false, [(0, 16, .ro), (16, 16, .ro)]⟩,
  ⟨0x6000, [], true, [(0, 1, .ro), (4, 12, .ro)]⟩,
  ⟨0x6004, [], false, [(0, 1, .wo), (1, 1, .wo)]⟩,
  ⟨0x6008, [], false, [(0, 3, .ro), (3, 1, .ro), (4, 1, .ro), (5, 1, .ro), (8, 5, .ro)]⟩,
  ⟨0x600C, [], false, [(0, 16, .ro), (16, 16, .ro)]⟩,
  ⟨0x6010, [], false, [(0, 16, .ro), (16, 16, .ro)]⟩,
  ⟨0x6014, [], false, [(0, 1, .w1c), (1, 1, .w1c), (2, 1, .w1c), (3, 1, .w1c), (4, 1, .w1c), (5, 1, .w1c), (6, 1, .w1c)]⟩,
  ⟨0x6018, [], false, [(0, 1, .rw), (1, 1, .rw), (2, 1, .rw), (3, 1, .rw), (4, 1, .rw), (5, 1, .rw), (6, 1, .rw)]⟩,
  ⟨0x601C, [], false, [(0, 16, .ro), (16, 16, .ro)]⟩,
  ⟨0x6020, [], false, [(0, 1, .wo)]⟩,
  ⟨0x6100, [(0x20, 16)], true, [(0, 1, .ro), (1, 1, .ro), (2, 1, .ro), (3, 1, .ro), (4, 2, .ro)]⟩,
  ⟨0x6104, [(0x20, 16)], true, [(0, 10, .ro), (16, 10, .ro)]⟩,
  ⟨0x6108, [(0x20, 16)], true, [(0, 10, .ro), (16, 8, .ro)]⟩,
  ⟨0x610C, [(0x20, 16)], true, [(0, 16, .ro), (16, 16, .ro)]⟩,
  ⟨0x6110, [(0x20, 16)], true, [(0, 12, .ro), (16, 12, .ro)]⟩,
  ⟨0x6114, [(0x20, 16)], false, [(0, 3, .ro), (3, 1, .ro), (4, 1, .ro), (5, 1, .ro), (6, 1, .ro)]⟩,
  ⟨0x8000, [(0x800, 2)], true, [(0, 1, .ro), (1, 1, .ro), (2, 1, .ro)]⟩,
  ⟨0x8004, [(0x800, 2)], true, [(0, 32, .ro)]⟩,
  ⟨0x8008, [(0x800, 2)], true, [(0, 16, .ro), (16, 8, .ro), (24, 8, .ro)]⟩,
  ⟨0x800C, [(0x800, 2)], true, [(0, 16, .ro)]⟩,
  ⟨0x8010, [(0x800, 2)], false, [(0, 2, .ro), (2, 1, .ro), (3, 1, .ro), (4, 1, .ro), (5, 1, .ro), (6, 1, .ro), (7, 1, .ro), (8, 1, .ro), (9, 4, .ro)]⟩,
  ⟨0x8014, [(0x800, 2)], false, [(0, 5, .ro), (8, 5, .ro)]⟩,
  ⟨0x8018, [(0x800, 2)], false, [(0, 5, .w1c), (8, 5, .w1c), (16, 1, .w1c), (17, 1, .w1c), (18, 1, .w1c), (19, 1, .w1c), (20, 1, .w1c), (21, 1, .w1c), (22, 1, .w1c), (23, 1, .w1c), (24, 1, .w1c)]⟩,
  ⟨0x801C, [(0x800, 2)], false, [(0, 5, .rw), (8, 5, .rw), (16, 1, .rw), (17, 1, .rw), (18, 1, .rw), (19, 1, .rw), (20, 1, .rw), (21, 1, .rw), (22, 1, .rw), (23, 1, .rw), (24, 1, .rw)]⟩,
  ⟨0x8020, [(0x800, 2)], false, [(0, 1, .wo), (1, 1, .wo)]⟩,
  ⟨0x8024, [(0x800, 2)], false, [(0, 32, .rw)]⟩,
  ⟨0x8028, [(0x800, 2)], false, [(0, 32, .rw)]⟩,
  ⟨0x802C, [(0x800, 2)], false, [(0, 32, .ro)]⟩,
  ⟨0x8030, [(0x800, 2)], false, [(0, 32, .ro)]⟩,
  ⟨0x8034, [(0x800, 2)], false, [(0, 8, .ro), (8, 1, .ro)]⟩,
  ⟨0x8100, [(0x800, 2), (0x4, 32)], false, [(0, 32, .ro)]⟩,
  ⟨0x8180, [(0x800, 2), (0x4, 32)], false, [(0, 32, .rw)]⟩,
  ⟨0x8200, [(0x800, 2), (0x4, 4)], true, [(0, 32, .ro)]⟩,
  ⟨0x8210, [(0x800, 2), (0x14, 4), (0x4, 5)], true, [(0, 32, .ro)]⟩,
  ⟨0x8280, [(0x800, 2), (0x8, 32)], true, [(0, 12, .ro), (31, 1, .ro)]⟩,
  ⟨0x8284, [(0x800, 2), (0x8, 32)], true, [(0, 32, .ro)]⟩,
  ⟨0x8400, [(0x800, 2), (0x84, 4), (0x4, 33)], true, [(0, 32, .ro)]⟩]

/-- Rows 200.. of the register tables (R14, R64). -/
def regRows5 : List RegRow := [
  ⟨0x8040, [(0x800, 2)], true, [(0, 32, .ro)]⟩,
  ⟨0x8044, [(0x800, 2)], true, [(0, 32, .ro)]⟩,
  ⟨0x8048, [(0x800, 2)], true, [(0, 32, .ro)]⟩,
  ⟨0x804C, [(0x800, 2)], true, [(0, 32, .ro)]⟩,
  ⟨0x8050, [(0x800, 2)], true, [(0, 32, .ro)]⟩,
  ⟨0x8054, [(0x800, 2)], true, [(0, 32, .ro)]⟩,
  ⟨0x8058, [(0x800, 2)], true, [(0, 32, .ro)]⟩,
  ⟨0x805C, [(0x800, 2)], true, [(0, 32, .ro)]⟩,
  ⟨0x8060, [(0x800, 2)], true, [(0, 32, .ro)]⟩,
  ⟨0x8064, [(0x800, 2)], true, [(0, 32, .ro)]⟩,
  ⟨0x8068, [(0x800, 2)], true, [(0, 32, .ro)]⟩,
  ⟨0x806C, [(0x800, 2)], true, [(0, 32, .ro)]⟩,
  ⟨0x8070, [(0x800, 2)], true, [(0, 32, .ro)]⟩,
  ⟨0x8074, [(0x800, 2)], true, [(0, 32, .ro)]⟩,
  ⟨0x8080, [(0x800, 2)], true, [(0, 32, .ro)]⟩,
  ⟨0x8084, [(0x800, 2)], true, [(0, 32, .ro)]⟩,
  ⟨0x8088, [(0x800, 2)], true, [(0, 32, .ro)]⟩,
  ⟨0x808C, [(0x800, 2)], true, [(0, 32, .ro)]⟩,
  ⟨0x8090, [(0x800, 2)], true, [(0, 32, .ro)]⟩,
  ⟨0x8094, [(0x800, 2)], true, [(0, 32, .ro)]⟩,
  ⟨0x8098, [(0x800, 2)], true, [(0, 32, .ro)]⟩,
  ⟨0x809C, [(0x800, 2)], true, [(0, 32, .ro)]⟩,
  ⟨0x80A0, [(0x800, 2)], true, [(0, 32, .ro)]⟩,
  ⟨0x80A4, [(0x800, 2)], true, [(0, 32, .ro)]⟩,
  ⟨0x80A8, [(0x800, 2)], true, [(0, 32, .ro)]⟩,
  ⟨0x80AC, [(0x800, 2)], true, [(0, 32, .ro)]⟩,
  ⟨0x80C0, [(0x800, 2)], false, [(0, 32, .ro)]⟩,
  ⟨0x80C4, [(0x800, 2)], false, [(0, 32, .ro)]⟩,
  ⟨0x80C8, [(0x800, 2)], false, [(0, 32, .ro)]⟩,
  ⟨0x80CC, [(0x800, 2)], false, [(0, 32, .ro)]⟩,
  ⟨0x80D0, [(0x800, 2)], false, [(0, 32, .ro)]⟩,
  ⟨0x80D4, [(0x800, 2)], false, [(0, 32, .ro)]⟩,
  ⟨0x80D8, [(0x800, 2)], false, [(0, 32, .ro)]⟩,
  ⟨0x80DC, [(0x800, 2)], false, [(0, 32, .ro)]⟩,
  ⟨0x80E0, [(0x800, 2)], false, [(0, 32, .ro)]⟩,
  ⟨0x80E4, [(0x800, 2)], false, [(0, 32, .ro)]⟩,
  ⟨0x80E8, [(0x800, 2)], false, [(0, 32, .ro)]⟩,
  ⟨0x80EC, [(0x800, 2)], false, [(0, 32, .ro)]⟩,
  ⟨0x80F0, [(0x800, 2)], false, [(0, 32, .ro)]⟩,
  ⟨0x80F4, [(0x800, 2)], false, [(0, 32, .ro)]⟩]

/-- Rows 240.. of the register tables (R14, R64). -/
def regRows6 : List RegRow := [
  ⟨0x9000, [], true, [(0, 7, .ro)]⟩,
  ⟨0x9004, [], false, [(0, 1, .ro), (1, 1, .ro), (2, 1, .ro), (3, 1, .ro), (4, 1, .ro)]⟩,
  ⟨0x9008, [], false, [(0, 1, .w1c), (1, 1, .w1c), (2, 1, .w1c), (3, 1, .w1c), (4, 1, .w1c), (5, 1, .w1c), (6, 1, .w1c)]⟩,
  ⟨0x900C, [], false, [(0, 1, .rw), (1, 1, .rw), (2, 1, .rw), (3, 1, .rw), (4, 1, .rw), (5, 1, .rw), (6, 1, .rw)]⟩,
  ⟨0x9010, [], false, [(0, 1, .wo)]⟩,
  ⟨0x9014, [], false, [(0, 32, .ro)]⟩,
  ⟨0x9018, [(0x4, 4)], false, [(0, 32, .ro)]⟩,
  ⟨0x9028, [], true, [(0, 32, .ro)]⟩,
  ⟨0x902C, [], false, [(0, 18, .ro)]⟩,
  ⟨0x9030, [], false, [(0, 16, .ro), (16, 16, .ro)]⟩,
  ⟨0x9034, [(0x4, 2)], true, [(0, 8, .ro), (8, 8, .ro), (16, 4, .ro)]⟩,
  ⟨0x903C, [(0x4, 2)], true, [(0, 32, .ro)]⟩,
  ⟨0x9100, [(0x4, 40)], false, [(0, 12, .ro)]⟩,
  ⟨0x9200, [(0x4, 18)], false, [(0, 16, .ro), (16, 1, .ro)]⟩,
  ⟨0x9300, [(0x4, 8)], true, [(0, 3, .ro), (3, 1, .ro)]⟩,
  ⟨0x9320, [(0x4, 10)], true, [(0, 3, .ro), (3, 1, .ro), (4, 12, .ro), (16, 13, .ro)]⟩,
  ⟨0x9400, [(0x10, 8)], true, [(0, 1, .ro), (1, 1, .ro), (2, 4, .ro), (6, 8, .ro)]⟩,
  ⟨0x9404, [(0x10, 8)], true, [(0, 8, .ro), (8, 8, .ro), (16, 5, .ro), (24, 4, .ro)]⟩,
  ⟨0x9408, [(0x10, 8)], true, [(0, 32, .ro)]⟩,
  ⟨0x940C, [(0x10, 8)], false, [(0, 16, .ro), (16, 4, .ro), (20, 1, .ro), (21, 1, .ro), (22, 1, .ro)]⟩,
  ⟨0x4000, [], true, [(0, 1, .ro), (1, 1, .ro), (2, 1, .ro), (3, 1, .ro), (4, 1, .ro), (5, 1, .ro), (8, 7, .ro), (16, 16, .ro)]⟩,
  ⟨0x4004, [], false, [(0, 16, .ro), (16, 16, .ro)]⟩,
  ⟨0x4008, [], false, [(0, 8, .ro), (16, 16, .ro)]⟩,
  ⟨0x400C, [], false, [(0, 1, .ro), (1, 1, .ro), (2, 1, .ro), (3, 2, .ro), (5, 1, .ro), (6, 1, .ro), (7, 1, .ro), (8, 1, .ro), (9, 1, .ro), (10, 1, .ro), (16, 16, .ro)]⟩,
  ⟨0x4010, [], false, [(0, 1, .w1c), (1, 1, .w1c), (2, 1, .w1c), (3, 1, .w1c), (4, 1, .w1c), (5, 1, .w1c), (6, 1, .w1c), (7, 1, .w1c), (8, 1, .w1c), (9, 1, .w1c), (10, 1, .w1c)]⟩,
  ⟨0x4014, [], false, [(0, 1, .rw), (1, 1, .rw), (2, 1, .rw), (3, 1, .rw), (4, 1, .rw), (5, 1, .rw), (6, 1, .rw), (7, 1, .rw), (8, 1, .rw), (9, 1, .rw), (10, 1, .rw)]⟩,
  ⟨0x4018, [], false, [(0, 1, .wo), (1, 1, .wo), (2, 1, .wo), (3, 1, .wo)]⟩,
  ⟨0x401C, [], false, [(0, 16, .ro), (16, 16, .ro)]⟩,
  ⟨0x4020, [], false, [(0, 16, .ro), (16, 16, .ro)]⟩,
  ⟨0x4024, [], false, [(0, 24, .ro)]⟩,
  ⟨0x4028, [], false, [(0, 32, .ro)]⟩,
  ⟨0x402C, [], false, [(0, 16, .ro)]⟩,
  ⟨0x4030, [(0x4, 3)], false, [(0, 16, .ro), (16, 16, .ro)]⟩,
  ⟨0x403C, [], false, [(0, 16, .ro), (16, 16, .ro)]⟩,
  ⟨0x4040, [], false, [(0, 1, .ro), (1, 1, .ro), (2, 1, .ro)]⟩,
  ⟨0x4044, [], false, [(0, 16, .rw)]⟩,
  ⟨0x4100, [(0x4, 258)], false, [(0, 32, .rw)]⟩,
  ⟨0x5000, [], false, [(0, 3, .ro), (3, 1, .ro), (4, 1, .ro), (5, 1, .ro), (6, 1, .ro), (7, 1, .ro), (8, 4, .ro)]⟩,
  ⟨0x5004, [], false, [(0, 1, .w1c), (1, 1, .w1c), (2, 1, .w1c), (3, 1, .w1c), (4, 1, .w1c), (5, 1, .w1c), (6, 1, .w1c), (7, 1, .w1c), (8, 1, .w1c), (9, 1, .w1c), (10, 1, .w1c), (11, 1, .w1c), (12, 1, .w1c)]⟩,
  ⟨0x5008, [], false, [(0, 1, .rw), (1, 1, .rw), (2, 1, .rw), (3, 1, .rw), (4, 1, .rw), (5, 1, .rw), (6, 1, .rw), (7, 1, .rw), (8, 1, .rw), (9, 1, .rw), (10, 1, .rw), (11, 1, .rw), (12, 1, .rw)]⟩,
  ⟨0x500C, [], false, [(0, 14, .ro), (14, 1, .ro), (15, 1, .ro)]⟩]

/-- Rows 280.. of the register tables (R14, R64). -/
def regRows7 : List RegRow := [
  ⟨0x5010, [], false, [(13, 19, .rw)]⟩,
  ⟨0x5014, [], false, [(0, 1, .rw), (8, 8, .rw)]⟩,
  ⟨0x5018, [], false, [(0, 32, .rw)]⟩,
  ⟨0x501C, [], false, [(0, 1, .ro), (1, 1, .ro), (2, 1, .ro), (3, 1, .ro), (4, 1, .ro), (5, 1, .ro), (6, 1, .ro), (8, 13, .ro)]⟩,
  ⟨0x5020, [], false, [(0, 1, .rw), (1, 1, .rw), (2, 6, .rw), (8, 8, .rw)]⟩,
  ⟨0x5024, [], false, [(0, 8, .rw), (8, 8, .rw)]⟩,
  ⟨0x5028, [], false, [(0, 7, .rw), (8, 6, .rw), (16, 6, .rw), (22, 1, .rw), (24, 3, .rw), (31, 1, .wo)]⟩,
  ⟨0x502C, [], false, [(0, 10, .rw), (16, 10, .rw)]⟩,
  ⟨0x5030, [], false, [(0, 1, .ro), (1, 1, .ro), (2, 1, .ro), (3, 1, .ro), (4, 1, .ro), (5, 1, .ro), (8, 3, .ro), (16, 6, .ro)]⟩,
  ⟨0x5034, [], false, [(0, 16, .ro), (16, 16, .ro)]⟩,
  ⟨0x5038, [], false, [(0, 1, .wo), (1, 1, .wo)]⟩,
  ⟨0x503C, [], false, [(0, 4, .rw)]⟩,
  ⟨0x5040, [], false, [(0, 32, .w1c)]⟩,
  ⟨0x5044, [], false, [(0, 32, .w1c)]⟩,
  ⟨0x5048, [], false, [(0, 32, .rw)]⟩,
  ⟨0x504C, [], false, [(0, 32, .rw)]⟩,
  ⟨0x5080, [(0x4, 8)], false, [(0, 32, .rw)]⟩,
  ⟨0x5800, [(0x20, 64)], true, [(0, 13, .ro), (16, 8, .ro), (24, 2, .ro), (26, 1, .ro)]⟩,
  ⟨0x5804, [(0x20, 64)], false, [(0, 13, .rw), (16, 13, .rw), (29, 1, .rw), (30, 2, .rw)]⟩,
  ⟨0x5808, [(0x20, 64)], false, [(0, 13, .ro), (16, 13, .ro), (29, 1, .ro), (30, 1, .ro), (31, 1, .ro)]⟩,
  ⟨0x580C, [(0x20, 64)], false, [(0, 32, .ro)]⟩,
  ⟨0x5810, [(0x20, 64)], false, [(0, 1, .wo), (1, 1, .wo)]⟩,
  ⟨0x3000, [], false, [(0, 1, .ro), (1, 1, .ro), (2, 1, .ro), (8, 7, .ro), (16, 7, .ro)]⟩,
  ⟨0x3004, [], false, [(0, 1, .w1c), (1, 1, .w1c), (2, 1, .w1c), (3, 1, .w1c), (4, 1, .w1c), (5, 1, .w1c), (6, 1, .w1c), (7, 1, .w1c), (8, 1, .w1c)]⟩,
  ⟨0x3008, [], false, [(0, 1, .rw), (1, 1, .rw), (2, 1, .rw), (3, 1, .rw), (4, 1, .rw), (5, 1, .rw), (6, 1, .rw), (7, 1, .rw), (8, 1, .rw)]⟩,
  ⟨0x300C, [], false, [(0, 6, .wo), (8, 1, .wo)]⟩,
  ⟨0x3010, [], false, [(0, 16, .ro), (16, 2, .ro), (18, 3, .ro), (21, 5, .ro)]⟩,
  ⟨0x3014, [], false, [(0, 32, .ro)]⟩,
  ⟨0x3018, [], false, [(0, 32, .ro)]⟩,
  ⟨0x301C, [], false, [(1, 13, .w1c)]⟩,
  ⟨0x3020, [], true, [(0, 10, .ro), (16, 8, .ro)]⟩,
  ⟨0x3024, [], false, [(0, 1, .wo)]⟩,
  ⟨0x3040, [], false, [(0, 1, .rw), (1, 1, .rw)]⟩,
  ⟨0x3044, [], false, [(0, 8, .rwl), (8, 3, .rwl), (16, 8, .rwl)]⟩,
  ⟨0x3048, [], false, [(0, 24, .rwl)]⟩,
  ⟨0x304C, [], false, [(0, 24, .rwl)]⟩,
  ⟨0x3050, [], false, [(0, 16, .wo)]⟩,
  ⟨0x3054, [], false, [(0, 16, .wo)]⟩,
  ⟨0x3058, [], false, [(0, 8, .ro), (8, 2, .ro)]⟩,
  ⟨0x305C, [], false, [(0, 8, .wo), (8, 2, .wo)]⟩]

/-- Rows 320.. of the register tables (R14, R64). -/
def regRows8 : List RegRow := [
  ⟨0x3060, [], false, [(0, 3, .wo)]⟩,
  ⟨0x3064, [], false, [(0, 32, .rwl)]⟩,
  ⟨0x3068, [], false, [(0, 3, .ro), (4, 4, .ro), (8, 8, .ro)]⟩,
  ⟨0x306C, [], false, [(0, 24, .ro)]⟩,
  ⟨0x3070, [], false, [(0, 32, .ro)]⟩,
  ⟨0x3080, [], false, [(0, 1, .ro), (1, 1, .ro)]⟩,
  ⟨0x3084, [], false, [(0, 32, .ro)]⟩,
  ⟨0x3088, [], false, [(0, 32, .ro)]⟩,
  ⟨0x308C, [], false, [(0, 32, .ro)]⟩,
  ⟨0x3104, [(0x4, 13)], false, [(0, 32, .ro)]⟩,
  ⟨0x3200, [(0x10, 64)], false, [(0, 16, .ro), (16, 2, .ro), (18, 3, .ro), (21, 5, .ro), (26, 1, .ro), (31, 1, .ro)]⟩,
  ⟨0x3204, [(0x10, 64)], false, [(0, 16, .ro)]⟩,
  ⟨0x3208, [(0x10, 64)], false, [(0, 32, .ro)]⟩,
  ⟨0x320C, [(0x10, 64)], false, [(0, 32, .ro)]⟩,
  ⟨0xB000, [], true, [(0, 1, .ro), (1, 1, .ro), (8, 6, .ro)]⟩,
  ⟨0xB004, [], false, [(0, 1, .ro), (1, 1, .ro), (2, 1, .ro), (3, 1, .ro), (4, 1, .ro), (5, 1, .ro), (6, 1, .ro), (7, 1, .ro), (8, 8, .ro), (16, 4, .ro)]⟩,
  ⟨0xB008, [], false, [(0, 1, .w1c), (1, 1, .w1c), (2, 1, .w1c), (3, 1, .w1c), (4, 1, .w1c), (5, 1, .w1c), (6, 1, .w1c), (7, 1, .w1c)]⟩,
  ⟨0xB00C, [], false, [(0, 1, .rw), (1, 1, .rw), (2, 1, .rw), (3, 1, .rw), (4, 1, .rw), (5, 1, .rw), (6, 1, .rw), (7, 1, .rw)]⟩,
  ⟨0xB010, [], false, [(0, 1, .wo), (1, 1, .wo), (2, 1, .wo), (3, 1, .wo), (4, 1, .wo), (5, 1, .wo)]⟩,
  ⟨0xB014, [], false, [(0, 32, .ro)]⟩,
  ⟨0xB018, [], false, [(0, 32, .ro)]⟩,
  ⟨0xB01C, [], false, [(0, 16, .ro), (16, 16, .ro)]⟩,
  ⟨0xB020, [], false, [(0, 32, .rw)]⟩,
  ⟨0xB024, [], false, [(0, 32, .ro)]⟩,
  ⟨0xB028, [], false, [(0, 32, .ro)]⟩,
  ⟨0xB02C, [], false, [(0, 1, .wo), (1, 1, .wo), (16, 16, .wo)]⟩,
  ⟨0xB040, [(0x4, 4)], false, [(0, 32, .ro)]⟩,
  ⟨0xB060, [(0x4, 8)], false, [(0, 32, .wo)]⟩,
  ⟨0xB080, [(0x4, 9)], false, [(0, 32, .rw)]⟩,
  ⟨0xC000, [], false, [(0, 2, .ro), (2, 1, .ro), (3, 1, .ro), (4, 1, .ro), (5, 3, .ro), (8, 3, .ro), (11, 1, .ro), (12, 1, .ro), (13, 1, .ro)]⟩,
  ⟨0xC004, [], false, [(0, 1, .w1c), (1, 1, .w1c), (2, 1, .w1c), (3, 1, .w1c), (4, 1, .w1c), (5, 1, .w1c), (6, 1, .w1c)]⟩,
  ⟨0xC008, [], false, [(0, 1, .rw), (1, 1, .rw), (2, 1, .rw), (3, 1, .rw), (4, 1, .rw), (5, 1, .rw), (6, 1, .rw)]⟩,
  ⟨0xC00C, [], false, [(0, 1, .wo), (1, 1, .wo), (2, 1, .wo), (3, 1, .wo), (4, 1, .wo)]⟩,
  ⟨0xC010, [], false, [(0, 2, .rw), (8, 8, .rw)]⟩,
  ⟨0xC014, [], false, [(0, 32, .rw)]⟩,
  ⟨0xC018, [], false, [(0, 32, .rw)]⟩,
  ⟨0xC01C, [], false, [(0, 32, .rw)]⟩,
  ⟨0xC020, [], false, [(0, 2, .ro), (8, 8, .ro)]⟩,
  ⟨0xC024, [], false, [(0, 32, .ro)]⟩,
  ⟨0xC028, [], false, [(0, 32, .ro)]⟩]

/-- Rows 360.. of the register tables (R14, R64). -/
def regRows9 : List RegRow := [
  ⟨0xC02C, [], false, [(0, 32, .ro)]⟩,
  ⟨0xC030, [], false, [(0, 32, .ro)]⟩,
  ⟨0xC034, [], false, [(0, 32, .ro)]⟩,
  ⟨0xC038, [], false, [(0, 20, .rw)]⟩,
  ⟨0xC03C, [], false, [(0, 20, .rw)]⟩,
  ⟨0xC040, [], false, [(0, 8, .wo), (31, 1, .wo)]⟩,
  ⟨0xC044, [], false, [(0, 8, .ro)]⟩,
  ⟨0xC048, [], false, [(0, 20, .ro)]⟩,
  ⟨0xC04C, [], false, [(0, 4, .wo), (4, 4, .wo), (16, 16, .wo)]⟩,
  ⟨0xC050, [], false, [(0, 4, .ro), (4, 4, .ro), (8, 1, .ro)]⟩,
  ⟨0xC060, [(0x4, 8)], false, [(0, 32, .rw)]⟩,
  ⟨0xC080, [(0x4, 8)], false, [(0, 32, .wo)]⟩,
  ⟨0xC0A0, [(0x4, 4)], false, [(0, 32, .ro)]⟩,
  ⟨0xC100, [(0x4, 88)], false, [(0, 32, .ro)]⟩,
  ⟨0xC300, [(0x30, 4), (0x4, 12)], false, [(0, 32, .ro)]⟩,
  ⟨0xC400, [(0x4, 24)], false, [(0, 32, .wo)]⟩,
  ⟨0xC800, [(0x4, 253)], false, [(0, 32, .rw)]⟩,
  ⟨0x0, [], false, [(0, 16, .ro), (16, 8, .ro), (24, 8, .ro)]⟩,
  ⟨0x4, [], false, [(0, 3, .ro), (3, 3, .ro), (6, 1, .ro), (7, 1, .ro)]⟩,
  ⟨0x8, [], false, [(0, 1, .w1c), (1, 1, .w1c), (2, 1, .w1c), (3, 1, .w1c)]⟩,
  ⟨0xC, [], false, [(0, 1, .rw), (1, 1, .rw), (2, 1, .rw), (3, 1, .rw)]⟩,
  ⟨0x10, [], false, [(0, 16, .wo)]⟩,
  ⟨0x14, [], false, [(0, 8, .ro), (16, 16, .ro)]⟩,
  ⟨0x18, [], false, [(0, 4, .wo), (16, 16, .wo)]⟩,
  ⟨0x1C, [], false, [(0, 1, .ro), (1, 1, .ro), (2, 1, .ro), (3, 1, .ro), (4, 1, .ro), (5, 1, .ro)]⟩,
  ⟨0x20, [], false, [(0, 1, .rwi), (1, 1, .rwi), (2, 1, .rwi), (3, 1, .rwi)]⟩,
  ⟨0x24, [], false, [(0, 1, .ro), (1, 1, .ro), (2, 1, .ro), (3, 1, .ro), (4, 1, .ro), (5, 1, .ro)]⟩,
  ⟨0x28, [], false, [(0, 32, .rw)]⟩,
  ⟨0x2C, [], true, [(0, 2, .ro)]⟩,
  ⟨0x30, [], false, [(0, 1, .ro)]⟩,
  ⟨0x34, [], false, [(0, 16, .ro)]⟩,
  ⟨0x38, [], false, [(0, 32, .ro)]⟩,
  ⟨0xD000, [], false, [(0, 1, .ro), (1, 1, .ro), (2, 1, .ro)]⟩,
  ⟨0xD004, [], false, [(0, 1, .w1c), (1, 1, .w1c), (2, 1, .w1c), (3, 1, .w1c)]⟩,
  ⟨0xD008, [], false, [(0, 1, .rw), (1, 1, .rw), (2, 1, .rw), (3, 1, .rw)]⟩,
  ⟨0xD00C, [], false, [(0, 32, .rw)]⟩,
  ⟨0xD010, [], false, [(0, 32, .ro)]⟩,
  ⟨0xD014, [], false, [(0, 8, .rw), (8, 8, .rw), (16, 4, .rw), (20, 4, .rw), (24, 8, .rw)]⟩,
  ⟨0xD018, [], false, [(0, 32, .rw)]⟩,
  ⟨0xD01C, [], false, [(0, 32, .ro)]⟩]

/-- Rows 400.. of the register tables (R14, R64). -/
def regRows10 : List RegRow := [
  ⟨0xD020, [], false, [(0, 32, .ro)]⟩,
  ⟨0xD024, [], false, [(0, 10, .ro)]⟩,
  ⟨0xD028, [], false, [(0, 5, .rw), (16, 10, .rw), (31, 1, .wo)]⟩,
  ⟨0xD02C, [], false, [(0, 1, .ro), (1, 1, .ro), (2, 1, .ro)]⟩,
  ⟨0xD030, [(0x4, 4)], false, [(0, 10, .ro), (16, 10, .ro), (30, 1, .ro), (31, 1, .ro)]⟩,
  ⟨0xD040, [], false, [(0, 5, .rw), (31, 1, .wo)]⟩,
  ⟨0xD044, [], false, [(0, 1, .ro), (1, 1, .ro), (2, 1, .ro), (3, 1, .ro), (4, 5, .ro)]⟩,
  ⟨0xD048, [], false, [(0, 1, .rw), (1, 1, .rw), (2, 1, .rw), (8, 8, .rw)]⟩,
  ⟨0xD04C, [], false, [(0, 16, .ro), (16, 16, .ro)]⟩,
  ⟨0xD050, [], false, [(0, 3, .rw)]⟩,
  ⟨0xD054, [], false, [(0, 1, .rw)]⟩,
  ⟨0xD058, [], false, [(0, 1, .ro), (1, 11, .ro), (12, 16, .ro), (28, 4, .ro)]⟩,
  ⟨0xD05C, [], false, [(0, 1, .wo), (1, 1, .wo), (16, 16, .wo)]⟩,
  ⟨0xD060, [(0x4, 4)], false, [(0, 32, .ro)]⟩,
  ⟨0xD070, [(0x4, 8)], false, [(0, 32, .wo)]⟩,
  ⟨0xD100, [(0x4, 16)], false, [(0, 24, .ro), (24, 2, .ro), (26, 1, .ro), (31, 1, .ro)]⟩]

/-- Every register of the register tables. -/
def regRows : List RegRow :=
  regRows0 ++ regRows1 ++ regRows2 ++ regRows3 ++ regRows4 ++ regRows5 ++ regRows6 ++ regRows7 ++ regRows8 ++ regRows9 ++ regRows10

/-- Registers whose reset value is not 0: base, (stride, count) of each index, value. -/
def resetRows : List (Nat × List (Nat × Nat) × Nat) := [
  (0x1000, [], 0x8011001) /- TIME_CTRL -/,
  (0x1004, [], 0xAFC8) /- TIME_FLO -/,
  (0x1008, [], 0xD6D8) /- TIME_FHI -/,
  (0x100C, [], 0xC350) /- TIME_VFREQ -/,
  (0x1010, [], 0x9C40) /- TIME_RPC -/,
  (0x1014, [], 0x7D) /- TIME_RLEN -/,
  (0x1018, [], 0x4C4B40) /- TIME_N -/,
  (0x101C, [], 0x10) /- TIME_STATUS -/,
  (0x1028, [], 0x3200000) /- TIME_FREQ -/,
  (0x2004, [], 0x1F0000) /- SCHED_LOAD -/,
  (0x10044, [(0x400, 32)], 0x4000) /- PORT_SAMP_I -/,
  (0x10048, [(0x400, 32)], 0x4000) /- PORT_SAMP_VO -/,
  (0x1004C, [(0x400, 32)], 0x4000) /- PORT_SAMP_VI -/,
  (0x18000, [(0x200, 64)], 0x7C07FF00) /- LOOP_CFG -/,
  (0x10108, [(0x400, 32), (0x40, 4)], 0x3FF0000) /- CMP_THR -/,
  (0x1010C, [(0x400, 32), (0x40, 4)], 0x3FF0000) /- CMP_THR_ACT -/,
  (0x9810, [(0x4, 6)], 0x4000) /- KA_CFG -/,
  (0xA000, [], 0x100) /- CAPO_CFG -/,
  (0xA004, [], 0x1) /- CAPO_HCFG -/,
  (0xA200, [(0x4, 32)], 0x7F) /- CAPO_PORT -/,
  (0xA300, [(0x4, 64)], 0x7F) /- CAPO_LOOP -/,
  (0xA40C, [(0x10, 64)], 0x50000) /- CAPO_LIM_LAMBDA -/,
  (0xA800, [(0x8, 24)], 0x7F000000) /- CAPO_TERM_SIG -/,
  (0xA018, [], 0x7DFFFF) /- CAPO_LCAP -/,
  (0xA020, [], 0x7DFFFF) /- CAPO_HOSTCAP -/,
  (0xA034, [], 0x50000) /- CAPO_GAMMA -/,
  (0x7104, [(0x40, 8)], 0x3FF0000) /- FEED_VSWIN -/,
  (0x7108, [(0x40, 8)], 0x3FF) /- FEED_ITHR -/,
  (0x7110, [(0x40, 8)], 0x120) /- FEED_PCFG -/,
  (0x7114, [(0x40, 8)], 0x1) /- FEED_TIME -/,
  (0x7118, [(0x40, 8)], 0x1010) /- FEED_RETRY -/,
  (0x711C, [(0x40, 8)], 0x103FF) /- FEED_SHORT -/,
  (0x6008, [], 0x1F00) /- SEQ_STATUS -/,
  (0x6104, [(0x20, 16)], 0x3FF0000) /- SEQ_RTHR -/,
  (0x6110, [(0x20, 16)], 0x10001) /- SEQ_RTO -/,
  (0x8008, [(0x800, 2)], 0x48012C) /- BATT_TIMING -/,
  (0x800C, [(0x800, 2)], 0x3C) /- BATT_DTIME -/,
  (0x8050, [(0x800, 2)], 0xF93333) /- BATT_DTHR -/,
  (0x80EC, [(0x800, 2)], 0x50000) /- BATT_R0F -/,
  (0x9000, [], 0xA) /- HK_CFG -/,
  (0x9004, [], 0x1) /- HK_STATUS -/,
  (0x9030, [], 0x7FFF7FFF) /- HK_TJ -/,
  (0x9034, [(0x4, 2)], 0x42D00) /- HK_BCHG -/,
  (0x9320, [(0x4, 10)], 0xD6B0640) /- HK_SCFG 8 to 17; R25 and BETA of 0 to 7 are reserved -/,
  (0x9400, [(0x10, 8)], 0x3FC0) /- HK_G_CFG -/,
  (0x9404, [(0x10, 8)], 0x1FFFF) /- HK_G_LIM -/,
  (0x4000, [], 0x17F00) /- HARNESS_CFG -/,
  (0x4008, [], 0x1) /- HARNESS_ROLE -/,
  (0x401C, [], 0xFFFF) /- HARNESS_RANGE_DN -/,
  (0x4020, [], 0xFFFF) /- HARNESS_RANGE_BR -/,
  (0x5014, [], 0x6400) /- HOSTIF_BULK_CFG -/,
  (0x5018, [], 0xFFFFFFFF) /- HOSTIF_FILL -/,
  (0x5020, [], 0x1900) /- HOSTIF_TW_CFG -/,
  (0x5024, [], 0x323C) /- HOSTIF_TW_TIMING -/,
  (0x502C, [], 0x32003AC) /- HOSTIF_TWC_SCL -/,
  (0x5808, [(0x20, 64)], 0x20000000) /- HOSTIF_Q_STAT -/,
  (0x3020, [], 0x64000A) /- FAULT_CFG -/,
  (0x3044, [], 0x101) /- FAULT_HWD_CFG -/,
  (0xB000, [], 0xA00) /- REC_CFG -/,
  (0xC000, [], 0x1) /- TRUST_STATUS -/,
  (0x0, [], 0x1B03232) /- GLOBAL_ID -/,
  (0x4, [], 0x2) /- GLOBAL_STATE -/,
  (0xD014, [], 0x10232910) /- TEST_CHK_CFG -/,
  (0xD028, [], 0x2000000) /- TEST_CMP_CTRL -/,
  (0xD048, [], 0xA07) /- TEST_SCRUB_CFG -/,
  (0xD058, [], 0x13232001) /- TEST_IDCODE -/]

/-- Offset `o` from a base lies on an index of the dimensions (outer stride first). -/
def onIndex : List (Nat × Nat) → Nat → Bool
  | [], o => o == 0
  | (s, c) :: ds, o => decide (o / s < c) && onIndex ds (o % s)

/-- The table row that assigns map address `a` (a multiple of 4), if any. -/
def regRow? (a : Nat) : Option RegRow :=
  regRows.find? fun r => decide (r.base ≤ a) && onIndex r.dims (a - r.base)

/-- The value register `a` holds after reset (R26 and the Reset columns). -/
def regReset (a : Nat) : Word :=
  match resetRows.find? fun r => decide (r.1 ≤ a) && onIndex r.2.1 (a - r.1) with
  | some r => BitVec.ofNat 32 r.2.2
  | none => 0

end Sys2Proof.Machine
end

