-- ==== Sys2Proof/Machine/State.lean ====
section
/-! DEFINITION. Sys2Proof/Machine/State.lean: everything the spec gives the block, as plain data, and the state after reset.
Registers are held in one sparse store (`live`: an address is listed when its value is not its reset value); what no
register holds is in one structure per block. -/

namespace Sys2Proof.Machine


/-! ### Device states and outcomes -/

/-- The device states (R457). -/
inductive DevState where
  | off | hibernate | boot | idle | armed | safe | test
  deriving DecidableEq, Repr

/-- The code of a device state (R457). -/
def DevState.code : DevState → Nat
  | .off => 0 | .hibernate => 1 | .boot => 2 | .idle => 3 | .armed => 4 | .safe => 5 | .test => 6

/-- The device state of a code (R457); the reserved code stands for no state the device takes. -/
def DevState.ofCode : Nat → DevState
  | 1 => .hibernate | 2 => .boot | 3 => .idle | 4 => .armed | 5 => .safe | 6 => .test | _ => .off

/-- A block that takes commands has no fault of its own: every rule of the spec answers a command with a next state
(a fault the hardware reports is state: its entry, its counts, its record). -/
inductive Fault where
  deriving DecidableEq, Repr

/-- Refusals of the model. -/
inductive Refusal where
  /-- Raised by an arm of `exec` whose command has no meaning yet (safe: the machine stops where the hardware goes on). -/
  | notModelled (mnemonic : String)
  deriving DecidableEq, Repr

/-- Results in the engine pipeline: a lane word receives the newest one that is usable at its issue (R80). -/
structure Piped (α : Type) where
  /-- the value that words issued before every `ready` receive -/
  old : α
  /-- the newest result -/
  cur : α
  /-- the first absolute fret at which a word receives `cur` -/
  ready : Nat
  /-- the results before `cur` that were not yet usable when the one after them was written, newest first, each with its first fret -/
  due : List (Nat × α)
  deriving DecidableEq, Repr

/-- A conversion of the mains inputs (R35). -/
structure MainsConv where
  /-- MSA, MSB, MSC and MSN, codes of 14 bits (R511) -/
  volts : BitVec 14 × BitVec 14 × BitVec 14 × BitVec 14
  /-- θg in turns at the sampling fret (R216) -/
  theta : Rat
  /-- the absolute fret of the sampling -/
  fret : Nat
  deriving DecidableEq, Repr

/-- A Saddlebag record waiting to be written (R410, R413, R414); SEQ, CRC and MARK come with the write. -/
structure Record where
  /-- record type (R414) -/
  typ : Nat
  /-- severity (R410) -/
  sev : Nat
  /-- fault code or note, as the type says (R414) -/
  code : Nat
  /-- timestamp (R21) -/
  stamp : Nat
  /-- wall time (R410) -/
  wall : Nat
  /-- payload bytes (R410, R414) -/
  payload : List Byte
  deriving DecidableEq, Repr

/-! ### Angle timebase (01) -/

/-- The configuration of the timebase that is in force (R31, R33, R56). -/
structure TimeCfg where
  /-- SRC, the configured source -/
  src : Nat
  /-- FB: a follower falls back to its mains (R48) -/
  fb : Bool
  /-- THREE_PH (R35) -/
  threePh : Bool
  /-- HOLD, cycle boundaries (R34) -/
  hold : Nat
  /-- PULL code (R41) -/
  pull : Nat
  /-- SLEW code (R34) -/
  slew : Nat
  /-- RET, cycles (R37) -/
  ret : Nat
  /-- lower window edge, mHz (R37) -/
  flo : Nat
  /-- upper window edge, mHz (R37) -/
  fhi : Nat
  /-- virtual frequency, mHz (R34) -/
  vfreq : Nat
  /-- rounds per cycle (R31) -/
  rpc : Nat
  /-- frets per round (R31) -/
  rlen : Nat
  /-- frets per cycle (R31) -/
  n : Nat
  /-- clock profile code -/
  profile : Nat
  deriving DecidableEq, Repr

/-- The PROVISIONAL timebase (R32, R56). -/
def TimeCfg.provisional : TimeCfg := ⟨1, false, false, 16, 1, 0, 8, 45000, 55000, 50000, 40000, 125, 5000000, 0⟩

/-- Where the timebase stands (R27 to R54, R525, R526). Angles are 32-bit counts, frequencies exact numbers of Hz. -/
structure TimeSt where
  /-- the configuration in force -/
  cfg : TimeCfg
  /-- the image configuration waits for the next cycle boundary (R33, R75) -/
  take : Bool
  /-- round r of the local cycle (R28) -/
  round : Nat
  /-- frets elapsed up to the start of the round in progress -/
  base : Nat
  /-- local cycles begun -/
  cycles : Nat
  /-- the 40-bit cycle count (R29) -/
  cycleCount : Nat
  /-- engine frequency of the cycle in progress, Hz (R30) -/
  freq : Rat
  /-- tick of the last frequency change that R40 exempts (R43) -/
  exemptAt : Option Nat
  /-- cycle boundaries since the loss (R34) -/
  holdCount : Nat
  /-- complete cycles in which the mains conditions held (R37) -/
  retCount : Nat
  /-- the mains conditions held so far since the cycle began (R37) -/
  condCycle : Bool
  /-- the mains conditions at the last PLL evaluation (R37) -/
  condNow : Bool
  /-- a follower steers by its own mains under FB = 1 (R48) -/
  fallback : Bool
  /-- the last mains conversion sampled (R35) -/
  conv : MainsConv
  /-- the conversion usable by the engine, from its fixed delay on (R35) -/
  usable : Piped MainsConv
  /-- the conversion that the last evaluation has read (R35) -/
  used : MainsConv
  /-- a mains conversion has not yet become usable (R35) -/
  convDue : Bool
  /-- grid angle θg in turns, [0, 1), and the absolute fret it holds for (R35, R39, R526) -/
  thetaG : Rat
  thetaAt : Nat
  /-- the absolute fret at which the cycle in progress began, and the engine clock of the cycle before it, frets per second (R30) -/
  cycleAt : Nat
  clockBefore : Rat
  /-- grid frequency estimate, Hz (R35, R526) -/
  gfreq : Rat
  /-- sum of v_q / v_d (R35) -/
  pllSum : Rat
  /-- v_d of the last evaluation (R35) -/
  vd : Rat
  /-- phase error of the last evaluation, turns (R37, R44) -/
  perr : Rat
  /-- every evaluation of the grid cycle in progress lay inside 1/256 turn (R37) -/
  lockSoFar : Bool
  /-- consecutive complete grid cycles inside 1/256 turn (R37) -/
  lockCycles : Nat
  /-- grid cycles left of the grace of a phase jump (R44) -/
  grace : Option Rat
  /-- v_alpha and v_beta of the evaluation before, without the extraction: they show the phase sequence (R37, R526) -/
  abPrev : Rat × Rat
  /-- sum and number of the frequency estimates of the grid cycle in progress (R45) -/
  meanSum : Rat
  meanCnt : Nat
  /-- mean grid frequency of the last complete grid cycle that ended qualified (R45) -/
  lastMean : Option Rat
  /-- the held frequency of the last HOLDOVER, Hz (R45) -/
  held : Rat
  /-- consecutive complete engine cycles with a valid TUNING frame (R47) -/
  tunCycles : Nat
  /-- a valid TUNING frame has arrived in the cycle in progress (R47) -/
  tunSeen : Bool
  /-- consecutive complete engine cycles without one (R48) -/
  tunMissed : Nat
  /-- the Harness source has been lost and no valid TUNING frame has come since (R48) -/
  tunLost : Bool
  /-- source angle of the last TUNING frame in turns since its count, its frequency in Hz, and the absolute fret, with the part of a
  fret, it holds for (R47, R338) -/
  harTheta : Rat
  harFreq : Rat
  harAt : Rat
  /-- cycle count of the root, from the last TUNING frame (R54) -/
  rootCount : Nat
  /-- the first LOCKED on the Harness has been judged under R54 -/
  ccJudged : Bool
  /-- a follower has reached LOCKED on the Harness; the next boundary judges the count (R54) -/
  ccDue : Bool
  /-- a new fleet angle target waits for the next round boundary (R50) -/
  fleetPend : Bool
  /-- the fleet angle target in force (R50) -/
  fleetTarget : Nat
  /-- the effective fleet angle at the start of the cycle, and its change over the cycle in progress, counts (R50) -/
  fleetBase : Nat
  fleetStep : Int
  /-- the PLL evaluation of the round in progress has been made (R35) -/
  pllDone : Bool
  /-- the clock monitor found the clock outside its range, or the analogue PLL unlocked (R43, R391) -/
  clkBad : Bool
  pllBad : Bool
  /-- keep-alive record: cycle count, VFREQ in mHz, and tick of the last cycle boundary (R53, R461) -/
  savedCount : Nat
  savedVfreq : Nat
  savedAt : Nat
  deriving DecidableEq, Repr

/-- The timebase after reset: PROVISIONAL (R33, R56). -/
def TimeSt.reset : TimeSt where
  cfg := TimeCfg.provisional
  take := false
  round := 0
  base := 0
  cycles := 0
  cycleCount := 0
  freq := 50
  exemptAt := none
  holdCount := 0
  retCount := 0
  condCycle := false
  condNow := false
  fallback := false
  conv := ⟨(0, 0, 0, 0), 0, 0⟩
  usable := ⟨⟨(0, 0, 0, 0), 0, 0⟩, ⟨(0, 0, 0, 0), 0, 0⟩, 0, []⟩
  used := ⟨(0, 0, 0, 0), 0, 0⟩
  convDue := false
  thetaG := 0
  thetaAt := 0
  cycleAt := 0
  clockBefore := 250000000
  gfreq := 0
  pllSum := 0
  vd := 0
  perr := 0
  lockSoFar := false
  lockCycles := 0
  grace := none
  abPrev := (0, 0)
  meanSum := 0
  meanCnt := 0
  lastMean := none
  held := 0
  tunCycles := 0
  tunSeen := false
  tunMissed := 0
  tunLost := false
  harTheta := 0
  harFreq := 0
  harAt := 0
  rootCount := 0
  ccJudged := false
  ccDue := false
  fleetPend := false
  fleetTarget := 0
  fleetBase := 0
  fleetStep := 0
  pllDone := false
  clkBad := false
  pllBad := false
  savedCount := 0
  savedVfreq := 50000
  savedAt := 0

/-! ### Schedule (02) -/

/-- One latency declaration (R81). -/
structure LatEntry where
  /-- context -/
  ctx : Nat
  /-- period of the rotation -/
  d : Nat
  /-- sampling fret -/
  sfret : Nat
  /-- commit fret -/
  cfret : Nat
  deriving DecidableEq, Repr

/-- A COMMIT word of a resident variant: loop context code, port and target (R78, R111). -/
structure CommitRef where
  /-- resident variant -/
  variant : Nat
  /-- loop that commits -/
  ctx : Nat
  /-- port it writes -/
  port : Nat
  /-- target code of R158 -/
  target : Nat
  deriving DecidableEq, Repr

/-- A telemetry record that has not reached its declared length (R87, R527). -/
structure OpenRec where
  /-- queue -/
  queue : Nat
  /-- words still to come -/
  left : Nat
  /-- the record did not fit: its words are not written -/
  dropped : Bool
  /-- the upper timestamp word, right after the lower one (R161) -/
  high : Option Word
  deriving DecidableEq, Repr

/-- What the schedule holds beside its registers (R75 to R94). -/
structure SchedSt where
  /-- an applied image waits for its engine start (R75) -/
  startDue : Bool
  /-- absolute fret at which the engine last started a program (R75, R115) -/
  startAt : Nat
  /-- FLAGS.AUTOARM and KEYSLOT of the accepted image (R61, R70, R94) -/
  autoarm : Bool
  keyslot : Nat
  /-- members of each declared rotation group (R83) -/
  groups : List (List Nat)
  /-- phase counter of each rotation group (R83) -/
  phase : Vector Nat 16
  /-- LATENCY entries of the accepted image (R84) -/
  lat : List LatEntry
  /-- ports named by each resident variant, as a mask (R2, R67, R117) -/
  names : Vector Nat 4
  /-- the same of an applied image whose program has not started (R75, R451) -/
  next : Vector Nat 4
  /-- COMMIT words of the resident variants (R144) -/
  commits : List CommitRef
  /-- ports that a variant leaves no check window, as a mask (R483) -/
  adcNa : Vector Nat 4
  /-- round boundaries since the last variant switch, saturating (R494) -/
  sinceSwitch : Nat
  /-- the swap request has reached the engine domain (R85) -/
  swapReq : Bool
  /-- round boundaries since the variant request arrived (R89) -/
  vselBoundaries : Nat
  /-- records of which words are still to be pushed (R87) -/
  openRecs : List OpenRec
  deriving DecidableEq, Repr

/-- The schedule after reset: nothing loaded (R26, R73). -/
def SchedSt.reset : SchedSt := ⟨false, 0, false, 0, [], Vector.replicate 16 0, [], Vector.replicate 4 0, Vector.replicate 4 0, [],
  Vector.replicate 4 0, 2, false, 0, []⟩

/-! ### Stage ports (03) -/

/-- One gate output (R108, R109, R528). Times are absolute edge steps. -/
structure GateSt where
  /-- the output is high -/
  high : Bool
  /-- when the high interval began -/
  onAt : Nat
  /-- when it last turned off -/
  offAt : Nat
  /-- a turn-on waits for this step (R528) -/
  rise : Option Nat
  /-- a turn-off is deferred to this step (R109 invariant 2) -/
  fall : Option Nat
  /-- its pair commands this output on (R110, R528) -/
  cmd : Bool
  /-- the nominal edge of the carrier in progress at which it turns off has occurred (R112) -/
  done : Bool
  deriving DecidableEq, Repr

/-- A stage port beside its registers (R99 to R126). -/
structure PortSt where
  /-- absolute fret of the last accepted strobe (R99, R100) -/
  strobe : Option Nat
  /-- channel of the conversion in progress (R99) -/
  conv : Option Nat
  /-- committed values waiting in the shadows: DUTY_A, DUTY_B, SHIFT_B, SHIFT_PORT, PERIOD (R111, R112) -/
  shadow : Vector (Piped Int) 5
  /-- a carrier is in progress; its start (absolute step), its period P and its length (shorter under R107) -/
  carrier : Bool
  carStart : Nat
  carPer : Nat
  carLen : Nat
  /-- the port has left the inert state (R118), and the start of the round in which it last went back (R422) -/
  active : Bool
  leftIn : Option Nat
  /-- the four outputs (R108) -/
  gates : Vector GateSt 4
  /-- tick at which the enable-settle time ends (R119) -/
  settle : Option Nat
  /-- PnnFLT is high, since which absolute fret, and where the active run began that its last change ended (R23, R120) -/
  fltHigh : Bool
  fltFrom : Nat
  fltRun : Option Nat
  /-- absolute fret at which the enable-settle time last ended (R120) -/
  settledAt : Nat
  /-- absolute fret of a gate-off before which latches and driver faults of the port were accepted (R127, R184) -/
  acceptAt : Option Nat
  /-- absolute fret at which PnnEN last fell (R121) -/
  enLowAt : Nat
  /-- absolute step of a zero-crossing window exit whose fast leg has not resumed (R126) -/
  zcExit : Option Nat
  /-- a clamp of R113 has acted in this round -/
  clamped : Bool
  /-- foldback input and selected segment (R160) -/
  foldback : Piped Nat
  segment : Piped (Option Nat)
  deriving DecidableEq, Repr

/-- A gate output that is low with nothing pending. -/
def GateSt.low : GateSt := ⟨false, 0, 0, none, none, false, false⟩

/-- A port in its inert default state (R2, R26). -/
def PortSt.reset : PortSt where
  strobe := none
  conv := none
  shadow := Vector.replicate 5 ⟨0, 0, 0, []⟩
  carrier := false
  carStart := 0
  carPer := 0
  carLen := 0
  active := false
  leftIn := none
  gates := Vector.replicate 4 GateSt.low
  settle := none
  fltHigh := true
  fltFrom := 0
  fltRun := none
  settledAt := 0
  acceptAt := none
  enLowAt := 0
  zcExit := none
  clamped := false
  foldback := ⟨0, 0, 0, []⟩
  segment := ⟨none, none, 0, []⟩

/-! ### Loop engine (04) -/

/-- The states of a loop (R143). -/
inductive LoopState where
  | off | hold | mute | auto | man
  deriving DecidableEq, Repr

/-- The code of a loop state (R143). -/
def LoopState.code : LoopState → Nat
  | .off => 0 | .hold => 1 | .mute => 2 | .auto => 3 | .man => 4

/-- What an evaluation takes from its SFRET (R82, R144, R145). -/
structure EvalCtx where
  /-- loop state (R144) -/
  state : LoopState
  /-- gain region (R150) -/
  region : Nat
  /-- parameter bank (R82) -/
  bank : Nat
  /-- the hold value of R145, R146 -/
  hold : Word
  /-- UMAN in force -/
  uman : Word
  /-- the preset of a selector switch that this evaluation performs (R218, R220) -/
  preset : Option Word
  /-- this evaluation performs the preset of R151 (R162) -/
  due : Bool
  /-- no evaluation has been made before it under the image: HOLD is its previous state (R145, R529) -/
  first : Bool
  deriving DecidableEq, Repr

/-- A loop context beside its registers (R131 to R160). -/
structure LoopSt where
  /-- measurement y (R138) -/
  y : Piped Word
  /-- effective reference (R139) -/
  rEff : Piped Word
  /-- error e (R139) -/
  e : Piped Word
  /-- derivative input x (R140) -/
  x : Piped Word
  /-- proportional term P (R140) -/
  p : Piped Word
  /-- derivative term D (R140) -/
  d : Piped Word
  /-- output u (R142) -/
  u : Piped Word
  /-- the integrator mantissa MI (R136) -/
  mi : Piped Int
  /-- e, x, u and D of the evaluation before (R140) -/
  ePrev : Word
  xPrev : Word
  dPrev : Word
  uPrev : Word
  /-- the integrator after the first slot of PASS_I (R140) -/
  iBase : Int
  /-- the derivative formed by the first slot of PASS_D, and that slot's absolute fret -/
  dSum : Rat
  dAt : Nat
  /-- the sum formed by the first slot of PASS_SUM, and that slot's absolute fret -/
  sSum : Rat
  sAt : Nat
  /-- the limit flags LIMH and LIML of the last evaluation, as words read them (R80, R142) -/
  limH : Piped Bool
  limL : Piped Bool
  /-- absolute fret of the first slot of PASS_I -/
  iAt : Nat
  /-- the reference input (R157) -/
  refIn : Piped Word
  /-- what the evaluation in progress took at its SFRET (R82, R144) -/
  ev : EvalCtx
  /-- the state of the evaluation before (R151, R162, R529) -/
  prevState : LoopState
  /-- absolute fret of the last SFRET: an evaluation begins once in a fret (R82) -/
  lastEval : Option Nat
  /-- the gain region in force and the candidate of R150 -/
  region : Nat
  cand : Option Nat
  /-- no REGION evaluation has been made since the engine started (R150) -/
  firstRegion : Bool
  /-- a preset of R151 is due -/
  presetDue : Bool
  /-- the round boundaries, by their absolute fret, at which the mode and the region changed since the last SFRET (R162) -/
  modeAt : Option Nat
  regionAt : Option Nat
  /-- the last COMMIT of the loop wrote a signed target (R158, R161) -/
  qSigned : Bool
  /-- LOOP_MODE.MAN and LOOP_UMAN in force, and writes not yet in force (R148) -/
  man : Bool
  uman : Word
  modePend : Bool
  umanPend : Bool
  /-- the hold value carried over an activation (R146) -/
  carry : Option Word
  /-- a selector switch presets the loop's integrator with this value at its next evaluation (R218, R220) -/
  switchPreset : Option Word
  deriving DecidableEq, Repr

/-- A loop context after reset: unused, OFF (R529). -/
def LoopSt.reset : LoopSt where
  y := ⟨0, 0, 0, []⟩
  rEff := ⟨0, 0, 0, []⟩
  e := ⟨0, 0, 0, []⟩
  x := ⟨0, 0, 0, []⟩
  p := ⟨0, 0, 0, []⟩
  d := ⟨0, 0, 0, []⟩
  u := ⟨0, 0, 0, []⟩
  mi := ⟨0, 0, 0, []⟩
  ePrev := 0
  xPrev := 0
  dPrev := 0
  uPrev := 0
  iBase := 0
  dSum := 0
  dAt := 0
  sSum := 0
  sAt := 0
  limH := ⟨false, false, 0, []⟩
  limL := ⟨false, false, 0, []⟩
  iAt := 0
  refIn := ⟨0, 0, 0, []⟩
  ev := ⟨.off, 0, 0, 0, 0, none, false, true⟩
  prevState := .off
  lastEval := none
  region := 0
  cand := none
  firstRegion := true
  presetDue := false
  modeAt := none
  regionAt := none
  qSigned := false
  man := false
  uman := 0
  modePend := false
  umanPend := false
  carry := none
  switchPreset := none

/-! ### Faults and watchdogs (13) -/

/-- Fault block and watchdogs beside their registers (R386 to R403). -/
structure FaultSt where
  /-- tick of the last record of a corrected fault, by code (R386) -/
  lastRec : List (Nat × Nat)
  /-- tick of the next ALIVE toggle, none while ALIVE does not toggle (R394) -/
  aliveDue : Option Nat
  /-- entries that a write of FAULT_CLR made candidates, each with the tick of the write (R392) -/
  candidates : List (Nat × Nat)
  /-- the window reference of the host watchdog (R398) -/
  hwdRef : Nat
  /-- tick of the last failure or service (R398, R399) -/
  hwdTick : Option Nat
  /-- slot counts, and check-ins in the tick of a service that count toward the next (R399) -/
  slots : Vector Nat 8
  slotsLater : Vector Nat 8
  /-- tick of the last check-in, for R399 -/
  slotTick : Nat
  /-- tick of an open disable key (R402) -/
  keyAt : Option Nat
  /-- the firmware has not served its watchdog since an expiry (R403) -/
  fwdBad : Bool
  deriving DecidableEq, Repr

/-- The fault block after reset (R401). -/
def FaultSt.reset : FaultSt := ⟨[], none, [], 0, none, Vector.replicate 8 0, Vector.replicate 8 0, 0, none, false⟩

/-- A snapshot that a fault has asked for: course, slot, code, class, timestamp (R422). -/
structure SnapReq where
  /-- KIND and INDEX of the fault -/
  scope : Nat × Nat
  /-- course -/
  course : Nat
  /-- slot (R423) -/
  slot : Nat
  /-- fault code -/
  code : Nat
  /-- fault class -/
  cls : Nat
  /-- timestamp of the fault -/
  stamp : Nat
  /-- SEQ of the Fault record, once it has been given one -/
  recSeq : Option Nat
  /-- member ports and bytes 32 to 1023, once a replica has been refreshed after registration (R422) -/
  got : Option (Nat × List Byte)
  deriving DecidableEq, Repr


/-! ### Window comparators (05) -/

/-- One side of a comparator (R169, R170). -/
structure SideSt where
  /-- the analogue output is active (R169) -/
  on : Bool
  /-- its latest changes as they are sampled, the last one first: the absolute fret of the first sample, and the output from there on;
  inactive before the first (R170) -/
  hist : List (Nat × Bool)
  deriving DecidableEq, Repr

/-- A port comparator beside its registers (R167 to R184). -/
structure CmpSt where
  /-- the HI side -/
  hi : SideSt
  /-- the LO side -/
  lo : SideSt
  /-- the input at its balls, volts (R167) -/
  level : Rat
  /-- the last two blanking intervals [from, to) in absolute frets, the later one first (R171) -/
  blanks : List (Nat × Nat)
  /-- the glitch filter counts from this absolute fret on (R174) -/
  filtFrom : Nat
  /-- the latch has set in the carrier in progress (R175) -/
  setNow : Bool
  /-- threshold shadows of R180; HI usable from an absolute step -/
  shHi : Piped Nat
  shLo : Nat
  /-- a host write of CMP_THR waits for a round boundary: LO, and HI where the host may change it (R179, R180) -/
  thrPend : Option (Nat × Option Nat)
  /-- latches whose clear by the host waits for a round boundary (R174) -/
  clrHi : Bool
  clrLo : Bool
  deriving DecidableEq, Repr

/-- A comparator after reset (R183). -/
def CmpSt.reset : CmpSt := ⟨⟨false, []⟩, ⟨false, []⟩, 0, [], 0, false, ⟨1023, 1023, 0, []⟩, 0, none, false, false⟩

/-! ### Sharing, Capo and hold-up (06) -/

/-- Sharing, Capo and hold-up beside their registers (R196 to R221). -/
structure CapoSt where
  /-- products of the power terms (R205) -/
  terms : Vector (Piped Word) 24
  /-- input power (R205) -/
  pIn : Piped Word
  /-- filtered input power Pf (R205) -/
  pf : Piped Word
  /-- load power of each limit, its sum, and the power no limit governs (R205) -/
  lp : Vector (Piped Word) 64
  base : Piped Word
  loadSum : Piped Word
  /-- the cap in force C (R205); none is +∞ -/
  cap : Piped Word
  /-- headroom left for the priorities not yet served (R206) -/
  avail : Piped Word
  /-- λ′ of each limit (R206) and λ in the pipeline (R207) -/
  lamNew : Vector (Piped Word) 64
  lam : Vector (Piped Word) 64
  /-- filtered port currents f, what each port adds to the sum of its course in the round in progress, and the sums of the courses
  in the round before (R199, R222) -/
  f : Vector Word 32
  sumNow : Vector Rat 32
  cntNow : Vector Nat 32
  sumLast : Vector Rat 32
  cntLast : Vector Nat 32
  /-- trims t of the ports and τ of the courses as the engine holds them (R199, R200) -/
  t : Vector (Piped Word) 32
  tau : Vector (Piped Word) 32
  /-- trim multiplier of each loop (R201) -/
  mult : Vector (Piped Word) 64
  /-- last value a TARGET wrote to each limit (R196) -/
  tk : Vector (Piped (Option Word)) 64
  /-- limits that some TARGET word names, as a mask (R196) -/
  targeted : Nat
  /-- an accepted budget waits; and whether it is an increase (R213) -/
  budget : Option Word
  raise : Bool
  /-- a round boundary has passed since the acceptance of an increase (R213) -/
  boundarySeen : Bool
  /-- the stamp test is not applied to the next entry (R212) -/
  stampFree : Bool
  /-- HOSTCAP in force, and a write waiting for a round boundary (R205) -/
  hostCap : Word
  hostPend : Bool
  /-- a clear of the trims waits for a round boundary (R202) -/
  trimClr : Bool
  /-- the committed budget table: address and value of each entry; entries beyond its end are 0, as CAPO_BTAB resets (R215) -/
  table : List (Nat × Word)
  /-- stamp of the emission that is due since the half-cycle boundary that has passed (R215) -/
  emitStamp : Option Word
  /-- the entries of that emission: those of the table committed before the boundary (R215) -/
  emitTable : List (Nat × Word)
  /-- FLEETCAP is SAFE_CAP: stale, or no acceptance since arming (R214) -/
  safeCap : Bool
  /-- consecutive outside and inside judgements (R216) -/
  outside : Nat
  inside : Nat
  /-- v_d held at the beginning of input loss (R216) -/
  heldA : Rat
  /-- selectors switch to hold-up at the round boundary after the round, by the absolute fret of its start, in which the loss
  began (R218) -/
  switchDue : Option Nat
  /-- T of each selector until the PASS_SUM of its loop is usable (R218, R220) -/
  selT : Vector (Piped (Option Word)) 4
  deriving DecidableEq, Repr

/-- Sharing and Capo after reset (R201, R205: multipliers and λ are 1). -/
def CapoSt.reset : CapoSt where
  terms := Vector.replicate 24 ⟨0, 0, 0, []⟩
  pIn := ⟨0, 0, 0, []⟩
  pf := ⟨0, 0, 0, []⟩
  lp := Vector.replicate 64 ⟨0, 0, 0, []⟩
  base := ⟨0, 0, 0, []⟩
  loadSum := ⟨0, 0, 0, []⟩
  cap := ⟨0, 0, 0, []⟩
  avail := ⟨0, 0, 0, []⟩
  lamNew := Vector.replicate 64 ⟨0x50000, 0x50000, 0, []⟩
  lam := Vector.replicate 64 ⟨0x50000, 0x50000, 0, []⟩
  f := Vector.replicate 32 0
  sumNow := Vector.replicate 32 0
  cntNow := Vector.replicate 32 0
  sumLast := Vector.replicate 32 0
  cntLast := Vector.replicate 32 0
  t := Vector.replicate 32 ⟨0, 0, 0, []⟩
  tau := Vector.replicate 32 ⟨0, 0, 0, []⟩
  mult := Vector.replicate 64 ⟨0x50000, 0x50000, 0, []⟩
  tk := Vector.replicate 64 ⟨none, none, 0, []⟩
  targeted := 0
  budget := none
  raise := false
  boundarySeen := false
  stampFree := true
  hostCap := 0x7DFFFF
  hostPend := false
  trimClr := false
  table := []
  emitStamp := none
  emitTable := []
  safeCap := true
  outside := 0
  inside := 0
  heldA := 0
  switchDue := none
  selT := Vector.replicate 4 ⟨none, none, 0, []⟩

/-! ### Feed channels (07) -/

/-- An analogue comparison behind a digital filter (R23): its present outcome, the moment since which it has it, and the filtered
output of that moment. -/
structure LevelSt where
  raw : Bool
  since : Nat
  out : Bool
  deriving DecidableEq, Repr

/-- A feed beside its registers (R226 to R245). Times are interface ticks. -/
structure FeedSt where
  /-- voltages at FnnVS, FnnVL and FnnIS as last told, and the ticks at which they were told (R226) -/
  vs : Rat
  vl : Rat
  is : Rat
  vsAt : Nat
  vlAt : Nat
  isAt : Nat
  /-- UV and OV, which carry hysteresis (R226) -/
  uv : Bool
  ov : Bool
  /-- the VS window, RATIO, FWD and VLPRES by interface ticks, OC and REV by 5 ns interface clocks (R226, R227) -/
  win : LevelSt
  ratio : LevelSt
  fwd : LevelSt
  vlp : LevelSt
  oc : LevelSt
  rev : LevelSt
  /-- the insertion delay is waived (R236) -/
  waived : Bool
  /-- end of the delay that runs in the present state: INSDLY, PCTO, POVL or the retry wait -/
  due : Nat
  /-- tick of entry into PRECHARGE (R233) -/
  pcAt : Nat
  /-- tick at which RHOLD expires, while the feed is ON (R237) -/
  holdDue : Option Nat
  /-- tick and old value of the last reset of the retry count (R237) -/
  retryReset : Option (Nat × Nat)
  /-- tick at which the later of FnnG and FnnPC last fell since reset (R241) -/
  fell : Option Nat
  /-- the short check resumes at this tick after a group suspension (R241) -/
  resume : Option Nat
  /-- tick at which OV ended a PRECHARGE, and tick of a trip in PRECHARGE: they can fall together (R245) -/
  ovAt : Option Nat
  tripAt : Option Nat
  /-- tick of the last trip that led into FAULT: a loss of run permission can fall together with it (R245) -/
  faultAt : Option Nat
  /-- tick of the last loss of run permission (R241) -/
  lossAt : Nat
  deriving DecidableEq, Repr

/-- A feed after reset. -/
def FeedSt.reset : FeedSt where
  vs := 0
  vl := 0
  is := 0
  vsAt := 0
  vlAt := 0
  isAt := 0
  uv := false
  ov := false
  win := ⟨false, 0, false⟩
  ratio := ⟨false, 0, false⟩
  fwd := ⟨false, 0, false⟩
  vlp := ⟨false, 0, false⟩
  oc := ⟨false, 0, false⟩
  rev := ⟨false, 0, false⟩
  waived := false
  due := 0
  pcAt := 0
  holdDue := none
  retryReset := none
  fell := none
  resume := none
  ovAt := none
  tripAt := none
  faultAt := none
  lossAt := 0

/-! ### Rail sequencer (08) -/

/-- The monitor of a rail beside its registers (R247 to R249). -/
structure RailSt where
  /-- voltage at SQnnMON, its level as a digital input, and the tick at which they were told (R247) -/
  mon : Rat
  pin : Bool
  told : Nat
  /-- the analogue outputs of the over side and of the under side, which holds LO or OFF (R248) -/
  overOn : Bool
  underOn : Bool
  /-- the good and fallen results and the over side before their filter (R249) -/
  good : LevelSt
  fallen : LevelSt
  high : LevelSt
  /-- in GOOD and PREDOWN: the filtered good result has been active since the entry; in any other state: it is active (R261) -/
  wasGood : Bool
  /-- the fault that holds the rail in FAULT: its code, and whether it is fatal (R261, R263) -/
  fault : Option (Nat × Bool)
  deriving DecidableEq, Repr

/-- A rail monitor after reset. -/
def RailSt.reset : RailSt :=
  ⟨0, false, 0, false, false, ⟨false, 0, false⟩, ⟨false, 0, false⟩, ⟨false, 0, false⟩, false, none⟩

/-- The sequencer beside its registers (R247 to R270). Times are interface ticks. -/
structure SeqSt where
  /-- end of the delay or window of the rail in progress -/
  due : Nat
  /-- a rail counted as failed in the power-up in progress (R257) -/
  failed : Bool
  /-- tick of the last completed power-down, or of the end of BOOT (R256) -/
  downAt : Nat
  /-- an on request and an off request that act at the next tick (R254, R270) -/
  reqOn : Bool
  reqOff : Bool
  /-- an off request acts in this tick, once a rising rail that is judged in it has been (R270) -/
  offNow : Bool
  /-- rails that were in FAULT when the power-up in progress began, as a mask (R257, R263) -/
  skip : Nat
  /-- configuration words that wait for DOWN: address and value (R268) -/
  pendCfg : List (Nat × Word)
  /-- the monitors of the rails -/
  rails : Vector RailSt 16
  deriving DecidableEq, Repr

/-- The sequencer after reset. -/
def SeqSt.reset : SeqSt := ⟨0, false, 0, false, false, false, 0, [], Vector.replicate 16 RailSt.reset⟩

/-! ### Harness (11) -/

/-- What a Harness port has put on the line: a frame, whole or ended with ABORT, or a control character (R315, R322, R328). -/
inductive TxItem where
  | frame (p : HPort) (f : Frame) (crc : Word) (aborted : Bool)
  | pause (p : HPort)
  | resume (p : HPort)
  deriving DecidableEq, Repr

/-- A frame that waits for an output: its class in the order of R327, and the input whose buffer holds it (R328). -/
structure WaitFrame where
  /-- the output it waits for -/
  out : HPort
  /-- its class, 0 first (R327) -/
  prio : Nat
  /-- the number of the received frame: copies of one frame share the room of one (R328) -/
  no : Nat
  /-- the input whose buffer holds it; none for a frame of this device -/
  from_ : Option HPort
  /-- the frame -/
  frame : Frame
  deriving DecidableEq, Repr

/-- An enumeration in progress (R329): the next address, the port whose subtree is taken, and whether the up link is still measured. -/
structure EnumSt where
  /-- the next address to give -/
  next : Nat
  /-- the port whose subtree is taken -/
  port : Option HPort
  deriving DecidableEq, Repr

/-- A hop-delay measurement in progress (R335): results so far in units of 2^-8 ns. -/
structure ProbeSt where
  /-- results so far -/
  values : List Int
  deriving DecidableEq, Repr

/-- The Harness beside its registers (R314 to R346). -/
structure HarnSt where
  /-- frames sent, oldest first -/
  tx : List TxItem
  /-- frames that wait for an output (R327, R328) -/
  waiting : List WaitFrame
  /-- the far end of each port has asked for a pause (R328) -/
  paused : Vector Bool 3
  /-- this device has asked the far end of each port for a pause -/
  asked : Vector Bool 3
  /-- a guard is open on each port (R327) -/
  guard : Vector Bool 3
  /-- cut off by TEST_HARN (R490) -/
  cut : Vector Bool 3
  /-- the enumeration in progress (R329) -/
  enum : Option EnumSt
  /-- the hop-delay measurement in progress (R335) -/
  probe : Option ProbeSt
  /-- results not accepted in a row (R335) -/
  badProbes : Nat
  /-- a measurement is due at the next opportunity (R335) -/
  probeDue : Bool
  /-- cycle count of the last measurement begun (R335) -/
  probeAt : Option Nat
  /-- EVT frames sent in the cycle in progress (R343) -/
  evts : Nat
  /-- EVT frames of fatal faults that found the limit reached: they are sent first in the next cycle (R346) -/
  evtFirst : List Frame
  /-- a break of the ring elsewhere has been told by an EVT and not yet healed (R341) -/
  brkFar : Bool
  /-- SRC and SEQ of the broadcasts of other devices that the root has sent downward in the cycle in progress (R324, R341) -/
  resent : List (Nat × Nat)
  /-- the number of frames received to be forwarded (R328) -/
  rxNo : Nat
  /-- RINGBRK takes its form of forwarding at the next cycle boundary (R341) -/
  breakDue : Bool
  /-- SEQ of the next frame this device originates -/
  seq : Nat
  /-- the TUNING of a wrap is to be emitted by the root (R336) -/
  tuneDue : Bool
  /-- frames for this device that wait for the end of a host-service pause (R342, R450) -/
  held : List (HPort × Frame)
  /-- RSP frames of this device that wait for the end of a host-service pause (R450) -/
  heldRsp : List Frame
  /-- a role was assigned since VKA came up (R331) -/
  assigned : Bool
  deriving DecidableEq, Repr

/-- The Harness after reset. -/
def HarnSt.reset : HarnSt where
  tx := []
  waiting := []
  paused := Vector.replicate 3 false
  asked := Vector.replicate 3 false
  guard := Vector.replicate 3 false
  cut := Vector.replicate 3 false
  enum := none
  probe := none
  badProbes := 0
  probeDue := false
  probeAt := none
  evts := 0
  evtFirst := []
  brkFar := false
  resent := []
  rxNo := 0
  breakDue := false
  seq := 0
  tuneDue := false
  held := []
  heldRsp := []
  assigned := false

/-! ### Recorder (14) -/

/-- A fault snapshot in the pending buffer (R422, R423): where it goes, and bytes 32 to 1023 of it. -/
structure Snapshot where
  /-- KIND and INDEX of the fault -/
  scope : Nat × Nat
  /-- course -/
  course : Nat
  /-- slot k of the course -/
  slot : Nat
  /-- fault code -/
  code : Nat
  /-- fault class -/
  cls : Nat
  /-- timestamp of the fault -/
  stamp : Nat
  /-- member ports, as a mask -/
  members : Nat
  /-- SEQ of the Fault record, once that record has been given one -/
  recSeq : Option Nat
  /-- bytes 32 to 1023 -/
  body : List Byte
  deriving DecidableEq, Repr

/-- The block write in progress (R408, R409, R412). -/
inductive RecJob where
  /-- a Saddlebag record: the record, its SEQ, and whether this is its second attempt -/
  | record (r : Record) (seq : Nat) (again : Bool)
  /-- block `k` of a snapshot numbered `snapSeq` -/
  | snap (x : Snapshot) (snapSeq k : Nat)
  /-- block `k` in writing order of a ledger commit: its image, its number and its reason -/
  | ledger (image : List Byte) (n reason k : Nat)
  /-- the refresh of the block at offset `o` (R489), and its last byte -/
  | refresh (o : Nat) (last : Byte)
  deriving DecidableEq, Repr

/-- The recorder beside its registers (R409 to R430). -/
structure RecSt where
  /-- records that wait to be written, oldest first (R413) -/
  pending : List Record
  /-- the queue is in the full condition (R413) -/
  full : Bool
  /-- snapshots asked for, waiting for the round boundary after registration (R422) -/
  asked : List SnapReq
  /-- snapshots that wait to be written, oldest first (R422) -/
  snaps : List Snapshot
  /-- the block write in progress (R408) -/
  job : Option RecJob
  /-- a record that failed its verify and is to be written once more (R412) -/
  retry : Option Record
  /-- a Cleared record is to be the first at the new floor (R418) -/
  clearedFirst : Bool
  /-- a snapshot or commit of which blocks remain to be written -/
  snapRun : Option (Snapshot × Nat × Nat)
  commitRun : Option (List Byte × Nat × Nat × Nat)
  /-- reason of a commit that waits (R428) -/
  commitDue : Option Nat
  /-- ticks of the period since the last commit request -/
  commitAt : Nat
  /-- counts since the last commit and the image they are added to, by offset in the image (R424, R427, R429) -/
  ledger : List (Nat × Word)
  /-- the image of NVM is in those counts (R429) -/
  loaded : Bool
  /-- saturation flags of the counter groups (R427) -/
  satur : Nat
  /-- residency accumulators in units of 100 µs, by offset of their counter (R424) -/
  acc : List (Nat × Nat)
  /-- thermal tracking of each port: X, E in the units of R300, DIR up (R426) -/
  thermal : Vector (Option (Int × Int × Bool)) 32
  /-- refused clears since reset (R418) -/
  refusals : Nat
  /-- slots below the floor still to be erased: the next slot and how many (R418) -/
  scrub : Nat × Nat
  /-- tick from which the next slot may be erased (R418) -/
  scrubAt : Nat
  /-- snapshot blocks still to be erased (R418) -/
  snapErase : Nat
  /-- the nonce of the clear whose snapshot erase runs (R418) -/
  snapNonce : List Byte
  /-- a freeze waits for the record in progress to complete (R431) -/
  freezeDue : Bool
  /-- blocks of NVM that wait for their refresh, by offset, oldest first (R489) -/
  refreshDue : List Nat
  /-- tick of the last host write of REC_WALL, and what it held before that tick (R431) -/
  wallWas : Option (Nat × Word)
  deriving DecidableEq, Repr

/-- The recorder after reset. -/
def RecSt.reset : RecSt where
  pending := []
  full := false
  asked := []
  snaps := []
  job := none
  retry := none
  clearedFirst := false
  snapRun := none
  commitRun := none
  commitDue := none
  commitAt := 0
  ledger := []
  loaded := false
  satur := 0
  acc := []
  thermal := Vector.replicate 32 none
  refusals := 0
  scrub := (0, 0)
  scrubAt := 0
  snapErase := 0
  snapNonce := []
  freezeDue := false
  refreshDue := []
  wallWas := none


/-! ### Battery estimator (09) -/

/-- An estimator beside its registers (R273 to R292); kept while VKA holds (R288, R296). Quantities are exact. -/
structure BattSt where
  /-- state of charge by voltage (R277) -/
  socv : Rat
  /-- state of charge by charge (R277) -/
  socq : Rat
  /-- state of charge at the last anchor (R277) -/
  soca : Rat
  /-- charge since the anchor (R277) -/
  qsum : Rat
  /-- capacity (R277) -/
  qcap : Rat
  /-- resistance factor (R277) -/
  r0f : Rat
  /-- uncertainty (R277) -/
  u : Rat
  /-- voltage of the first relaxation branch (R277) -/
  v1 : Rat
  /-- voltage of the second relaxation branch (R277) -/
  v2 : Rat
  /-- anchor age, seconds -/
  age : Rat
  /-- V and I of the last step; whether that step had a valid voltage -/
  v : Rat
  i : Rat
  valid : Bool
  /-- voltage samples not yet used, each with the number of its 10 ms window (R274) -/
  samples : List (Nat × Nat)
  /-- charge of the round boundaries not yet used, coulombs, by the number of the window (R275) -/
  charge : List (Nat × Rat)
  /-- tick of the last voltage sample (R273) -/
  convAt : Option Nat
  /-- tick of the last step (R274) -/
  stepAt : Option Nat
  /-- tick up to which age, rest and gap have been counted (R279, R281, R282) -/
  upTo : Nat
  /-- temperature of the last housekeeping round, °C, and BnTH judged broken (R274, R286) -/
  temp : Rat
  thBad : Bool
  /-- the last raw ID code and how often in a row it was read (R285) -/
  rawId : Nat
  /-- how often in a row the last raw ID code was read, with that code (R285) -/
  rawRun : Nat
  /-- the adopted code has changed from one battery to another since the last step (R286) -/
  swapped : Bool
  /-- ticks since the start of rest, and the number of ticks at which the next rest point falls (R279) -/
  rest : Option Nat
  restDue : Nat
  /-- ticks since the gap rose above DTHR (R282) -/
  gap : Option Nat
  /-- absence has been seen since the last reset (R286, R393) -/
  absSeen : Bool
  /-- the step still awaits its rest point, its DISAGREE or its UNANCHORED before its warnings are judged (R284); whether a snapshot is
  formed with it (R288) -/
  closing : Option Bool
  /-- a cold start is due at the next step with a valid voltage (R287) -/
  coldDue : Bool
  /-- a snapshot of the host waits for the next step (R288) -/
  snapDue : Bool
  /-- a restore from the BATT_RESTORE words waits for the next step (R289) -/
  restoreDue : Bool
  /-- ticks at which the snapshot period began (R288) -/
  saveAt : Nat
  /-- seconds of rest credited across HIBERNATE (R292) -/
  credit : Rat
  deriving DecidableEq, Repr

/-- An estimator after the loss of VKA: OFF. -/
def BattSt.reset : BattSt where
  socv := 0
  socq := 0
  soca := 0
  qsum := 0
  qcap := 0
  r0f := 1
  u := 0
  v1 := 0
  v2 := 0
  age := 0
  v := 0
  i := 0
  valid := false
  samples := []
  charge := []
  convAt := none
  stepAt := none
  upTo := 0
  temp := 0
  thBad := false
  rawId := 0
  rawRun := 0
  swapped := false
  rest := none
  restDue := 0
  gap := none
  absSeen := false
  closing := none
  coldDue := false
  snapDue := false
  restoreDue := false
  saveAt := 0
  credit := 0


/-! ### Housekeeping (10) -/

/-- Where a slow round stands (R299). -/
inductive HkPhase where
  | idle | converting | evaluated
  deriving DecidableEq, Repr

/-- Housekeeping beside its registers (R298 to R309). Temperatures are signed, in units of 1/16 °C (R300). -/
structure HkSt where
  /-- where the slow round stands (R299) -/
  phase : HkPhase
  /-- ticks at which the round in progress began and the next begins (R299) -/
  startAt : Nat
  nextAt : Nat
  /-- the HK registers as they stood when the round began (R310: new settings at the next round boundary) -/
  cfg : List (Nat × Word)
  /-- an image has been applied since the last round began: levels are judged afresh (R310) -/
  afresh : Bool
  /-- codes of channels 0 to 39 and readings of the on-die sensors in the round in progress (R298) -/
  codes : Vector Nat 40
  die : Vector Int 8
  /-- temperature of each sensor before R301, in the round before and in this one -/
  prev : Vector (Option Int) 18
  raw : Vector Int 18
  /-- broken sensors, as a mask, and consecutive rounds in which no condition held (R301) -/
  broken : Nat
  good : Vector Nat 18
  /-- temperature of each group; level; HOT2 and rate of rise active (R302 to R305) -/
  gtemp : Vector Int 8
  level : Vector Nat 8
  hot2 : Vector Bool 8
  /-- a HOT2 fault of the group has been reported and T has not fallen below HOT2 − HYS since (R305) -/
  hotFault : Vector Bool 8
  /-- rate of rise active (R304) -/
  ror : Vector Bool 8
  /-- maxima of the plausible sensors of each group over the last 16 rounds, youngest first (R304) -/
  hist : Vector (List (Option Int)) 8
  /-- charging forbidden (R307) and NVM writes forbidden (R308) -/
  chgInh : Vector Bool 2
  nvmInh : Bool
  /-- course levels that have reached the engine domain, and those in force for mutes (R306) -/
  atEngine : Vector Nat 32
  inForce : Vector Nat 32
  /-- courses muted in the engine round in progress (R306, R307) -/
  muted : Nat
  /-- signals 0x180 to 0x1A7 (R137, R298) -/
  engine : Vector Word 40
  /-- temperature trims: port ADC references, threshold DAC references, housekeeping reference, clock monitor (R309) -/
  trims : Vector Int 4
  deriving DecidableEq, Repr

/-- Housekeeping at the start of BOOT (R299, R308). -/
def HkSt.reset : HkSt where
  phase := .idle
  startAt := 0
  nextAt := 0
  cfg := []
  afresh := false
  codes := Vector.replicate 40 0
  die := Vector.replicate 8 0
  prev := Vector.replicate 18 none
  raw := Vector.replicate 18 0
  broken := 0
  good := Vector.replicate 18 0
  gtemp := Vector.replicate 8 0
  level := Vector.replicate 8 0
  hot2 := Vector.replicate 8 false
  hotFault := Vector.replicate 8 false
  ror := Vector.replicate 8 false
  hist := Vector.replicate 8 []
  chgInh := Vector.replicate 2 false
  nvmInh := true
  atEngine := Vector.replicate 32 0
  inForce := Vector.replicate 32 0
  muted := 0
  engine := Vector.replicate 40 0
  trims := Vector.replicate 4 0

/-! ### Queues and host ports (12) -/

/-- A hardware queue beside its registers (R371 to R377). -/
structure QueueSt where
  /-- entries written and not popped, oldest first -/
  entries : List Word
  /-- how many of them the consumer sees (R372) -/
  vis : Nat
  /-- entries popped that the producer does not yet count as free (R372, R373) -/
  unfreed : Nat
  /-- a flush waits (R377) -/
  flush : Bool
  deriving DecidableEq, Repr

/-- A queue after reset: empty. -/
def QueueSt.reset : QueueSt := ⟨[], 0, 0, false⟩

/-- A bulk transaction that has not ended: BCS_N is low (R353 to R361). -/
structure BulkRun where
  /-- a write (R353) -/
  write : Bool
  /-- void under R354: no access is made -/
  void : Bool
  /-- refused under CRCREQ (R359): no access is made -/
  refused : Bool
  /-- map address of its first byte -/
  addr : Nat
  /-- length in bytes -/
  len : Nat
  /-- a CRC-16 follows (R359) -/
  crc : Bool
  /-- CMD, ADDR and LEN as they arrived, for the CRC (R359) -/
  header : List Byte
  /-- data and check word that the host sends with a write -/
  sent : List Byte
  check : Nat
  /-- bytes of data and CRC that the host clocks, and data bytes done -/
  want : Nat
  pos : Nat
  /-- the word in transfer (R351), and whether it is filler (R358) -/
  word : Word
  haveWord : Bool
  filler : Bool
  /-- what the device has sent -/
  out : List Byte
  /-- the tick at which a wait for a word began (R358) -/
  wait : Option Nat
  /-- an access to a gap has been logged in this transaction -/
  gapLogged : Bool
  /-- the host clocked beyond the transaction (R357) -/
  overrun : Bool
  /-- a wait timed out (R358) -/
  tmo : Bool
  /-- the CRC does not match (R359) -/
  crcErr : Bool
  /-- a partial word was discarded (R350) -/
  partialWord : Bool
  /-- bytes accessed -/
  count : Nat
  deriving DecidableEq, Repr

/-- A two-wire transfer that has not ended: a read that waits for a word (R364, R365), or a write that is held (R366). -/
structure TwRun where
  /-- a write transfer -/
  write : Bool
  /-- an incomplete word has arrived (R350) -/
  cut : Bool
  /-- bytes still to be read -/
  left : Nat
  /-- map address base of the window, latched at the START (R364) -/
  base : Nat
  /-- the word in transfer -/
  word : Word
  /-- a word is in transfer -/
  haveWord : Bool
  /-- the byte at 0xFFFF has been read (R364) -/
  past : Bool
  /-- bytes returned so far -/
  out : List Byte
  /-- bytes that the packet error code covers (R367) -/
  bytes : List Byte
  /-- tick at which a stretch began (R365) -/
  wait : Option Nat
  deriving DecidableEq, Repr

/-- The host ports beside their registers (R349 to R370). -/
structure HostSt where
  /-- the bulk transaction in progress (R353) -/
  bulk : Option BulkRun
  /-- what the device returned in the last bulk transaction, and its status byte (R354, R356) -/
  bulkOut : List Byte
  bulkStatus : Byte
  /-- the two-wire pointer (R363) -/
  twPtr : Nat
  /-- the two-wire transfer in progress (R362) -/
  tw : Option TwRun
  /-- what the device returned in the last two-wire read -/
  twOut : List Byte
  /-- the controller transfer has started (R370) -/
  twcOn : Bool
  /-- the bytes that the controller sends, or has sent, in its last transfer (R369) -/
  twcSent : List Byte
  /-- the last entry popped from a queue window -/
  popped : Word
  /-- the queue whose read stalls the application core (R375) -/
  coreRead : Option (Fin 64)
  deriving DecidableEq, Repr

/-- The host ports after reset. -/
def HostSt.reset : HostSt where
  bulk := none
  bulkOut := []
  bulkStatus := 0
  twPtr := 0
  tw := none
  twOut := []
  twcOn := false
  twcSent := []
  popped := 0
  coreRead := none


/-! ### Measured boot, attestation and update (15) -/

/-- A staging in progress (R444 to R446). -/
structure Staging where
  /-- a firmware image -/
  fw : Bool
  /-- length in bytes -/
  total : Nat
  /-- next byte offset -/
  next : Nat
  /-- image identifier -/
  imageId : Nat
  /-- image version -/
  ver : Nat
  /-- stored bytes that wait in the receive buffer, and the number of bytes programmed -/
  buf : List Byte
  done : Nat
  /-- a block write waited when the last erase or page ended: it goes first (R409) -/
  owes : Bool
  deriving DecidableEq, Repr

/-- A report in progress: the request's nonce, and for a Harness request where the answer goes (R442). -/
structure ReportRun where
  /-- the nonce of the request (R442) -/
  nonce : List Byte
  /-- destination, TAG word and SEQ of the answer; none for a host request -/
  answer : Option (Nat × Nat × Nat)
  deriving DecidableEq, Repr

/-- What the identity and configuration region holds of the device's own records (R435): it lags behind the trust block while NVM writes are
forbidden (R308). -/
structure TrustNvm where
  /-- lifecycle, revoked keys, OEM keys ([] where empty) and clear key (R435, R436) -/
  lifecycle : Nat
  revoked : Nat
  keys : Vector (List Byte) 4
  clearKey : List Byte
  /-- BOOT count, active slots (true is B) and REC_FLOOR (R435) -/
  bootCnt : Nat
  fwSlot : Bool
  stSlot : Bool
  floor : Nat
  /-- states of the staged slots (R434), and the stored lengths of the slots -/
  fwStg : Nat
  stStg : Nat
  stored : Vector Nat 4
  deriving DecidableEq, Repr

/-- The region of a device as shipped. -/
def TrustNvm.reset : TrustNvm where
  lifecycle := 1
  revoked := 0
  keys := Vector.replicate 4 []
  clearKey := []
  bootCnt := 0
  fwSlot := false
  stSlot := false
  floor := 0
  fwStg := 0
  stStg := 0
  stored := Vector.replicate 4 0

/-- Trust and update beside their registers (R434 to R453). -/
structure TrustSt where
  /-- the inert interval of a structure activation (R451) -/
  inert : Bool
  /-- outcome of the check in that interval: the new program starts, or the old one restarts (R451) -/
  loaded : Option Bool
  /-- the staging in progress (R445) -/
  staging : Option Staging
  /-- stored length of the slots: firmware A, B, structure A, B (R71, R446) -/
  stored : Vector Nat 4
  /-- cycle counts of the pending activations (R447) -/
  actFw : Option Nat
  actSt : Option Nat
  /-- cycle count of the activation in progress (R448, R451) -/
  actNow : Nat
  /-- the measurements M0 to M3 (R439, R441) -/
  meas : Vector (List Byte) 4
  /-- the last host report (R442, R443) -/
  reportOut : List Byte
  /-- the host-service pause: the tick at which it began, and whether a firmware activation runs in it (R450, R403) -/
  pause : Option (Nat × Bool)
  /-- the attestation report in progress (R443) -/
  report : Option ReportRun
  /-- a key nonce is valid (R453) -/
  knonce : Bool
  /-- the identity and configuration region (R434, R435): lifecycle, revoked keys, OEM keys ([] where empty), clear key,
  BOOT count, active slots (true is B), staged-slot states -/
  lifecycle : Nat
  revoked : Nat
  keys : Vector (List Byte) 4
  clearKey : List Byte
  bootCnt : Nat
  fwSlot : Bool
  stSlot : Bool
  fwStg : Nat
  stStg : Nat
  /-- the region as it is programmed (R308, R435) -/
  kept : TrustNvm
  deriving DecidableEq, Repr

/-- A device as shipped: DEVELOPMENT, no key written, both slots of each kind empty (R436). -/
def TrustSt.reset : TrustSt where
  inert := false
  loaded := none
  staging := none
  stored := Vector.replicate 4 0
  actFw := none
  actSt := none
  actNow := 0
  meas := Vector.replicate 4 []
  reportOut := []
  pause := none
  report := none
  knonce := false
  lifecycle := 1
  revoked := 0
  keys := Vector.replicate 4 []
  clearKey := []
  bootCnt := 0
  fwSlot := false
  stSlot := false
  fwStg := 0
  stStg := 0
  kept := TrustNvm.reset

/-! ### Reset, power states and the keep-alive comparators (16, 05) -/

/-- State control beside its registers (R457 to R477), and the counts of the keep-alive comparators (R187). -/
structure PowerSt where
  /-- reset sources that still hold: VSUP, RST_N, soft reset (R459) -/
  holdVsup : Bool
  holdRstn : Bool
  softAt : Option Nat
  /-- bits of GLOBAL_RSTCAUSE gathered for the reset that holds (R459) -/
  causes : Nat
  /-- state in which the reset began, kept in the keep-alive domain (R458) -/
  heldFrom : DevState
  /-- tick at which BOOT began; the work of BOOT has been done (R462) -/
  bootAt : Nat
  bootDone : Bool
  /-- a fatal fault has been registered in this BOOT (R463) -/
  bootFatal : Bool
  /-- tick of the first arm write of an open sequence (R465) -/
  armAt : Option Nat
  /-- tick at which HIBERNATE was entered (R480), and the wake settings held through it -/
  hibAt : Nat
  wakeEn : Nat
  alarm : Nat
  /-- wake sources that have become active, as bits of GLOBAL_WAKESRC (R476) -/
  woke : Nat
  /-- the level of the WAKE pin as accepted (R379) -/
  wakePin : Bool
  /-- consecutive ticks at which each keep-alive comparator was active (R187) -/
  kaRun : Vector Nat 6
  /-- when the next keep-alive tick is due, in 1/32768 of an interface tick (R186) -/
  kaDue : Option Nat
  /-- KA2 has set its latch in the hibernation (R292) -/
  ka2Hib : Bool
  /-- the pending arming is the automatic one (R94, R468) -/
  autoPend : Bool
  /-- VIO banks below their threshold (R507) -/
  vioLow : Vector Bool 4
  /-- the 25 MHz crystal has stopped (R43, R317) -/
  xtalBad : Bool
  /-- regions of keep-alive SRAM with a double-bit error that the check in BOOT will find (R404, R462) -/
  kaBad : List SramKind
  deriving DecidableEq, Repr

/-- State control in BOOT after the first power-on: COLD and POR (R459, R480). -/
def PowerSt.reset : PowerSt where
  holdVsup := false
  holdRstn := false
  softAt := none
  causes := 3
  heldFrom := .off
  bootAt := 0
  bootDone := false
  bootFatal := false
  armAt := none
  hibAt := 0
  wakeEn := 0
  alarm := 0
  woke := 0
  wakePin := false
  kaRun := Vector.replicate 6 0
  kaDue := none
  ka2Hib := false
  autoPend := false
  vioLow := Vector.replicate 4 false
  xtalBad := false
  kaBad := []

/-! ### Online test (17) -/

/-- A comparator sweep in progress (R486): step 0 to 79, its bounds, and the codes found so far. -/
structure SweepSt where
  /-- port under sweep -/
  port : Fin 32
  /-- level of the sweep -/
  level : Nat
  /-- steps made, of 80 -/
  step : Nat
  /-- tick of the next step -/
  due : Nat
  /-- lower end of the binary search in progress -/
  lo : Nat
  /-- its upper end -/
  hi : Nat
  /-- thresholds found so far -/
  found : List Nat
  deriving DecidableEq, Repr

/-- A capture in progress (R487): the carrier has started; the edges that the active values command; cut by a gate-off. -/
structure CaptureSt where
  /-- port -/
  port : Fin 32
  /-- its carrier has begun -/
  started : Bool
  /-- absolute step at which it began -/
  startAt : Nat
  /-- edges the port model produces -/
  expected : List EdgeRec
  /-- the carrier ended early -/
  aborted : Bool
  deriving DecidableEq, Repr

/-- Online test beside its registers (R481 to R493). -/
structure TestSt where
  /-- an out-of-service request has not taken effect (R481) -/
  oosPend : Bool
  /-- tick of the last write of TEST_OOS (R481) -/
  oosAt : Nat
  /-- consecutive slow rounds in which a port's check failed (R485) -/
  adcRun : Vector Nat 32
  /-- the slow round, by its first tick, of a port's last check (R484) -/
  adcAt : Vector (Option Nat) 32
  /-- the comparator sweep in progress (R486) -/
  sweep : Option SweepSt
  /-- the PWM capture in progress (R487) -/
  capture : Option CaptureSt
  /-- the instruction in the TAP (R492) -/
  tap : TapInstr
  /-- refused unlocks since reset (R493) -/
  dbgRefusals : Nat
  /-- cuts that a CMD asked for and that wait for its RSP: HUP, HDN, HBR (R490) -/
  cutPend : Vector Bool 3
  /-- words with a double-bit error, and whether they have been rewritten since: engine memory, core SRAM (R404) -/
  badEng : List (Nat × Bool)
  badCore : List (Nat × Bool)
  /-- 0x0104 has been reported in the run of failed checks in progress (R485) -/
  adcTold : Vector Bool 32
  /-- scrubbing (R488, R489): tick from which the next SRAM word may be read, start of the last SRAM pass, whether that pass goes on, and
  tick from which the next NVM word may be read -/
  sramAt : Nat
  sramFrom : Option Nat
  sramOpen : Bool
  nvmAt : Nat
  deriving DecidableEq, Repr

/-- Online test after reset. -/
def TestSt.reset : TestSt where
  oosPend := false
  oosAt := 0
  adcRun := Vector.replicate 32 0
  adcAt := Vector.replicate 32 none
  adcTold := Vector.replicate 32 false
  sweep := none
  capture := none
  tap := .idcode
  dbgRefusals := 0
  cutPend := Vector.replicate 3 false
  badEng := []
  badCore := []
  sramAt := 0
  sramFrom := none
  sramOpen := false
  nvmAt := 0

/-! ### The whole state -/

/-- The state of the block. -/
structure State where
  /-- commands that wait, first in, first out -/
  pending : List Instr
  /-- interface ticks of 1 µs (R22) -/
  tick : Nat
  /-- the tick at which the last reset began (R228, R414) -/
  resetTick : Nat
  /-- the model's own counter of free values -/
  free : Nat
  /-- registers that do not hold their reset value (R9, R26) -/
  live : List (Nat × Word)
  /-- the interface domain's copies of engine-domain registers (R52, R57) -/
  repl : List (Nat × Word)
  /-- upper words of captured timestamps, by path and register (R58) -/
  captures : List (Nat × Word)
  /-- engine memory, by offset from 0x0030_0000 (R12, R92) -/
  engMem : List Host.Cell
  /-- NVM, by offset from 0x1000_0000 (R12, R407) -/
  nvm : List Host.Cell
  /-- NVM words of 8 bytes with a double-bit error, by offset (R404, R489) -/
  nvmBad : List Nat
  /-- the timebase and its sources (spec/01) -/
  time : TimeSt
  /-- the schedule, its variants and rotation (spec/02) -/
  sched : SchedSt
  /-- the ports (spec/03) -/
  ports : Vector PortSt 32
  /-- the comparators of each port (spec/05) -/
  cmps : Vector (Vector CmpSt 4) 32
  /-- the loop contexts (spec/04) -/
  loops : Vector LoopSt 64
  /-- sharing and Capo (spec/06) -/
  capo : CapoSt
  /-- the feed channels (spec/07) -/
  feeds : Vector FeedSt 8
  /-- the rail sequencer (spec/08) -/
  seq : SeqSt
  /-- housekeeping and throttling (spec/10) -/
  hk : HkSt
  /-- signals 0x1C0 to 0x1CF of the battery estimator (R137) -/
  battEngine : Vector Word 16
  /-- the battery estimators (spec/09) -/
  batts : Vector BattSt 2
  /-- the Harness ports (spec/11) -/
  harn : HarnSt
  /-- the queues (spec/12) -/
  queues : Vector QueueSt 64
  /-- the host ports (spec/12) -/
  host : HostSt
  /-- faults and watchdogs (spec/13) -/
  fault : FaultSt
  /-- the Saddlebag recorder and the life ledger (spec/14) -/
  saddle : RecSt
  /-- trust and update (spec/15) -/
  trust : TrustSt
  /-- the state control (spec/16) -/
  power : PowerSt
  /-- online test (spec/17) -/
  test : TestSt
  deriving DecidableEq, Repr

/-- The block right after reset: BOOT has begun (R26, R457, R462). -/
def State.reset : State where
  pending := []
  tick := 0
  resetTick := 0
  free := 0
  live := [(0x1C, 3#32)]
  repl := []
  captures := []
  engMem := []
  nvm := []
  nvmBad := []
  time := TimeSt.reset
  sched := SchedSt.reset
  ports := Vector.replicate 32 PortSt.reset
  cmps := Vector.replicate 32 (Vector.replicate 4 CmpSt.reset)
  loops := Vector.replicate 64 LoopSt.reset
  capo := CapoSt.reset
  feeds := Vector.replicate 8 FeedSt.reset
  seq := SeqSt.reset
  hk := HkSt.reset
  battEngine := Vector.replicate 16 0
  batts := Vector.replicate 2 BattSt.reset
  harn := HarnSt.reset
  queues := Vector.replicate 64 QueueSt.reset
  host := HostSt.reset
  fault := FaultSt.reset
  saddle := RecSt.reset
  trust := TrustSt.reset
  power := PowerSt.reset
  test := TestSt.reset

end Sys2Proof.Machine
end

