-- ==== Sys2Proof/Machine/Ops.lean ====
section
/-! DEFINITION. Sys2Proof/Machine/Ops.lean: the named operations over registers and memory: reading and writing a
register or a field of it (R9, R14), raising an event bit, counting, the two byte memories, and values in a pipeline (R80). -/

namespace Sys2Proof.Machine

/-! ### Sparse stores -/

/-- What key `a` holds in a store whose unlisted keys read as `d`. -/
def storeGet {α : Type} (d : Nat → α) : List (Nat × α) → Nat → α
  | [], a => d a
  | (k, v) :: m, a => if k = a then v else storeGet d m a

/-- Key `a` removed from a store. -/
def storeErase {α : Type} : List (Nat × α) → Nat → List (Nat × α)
  | [], _ => []
  | (k, v) :: m, a => if k = a then storeErase m a else (k, v) :: storeErase m a

/-- A key not yet listed, put at its place in rising order. -/
def storeInsert {α : Type} (a : Nat) (v : α) : List (Nat × α) → List (Nat × α)
  | [] => [(a, v)]
  | (k, w) :: m => if a < k then (a, v) :: (k, w) :: m else (k, w) :: storeInsert a v m

/-- Key `a` made to hold `v`: listed only when `v` is not what an unlisted key reads as. -/
def storeSet {α : Type} [DecidableEq α] (d : Nat → α) (m : List (Nat × α)) (a : Nat) (v : α) : List (Nat × α) :=
  if v = d a then storeErase m a else storeInsert a v (storeErase m a)

/-- The canonical form: keys strictly rising, no entry equal to what an unlisted key reads as. -/
def storeWf {α : Type} [DecidableEq α] (d : Nat → α) : List (Nat × α) → Bool
  | [] => true
  | (k, v) :: m => decide (v ≠ d k) && m.all (fun e => decide (k < e.1)) && storeWf d m

/-! ### Fields of a word -/

/-- The `n` bits of `w` from bit `lo` up, as a number. -/
def getBits (w : Word) (lo n : Nat) : Nat := (w >>> lo).toNat % 2 ^ n

/-- `w` with its `n` bits from bit `lo` up replaced by `v` modulo 2^n. -/
def setBits (w : Word) (lo n v : Nat) : Word :=
  let m : Word := BitVec.ofNat 32 (2 ^ n - 1) <<< lo
  (w &&& ~~~m) ||| ((BitVec.ofNat 32 v <<< lo) &&& m)

/-- An `n`-bit number read as signed (two's complement). -/
def toSigned (n v : Nat) : Int := if v < 2 ^ (n - 1) then (v : Int) else (v : Int) - (2 ^ n : Nat)

/-- A signed number as the `n` bits that hold it. -/
def ofSigned (n : Nat) (v : Int) : Nat := (v % ((2 ^ n : Nat) : Int)).toNat

/-! ### Registers (R9, R14) -/

/-- The live value of the register at address `a`. -/
def rd (s : State) (a : Nat) : Word := storeGet regReset s.live a

/-- The register at address `a` made to hold `v`. -/
def wr (s : State) (a : Nat) (v : Word) : State := { s with live := storeSet regReset s.live a v }

/-- The value of a field. -/
def fget (s : State) (f : Field) : Nat := getBits (rd s f.addr) f.lo f.width

/-- A one-bit field, or a wider one, read as not 0. -/
def bit (s : State) (f : Field) : Bool := fget s f != 0

/-- The value of a field read as signed. -/
def fgetS (s : State) (f : Field) : Int := toSigned f.width (fget s f)

/-- A field made to hold `v` (modulo its width); the other fields of its register keep their values (R15). -/
def fput (s : State) (f : Field) (v : Nat) : State := wr s f.addr (setBits (rd s f.addr) f.lo f.width v)

/-- A field made to hold a signed number. -/
def fputS (s : State) (f : Field) (v : Int) : State := fput s f (ofSigned f.width v)

/-- A one-bit field made to hold a truth value. -/
def fputB (s : State) (f : Field) (b : Bool) : State := fput s f b.toNat

/-- An event bit raised (R14, R17: a bit set by the hardware). -/
def raise (s : State) (f : Field) : State := fput s f 1

/-- A count that saturates at the largest value of its field. -/
def inc (s : State) (f : Field) : State := fput s f (min (fget s f + 1) (2 ^ f.width - 1))

/-- Bit `n` of a field. -/
def fbit (s : State) (f : Field) (n : Nat) : Bool := (fget s f).testBit n

/-- Bit `n` of a field made to hold `b`. -/
def fputBit (s : State) (f : Field) (n : Nat) (b : Bool) : State :=
  let v := fget s f
  fput s f (if b then v ||| 2 ^ n else if v.testBit n then v - 2 ^ n else v)

/-! ### Byte memories (R12, R92, R407) -/

/-- What a byte of engine memory reads as before anything is written to it after reset (R460: not retained). -/
def engDefault (_ : Nat) : Byte := 0

/-- What a byte of NVM reads as before anything is programmed: the erased value (R408). -/
def nvmDefault (_ : Nat) : Byte := 0xFF

/-- One byte of engine memory, by its offset from 0x0030_0000. -/
def engByte (s : State) (o : Nat) : Byte := storeGet engDefault s.engMem o

/-- One byte of NVM, by its offset from 0x1000_0000. -/
def nvmByte (s : State) (o : Nat) : Byte := storeGet nvmDefault s.nvm o

/-- One byte of engine memory written. -/
def engSetByte (s : State) (o : Nat) (b : Byte) : State := { s with engMem := storeSet engDefault s.engMem o b }

/-- One of `n` bytes of NVM from offset `o` up lies in a word with a double-bit error: the read fails (R404). -/
def nvmFails (s : State) (o n : Nat) : Bool := s.nvmBad.any fun w => decide (o < w + 8) && decide (w < o + n)

/-- One byte of NVM programmed. -/
def nvmSetByte (s : State) (o : Nat) (b : Byte) : State := { s with nvm := storeSet nvmDefault s.nvm o b }

/-- Words of engine memory that `p` chooses have been rewritten: one of them with a double-bit error is good once it is read back (R404). -/
def rewriteEngine (s : State) (p : Nat → Bool) : State :=
  { s with test := { s.test with badEng := s.test.badEng.map fun e => (e.1, e.2 || p e.1) } }

/-- The canonical form of both byte memories. -/
def Memory.wf (s : State) : Bool := storeWf engDefault s.engMem && storeWf nvmDefault s.nvm

/-- Four bytes, the first the least significant (R9). -/
def leWord (f : Nat → Byte) (o : Nat) : Word := f (o + 3) ++ f (o + 2) ++ f (o + 1) ++ f o

/-- Byte `k` of a word, 0 the least significant (R9). -/
def wordByte (w : Word) (k : Nat) : Byte := (w >>> (8 * k)).setWidth 8

/-- A number as `n` bytes, the least significant first (R9). -/
def leBytes (n v : Nat) : List Byte := (List.range n).map fun k => BitVec.ofNat 8 (v >>> (8 * k))

/-- Bytes, the least significant first, as a number. -/
def ofLeBytes : List Byte → Nat
  | [] => 0
  | b :: bs => b.toNat + 256 * ofLeBytes bs

/-- A word of engine memory. -/
def engWord (s : State) (o : Nat) : Word := leWord (engByte s) o

/-- A word of NVM. -/
def nvmWord (s : State) (o : Nat) : Word := leWord (nvmByte s) o

/-- A list of bytes written to engine memory from offset `o` up. -/
def engSetBytes (s : State) (o : Nat) : List Byte → State
  | [] => s
  | b :: bs => engSetBytes (engSetByte s o b) (o + 1) bs

/-- A list of bytes programmed into NVM from offset `o` up. -/
def nvmSetBytes (s : State) (o : Nat) : List Byte → State
  | [] => s
  | b :: bs => nvmSetBytes (nvmSetByte s o b) (o + 1) bs

/-- A word of engine memory written. -/
def engSetWord (s : State) (o : Nat) (w : Word) : State := engSetBytes s o ((List.range 4).map (wordByte w))

/-- `n` bytes of NVM from offset `o` up. -/
def nvmBytes (s : State) (o n : Nat) : List Byte := (List.range n).map fun k => nvmByte s (o + k)

/-! ### Values in the engine pipeline (R80) -/

/-- The results that a value in the pipeline still holds, newest first, each with the first fret that receives it. -/
def Piped.results {α : Type} (p : Piped α) : List (Nat × α) := (p.ready, p.cur) :: p.due

/-- What a lane word at absolute fret `t` receives: the newest result that is usable there. -/
def Piped.get {α : Type} (p : Piped α) (t : Nat) : α :=
  match p.results.find? fun e => decide (e.1 ≤ t) with
  | some e => e.2
  | none => p.old

/-- A result written at absolute fret `t`, usable `lat` frets later; those not yet usable at `t` stay due. -/
def Piped.put {α : Type} (p : Piped α) (t lat : Nat) (v : α) : Piped α :=
  ⟨p.get t, v, t + lat, p.results.takeWhile fun e => decide (t < e.1)⟩

/-- A result settled at once. -/
def Piped.now {α : Type} (v : α) : Piped α := ⟨v, v, 0, []⟩

/-! ### Free values -/

/-- The number of the next free value, and the state that has used it. -/
def fresh (s : State) : Nat × State := (s.free, { s with free := s.free + 1 })

/-! ### The device state (R457) -/

/-- The state of R457 by its code. -/
def devState (s : State) : DevState := DevState.ofCode (fget s Fld.GLOBAL_STATE_STATE)

/-- The device state changed in GLOBAL_STATE, with nothing else. -/
def setDev (s : State) (d : DevState) : State := fput s Fld.GLOBAL_STATE_STATE d.code

/-! ### Frets, angles and timestamps (R21, R27, R51, R52) -/

/-- The absolute fret of fret `f` of the round in progress. -/
def absFret (s : State) (f : Nat) : Nat := s.time.base + f

/-- The effective fleet angle at fret `f` of the round in progress: it moves evenly over the cycle and never steps (R50). -/
def fleetAt (s : State) (f : Nat) : Nat :=
  let k := s.time.round * s.time.cfg.rlen + f
  (((s.time.fleetBase : Int) + s.time.fleetStep * (k : Int) / (s.time.cfg.n : Int)) % ((2 ^ 32 : Nat) : Int)).toNat

/-- The shared angle at the start of fret `f` of the round in progress (R27, R28, R42). -/
def angleAt (s : State) (f : Nat) : Nat :=
  let k := s.time.round * s.time.cfg.rlen + f
  (k * 2 ^ 32 / s.time.cfg.n + fleetAt s f) % 2 ^ 32

/-- The timestamp of fret `f` of the round in progress (R21, R51). -/
def stampE (s : State) (f : Nat) : Nat := (s.time.cycleCount % 2 ^ 40) * 2 ^ 24 + angleAt s f / 2 ^ 8

/-- A value of the replica that the interface domain reads (R52, R57, R130). -/
def rdRepl (s : State) (a : Nat) : Word := storeGet regReset s.repl a

/-- The timestamp of an event of the interface domain: the replica at that moment (R52). -/
def stampI (s : State) : Nat := (rdRepl s Reg.TIME_TS_HI).toNat * 2 ^ 32 + (rdRepl s Reg.TIME_TS_LO).toNat

/-- A 64-bit number written to a pair of registers. -/
def wr64 (s : State) (lo hi : Nat) (v : Nat) : State :=
  wr (wr s lo (BitVec.ofNat 32 v)) hi (BitVec.ofNat 32 (v / 2 ^ 32))

/-- A 64-bit number read from a pair of registers. -/
def rd64 (s : State) (lo hi : Nat) : Nat := (rd s hi).toNat * 2 ^ 32 + (rd s lo).toNat

end Sys2Proof.Machine
end

