-- ==== Sys2Proof/Machine/Crc.lean ====
section
/-! DEFINITION. Sys2Proof/Machine/Crc.lean: the check sums of the spec: CRC-32 (R61), the CRC-16 of the bulk port (R359), the CRC-8 of the host watchdog (R396)
and the packet error code of the two-wire port (R367). -/

namespace Sys2Proof.Machine

/-- One bit of the reflected CRC-32 (R61). -/
def crc32Bit (c : Word) : Word := if c.getLsbD 0 then (c >>> 1) ^^^ 0xEDB88320 else c >>> 1

/-- One byte of the CRC-32. -/
def crc32Byte (c : Word) (b : Byte) : Word :=
  (List.range 8).foldl (fun c _ => crc32Bit c) (c ^^^ b.setWidth 32)

/-- CRC-32 of a byte string (R61). -/
def crc32 (bs : List Byte) : Word := ~~~ (bs.foldl crc32Byte 0xFFFFFFFF)

/-- One byte of a CRC-8 with polynomial `p`, most significant bit first. -/
def crc8Byte (p c b : Byte) : Byte :=
  (List.range 8).foldl (fun c _ => if c.getLsbD 7 then (c <<< 1) ^^^ p else c <<< 1) (c ^^^ b)

/-- The CRC-8 of the host watchdog: polynomial 0x1D, initial value 0xFF (R396). -/
def crc8Hwd (bs : List Byte) : Byte := bs.foldl (crc8Byte 0x1D) 0xFF

/-- The packet error code of the two-wire port: polynomial 0x07, initial value 0x00 (R367). -/
def crc8Pec (bs : List Byte) : Byte := bs.foldl (crc8Byte 0x07) 0x00

/-- One byte of the CRC-16 with polynomial 0x1021, most significant bit first. -/
def crc16Byte (c : BitVec 16) (b : Byte) : BitVec 16 :=
  (List.range 8).foldl (fun c _ => if c.getLsbD 15 then (c <<< 1) ^^^ 0x1021 else c <<< 1) (c ^^^ (b.setWidth 16 <<< 8))

/-- The CRC-16 of the bulk port: initial value 0xFFFF (R359). -/
def crc16 (bs : List Byte) : BitVec 16 := bs.foldl crc16Byte 0xFFFF

end Sys2Proof.Machine
end

