-- ==== Sys2Proof/Machine/Levels.lean ====
section
/-! DEFINITION. Sys2Proof/Machine/Levels.lean: threshold codes, hysteresis, the two sides of a comparator and digital filters,
as the comparators of the ports (R168, R169), the feeds (R226) and the rails (R247) share them. -/

namespace Sys2Proof.Machine

/-- The voltage at the comparator that a threshold code stands for: steps of 781.25 µV (R168). -/
def codeVolt (code : Nat) : Rat := (code : Rat) / 1280

/-- The hysteresis of a HYST code at the comparator, volts (R169). -/
def hystVolt (h : Nat) : Rat := match h with | 0 => 0 | 1 => 1 / 200 | 2 => 1 / 100 | _ => 1 / 50

/-- The over side for an input `x`, threshold `thr` and hysteresis `h`, from its output before (R169). -/
def overSide (was : Bool) (x thr h : Rat) : Bool := if was then !decide (x < thr - h) else decide (thr < x)

/-- The under side for an input `x`, threshold `thr` and hysteresis `h`, from its output before (R169). -/
def underSide (was : Bool) (x thr h : Rat) : Bool := if was then !decide (thr + h < x) else decide (x < thr)

/-- The outcome of a comparison since moment `t`; `len` is the length of its filter (R23). -/
def LevelSt.put (x : LevelSt) (len t : Nat) (b : Bool) : LevelSt :=
  if b = x.raw then x else ⟨b, t, if x.since + len ≤ t then x.raw else x.out⟩

/-- The output of a filter of `len` in both directions at moment `t` (R227: the VS window). -/
def LevelSt.both (x : LevelSt) (len t : Nat) : Bool := if x.since + len ≤ t then x.raw else x.out

/-- The output of a filter of `len` at moment `t`, which falls with the comparison (R23). -/
def LevelSt.rise (x : LevelSt) (len t : Nat) : Bool := x.raw && decide (x.since + len ≤ t)

end Sys2Proof.Machine
end

