-- ==== Sys2Proof/Machine/Operands.lean ====
section
/-! DEFINITION. Sys2Proof/Machine/Operands.lean: every form of number the engine computes with: value words and their
rounding (R132, R133, R134), the exact pass sum (R135), the integrator format (R136), and the fields of a lane word (R78). -/

namespace Sys2Proof.Machine

/-- 2 to an integer power, exactly. -/
def pow2 (e : Int) : Rat := if 0 ≤ e then ((2 ^ e.toNat : Nat) : Rat) else 1 / ((2 ^ (-e).toNat : Nat) : Rat)

/-- Rounded half up to an integer: floor(v + 1/2). -/
def halfUp (v : Rat) : Int := (v + 1 / 2).floor

/-- The mantissa of a value word (R132). -/
def vwM (w : Word) : Int := toSigned 18 (getBits w 0 18)

/-- The exponent of a value word (R132). -/
def vwE (w : Word) : Int := toSigned 6 (getBits w 18 6)

/-- The value a value word encodes: M × 2^(E − 17) (R132). -/
def vwVal (w : Word) : Rat := (vwM w : Rat) * pow2 (vwE w - 17)

/-- A value word from its mantissa and exponent. -/
def vwPack (m e : Int) : Word := BitVec.ofNat 32 (ofSigned 18 m + ofSigned 6 e * 2 ^ 18)

/-- Bits [31:24] of a value word are reserved (R132, R166). -/
def vwReserved (w : Word) : Bool := getBits w 24 8 != 0

/-- The mantissa of `v` at exponent `e`, when it fits (R133). -/
def vwFit (v : Rat) (e : Int) : Option Int :=
  let m := halfUp (v * pow2 (17 - e))
  if -131072 ≤ m ∧ m ≤ 131071 then some m else none

/-- The exponents −32 to `emax`, in rising order (R133). -/
def vwExps (emax : Int) : List Int := (List.range (emax + 33).toNat).map fun (k : Nat) => (k : Int) - 32

/-- `v` at exponent `e`, saturated where it does not fit; a zero mantissa is stored with E = −32 (R133, R134, R135). -/
def vwAt (v : Rat) (e : Int) : Word :=
  match vwFit v e with
  | some 0 => vwPack 0 (-32)
  | some m => vwPack m e
  | none => if v < 0 then vwPack (-131072) e else vwPack 131071 e

/-- `v` rounded into a value word under the exponent ceiling `emax`, and whether it saturated (R133, R134). -/
def vwRound (emax : Int) (v : Rat) : Word × Bool :=
  match (vwExps emax).find? fun e => (vwFit v e).isSome with
  | some e => (vwAt v e, false)
  | none => (vwAt v emax, true)

/-- Two results that share one exponent: the smallest for which every result that is not 0 fits (R135); and whether one saturated. -/
def vwRound2 (emax : Int) (v w : Rat) : Word × Word × Bool :=
  match (vwExps emax).find? fun e => (v == 0 || (vwFit v e).isSome) && (w == 0 || (vwFit w e).isSome) with
  | some e => (vwAt v e, vwAt w e, false)
  | none => (vwAt v emax, vwAt w emax, true)

/-- A result and its negation, sharing one exponent: the smallest at which both fit (R131, R135); and whether one saturated. -/
def vwRoundNeg (emax : Int) (v : Rat) : Word × Word × Bool :=
  let fits := fun (e : Int) => match vwFit v e with | some m => m != -131072 | none => false
  let e := ((vwExps emax).find? fits).getD emax
  let w := vwAt v e
  let m := -vwM w
  (w, vwPack (min m 131071) (vwE w), !fits e)

/-- A value rounded under the largest exponent a value word has: quantities with no EMAX of their own
(DEDUCED from R132 and R133: log entry 6). -/
def vwOf (v : Rat) : Word := (vwRound 31 v).1

/-- The largest value a value word holds (the reset value `Max` of CAPO_LCAP and CAPO_HOSTCAP). -/
def vwMax : Word := vwPack 131071 31

/-- A term of a pass sum: its exact value and the exponent of its least significant bit (R135). -/
structure Term where
  val : Rat
  lsb : Int
  deriving DecidableEq, Repr

/-- A value word as a term (R135 step 2): its weight is that of the exponent as written, the smallest or not (DESIGN CHOICE: log entry 174). -/
def Term.ofVw (w : Word) : Term := ⟨vwVal w, vwE w - 17⟩

/-- The exact product of two value words as a term (R135 step 2). -/
def Term.prod (a b : Word) : Term := ⟨vwVal a * vwVal b, vwE a + vwE b - 34⟩

/-- A term with its sign turned. -/
def Term.neg (t : Term) : Term := ⟨-t.val, t.lsb⟩

/-- The integrator as a term: MI × 2^(EI − 31) (R136). -/
def Term.ofMi (mi ei : Int) : Term := ⟨(mi : Rat) * pow2 (ei - 31), ei - 31⟩

/-- The largest weight of the terms (R135 step 2). -/
def maxLsb : List Term → Int
  | [] => -49
  | t :: ts => if ts.isEmpty then t.lsb else max t.lsb (maxLsb ts)

/-- The sum of terms of a pass whose largest weight has exponent `w`, before its last rounding (R135 steps 3 and 4). -/
def sumAt (w : Int) (ts : List Term) : Rat :=
  let u := pow2 (w - 12)
  ts.foldl (fun acc t => acc + (halfUp (t.val / u) : Rat) * u) 0

/-- The sum of a pass before its last rounding (R135 steps 2 to 4). -/
def passSum (ts : List Term) : Rat := sumAt (maxLsb ts) ts

/-- A value in the integrator format, rounded half up to a multiple of 2^(EI − 31) (R136). -/
def toMi (ei : Int) (v : Rat) : Int := halfUp (v * pow2 (31 - ei))

/-- `v` held inside [lo, hi]. -/
def clipR (v lo hi : Rat) : Rat := if v < lo then lo else if hi < v then hi else v

/-- `v` held inside [lo, hi]. -/
def clipI (v lo hi : Int) : Int := if v < lo then lo else if hi < v then hi else v

/-- A lane word of the structure image or of the program area, by its fields (R78). -/
def laneOf (w : Word) : LaneWord :=
  ⟨(w >>> 26).setWidth 6, ⟨(w >>> 19).setWidth 7, (w >>> 14).setWidth 5, w.setWidth 14⟩⟩


end Sys2Proof.Machine
end

