-- ==== Sys2Proof/Machine/Gates.lean ====
section
/-! DEFINITION. Sys2Proof/Machine/Gates.lean: standing entries and what they cover (R387, R388), the inert state and the
driver enable of the ports (R117, R118, R119), and the summary of the fault block. -/

namespace Sys2Proof.Machine

/-- Standing entry `e` is valid (R387). -/
def entryValid (s : State) (e : Nat) : Bool := bit s (Fld.FAULT_ENTRY_CODE_VALID e)

/-- The valid entries, lowest first. -/
def validEntries (s : State) : List Nat := (List.range 64).filter (entryValid s)

/-- The courses that an entry of this scope covers, as a mask (R387). -/
def scopeCourses (s : State) (kind idx : Nat) : Nat :=
  match kind with
  | 2 => 2 ^ idx
  | 5 => fget s (Fld.BATT_CHGMASK_CHGMASK idx)
  | 6 => fget s (Fld.HK_G_CRS_CRS idx)
  | _ => 0

/-- The course of a port (R123). -/
def courseOf (s : State) (p : Nat) : Nat := fget s (Fld.PORT_CFG_COURSE p)

/-- A port is used by the image (R2, R129). -/
def portUsed (s : State) (p : Nat) : Bool := bit s (Fld.PORT_CFG_ENABLE p)

/-- An entry of this scope covers port `p` (R387, R388). -/
def scopeCoversPort (s : State) (kind idx p : Nat) : Bool :=
  match kind with
  | 0 => true
  | 1 => idx == p
  | _ => (scopeCourses s kind idx).testBit (courseOf s p)

/-- Kind and index of every valid entry of a class below fatal (`true`) or of any class. -/
def scopes (s : State) (containedOnly : Bool) : List (Nat × Nat) :=
  ((validEntries s).filter fun e => !containedOnly || fget s (Fld.FAULT_ENTRY_CODE_CLASS e) == 1).map fun e =>
    (fget s (Fld.FAULT_ENTRY_CODE_KIND e), fget s (Fld.FAULT_ENTRY_CODE_INDEX e))

/-- A contained fault covers port `p` or its course (R117, R388). -/
def portCovered (s : State) (p : Nat) : Bool := (scopes s true).any fun k => scopeCoversPort s k.1 k.2 p

/-- A contained fault covers course `c` (R144, R388). -/
def courseCovered (s : State) (c : Nat) : Bool := (scopes s true).any fun k => (scopeCourses s k.1 k.2).testBit c

/-- A contained fault of port scope covers port `p` (R144). -/
def portScopeCovered (s : State) (p : Nat) : Bool := (scopes s true).any fun k => k.1 == 1 && k.2 == p

/-- A fatal entry is valid (R393). -/
def fatalValid (s : State) : Bool := (validEntries s).any fun e => fget s (Fld.FAULT_ENTRY_CODE_CLASS e) == 2

/-- The active variant names port `p` (R2, R91). -/
def portNamed (s : State) (p : Nat) : Bool :=
  (s.sched.names.toList.getD (fget s Fld.SCHED_STATUS_VACT) 0).testBit p

/-- Port `p` is out of service (R481). -/
def portOos (s : State) (p : Nat) : Bool := (fget s Fld.TEST_OOS_ACT_ACT).testBit p

/-- Course `c` is muted in the round in progress (R306). -/
def courseMuted (s : State) (c : Nat) : Bool := s.hk.muted.testBit c

/-- A TOTEM_PFC port (R123). -/
def isPfc (s : State) (p : Nat) : Bool := fget s (Fld.PORT_CFG_TOPO p) == 7

/-- A TOTEM_PFC port is in its zero-crossing window or lacks grid lock (R117, R125). -/
def portZc (s : State) (p : Nat) : Bool :=
  isPfc s p && (bit s (Fld.PORT_STATUS_ZC p) || !bit s Fld.TIME_STATUS_MAINS_LOCK)

/-- PnnEN is high (R119); `cov` says whether a contained or fatal fault covers the port. -/
def enWanted (s : State) (cov : Bool) (p : Nat) : Bool :=
  portUsed s p && devState s == .armed && portNamed s p && !portOos s p && !cov

/-- A condition of R117 holds for port `p`, or the inert interval of R451. -/
def inertNow (s : State) (cov : Bool) (p : Nat) : Bool :=
  !portNamed s p || devState s != .armed || portOos s p || cov || courseMuted s (courseOf s p) || portZc s p ||
    s.trust.inert

/-- The four gate outputs low at once (R109 invariant 3): at absolute step `t`. -/
def gatesLow (t : Nat) (g : Vector GateSt 4) : Vector GateSt 4 :=
  g.map fun x => { x with high := false, offAt := if x.high then t else x.offAt, rise := none, fall := none, cmd := false }

/-- The code of PORT_STATUS.STATE (R130). -/
def portCode (s : State) (cov : Bool) (p : Nat) (pt : PortSt) : Nat :=
  if !portUsed s p then 0
  else if portOos s p then 5
  else if cov then 6
  else if pt.settle.isSome then 2
  else if courseMuted s (courseOf s p) then 4
  else if pt.active then 3
  else 1

/-- A gate-off cuts the carrier that is captured (R487, R494). -/
def abortCapture (s : State) (p : Fin 32) : State :=
  match s.test.capture with
  | some c =>
    if c.port = p && c.started then
      fput { s with test := { s.test with capture := some { c with aborted := true } } } Fld.TEST_PWM_STAT_ABORTED 1
    else s
  | none => s

/-- A port that leaves the active state leaves the sum of its course in the round in progress (R222). -/
def leaveSum (s : State) (p : Fin 32) : State :=
  { s with capo := { s.capo with sumNow := upd s.capo.sumNow p fun _ => 0, cntNow := upd s.capo.cntNow p fun _ => 0 } }

/-- Port `p` brought to what the rules now demand: PnnEN and its settle time, which EN_SETTLE_END ends whatever its length (R119, log
entry 133), the inert state (R117, R118), PORT_STATUS. -/
def refreshPort (cs fs : List (Nat × Nat)) (s : State) (p : Fin 32) : State :=
  let cov := cs.any fun k => scopeCoversPort s k.1 k.2 p
  let pt := s.ports.get p
  let en := enWanted s (cov || !fs.isEmpty) p
  let was := bit s (Fld.PORT_STATUS_EN p)
  let settle := if !en then none
    else if was then pt.settle
    else some (s.tick + 4 * fget s (Fld.PORT_DRV_EN_SETTLE p))
  let inert := inertNow s cov p || settle.isSome
  let pt' : PortSt := { pt with
    settle := settle
    enLowAt := if was && !en then s.time.base else pt.enLowAt
    active := pt.active && !inert
    leftIn := if pt.active && inert then some s.time.base else pt.leftIn
    zcExit := if inert then none else pt.zcExit
    gates := if inert then gatesLow (64 * s.time.base) pt.gates else pt.gates }
  let s1 := fputB { s with ports := s.ports.set p pt' } (Fld.PORT_STATUS_EN p) en
  let s2 := fput s1 (Fld.PORT_STATUS_STATE p) (portCode s1 cov p pt')
  if pt.active && inert then leaveSum (abortCapture (raise s2 (Fld.PORT_EVENT_INERT_ENTER p)) p) p else s2

/-- Every port brought to what the rules now demand (R117 to R119). -/
def refreshPorts (s : State) : State :=
  let cs := scopes s true
  let fs := (validEntries s).filterMap fun e =>
    if fget s (Fld.FAULT_ENTRY_CODE_CLASS e) == 2 then some (0, 0) else none
  (List.finRange 32).foldl (refreshPort cs fs) s

/-- FAULT_STATUS brought up to date: SAFE, FULL and the counts of valid entries (R387, R390, R406). -/
def refreshFaultStatus (s : State) : State :=
  let v := validEntries s
  let n := fun (c : Nat) => (v.filter fun e => fget s (Fld.FAULT_ENTRY_CODE_CLASS e) == c).length
  let s1 := fputB s Fld.FAULT_STATUS_SAFE (devState s == .safe)
  let s2 := fputB s1 Fld.FAULT_STATUS_FULL (v.length == 64)
  let s3 := fput s2 Fld.FAULT_STATUS_NCONT (n 1)
  fput s3 Fld.FAULT_STATUS_NFATAL (n 2)

end Sys2Proof.Machine
end

