-- ==== Sys2Proof/Machine/Rails.lean ====
section
/-! DEFINITION. Sys2Proof/Machine/Rails.lean: the monitors of the rails (spec/08): the good, fallen and over results of R247 to
R249 and the status they show. -/

namespace Sys2Proof.Machine

/-- The states of a rail (R251). -/
inductive RailState where
  | unused | off | wait | rising | good | predown | falling | fault
  deriving DecidableEq, Repr

/-- The code of a rail state (R251). -/
def RailState.code : RailState → Nat
  | .unused => 0 | .off => 1 | .wait => 2 | .rising => 3 | .good => 4 | .predown => 5 | .falling => 6 | .fault => 7

/-- The rail state of a code (R251). -/
def RailState.ofCode : Nat → RailState
  | 1 => .off | 2 => .wait | 3 => .rising | 4 => .good | 5 => .predown | 6 => .falling | 7 => .fault | _ => .unused

/-- The state of rail `r`. -/
def railState (s : State) (r : Fin 16) : RailState := RailState.ofCode (fget s (Fld.SEQ_RSTAT_STATE r))

/-- The monitor of rail `r`. -/
def railOf (s : State) (r : Fin 16) : RailSt := s.seq.rails.get r

/-- The monitor of a rail changed. -/
def setRail (s : State) (r : Fin 16) (f : RailSt → RailSt) : State := { s with seq := { s.seq with rails := upd s.seq.rails r f } }

/-- A rail in native mode (R247). -/
def railNative (s : State) (r : Fin 16) : Bool := !bit s (Fld.SEQ_RCFG_MODE r)

/-- The under-side DAC of a rail holds LO: its good result is judged, not its fallen result (R248). -/
def holdsLo : RailState → Bool
  | .wait | .rising | .good | .predown => true
  | _ => false

/-- The rails are monitored: IDLE, ARMED, SAFE or TEST (R250). -/
def seqPowered (s : State) : Bool :=
  devState s == .idle || devState s == .armed || devState s == .safe || devState s == .test

/-- The monitor of a rail is powered: the rail is enabled, in a state of R250. -/
def railOn (s : State) (r : Fin 16) : Bool := seqPowered s && bit s (Fld.SEQ_RCFG_EN r)

/-- Ticks from the first sample that disagrees to the change of a filtered result (R249): the GF-th sample is that of the tick GF − 1 later. -/
def railLen (s : State) (r : Fin 16) : Nat := fget s (Fld.SEQ_ROFF_GF r) - 1

/-- The filtered good result (R248, R249). -/
def goodNow (s : State) (r : Fin 16) : Bool :=
  (!railNative s r || holdsLo (railState s r)) && (railOf s r).good.both (railLen s r) s.tick

/-- The filtered fallen result (R248, R249). -/
def fallenNow (s : State) (r : Fin 16) : Bool :=
  (!railNative s r || !holdsLo (railState s r)) && (railOf s r).fallen.both (railLen s r) s.tick

/-- The filtered over side, in native mode only (R248, R249). -/
def overNow (s : State) (r : Fin 16) : Bool := railNative s r && (railOf s r).high.both (railLen s r) s.tick

/-- SEQ_RSTAT with the filtered results of this moment (R272). -/
def railStatus (s : State) (r : Fin 16) : Word :=
  let b := fun (w : Word) (k : Nat) (x : Bool) => setBits w k 1 x.toNat
  b (b (b (rd s (Reg.SEQ_RSTAT r)) 4 (goodNow s r)) 5 (fallenNow s r)) 6 (overNow s r)

/-- SEQ_SUMMARY with the filtered good results of this moment (R272). -/
def seqSummary (s : State) : Word :=
  (List.finRange 16).foldl (fun w r => setBits w (16 + r.val) 1 (goodNow s r).toNat) (rd s Reg.SEQ_SUMMARY)

/-- A rail is held to be good: it collapses when its filtered good result becomes inactive (R261). -/
def mustStay (s : State) (r : Fin 16) : Bool := railState s r == .good || railState s r == .predown

/-- The filtered results of a rail put into its status, and whether it has been good (R249, R261, R272). -/
def showRail (s : State) (r : Fin 16) : State :=
  let s1 := fputB (fputB s (Fld.SEQ_RSTAT_GOOD r) (goodNow s r)) (Fld.SEQ_RSTAT_FALLEN r) (fallenNow s r)
  let s2 := fputBit (fputB s1 (Fld.SEQ_RSTAT_OVER r) (overNow s r)) Fld.SEQ_SUMMARY_GOOD r (goodNow s r)
  setRail s2 r fun x => { x with wasGood := (mustStay s r && x.wasGood) || goodNow s r }

/-- The analogue outputs of a rail under the voltage at SQnnMON, or in power-good mode its level: over side, under side, the raw
good result and the raw fallen result (R247, R248); good lies strictly between LO and HI. -/
def railRaw (s : State) (r : Fin 16) (mon : Rat) (pin : Bool) : Bool × Bool × Bool × Bool :=
  let x := railOf s r
  if railNative s r then
    let h := hystVolt (fget s (Fld.SEQ_RCFG_HYST r))
    let lo := if holdsLo (railState s r) then fget s (Fld.SEQ_RTHR_LO r) else fget s (Fld.SEQ_ROFF_OFF r)
    let hi := codeVolt (fget s (Fld.SEQ_RTHR_HI r))
    let above := overSide x.overOn mon hi h
    let below := underSide x.underOn mon (codeVolt lo) h
    (above, below, !above && !below && decide (codeVolt lo < mon) && decide (mon < hi), below)
  else
    let g := pin == bit s (Fld.SEQ_RCFG_PGPOL r)
    (false, false, g, !g)

/-- The monitor of a rail told: SQnnMON stands at `mon` volts and reads as `pin`, compared so for `held` ticks, but not since before
it was last told (R247, R249). -/
def senseRail (s : State) (r : Fin 16) (mon : Rat) (pin : Bool) (held : Nat) : State :=
  let x := railOf s r
  let t := max (s.tick - held) x.told
  let n := railLen s r + 1
  let c := railRaw s r mon pin
  showRail (setRail s r fun x => { x with
    mon := mon, pin := pin, told := s.tick, overOn := c.1, underOn := c.2.1
    good := x.good.put n t c.2.2.1, fallen := x.fallen.put n t c.2.2.2, high := x.high.put n t c.1 }) r

/-- The under-side DAC of a rail has changed, or its configuration: the filters of the good and fallen results restart (R248); the hysteresis
of the under side starts from the output that it had under the old threshold (DESIGN CHOICE: log entry 179). A monitor without power has
every output inactive (R250). -/
def restartRail (s : State) (r : Fin 16) : State :=
  let x := railOf s r
  if railOn s r then
    let c := railRaw s r x.mon x.pin
    setRail s r fun x => { x with
      told := s.tick, overOn := c.1, underOn := c.2.1, high := x.high.put (railLen s r + 1) s.tick c.1
      good := ⟨c.2.2.1, s.tick, false⟩, fallen := ⟨c.2.2.2, s.tick, false⟩ }
  else
    let off : LevelSt := ⟨false, s.tick, false⟩
    setRail s r fun x => { x with told := s.tick, overOn := false, underOn := false, high := off, good := off, fallen := off }

/-- The monitors of the enabled rails are powered up at the end of BOOT: their filters start (R250). -/
def powerRails (s : State) : State := (List.finRange 16).foldl (fun s r => showRail (restartRail s r) r) s

/-- The state of a rail changed: SQnnEN follows (R251); a native rail whose under-side DAC changes restarts its filters (R248). -/
def putRail (s : State) (r : Fin 16) (t : RailState) : State :=
  let en := t == .rising || t == .good || t == .predown
  let lo := holdsLo (railState s r)
  let s1 := fput s (Fld.SEQ_RSTAT_STATE r) t.code
  let s2 := fputBit (fputB s1 (Fld.SEQ_RSTAT_EN r) en) Fld.SEQ_SUMMARY_EN r en
  let s3 := if railNative s r && lo != holdsLo t then restartRail s2 r else s2
  showRail (setRail s3 r fun x => { x with wasGood := if mustStay s r then x.wasGood else goodNow s r }) r

end Sys2Proof.Machine
end

