-- ==== Sys2Proof/Machine/Records.lean ====
section
/-! DEFINITION. Sys2Proof/Machine/Records.lean: what every reported fault counts (R386), the pending queue of the
Saddlebag (R413) and the payloads of its records (R414). -/

namespace Sys2Proof.Machine

/-- A list of bytes with `bs` put over it from place `p` on. -/
def bytesPut (l : List Byte) (p : Nat) (bs : List Byte) : List Byte := l.take p ++ bs ++ l.drop (p + bs.length)

/-- A payload of 36 bytes from its fields: place, number of bytes, value (R414: unlisted bytes are 0). -/
def mkPayload (fs : List (Nat × Nat × Nat)) : List Byte :=
  fs.foldl (fun l f => bytesPut l f.1 (leBytes f.2.1 f.2.2)) (List.replicate 36 0)

/-- A counter of the life ledger, by its offset in the ledger image (R424, R427). -/
def ledgerGet (s : State) (off : Nat) : Nat := (storeGet (fun _ => (0 : Word)) s.saddle.ledger off).toNat

/-- The counter group of an offset, in the row order of R424. -/
def ledgerGroup (off : Nat) : Nat :=
  if 0x200 ≤ off then
    let o := (off - 0x200) % 0xC0
    if o < 0x40 then 0 else if o < 0x80 then 1 else if o < 0xA0 then 2 else 3
  else if off < 0x80 then 4 else if off < 0xA0 then 5 else if off < 0xE0 then 6 else if off < 0xF0 then 7
  else if off < 0x100 then 8 else 9

/-- A ledger counter advanced by `n`, saturating (R424); the saturation flag of its group is kept (R431). -/
def ledgerAdd (s : State) (off n : Nat) : State :=
  let v := ledgerGet s off + n
  let top := 2 ^ 32 - 1
  { s with saddle := { s.saddle with
    ledger := storeSet (fun _ => (0 : Word)) s.saddle.ledger off (BitVec.ofNat 32 (min v top))
    satur := if top ≤ v then s.saddle.satur ||| 2 ^ ledgerGroup off else s.saddle.satur } }

/-- The ledger counter of the faults of a block (R427). -/
def faultLedgerOff (blk : Nat) : Nat := 0xA0 + 4 * (blk - 1)

/-- The counts and flags of R386 for a fault of class `cls` (0 corrected, 1 contained, 2 fatal, R385) stamped `ts`. -/
def countFault (s : State) (code cls kind idx ts : Nat) : State :=
  let b := code / 256
  let s1 := inc s (Fld.FAULT_BCNT_COUNT (b - 1))
  let s2 := fput (fput (fput (fput s1 Fld.FAULT_LAST_CODE code) Fld.FAULT_LAST_CLASS cls) Fld.FAULT_LAST_KIND kind)
    Fld.FAULT_LAST_INDEX idx
  let s3 := wr64 s2 Reg.FAULT_LAST_TS_LO Reg.FAULT_LAST_TS_HI ts
  let s4 := raise s3 (match cls with | 0 => Fld.FAULT_EVENT_CORR | 1 => Fld.FAULT_EVENT_CONT | _ => Fld.FAULT_EVENT_FATAL)
  let s5 := if cls = 0 then fputBit s4 Fld.FAULT_CORR_BLK (b - 1) true else s4
  ledgerAdd s5 (faultLedgerOff b) 1

/-- The number of pending records, as REC_STATUS.PEND reports it (R413, R433). -/
def syncPending (s : State) : State :=
  fput { s with saddle := { s.saddle with full := s.saddle.full && decide (128 ≤ s.saddle.pending.length) } }
    Fld.REC_STATUS_PEND s.saddle.pending.length

/-- A record is lost to a full queue (R413): counted, with fault 0x0D01 once per entry into the full condition. -/
def recordLost (s : State) : State :=
  let s1 := raise (inc s Fld.REC_CNT_LOST) Fld.REC_EVENT_LOST
  if s1.saddle.full then s1
  else countFault { s1 with saddle := { s1.saddle with full := true } } 0x0D01 0 0 0 (stampI s1)

/-- The place of the youngest pending record of severity below `sev` (R413). -/
def youngestBelow (sev : Nat) (l : List Record) : Option Nat :=
  ((List.range l.length).filter fun i => match l[i]? with | some r => decide (r.sev < sev) | none => false).getLast?

/-- REC_WALL as a record carries it (R410): a record formed in the tick of a host write carries the old value (R431). -/
def recWall (s : State) : Nat :=
  match s.saddle.wallWas with
  | some (t, w) => if t = s.tick then w.toNat else (rd s Reg.REC_WALL).toNat
  | none => (rd s Reg.REC_WALL).toNat

/-- A record formed (R410, R413): stamped `ts`, with REC_WALL of this moment. -/
def pushRecord (s : State) (typ sev code ts : Nat) (payload : List Byte) : State :=
  let r : Record := ⟨typ, sev, code, ts, recWall s, payload⟩
  let q := s.saddle.pending
  if q.length < 128 then syncPending { s with saddle := { s.saddle with pending := q ++ [r] } }
  else if 2 ≤ sev then
    match youngestBelow sev q with
    | some i => recordLost { s with saddle := { s.saddle with pending := q.eraseIdx i ++ [r] } }
    | none => recordLost s
  else recordLost s

/-- The SEV of a Fault record: its class (R410, R414). -/
def clsSev (cls : Nat) : Nat := cls + 1

/-- The sequencer snapshot of R265, as the eight bytes of it. -/
def seqSnapshot (s : State) : Nat :=
  let st := rd s Reg.SEQ_STATUS
  let flt := (List.range 16).foldl (fun m r => if fget s (Fld.SEQ_RSTAT_STATE r) = 7 then m + 2 ^ r else m) 0
  getBits st 0 5 + fget s Fld.SEQ_STATUS_CUR * 2 ^ 8 + fget s Fld.SEQ_SUMMARY_EN * 2 ^ 16 +
    getBits (seqSummary s) 16 16 * 2 ^ 32 + flt * 2 ^ 48

/-- The time of a record of this code is noted, unless a full queue drops the record (R386, R413). -/
def noteRec (s : State) (code : Nat) : State :=
  if s.saddle.pending.length < 128 then
    { s with fault := { s.fault with lastRec := (code, s.tick) :: s.fault.lastRec.filter fun e => e.1 != code } }
  else s

/-- A record of a corrected fault, held off by HOLDOFF × 10 ms per code (R386, R414); one that a full queue drops holds nothing off. -/
def correctedRecord (s : State) (code kind idx ts : Nat) : State :=
  let last := s.fault.lastRec.find? fun e => e.1 == code
  let held := match last with
    | some e => decide (s.tick < e.2 + 10000 * fget s Fld.FAULT_CFG_HOLDOFF)
    | none => false
  if held then s
  else
    pushRecord (noteRec s code) 1 1 code ts (mkPayload [(0, 1, kind), (1, 1, idx), (2, 1, 0), (3, 1, (devState s).code),
      (4, 1, 0xFF), (12, 4, (rd s Reg.FAULT_STATUS).toNat), (16, 4, (rd s Reg.TIME_STATUS).toNat),
      (20, 4, (rd s Reg.SCHED_ROUNDS).toNat)])

/-- A corrected fault reported (R385, R386). -/
def reportCorrected (s : State) (code ts : Nat) : State := correctedRecord (countFault s code 0 0 0 ts) code 0 0 ts

/-- A word that arrives incomplete is discarded (R350). -/
def partialWord (s : State) : State := reportCorrected (raise s Fld.HOSTIF_EVENT_PARTIAL) 0x0906 (stampI s)

/-- A function has read `n` bytes of NVM from offset `o` up: fault 0x0B07 for every word of them with a double-bit error (R404). -/
def nvmReadFaults (s : State) (o n : Nat) : State :=
  (s.nvmBad.filter fun w => decide (o < w + 8) && decide (w < o + n)).foldl (fun s _ => reportCorrected s 0x0B07 (stampI s)) s

end Sys2Proof.Machine
end

