-- ==== Sys2Proof/Machine/FeedOps.lean ====
section
/-! DEFINITION. Sys2Proof/Machine/FeedOps.lean: what every feed command shares (spec/07): run permission, the outputs and
the group suspension, the moves between the states of R229. -/

namespace Sys2Proof.Machine

/-- The states of a feed (R229). -/
inductive FeedState where
  | off | qualify | insert | precharge | on | blocked | retryWait | discharge | fault
  deriving DecidableEq, Repr

/-- The code of a feed state (R229). -/
def FeedState.code : FeedState → Nat
  | .off => 0 | .qualify => 1 | .insert => 2 | .precharge => 3 | .on => 4 | .blocked => 5 | .retryWait => 6
  | .discharge => 7 | .fault => 8

/-- The state of a code; reserved codes stand for no state a feed takes (R229). -/
def FeedState.ofCode : Nat → FeedState
  | 1 => .qualify | 2 => .insert | 3 => .precharge | 4 => .on | 5 => .blocked | 6 => .retryWait | 7 => .discharge
  | 8 => .fault | _ => .off

/-- The state of feed `f`. -/
def feedState (s : State) (f : Fin 8) : FeedState := FeedState.ofCode (fget s (Fld.FEED_STATUS_STATE f))

/-- A feed changed in what no register holds. -/
def setFeed (s : State) (f : Fin 8) (g : FeedSt → FeedSt) : State := { s with feeds := upd s.feeds f g }

/-- The state of a feed changed, with FEED_SUMMARY.FAULT (R246). -/
def putFeedState (s : State) (f : Fin 8) (t : FeedState) : State :=
  fputBit (fput s (Fld.FEED_STATUS_STATE f) t.code) Fld.FEED_SUMMARY_FAULT f (t == .fault)

/-- FnnG or FnnPC of a feed is high. -/
def feedHigh (s : State) (f : Fin 8) : Bool := bit s (Fld.FEED_STATUS_G f) || bit s (Fld.FEED_STATUS_PC f)

/-- DDLY of a feed, in ticks. -/
def ddly (s : State) (f : Fin 8) : Nat := 1000 * fget s (Fld.FEED_SHORT_DDLY f)

/-- Another feed of the group of `f` has an output high (R241). -/
def groupHigh (s : State) (f : Fin 8) : Bool :=
  let g := fget s (Fld.FEED_CFG_GROUP f)
  (List.finRange 8).any fun h => h != f && g != 0 && fget s (Fld.FEED_CFG_GROUP h) == g && feedHigh s h

/-- The group suspension of every feed brought up to date (R241): at its end the check waits DDLY more. -/
def refreshSuspension (s : State) : State :=
  (List.finRange 8).foldl (fun s (f : Fin 8) =>
    let was := bit s (Fld.FEED_STATUS_SHSUSP f)
    let now := groupHigh s f
    let s1 := fputB s (Fld.FEED_STATUS_SHSUSP f) now
    if was && !now then setFeed s1 f fun x => { x with resume := some (s.tick + ddly s f) } else s1) s

/-- The outputs FnnG and FnnPC of a feed driven (R229, R241): OPENED when FnnG falls; the tick of the last fall is kept. -/
def feedOut (s : State) (f : Fin 8) (g pc : Bool) : State :=
  let wasG := bit s (Fld.FEED_STATUS_G f)
  let was := feedHigh s f
  let s1 := fputB (fputB s (Fld.FEED_STATUS_G f) g) (Fld.FEED_STATUS_PC f) pc
  let s2 := fputBit (fputBit s1 Fld.FEED_SUMMARY_G f g) Fld.FEED_SUMMARY_PC f pc
  let s3 := if wasG && !g then raise s2 (Fld.FEED_EVENT_OPENED f) else s2
  let s4 := if was && !g && !pc then setFeed s3 f fun x => { x with fell := some s.tick } else s3
  refreshSuspension s4

/-! ### Comparators and their filters (R226, R227) -/

/-- A moment in interface clocks of 5 ns (R227). -/
def feedClocks (t : Nat) : Nat := 200 * t

/-- The filtered VS window (R227). -/
def windowNow (s : State) (f : Fin 8) : Bool := (s.feeds.get f).win.both (fget s (Fld.FEED_TIME_VSF f)) s.tick

/-- The filtered OC, REV and FWD outputs (R227). -/
def ocNow (s : State) (f : Fin 8) : Bool := (s.feeds.get f).oc.rise (fget s (Fld.FEED_ITHR_OCF f)) (feedClocks s.tick)
def revNow (s : State) (f : Fin 8) : Bool := (s.feeds.get f).rev.rise (fget s (Fld.FEED_DIODE_RVF f)) (feedClocks s.tick)
def fwdNow (s : State) (f : Fin 8) : Bool := (s.feeds.get f).fwd.rise (fget s (Fld.FEED_DIODE_FWDF f)) s.tick

/-- FEED_STATUS with the comparator outputs of this moment (R246). -/
def feedStatus (s : State) (f : Fin 8) : Word :=
  let b := fun (w : Word) (k : Nat) (x : Bool) => setBits w k 1 x.toNat
  let x := s.feeds.get f
  b (b (b (b (b (rd s (Reg.FEED_STATUS f)) 7 (ocNow s f)) 8 (revNow s f)) 9 (fwdNow s f)) 10 x.ratio.raw) 11 x.vlp.raw

/-- The comparators of a feed under the voltages at its balls that a command tells (`none`: not told, as before), whose comparisons have had
their outcome for `held` ticks and `clocks` further interface clocks, but not since before their inputs were last told (R226, R227). -/
def feedSense (s : State) (f : Fin 8) (vs vl is : Option Rat) (held clocks : Nat) : State :=
  let x := s.feeds.get f
  let a := vs.getD x.vs
  let b := vl.getD x.vl
  let i := is.getD x.is
  let both := max x.vsAt x.vlAt
  let t := s.tick - held
  let c := fun (k : Nat) => max (feedClocks t - clocks) (feedClocks k)
  let h := hystVolt (fget s (Fld.FEED_VSWIN_HYST f))
  let uv := underSide x.uv a (codeVolt (fget s (Fld.FEED_VSWIN_UV f))) h
  let ov := overSide x.ov a (codeVolt (fget s (Fld.FEED_VSWIN_OV f))) h
  setFeed s f fun x => { x with
    vs := a, vl := b, is := i, uv := uv, ov := ov
    vsAt := if vs.isSome then s.tick else x.vsAt
    vlAt := if vl.isSome then s.tick else x.vlAt
    isAt := if is.isSome then s.tick else x.isAt
    win := x.win.put (fget s (Fld.FEED_TIME_VSF f)) (max t x.vsAt) (!uv && !ov)
    ratio := x.ratio.put 0 (max t both) (decide (a * (fget s (Fld.FEED_PCFG_PCF f) : Rat) / 64 ≤ b))
    fwd := x.fwd.put (fget s (Fld.FEED_DIODE_FWDF f)) (max t both) (decide (codeVolt (fget s (Fld.FEED_DIODE_FTH f)) < a - b))
    vlp := x.vlp.put 0 (max t x.vlAt) (decide (codeVolt (fget s (Fld.FEED_SHORT_SHTH f)) < b))
    oc := x.oc.put (fget s (Fld.FEED_ITHR_OCF f)) (c x.isAt) (decide (codeVolt (fget s (Fld.FEED_ITHR_OC f)) < i))
    rev := x.rev.put (fget s (Fld.FEED_DIODE_RVF f)) (c both) (decide (codeVolt (fget s (Fld.FEED_DIODE_RTH f)) < b - a)) }

/-- The comparators under new thresholds (R226), at the levels last told. -/
def resenseFeed (s : State) (f : Fin 8) : State :=
  let x := s.feeds.get f
  feedSense s f (some x.vs) (some x.vl) (some x.is) 0 0

/-! ### The states of a feed -/

/-- Run permission (R230); a hibernation entry opens every feed (R473). -/
def feedPermitted (s : State) (f : Fin 8) : Bool :=
  bit s (Fld.FEED_CFG_EN f) && fbit s Fld.FEED_CMD_ON f && ((devState s == .idle && !bit s Fld.GLOBAL_STATE_HIB_PEND) || devState s == .armed) &&
    feedState s f != .fault && !bit s (Fld.FEED_STATUS_SHBLK f)

/-- Entry into ON (R232, R233, R237, R239). -/
def feedOn (s : State) (f : Fin 8) : State :=
  let s1 := raise (putFeedState (feedOut s f true false) f .on) (Fld.FEED_EVENT_CLOSED f)
  setFeed s1 f fun x => { x with waived := false, holdDue := some (s.tick + 10000 * fget s (Fld.FEED_RETRY_RHOLD f)) }

/-- Entry into PRECHARGE, or with PC_USE = 0 into ON directly (R232, R233). -/
def feedClose (s : State) (f : Fin 8) : State :=
  if bit s (Fld.FEED_CFG_PC_USE f) then
    let s1 := putFeedState (feedOut s f false true) f .precharge
    setFeed s1 f fun x => { x with waived := false, pcAt := s.tick, due := s.tick + 1000 * fget s (Fld.FEED_PCFG_PCTO f) }
  else feedOn s f

/-- Entry into QUALIFY, with what follows at once when the filtered VS window is satisfied (R232). -/
def feedQualify (s : State) (f : Fin 8) (waived : Bool) : State :=
  let s1 := setFeed (putFeedState (feedOut s f false false) f .qualify) f fun x => { x with waived := waived, holdDue := none }
  if bit s (Fld.FEED_STATUS_VSWIN f) then
    if waived then feedClose s1 f
    else setFeed (putFeedState s1 f .insert) f fun x => { x with due := s.tick + 1000 * fget s (Fld.FEED_TIME_INSDLY f) }
  else s1

/-- Loss of run permission (R230, R241): the outputs fall, and the feed enters DISCHARGE for what remains of DDLY, or until the
next tick where nothing remains. -/
def feedRunLoss (s : State) (f : Fin 8) : State :=
  let s1 := setFeed (feedOut s f false false) f fun x => { x with waived := false, holdDue := none, lossAt := s.tick }
  match feedState s f with
  | .off | .discharge => s1
  | _ => putFeedState s1 f .discharge

/-- Entry into FAULT (R244). -/
def feedFault (s : State) (f : Fin 8) : State :=
  let s1 := setFeed (feedOut s f false false) f fun x => { x with waived := false, holdDue := none }
  raise (putFeedState (fputBit s1 Fld.FEED_CMD_ON f false) f .fault) (Fld.FEED_EVENT_FAULT f)

/-- The device state lets no feed close (R230). -/
def feedsBarred (s : State) : Bool := !(devState s == .idle || devState s == .armed)

/-- A feed that a trip of this tick has led into FAULT (R245). -/
def trippedNow (s : State) (f : Fin 8) : Bool := feedState s f == .fault && (s.feeds.get f).faultAt == some s.tick

/-- A feed brought to what its run permission now demands (R230, R232); where the device state takes run permission in the tick of a trip
that led into FAULT, the feed enters DISCHARGE (R245). -/
def refreshFeed (s : State) (f : Fin 8) : State :=
  match feedState s f with
  | .fault => if trippedNow s f && feedsBarred s then feedRunLoss s f else s
  | .off => if feedPermitted s f then feedQualify s f false else s
  | .discharge => s
  | _ => if feedPermitted s f then s else feedRunLoss s f

/-- Every feed brought to what its run permission now demands: after a change of the device state or of FEED_CMD. -/
def refreshFeeds (s : State) : State := (List.finRange 8).foldl refreshFeed s

end Sys2Proof.Machine
end

