-- ==== Sys2Proof/Machine/SeqOps.lean ====
section
/-! DEFINITION. Sys2Proof/Machine/SeqOps.lean: what every sequencer command shares (spec/08): the rails and phases, taking
the next rail, the ends of a power-up and of a power-down, and the on and off requests. -/

namespace Sys2Proof.Machine

/-- The phases of the sequencer (R252). -/
inductive SeqPhase where
  | down | dwell | powerup | up | powerdown
  deriving DecidableEq, Repr

/-- The code of a phase (R252). -/
def SeqPhase.code : SeqPhase → Nat
  | .down => 0 | .dwell => 1 | .powerup => 2 | .up => 3 | .powerdown => 4

/-- The phase of a code; reserved codes stand for no phase (R252). -/
def SeqPhase.ofCode : Nat → SeqPhase
  | 1 => .dwell | 2 => .powerup | 3 => .up | 4 => .powerdown | _ => .down

/-- The phase of the sequencer. -/
def seqPhase (s : State) : SeqPhase := SeqPhase.ofCode (fget s Fld.SEQ_STATUS_PHASE)

/-- The phase changed. -/
def putPhase (s : State) (p : SeqPhase) : State := fput s Fld.SEQ_STATUS_PHASE p.code

/-- The sequencer changed in what no register holds. -/
def setSeq (s : State) (f : SeqSt → SeqSt) : State := { s with seq := f s.seq }

/-- The rail in progress (R272). -/
def putCur (s : State) (r : Option (Fin 16)) : State :=
  fput s Fld.SEQ_STATUS_CUR (match r with | some r => r.val | none => 0x1F)

/-- A state-change record of the sequencer (R266, R414). -/
def seqRecord (s : State) (subtype : Nat) : State :=
  pushRecord s 2 0 0 (stampI s) (mkPayload [(0, 1, subtype), (4, 8, seqSnapshot s), (12, 4, (rd s Reg.SEQ_FLAGS).toNat)])

/-- The power-up has taken every rail (R257, R266). -/
def powerUpDone (s : State) : State :=
  let s1 := putCur (putPhase s .up) none
  let s2 := fputB s1 Fld.SEQ_STATUS_PARTIAL s.seq.failed
  seqRecord (inc (raise s2 Fld.SEQ_EVENT_UP_DONE) Fld.SEQ_CNT_UP_CNT) 4

/-- A rail is skipped by the power-up in progress: it is in FAULT, or was when the power-up began (R257, R263). -/
def railSkipped (s : State) (r : Fin 16) : Bool := railState s r == .fault || s.seq.skip.testBit r.val

/-- The next rail of a power-up, from index `n` up (R253, R257): a rail that is skipped counts as failed. -/
def takeUp (s : State) (n : Nat) : State :=
  let later := (List.finRange 16).filter fun (r : Fin 16) => decide (n ≤ r.val) && bit s (Fld.SEQ_RCFG_EN r)
  let s0 := setSeq s fun x => { x with failed := x.failed || (later.takeWhile (railSkipped s)).length != 0 }
  match later.find? fun r => !railSkipped s r with
  | some r => setSeq (putCur (putRail s0 r .wait) (some r)) fun x => { x with due := s.tick + fget s (Fld.SEQ_RTIME_DLY r) }
  | none => powerUpDone s0

/-- The addresses that the SEQ section loads (R267). -/
def seqCfgRegs : List Nat :=
  Reg.SEQ_CFG :: (List.range 16).flatMap fun r => [Reg.SEQ_RCFG r, Reg.SEQ_RTHR r, Reg.SEQ_ROFF r, Reg.SEQ_RTIME r, Reg.SEQ_RTO r]

/-- The configuration that waits takes effect (R268): a rail it does not use is UNUSED, one whose fault stands is in FAULT, any other
is OFF; the monitors judge by it from here on. -/
def applySeqCfg (s : State) : State :=
  let s1 := s.seq.pendCfg.foldl (fun s e => if seqCfgRegs.contains e.1 then wr s e.1 e.2 else s) s
  let s2 := (List.finRange 16).foldl (fun s (r : Fin 16) =>
    let t := if !bit s (Fld.SEQ_RCFG_EN r) then .unused else if (railOf s r).fault.isSome then .fault else .off
    showRail (restartRail (putRail s r t) r) r) s1
  fput (setSeq s2 fun x => { x with pendCfg := [] }) Fld.SEQ_STATUS_CFG_PEND 0

/-- An on request in DOWN (R255, R256). -/
def enterDwell (s : State) : State := putPhase s .dwell

/-- The power-down has taken every rail (R256, R259, R266, R268); a latched on request acts at the next tick. -/
def powerDownDone (s : State) : State :=
  let s1 := putCur (putPhase s .down) none
  let s2 := seqRecord (inc (raise s1 Fld.SEQ_EVENT_DOWN_DONE) Fld.SEQ_CNT_DOWN_CNT) 5
  let s3 := setSeq s2 fun x => { x with downAt := s.tick }
  let s4 := if bit s3 Fld.SEQ_STATUS_CFG_PEND then applySeqCfg s3 else s3
  if bit s4 Fld.SEQ_STATUS_UPLATCH then setSeq (fput s4 Fld.SEQ_STATUS_UPLATCH 0) fun x => { x with reqOn := true } else s4

/-- The next rail of a power-down, below index `n` (R253, R259): only rails in RISING, GOOD or PREDOWN are taken. -/
def takeDown (s : State) (n : Nat) : State :=
  let earlier := (List.finRange 16).filter fun (r : Fin 16) => decide (r.val < n) && bit s (Fld.SEQ_RCFG_EN r) &&
    (railState s r == .rising || railState s r == .good || railState s r == .predown)
  match earlier.getLast? with
  | some r => setSeq (putCur (putRail s r .predown) (some r)) fun x => { x with due := s.tick + fget s (Fld.SEQ_RTIME_DNDLY r) }
  | none => powerDownDone s

/-- The rails in FAULT, as a mask. -/
def faultMask (s : State) : Nat := (List.finRange 16).foldl (fun m r => if railState s r == .fault then m + 2 ^ r.val else m) 0

/-- A power-up begins (R257). -/
def beginUp (s : State) : State :=
  let s1 := fput (fput (putPhase s .powerup) Fld.SEQ_FLAGS_RISEFAIL 0) Fld.SEQ_STATUS_PARTIAL 0
  takeUp (setSeq s1 fun x => { x with failed := false, skip := faultMask s }) 0

/-- A power-down begins (R259). -/
def beginDown (s : State) : State := takeDown (fput (putPhase s .powerdown) Fld.SEQ_FLAGS_FALLFAIL 0) 16

/-- An on request acts (R255). -/
def seqOn (s : State) : State :=
  match seqPhase s with
  | .down => enterDwell s
  | .powerdown => raise (fput s Fld.SEQ_STATUS_UPLATCH 1) Fld.SEQ_EVENT_LATCHED
  | _ => s

/-- An off request acts (R255, R260); a cancelled power-up is an entry into DOWN (R268). -/
def seqOff (s : State) : State :=
  match seqPhase s with
  | .down => s
  | .dwell =>
    let s1 := putPhase s .down
    if bit s1 Fld.SEQ_STATUS_CFG_PEND then applySeqCfg s1 else s1
  | .powerup =>
    beginDown ((List.finRange 16).foldl (fun s (r : Fin 16) => if railState s r == .wait then putRail s r .off else s) s)
  | .up => beginDown s
  | .powerdown => fput s Fld.SEQ_STATUS_UPLATCH 0

/-- A request made: it acts at the next tick (R254). -/
def requestOn (s : State) : State := setSeq s fun x => { x with reqOn := true }
def requestOff (s : State) : State := setSeq s fun x => { x with reqOff := true }

/-- A rail is rising in a power-up: what is judged in a tick comes before an off request that acts in it (R270). -/
def railRising (s : State) : Bool := seqPhase s == .powerup && (List.finRange 16).any fun r => railState s r == .rising

/-- The requests of the tick before act as a tick begins; of both, the off request, which waits for the end of the tick while a rail is
rising (R254, R270). -/
def seqTick (s : State) : State :=
  let s1 := setSeq s fun x => { x with reqOn := false, reqOff := false }
  if !seqPowered s then s1
  else if s.seq.reqOff then (if railRising s then setSeq s1 fun x => { x with offNow := true } else seqOff s1)
  else if s.seq.reqOn then seqOn s1
  else s1

/-- An off request that has waited for the judgements of its tick acts as the tick ends (R270). -/
def seqEnd (s : State) : State :=
  if s.seq.offNow then
    let s1 := setSeq s fun x => { x with offNow := false }
    if seqPowered s then seqOff s1 else s1
  else s

end Sys2Proof.Machine
end

