-- ==== Sys2Proof/Machine/HarnOps.lean ====
section
/-! DEFINITION. Sys2Proof/Machine/HarnOps.lean: what every Harness command shares (spec/11): ports and routes, starting a
frame on an output or letting it wait, and the frames the device itself originates. -/

namespace Sys2Proof.Machine

/-- The Harness changed in what no register holds. -/
def setHarn (s : State) (f : HarnSt → HarnSt) : State := { s with harn := f s.harn }

/-- Online test changed in what no register holds. -/
def setTest (s : State) (f : TestSt → TestSt) : State := { s with test := f s.test }

/-- The device is the root (R331): an accepted image with HARNESS_CFG.ROOT gives the role, which is kept (R318). -/
def isRoot (s : State) : Bool := fget s Fld.HARNESS_ROLE_ROLE == 0

/-- The link of a port is up (R316). -/
def linkUp (s : State) : HPort → Bool
  | .hup => bit s Fld.HARNESS_STATUS_LINK_UP
  | .hdn => bit s Fld.HARNESS_STATUS_LINK_DN
  | .hbr => bit s Fld.HARNESS_STATUS_LINK_BR

/-- The up port: none at the root (R314). -/
def upPort (s : State) : Option HPort :=
  if isRoot s then none
  else match fget s Fld.HARNESS_STATUS_UPPORT with | 0 => some .hup | 1 => some .hdn | _ => none

/-- The three ports. -/
def allPorts : List HPort := [.hup, .hdn, .hbr]

/-- The device is in a ring: the root that has found one, a member that is configured for it (R330, R340; DESIGN CHOICE: log entry 158). -/
def inRing (s : State) : Bool := if isRoot s then bit s Fld.HARNESS_STATUS_RINGMODE else bit s Fld.HARNESS_CFG_RING

/-- Down port `p` carries downstream frames other than ENUM (R331, R340). -/
def carriesDown (s : State) (p : HPort) : Bool :=
  p != .hbr || ((isRoot s || fget s Fld.HARNESS_ROLE_ROLE == 3) && !inRing s)

/-- The ports to which a frame that travels downward goes: every down port whose link is up (R325, R331, R341). -/
def downPorts (s : State) : List HPort :=
  if isRoot s then
    [HPort.hdn, HPort.hbr].filter fun p => linkUp s p && carriesDown s p
  else allPorts.filter fun p => some p != upPort s && linkUp s p && carriesDown s p

/-- The own address (R324). -/
def ownAddr (s : State) : Nat := fget s Fld.HARNESS_ADDR_ADDR

/-- The port in whose range an address lies (R325, R330). -/
def rangePort (s : State) (a : Nat) : Option HPort :=
  if fget s Fld.HARNESS_RANGE_DN_LO ≤ a ∧ a ≤ fget s Fld.HARNESS_RANGE_DN_HI then some .hdn
  else if fget s Fld.HARNESS_RANGE_BR_LO ≤ a ∧ a ≤ fget s Fld.HARNESS_RANGE_BR_HI then some .hbr
  else none

/-- W0 to W2 of a frame (R319). -/
def frameHead (f : Frame) : List Word :=
  [BitVec.ofNat 32 (f.dest * 2 ^ 16 + f.src), BitVec.ofNat 32 (f.typ * 2 ^ 24 + f.payload.length * 2 ^ 16 + f.epoch),
    BitVec.ofNat 32 (f.role * 2 ^ 24 + f.seq * 2 ^ 16 + f.flags)]

/-- The CRC-32 over words as they go over the line, least significant byte first (R315, R319). -/
def wordsCrc (ws : List Word) : Word := crc32 (ws.flatMap fun w => leBytes 4 w.toNat)

/-- The CRC of a frame, over W0 to its last payload word (R319). -/
def frameCrc (f : Frame) : Word := wordsCrc (frameHead f ++ f.payload)

/-- A frame on the line of port `p`, its CRC appended, ended with EOF (R319, R345). -/
def sentFrame (p : HPort) (f : Frame) : TxItem := .frame p f (frameCrc f) false

/-- The number of words of a frame, its CRC included (R319). -/
def frameWords (f : Frame) : Nat := f.payload.length + 4

/-- The place of a forwarded frame in the order of R327. -/
def framePrio (f : Frame) : Nat := if f.typ = 3 then 0 else if f.typ = 4 then 1 else if f.typ = 5 then 4 else 2

/-- Words of the buffer of input `p` that waiting frames hold (R328): a frame that waits for two outputs is held once. -/
def bufferUsed (s : State) (p : HPort) : Nat :=
  (((s.harn.waiting.filter fun w => w.from_ == some p).map fun w => (w.no, frameWords w.frame)).eraseDups.map Prod.snd).sum

/-- Words free in the buffer of input `p`, the room of one TUNING reserved (R328). -/
def bufferFree (s : State) (p : HPort) : Nat := 520 - 9 - bufferUsed s p

/-- PAUSE and RESUME of an input, as its free room asks (R328). -/
def syncPause (s : State) (p : HPort) : State :=
  let asked := s.harn.asked.get p.idx
  if !asked && decide (bufferFree s p < 260) then
    setHarn s fun h => { h with asked := upd h.asked p.idx fun _ => true, tx := h.tx ++ [TxItem.pause p] }
  else if asked && decide (260 ≤ bufferFree s p) then
    setHarn s fun h => { h with asked := upd h.asked p.idx fun _ => false, tx := h.tx ++ [TxItem.resume p] }
  else s

/-- A frame of this class may start on the output now (R327, R328): a pause or an open guard lets only TUNING through. -/
def mayTransmit (s : State) (p : HPort) (prio : Nat) : Bool :=
  prio == 0 || (!s.harn.paused.get p.idx && !s.harn.guard.get p.idx)

/-- A frame put on an output, or made to wait (R327, R328); a port whose link is down or that is cut carries none. -/
def sendOn (s : State) (p : HPort) (prio : Nat) (from_ : Option HPort) (f : Frame) : State :=
  if !linkUp s p || s.harn.cut.get p.idx then s
  else if mayTransmit s p prio then setHarn s fun h => { h with tx := h.tx ++ [sentFrame p f] }
  else setHarn s fun h => { h with waiting := h.waiting ++ [⟨p, prio, h.rxNo, from_, f⟩] }

/-- The frame that leaves an output next: of the lowest class, the oldest (R327). -/
def nextWaiting (l : List WaitFrame) (p : HPort) : Option WaitFrame :=
  (l.filter fun w => w.out == p).foldl (fun b w =>
    match b with | none => some w | some v => if w.prio < v.prio then some w else some v) none

/-- HARNESS_TXSTAT once no copy of the host frame waits (R345). -/
def syncTx (s : State) : State :=
  if bit s Fld.HARNESS_TXSTAT_BUSY && !s.harn.waiting.any fun w => w.prio == 5 then
    raise (fput (fput s Fld.HARNESS_TXSTAT_BUSY 0) Fld.HARNESS_TXSTAT_SENT 1) Fld.HARNESS_EVENT_TX_DONE
  else s

/-- The next frame that waits for an output leaves it, while it may (R327). -/
def flushOne (p : HPort) (s : State) : State :=
  match nextWaiting s.harn.waiting p with
  | some w =>
    if mayTransmit s p w.prio then
      let s1 := setHarn s fun h => { h with waiting := h.waiting.erase w, tx := h.tx ++ [sentFrame p w.frame] }
      match w.from_ with | some q => syncPause s1 q | none => s1
    else s
  | none => s

/-- The frames that wait for an output leave it while they may (R327). -/
def flushPort (s : State) (p : HPort) : State :=
  syncTx (s.harn.waiting.foldl (fun s _ => flushOne p s) s)

/-- The device is in a state in which it sends frames (R317). -/
def harnRuns (s : State) : Bool := devState s != .off && devState s != .hibernate

/-- The place of a copy in the order of R327: a frame that comes from another device (`from_`), or one of the device's own, among
them those of its host. -/
def copyPrio (from_ : Option HPort) (f : Frame) : Nat :=
  if from_.isSome then framePrio f
  else if f.flags.testBit 2 then 5
  else if f.typ = 3 then 0 else if f.typ = 4 then 1 else if f.typ = 5 then 4 else 3

/-- The root sends downstream frames both ways: it takes part in rerouting (R340), the ring is broken, and a cycle boundary has passed
since (R341). -/
def bothWays (s : State) : Bool :=
  isRoot s && bit s Fld.HARNESS_CFG_RING && bit s Fld.HARNESS_STATUS_RINGBRK && !s.harn.breakDue

/-- The up port changed: the delay of the old one is no longer valid, and its measurement is given up (R335). -/
def setUpPort (s : State) (code : Nat) : State :=
  if fget s Fld.HARNESS_STATUS_UPPORT = code then s
  else
    setHarn (fput (fput s Fld.HARNESS_STATUS_UPPORT code) Fld.HARNESS_STATUS_DELAY_VALID 0) fun h => { h with
      probe := none, probeDue := false }

/-- A frame with REVERSE set (R320, R341). -/
def reversed (f : Frame) : Frame := { f with flags := f.flags ||| 1 }

/-- The root sends every downstream frame also on HUP with REVERSE while the ring is broken (R341). -/
def reverseCopy (s : State) (from_ : Option HPort) (f : Frame) : State :=
  if bothWays s then sendOn s .hup (copyPrio from_ f) from_ (reversed f) else s

/-- A frame sent downward on every down port that carries it (R325, R341). -/
def sendDown (s : State) (from_ : Option HPort) (f : Frame) : State :=
  reverseCopy ((downPorts s).foldl (fun s p => sendOn s p (copyPrio from_ f) from_ f) s) from_ f

/-- The outputs that a frame of this device takes by the routes of R325; one that names the device itself goes nowhere. -/
def ownOuts (s : State) (dest : Nat) : List HPort :=
  let up := match upPort s with | some p => [p] | none => []
  if dest = 0xFFFF then (if isRoot s then downPorts s else up)
  else if dest = ownAddr s then []
  else
    match rangePort s dest with
    | some p => if carriesDown s p then [p] else []
    | none => up

/-- A frame of this device sent by its route, at the root also in reverse while the ring is broken (R325, R341). -/
def sendOwn (s : State) (prio : Nat) (f : Frame) : State :=
  if !harnRuns s then s
  else
    let outs := ownOuts s f.dest
    let s1 := outs.foldl (fun s p => sendOn s p prio none f) s
    if outs.isEmpty && f.dest != 0xFFFF then s1 else reverseCopy s1 none f

/-- An output takes frames: its link is up and it is not cut off. -/
def outOpen (s : State) (p : HPort) : Bool := linkUp s p && !s.harn.cut.get p.idx

/-- A frame of this device to `dest` finds an output (R323, R325). -/
def maySend (s : State) (dest : Nat) : Bool :=
  let outs := ownOuts s dest
  harnRuns s && (outs.any (outOpen s) || (bothWays s && !outs.isEmpty && outOpen s .hup))

/-- The epoch a frame of this device carries: the epoch in force (R332). -/
def ownEpoch (s : State) : Nat := fget s Fld.HARNESS_ROLE_EPOCH

/-- A frame that this device originates, with the next SEQ. -/
def ownFrame (s : State) (dest typ : Nat) (payload : List Word) : Frame :=
  ⟨dest, ownAddr s, typ, ownEpoch s, 0xFF, s.harn.seq % 256, 0, payload⟩

/-- The SEQ of the next frame. -/
def nextSeq (s : State) : State := setHarn s fun h => { h with seq := (h.seq + 1) % 256 }

/-- The EVT of a fault (R343). -/
def evtFrame (s : State) (code cls ts : Nat) : Frame :=
  ownFrame s (fget s Fld.HARNESS_ADDR_ROOTA) 6
    [BitVec.ofNat 32 (code + cls * 2 ^ 16), BitVec.ofNat 32 ts, BitVec.ofNat 32 (ts / 2 ^ 32)]

/-- An EVT of this device that waits for an output. -/
def waitingEvt (w : WaitFrame) : Bool := w.from_.isNone && w.prio == 3 && w.frame.typ == 6

/-- An EVT of this device that waits, neither of a fatal fault nor of a ring break (R340). -/
def waitingMinor (w : WaitFrame) : Bool :=
  waitingEvt w && getBits (w.frame.payload.getD 0 0) 16 2 != 2 && getBits (w.frame.payload.getD 0 0) 0 16 != 0x0806

/-- The last element with a property taken out of a list. -/
def dropLastWhere {α : Type} (p : α → Bool) (l : List α) : List α := (l.reverse.eraseP p).reverse

/-- The EVT of a fatal fault put ahead of the EVTs that wait for its output (R346). -/
def sendFirst (s : State) (f : Frame) : State :=
  let t := sendOwn s 3 f
  let new := t.harn.waiting.drop s.harn.waiting.length
  setHarn t fun h => { h with
    waiting := s.harn.waiting.takeWhile (fun w => !waitingMinor w) ++ new ++ s.harn.waiting.dropWhile fun w => !waitingMinor w }

/-- An EVT of this device, at most 64 in a cycle (R343). One that is `urgent` goes first (R346): ahead of the EVTs that wait, in the place
of one of them when the limit is reached, or, when all have left, first in the next cycle (DEDUCED: log entry 159). -/
def putEvt (s : State) (urgent : Bool) (f : Frame) : State :=
  if s.harn.evts < 64 then
    setHarn (nextSeq (if urgent then sendFirst s f else sendOwn s 3 f)) fun h => { h with evts := h.evts + 1 }
  else if urgent then
    if s.harn.waiting.any waitingMinor then
      nextSeq (sendFirst (setHarn s fun h => { h with waiting := dropLastWhere waitingMinor h.waiting }) f)
    else nextSeq (setHarn s fun h => { h with evtFirst := h.evtFirst ++ [f] })
  else s

/-- An EVT to the root for a recorded contained or fatal fault (R343); that of a fatal fault is urgent (R346). -/
def sendEvt (s : State) (code cls ts : Nat) : State :=
  if bit s Fld.HARNESS_CFG_EVT_EN && harnRuns s then putEvt s (cls == 2) (evtFrame s code cls ts) else s

/-- A cycle begins for the Harness (R341, R343, R346): urgent EVTs that waited go first, at most 64 of them. -/
def harnCycle (s : State) : State :=
  let first := s.harn.evtFirst.take 64
  let s1 := setHarn s fun h => { h with evts := first.length, evtFirst := h.evtFirst.drop 64, breakDue := false, resent := [] }
  first.foldl (fun s f => sendFirst s f) s1

end Sys2Proof.Machine
end

