-- ==== Sys2Proof/Config.lean ====
section
/-! DEFINITION. Sys2Proof/Config.lean: what an implementation fixes and the spec leaves open. Every constant is opaque: it has
no body, so no proof can see a value, and a statement that mentions one holds for every value. -/

namespace Sys2Proof

/-- sin of a number of quarter turns between 0 and 1: the model takes it only within 2^−40 of the true value (log entry 8). -/
opaque Config.sinQuarter : Rat → Rat

/-- 1/√3 (R35), taken within 2^−40 of the true value (log entry 8). -/
opaque Config.invSqrt3 : Rat

/-- The phase error in turns that a ratio v_q / v_d corresponds to (R37), taken within 2^−40 of the true value (log entry 8). -/
opaque Config.phaseOfRatio : Rat → Rat

/-- The held frequency of R45 where no complete grid cycle has ended qualified before the loss: the spec states no value (log entry
127); by the frequency estimate at the loss. -/
opaque Config.heldFreq : Rat → Rat

/-- What the PLL uses for v_q / v_d when v_d is 0: the spec states no value (R35). -/
opaque Config.pllNoAmplitude : Rat → Rat

/-- The positive-sequence extraction of R35 (its filter is not given): by the number of the evaluation and the phase voltages. -/
opaque Config.positiveSequence : Nat → Rat → Rat → Rat → Rat × Rat × Rat

/-- The second-order quadrature generator of R35 (its parameters are not given): by the number of the evaluation, va and the frequency estimate. -/
opaque Config.quadrature : Nat → Rat → Rat → Rat

/-- Whether a trimmed conversion that is no whole code is rounded up (R103: the trims are given, their rounding is not); by its exact value. -/
opaque Config.adcRoundUp : Rat → Bool

/-- e to a power, as the battery estimator uses it (R277). -/
opaque Config.exp : Rat → Rat

/-- The natural logarithm, as the thermistor curve uses it (R300). -/
opaque Config.ln : Rat → Rat

/-- A fresh random number of so many bits from the device's random source (R417, R453, R493), by its place in the run. -/
opaque Config.random : Nat → Nat → Nat

/-- A free byte: a value the spec leaves open, by its place in the run. -/
opaque Config.freeByte : Nat → Byte

/-- A free word: a value the spec leaves open, by its place in the run. -/
opaque Config.freeWord : Nat → Word

/-- A free truth value: a choice the spec leaves open, by its place in the run. -/
opaque Config.freeBool : Nat → Bool

/-- The 64-bit device identifier written at manufacture (R435, TRUST_DEVID). -/
opaque Config.deviceId : Nat

/-- The two Ouvno firmware keys held in the boot ROM, x then y, 96 bytes each (R436). -/
opaque Config.fwKey : Nat → List Byte

/-- The development key of KEYSLOT 0x10 (R70, R436). -/
opaque Config.devKey : List Byte

/-- The contents of the boot ROM, measured as M0 (R439). -/
opaque Config.bootRom : List Byte

/-- The attestation private key, created inside the device at manufacture (R435). -/
opaque Config.attestSecret : Nat

/-- Bytes of the identity region whose content the spec does not give (R435), by their offset from 0x103C_0000: the manufacture
certificate, gaps, and the parts of the key configuration that hold no key. -/
opaque Config.idByte : Nat → Byte

/-- The bytes of the configuration record at 0x103C_2000 (R435), whose layout the spec does not give: by offset, active
slots, BOOT count and REC_FLOOR. -/
opaque Config.configByte : Nat → Nat → Nat → Nat → Byte

/-- The correction of a trim whose normalisation max(|a|, SMIN) is 0 (R199, R200): the spec states no value; by its numerator. -/
opaque Config.trimNoScale : Rat → Rat

/-- A thermistor's temperature in units of 1/16 °C from the exact value of R300: the spec gives no rounding. -/
opaque Config.tempUnits : Rat → Int

/-- A thermistor's temperature where R300 gives no value (R25 or BETA is 0): by its code. -/
opaque Config.tempNoCurve : Nat → Int

/-- The temperature trim the factory coefficients ask for (R309): by trim and by the mean on-die temperature. -/
opaque Config.refTrim : Nat → Rat → Int

end Sys2Proof
end

