-- ==== Sys2Proof/Machine/Trig.lean ====
section
/-! DEFINITION. Sys2Proof/Machine/Trig.lean: the real functions that the spec uses (sine and cosine of R35, R125 and R216, 1/√3 of R35,
the phase error of R37). A value is exact where it is rational; elsewhere it is a free value of Config held within 2^−40 of the
true one, which a series gives (log entry 8). -/

namespace Sys2Proof.Machine

/-- A value known to lie within `d` of `a`: the free value `x` brought into that interval. -/
def nearTo (a d x : Rat) : Rat := clipR x (a - d) (a + d)

/-- How far the model leaves a real function of the spec open. -/
def realTol : Rat := 1 / ((2 ^ 40 : Nat) : Rat)

/-- π to 36 decimal places. -/
def piRat : Rat := 3141592653589793238462643383279502884 / 10 ^ 36

/-- A number on a grid of 2^−48: keeps the fractions of a series short. -/
def onGrid (x : Rat) : Rat := ((x * ((2 ^ 48 : Nat) : Rat)).floor : Rat) / ((2 ^ 48 : Nat) : Rat)

/-- The series of the sine: `k` terms from the term `t` of order `n` on, with `z2` the square of the angle. -/
def sinSeries (z2 : Rat) : Nat → Nat → Rat → Rat
  | 0, _, _ => 0
  | k + 1, n, t => t + sinSeries z2 k (n + 2) (-(t * z2) / (((n + 1) * (n + 2) : Nat) : Rat))

/-- sin of `y` quarter turns, 0 ≤ y ≤ 1; exact at both ends. -/
def sinQuarter (y : Rat) : Rat :=
  if y = 0 then 0
  else if y = 1 then 1
  else
    let z := onGrid (piRat / 2 * y)
    nearTo (sinSeries (onGrid (z * z)) 11 1 z) realTol (Config.sinQuarter y)

/-- sin of an angle in turns. -/
def sinTurn (x : Rat) : Rat :=
  let q := 4 * (x - (x.floor : Rat))
  if q ≤ 1 then sinQuarter q
  else if q ≤ 2 then sinQuarter (2 - q)
  else if q ≤ 3 then -sinQuarter (q - 2)
  else -sinQuarter (4 - q)

/-- cos of an angle in turns. -/
def cosTurn (x : Rat) : Rat := sinTurn (x + 1 / 4)

/-- 1/√3 (R35). -/
def invSqrt3 : Rat := nearTo (577350269189625764509148780502 / 10 ^ 30) realTol Config.invSqrt3

/-- The series of the arc tangent: `k` terms z^n / n with alternating signs. -/
def atanSeries (z2 : Rat) : Nat → Nat → Rat → Rat
  | 0, _, _ => 0
  | k + 1, n, t => t / (n : Rat) + atanSeries z2 k (n + 2) (onGrid (-(t * z2)))

/-- The arc tangent of 0 ≤ r ≤ 1 in radians, by its series at an argument of at most 5/12. -/
def atanUnit (r : Rat) : Rat :=
  if r ≤ 5 / 12 then (let z := onGrid r; atanSeries (onGrid (z * z)) 22 1 z)
  else (let z := onGrid ((1 - r) / (1 + r)); piRat / 4 - atanSeries (onGrid (z * z)) 22 1 z)

/-- The phase error in turns that a ratio v_q / v_d corresponds to (R37): the angle whose tangent it is. -/
def phaseOfRatio (r : Rat) : Rat :=
  let a := if r < 0 then -r else r
  let p := (if a ≤ 1 then atanUnit a else piRat / 2 - atanUnit (1 / a)) / (2 * piRat)
  if r = 0 then 0 else nearTo (if r < 0 then -p else p) realTol (Config.phaseOfRatio r)

/-- A number on a grid of 2^−60. -/
def onFine (x : Rat) : Rat := ((x * ((2 ^ 60 : Nat) : Rat)).floor : Rat) / ((2 ^ 60 : Nat) : Rat)

/-- The series of e^z: `k` terms from the term `t` of order `n` on. -/
def expSeries (z : Rat) : Nat → Nat → Rat → Rat
  | 0, _, _ => 0
  | k + 1, n, t => t + expSeries z k (n + 1) (onFine (t * z / ((n + 1 : Nat) : Rat)))

/-- A number squared `n` times. -/
def squared : Nat → Rat → Rat
  | 0, x => x
  | n + 1, x => squared n (onFine (x * x))

/-- e^x (R277, R291): below −64 nothing is left of it on the model's scale. The spec asks for no positive x. -/
def expR (x : Rat) : Rat :=
  if x = 0 then 1
  else if 0 < x then Config.exp x
  else nearTo (if x < -64 then 0 else squared 6 (expSeries (onFine (x / 64)) 20 0 1)) realTol (Config.exp x)

/-- ln 2 to 36 decimal places. -/
def ln2Rat : Rat := 693147180559945309417232121458176568 / 10 ^ 36

/-- The series 2·(z + z³/3 + z⁵/5 + …) of ln((1 + z)/(1 − z)): `k` terms from the power `t` of order `n` on. -/
def lnSeries (z2 : Rat) : Nat → Nat → Rat → Rat
  | 0, _, _ => 0
  | k + 1, n, t => 2 * t / (n : Rat) + lnSeries z2 k (n + 2) (onFine (t * z2))

/-- ln of a number of at least 1, by its binary logarithm and a series at an argument of at most 1/3. -/
def lnAbove (x : Rat) : Rat :=
  let k := Nat.log2 x.floor.toNat
  let m := x / ((2 ^ k : Nat) : Rat)
  let z := onFine ((m - 1) / (m + 1))
  (k : Rat) * ln2Rat + lnSeries (onFine (z * z)) 20 1 z

/-- ln x (R300). -/
def lnR (x : Rat) : Rat :=
  if x ≤ 0 then Config.ln x
  else if x = 1 then 0
  else nearTo (if 1 < x then lnAbove x else -lnAbove (1 / x)) realTol (Config.ln x)

end Sys2Proof.Machine
end

