-- ==== Sys2Proof/Machine/Lane.lean ====
section
/-! DEFINITION. Sys2Proof/Machine/Lane.lean: lane words: which of them act as NOP on their own (R78, R79, R527 and the
chapters that restrict lane words), which loop a context code names (R83), and the engine signals of R137. -/

namespace Sys2Proof.Machine

/-- The engine executes (R75, R76). -/
def engineRuns (s : State) : Bool := bit s Fld.SCHED_STATUS_RUN

/-- A loop context the image uses (R78). -/
def loopUsed (s : State) (n : Nat) : Bool := bit s (Fld.LOOP_CFG_USED n)

/-- A context code is legal: a used loop, or a declared rotation group (R78, R527). -/
def ctxOk (s : State) (c : Nat) : Bool :=
  if c < 64 then loopUsed s c else decide (c < 80) && decide (c - 64 < s.sched.groups.length)

/-- The loop a context code acts on in this round (R78, R83). -/
def ctxLoop (s : State) (c : Nat) : Option Nat :=
  if c < 64 then (if loopUsed s c then some c else none)
  else
    match s.sched.groups[c - 64]? with
    | none => none
    | some ms => (ms[(s.sched.phase.toList.getD (c - 64) 0)]?).filter fun n => loopUsed s n

/-- Signal codes legal outside telemetry (R137, R223, R294). -/
def signalOk (c : Nat) : Bool :=
  (decide (c < 0x80) && c % 4 != 3) || decide (0x100 ≤ c ∧ c ≤ 0x105) || decide (0x108 ≤ c ∧ c ≤ 0x10A) ||
  decide (0x10C ≤ c ∧ c ≤ 0x10E) || decide (0x180 ≤ c ∧ c ≤ 0x1A7) || decide (0x1C0 ≤ c ∧ c ≤ 0x1D5) ||
  decide (0x1D8 ≤ c ∧ c ≤ 0x1DB) || (decide (0x200 ≤ c ∧ c < 0x400) && c % 8 != 7)

/-- Signal codes legal in a telemetry entry (R137, R161). -/
def telemetryOk (c : Nat) : Bool := signalOk c || (decide (0x200 ≤ c ∧ c < 0x400)) || decide (0x400 ≤ c ∧ c ≤ 0x402)

/-- The COMMIT targets that a topology allows (R111, R123). -/
def targetOk (s : State) (p t : Nat) : Bool :=
  let topo := fget s (Fld.PORT_CFG_TOPO p)
  match t with
  | 0 => [1, 2, 3, 4, 6, 7].contains topo
  | 1 => topo == 6
  | 2 => topo == 5 || topo == 8
  | 3 => [1, 2, 3, 4, 5, 6].contains topo || (topo == 8 && fget s (Fld.PORT_CFG_MEMBER p) == 1)
  | 4 => topo == 9
  | _ => decide (5 ≤ t ∧ t ≤ 8) && decide (1 ≤ topo ∧ topo ≤ 9)

/-- An operation code that R79 defines. -/
def opKnown (op : Nat) : Bool :=
  [0x00, 0x01, 0x02, 0x03, 0x08, 0x09, 0x0A, 0x0B, 0x0C, 0x0D, 0x10, 0x11, 0x12, 0x18, 0x19, 0x1A, 0x20].contains op

/-- An operation whose PORT field names a port (R79). -/
def opHasPort (op : Nat) : Bool := [0x01, 0x02, 0x10, 0x11, 0x1A].contains op

/-- The telemetry entry that ARG[7:0] of a QPUSH indexes: its signal code and whether its reserved bits are 0 (R161). -/
def telemetryEntry (s : State) (i : Nat) : Nat × Bool :=
  let w := engWord s (0x70400 + 4 * i)
  (getBits w 0 12, getBits w 12 20 == 0)

/-- A lane word that the loader would reject on its own acts as NOP (R527). -/
def selfRejected (s : State) (op : Nat) (l : LaneFields) : Bool :=
  let ctx := l.ctx.toNat
  let arg := l.arg.toNat
  let noCtx := ctx != 0
  let noPort := l.port.toNat != 0
  match op with
  | 0x00 => noCtx || noPort || arg != 0
  | 0x01 => noCtx || decide (3 ≤ arg)
  | 0x02 => if arg ≥ 0x2000 then noCtx || decide (3 ≤ arg - 0x2000) else !ctxOk s ctx || decide (3 ≤ arg)
  | 0x03 => !ctxOk s ctx || noPort || !signalOk arg
  | 0x08 | 0x09 | 0x0D => !ctxOk s ctx || noPort || arg != 0
  | 0x0A | 0x0B | 0x0C => !ctxOk s ctx || noPort || decide (2 ≤ arg)
  | 0x10 => !ctxOk s ctx || decide (16 ≤ arg) || !targetOk s l.port.toNat arg
  | 0x11 => noCtx || decide (2 ≤ arg)
  | 0x12 => !ctxOk s ctx || noPort || decide (0x80 ≤ arg)
  | 0x18 => noCtx || noPort || arg != 0
  | 0x19 =>
    let i := arg / 16 % 64
    noCtx || noPort || decide (0x400 ≤ arg) ||
      (match arg % 16 with
       | 0 => decide (24 ≤ i)
       | 1 | 2 | 6 => i != 0
       | 3 => decide (8 ≤ i)
       | 4 => decide (4 ≤ i)
       | 5 => decide (32 ≤ i)
       | _ => true)
  | 0x1A => noCtx || decide (3 ≤ arg)
  | 0x20 =>
    let e := telemetryEntry s (arg % 256)
    decide (64 ≤ ctx) || noPort || (decide (arg < 0x2000) && decide (0x100 ≤ arg)) || !telemetryOk e.1 || !e.2
  | _ => true

/-- In the inert interval of a structure activation only SAMPLE, READ, MEAS, PLL, CAPO and QPUSH words act (R451). -/
def suppressed (s : State) (op : Nat) : Bool := s.trust.inert && !([0x01, 0x02, 0x03, 0x18, 0x19, 0x20].contains op)

/-- A lane word acts when the engine runs, the word is not rejected on its own (R527) and not suppressed (R451). -/
def laneActs (s : State) (op : Nat) (l : LaneFields) : Bool := engineRuns s && !selfRejected s op l && !suppressed s op

/-! ### Signals (R137) -/

/-- The latest sample of a port channel as a fraction of full scale (R97, R101). -/
def sampleVal (s : State) (p c : Nat) : Rat :=
  match c with
  | 0 => if bit s (Fld.PORT_SAMP_I_STALE p) then 0 else (fgetS s (Fld.PORT_SAMP_I_CODE p) : Rat) * pow2 (-13)
  | 1 => if bit s (Fld.PORT_SAMP_VO_STALE p) then 0 else (fget s (Fld.PORT_SAMP_VO_CODE p) : Rat) * pow2 (-14)
  | _ => if bit s (Fld.PORT_SAMP_VI_STALE p) then 0 else (fget s (Fld.PORT_SAMP_VI_CODE p) : Rat) * pow2 (-14)

/-- A number of turns brought into [0, 1). -/
def fracTurn (x : Rat) : Rat := x - (x.floor : Rat)

/-- Turns that a source of frequency `f` advances in `k` frets of the cycle in progress, forward or back (R30). -/
def turnsIn (s : State) (f k : Rat) : Rat := f * k / (s.time.freq * (s.time.cfg.n : Rat))

/-- The time of absolute fret `k` in seconds from the start of the cycle in progress: before it the engine ran at the clock of the cycle
before (R30). -/
def clockTime (s : State) (k : Int) : Rat :=
  let d : Rat := ((k - (s.time.cycleAt : Int) : Int) : Rat)
  if d < 0 then d / s.time.clockBefore else d / (s.time.freq * (s.time.cfg.n : Rat))

/-- Turns that a source of frequency `f` advances between two absolute frets, forward or back. -/
def turnsFrom (s : State) (f : Rat) (a b : Int) : Rat := f * (clockTime s b - clockTime s a)

/-- The grid angle at fret `f` of this round in turns (`f` may lie before it), carried from the fret it holds for at the frequency
estimate (R39). -/
def gridTurns (s : State) (f : Int) : Rat :=
  fracTurn (s.time.thetaG + turnsFrom s s.time.gfreq s.time.thetaAt ((s.time.base : Int) + f))

/-- The phase angle of a TOTEM_PFC phase, turns: θg less round(PHASE × 2^32 / 3) (R125). -/
def phaseTurns (th : Rat) (ph : Nat) : Rat :=
  let o : Nat := match ph with | 0 => 0 | 1 => 1431655765 | _ => 2863311531
  let x := th - (o : Rat) / ((2 ^ 32 : Nat) : Rat)
  x - (x.floor : Rat)

/-- A loop's internal value at absolute fret `t` (R137, R80); I is rounded under the loop's EMAX (R161), a saturation there
uncounted (log entry 143). -/
def loopVal (s : State) (n v t : Nat) : Word :=
  match (List.finRange 64)[n]? with
  | none => 0
  | some i =>
    let l := s.loops.get i
    match v with
    | 0 => l.rEff.get t
    | 1 => l.y.get t
    | 2 => l.e.get t
    | 3 => l.p.get t
    | 4 => (vwRound (fgetS s (Fld.LOOP_CFG_EMAX n)) ((l.mi.get t : Rat) * pow2 (fgetS s (Fld.LOOP_CFG_EI n) - 31))).1
    | 5 => l.d.get t
    | _ => l.u.get t

/-- The output of selector `h` at absolute fret `t` (R217, R218). -/
def selectorOut (s : State) (h t : Nat) : Word :=
  if !bit s (Fld.CAPO_HSEL_CFG_EN h) then 0
  else
    let up := bit s Fld.CAPO_STATUS_HOLDUP
    let use := if up then bit s (Fld.CAPO_HSEL_CFG_HUSE h) else bit s (Fld.CAPO_HSEL_CFG_NUSE h)
    if !use then 0
    else
      match (s.capo.selT.toList[h]?).bind fun p => p.get t with
      | some v => v
      | none => loopVal s (if up then fget s (Fld.CAPO_HSEL_CFG_HLOOP h) else fget s (Fld.CAPO_HSEL_CFG_NLOOP h)) 6 t

/-- The value word of a signal, read at fret `f` of this round; the grid angle is taken at fret `g` (R39, R137). -/
def signal (s : State) (code f : Nat) (g : Int) : Word :=
  let t := absFret s f
  if code < 0x80 then vwOf (sampleVal s (code / 4) (code % 4))
  else if code < 0x180 then
    match code with
    | 0x100 => vwOf (gridTurns s g)
    | 0x101 => vwOf (sinTurn (gridTurns s g))
    | 0x102 => vwOf (cosTurn (gridTurns s g))
    | 0x103 => vwOf s.time.gfreq
    | 0x104 => vwOf s.time.vd
    | 0x105 => vwOf s.time.freq
    | 0x108 | 0x109 | 0x10A => vwOf (sinTurn (phaseTurns (gridTurns s g) (code - 0x108)))
    | _ =>
      let v := sinTurn (phaseTurns (gridTurns s g) (code - 0x10C))
      vwOf (if v < 0 then -v else v)
  else if code < 0x1C0 then s.hk.engine.toList.getD (code - 0x180) 0
  else if code < 0x1D0 then s.battEngine.toList.getD (code - 0x1C0) 0
  else if code < 0x200 then
    match code with
    | 0x1D0 => s.capo.pIn.get t
    | 0x1D1 => s.capo.pf.get t
    | 0x1D2 => s.capo.cap.get t
    | 0x1D3 => s.capo.base.get t
    | 0x1D4 => s.capo.loadSum.get t
    | 0x1D5 => vwOf (if bit s Fld.CAPO_STATUS_INPUT_LOSS then 1 else 0)
    | _ => selectorOut s (code - 0x1D8) t
  else loopVal s ((code - 0x200) / 8) (code % 8) t

/-! ### Latency declarations (R81, R82) -/

/-- The latency entry that covers a loop: its own, or its rotation group's (R81). -/
def latOf (s : State) (n : Nat) : Option LatEntry :=
  let g := fget s (Fld.LOOP_CFG_GROUP n)
  s.sched.lat.find? fun e => e.ctx == (if g < 16 then 64 + g else n)

/-- The fret, counted from the start of this round, to which the grid angle is carried for a word of loop `n` issued at fret `f`: the end
of the output fret of the evaluation it belongs to, the one whose SFRET it follows (R39, R81, R150). That output lies in the next round
where the latency crosses the boundary, and D rounds back for a word that comes before the SFRET of its round. -/
def outFret (s : State) (n f : Nat) : Int :=
  match latOf s n with
  | none => f
  | some e =>
    let c : Int := (e.cfret : Int) + 1
    if e.sfret < e.cfret then (if e.sfret ≤ f then c else c - (e.d : Int) * (s.time.cfg.rlen : Int))
    else if e.sfret ≤ f then c + (s.time.cfg.rlen : Int) else c

/-- A loop runs its turn in this round: it belongs to no group, or the group's counter stands at it (R83). -/
def loopTurn (s : State) (n : Nat) : Bool :=
  let g := fget s (Fld.LOOP_CFG_GROUP n)
  if g < 16 then ctxLoop s (64 + g) == some n else true

end Sys2Proof.Machine
end

