-- ==== Sys2Proof/Machine/Report.lean ====
section
/-! DEFINITION. Sys2Proof/Machine/Report.lean: a change of the device state (R458) and a fault reported with everything that
follows from it (R386 to R390, R422). -/

namespace Sys2Proof.Machine

/-! ### A change of the device state (R458) -/

/-- ALIVE toggles in IDLE, ARMED and TEST (R394). -/
def aliveRuns : DevState → Bool
  | .idle | .armed | .test => true
  | _ => false

/-- The ALIVE half-period, ticks (R394). -/
def aliveHalf (s : State) : Nat := 100 * fget s Fld.FAULT_CFG_HALF

/-- ALIVE after a change of the device state: it holds its level where it does not run, and begins a full half-period
where it starts again (R394). -/
def syncAlive (s : State) : State :=
  let due := if aliveRuns (devState s) then
      (match s.fault.aliveDue with | some t => some t | none => some (s.tick + aliveHalf s))
    else none
  { s with fault := { s.fault with aliveDue := due } }

/-- A pending arming abandoned with a reason (R467, R469, R478). -/
def abandonArm (s : State) (reason : Nat) : State :=
  if bit s Fld.GLOBAL_STATE_ARM_PEND then
    raise (fput (fput s Fld.GLOBAL_STATE_ARM_PEND 0) Fld.GLOBAL_ARMSTAT_REASON reason) Fld.GLOBAL_EVENT_ARM_REF
  else s

/-- The freeze of the recorder ends, one that waits included (R416, R431). -/
def endFreeze (s : State) : State := fput { s with saddle := { s.saddle with freezeDue := false } } Fld.REC_STATUS_FROZEN 0

/-- The device state changed with what every change brings (R458): the old state kept, the event, the record, the end of a
freeze (R416) and of what only TEST allows (R492, R493: a core that a debugger had halted runs on), ALIVE (R394), the off request of the sequencer (R254), the feeds (R230) and the ports (R117, R119). -/
def changeState (s : State) (d : DevState) : State :=
  let old := devState s
  let s1 := raise (setDev (fput s Fld.GLOBAL_STATE_PREV old.code) d) Fld.GLOBAL_EVENT_STATE_CHG
  let s1a := if d == .test then abandonArm s1 0x01 else s1
  let s1t := if old == .test then
      fput (fput (setTest s1a fun t => { t with tap := .idcode }) Fld.TEST_STATUS_DBG 0) Fld.FAULT_FWD_STAT_FROZEN 0 else s1a
  let s2 := endFreeze s1t
  let s3 := pushRecord s2 2 0 0 (stampI s2) (mkPayload [(0, 1, 1), (1, 1, old.code), (2, 1, d.code)])
  let s4 := syncAlive s3
  let s5 := if d == .safe || d == .test then requestOff s4 else s4
  refreshFaultStatus (refreshPorts (refreshFeeds s5))

/-! ### Snapshots (R422, R423) -/

/-- The port has been active in the round in progress (R422). -/
def activeInRound (s : State) (p : Fin 32) : Bool := (s.ports.get p).active || (s.ports.get p).leftIn == some s.time.base

/-- The courses a scope asks snapshots for (R422): those it covers; for the device, those that had an active port in the round of
registration. -/
def snapCourses (s : State) (kind idx : Nat) : List Nat :=
  (List.range 32).filter fun c =>
    if kind = 0 then (List.finRange 32).any fun p => portUsed s p && courseOf s p == c && activeInRound s p
    else if kind = 1 then courseOf s idx == c
    else (scopeCourses s kind idx).testBit c

/-- Where slot `k` of course `c` begins in NVM (R423). -/
def snapBase (c k : Nat) : Nat := 0x380000 + c * 0x2000 + k * 0x400

/-- SNAPSEQ of a stored snapshot, or none where the slot is empty or its header cannot be read (R404, R423). -/
def storedSnap (s : State) (c k : Nat) : Option Nat :=
  if nvmByte s (snapBase c k + 28) = 0x5A ∧ !nvmFails s (snapBase c k) 32 then some (nvmWord s (snapBase c k + 20)).toNat else none

/-- Snapshots in the pending buffer of eight (R422). -/
def snapCount (s : State) : Nat := s.saddle.snaps.length + s.saddle.asked.length + s.saddle.snapRun.isSome.toNat

/-- The slot the next snapshot of course `c` goes to: the lowest empty one, else the one with the lowest SNAPSEQ; slots
that waiting snapshots of the course already have are passed over (R423). -/
def nextSnapSlot (s : State) (c : Nat) : Nat :=
  let taken := (s.saddle.snaps.filter fun x => x.course == c).map (·.slot) ++
    (s.saddle.asked.filter fun x => x.course == c).map (·.slot) ++
    (match s.saddle.snapRun with | some (x, _) => if x.course = c then [x.slot] else [] | none => [])
  let free := (List.range 8).filter fun k => !taken.contains k
  match free.find? fun k => (storedSnap s c k).isNone with
  | some k => k
  | none => free.foldl (fun b k =>
      if (storedSnap s c k).getD 0 < (storedSnap s c b).getD 0 then k else b) (free.headD 0)

/-- The number of pending snapshots, as REC_STATUS.SPEND reports it (R422, R433). -/
def syncSnaps (s : State) : State := fput s Fld.REC_STATUS_SPEND (snapCount s)

/-- A snapshot of a course asked for, or lost when the buffer of eight is full (R422). -/
def askSnapshot (code cls ts : Nat) (scope : Nat × Nat) (s : State) (c : Nat) : State :=
  if 8 ≤ snapCount s then
    reportCorrected (raise s Fld.REC_EVENT_SNAP_LOST) 0x0D03 (stampI s)
  else
    syncSnaps { s with saddle := { s.saddle with asked := s.saddle.asked ++ [⟨scope, c, nextSnapSlot s c, code, cls, ts, none, none⟩] } }

/-- The slot that a Fault record names in p4: that of the first snapshot its fault gets, 0xFF when it gets none (R414). -/
def recordSlot (s : State) (cs : List Nat) : Nat :=
  match cs with
  | [] => 0xFF
  | c :: _ => if 8 ≤ snapCount s then 0xFF else nextSnapSlot s c

/-! ### Standing entries (R387) -/

/-- The valid entry with this code and scope (R387). -/
def matchingEntry (s : State) (code kind idx : Nat) : Option Nat :=
  (validEntries s).find? fun e => fget s (Fld.FAULT_ENTRY_CODE_CODE e) == code &&
    fget s (Fld.FAULT_ENTRY_CODE_KIND e) == kind && fget s (Fld.FAULT_ENTRY_CODE_INDEX e) == idx

/-- The lowest free entry (R387). -/
def freeEntry (s : State) : Option Nat := (List.range 64).find? fun e => !entryValid s e

/-- A new entry made (R387). -/
def makeEntry (s : State) (e code cls kind idx ts : Nat) : State :=
  let w := code + cls * 2 ^ 16 + kind * 2 ^ 18 + idx * 2 ^ 21 + 2 ^ 31
  wr64 (wr (wr s (Reg.FAULT_ENTRY_CODE e) (BitVec.ofNat 32 w)) (Reg.FAULT_ENTRY_CNT e) 0)
    (Reg.FAULT_ENTRY_TS_LO e) (Reg.FAULT_ENTRY_TS_HI e) ts

/-- The status register of a scope, as a Fault record carries it (R414); of a course, that of its lowest port. -/
def scopeStatus (s : State) (kind idx : Nat) : Word :=
  match kind with
  | 1 => rd s (Reg.PORT_STATUS idx)
  | 2 =>
    match (List.range 32).find? fun p => portUsed s p && courseOf s p == idx with
    | some p => rd s (Reg.PORT_STATUS p)
    | none => 0
  | 3 => feedStatus s (Fin.ofNat 8 idx)
  | 4 => railStatus s (Fin.ofNat 16 idx)
  | 5 => rd s (Reg.BATT_STATUS idx)
  | 6 => rd s (Reg.HK_G_STAT idx)
  | _ => rd s Reg.FAULT_STATUS

/-- The Fault record of a contained or fatal fault (R386, R414). -/
def faultRecord (s : State) (code cls kind idx ts slot cnt : Nat) : State :=
  pushRecord s 1 (clsSev cls) code ts (mkPayload [(0, 1, kind), (1, 1, idx), (2, 1, cls), (3, 1, (devState s).code),
    (4, 1, slot), (8, 4, cnt), (12, 4, (scopeStatus s kind idx).toNat), (16, 4, (rd s Reg.TIME_STATUS).toNat),
    (20, 4, (rd s Reg.SCHED_ROUNDS).toNat)])

/-- SAFE entered by a fatal fault (R389); in BOOT the entry into SAFE waits for the end of BOOT (R463). -/
def enterSafe (s : State) : State :=
  match devState s with
  | .idle | .armed | .test =>
    let s1 := abandonArm (fput s Fld.GLOBAL_STATE_HIB_PEND 0) 0x04
    changeState s1 .safe
  | .safe => abandonArm s 0x04
  | .boot => { s with power := { s.power with bootFatal := true } }
  | _ => s

/-- What a contained or fatal fault does beside its counts and its entry: record, snapshot, EVT, and SAFE when fatal. -/
def react (s : State) (code cls kind idx ts cnt : Nat) : State :=
  let cs := if bit s Fld.REC_CFG_SNAP_EN then snapCourses s kind idx else []
  let s1 := faultRecord s code cls kind idx ts (recordSlot s cs) cnt
  let s2 := cs.foldl (askSnapshot code cls ts (kind, idx)) s1
  let s3 := sendEvt s2 code cls ts
  if cls = 2 then enterSafe s3 else s3

/-- Fault 0x0A10 (R390): the entry table is full; it takes no entry. -/
def reportFull (s : State) (ts : Nat) : State := react (countFault s 0x0A10 2 0 0 ts) 0x0A10 2 0 0 ts 0

/-- A contained or fatal fault registered: its entry, or the next count of the entry it matches (R387, R390). -/
def register (s : State) (code cls kind idx ts : Nat) : State :=
  match matchingEntry s code kind idx with
  | some e => let s1 := inc s (Fld.FAULT_ENTRY_CNT_CNT e)
              react s1 code cls kind idx ts (fget s1 (Fld.FAULT_ENTRY_CNT_CNT e))
  | none =>
    match freeEntry s with
    | some e =>
      let s1 := makeEntry s e code cls kind idx ts
      let s2 := if (freeEntry s1).isNone then raise s1 Fld.FAULT_EVENT_FULL else s1
      react s2 code cls kind idx ts 0
    | none => reportFull (react s code cls kind idx ts 0) ts

/-- A fault reported with its class (0 corrected, 1 contained, 2 fatal), its scope and its stamp (R385 to R390). -/
def report (s : State) (code cls kind idx ts : Nat) : State :=
  if cls = 0 then reportCorrected s code ts
  else
    let k := if cls = 2 then 0 else kind
    let i := if cls = 2 then 0 else idx
    let s1 := register (countFault s code cls k i ts) code cls k i ts
    refreshFaultStatus (refreshPorts s1)

end Sys2Proof.Machine
end

