-- ==== Sys2Proof/Machine/Batt.lean ====
section
/-! DEFINITION. Sys2Proof/Machine/Batt.lean: the battery estimator (spec/09). Quantities are exact between steps; the
registers and signals hold them rounded to value words (log entry 6). -/

namespace Sys2Proof.Machine

/-- Battery `b` beside its registers. -/
def battOf (s : State) (b : Fin 2) : BattSt := s.batts.get b

/-- An estimator changed in what no register holds. -/
def setBatt (s : State) (b : Fin 2) (f : BattSt → BattSt) : State := { s with batts := upd s.batts b f }

/-- The value of a value-word register of the estimator. -/
def bv (s : State) (a : Nat) : Rat := vwVal (rd s a)

/-- A number clipped. -/
def clip01 (x : Rat) : Rat := clipR x 0 1

/-- The length of a step, seconds (R274). -/
def battDt : Rat := 1 / 100

/-! ### The model (R276) -/

/-- Linear interpolation at `x` between (x0, y0) and (x1, y1). -/
def lerp (x x0 x1 y0 y1 : Rat) : Rat := if x1 = x0 then y0 else y0 + (y1 - y0) * (x - x0) / (x1 - x0)

/-- The segment of the temperature points that holds T, and T clipped to [T0, T3] (R276). -/
def tempSeg (s : State) (b : Nat) (t : Rat) : Nat × Rat :=
  let p := fun (j : Nat) => bv s (Reg.BATT_TEMP b j)
  let tc := clipR t (p 0) (p 3)
  (if p 2 ≤ tc then 2 else if p 1 ≤ tc then 1 else 0, tc)

/-- Model quantity `k` (0 R0, 1 R1, 2 TAU1, 3 R2, 4 TAU2) at temperature `t` (R276). -/
def battModel (s : State) (b k : Nat) (t : Rat) : Rat :=
  let g := tempSeg s b t
  lerp g.2 (bv s (Reg.BATT_TEMP b g.1)) (bv s (Reg.BATT_TEMP b (g.1 + 1)))
    (bv s (Reg.BATT_MODEL b g.1 k)) (bv s (Reg.BATT_MODEL b (g.1 + 1) k))

/-- The open-circuit voltage at table point `i`, interpolated in temperature (R276). -/
def ocvPoint (s : State) (b i : Nat) (t : Rat) : Rat :=
  let g := tempSeg s b t
  lerp g.2 (bv s (Reg.BATT_TEMP b g.1)) (bv s (Reg.BATT_TEMP b (g.1 + 1)))
    (bv s (Reg.BATT_OCVT b g.1 i)) (bv s (Reg.BATT_OCVT b (g.1 + 1) i))

/-- OCV(x, T) (R276). -/
def battOcv (s : State) (b : Nat) (x t : Rat) : Rat :=
  let c := clip01 x
  let i := min (c * 32).floor.toNat 31
  lerp c ((i : Rat) / 32) (((i : Rat) + 1) / 32) (ocvPoint s b i t) (ocvPoint s b (i + 1) t)

/-- The segment of s in which the open-circuit voltage `v` lies at T, if any (R276). -/
def ocvSegment (s : State) (b : Nat) (v t : Rat) : Option Nat :=
  (List.range 32).find? fun i => decide (ocvPoint s b i t ≤ v) && decide (v ≤ ocvPoint s b (i + 1) t)

/-- OCV⁻¹(v, T) (R276): 0 or 1 where v lies beyond the table. -/
def battInvOcv (s : State) (b : Nat) (v t : Rat) : Rat :=
  match ocvSegment s b v t with
  | some i => lerp v (ocvPoint s b i t) (ocvPoint s b (i + 1) t) ((i : Rat) / 32) (((i : Rat) + 1) / 32)
  | none => if v < ocvPoint s b 0 t then 0 else 1

/-- The slope of OCV at T over the segment that holds `x` (R280). -/
def ocvSlope (s : State) (b : Nat) (x t : Rat) : Rat :=
  let i := min (clip01 x * 32).floor.toNat 31
  (ocvPoint s b (i + 1) t - ocvPoint s b i t) * 32

/-! ### States and warnings -/

/-- The states of an estimator (R296). -/
inductive BattState where
  | off | invalid | anchored | unanchored
  deriving DecidableEq, Repr

/-- The state of battery `b`. -/
def battState (s : State) (b : Fin 2) : BattState :=
  match fget s (Fld.BATT_STATUS_STATE b) with | 0 => .off | 1 => .invalid | 2 => .anchored | _ => .unanchored

/-- The state changed, with VALID (R296). -/
def putBattState (s : State) (b : Fin 2) (t : BattState) : State :=
  let code := match t with | .off => 0 | .invalid => 1 | .anchored => 2 | .unanchored => 3
  fputB (fput s (Fld.BATT_STATUS_STATE b) code) (Fld.BATT_STATUS_VALID b) (t == .anchored || t == .unanchored)

/-- The estimate is valid: ANCHORED or UNANCHORED. -/
def battValid (s : State) (b : Fin 2) : Bool := bit s (Fld.BATT_STATUS_VALID b)

/-- A warning judged with its hysteresis: below its level (`low`) or above it (R284). -/
def warnLevel (was low : Bool) (x lev hys : Rat) : Bool :=
  if low then (if was then decide (x < lev + hys) else decide (x < lev))
  else if was then decide (lev - hys < x) else decide (lev < x)

/-- s_dis and s_chg (R283). -/
def sDis (s : State) (b : Fin 2) : Rat :=
  let x := battOf s b
  if bit s (Fld.BATT_STATUS_DISAGREE b) then min x.socv x.socq else x.socv

/-- s_chg (R283). -/
def sChg (s : State) (b : Fin 2) : Rat :=
  let x := battOf s b
  if bit s (Fld.BATT_STATUS_DISAGREE b) then max x.socv x.socq else x.socv

/-- One warning bit put in force, its event raised when it becomes active (R284). -/
def putWarn (wf ef : Field) (i : Nat) (now : Bool) (s : State) : State :=
  let s1 := fputBit s wf i now
  if now && !fbit s wf i then fputBit s1 ef i true else s1

/-- The warnings judged (R284). -/
def judgeWarnings (s : State) (b : Fin 2) : State :=
  let x := battOf s b
  let wf := Fld.BATT_WARN_SOCW b
  let vf := Fld.BATT_WARN_VW b
  let s1 := if battValid s b then
      let h := bv s (Reg.BATT_SHYS b)
      (List.range 5).foldl (fun (t : State) i =>
        let low := decide (i < 3)
        putWarn wf (Fld.BATT_EVENT_SOCW b) i
          (warnLevel (fbit s wf i) low (if low then sDis s b else sChg s b) (bv s (Reg.BATT_W1S b + 4 * i)) h) t) s
    else fput s wf 0
  if x.valid then
    let h := bv s (Reg.BATT_VHYS b)
    (List.range 5).foldl (fun (t : State) i =>
      putWarn vf (Fld.BATT_EVENT_VW b) i
        (warnLevel (fbit s vf i) (decide (i < 3)) x.v (bv s (Reg.BATT_W1V b + 4 * i)) h) t) s1
  else s1

/-- The registers and signals of battery `b` after a step (R294, R296). -/
def battRegs (s : State) (b : Fin 2) : State :=
  let x := battOf s b
  let vals : List (Nat × Rat) := [(Reg.BATT_V b, x.v), (Reg.BATT_I b, x.i), (Reg.BATT_T b, x.temp), (Reg.BATT_SOC b, x.socv),
    (Reg.BATT_SOCQ b, x.socq), (Reg.BATT_OCV b, battOcv s b x.socv x.temp), (Reg.BATT_V1 b, x.v1), (Reg.BATT_V2 b, x.v2),
    (Reg.BATT_U b, x.u), (Reg.BATT_QCAP b, x.qcap), (Reg.BATT_SOH b, if bv s (Reg.BATT_QRATED b) = 0 then 0 else x.qcap / bv s (Reg.BATT_QRATED b)),
    (Reg.BATT_R0F b, x.r0f), (Reg.BATT_SOCA b, x.soca), (Reg.BATT_QSUM b, x.qsum)]
  let s1 := vals.foldl (fun s e => wr s e.1 (vwOf e.2)) s
  let s2 := wr s1 (Reg.BATT_AGE b) (BitVec.ofNat 32 (min x.age.floor.toNat (2 ^ 32 - 1)))
  let sig : List Rat := [x.socv, sDis s b, sChg s b, x.v, x.i, x.temp, x.u, if battValid s b then 1 else 0]
  let f : Fin 16 → Word := fun k =>
    if k.val / 8 = b.val then vwOf (sig.getD (k.val % 8) 0) else s.battEngine.get k
  { s2 with battEngine := Vector.ofFn f }

/-! ### The converter (R273) -/

/-- The converters run (R273). -/
def battRuns (s : State) : Bool :=
  devState s == .idle || devState s == .armed || devState s == .safe || devState s == .test

/-- The number of the 10 ms window that a tick lies in: the windows are half-open (R22, R274; log entry 154). -/
def battWindow (tick : Nat) : Nat := tick / 10000

/-- BATT_CONV_DONE (R273): a voltage sample of the 1 kSa/s converter; an end code sets VOVR, fault 0x0605. -/
def execBattConvDone (b : Fin 2) (code : BitVec 16) (s : State) : Host.Outcome State Fault Refusal :=
  if battRuns s && s.tick % 1000 == 0 && (battOf s b).convAt != some s.tick then
    let s1 := setBatt s b fun x => { x with
      convAt := some s.tick, samples := x.samples ++ [(battWindow s.tick, code.toNat)] }
    if code = 0 ∨ code = 65535 then
      let s2 := raise (fput s1 (Fld.BATT_STATUS_VOVR b) 1) (Fld.BATT_EVENT_VOVR b)
      .next (report s2 0x0605 0 0 0 (stampI s2))
    else .next s1
  else .next s

/-! ### The step (R274 to R292) -/

/-- UNANCHORED entered, fault 0x0602 (R281). -/
def enterUnanchored (s : State) (b : Fin 2) : State :=
  if battState s b = .unanchored then s
  else
    let s1 := raise (putBattState s b .unanchored) (Fld.BATT_EVENT_UNANCHORED b)
    report s1 0x0602 0 0 0 (stampI s1)

/-- AMAX of battery `b`, seconds (R281). -/
def amaxSec (s : State) (b : Fin 2) : Rat := ((fget s (Fld.BATT_TIMING_AMAX b) * 3600 : Nat) : Rat)

/-- A cold start (R287). -/
def coldStart (s : State) (b : Fin 2) : State :=
  let t := (battOf s b).temp
  let s1 := setBatt s b fun x =>
    let z := battInvOcv s b (x.v - battModel s b 0 t * x.i) t
    { x with socv := z, socq := z, soca := z, v1 := 0, v2 := 0, qcap := bv s (Reg.BATT_QRATED b), r0f := 1, qsum := 0
             u := min (bv s (Reg.BATT_UCOLD b)) 1, age := amaxSec s b, coldDue := false, gap := none, rest := none, credit := 0 }
  enterUnanchored (fput (fput s1 (Fld.BATT_STATUS_DISAGREE b) 0) (Fld.BATT_STATUS_COLD b) 1) b

/-- Absent: BnTH broken, or an ID code of no battery (R286). -/
def battAbsent (s : State) (b : Fin 2) : Bool :=
  let c := fget s (Fld.BATT_STATUS_IDCODE b)
  (battOf s b).thBad || (bit s (Fld.BATT_CFG_ID_USE b) && (c == 0 || c == 15))

/-- The cause of fault 0x0601 is gone (R287). -/
def battPresent (s : State) (b : Fin 2) : Bool := !battAbsent s b

/-- Absence or a swap seen at a step (R286), fault 0x0601. -/
def judgePresence (s : State) (b : Fin 2) : State :=
  let a := battAbsent s b
  let seen := (a && !(battOf s b).absSeen) || (battOf s b).swapped
  let s1 := setBatt (fputB s (Fld.BATT_STATUS_ABSENT b) a) b fun x => { x with swapped := false, absSeen := a }
  if seen then
    let s2 := raise (fput (putBattState s1 b .invalid) (Fld.BATT_STATUS_CHG_INH b) 1) (Fld.BATT_EVENT_SWAP b)
    let s3 := fput (setBatt s2 b fun x => { x with rest := none, gap := none }) (Fld.BATT_STATUS_RESTING b) 0
    report s3 0x0601 1 5 b (stampI s3)
  else s1

/-- V, I and validity of the step from its window (R273, R274, R275). -/
def battInputs (s : State) (b : Fin 2) : State :=
  let x := battOf s b
  let k := battWindow s.tick
  let mine := (x.samples.filter fun e => e.1 + 1 == k).map Prod.snd
  let endCode := mine.any fun c => c == 0 || c == 65535
  let ok := mine.length == 10 && !endCode
  let mean : Rat := ((mine.sum : Nat) : Rat) / 10
  let v := if ok then mean * (8 / 10) / 65536 * bv s (Reg.BATT_VSCALE b) else x.v
  let dq := ((x.charge.filter fun e => e.1 + 1 == k).map Prod.snd).sum
  setBatt (fputB s (Fld.BATT_STATUS_VOVR b) endCode) b fun x =>
    { x with v := v, i := dq / battDt - bv s (Reg.BATT_IPAR b), valid := ok
             samples := x.samples.filter fun e => decide (k ≤ e.1), charge := x.charge.filter fun e => decide (k ≤ e.1) }

/-- The anchor age after `g` more seconds (R281, R291): it saturates as its register does. -/
def ageAfter (x : BattSt) (g : Rat) : Rat := min (x.age + g) ((2 ^ 32 - 1 : Nat) : Rat)

/-- U after a growth of `h` seconds of age in UNANCHORED: 0.005 per hour, at most 1 (R281, R291). -/
def uAfter (u h : Rat) : Rat := min (u + 5 / 1000 * max 0 h / 3600) 1

/-- The time since the last count passes (R281, R279, R282): the age of an enabled battery grows, with U from the moment on at which it is
UNANCHORED (by its age, in ANCHORED), and so do the times of rest and of the gap. -/
def battAdvance (s : State) (b : Fin 2) : State :=
  if !bit s (Fld.BATT_CFG_EN b) then setBatt s b fun x => { x with upTo := s.tick }
  else
    let st := battState s b
    let am := amaxSec s b
    setBatt s b fun x =>
      let d := s.tick - x.upTo
      let g : Rat := (d : Rat) / 1000000
      let age := ageAfter x g
      let h := match st with | .unanchored => g | .anchored => age - max x.age am | _ => 0
      { x with
        upTo := s.tick, age := age, u := uAfter x.u h
        rest := x.rest.map (· + d), gap := x.gap.map (· + d) }

/-- The charge account, the RC voltages and the observer of one step (R277), with the part of U that counts charge (R281). -/
def battObserve (s : State) (b : Fin 2) : State :=
  let t := (battOf s b).temp
  let m := fun (k : Nat) => battModel s b k t
  setBatt s b fun x =>
    let dq := x.i * battDt / (3600 * x.qcap)
    let socp := x.socv + dq
    let a1 := expR (-battDt / m 2)
    let a2 := expR (-battDt / m 4)
    let v1 := a1 * x.v1 + m 1 * (1 - a1) * x.i
    let v2 := a2 * x.v2 + m 3 * (1 - a2) * x.i
    let vm := battOcv s b socp t + m 0 * x.r0f * x.i + v1 + v2
    let ls := bv s (Reg.BATT_LSTEP b)
    let socv := if x.valid then clip01 (socp + clipR (bv s (Reg.BATT_LGAIN b) * (x.v - vm)) (-ls) ls) else clip01 socp
    let ai := if x.i < 0 then -x.i else x.i
    let u := x.u + bv s (Reg.BATT_UQ b) * ai * battDt / (3600 * x.qcap)
    { x with socv := socv, socq := clipR (x.socq + dq) (-1) 2, qsum := x.qsum + x.i * battDt / 3600
             v1 := v1, v2 := v2, u := min u 1 }

/-- The part of U that counts charge, where no observer runs: in INVALID, at every step (R281). Before any QCAP is known (it is 0) the rule
divides by zero and states no result: U is then a free value, at most 1 (log entry 178). -/
def battGrowU (s : State) (b : Fin 2) : State :=
  let x := battOf s b
  let ai := if x.i < 0 then -x.i else x.i
  if x.qcap = 0 then
    setBatt { s with free := s.free + 1 } b fun x => { x with u := min (vwVal (Config.freeWord s.free)) 1 }
  else setBatt s b fun x => { x with u := min (x.u + bv s (Reg.BATT_UQ b) * ai * battDt / (3600 * x.qcap)) 1 }

/-- The ratio r of R278 for a voltage step `dv` and a current step `di`; it divides by zero for di = 0, which only IDSTEP = 0 lets through, or
for R0 = 0, and the spec states no result then: free value `n` (log entry 178). -/
def adaptRatio (dv di r0 : Rat) (n : Nat) : Rat := if di * r0 = 0 then vwVal (Config.freeWord n) else dv / (di * r0)

/-- R0F adapts on a current step between two steps with valid voltages (R278): `p` is the step before. -/
def battAdapt (s : State) (b : Fin 2) (p : BattSt) : State :=
  let x := battOf s b
  let di := x.i - p.i
  let adi := if di < 0 then -di else di
  if x.valid && p.valid && decide (bv s (Reg.BATT_IDSTEP b) ≤ adi) then
    let r := adaptRatio (x.v - p.v) di (battModel s b 0 x.temp) s.free
    let s1 := { s with free := s.free + 1 }
    if 1 / 2 ≤ r ∧ r ≤ 4 then setBatt s1 b fun x => { x with r0f := x.r0f + bv s (Reg.BATT_KR b) * (r - x.r0f) } else s1
  else s

/-- TREST of battery `b`, ticks (R279). -/
def trestTicks (s : State) (b : Fin 2) : Nat := 1000000 * fget s (Fld.BATT_TIMING_TREST b)

/-- Rest and the timing of the gap (R279, R282, R292): a credited rest counts from before the wake. -/
def battTimers (s : State) (b : Fin 2) : State :=
  let x := battOf s b
  let ai := if x.i < 0 then -x.i else x.i
  let quiet := decide (ai < bv s (Reg.BATT_IREST b))
  let credit := (x.credit * 1000000).floor.toNat
  let tr := trestTicks s b
  let rest : Option Nat × Nat := if !quiet then (none, 0)
    else match x.rest with
      | some n => (some n, x.restDue)
      | none => (some credit, tr)
  let d := x.socv - x.socq
  let far := decide (bv s (Reg.BATT_DTHR b) < (if d < 0 then -d else d))
  let gap := if !far || bit s (Fld.BATT_STATUS_DISAGREE b) then none
    else match x.gap with | some n => some n | none => some 0
  fputB (setBatt s b fun x => { x with rest := rest.1, restDue := rest.2, gap := gap, credit := 0 })
    (Fld.BATT_STATUS_RESTING b) quiet

/-! ### Snapshot and restore (R288 to R291) -/

/-- The state block of R289 with a given sequence number. -/
def battBlock (s : State) (b : Fin 2) (seq : Nat) : List Byte :=
  let x := battOf s b
  let vw := fun (r : Rat) => leBytes 4 (vwOf r).toNat
  let id := if bit s (Fld.BATT_CFG_ID_USE b) then fget s (Fld.BATT_STATUS_IDCODE b) else 0
  let flags := fget s (Fld.BATT_STATUS_DISAGREE b) + 2 * fget s (Fld.BATT_STATUS_COLD b)
  let body := leBytes 4 0x53424D5A ++ leBytes 1 1 ++ leBytes 1 b ++ leBytes 1 id ++ leBytes 1 flags ++
    leBytes 4 (rd s (Reg.BATT_IDENT b)).toNat ++ leBytes 4 seq ++ leBytes 8 (stampI s) ++
    vw x.socv ++ vw x.socq ++ vw x.soca ++ vw x.qsum ++ vw x.qcap ++ vw x.r0f ++ vw x.u ++
    leBytes 4 (min x.age.floor.toNat (2 ^ 32 - 1)) ++ vw x.v1 ++ vw x.v2 ++ vw x.temp ++ List.replicate 56 0
  body ++ leBytes 4 (crc32 body).toNat

/-- A snapshot formed into BATT_SAVE (R288). -/
def formSnapshot (s : State) (b : Fin 2) : State :=
  let n := (fget s ⟨Reg.BATT_SEQ b, 0, 32⟩ + 1) % 2 ^ 32
  let blk := battBlock s b n
  let s1 := (List.range 32).foldl (fun s w =>
    wr s (Reg.BATT_SAVE b w) (BitVec.ofNat 32 (ofLeBytes ((blk.drop (4 * w)).take 4)))) s
  let s2 := raise (wr s1 (Reg.BATT_SEQ b) (BitVec.ofNat 32 n)) (Fld.BATT_EVENT_SNAP_READY b)
  setBatt s2 b fun x => { x with snapDue := false }

/-- Word `w` of the restore block. -/
def resWord (s : State) (b : Fin 2) (w : Nat) : Word := rd s (Reg.BATT_RESTORE b w)

/-- The reason for which a restore block is refused, 0 when none holds (R290). -/
def restoreReason (s : State) (b : Fin 2) : Nat :=
  let w := resWord s b
  let v := fun (k : Nat) => vwVal (w k)
  let out := fun (k : Nat) (lo hi : Rat) => decide (v k < lo) || decide (hi < v k)
  let body := (List.range 31).flatMap fun k => leBytes 4 (w k).toNat
  let q := bv s (Reg.BATT_QRATED b)
  if !bit s (Fld.BATT_CFG_EN b) || battState s b == .invalid then 1
  else if !bit s (Fld.BATT_STATUS_COLD b) then 2
  else if w 0 != 0x53424D5A || getBits (w 1) 0 8 != 1 then 3
  else if crc32 body != w 31 then 4
  else if getBits (w 1) 8 8 != b.val then 5
  else if bit s (Fld.BATT_CFG_ID_USE b) && getBits (w 1) 16 8 != fget s (Fld.BATT_STATUS_IDCODE b) then 6
  else if w 2 != rd s (Reg.BATT_IDENT b) then 7
  else if (w 3).toNat < (rd s (Reg.BATT_SEQ b)).toNat then 8
  else if getBits (w 1) 26 6 != 0 || ((List.range 14).any fun k => w (17 + k) != 0) ||
      ((List.range 7).any fun k => vwReserved (w (6 + k))) || vwReserved (w 14) || vwReserved (w 15) || vwReserved (w 16) ||
      out 6 0 1 || out 7 (-1) 2 || out 8 0 1 || out 10 (q / 2) (q * 12 / 10) || out 11 (1 / 2) 4 || out 12 0 1 then 9
  else 0

/-- The debit of a time `g` in seconds by the constant drain, and the growth of age and U with it (R291, R292). -/
def battElapse (s : State) (b : Fin 2) (g : Rat) (x : BattSt) : BattSt :=
  let d := bv s (Reg.BATT_IPAR b) * g
  let t := x.temp
  let age := ageAfter x g
  { x with
    v1 := x.v1 * expR (-g / battModel s b 2 t), v2 := x.v2 * expR (-g / battModel s b 4 t)
    age := age, socq := x.socq - d / (3600 * x.qcap), socv := clip01 (x.socv - d / (3600 * x.qcap))
    qsum := x.qsum - d / 3600, u := uAfter x.u (age - max x.age (amaxSec s b)) }

/-- An accepted restore block takes effect (R291). -/
def applyRestore (s : State) (b : Fin 2) : State :=
  let w := resWord s b
  let v := fun (k : Nat) => vwVal (w k)
  let g : Rat := ((rd s (Reg.BATT_GAP b)).toNat : Rat)
  let s1 := setBatt s b fun x =>
    let y := battElapse s b g { x with
      socv := v 6, socq := v 7, soca := v 8, qsum := v 9, qcap := v 10, r0f := v 11, u := v 12
      age := ((w 13).toNat : Rat), v1 := v 14, v2 := v 15, temp := v 16 }
    { y with temp := x.temp, rest := none, gap := none, coldDue := false }
  let s2 := fput (fput s1 (Fld.BATT_STATUS_DISAGREE b) (getBits (w 1) 24 1)) (Fld.BATT_STATUS_COLD b) (getBits (w 1) 25 1)
  let s3 := if (battOf s2 b).age < amaxSec s2 b then putBattState s2 b .anchored else enterUnanchored s2 b
  raise (wr s3 (Reg.BATT_SEQ b) (w 3)) (Fld.BATT_EVENT_RESTORE_OK b)

/-- A restore judged at a step (R290). -/
def judgeRestore (s : State) (b : Fin 2) : State :=
  let n := restoreReason s b
  let s1 := setBatt s b fun x => { x with restoreDue := false }
  let s2 := fput (fput s1 (Fld.BATT_RRES_REASON b) n) (Fld.BATT_RRES_DONE b) 1
  if n = 0 then applyRestore s2 b
  else
    let s3 := raise s2 (Fld.BATT_EVENT_RESTORE_REF b)
    report s3 0x0604 0 0 0 (stampI s3)

/-! ### What falls at a step: rest point, DISAGREE, UNANCHORED (R279 to R282, R293) -/

/-- A rest point falls at the step (R279): one without a valid voltage defers it. -/
def restPointDue (s : State) (b : Fin 2) : Bool :=
  let x := battOf s b
  battValid s b && x.valid && match x.rest with | some n => decide (x.restDue ≤ n) | none => false

/-- The anchor age has reached AMAX in ANCHORED (R281). -/
def ageOut (s : State) (b : Fin 2) : Bool :=
  battState s b == .anchored && decide (amaxSec s b ≤ (battOf s b).age)

/-- The gap has stayed above DTHR for DTIME (R282). -/
def gapOut (s : State) (b : Fin 2) : Bool :=
  battValid s b && match (battOf s b).gap with
    | some n => decide (1000000 * fget s (Fld.BATT_DTIME_DTIME b) ≤ n)
    | none => false

/-- The end of a step (R284, R288, R294): the warnings judged, registers and signals renewed, a requested snapshot formed. -/
def closeStep (s : State) (b : Fin 2) (snap : Bool) : State :=
  let s1 := battRegs (judgeWarnings (setBatt s b fun x => { x with closing := none }) b) b
  if snap then formSnapshot s1 b else s1

/-- The step ends once nothing of R279 to R282 is left to happen at it: its warnings follow all of that (R284). -/
def endStep (s : State) (b : Fin 2) (snap : Bool) : State :=
  if restPointDue s b || ageOut s b || gapOut s b then setBatt (battRegs s b) b fun x => { x with closing := some snap }
  else closeStep s b snap

/-- The step ended after a rest point, UNANCHORED or DISAGREE, if it waits for that; otherwise its registers renewed. -/
def goOnStep (s : State) (b : Fin 2) : State :=
  match (battOf s b).closing with
  | some snap => endStep s b snap
  | none => battRegs (judgeWarnings s b) b

/-- The model part of a step (R277 to R290): `p` is the estimator before the step. -/
def battWork (s : State) (b : Fin 2) (p : BattSt) : State :=
  let x := battOf s b
  if x.coldDue && x.valid && !battAbsent s b && !bit s (Fld.BATT_STATUS_CHG_INH b) then coldStart s b
  else if battValid s b then battTimers (battAdapt (battObserve s b) b p) b
  else battGrowU s b

/-- BATT_STEP (R274 to R290): one 10 ms step. For a battery that the image does not use, only a requested restore is judged, and refused. -/
def execBattStep (b : Fin 2) (s : State) : Host.Outcome State Fault Refusal :=
  if battRuns s && s.tick % 10000 == 0 && (battOf s b).stepAt != some s.tick then
    let s0 := match (battOf s b).closing with | some snap => closeStep s b snap | none => s
    let p := battOf s0 b
    let snap := p.snapDue
    let s1 := battAdvance (battInputs (setBatt s0 b fun x => { x with stepAt := some s.tick, snapDue := false }) b) b
    let en := bit s1 (Fld.BATT_CFG_EN b)
    let s2 := if en then judgePresence s1 b else s1
    let s3 := if (battOf s2 b).restoreDue then judgeRestore s2 b else s2
    .next (if en then endStep (battWork s3 b p) b snap else if snap then formSnapshot s3 b else s3)
  else .next s

/-- The anchor of a rest point (R280). -/
def battAnchor (s : State) (b : Fin 2) (sa : Rat) : State :=
  let cold := bit s (Fld.BATT_STATUS_COLD b)
  let q := bv s (Reg.BATT_QRATED b)
  let s1 := setBatt s b fun x =>
    let d := sa - x.soca
    let ad := if d < 0 then -d else d
    let qe := x.qsum / d
    let adapt := !cold && decide (3 / 10 ≤ ad) && decide (q / 2 ≤ qe) && decide (qe ≤ q * 12 / 10)
    { x with
      qcap := if adapt then x.qcap + bv s (Reg.BATT_KQ b) * (qe - x.qcap) else x.qcap
      socv := sa, socq := sa, soca := sa, qsum := 0, age := 0, u := min (bv s (Reg.BATT_UANC b)) 1, gap := none }
  let s2 := fput (fput s1 (Fld.BATT_STATUS_DISAGREE b) 0) (Fld.BATT_STATUS_COLD b) 0
  raise (putBattState s2 b .anchored) (Fld.BATT_EVENT_ANCHOR b)

/-- BATT_REST_POINT (R279, R280): a rest point falls at this step, which has a valid voltage. -/
def execBattRestPoint (b : Fin 2) (s : State) : Host.Outcome State Fault Refusal :=
  let x := battOf s b
  if restPointDue s b then
    let tr := trestTicks s b
    let s1 := setBatt s b fun x => { x with restDue := if tr = 0 then x.rest.getD 0 + 1 else (x.rest.getD 0 / tr + 1) * tr }
    let vo := x.v - battModel s b 0 x.temp * x.r0f * x.i - x.v1 - x.v2
    let sa := battInvOcv s b vo x.temp
    .next (goOnStep (if ocvSlope s b sa x.temp < bv s (Reg.BATT_SLOPEMIN b) then raise s1 (Fld.BATT_EVENT_REST_WEAK b)
      else battAnchor s1 b sa) b)
  else .next s

/-- BATT_UNANCHORED (R281): the anchor age reaches AMAX; an anchor of the same step comes first (R293). -/
def execBattUnanchored (b : Fin 2) (s : State) : Host.Outcome State Fault Refusal :=
  if ageOut s b && !restPointDue s b then .next (goOnStep (enterUnanchored s b) b) else .next s

/-- BATT_DISAGREE (R282): the gap has stayed above DTHR for DTIME; an anchor of the same step comes first (R293). -/
def execBattDisagree (b : Fin 2) (s : State) : Host.Outcome State Fault Refusal :=
  if gapOut s b && !restPointDue s b then
    let s1 := setBatt s b fun x => { x with gap := none }
    let s2 := raise (fput s1 (Fld.BATT_STATUS_DISAGREE b) 1) (Fld.BATT_EVENT_DISAGREE b)
    .next (goOnStep (report s2 0x0603 0 0 0 (stampI s2)) b)
  else .next s

/-- BATT_CTRL.SNAP (R288): a snapshot at the next step. -/
def requestSnap (b : Fin 2) (s : State) : State := setBatt s b fun x => { x with snapDue := true }

/-- BATT_SNAP (R288). -/
def execBattSnap (b : Fin 2) (s : State) : Host.Outcome State Fault Refusal := .next (requestSnap b s)

/-- BATT_SAVEP_EXPIRE (R288): the snapshot period expires. -/
def execBattSavepExpire (b : Fin 2) (s : State) : Host.Outcome State Fault Refusal :=
  let p := fget s (Fld.BATT_TIMING_SAVEP b)
  if p != 0 && decide ((battOf s b).saveAt + 60000000 * p ≤ s.tick) then
    .next (setBatt s b fun x => { x with snapDue := true, saveAt := x.saveAt + 60000000 * p })
  else .next s

/-- BATT_CTRL.RESTORE (R290): the block is judged at the next step. -/
def requestRestore (b : Fin 2) (s : State) : State := setBatt s b fun x => { x with restoreDue := true }

/-- BATT_RESTORE (R290). -/
def execBattRestore (b : Fin 2) (s : State) : Host.Outcome State Fault Refusal := .next (requestRestore b s)

/-- A charge added to that of its window (R275). -/
def addCharge (l : List (Nat × Rat)) (w : Nat) (q : Rat) : List (Nat × Rat) :=
  match l with
  | [] => [(w, q)]
  | e :: es => if e.1 = w then (w, e.2 + q) :: es else e :: addCharge es w q

/-- The accumulator of the engine domain at a round boundary (R275). -/
def battRound (s : State) : State :=
  if engineRuns s && s.time.freq != 0 then
    let tr := 1 / ((s.time.cfg.rpc : Rat) * s.time.freq)
    (List.finRange 2).foldl (fun s (b : Fin 2) =>
      let cs := (List.range 32).filter fun c =>
        fget s (Fld.CAPO_COURSE_BATT c) == b.val + 1 && bit s (Fld.BATT_CTERM_SIG_EN b c)
      let q := (cs.map fun c => bv s (Reg.BATT_CTERM_K b c) * vwVal (signal s (fget s (Fld.BATT_CTERM_SIG_SIG b c)) 0 0)).sum
      setBatt s b fun x => { x with charge := addCharge x.charge (battWindow s.tick) (q * tr) }) s
  else s

/-- The live values at their reset values and every signal 0, where the state is cleared (R293, R296; log entry 155). -/
def clearLive (s : State) (b : Fin 2) : State :=
  let s1 := (List.range 14).foldl (fun s k => wr s (Reg.BATT_V b + 4 * k) (regReset (Reg.BATT_V b + 4 * k))) s
  let s2 := wr s1 (Reg.BATT_AGE b) 0
  { s2 with battEngine := Vector.ofFn fun k => if k.val / 8 = b.val then 0 else s.battEngine.get k }

/-- The fault 0x0601 of battery `b` cleared: charging is no longer inhibited, and a cold start is due (R286, R287). -/
def clearBattFault (s : State) (b : Fin 2) : State :=
  fput (setBatt s b fun x => { x with coldDue := true }) (Fld.BATT_STATUS_CHG_INH b) 0

end Sys2Proof.Machine
end

