-- ==== Sys2Proof/Machine/Eval.lean ====
section
/-! DEFINITION. Sys2Proof/Machine/Eval.lean: what an evaluation of a loop takes from its SFRET: its state, bank, region
and hold value (R82, R144 to R146), and the words of a parameter bank (R92, R153). -/

namespace Sys2Proof.Machine

/-- A loop context changed in what no register holds. -/
def setLoop (s : State) (n : Fin 64) (f : LoopSt → LoopSt) : State := { s with loops := upd s.loops n f }

/-- Word `o` of bank `b` of loop `n`, in the bank area of engine memory (R92, R153). -/
def bankWord (s : State) (n b o : Nat) : Word := engWord s (0x60000 + n * 0x400 + b * 0x200 + o)

/-- The active bank of a loop (R85). -/
def activeBank (s : State) (n : Nat) : Nat := fget s (Fld.LOOP_STATUS_ABANK n)

/-- The ports that the COMMIT words of the active variant write for a loop (R144). -/
def loopPorts (s : State) (n : Nat) : List Nat :=
  let v := fget s Fld.SCHED_STATUS_VACT
  let g := fget s (Fld.LOOP_CFG_GROUP n)
  (s.sched.commits.filter fun c => c.variant == v && (c.ctx == n || (decide (g < 16) && c.ctx == 64 + g))).map (·.port)

/-- The course of a loop, when it belongs to one (R144). -/
def loopCourse (s : State) (n : Nat) : Option Nat :=
  let c := fget s (Fld.LOOP_CFG_COURSE n)
  if c < 32 then some c else none

/-- The state of a loop at its SFRET: the first of R144 whose condition holds; on a loop of no course only the device state
and MAN act. -/
def loopStateNow (s : State) (n : Fin 64) : LoopState :=
  if !loopUsed s n then .off
  else
    let runs : LoopState := if (s.loops.get n).man then .man else .auto
    if devState s != .armed then .hold
    else
      match loopCourse s n with
      | none => runs
      | some c =>
        let ps := loopPorts s n
        let held := ps.any fun p => portOos s p || !portNamed s p || portScopeCovered s p ||
          (match (List.finRange 32)[p]? with | some i => (s.ports.get i).settle.isSome | none => false)
        if courseCovered s c || held then .hold
        else if courseMuted s c || ps.any (portZc s) then .mute
        else runs

/-- The hold value of a loop (R145, R146). -/
def holdValue (s : State) (n : Fin 64) : Word :=
  let l := s.loops.get n
  match l.carry with
  | some v => v
  | none => if l.man then l.uman else bankWord s n (activeBank s n) 0x00C

/-- A preset of R151 still stands at an SFRET: HOLD and MAN track, so a change that takes effect there makes none, and one
that meets a mode change at its boundary makes one only from AUTO to AUTO (R151, R162). -/
def presetStands (l : LoopSt) (st : LoopState) : Bool :=
  l.presetDue && l.ev.state != .hold && l.ev.state != .man &&
    !(st == .auto && l.ev.state != .auto && l.modeAt.isSome && l.modeAt == l.regionAt)

/-- The evaluation of loop `n` whose SFRET is fret `f`: state, region, bank and hold value are taken, and the presets that
fall due in it (R82, R144, R151). -/
def latchEval (s : State) (f : Nat) (n : Fin 64) : State :=
  let st := loopStateNow s n
  let stands := presetStands (s.loops.get n) st
  let run := st == .auto || st == .man
  let s1 := setLoop s n fun l => { l with
    prevState := l.ev.state
    lastEval := some (absFret s f)
    ev := ⟨st, l.region, activeBank s n, holdValue s n, l.uman, l.switchPreset, stands && st == .auto, l.lastEval.isNone⟩
    switchPreset := none
    presetDue := stands && st == .mute
    modeAt := none
    regionAt := none
    carry := if run then none else l.carry }
  fput s1 (Fld.LOOP_STATUS_STATE n) st.code

/-- Every loop whose declared SFRET is fret `f` and whose turn it is takes the state of its evaluation, once (R81, R82, R83);
in the inert interval of an activation every context keeps its state (R451). -/
def latchEvals (s : State) (f : Nat) : State :=
  if s.trust.inert then s else (List.finRange 64).foldl (fun s (n : Fin 64) =>
    if loopUsed s n && loopTurn s n && (match latOf s n with | some e => e.sfret == f | none => false) &&
      (s.loops.get n).lastEval != some (absFret s f) then latchEval s f n
    else s) s

end Sys2Proof.Machine
end

