-- ==== Sys2Proof/Machine/Cmp.lean ====
section
/-! DEFINITION. Sys2Proof/Machine/Cmp.lean: the window comparators of the ports (spec/05): blanking, the glitch filter,
latches and their actions, cycle-by-cycle limits, and thresholds. -/

namespace Sys2Proof.Machine

/-- Comparator CMPc of port p (R191). -/
def cmpOf (s : State) (p : Fin 32) (c : Fin 4) : CmpSt := (s.cmps.get p).get c

/-- A comparator changed in what no register holds. -/
def setCmp (s : State) (p : Fin 32) (c : Fin 4) (f : CmpSt → CmpSt) : State :=
  { s with cmps := upd s.cmps p fun v => upd v c f }

/-- One side of a comparator. -/
def sideOf (x : CmpSt) (hiSide : Bool) : SideSt := if hiSide then x.hi else x.lo

/-- The side is enabled and the comparator powered (R169, R183). -/
def sideOn (s : State) (p : Fin 32) (c : Fin 4) (hiSide : Bool) : Bool :=
  engineRuns s && bit s (Fld.CMP_CFG_ENABLE p c) &&
    (if hiSide then bit s (Fld.CMP_CFG_HI_EN p c) else bit s (Fld.CMP_CFG_LO_EN p c))

/-- The comparators of the port are being swept: their balls are disconnected and their latches never set (R486). -/
def swept (s : State) (p : Fin 32) : Bool :=
  match s.test.sweep with
  | some w => w.port == p
  | none => false

/-- The filtered output of a side (R170). -/
def outFld (p : Fin 32) (c : Fin 4) (hiSide : Bool) : Field :=
  if hiSide then Fld.CMP_STATUS_OUT_HI p c else Fld.CMP_STATUS_OUT_LO p c

/-- The latch of a side (R170). -/
def latFld (p : Fin 32) (c : Fin 4) (hiSide : Bool) : Field :=
  if hiSide then Fld.CMP_STATUS_LAT_HI p c else Fld.CMP_STATUS_LAT_LO p c

/-! ### Inputs, thresholds and hysteresis (R167 to R169) -/

/-- The voltage at the comparator for an input of `v` volts at its balls: the current comparators see it after the PGA (R167). -/
def cmpSeen (s : State) (p : Fin 32) (c : Fin 4) (v : Rat) : Rat :=
  if c.val = 0 ∨ c.val = 3 then 2 / 5 + ((2 ^ fget s (Fld.PORT_CFG_PGA p) : Nat) : Rat) * v else v

/-- The analogue output of a side as the sample of absolute fret `f` first sees it (R170). -/
def SideSt.put (d : SideSt) (on : Bool) (f : Nat) : SideSt :=
  if d.on = on then d
  else
    let h := d.hist.filter fun e => e.1 != f
    ⟨on, if h.head?.map (·.2) = some on then h else ((f, on) :: h).take 4⟩

/-- Both sides of a comparator under its input and its active thresholds, sampled from absolute fret `f` on (R169, R180, R184). -/
def senseCmp (s : State) (p : Fin 32) (c : Fin 4) (f : Nat) : State :=
  let v := cmpSeen s p c (cmpOf s p c).level
  let h := hystVolt (fget s (Fld.CMP_CFG_HYST p c))
  let hi := codeVolt (fget s (Fld.CMP_THR_ACT_HI p c))
  let lo := codeVolt (fget s (Fld.CMP_THR_ACT_LO p c))
  setCmp s p c fun x => { x with hi := x.hi.put (overSide x.hi.on v hi h) f, lo := x.lo.put (underSide x.lo.on v lo h) f }

/-- The comparator begins to run in absolute fret `f` (R183): its sides take their outputs, and its filters count from there. -/
def powerCmp (s : State) (p : Fin 32) (c : Fin 4) (f : Nat) : State :=
  senseCmp (setCmp s p c fun x => { x with hi := ⟨false, []⟩, lo := ⟨false, []⟩, blanks := [], filtFrom := f, setNow := false }) p c f

/-! ### Blanking and the glitch filter (R170, R171) -/

/-- A blanking interval [f, f + b) added: it extends an open one (R171). -/
def addBlank (f b : Nat) : List (Nat × Nat) → List (Nat × Nat)
  | (a, z) :: l => if f ≤ z then (a, max z (f + b)) :: l else [(f, f + b), (a, z)]
  | [] => [(f, f + b)]

/-- The end of the latest blanking interval (R171). -/
def blankEnd (x : CmpSt) : Nat := match x.blanks with | (_, z) :: _ => z | [] => 0

/-- Absolute fret `f` lies in a blanking interval (R171). -/
def blankedAt (x : CmpSt) (f : Nat) : Bool := x.blanks.any fun b => decide (b.1 ≤ f) && decide (f < b.2)

/-- An edge of output `g` in absolute fret `f` opens or extends the blanking of the comparators that BMASK names (R171). -/
def openBlanking (s : State) (p : Fin 32) (g : Gate) (f : Nat) : State :=
  (List.finRange 4).foldl (fun s (c : Fin 4) =>
    let b := fget s (Fld.CMP_TIME_BLANK p c)
    if fbit s (Fld.CMP_CFG_BMASK p c) g.idx && b != 0 then
      fput (setCmp s p c fun x => { x with blanks := addBlank f b x.blanks }) (Fld.CMP_STATUS_BLANKED p c) 1
    else s) s

/-- The first sample that the filter of a side counts in the run of active samples which ends with that of absolute fret `j`;
none when that sample counts as inactive (R170, R174). -/
def runStart (x : CmpSt) (d : SideSt) (j : Nat) : Option Nat :=
  match d.hist.find? fun e => decide (e.1 ≤ j) with
  | some (a, true) =>
    match x.blanks.find? fun b => decide (b.1 ≤ j) with
    | some b => if j < b.2 then none else some (max (max a b.2) x.filtFrom)
    | none => some (max a x.filtFrom)
  | _ => none

/-- The filtered output of a side at absolute fret `k`: at least max(GF, 1) consecutive active samples are visible, each visible
two frets after it is taken (R23, R170). -/
def filterPasses (s : State) (p : Fin 32) (c : Fin 4) (hiSide : Bool) (k : Nat) : Bool :=
  let x := cmpOf s p c
  sideOn s p c hiSide && !swept s p && decide (2 ≤ k) &&
    match runStart x (sideOf x hiSide) (k - 2) with
    | some a => decide (a + max (fget s (Fld.CMP_TIME_GF p c)) 1 ≤ k - 1)
    | none => false

/-- CMP_STATUS of a comparator shows its filtered outputs and its blanking of absolute fret `k`; without power, outputs and latches
read 0 (R171, R183, R192). -/
def showCmp (s : State) (p : Fin 32) (c : Fin 4) (k : Nat) : State :=
  let s1 := fputB (fputB s (outFld p c true) (filterPasses s p c true k)) (outFld p c false) (filterPasses s p c false k)
  let s2 := fputB s1 (Fld.CMP_STATUS_BLANKED p c) (blankedAt (cmpOf s p c) k)
  if bit s (Fld.CMP_CFG_ENABLE p c) then s2 else fput (fput s2 (latFld p c true) 0) (latFld p c false) 0

/-- CMP_CROSSING (R167 to R170): in fret `fret` the balls of a comparator's input come to `vp` and `vn` volts (PnnIP and PnnIN, or
PnnVO or PnnVI and ground); each side follows under
its threshold and hysteresis, and the sample of the next fret is the first to show it. -/
def execCmpCrossing (p : Fin 32) (c : Fin 4) (vp vn : Rat) (fret : Nat) (s : State) : Host.Outcome State Fault Refusal :=
  .next (senseCmp (setCmp s p c fun x => { x with level := vp - vn }) p c (absFret s fret + 1))

/-! ### Edges of the gate outputs (R109, R171, R487) -/

/-- One gate output of a port changed. -/
def setGate (s : State) (p : Fin 32) (g : Gate) (f : GateSt → GateSt) : State :=
  { s with ports := upd s.ports p fun x => { x with gates := upd x.gates g.idx f } }

/-- One gate output of a port. -/
def gateOf (s : State) (p : Fin 32) (g : Gate) : GateSt := (s.ports.get p).gates.get g.idx

/-- An edge put at its place in a list of edges. -/
def putEdge (e : EdgeRec) : List EdgeRec → List EdgeRec
  | [] => [e]
  | x :: l => if e.pos < x.pos then e :: x :: l else x :: putEdge e l

/-- An edge of output `g` at absolute step `k` belongs to the carrier that is captured: it is expected there (R487). -/
def expectEdge (s : State) (p : Fin 32) (g : Gate) (k : Nat) (rise : Bool) : State :=
  let pt := s.ports.get p
  match s.test.capture with
  | some c =>
    if c.port = p && c.started && pt.carStart == c.startAt && decide (c.startAt ≤ k) && decide (k < c.startAt + pt.carLen) then
      { s with test := { s.test with capture := some { c with expected := putEdge ⟨k - c.startAt, g, rise⟩ c.expected } } }
    else s
  | none => s

/-- What an edge of output `g` at absolute step `k` brings with it: it is expected in a capture, and opens blanking (R171, R487). -/
def edgeMade (s : State) (p : Fin 32) (g : Gate) (k : Nat) (rise : Bool) : State := openBlanking (expectEdge s p g k rise) p g (k / 64)

/-- A deferred turn-off of output `g` whose step has come (R109 invariant 2). -/
def settleGate (p : Fin 32) (t : Nat) (s : State) (g : Gate) : State :=
  match (gateOf s p g).fall with
  | some k => if k ≤ t then edgeMade (setGate s p g fun x => { x with high := false, offAt := k, fall := none }) p g k false else s
  | none => s

/-- The deferred turn-offs of a port whose step has come by absolute step `t` (R109 invariant 2). -/
def settleGates (s : State) (p : Fin 32) (t : Nat) : State := [Gate.a, .an, .b, .bn].foldl (settleGate p t) s

/-! ### Latches and their actions (R172 to R175) -/

/-- A gate-off of the port by a latch or a driver fault would be accepted: PnnEN is high and its settle time has ended (R120, R172). -/
def accepting (s : State) (p : Fin 32) : Bool := bit s (Fld.PORT_STATUS_EN p) && (s.ports.get p).settle.isNone

/-- What one gate-off of absolute fret `k` turns off counts as on for everything else that is accepted in that fret (R127, R184). -/
def markAccepting (s : State) (k : Nat) : State :=
  { s with ports := Vector.ofFn fun p => if accepting s p then { s.ports.get p with acceptAt := some k } else s.ports.get p }

/-- A latch setting is accepted in absolute fret `k` (R172, R184). -/
def latchAccepted (s : State) (p : Fin 32) (c : Fin 4) (k : Nat) : Bool :=
  fget s (Fld.CMP_CFG_ACTION p c) == 0 || accepting s p || (s.ports.get p).acceptAt == some k

/-- A cycle-by-cycle latch of the port is set: its outputs are held low (R173). -/
def cbcHeld (s : State) (p : Fin 32) : Bool :=
  (List.finRange 4).any fun c => fget s (Fld.CMP_CFG_ACTION p c) == 1 && (bit s (latFld p c true) || bit s (latFld p c false))

/-- The cycle-by-cycle gate-off of a port and its counts (R173, R175). -/
def cbcTrip (s : State) (p : Fin 32) (c : Fin 4) (fret : Nat) : State :=
  let first := !(cmpOf s p c).setNow
  let s1 := { s with ports := upd s.ports p fun x => { x with gates := gatesLow (64 * absFret s fret) x.gates } }
  let s2 := setCmp (if (s.ports.get p).active then abortCapture s1 p else s1) p c fun x => { x with setNow := true }
  let esc := fget s (Fld.CMP_TIME_CBC_ESC p c)
  let s3 := if first then inc s2 (Fld.CMP_CNT_CBC_CNT p c) else s2
  if first && esc != 0 then
    let s4 := inc s3 (Fld.CMP_STATUS_CBC_RUN p c)
    if fget s4 (Fld.CMP_STATUS_CBC_RUN p c) == esc then
      report (raise (fput (markAccepting s4 (absFret s fret)) (Fld.CMP_STATUS_CBC_RUN p c) 0) (Fld.CMP_EVENT_CBC_ESC p c))
        (0x0128 + c) 1 2 (courseOf s p) (stampE s fret)
    else s4
  else s3

/-- What a set latch does (R173). -/
def latchAction (s : State) (p : Fin 32) (c : Fin 4) (hiSide : Bool) (fret : Nat) : State :=
  let code := (if hiSide then 0x0120 else 0x0121) + 2 * c.val
  let m := markAccepting s (absFret s fret)
  match fget s (Fld.CMP_CFG_ACTION p c) with
  | 1 => cbcTrip s p c fret
  | 2 => report m code 1 1 p (stampE s fret)
  | 3 => report m code 1 2 (courseOf s p) (stampE s fret)
  | 4 => report m code 2 0 0 (stampE s fret)
  | _ => s

/-- The latch of a side set, where it is not set and its setting is accepted (R172, R173). -/
def setLatch (s : State) (p : Fin 32) (c : Fin 4) (hiSide : Bool) (fret : Nat) : State :=
  if bit s (latFld p c hiSide) || !latchAccepted s p c (absFret s fret) then s
  else
    let s1 := inc (fput s (latFld p c hiSide) 1) (Fld.CMP_CNT_TRIP_CNT p c)
    let s2 := raise s1 (if hiSide then Fld.CMP_EVENT_TRIP_HI p c else Fld.CMP_EVENT_TRIP_LO p c)
    latchAction s2 p c hiSide fret

/-- CMP_LATCH_SET (R170, R172, R173): the glitch filter of a side passes, its filtered output rises and its latch sets. -/
def execCmpLatchSet (p : Fin 32) (c : Fin 4) (hiSide : Bool) (fret : Nat) (s : State) :
    Host.Outcome State Fault Refusal :=
  let s0 := settleGates s p (64 * absFret s fret)
  if filterPasses s0 p c hiSide (absFret s fret) then .next (setLatch (fput s0 (outFld p c hiSide) 1) p c hiSide fret) else .next s

/-- CMP_BLANK_END (R171): a blanking interval ends in fret `fret`. -/
def execCmpBlankEnd (p : Fin 32) (c : Fin 4) (fret : Nat) (s : State) : Host.Outcome State Fault Refusal :=
  if blankEnd (cmpOf s p c) ≤ absFret s fret then .next (fput s (Fld.CMP_STATUS_BLANKED p c) 0) else .next s

/-- A host write of CMP_LATCH (R174): it acts on the latches of a comparator with CLR = 0 and ACTION NONE, at a round boundary. -/
def writeCmpLatch (p : Fin 32) (c : Fin 4) (v : Word) (s : State) : State :=
  if fget s (Fld.CMP_CFG_ACTION p c) = 0 ∧ !bit s (Fld.CMP_CFG_CLR p c) then
    setCmp s p c fun x => { x with clrHi := x.clrHi || v.getLsbD 0, clrLo := x.clrLo || v.getLsbD 1 }
  else s

/-- CMP_LATCH_WRITE (R174). -/
def execCmpLatchWrite (p : Fin 32) (c : Fin 4) (v : Word) (s : State) : Host.Outcome State Fault Refusal :=
  .next (writeCmpLatch p c v s)

/-- A latch cleared, unless the filtered output is active at the round boundary (R174). -/
def clearLatch (s : State) (p : Fin 32) (c : Fin 4) (hiSide : Bool) : State :=
  if filterPasses s p c hiSide (absFret s 0) then s else fput s (latFld p c hiSide) 0

/-- CMP_LATCH_CLEAR_APPLY (R174): the clears asked for act at a round boundary. -/
def execCmpLatchClearApply (p : Fin 32) (c : Fin 4) (s : State) : Host.Outcome State Fault Refusal :=
  let x := cmpOf s p c
  let s1 := if x.clrHi then clearLatch s p c true else s
  let s2 := if x.clrLo then clearLatch s1 p c false else s1
  .next (setCmp s2 p c fun x => { x with clrHi := false, clrLo := false })

/-- The comparators of a port at its carrier phase 0, in absolute fret `f` (R174, R175): the filter restarts its count, so that no sample
taken before that fret counts toward it (R184). -/
def carrierComparators (s : State) (p : Fin 32) (f : Nat) : State :=
  (List.finRange 4).foldl (fun s (c : Fin 4) =>
    let s1 := if (cmpOf s p c).setNow then s else fput s (Fld.CMP_STATUS_CBC_RUN p c) 0
    let s2 := setCmp s1 p c fun x => { x with setNow := false }
    if bit s2 (Fld.CMP_CFG_CLR p c) then
      let s3 := fput (fput s2 (latFld p c true) 0) (latFld p c false) 0
      let s4 := fput (fput s3 (outFld p c true) 0) (outFld p c false) 0
      setCmp s4 p c fun x => { x with filtFrom := f }
    else s2) s

/-- At an update point the active thresholds take the shadow values, LO mirrored where the image says so, and the sides follow them
(R180, R181, R184). -/
def updateThresholds (s : State) (p : Fin 32) (t : Nat) : State :=
  (List.finRange 4).foldl (fun s (c : Fin 4) =>
    let x := cmpOf s p c
    let hi := x.shHi.get t
    let lo := if bit s (Fld.CMP_CFG_MIRROR p c) then min (1024 - hi) 1023 else x.shLo
    senseCmp (fput (fput s (Fld.CMP_THR_ACT_HI p c) hi) (Fld.CMP_THR_ACT_LO p c) lo) p c ((t + 63) / 64)) s

/-- The engine writes the HI shadow at the end of the fret that begins at absolute step `t` (R178, R180). -/
def writeHiShadow (s : State) (p : Fin 32) (c : Fin 4) (q t : Nat) : State :=
  fput (setCmp s p c fun x => { x with shHi := x.shHi.put t 64 q }) (Fld.CMP_THR_HI p c) q

/-- A host write of CMP_THR (R179, R180): an owned HI is left unchanged; the rest waits for a round boundary. -/
def writeCmpThr (p : Fin 32) (c : Fin 4) (v : Word) (s : State) : State :=
  let lo := getBits v 0 10
  let hi := getBits v 16 10
  let s1 := fput s (Fld.CMP_THR_LO p c) lo
  if bit s (Fld.CMP_STATUS_HI_OWNED p c) then
    raise (setCmp s1 p c fun x => { x with thrPend := some (lo, none) }) (Fld.CMP_EVENT_THR_OWNED p c)
  else
    fput (setCmp s1 p c fun x => { x with thrPend := some (lo, some hi) }) (Fld.CMP_THR_HI p c) hi

/-- CMP_THR_WRITE (R179). -/
def execCmpThrWrite (p : Fin 32) (c : Fin 4) (v : Word) (s : State) : Host.Outcome State Fault Refusal :=
  .next (writeCmpThr p c v s)

/-- CMP_THR_SHADOW_APPLY (R180): a host threshold write reaches the port shadows at a round boundary. -/
def execCmpThrShadowApply (p : Fin 32) (c : Fin 4) (s : State) : Host.Outcome State Fault Refusal :=
  match (cmpOf s p c).thrPend with
  | none => .next s
  | some (lo, hi) =>
    .next (setCmp s p c fun x => { x with
      thrPend := none, shLo := lo
      shHi := match hi with | some h => x.shHi.put (64 * s.time.base) 0 h | none => x.shHi })

/-- A write of CMP_CTRL with CNT_CLR = 1 clears CMP_CNT (R192). -/
def clearCmpCnt (p : Fin 32) (c : Fin 4) (s : State) : State := wr s (Reg.CMP_CNT p c) 0

/-- CMP_CNT_CLR (R191, R192). -/
def execCmpCntClr (p : Fin 32) (c : Fin 4) (s : State) : Host.Outcome State Fault Refusal := .next (clearCmpCnt p c s)

end Sys2Proof.Machine
end

