-- ==== Sys2Proof/Machine/Ports.lean ====
section
/-! DEFINITION. Sys2Proof/Machine/Ports.lean: the stage ports (spec/03): the port ADC, carriers, update points, nominal
edges, dead times and the output invariants, the enable settle and the driver fault. -/

namespace Sys2Proof.Machine

/-! ### The port ADC (R97 to R103) -/

/-- Minimum strobe spacing of the profile in force, frets; the sample-ready delay is the same number (R99). -/
def adcSpacing (s : State) : Nat := match s.time.cfg.profile with | 0 => 20 | 1 => 40 | _ => 10

/-- The sample register of a channel: 0 current, 1 VO, 2 VI (R97, R129). -/
def sampReg (p c : Nat) : Nat := match c with | 0 => Reg.PORT_SAMP_I p | 1 => Reg.PORT_SAMP_VO p | _ => Reg.PORT_SAMP_VI p

/-- SAMPLE (R99, R100): the track-and-hold of a channel closes; a strobe too soon is ignored, counted and reported.
The evaluations whose SFRET is this fret take their state here (R82, R144). -/
def execSample (l : LaneFields) (fret : Nat) (s : State) : Host.Outcome State Fault Refusal :=
  if !laneActs s 0x01 l then .next s
  else
    let s0 := latchEvals s fret
    let p := l.port.toFin
    let t := absFret s fret
    let busy := match (s0.ports.get p).strobe with | some k => decide (t < k + adcSpacing s0) | none => false
    if busy then
      let s1 := raise (inc s0 (Fld.PORT_CNT_ADC_BUSY_CNT p)) (Fld.PORT_EVENT_ADC_BUSY p)
      .next (report s1 0x0102 0 0 0 (stampE s1 fret))
    else
      .next { s0 with ports := upd s0.ports p fun x => { x with strobe := some t, conv := some (l.argBits 0 2) } }

/-- The code of the hold: the mean of two codes in BALANCED, rounded half up (R99). -/
def adcMean (s : State) (c1 c2 : Int) : Int := if s.time.cfg.profile = 1 then (c1 + c2 + 1).fdiv 2 else c1

/-- End codes of a channel (R97). -/
def adcEnds (c : Nat) : Int × Int := if c = 0 then (-8192, 8191) else (0, 16383)

/-- A hold converts to an end code (R102): in BALANCED either of the two. The raw holds are judged, before the trims of R103 (DESIGN CHOICE:
log entry 16). -/
def adcOver (s : State) (c : Nat) (c1 c2 : Int) : Bool :=
  let e := adcEnds c
  let ends := fun (x : Int) => decide (x ≤ e.1) || decide (e.2 ≤ x)
  ends c1 || (s.time.cfg.profile == 1 && ends c2)

/-- A conversion with the factory trims applied, gain before offset (R103): exact but for the rounding to a code, which the spec does
not state (log entry 16). -/
def adcTrimmed (s : State) (p : Nat) (raw : Int) : Int :=
  let x : Rat := (raw : Rat) * (1 + (fgetS s (Fld.PORT_TRIM_GAIN_TRIM p) : Rat) * pow2 (-20)) + (fgetS s (Fld.PORT_TRIM_OFS_TRIM p) : Rat) / 16
  if x = (x.floor : Rat) then x.floor else if Config.adcRoundUp x then x.floor + 1 else x.floor

/-- The code that a conversion delivers: each hold clipped to the end codes, their mean trimmed once and clipped (R99, R102, R103; DESIGN
CHOICE: log entry 16). -/
def adcCode (s : State) (p : Nat) (c : Nat) (c1 c2 : Int) : Int :=
  let e := adcEnds c
  clipI (adcTrimmed s p (adcMean s (clipI c1 e.1 e.2) (clipI c2 e.1 e.2))) e.1 e.2

/-- ADC_CONV_DONE (R80, R99, R102, R103): at fret `d.fret`, no earlier than the sample-ready delay, the conversion in progress completes
with its raw code (two in BALANCED). -/
def execAdcConvDone (d : PortFret) (c1 c2 : Int) (s : State) : Host.Outcome State Fault Refusal :=
  let p := d.port
  let x := s.ports.get p
  match x.conv, x.strobe with
  | some c, some k =>
    if absFret s d.fret < k + adcSpacing s then .next s
    else
      let ovr := adcOver s c c1 c2
      let a := sampReg p c
      let s1 := { s with ports := upd s.ports p fun x => { x with conv := none } }
      let s2 := fput s1 ⟨a, 0, 14⟩ (ofSigned 14 (adcCode s p c c1 c2))
      let s3 := fput s2 ⟨a, 14, 1⟩ 0
      let s4 := fputB s3 ⟨a, 15, 1⟩ ovr
      let s5 := fput s4 ⟨a, 16, 16⟩ (fget s4 ⟨a, 16, 16⟩ + 1)
      .next (if ovr then raise s5 (Fld.PORT_EVENT_ADC_OVR p) else s5)
  | _, _ => .next s

/-! ### Carriers (R105 to R107, R115, R116) -/

/-- Numerator and denominator of m by PORT_CARRIER.RATIO (R105). -/
def ratioM (r : Nat) : Nat × Nat := match r with | 0 => (1, 4) | 1 => (1, 2) | n => (2 ^ (n - 2), 1)

/-- A free-carrier port (R115). -/
def isFree (s : State) (p : Nat) : Bool := bit s (Fld.PORT_CFG_FREE p)

/-- The carrier period P of a port that is not free-carrier, steps (R105). -/
def fixedPeriod (s : State) (p : Nat) : Nat :=
  let m := ratioM (fget s (Fld.PORT_CARRIER_RATIO p))
  s.time.cfg.rlen * 64 * m.1 / m.2

/-- The PERIOD value active at a carrier start of a free-carrier port (R111, R115). -/
def freePeriod (s : State) (p : Nat) (q : Int) : Nat :=
  let lo := fget s (Fld.PORT_PMIN_PMIN p)
  let hi := fget s (Fld.PORT_PMAX_PMAX p)
  hi - (q.toNat * (hi - lo) + 2 ^ 23) / 2 ^ 24

/-- The period of the next carrier of a port. -/
def periodOf (s : State) (p : Fin 32) : Nat :=
  if isFree s p then fget s (Fld.PORT_PERIOD_PERIOD p) else fixedPeriod s p

/-- The length of a cycle, steps. -/
def cycleSteps (s : State) : Nat := 64 * s.time.cfg.rpc * s.time.cfg.rlen

/-- Where the first carrier of a cycle begins, steps from its start (R106). SHIFT_PORT moves the edges of a carrier and leaves its
update points and its phase 0 (R111, R114; DEDUCED: log entry 132). -/
def firstCarrier (s : State) (p : Fin 32) : Nat := fget s (Fld.PORT_CARRIER_OFFSET p)

/-- Step `t` of this round is a carrier start of port `p` (R106, R115, R116). The last anchor of a cycle whose RPC m does not divide
may lie, by OFFSET, before the first carrier of the next cycle (R107). -/
def carrierDue (s : State) (p : Fin 32) (t : Nat) : Bool :=
  let pt := s.ports.get p
  if isFree s p then
    64 * s.time.base + t == (if pt.carrier then pt.carStart + pt.carLen else 64 * s.sched.startAt + fget s (Fld.PORT_CARRIER_OFFSET p))
  else
    let per := fixedPeriod s p
    let first := firstCarrier s p
    let now := 64 * s.time.round * s.time.cfg.rlen + t
    per != 0 && ((decide (first ≤ now) && (now - first) % per == 0) ||
      (pt.carrier && decide (now < first) && decide (first ≤ now + cycleSteps s) && (now + cycleSteps s - first) % per == 0))

/-- The length of the carrier that begins at step `t` of this round: cut at the first carrier of the next cycle (R107). -/
def carrierLength (s : State) (p : Fin 32) (t : Nat) : Nat :=
  let per := periodOf s p
  if isFree s p then per
  else
    let first := firstCarrier s p
    let now := 64 * s.time.round * s.time.cfg.rlen + t
    min per ((if now < first then 0 else cycleSteps s) + first - now)

/-- R107 shortens the last carrier of the cycle: m > 1 does not divide RPC. -/
def shortCycle (s : State) (p : Nat) : Bool :=
  let m := ratioM (fget s (Fld.PORT_CARRIER_RATIO p))
  !isFree s p && m.2 == 1 && s.time.cfg.rpc % m.1 != 0

/-! ### Nominal edges (R110, R123, R125) -/

/-- A pair of edges within a carrier: the main output of the pair is on in [on, off), steps of the carrier. -/
structure OnInterval where
  main : Gate
  on : Nat
  off : Nat
  deriving DecidableEq, Repr

/-- The on-interval of D steps by the mode of the pair (R110). -/
def modeInterval (g : Gate) (centre : Bool) (per d : Nat) : OnInterval :=
  if centre then
    let b := (per - d) / 2
    ⟨g, b, b + d⟩
  else ⟨g, 0, d⟩

/-- The interval shifted by `k` steps, modulo P (R111): start and end of the on-interval. -/
def shiftInterval (i : OnInterval) (per : Nat) (k : Int) : OnInterval :=
  if per = 0 ∨ k = 0 then i else
    ⟨i.main, (((i.on : Int) + k) % (per : Int)).toNat, (((i.off : Int) + k) % (per : Int)).toNat⟩

/-- The main output of pair A (R123, R125). -/
def mainA (s : State) (p : Nat) : Gate :=
  match fget s (Fld.PORT_CFG_TOPO p) with
  | 2 => .an
  | 7 => if bit s (Fld.PORT_STATUS_HALF_NEG p) then .a else .an
  | _ => .a

/-- The interval of pair A before SHIFT_PORT (R110, R115, R123). -/
def intervalA (s : State) (p : Nat) (per : Nat) : OnInterval :=
  let topo := fget s (Fld.PORT_CFG_TOPO p)
  let d := if topo == 5 || topo == 8 || topo == 9 then per / 2 else fget s (Fld.PORT_ONTIME_A_ONTIME p)
  modeInterval (mainA s p) (bit s (Fld.PORT_CFG_MODE_A p)) per d

/-- The interval of pair B before SHIFT_PORT, when the topology switches it within a carrier (R123). -/
def intervalB (s : State) (p : Nat) (per : Nat) : Option OnInterval :=
  let a := intervalA s p per
  match fget s (Fld.PORT_CFG_TOPO p) with
  | 4 => some ⟨.b, a.off, a.on⟩
  | 5 | 8 => some (shiftInterval ⟨.b, a.off, a.on⟩ per (fgetS s (Fld.PORT_SHIFT_B_SHIFT p)))
  | 6 => some (modeInterval .bn (bit s (Fld.PORT_CFG_MODE_B p)) per (fget s (Fld.PORT_ONTIME_B_ONTIME p)))
  | 9 => if bit s (Fld.PORT_CFG_FULLB p) then some ⟨.b, a.off, a.on⟩ else none
  | _ => none

/-- The interval of the pair of an output: SHIFT_PORT moves every edge of the carrier (R111). -/
def intervalOf (s : State) (p : Nat) (g : Gate) (per : Nat) : Option OnInterval :=
  let i := match g with
    | .a | .an => some (intervalA s p per)
    | .b | .bn => intervalB s p per
  i.map fun i => shiftInterval i per (fgetS s (Fld.PORT_SHIFT_SHIFT p))

/-- The carrier step of the nominal edge at which output `g` turns off (R110): the end of its on-interval; the
complement of the main output turns off where that one's on-interval begins. -/
def edgeStep (i : OnInterval) (g : Gate) : Nat := if g = i.main then i.off else i.on

/-- Output `g` is commanded on at carrier phase `ph`. -/
def commandedOn (i : OnInterval) (g : Gate) (ph : Nat) : Bool :=
  let inside := if i.on ≤ i.off then decide (i.on ≤ ph ∧ ph < i.off) else decide (i.on ≤ ph ∨ ph < i.off)
  if g = i.main then inside else !inside

/-! ### Outputs (R108, R109, R528) -/

/-- The dead time before output `g` turns on (R108). The fields name the main output of the ball pair. -/
def deadTime (s : State) (p : Nat) (g : Gate) : Nat :=
  match g with
  | .a => fget s (Fld.PORT_DT_A_DT_ON_A p)
  | .an => fget s (Fld.PORT_DT_A_DT_ON_AN p)
  | .b => fget s (Fld.PORT_DT_B_DT_ON_B p)
  | .bn => fget s (Fld.PORT_DT_B_DT_ON_BN p)

/-- MINP of the profile in force, steps (R99). -/
def minPulse (s : State) : Nat := if s.time.cfg.profile = 2 then 64 else 128

/-- A requested capture begins at carrier phase 0 (R487). -/
def captureStart (s : State) (p : Fin 32) : State :=
  match s.test.capture with
  | some c =>
    if c.port = p && !c.started then
      { s with test := { s.test with capture := some { c with started := true, startAt := (s.ports.get p).carStart } } }
    else s
  | none => s

/-- The nominal edge at absolute step `t` at which a pair comes to command its output `g`: the complement turns off, a high interval
shorter than MINP stretched, a turn-on not yet made cancelled; `g` rises one dead time later, or stays high where its own turn-off was
only deferred (R108, R109, R528; DEDUCED: log entry 132). -/
def commandOn (p : Fin 32) (g : Gate) (t : Nat) (s : State) : State :=
  let s0 := settleGates s p t
  if (gateOf s0 p g).cmd then s0
  else
    let o := gateOf s0 p g.compl
    let early := o.high && decide (t < o.onAt + minPulse s0)
    let offT := if early then o.onAt + minPulse s0 else t
    let s1 := setGate s0 p g.compl fun x => { x with
      high := early, offAt := if x.high && !early then t else x.offAt
      fall := if early then some offT else none, rise := none, cmd := false }
    let s2 := setGate s1 p g fun x => { x with
      cmd := true, fall := none, rise := if x.high then none else some (offT + deadTime s1 p g) }
    let s3 := if early then raise s2 (Fld.PORT_EVENT_STRETCH p) else s2
    if o.high && !early then edgeMade s3 p g.compl t false else s3

/-- The nominal edge of the carrier in progress at which output `g` turns off occurs at absolute step `t` (R110, R112). -/
def edgeOccurs (p : Fin 32) (g : Gate) (t : Nat) (s : State) : State :=
  setGate (if (gateOf s p g).cmd then commandOn p g.compl t s else s) p g fun x => { x with done := true }

/-- The nominal edge of `g` in the carrier in progress is still to come: its step of the carrier. -/
def edgeAhead (s : State) (p : Fin 32) (g : Gate) : Option Nat :=
  let pt := s.ports.get p
  match intervalOf s p g pt.carPer with
  | none => none
  | some i => if !pt.active || cbcHeld s p || (gateOf s p g).done || i.on == i.off then none else some (edgeStep i g)

/-- PWM_EDGE (R110, R112): the nominal edge of output `g` in the carrier in progress, at its commanded position. -/
def execPwmEdge (p : Fin 32) (g : Gate) (s : State) : Host.Outcome State Fault Refusal :=
  let pt := s.ports.get p
  match edgeAhead s p g with
  | some pos => if pos < pt.carLen then .next (edgeOccurs p g (pt.carStart + pos) s) else .next s
  | none => .next s

/-- DEAD_TIME_TURN_ON (R109, R528): output `g` rises one dead time after the nominal edge that commands it. -/
def execDeadTimeTurnOn (p : Fin 32) (g : Gate) (s : State) : Host.Outcome State Fault Refusal :=
  match (gateOf s p g).rise with
  | none => .next s
  | some k =>
    let s1 := settleGates s p k
    if (gateOf s1 p g.compl).high then .next s1
    else if (gateOf s1 p g).high then .next (setGate s1 p g fun x => { x with rise := none })
    else .next (edgeMade (setGate s1 p g fun x => { x with high := true, onAt := k, rise := none }) p g k true)

/-! ### Update points (R111 to R113) -/

/-- q × P rounded to steps (R111). -/
def qSteps (q : Int) (per : Nat) : Int := (q * (per : Int) + 2 ^ 23).fdiv (2 ^ 24)

/-- The commanded on-time of a pair clamped (R113): the value, and whether the clamp acted. -/
def clampOn (s : State) (p : Nat) (main : Gate) (per : Nat) (d : Int) : Nat × Bool :=
  let lo : Int := (deadTime s p main : Int) + minPulse s
  let hi : Int := (per : Int) - deadTime s p main.compl - minPulse s
  let v := clipI d lo hi
  (v.toNat, v != d)

/-- A clamp that acted (R113): the flag of the round, the event, and the count of rounds with a clamp. -/
def noteClamp (s : State) (p : Fin 32) : State :=
  let s1 := raise (fput s (Fld.PORT_STATUS_DCLAMP p) 1) (Fld.PORT_EVENT_DCLAMP p)
  if (s.ports.get p).clamped then s1
  else inc { s1 with ports := upd s1.ports p fun x => { x with clamped := true } } (Fld.PORT_CNT_DCLAMP_CNT p)

/-- The shadow of a target as an update point at absolute step `t` finds it (R112). -/
def shadowAt (s : State) (p : Fin 32) (k : Fin 5) (t : Nat) : Int := ((s.ports.get p).shadow.get k).get t

/-- All shadows copied to the active values at absolute step `t` (R112, R113, R115, R180, R181); a port that the image does not use has
carriers and thresholds, and no on-times (DEDUCED: log entry 170). -/
def updatePoint (s : State) (p : Fin 32) (t : Nat) : State :=
  let free := isFree s p
  let per := if free then freePeriod s p (shadowAt s p 4 t) else fixedPeriod s p
  let s1 := fput s (Fld.PORT_PERIOD_PERIOD p) per
  if !portUsed s p then updateThresholds s1 p t else
  let s2 := fputS s1 (Fld.PORT_SHIFT_B_SHIFT p) (if free then 0 else qSteps (shadowAt s p 2 t) per)
  let s3 := fputS s2 (Fld.PORT_SHIFT_SHIFT p) (if free then 0 else qSteps (shadowAt s p 3 t) per)
  let topo := fget s (Fld.PORT_CFG_TOPO p)
  let half := topo == 5 || topo == 8 || topo == 9
  let a := if half then (per / 2, false) else clampOn s3 p (mainA s3 p) per (qSteps (shadowAt s p 0 t) per)
  let b := if half then (per / 2, false)
    else if topo == 6 then clampOn s3 p .bn per (qSteps (shadowAt s p 1 t) per) else (0, false)
  let s4 := fput (fput s3 (Fld.PORT_ONTIME_A_ONTIME p) a.1) (Fld.PORT_ONTIME_B_ONTIME p) b.1
  let s5 := if a.2 || b.2 then noteClamp s4 p else s4
  updateThresholds s5 p t

/-- An edge of the carrier in progress whose new position has passed occurs at the update instant (R112); at the end of a carrier
the update applies to the next one (R127). -/
def lateEdge (p : Fin 32) (t : Nat) (s : State) (g : Gate) : State :=
  let pt := s.ports.get p
  match edgeAhead s p g with
  | some pos => if pt.carStart + pos < t ∧ t < pt.carStart + pt.carLen then edgeOccurs p g t s else s
  | none => s

/-- UPDATE_POINT (R112, R114, R115): phase 0 (part of the carrier start) or P/2 by PORT_CFG.UPD. -/
def execUpdatePoint (p : Fin 32) (t : Nat) (s : State) : Host.Outcome State Fault Refusal :=
  let pt := s.ports.get p
  let u := fget s (Fld.PORT_CFG_UPD p)
  let at0 := 64 * s.time.base + t == pt.carStart && (u == 0 || u == 2 || isFree s p)
  let atHalf := 64 * s.time.base + t == pt.carStart + pt.carPer / 2 && (u == 1 || u == 2) && !isFree s p
  if engineRuns s && pt.carrier && (at0 || atHalf) then
    let n := 64 * s.time.base + t
    .next ([Gate.a, .an, .b, .bn].foldl (lateEdge p n) (updatePoint s p n))
  else .next s

/-! ### Carrier starts (R106, R107, R118, R126, R174, R528) -/

/-- The slow leg's output of the half in force (R125). -/
def slowGate (s : State) (p : Fin 32) : Gate := if bit s (Fld.PORT_STATUS_HALF_NEG p) then .b else .bn

/-- A pair at carrier phase 0 of an active port: it takes the state that its new carrier commands there (R107, R112, R122, R528;
DEDUCED: log entry 132), and of its edges of the new carrier only one at phase 0 has occurred. Pair B of a TOTEM_PFC port commands
the slow leg of the half in force (R125). `g` names the pair. -/
def pairZero (p : Fin 32) (t : Nat) (s : State) (g : Gate) : State :=
  match intervalOf s p g (s.ports.get p).carPer with
  | none => if isPfc s p && g == .b then commandOn p (slowGate s p) t s else s
  | some i =>
    let s1 := commandOn p (if commandedOn i i.main 0 then i.main else i.main.compl) t s
    let mark := fun (s : State) (h : Gate) => setGate s p h fun x => { x with done := edgeStep i h == 0 }
    mark (mark s1 i.main) i.main.compl

/-- The port may leave the inert state at absolute step `t` (R118); after a zero-crossing window a carrier start at the window's exit, or
closer to it than the dead times of pair B, is passed over (R126). -/
def mayStart (s : State) (p : Fin 32) (t : Nat) : Bool :=
  let pt := s.ports.get p
  !inertNow s (portCovered s p) p && pt.settle.isNone &&
    (match pt.zcExit with
     | some t0 => decide (t0 < t) && decide (t0 + max (deadTime s p .b) (deadTime s p .bn) ≤ t)
     | none => true)

/-- The port leaves the inert state at carrier phase 0 (R118). -/
def activeStart (s : State) (p : Fin 32) : State :=
  let s1 := { s with ports := upd s.ports p fun x => { x with active := true, zcExit := none } }
  raise (fput s1 (Fld.PORT_STATUS_STATE p) 3) (Fld.PORT_EVENT_ACTIVE_START p)

/-- CARRIER_START (R106, R107, R115, R118, R174, R528): the carrier of a port, which an inert or unused port has too (R174; DEDUCED: log
entry 170), reaches phase 0 at step `t` of the round. An update
point at P/2 that meets the end of a shortened carrier applies to the new one (R127). -/
def execCarrierStart (p : Fin 32) (t : Nat) (s : State) : Host.Outcome State Fault Refusal :=
  if !engineRuns s || !carrierDue s p t then .next s
  else
    let n := 64 * s.time.base + t
    let old := s.ports.get p
    let s0 := settleGates s p n
    let half := old.carrier && n == old.carStart + old.carPer / 2
    let s1 := if fget s (Fld.PORT_CFG_UPD p) != 1 || half || isFree s0 p then updatePoint s0 p n else s0
    let per := periodOf s1 p
    let len := carrierLength s1 p t
    let s2 := { s1 with ports := upd s1.ports p fun x => { x with carrier := true, carStart := n, carPer := per, carLen := len } }
    let s3 := fputB (fput s2 (Fld.PORT_PERIOD_PERIOD p) per) (Fld.PORT_STATUS_SHORT_CYC p) (shortCycle s2 p)
    let s4 := captureStart (carrierComparators s3 p ((n + 63) / 64)) p
    let s5 := if !(s4.ports.get p).active && mayStart s4 p n then activeStart s4 p else s4
    if (s5.ports.get p).active && !cbcHeld s5 p then .next ([Gate.a, .b].foldl (pairZero p n) s5) else .next s5

/-! ### Enable settle and driver fault (R119 to R121) -/

/-- PnnFLT is at its active level, by FLT_POL (R120). -/
def fltActive (s : State) (p : Fin 32) : Bool := (s.ports.get p).fltHigh == bit s (Fld.PORT_DRV_FLT_POL p)

/-- The filtered outputs that are active when the settle time ends set their latches then (R184). -/
def settledLatches (s : State) (p : Fin 32) (fret : Nat) : State :=
  (List.finRange 4).foldl (fun s (c : Fin 4) => [true, false].foldl (fun s (hiSide : Bool) =>
    if filterPasses s p c hiSide (absFret s fret) then setLatch (fput s (outFld p c hiSide) 1) p c hiSide fret else s) s) s

/-- EN_SETTLE_END (R119, R120, R184): the settle time has passed; the driver-fault filter counts from here. -/
def execEnSettleEnd (p : Fin 32) (fret : Nat) (s : State) : Host.Outcome State Fault Refusal :=
  match (s.ports.get p).settle with
  | none => .next s
  | some k =>
    if s.tick < k then .next s
    else
      let s1 := { s with ports := upd s.ports p fun x => { x with settle := none, settledAt := absFret s fret } }
      .next (settledLatches (refreshPorts s1) p fret)

/-- DRV_FLT_INPUT (R23, R120, R121): PnnFLT changes level in fret `fret` and the glitch filter starts counting. -/
def execDrvFltInput (p : Fin 32) (level : Bool) (fret : Nat) (s : State) : Host.Outcome State Fault Refusal :=
  let x := s.ports.get p
  if x.fltHigh = level then .next s
  else
    let run := if fltActive s p then some x.fltFrom else none
    let s1 := { s with ports := upd s.ports p fun x => { x with fltHigh := level, fltFrom := absFret s fret, fltRun := run } }
    .next (if fltActive s1 p then s1 else fput s1 (Fld.PORT_STATUS_FLT p) 0)

/-- The class, kind and index of a driver fault by FLT_SCOPE (R120, R128). -/
def drvScope (s : State) (p : Nat) : Nat × Nat × Nat :=
  match fget s (Fld.PORT_DRV_FLT_SCOPE p) with
  | 0 => (1, 1, p)
  | 1 => (1, 2, courseOf s p)
  | _ => (2, 0, 0)

/-- The filter of PnnFLT has passed by absolute fret `t`, counted from the end of the settle time: by the active run in progress, or by
one that has lasted FLT_FILT frets and ended (R23, R120). -/
def fltPasses (s : State) (p : Fin 32) (t : Nat) : Bool :=
  let x := s.ports.get p
  let n := fget s (Fld.PORT_DRV_FLT_FILT p)
  if fltActive s p then decide (max x.fltFrom x.settledAt + n ≤ t)
  else match x.fltRun with
    | some a => (decide (x.settledAt < x.fltFrom) || decide (x.settledAt ≤ a)) && decide (max a x.settledAt + n ≤ x.fltFrom)
    | none => false

/-- DRIVER_FAULT (R120, R127): PnnFLT has been active for FLT_FILT frets with PnnEN high and the settle time ended. -/
def execDriverFault (p : Fin 32) (fret : Nat) (s : State) : Host.Outcome State Fault Refusal :=
  let k := absFret s fret
  let open_ := accepting s p || ((s.ports.get p).acceptAt == some k && !bit s (Fld.PORT_STATUS_FLT p))
  if bit s (Fld.PORT_DRV_FLT_USE p) && open_ && fltPasses s p k then
    let sc := drvScope s p
    let s1 := { markAccepting s k with ports := upd (markAccepting s k).ports p fun x => { x with fltRun := none } }
    let s2 := raise (fputB s1 (Fld.PORT_STATUS_FLT p) (fltActive s p)) (Fld.PORT_EVENT_DRV_FLT p)
    .next (report s2 0x0101 sc.1 sc.2.1 sc.2.2 (stampE s2 fret))
  else .next s

/-- A write of PORT_CTRL with CNT_CLR = 1 clears PORT_CNT (R130). -/
def clearPortCnt (p : Fin 32) (s : State) : State := wr s (Reg.PORT_CNT p) 0

/-- PORT_CNT_CLR (R129, R130). -/
def execPortCntClr (p : Fin 32) (s : State) : Host.Outcome State Fault Refusal := .next (clearPortCnt p s)

/-! ### Ports at a round boundary (R125, R126) -/

/-- A TOTEM_PFC port evaluates its half-cycle state at a round boundary (R125, R126): at the exit from a window the slow leg turns on
at the boundary itself, its complement having been low throughout (R528), unless a cycle-by-cycle latch holds the outputs low (R173); the
fast leg waits for its carrier start either way. A change of half without a window between (ZCW = 0) turns the slow leg over with its
dead time (log entry 123). -/
def zcRound (s : State) (p : Fin 32) : State :=
  if portUsed s p && isPfc s p && engineRuns s then
    let thp := phaseTurns (gridTurns s 0) (fget s (Fld.PORT_CFG_PHASE p))
    let w : Rat := ((fget s (Fld.PORT_ZC_ZCW p) * 2 ^ 16 : Nat) : Rat) / ((2 ^ 32 : Nat) : Rat)
    let pos := decide (w ≤ thp) && decide (thp < 1 / 2 - w)
    let neg := decide (1 / 2 + w ≤ thp) && decide (thp < 1 - w)
    let win := !pos && !neg
    let was := bit s (Fld.PORT_STATUS_ZC p)
    let s1 := fputB s (Fld.PORT_STATUS_ZC p) win
    let s2 := if win then s1 else fputB s1 (Fld.PORT_STATUS_HALF_NEG p) neg
    let t0 := 64 * s2.time.base
    let held := cbcHeld s2 p
    if was && !win && !inertNow s2 (portCovered s2 p) p && (s2.ports.get p).settle.isNone then
      let s3 := { s2 with ports := upd s2.ports p fun x => { x with zcExit := some t0 } }
      let g := slowGate s3 p
      if held then s3
      else if (gateOf s3 p g.compl).high then commandOn p g t0 s3
      else edgeMade (setGate s3 p g fun x => { x with high := true, onAt := t0, rise := none, cmd := true }) p g t0 true
    else if held then s2
    else if !was && !win && (s2.ports.get p).active && bit s (Fld.PORT_STATUS_HALF_NEG p) != neg then commandOn p (slowGate s2 p) t0 s2
    else s2
  else s

/-- Flags of a port that belong to one round (R113). -/
def roundFlags (s : State) (p : Fin 32) : State :=
  fput { s with ports := upd s.ports p fun x => { x with clamped := false } } (Fld.PORT_STATUS_DCLAMP p) 0

/-- Every port at a round boundary: DCLAMP of the round, zero-crossing windows, and the conditions of R117. -/
def portsRound (s : State) : State :=
  refreshPorts ((List.finRange 32).foldl (fun s p => zcRound (roundFlags s p) p) s)

end Sys2Proof.Machine
end

