-- ==== Sys2Proof/Machine/Loops.lean ====
section
/-! DEFINITION. Sys2Proof/Machine/Loops.lean: the loop engine (spec/04): measurements, the five passes, gain regions,
presets, manual mode, outputs to the ports and foldback. -/

namespace Sys2Proof.Machine

/-- The exponent ceiling of a loop (R133). -/
def emax (s : State) (n : Nat) : Int := fgetS s (Fld.LOOP_CFG_EMAX n)

/-- The integrator exponent of a loop (R136). -/
def eiOf (s : State) (n : Nat) : Int := fgetS s (Fld.LOOP_CFG_EI n)

/-- SIGN as a number (R131). -/
def signOf (s : State) (n : Nat) : Rat := if bit s (Fld.LOOP_CFG_SIGN n) then -1 else 1

/-- A term with the sign of the loop. -/
def signTerm (s : State) (n : Nat) (t : Term) : Term := if bit s (Fld.LOOP_CFG_SIGN n) then t.neg else t

/-- A value saturated at EMAX is counted and reported (R134). -/
def noteOvf (s : State) (n : Fin 64) (sat : Bool) (fret : Nat) : State :=
  if sat then report (raise (inc s (Fld.LOOP_CNT_OVF_CNT n)) (Fld.LOOP_EVENT_OVF n)) 0x0201 0 0 0 (stampE s fret) else s

/-- A coefficient of the region and bank of the evaluation in progress: 0 Kp, 4 Ki, 8 KDF, 12 α (R140, R153). -/
def coef (s : State) (n : Fin 64) (k : Nat) : Word :=
  let ev := (s.loops.get n).ev
  bankWord s n ev.bank (0x020 + 0x10 * ev.region + k)

/-- A word of the bank of the evaluation in progress. -/
def evalWord (s : State) (n : Fin 64) (o : Nat) : Word := bankWord s n (s.loops.get n).ev.bank o

/-- Run a lane word on the loop its context names (R78, R83). -/
def onLoop (s : State) (l : LaneFields) (f : Fin 64 → State → State) : State :=
  match ctxLoop s l.ctx.toNat with
  | none => s
  | some n => if h : n < 64 then f ⟨n, h⟩ s else s

/-! ### Measurements (R101, R138) -/

/-- The measurement y of a loop loaded: usable 4 frets after issue (R80). READ and MEAS load the value word of the signal, rounded under the
highest exponent of the format and not under the loop's EMAX, and count no overflow (DESIGN CHOICE: log entry 168). -/
def loadY (s : State) (n : Fin 64) (fret : Nat) (v : Word) : State :=
  wr (setLoop s n fun l => { l with y := l.y.put (absFret s fret) 4 v }) (Reg.LOOP_Y n) v

/-- READ (R101, R138, R160): the latest sample of a channel to a loop, or the latest VO code to the foldback input. -/
def execRead (l : LaneFields) (fret : Nat) (s : State) : Host.Outcome State Fault Refusal :=
  if !laneActs s 0x02 l then .next s
  else
    let p := l.port.toFin
    if l.argBits 13 1 = 1 then
      let v := if bit s (Fld.PORT_SAMP_VO_STALE p) then 0 else fget s (Fld.PORT_SAMP_VO_CODE p)
      .next { s with ports := upd s.ports p fun x => { x with foldback := x.foldback.put (absFret s fret) 4 v } }
    else .next (onLoop s l fun n s => loadY s n fret (vwOf (sampleVal s p (l.argBits 0 2))))

/-- MEAS (R138): a measured engine signal as a loop's measurement; the evaluations whose SFRET is this fret begin. -/
def execMeas (l : LaneFields) (fret : Nat) (s : State) : Host.Outcome State Fault Refusal :=
  if !laneActs s 0x03 l then .next s
  else
    .next (onLoop (latchEvals s fret) l fun n s => loadY s n fret (signal s (l.argBits 0 12) fret (outFret s n fret)))

/-! ### The reference and PASS_E (R131, R139, R196) -/

/-- Course `c` holds up the bus while input loss holds: its loop is the HLOOP of a selector in the hold-up position (R221). -/
def holdupCourse (s : State) (c : Nat) : Bool :=
  bit s Fld.CAPO_STATUS_INPUT_LOSS && bit s Fld.CAPO_STATUS_HOLDUP && (List.range 4).any fun h =>
    bit s (Fld.CAPO_HSEL_CFG_EN h) && bit s (Fld.CAPO_HSEL_CFG_HUSE h) &&
      loopCourse s (fget s (Fld.CAPO_HSEL_CFG_HLOOP h)) == some c

/-- A course throttles through mutes and does not enter θ (R221). -/
def mutableNow (s : State) (c : Nat) : Bool := fbit s Fld.HK_MUTABLE_MUTABLE c && !holdupCourse s c

/-- θk of R221: 1 − v/16 over the courses that are not mutable and have a loop enrolled in limit k. -/
def theta (s : State) (k : Nat) : Rat :=
  let vs := (List.range 64).filterMap fun n =>
    if fget s (Fld.CAPO_LOOP_LIM n) = k && loopUsed s n then
      match loopCourse s n with
      | some c => if mutableNow s c then none else some (s.hk.atEngine.toList.getD c 0)
      | none => none
    else none
  1 - ((vs.foldl max 0 : Nat) : Rat) / 16

/-- The Capo limit L of R196 for limit k at absolute fret `t`. -/
def capoLimit (s : State) (k t : Nat) : Rat :=
  let mx := vwVal (rd s (Reg.CAPO_LIM_MAX k))
  let lam := match s.capo.lam.toList[k]? with | some p => vwVal (p.get t) | none => 1
  let l := lam * theta s k * mx
  match (s.capo.tk.toList[k]?).bind fun p => p.get t with
  | some v => min l (vwVal v)
  | none => if s.capo.targeted.testBit k then min l mx else l

/-- Step 3 of R139: the sharing trim and then the Capo limit (R196). -/
def shareAndCap (s : State) (n : Fin 64) (t : Nat) (r : Rat) : Rat :=
  let r1 := r * vwVal ((s.capo.mult.get n).get t)
  let k := fget s (Fld.CAPO_LOOP_LIM n)
  if 64 ≤ k then r1
  else
    let l := capoLimit s k t
    if bit s (Fld.CAPO_LIM_CFG_POL k) then clipR r1 (-l) l else min r1 l

/-- The base reference r (R139 steps 1 and 2), exact. -/
def baseRef (s : State) (n : Fin 64) (fret : Nat) : Rat :=
  let g := outFret s n fret
  let sig := fget s (Fld.LOOP_SRC_REFSIG n)
  let r := match fget s (Fld.LOOP_CFG_REFSRC n) with
    | 0 => vwVal (evalWord s n 0x000)
    | 1 => vwVal ((s.loops.get n).refIn.get (absFret s fret))
    | _ => vwVal (signal s sig fret g)
  if bit s (Fld.LOOP_SRC_REFMUL n) then r * vwVal (signal s sig fret g) else r

/-- e and x of PASS_E from r_eff and y, sharing one exponent, and whether one saturated: x is −e, or SIGN·y as a term of the
same pass (R131, R135). Where both saturate, OVF counts once for the pair (DESIGN CHOICE: log entry 169). -/
def errorPair (s : State) (n : Fin 64) (r y : Word) : Word × Word × Bool :=
  let tr := Term.ofVw r
  let ty := Term.ofVw y
  let e := passSum [signTerm s n tr, signTerm s n ty.neg]
  if bit s (Fld.LOOP_CFG_DMODE n) then vwRound2 (emax s n) e (sumAt (maxLsb [tr, ty]) [signTerm s n ty])
  else vwRoundNeg (emax s n) e

/-- PASS_E of one loop (R131, R135, R139, R140). -/
def passE (fret : Nat) (n : Fin 64) (s : State) : State :=
  let t := absFret s fret
  let re := vwRound (emax s n) (shareAndCap s n t (baseRef s n fret))
  let l0 := s.loops.get n
  let y := l0.y.get t
  let ex := errorPair s n re.1 y
  let s1 := setLoop s n fun l => { l with
    ePrev := l.e.cur, xPrev := l.x.cur, dPrev := l.d.cur, uPrev := l.u.cur
    rEff := l.rEff.put t 8 re.1, e := l.e.put t 8 ex.1, x := l.x.put t 8 ex.2.1 }
  let s2 := wr (wr s1 (Reg.LOOP_R n) re.1) (Reg.LOOP_E n) ex.1
  noteOvf (noteOvf s2 n re.2 fret) n ex.2.2 fret

/-- PASS_E (R139). -/
def execPassE (l : LaneFields) (fret : Nat) (s : State) : Host.Outcome State Fault Refusal :=
  if !laneActs s 0x08 l then .next s else .next (onLoop s l (passE fret))

/-! ### PASS_P and PASS_D (R140) -/

/-- P of the evaluation in progress (R131). -/
def pOf (s : State) (n : Fin 64) (t : Nat) : Word × Bool :=
  vwRound (emax s n) (passSum [Term.prod (coef s n 0) ((s.loops.get n).e.get t)])

/-- PASS_P of one loop. -/
def passP (fret : Nat) (n : Fin 64) (s : State) : State :=
  let t := absFret s fret
  let p := pOf s n t
  noteOvf (wr (setLoop s n fun l => { l with p := l.p.put t 8 p.1 }) (Reg.LOOP_P n) p.1) n p.2 fret

/-- PASS_P (R140). -/
def execPassP (l : LaneFields) (fret : Nat) (s : State) : Host.Outcome State Fault Refusal :=
  if !laneActs s 0x09 l then .next s else .next (onLoop s l (passP fret))

/-- The derivative sum of the evaluation in progress: α·D + KDF·(x prev − x) (R131, R135). -/
def dOf (s : State) (n : Fin 64) (t : Nat) : Rat :=
  let l := s.loops.get n
  passSum [Term.prod (coef s n 12) l.dPrev, Term.prod (coef s n 8) l.xPrev, (Term.prod (coef s n 8) (l.x.get t)).neg]

/-- PASS_D of one loop: the first slot forms the sum, the second rounds it (R140). -/
def passD (second : Bool) (fret : Nat) (n : Fin 64) (s : State) : State :=
  let t := absFret s fret
  if second then
    let l := s.loops.get n
    let d := vwRound (emax s n) l.dSum
    noteOvf (wr (setLoop s n fun l => { l with d := l.d.put l.dAt 8 d.1 }) (Reg.LOOP_D n) d.1) n d.2 fret
  else setLoop s n fun l => { l with dSum := dOf s n t, dAt := t }

/-- PASS_D (R140). -/
def execPassD (l : LaneFields) (fret : Nat) (s : State) : Host.Outcome State Fault Refusal :=
  if !laneActs s 0x0B l then .next s else .next (onLoop s l (passD (l.argBits 0 1 == 1) fret))

/-! ### PASS_I (R136, R141, R143, R151, R152, R218) -/

/-- The integrator limits in its own format (R136, R141). -/
def miLimits (s : State) (n : Fin 64) : Int × Int :=
  (toMi (eiOf s n) (vwVal (evalWord s n 0x004)), toMi (eiOf s n) (vwVal (evalWord s n 0x008)))

/-- A preset or tracking value clipped to the limits, with PRESET_CLIP (R143, R152). -/
def presetI (s : State) (n : Fin 64) (v : Int) : State :=
  let lim := miLimits s n
  let w := clipI v lim.1 lim.2
  let s1 := fputB (setLoop s n fun l => { l with iBase := w }) (Fld.LOOP_STATUS_PRESET_CLIP n) (w != v)
  if w != v then raise s1 (Fld.LOOP_EVENT_PRESET_CLIP n) else s1

/-- The tracking value of HOLD and MAN: v − P − D of the same evaluation, each in the integrator format (R143). -/
def trackValue (s : State) (n : Fin 64) (t : Nat) (v : Word) : Int :=
  let ei := eiOf s n
  toMi ei (vwVal v) - toMi ei (vwVal (pOf s n t).1) - toMi ei (vwVal (vwRound (emax s n) (dOf s n t)).1)

/-- The preset u[k−1] − Kp·e[k−1] − D[k−1] of R151, or T − Kp·e[k−1] − D[k−1] of R218. -/
def presetValue (s : State) (n : Fin 64) (from_ : Word) : Int :=
  let l := s.loops.get n
  toMi (eiOf s n) (passSum [Term.ofVw from_, (Term.prod (coef s n 0) l.ePrev).neg, (Term.ofVw l.dPrev).neg])

/-- The first slot of PASS_I: a preset when one is due, tracking in HOLD and MAN, otherwise the last integrator. The first evaluation under
an image leaves the HOLD of R529, whose P and D are 0, with the integrator that gives u = hold value (R145, R146). -/
def passI1 (fret : Nat) (n : Fin 64) (s : State) : State :=
  let t := absFret s fret
  let l := s.loops.get n
  let s0 := setLoop s n fun l => { l with iAt := t }
  match l.ev.state, l.ev.preset with
  | .hold, _ => presetI s0 n (trackValue s n t l.ev.hold)
  | .man, _ => presetI s0 n (trackValue s n t l.ev.uman)
  | _, some v => presetI s0 n (presetValue s n v)
  | _, none =>
    if l.ev.due then presetI s0 n (presetValue s n l.uPrev)
    else if l.ev.first then presetI s0 n (toMi (eiOf s n) (vwVal l.ev.hold))
    else setLoop s0 n fun l => { l with iBase := l.mi.get t }

/-- The second slot of PASS_I: I := clip(I + g) with the anti-windup of R141. -/
def passI2 (n : Fin 64) (s : State) : State :=
  let l := s.loops.get n
  let ei := eiOf s n
  let lim := miLimits s n
  let g0 := toMi ei (vwVal (coef s n 4) * vwVal (l.e.get l.iAt))
  let frozen := l.ev.state == .auto &&
    ((l.limH.get l.iAt && decide (0 < g0)) || (l.limL.get l.iAt && decide (g0 < 0)))
  let g := if l.ev.state == .auto && !frozen then g0 else 0
  let i := clipI (l.iBase + g) lim.1 lim.2
  let s1 := setLoop s n fun l => { l with mi := l.mi.put l.iAt 8 i }
  fputB (wr s1 (Reg.LOOP_I n) (BitVec.ofInt 32 i)) (Fld.LOOP_STATUS_IFROZEN n) frozen

/-- PASS_I (R141): ARG[0] selects the slot. -/
def execPassI (l : LaneFields) (fret : Nat) (s : State) : Host.Outcome State Fault Refusal :=
  if !laneActs s 0x0A l then .next s
  else .next (onLoop s l (if l.argBits 0 1 = 1 then passI2 else passI1 fret))

/-! ### PASS_SUM (R142) -/

/-- A limit flag of the last evaluation; a change from 0 to 1 raises LIMIT (R142). -/
def setLim (s : State) (n : Fin 64) (f : Field) (b : Bool) : State :=
  let s1 := fputB s f b
  if b && !bit s f then raise s1 (Fld.LOOP_EVENT_LIMIT n) else s1

/-- The loop that a selector takes its output from (R217). -/
def selectorLoop (s : State) (h : Nat) : Nat :=
  if bit s Fld.CAPO_STATUS_HOLDUP then fget s (Fld.CAPO_HSEL_CFG_HLOOP h) else fget s (Fld.CAPO_HSEL_CFG_NLOOP h)

/-- The selectors whose source has finished the evaluation of its preset output its u again (R218, R220). -/
def releaseSelectors (s : State) (n : Fin 64) (t : Nat) : State :=
  if (s.loops.get n).ev.preset.isSome then
    let f : Fin 4 → Piped (Option Word) := fun h =>
      if selectorLoop s h = n.val then (s.capo.selT.get h).put t 8 none else s.capo.selT.get h
    { s with capo := { s.capo with selT := Vector.ofFn f } }
  else s

/-- The first slot of PASS_SUM forms s = P + I + D (R140, R142). -/
def passSum1 (fret : Nat) (n : Fin 64) (s : State) : State :=
  let t := absFret s fret
  let l := s.loops.get n
  let v := passSum [Term.ofVw (l.p.get t), Term.ofMi (l.mi.get t) (eiOf s n), Term.ofVw (l.d.get t)]
  setLoop s n fun l => { l with sSum := v, sAt := t }

/-- The second slot of PASS_SUM: u by state, rounded (R135 step 5) and then limited, and the limit flags (R142). A saturation of the sum and
one of its limited value count as one (DESIGN CHOICE: log entry 169). -/
def passSum2 (fret : Nat) (n : Fin 64) (s : State) : State :=
  let l := s.loops.get n
  let v := match l.ev.state with
    | .man => vwVal l.ev.uman
    | .hold => vwVal l.ev.hold
    | _ => l.sSum
  let lo := vwVal (evalWord s n 0x004)
  let hi := vwVal (evalWord s n 0x008)
  let r := vwRound (emax s n) v
  let above := decide (hi < vwVal r.1)
  let below := decide (vwVal r.1 < lo)
  let u := vwRound (emax s n) (clipR (vwVal r.1) lo hi)
  let s1 := setLoop s n fun l => { l with
    u := l.u.put l.sAt 8 u.1, limH := l.limH.put l.sAt 8 above, limL := l.limL.put l.sAt 8 below }
  let s2 := setLim (wr s1 (Reg.LOOP_U n) u.1) n (Fld.LOOP_STATUS_LIMH n) above
  let s3 := setLim s2 n (Fld.LOOP_STATUS_LIML n) below
  noteOvf (releaseSelectors s3 n l.sAt) n (r.2 || u.2) fret

/-- PASS_SUM (R142): ARG[0] selects the slot. -/
def execPassSum (l : LaneFields) (fret : Nat) (s : State) : Host.Outcome State Fault Refusal :=
  if !laneActs s 0x0C l then .next s
  else .next (onLoop s l (if l.argBits 0 1 = 1 then passSum2 fret else passSum1 fret))

/-! ### Gain regions (R150 to R152) -/

/-- The candidate region of R150: up while z ≥ ZB + h, then down while z < ZB − h. -/
def regionOf (z h : Rat) (zb : Nat → Rat) (j : Nat) : Nat :=
  let up := fun (j : Nat) => if j < 3 && decide (zb (j + 1) + h ≤ z) then j + 1 else j
  let dn := fun (j : Nat) => if 0 < j && decide (z < zb j - h) then j - 1 else j
  dn (dn (dn (up (up (up j)))))

/-- REGION of one loop (R150). -/
def regionPass (fret : Nat) (n : Fin 64) (s : State) : State :=
  if bit s (Fld.LOOP_SRC_GS n) then
    let z := signal s (fget s (Fld.LOOP_SRC_ZSRC n)) fret (outFret s n fret)
    let l := s.loops.get n
    let h := if l.firstRegion then 0 else vwVal (evalWord s n 0x01C)
    let j := regionOf (vwVal z) h (fun k => vwVal (evalWord s n (0x00C + 4 * k))) l.region
    wr (setLoop s n fun l => { l with cand := some j, firstRegion := false }) (Reg.LOOP_Z n) z
  else s

/-- REGION (R150). -/
def execRegion (l : LaneFields) (fret : Nat) (s : State) : Host.Outcome State Fault Refusal :=
  if !laneActs s 0x0D l then .next s else .next (onLoop s l (regionPass fret))

/-- At a round boundary the candidate region takes effect (R150, R151, R152). -/
def regionRound (s : State) (n : Fin 64) : State :=
  match (s.loops.get n).cand with
  | none => s
  | some j =>
    if j = (s.loops.get n).region then setLoop s n fun l => { l with cand := none }
    else
      let s1 := setLoop s n fun l => { l with cand := none, region := j, presetDue := true, regionAt := some s.time.base }
      raise (inc (fput s1 (Fld.LOOP_STATUS_REGION n) j) (Fld.LOOP_CNT_REGION_CNT n)) (Fld.LOOP_EVENT_REGION_CHG n)

/-! ### Outputs (R156 to R160, R178) -/

/-- The committed value of u for a COMMIT target, and whether the clip acted (R158, R178). -/
def commitValue (target : Nat) (u : Rat) : Int × Bool :=
  let r : Int × Int × Int :=
    if target = 2 ∨ target = 3 then (halfUp (u * (2 ^ 24 : Nat)), -8388608, 8388607)
    else if target ≤ 4 then (halfUp (u * (2 ^ 24 : Nat)), 0, 16777215)
    else if target = 6 ∨ target = 7 then (halfUp (u * 1024), 0, 1023)
    else (halfUp (u * 512 + 512), 0, 1023)
  let q := clipI r.1 r.2.1 r.2.2
  (q, q != r.1)

/-- A committed value written to the port shadow of its target at the end of fret `fret` (R112, R158, R180). -/
def writeShadow (s : State) (p : Fin 32) (target : Nat) (q : Int) (fret : Nat) : State :=
  let t := 64 * absFret s fret
  if h : target < 5 then
    { s with ports := upd s.ports p fun x => { x with shadow := upd x.shadow ⟨target, h⟩ fun v => v.put t 64 q } }
  else if h : target - 5 < 4 then writeHiShadow s p ⟨target - 5, h⟩ q.toNat t
  else s

/-- COMMIT of one loop (R158). -/
def commitPass (p : Fin 32) (target fret : Nat) (n : Fin 64) (s : State) : State :=
  let q := commitValue target (vwVal ((s.loops.get n).u.get (absFret s fret)))
  let s0 := setLoop (writeShadow s p target q.1 fret) n fun l => { l with qSigned := target == 2 || target == 3 }
  let s1 := fput s0 (Fld.LOOP_Q_Q n) (ofSigned 24 q.1)
  let s2 := fputB s1 (Fld.LOOP_STATUS_QSAT n) q.2
  if q.2 then raise s2 (Fld.LOOP_EVENT_QSAT n) else s2

/-- COMMIT (R158). -/
def execCommit (l : LaneFields) (fret : Nat) (s : State) : Host.Outcome State Fault Refusal :=
  if !laneActs s 0x10 l then .next s
  else .next (onLoop s l (commitPass l.port.toFin (l.argBits 0 4) fret))

/-- Word `w` of the foldback entry of a port (R159). -/
def foldWord (s : State) (p w : Nat) : Word := engWord s (0x70000 + p * 0x20 + 4 * w)

/-- The segment of R160: none below VO0, 3 at or above VO3. -/
def foldSegment (s : State) (p v : Nat) : Option Nat :=
  let vo := fun j => getBits (foldWord s p j) 0 14
  if v < vo 0 then none
  else if vo 3 ≤ v then some 3
  else if vo 2 ≤ v then some 2
  else if vo 1 ≤ v then some 1
  else some 0

/-- The threshold code of R160 for a segment. -/
def foldThreshold (s : State) (p v : Nat) (seg : Option Nat) : Int :=
  let th : Nat → Int := fun j => (getBits (foldWord s p j) 16 10 : Int)
  let t := match seg with
    | none => th 0
    | some j =>
      if 3 ≤ j then th 3
      else th j + halfUp (vwVal (foldWord s p (4 + j)) * (((v : Int) - (getBits (foldWord s p j) 0 14 : Int) : Int) : Rat))
  clipI t 0 1023

/-- THRESH (R160): ARG[0] = 0 selects the segment, 1 completes the evaluation and writes the HI shadow of CMP0. -/
def execThresh (l : LaneFields) (fret : Nat) (s : State) : Host.Outcome State Fault Refusal :=
  if !laneActs s 0x11 l then .next s
  else
    let p := l.port.toFin
    let t := absFret s fret
    let v := (s.ports.get p).foldback.get t
    if l.argBits 0 1 = 1 then
      .next (writeHiShadow s p 0 (foldThreshold s p v ((s.ports.get p).segment.get t)).toNat (64 * t))
    else
      .next { s with ports := upd s.ports p fun x => { x with segment := x.segment.put t 4 (foldSegment s p v) } }

/-- TARGET of one loop: u to another loop's reference input or to a Capo limit, at the end of the fret (R156, R157). -/
def targetPass (dst fret : Nat) (n : Fin 64) (s : State) : State :=
  let t := absFret s fret
  let u := (s.loops.get n).u.get t
  if h : dst < 64 then setLoop s ⟨dst, h⟩ fun l => { l with refIn := l.refIn.put t 1 u }
  else if h : dst - 64 < 64 then
    { s with capo := { s.capo with tk := upd s.capo.tk ⟨dst - 64, h⟩ fun p => p.put t 1 (some u) } }
  else s

/-- TARGET (R156). -/
def execTarget (l : LaneFields) (fret : Nat) (s : State) : Host.Outcome State Fault Refusal :=
  if !laneActs s 0x12 l then .next s else .next (onLoop s l (targetPass (l.argBits 0 8) fret))

/-- NOP (R79): nothing. -/
def execNop (_l : LaneFields) (_fret : Nat) (s : State) : Host.Outcome State Fault Refusal := .next s

/-! ### Host writes to a loop context (R148, R149, R166) -/

/-- A host write of LOOP_MODE waits for a round boundary (R148). -/
def writeLoopMode (n : Fin 64) (v : Word) (s : State) : State :=
  let s1 := fput (fput s (Fld.LOOP_MODE_MAN n) (getBits v 0 1)) (Fld.LOOP_MODE_LOAD_U n) (getBits v 1 1)
  fput (setLoop s1 n fun l => { l with modePend := true }) (Fld.LOOP_STATUS_MAN_PEND n) 1

/-- LOOP_MODE_WRITE (R148). -/
def execLoopModeWrite (n : Fin 64) (v : Word) (s : State) : Host.Outcome State Fault Refusal := .next (writeLoopMode n v s)

/-- A host write of LOOP_UMAN waits for a round boundary; a write that sets reserved bits is ignored (R18, R148). -/
def writeLoopUman (n : Fin 64) (v : Word) (s : State) : State :=
  if vwReserved v then s else setLoop (wr s (Reg.LOOP_UMAN n) v) n fun l => { l with umanPend := true }

/-- LOOP_UMAN_WRITE (R148). -/
def execLoopUmanWrite (n : Fin 64) (v : Word) (s : State) : Host.Outcome State Fault Refusal := .next (writeLoopUman n v s)

/-- The mode and UMAN writes of a loop take effect at a round boundary (R148, R149). -/
def applyLoopMode (n : Fin 64) (s : State) : State :=
  let l := s.loops.get n
  let man := if l.modePend then bit s (Fld.LOOP_MODE_MAN n) else l.man
  let copy := l.modePend && man && !l.man && bit s (Fld.LOOP_MODE_LOAD_U n) && !l.umanPend
  let uman := if copy then l.u.cur else if l.umanPend then rd s (Reg.LOOP_UMAN n) else l.uman
  let s1 := if copy then wr s (Reg.LOOP_UMAN n) uman else s
  let s2 := setLoop s1 n fun l => { l with
    man := man, uman := uman, modePend := false, umanPend := false
    modeAt := if man != l.man then some s.time.base else l.modeAt }
  if l.modePend then raise (fput s2 (Fld.LOOP_STATUS_MAN_PEND n) 0) (Fld.LOOP_EVENT_MODE_DONE n) else s2

/-- LOOP_MODE_APPLY (R148, R149). -/
def execLoopModeApply (n : Fin 64) (s : State) : Host.Outcome State Fault Refusal := .next (applyLoopMode n s)

/-- A write of LOOP_CTRL with CNT_CLR = 1 clears LOOP_CNT (R166). -/
def clearLoopCnt (n : Fin 64) (s : State) : State := wr s (Reg.LOOP_CNT n) 0

/-- LOOP_CNT_CLR (R164, R166). -/
def execLoopCntClr (n : Fin 64) (s : State) : Host.Outcome State Fault Refusal := .next (clearLoopCnt n s)

/-- A swap of the loop is pending (R85). -/
def swapPending (s : State) (n : Nat) : Bool :=
  if n < 32 then fbit s Fld.SCHED_SWAP_PEND_LO_PEND_LO n else fbit s Fld.SCHED_SWAP_PEND_HI_PEND_HI (n - 32)

/-- A host write of a shadow-bank word (R86, R166): refused while a swap is pending; ignored for a reserved word or a
value word with reserved bits set (R18). -/
def writeLoopShadow (n : Fin 64) (w : Fin 64) (v : Word) (s : State) : State :=
  if swapPending s n then raise s Fld.SCHED_EVENT_SHADOW_BUSY
  else if vwReserved v || decide (24 ≤ w.val) then s
  else engSetWord s (0x60000 + n * 0x400 + (1 - activeBank s n) * 0x200 + 4 * w) v

/-- LOOP_SHADOW_WRITE (R86, R166). -/
def execLoopShadowWrite (n : Fin 64) (w : Fin 64) (v : Word) (s : State) : Host.Outcome State Fault Refusal :=
  .next (writeLoopShadow n w v s)

end Sys2Proof.Machine
end

