-- ==== Sys2Proof/Machine/Hk.lean ====
section
/-! DEFINITION. Sys2Proof/Machine/Hk.lean: the housekeeping round, throttling and the temperature permissions (spec/10), with
what a slow round does for the battery (R285), the references (R482) and the life ledger (R421, R424, R426). -/

namespace Sys2Proof.Machine

/-- Housekeeping changed in what no register holds. -/
def setHk (s : State) (f : HkSt → HkSt) : State := { s with hk := f s.hk }

/-- Housekeeping runs (R299). -/
def hkRuns (s : State) : Bool := devState s != .off && devState s != .hibernate

/-- A field of the settings that the round in progress uses (R299, R310). -/
def hget (s : State) (f : Field) : Nat := getBits (storeGet regReset s.hk.cfg f.addr) f.lo f.width

/-- Entry `i` of a vector, or a default. -/
def vget {α : Type} {n : Nat} (d : α) (v : Vector α n) (i : Nat) : α := v.toList.getD i d

/-- A temperature in °C as the units of R300. -/
def degC (t : Int) : Int := 16 * t

/-- Full-scale hot (R301). -/
def fullHot : Int := 0x7FFF

/-! ### The round begins (R299) -/

/-- HK_ROUND_START (R298, R299): the round takes its settings, its codes and its readings. -/
def execHkRoundStart (codes : HkCodes) (s : State) : Host.Outcome State Fault Refusal :=
  if hkRuns s && s.hk.phase == .idle && decide (s.hk.nextAt ≤ s.tick) then
    .next (setHk s fun h => { h with
      phase := .converting, startAt := s.tick, nextAt := s.tick + 100 * fget s Fld.HK_CFG_PER
      cfg := s.live.filter fun e => decide (0x9000 ≤ e.1) && decide (e.1 < 0x9800)
      level := if h.afresh then Vector.replicate 8 0 else h.level
      hot2 := if h.afresh then Vector.replicate 8 false else h.hot2
      afresh := false
      codes := codes.codes.map BitVec.toNat, die := codes.die.map BitVec.toInt })
  else .next s

/-! ### Temperatures (R300, R301) -/

/-- The temperature that code `c` of thermistor sensor `k` stands for (R300). -/
def thermTemp (s : State) (k c : Nat) : Int :=
  let r25 := hget s (Fld.HK_SCFG_R25 k)
  let beta := hget s (Fld.HK_SCFG_BETA k)
  if r25 = 0 ∨ beta = 0 then Config.tempNoCurve c
  else
    let r : Rat := 10000 * (c : Rat) / ((4096 - c : Nat) : Rat)
    Config.tempUnits (1 / (100 / 29815 + lnR (r / (100 * (r25 : Rat))) / (beta : Rat)) - 27315 / 100)

/-- The temperature of sensor `k` before R301. -/
def rawTemp (s : State) (k : Nat) : Int := if k < 8 then vget 0 s.hk.die k else thermTemp s k (vget 0 s.hk.codes k)

/-- Twice the median of the eight on-die readings: the sum of the two in the middle (R301). -/
def dieMedian2 (s : State) : Int :=
  let l := s.hk.die.toList.mergeSort (fun a b => decide (a ≤ b))
  l.getD 3 0 + l.getD 4 0

/-- A condition of R301 holds for sensor `k`. -/
def sensorBad (s : State) (k : Nat) : Bool :=
  let c := vget 0 s.hk.codes k
  let t := vget 0 s.hk.raw k
  let far := match vget none s.hk.prev k with | some p => decide (degC 20 < (t - p).natAbs) | none => false
  decide (t < degC (-55)) || decide (degC 175 < t) ||
    (if k < 8 then decide (2 * degC 25 < (2 * t - dieMedian2 s).natAbs)
     else decide (c < 16) || decide (4079 < c) || far)

/-- Sensor `k` is broken. -/
def sensorBroken (s : State) (k : Nat) : Bool := s.hk.broken.testBit k

/-- The temperature of sensor `k` in every use but the rate of rise (R301). -/
def sensorTemp (s : State) (k : Nat) : Int := if sensorBroken s k then fullHot else vget 0 s.hk.raw k

/-- Sensor `k` judged under R301, with fault 0x0701 on entry. -/
def judgeSensor (s : State) (k : Fin 18) : State :=
  let bad := sensorBad s k
  let was := sensorBroken s k
  let n := if bad then 0 else vget 0 s.hk.good k + 1
  let now := bad || (was && decide (n < 16))
  let s1 := setHk s fun h => { h with
    good := upd h.good k fun _ => n
    broken := if now then h.broken ||| 2 ^ k.val else if was then h.broken - 2 ^ k.val else h.broken }
  if now && !was then reportCorrected (raise s1 Fld.HK_EVENT_BROKEN) 0x0701 (stampI s1) else s1

/-- Every temperature formed and judged (R300, R301). -/
def judgeSensors (s : State) : State :=
  let s1 := setHk s fun h => { h with raw := Vector.ofFn fun k => rawTemp s k.val }
  let s2 := (List.finRange 18).foldl judgeSensor s1
  setHk s2 fun h => { h with prev := h.raw.map some }

/-! ### Groups (R302 to R305) -/

/-- Group `g` is judged (R302). -/
def groupOn (s : State) (g : Nat) : Bool := hget s (Fld.HK_G_CFG_EN g) != 0

/-- The sensors of group `g` (R302). -/
def groupSensors (s : State) (g : Nat) : List Nat :=
  (List.range 18).filter fun k => hget s (Fld.HK_SCFG_GEN k) != 0 && hget s (Fld.HK_SCFG_GROUP k) == g

/-- The largest of some temperatures. -/
def maxTemp : List Int → Option Int
  | [] => none
  | t :: ts => some (ts.foldl max t)

/-- The temperature of group `g` (R302); of a group without a sensor the spec states none: free value `n`. -/
def groupTemp (s : State) (g n : Nat) : Int :=
  (maxTemp ((groupSensors s g).map (sensorTemp s))).getD (Config.freeWord n).toInt

/-- HOT1, HOT2, STEP and HYS of group `g` in the units of R300. -/
def gHot1 (s : State) (g : Nat) : Int := degC (hget s (Fld.HK_G_LIM_HOT1 g))

/-- HOT2 of group `g`. -/
def gHot2 (s : State) (g : Nat) : Int := degC (hget s (Fld.HK_G_LIM_HOT2 g))

/-- STEP of group `g`. -/
def gStep (s : State) (g : Nat) : Int := 8 * (hget s (Fld.HK_G_LIM_STEP g) : Int)

/-- HYS of group `g`. -/
def gHys (s : State) (g : Nat) : Int := 8 * (hget s (Fld.HK_G_LIM_HYS g) : Int)

/-- The level of group `g` at temperature `t`, from level `k` (R303). -/
def judgeLevel (s : State) (g : Nat) (t : Int) (k : Nat) : Nat :=
  let up := if t < gHot1 s g then 0 else min 8 (1 + (t - gHot1 s g) / gStep s g).toNat
  if k < up then up
  else (List.range 8).foldl (fun k _ =>
    if 0 < k ∧ t < gHot1 s g + ((k : Int) - 1) * gStep s g - gHys s g then k - 1 else k) k

/-- The maximum of the plausible sensors of group `g` in this round (R304). -/
def plausibleMax (s : State) (g : Nat) : Option Int :=
  maxTemp (((groupSensors s g).filter fun k => !sensorBroken s k).map fun k => vget 0 s.hk.raw k)

/-- The maximum of this round joins those of the 16 rounds before it, whether the group is judged or not (R304). -/
def keepMax (s : State) (g : Fin 8) : State :=
  setHk s fun k => { k with hist := upd k.hist g fun h => (plausibleMax s g :: h).take 16 }

/-- The rate-of-rise test of group `g` (R304): the maximum of this round against the one 16 rounds earlier. -/
def judgeRor (s : State) (g : Fin 8) : State :=
  let was := s.hk.ror.get g
  let act := match plausibleMax s g, ((s.hk.hist.get g)[15]?).join with
    | some t, some p => decide (8 * (hget s (Fld.HK_G_CFG_ROR g) : Int) < t - p)
    | _, _ => was
  let s1 := setHk s fun k => { k with ror := upd k.ror g fun _ => act }
  if act && !was then reportCorrected (raise s1 Fld.HK_EVENT_ROR) 0x0703 (stampI s1) else s1

/-- HOT2 of group `g` (R305): the fault is reported as the group reaches HOT2. -/
def judgeHot2 (s : State) (g : Fin 8) (t : Int) : State :=
  let hot := decide (gHot2 s g ≤ t)
  let was := s.hk.hot2.get g
  let s1 := setHk s fun k => { k with
    hot2 := upd k.hot2 g fun _ => hot
    hotFault := upd k.hotFault g fun b => hot || (b && !decide (t < gHot2 s g - gHys s g)) }
  if hot && !was then
    let s2 := raise s1 Fld.HK_EVENT_HOT2
    if hget s (Fld.HK_G_CFG_FATAL g) != 0 then report s2 0x0702 2 0 0 (stampI s2)
    else report s2 0x0702 1 6 g (stampI s2)
  else s1

/-- The level of group `g` judged, with its events (R303, R304). -/
def putLevel (s : State) (g : Fin 8) (t : Int) : State :=
  let k := s.hk.level.get g
  let j := judgeLevel s g t k
  let new := if s.hk.ror.get g then max j (hget s (Fld.HK_G_CFG_RORLVL g)) else j
  let s1 := setHk s fun h => { h with level := upd h.level g fun _ => new }
  let s2 := if k = 0 ∧ new ≠ 0 then raise s1 Fld.HK_EVENT_HOT1 else s1
  if new = k then s2 else raise s2 Fld.HK_EVENT_LEVEL_CHG

/-- One group judged (R302 to R305). -/
def judgeGroup (s : State) (g : Fin 8) : State :=
  if groupOn s g then
    let t := groupTemp s g s.free
    let s1 := setHk { s with free := s.free + 1 } fun h => { h with gtemp := upd h.gtemp g fun _ => t }
    keepMax (judgeHot2 (putLevel (judgeRor s1 g) g t) g t) g
  else keepMax s g

/-! ### Permissions (R307, R308) -/

/-- Charging of battery `b` judged by the temperature of its thermistor (R307). -/
def judgeCharge (s : State) (b : Fin 2) : State :=
  let t := sensorTemp s (16 + b)
  let lo := degC (toSigned 8 (hget s (Fld.HK_BCHG_TLO b)))
  let hi := degC (toSigned 8 (hget s (Fld.HK_BCHG_THI b)))
  let hy := 8 * (hget s (Fld.HK_BCHG_HYS b) : Int)
  let was := s.hk.chgInh.get b
  let now := bit s (Fld.BATT_CFG_EN b) &&
    (if was then !(decide (lo + hy ≤ t) && decide (t ≤ hi - hy)) else decide (t < lo) || decide (hi < t))
  let s1 := setHk s fun h => { h with chgInh := upd h.chgInh b fun _ => now }
  if now && !was then reportCorrected (raise s1 Fld.HK_EVENT_CHG_INH) 0x0704 (stampI s1) else s1

/-- TJMAX and TJMIN (R308). -/
def tjMax (s : State) : Int := (List.range 8).foldl (fun m k => max m (sensorTemp s k)) (sensorTemp s 0)

/-- TJMIN (R308). -/
def tjMin (s : State) : Int := (List.range 8).foldl (fun m k => min m (sensorTemp s k)) (sensorTemp s 0)

/-- NVM may be erased and programmed (R308, R409): the temperatures allow it, and HK_STATUS.NVM_INH, which shows them from their publication
on, is 0. -/
def nvmAllowed (s : State) : Bool := !s.hk.nvmInh && !bit s Fld.HK_STATUS_NVM_INH

/-- The identity and configuration region brought up to what the trust block and REC_FLOOR hold, unless NVM writes are forbidden (R308, R435). -/
def programTrust (s : State) : State :=
  if nvmAllowed s then
    { s with trust := { s.trust with kept := ⟨s.trust.lifecycle, s.trust.revoked, s.trust.keys, s.trust.clearKey, s.trust.bootCnt,
      s.trust.fwSlot, s.trust.stSlot, (rd s Reg.REC_FLOOR).toNat, s.trust.fwStg, s.trust.stStg, s.trust.stored⟩ } }
  else s

/-- NVM writes judged by the junction temperature (R308). -/
def judgeNvm (s : State) : State :=
  let was := s.hk.nvmInh
  let now := if was then !(decide (tjMax s ≤ degC 113) && decide (degC (-38) ≤ tjMin s))
    else decide (degC 115 < tjMax s) || decide (tjMin s < degC (-40))
  let s1 := setHk s fun h => { h with nvmInh := now }
  if now && !was then reportCorrected (raise s1 Fld.HK_EVENT_NVM_INH) 0x0705 (stampI s1) else s1

/-! ### What else tick 40 does -/

/-- The nominal codes of channels 30 to 39 (R482). -/
def refNominal : List Int := [2048, 3276, 3276, 2457, 0, 2048, 3276, 3276, 3276, 3276]

/-- The reference check of channel 30 + `i` (R482). -/
def judgeRef (s : State) (i : Nat) : State :=
  let c : Int := (vget 0 s.hk.codes (30 + i) : Nat)
  let bad := decide (fget s Fld.TEST_CHK_CFG_HKTOL < (c - refNominal.getD i 0).natAbs)
  let was := fbit s Fld.TEST_HK_FAIL_CH i
  let s1 := fputBit s Fld.TEST_HK_FAIL_CH i bad
  if bad && !was then reportCorrected (raise s1 Fld.TEST_EVENT_HK_FAIL) 0x0706 (stampI s1) else s1

/-- The identity code of battery `b` (R285): a raw code read in four rounds in a row is adopted. -/
def judgeId (s : State) (b : Fin 2) : State :=
  let raw := vget 0 s.hk.codes (18 + b) / 256
  let x := battOf s b
  let run := if raw = x.rawId then min (x.rawRun + 1) 4 else 1
  let old := fget s (Fld.BATT_STATUS_IDCODE b)
  let use := bit s (Fld.BATT_CFG_ID_USE b)
  let new := if !use then 0 else if run = 4 then raw else old
  let real := fun (c : Nat) => decide (1 ≤ c) && decide (c ≤ 14)
  let s1 := fput s (Fld.BATT_STATUS_IDCODE b) new
  setBatt s1 b fun x => { x with
    rawId := raw, rawRun := run, swapped := x.swapped || (use && real old && real new && new != old)
    temp := (sensorTemp s (16 + b) : Rat) / 16, thBad := sensorBroken s (16 + b) }

/-- HU_READY follows channel 26 (R421). -/
def judgeHuReady (s : State) : State :=
  let now := decide (3208 ≤ vget 0 s.hk.codes 26)
  let was := bit s Fld.REC_STATUS_HU_READY
  let s1 := fputB s Fld.REC_STATUS_HU_READY now
  if was && !now then reportCorrected (raise s1 Fld.REC_EVENT_HU_NOTREADY) 0x0D06 (stampI s1) else s1

/-- The time of a slow round added to the accumulator of a residency counter (R424): units of 100 µs, the counter advances at 1 s. -/
def residency (s : State) (off n : Nat) : State :=
  let old := match s.saddle.acc.find? fun e => e.1 == off with | some e => e.2 | none => 0
  let v := old + n
  let put := fun (s : State) (w : Nat) => { s with saddle := { s.saddle with
    acc := storeSet (fun _ => 0) s.saddle.acc off w } }
  if 10000 ≤ v then ledgerAdd (put s (v - 10000)) off 1 else put s v

/-- The bin of a temperature (R425). -/
def tempBin (t : Int) : Nat := if t < degC (-30) then 0 else min 15 (1 + (t - degC (-30)) / degC 10).toNat

/-- The bin of VSUP from the code of channel 20 (R424): the code is 2000 / 4096 mV. -/
def vsupBin (c : Nat) : Nat := if 2000 * c < 900 * 4096 then 0 else min 7 (1 + (2000 * c - 900 * 4096) / (150 * 4096))

/-- The temperature of a port for the ledger (R424). -/
def portTemp (s : State) (p : Nat) : Int :=
  (maxTemp (((List.range 8).filter fun g => groupOn s g && (hget s (Fld.HK_G_CRS_CRS g)).testBit (courseOf s p)).map
    fun g => vget 0 s.hk.gtemp g)).getD (tjMax s)

/-- The bin of a thermal half-cycle of `d` (R426). -/
def halfCycleBin (d : Nat) : Nat :=
  (([160, 320, 480, 640, 960, 1280, 1600].filter fun e => e ≤ d).length)

/-- Thermal half-cycles of one port at temperature `t` (R426). -/
def thermalPort (s : State) (p : Fin 32) (t : Int) : State :=
  let put := fun (s : State) (v : Int × Int × Bool) => { s with saddle := { s.saddle with
    thermal := upd s.saddle.thermal p fun _ => some v } }
  match s.saddle.thermal.get p with
  | none => put s (t, t, true)
  | some (x, e, up) =>
    if (up && decide (x < t)) || (!up && decide (t < x)) then put s (t, e, up)
    else if degC 5 ≤ (x - t).natAbs then
      let d := (x - e).natAbs
      let s1 := if degC 5 ≤ d then ledgerAdd s (0x280 + 0xC0 * p.val + 4 * halfCycleBin d) 1 else s
      put s1 (t, x, !up)
    else s

/-- The residency of one port (R424) and its thermal half-cycles (R426). -/
def ledgerPort (n : Nat) (s : State) (p : Fin 32) : State :=
  let t := portTemp s p
  let base := 0x200 + 0xC0 * p.val
  let s1 := if (s.ports.get p).active then
      let c := min 15 ((fgetS s (Fld.PORT_SAMP_I_CODE p)).natAbs / 512)
      residency (residency (residency s (base + 4 * c) n) (base + 0x40 + 4 * tempBin t) n) (base + 0xA0) n
    else s
  thermalPort s1 p t

/-- The life ledger at a slow round (R424, R426). -/
def ledgerRound (s : State) : State :=
  let n := hget s Fld.HK_CFG_PER
  let s1 := residency (residency s (0x40 + 4 * tempBin (tjMax s)) n) (0x80 + 4 * vsupBin (vget 0 s.hk.codes 20)) n
  let s2 := residency s1 0x100 n
  let s3 := if devState s2 == .armed then residency s2 0x104 n else s2
  (List.finRange 32).foldl (ledgerPort n) s3

/-- HK_EVALUATE (R299): tick 40 of the round in progress. -/
def execHkEvaluate (s : State) : Host.Outcome State Fault Refusal :=
  if hkRuns s && s.hk.phase == .converting && decide (s.hk.startAt + 40 ≤ s.tick) then
    let s1 := (List.finRange 8).foldl judgeGroup (judgeSensors s)
    let s2 := judgeNvm ((List.finRange 2).foldl judgeCharge s1)
    let s3 := (List.range 10).foldl judgeRef s2
    let s4 := ledgerRound (judgeHuReady ((List.finRange 2).foldl judgeId s3))
    .next (setHk s4 fun h => { h with phase := .evaluated })
  else .next s

/-! ### Publication (R299, R306) -/

/-- The full scale of channel `i`, tenths of a volt (R298). -/
def hkScale (i : Nat) : Nat :=
  if i = 20 ∨ i = 21 ∨ i = 30 ∨ i = 33 then 20 else if 22 ≤ i ∧ i ≤ 25 then 40 else if i = 26 then 30 else 10

/-- What channel `i` delivers to the engine (R298). -/
def hkSignal (s : State) (i : Nat) : Word :=
  let c := vget 0 s.hk.codes i
  if i < 18 then vwOf ((sensorTemp s i : Rat) / 16)
  else if i < 20 then vwOf ((c / 256 : Nat) : Rat)
  else vwOf ((c : Rat) * (hkScale i : Rat) / 40960)

/-- The throttle level of course `c` (R306). -/
def courseLevel (s : State) (c : Nat) : Nat :=
  ((List.range 8).filter fun g => groupOn s g && (hget s (Fld.HK_G_CRS_CRS g)).testBit c).foldl
    (fun m g => max m (vget 0 s.hk.level g)) 0

/-- The level of course `c` in HK_LEVEL (R312). -/
def levelFld (c : Nat) : Field := ⟨Reg.HK_LEVEL (c / 8), 4 * (c % 8), 4⟩

/-- A group in its status register (R313). -/
def publishGroup (s : State) (g : Nat) : State :=
  if groupOn s g then
    let s1 := fputS s (Fld.HK_G_STAT_TEMP g) (vget 0 s.hk.gtemp g)
    let s2 := fput s1 (Fld.HK_G_STAT_LEVEL g) (vget 0 s.hk.level g)
    let s3 := fputB (fputB s2 (Fld.HK_G_STAT_HOT2 g) (vget false s.hk.hot2 g)) (Fld.HK_G_STAT_ROR g) (vget false s.hk.ror g)
    fputB s3 (Fld.HK_G_STAT_BROKEN g) ((groupSensors s g).any (sensorBroken s))
  else wr s (Reg.HK_G_STAT g) 0

/-- HK_PUBLISH (R299): tick 41 of the round in progress. Where NVM_INH falls, what the trust block has waiting is programmed (R308). -/
def execHkPublish (s : State) : Host.Outcome State Fault Refusal :=
  if hkRuns s && s.hk.phase == .evaluated && decide (s.hk.startAt + 41 ≤ s.tick) then
    let s1 := (List.range 40).foldl (fun s i => fput s (Fld.HK_CODE_CODE i) (vget 0 s.hk.codes i)) s
    let s2 := (List.range 18).foldl (fun s k =>
      fputB (fputS s (Fld.HK_TEMP_TEMP k) (sensorTemp s k)) (Fld.HK_TEMP_BROKEN k) (sensorBroken s k)) s1
    let s3 := (List.range 8).foldl publishGroup s2
    let s4 := (List.range 32).foldl (fun s c => fput s (levelFld c) (courseLevel s c)) s3
    let s5 := fputS (fputS (fput s4 Fld.HK_BROKEN_BROKEN s4.hk.broken) Fld.HK_TJ_TJMAX (tjMax s4)) Fld.HK_TJ_TJMIN (tjMin s4)
    let s6 := fputB (fputB s5 Fld.HK_STATUS_NVM_INH s5.hk.nvmInh) Fld.HK_STATUS_BROKEN (s5.hk.broken != 0)
    let s7 := fputB (fputB s6 Fld.HK_STATUS_CHG_INH0 (s6.hk.chgInh.get 0)) Fld.HK_STATUS_CHG_INH1 (s6.hk.chgInh.get 1)
    let s8 := inc (fput s7 Fld.HK_STATUS_FIRST 1) Fld.HK_ROUNDS_ROUNDS
    .next (programTrust (setHk s8 fun h => { h with phase := .idle, engine := Vector.ofFn fun i => hkSignal s8 i.val }))
  else .next s

/-! ### Throttling in the engine (R306, R307, R309) -/

/-- Round `r` is muted at level `k` for course `c` (R306). -/
def mutePattern (r c k : Nat) : Bool :=
  let j := (r + c) % 16
  decide (j * k / 16 < (j + 1) * k / 16)

/-- Course `c` is muted in round `r` (R306, R307, R221): `exempt` tells whether it counts as not mutable under input loss. -/
def mutedIn (s : State) (r : Nat) (exempt : Bool) (c : Nat) : Bool :=
  let chg := (fbit s (Fld.HK_CHGINH_CHGINH 0) c && bit s Fld.HK_STATUS_CHG_INH0) ||
    (fbit s (Fld.HK_CHGINH_CHGINH 1) c && bit s Fld.HK_STATUS_CHG_INH1)
  !exempt && (chg || (fbit s Fld.HK_MUTABLE_MUTABLE c && mutePattern r c (vget 0 s.hk.inForce c)))

/-- The mutes of the round in progress (R306, R307). -/
def muteRound (s : State) : State :=
  let r := fget s Fld.SCHED_ROUNDS_ROUNDS
  let m := (List.range 32).foldl (fun m c => if mutedIn s r (holdupCourse s c) c then m + 2 ^ c else m) 0
  setHk s fun h => { h with muted := m }

/-- The mutes of the round that begins, and the ports they gate, formed anew after a change at its boundary (R221, R306). -/
def remute (s : State) : State := refreshPorts (muteRound s)

/-- At a round boundary with SCHED_ROUNDS mod 16 = 0 the levels that have reached the engine take effect, so that the mutes of that very round
follow them (R306). -/
def levelsApply (s : State) : State :=
  if fget s Fld.SCHED_ROUNDS_ROUNDS % 16 = 0 then setHk s fun h => { h with inForce := h.atEngine } else s

/-- THROTTLE_APPLY (R306): at a round boundary with SCHED_ROUNDS mod 16 = 0 the level of a course that has reached the engine
takes effect, from the round that begins; after ROUND_BOUNDARY, which judges the mutes of that round, it is in force already (log entry
177). -/
def execThrottleApply (c : Fin 32) (s : State) : Host.Outcome State Fault Refusal :=
  if fget s Fld.SCHED_ROUNDS_ROUNDS % 16 = 0 then
    .next (remute (setHk s fun h => { h with inForce := upd h.inForce c fun _ => h.atEngine.get c }))
  else .next s

/-- The mean of the plausible on-die sensors, °C (R309); none when all are broken. -/
def dieMean (s : State) : Option Rat :=
  let l := ((List.range 8).filter fun k => !sensorBroken s k).map fun k => vget 0 s.hk.raw k
  if l.isEmpty then none else some ((l.sum : Rat) / (16 * (l.length : Rat)))

/-- The temperature trims move by at most one step at an engine round boundary (R309). -/
def trimRefs (s : State) : State :=
  match dieMean s with
  | none => s
  | some t => setHk s fun h => { h with trims := Vector.ofFn fun i =>
      let v := h.trims.get i
      let g := Config.refTrim i.val t
      if v < g then v + 1 else if g < v then v - 1 else v }

/-- HK_CTRL.CNT_CLR (R312). -/
def clearHkCnt (s : State) : State := wr s Reg.HK_ROUNDS 0

/-- HK_CNT_CLR (R312): clears HK_ROUNDS. -/
def execHkCntClr (s : State) : Host.Outcome State Fault Refusal := .next (clearHkCnt s)

end Sys2Proof.Machine
end

