-- ==== Sys2Proof/Machine/Time.lean ====
section
/-! DEFINITION. Sys2Proof/Machine/Time.lean: the angle timebase (spec/01): the cycle and its frequency, the mains PLL,
the states of the timebase, loss and return of a source, the fleet angle, timestamps and the replica. -/

namespace Sys2Proof.Machine

/-- The states of the timebase, by the code TIME_STATUS.STATE reports (R32). -/
inductive TbState where
  | provisional | virtual | transfer | locked | holdover | slew
  deriving DecidableEq, Repr

/-- The code of R32. -/
def TbState.code : TbState → Nat
  | .provisional => 0 | .virtual => 1 | .transfer => 2 | .locked => 3 | .holdover => 4 | .slew => 5

/-- The state of a code of R32. -/
def TbState.ofCode : Nat → TbState
  | 1 => .virtual | 2 => .transfer | 3 => .locked | 4 => .holdover | 5 => .slew | _ => .provisional

/-- The state of the timebase. -/
def tbState (s : State) : TbState := TbState.ofCode (fget s Fld.TIME_STATUS_STATE)

/-- The state of the timebase changed. -/
def setTb (s : State) (t : TbState) : State := fput s Fld.TIME_STATUS_STATE t.code

/-- The timebase state changed in its fields that no register holds. -/
def setTime (s : State) (f : TimeSt → TimeSt) : State := { s with time := f s.time }

/-- The configuration that the TIME registers hold (R56). -/
def timeCfgOfRegs (s : State) : TimeCfg where
  src := fget s Fld.TIME_CTRL_SRC
  fb := bit s Fld.TIME_CTRL_FB
  threePh := bit s Fld.TIME_CTRL_THREE_PH
  hold := fget s Fld.TIME_CTRL_HOLD
  pull := fget s Fld.TIME_CTRL_PULL
  slew := fget s Fld.TIME_CTRL_SLEW
  ret := fget s Fld.TIME_CTRL_RET
  flo := fget s Fld.TIME_FLO_MHZ
  fhi := fget s Fld.TIME_FHI_MHZ
  vfreq := fget s Fld.TIME_VFREQ_MHZ
  rpc := fget s Fld.TIME_RPC_RPC
  rlen := fget s Fld.TIME_RLEN_RLEN
  n := fget s Fld.TIME_N_N
  profile := fget s Fld.SCHED_STATUS_PROFILE

/-- Lowest and highest engine clock of a profile, in kHz (R6). -/
def profileKHz (profile : Nat) : Nat × Nat := if profile = 2 then (112000, 138000) else (225000, 275000)

/-- Milli-hertz as an exact number of Hz. -/
def mHz (n : Nat) : Rat := (n : Rat) / 1000

/-- The pull limit p of TIME_CTRL.PULL, turns per cycle (R40, R56). -/
def pullLimit (c : TimeCfg) : Rat := 1 / ((64 * 2 ^ c.pull : Nat) : Rat)

/-- The slew step of TIME_CTRL.SLEW, Hz per cycle (R46, R56). -/
def slewStep (c : TimeCfg) : Rat :=
  match c.slew with
  | 0 => 1 / 2
  | 1 => 1 / 4
  | 2 => 1 / 10
  | _ => 1 / 20

/-- A number of turns brought into [−1/2, 1/2) (R20). -/
def wrapTurn (x : Rat) : Rat := x - ((x + 1 / 2).floor : Rat)

/-- A 32-bit angle in turns. -/
def turns (a : Nat) : Rat := (a : Rat) / ((2 ^ 32 : Nat) : Rat)

/-- Turns as a 32-bit angle, rounded down (DESIGN CHOICE: log entry 172). -/
def toAngle (x : Rat) : Nat := ((fracTurn x * ((2 ^ 32 : Nat) : Rat)).floor.toNat) % 2 ^ 32

/-- A frequency as TIME_FREQ, TIME_GFREQ and TIME_HOLD_FREQ show it: units of 2^−20 Hz, rounded down (R56; DESIGN CHOICE: log entry
172). -/
def toFreqReg (f : Rat) : Nat := (f * ((2 ^ 20 : Nat) : Rat)).floor.toNat

/-- The Harness source angle at fret `f` of this round, turns since the carried frame began its count (R47). -/
def harTurns (s : State) (f : Nat) : Rat := s.time.harTheta + turnsIn s s.time.harFreq ((absFret s f : Rat) - s.time.harAt)

/-- A new cycle begins at fret 0 of this round, before its frequency is chosen (R30): the Harness source angle is made to hold for this
fret (R47), and the engine clock of the cycle that has ended is kept, by which θg is carried over the boundary (R35, R39). -/
def anchorAngles (s : State) : State :=
  setTime s fun t => { t with
    cycleAt := absFret s 0
    clockBefore := t.freq * (t.cfg.n : Rat)
    harTheta := harTurns s 0
    harAt := (absFret s 0 : Rat) }

/-- The grid PLL as an engine start finds it: θg is 0 at this round boundary and the frequency estimate is w_ff (R526). -/
def pllStart (s : State) : State :=
  setTime s fun t => { t with
    thetaG := 0, thetaAt := absFret s 0, used := s.time.usable.cur, gfreq := vwVal (rd s Reg.PLL_WFF)
    lockSoFar := false, lockCycles := 0, grace := none }

/-- The steering source (TIME_STATUS.SRC_ACT): 0 mains, 1 none, 2 Harness. -/
def srcAct (s : State) : Nat := fget s Fld.TIME_STATUS_SRC_ACT

/-- The angle of the steering source at fret `f` of this round, turns. -/
def srcTurns (s : State) (f : Nat) : Rat := if srcAct s = 2 then harTurns s f else gridTurns s f

/-- The frequency of the steering source, Hz. -/
def srcFreq (s : State) : Rat := if srcAct s = 2 then s.time.harFreq else s.time.gfreq

/-- TRANSFER or LOCKED: a phase target exists (R32). -/
def hasTarget (s : State) : Bool := tbState s == .transfer || tbState s == .locked

/-- The phase error e at fret `f`: source angle minus shared angle (R20, R40); 0 with no phase target. -/
def phaseErr (s : State) (f : Nat) : Rat :=
  if hasTarget s then wrapTurn (srcTurns s f - turns (angleAt s f)) else 0

/-- The source the timebase is to steer by, when one is qualified (R34, R48, R49). -/
def wantedSource (s : State) : Option Nat :=
  let mains := if bit s Fld.TIME_STATUS_MAINS_QUAL then some 0 else none
  match s.time.cfg.src with
  | 0 => mains
  | 2 => if isRoot s then mains
         else if bit s Fld.TIME_STATUS_HARN_VALID then some 2
         else if s.time.cfg.fb && s.time.fallback then mains
         else none
  | _ => none

/-- The frequency held on entry into HOLDOVER (R45): of the Harness, the carried frequency (DEDUCED: log entry 127); of the mains, the
mean of the last complete grid cycle that ended qualified, and a free value where there is none (log entry 127). -/
def heldFreq (s : State) : Rat := if srcAct s = 2 then s.time.harFreq else s.time.lastMean.getD (Config.heldFreq s.time.gfreq)

/-- Entry into HOLDOVER (R45, R525): in the round of the loss, at the frequency held. -/
def enterHoldover (s : State) (f : Nat) : State :=
  let held := heldFreq s
  let s1 := fput (raise (setTb s .holdover) Fld.TIME_EVENT_HOLD_ENTER) Fld.TIME_HOLD_FREQ_HOLD_FREQ (toFreqReg held)
  let s2 := fput (setTime s1 fun t => { t with holdCount := 0, held := held }) Fld.TIME_STATUS_SRC_ACT 1
  report (fput s2 Fld.TIME_STATUS_ALIGNED 0) 0x0302 0 0 0 (stampE s f)

/-- The steering source has lost its qualification in TRANSFER or LOCKED (R525). -/
def loseSource (s : State) (f : Nat) (holdover : Bool) : State :=
  if hasTarget s then
    let s1 := report (inc (raise s Fld.TIME_EVENT_LOCK_LOSS) Fld.TIME_COUNT_LOSS_CNT) 0x0301 0 0 0 (stampE s f)
    if holdover then enterHoldover s1 f else s1
  else s

/-- The mains is no longer qualified (R37); when it steers, the source is lost (R44, R525). -/
def mainsLost (s : State) (f : Nat) : State :=
  if bit s Fld.TIME_STATUS_MAINS_QUAL then
    let s1 := fput (setTime s fun t => { t with retCount := 0, condCycle := false, grace := none }) Fld.TIME_STATUS_MAINS_QUAL 0
    if srcAct s = 0 then loseSource s1 f true else s1
  else setTime s fun t => { t with retCount := 0, condCycle := false }

/-- The engine frequency of the next cycle, limited to a change of 2 % of VFREQ and clipped to the profile (R40, R41);
the boundary at which a new N or profile takes effect is exempt from the 2 % (R452). -/
def limitFreq (s : State) (f : Rat) : Rat × Bool :=
  let c := s.time.cfg
  let d := mHz c.vfreq / 50
  let f1 := if s.time.exemptAt = some s.tick then f else clipR f (s.time.freq - d) (s.time.freq + d)
  let lim := profileKHz c.profile
  let f2 := clipR f1 ((lim.1 * 1000 : Nat) / (c.n : Rat)) ((lim.2 * 1000 : Nat) / (c.n : Rat))
  (f2, f2 != f1)

/-- The engine frequency made `f` for the next cycle under R40 and R41, with CLAMP and CLAMP_HIT. -/
def steerTo (s : State) (f : Rat) : State :=
  let r := limitFreq s f
  let s1 := fputB (setTime s fun t => { t with freq := r.1 }) Fld.TIME_STATUS_CLAMP r.2
  let s2 := fput s1 Fld.TIME_FREQ_FREQ (toFreqReg r.1)
  if r.2 then raise s2 Fld.TIME_EVENT_CLAMP_HIT else s2

/-- The change of φ over the next cycle, turns: at most the pull limit (R50). -/
def fleetDelta (s : State) : Rat :=
  let p := pullLimit s.time.cfg
  clipR (wrapTurn (turns s.time.fleetTarget - turns s.time.fleetBase)) (-p) p

/-- f_e of R40 for a steering source, with the fleet angle moving by `d` turns in the cycle (R50). -/
def pulledFreq (s : State) (d : Rat) : Rat :=
  let p := pullLimit s.time.cfg
  let c := clipR (phaseErr s 0 - d) (-p) p
  srcFreq s / (1 - c)

/-- TRANSFER entered toward source `src` (R34). -/
def startTransfer (s : State) (src : Nat) : State :=
  raise (fput (setTb s .transfer) Fld.TIME_STATUS_SRC_ACT src) Fld.TIME_EVENT_TRANSFER_START

/-- The slew step of one cycle boundary; VIRTUAL when VFREQ is reached (R46, R55). -/
def slewBoundary (s : State) : State :=
  let v := mHz s.time.cfg.vfreq
  let d := slewStep s.time.cfg
  let f := clipR v (s.time.freq - d) (s.time.freq + d)
  let s1 := steerTo s f
  if s1.time.freq = v then
    report (raise (setTb s1 .virtual) Fld.TIME_EVENT_VIRT_REACHED) 0x0303 0 0 0 (stampE s1 0)
  else s1

/-- R54: a follower's cycle count and the root's, at the boundary after it first reached LOCKED on the Harness. -/
def adoptCount (s : State) : State :=
  if s.time.ccDue then
    let s0 := setTime s fun t => { t with ccDue := false, ccJudged := true }
    let root : Int := (s.time.rootCount : Int) + halfUp (harTurns s 0 - turns (angleAt s 0))
    if devState s != .armed && decide ((s.time.cycleCount : Int) ≤ root) then
      let n := root.toNat % 2 ^ 40
      let pay := mkPayload [(0, 1, 3), (4, 5, s.time.cycleCount), (9, 5, n)]
      let s1 := fput (setTime s0 fun t => { t with cycleCount := n }) Fld.TIME_STATUS_CC_ADOPTED 1
      pushRecord s1 2 0 0 (stampE s1 0) pay
    else report (raise s0 Fld.TIME_EVENT_CC_MISMATCH) 0x0306 0 0 0 (stampE s 0)
  else s

/-- The carried frequency of the Harness source lies in the window in force: outside it the source is unqualified (R452; DEDUCED: log
entry 171). -/
def harInWindow (s : State) : Bool :=
  decide (mHz s.time.cfg.flo ≤ s.time.harFreq) && decide (s.time.harFreq ≤ mHz s.time.cfg.fhi)

/-- The dwell counts of a cycle that has ended, and the sources that they qualify at this boundary (R34, R37, R47, R48). -/
def countCycle (s : State) : State :=
  let t := s.time
  let tun := if t.tunSeen then t.tunCycles + 1 else 0
  let ret := if t.condCycle then t.retCount + 1 else 0
  let s1 := setTime s fun t => { t with
    round := 0
    cycles := t.cycles + 1
    retCount := ret
    condCycle := t.condNow
    tunCycles := tun
    tunMissed := if t.tunSeen then 0 else t.tunMissed + 1
    tunSeen := false }
  let s2 := if t.condNow && decide (t.cfg.ret ≤ ret) then fput s1 Fld.TIME_STATUS_MAINS_QUAL 1 else s1
  if t.cfg.src == 2 && !isRoot s && decide (t.cfg.ret ≤ tun) && harInWindow s && !bit s Fld.TIME_STATUS_HARN_VALID then
    raise (fput (setTime s2 fun t => { t with fallback := false }) Fld.TIME_STATUS_HARN_VALID 1) Fld.TIME_EVENT_LOCK_GAIN
  else s2

/-- The timebase takes the image configuration and enters VIRTUAL (R33). -/
def takeImageCfg (s : State) : State :=
  let c := timeCfgOfRegs s
  let f := mHz c.vfreq
  let s1 := setTime s fun t => { t with cfg := c, take := false, freq := f, exemptAt := some s.tick }
  fput (fput (setTb s1 .virtual) Fld.TIME_STATUS_SRC_ACT 1) Fld.TIME_FREQ_FREQ (toFreqReg f)

/-- The new TIME configuration of a structure activation takes effect, the state of the timebase kept (R452); a Harness source whose
frequency lies outside the new window is unqualified, and a source that it no longer names is lost (R44, R525; DEDUCED: log entries 60,
171). -/
def takeNewCfg (s : State) : State :=
  let c := timeCfgOfRegs s
  let changed := c.n != s.time.cfg.n || c.profile != s.time.cfg.profile
  let s1 := setTime s fun t => { t with cfg := c, take := false, exemptAt := if changed then some s.tick else t.exemptAt }
  let s2 := if bit s1 Fld.TIME_STATUS_HARN_VALID && !harInWindow s1 then
      fput (setTime s1 fun t => { t with tunCycles := 0 }) Fld.TIME_STATUS_HARN_VALID 0 else s1
  if hasTarget s2 && ((wantedSource s2).isNone || (srcAct s2 == 2 && !bit s2 Fld.TIME_STATUS_HARN_VALID)) then loseSource s2 0 true
  else s2

/-- The fleet angle carried on by the change of the cycle that has ended (R50). -/
def fleetArrive (s : State) : State :=
  let eff := ((s.time.fleetBase : Int) + s.time.fleetStep) % ((2 ^ 32 : Nat) : Int)
  fput (setTime s fun t => { t with fleetBase := eff.toNat, fleetStep := 0 }) Fld.TIME_FLEET_EFF_FLEET_EFF eff.toNat

/-- The change of the fleet angle over the cycle that begins (R50), under the configuration of that cycle (R452): at most the pull
limit in every state of the timebase, whatever R40 and R41 leave of the steering (DESIGN CHOICE: log entry 128). -/
def fleetBoundary (s : State) : State :=
  let d := fleetDelta s
  fputB (setTime s fun t => { t with fleetStep := halfUp (d * ((2 ^ 32 : Nat) : Rat)) })
    Fld.TIME_STATUS_FLEET_SLEW (d != 0)

/-- The transition of R34 and the frequency of the next cycle (R40, R41, R45, R46), at a cycle boundary; at the last boundary
of HOLDOVER, HOLD_EXPIRE follows and makes the first step of SLEW. -/
def steerBoundary (s : State) : State :=
  let d := (s.time.fleetStep : Rat) / ((2 ^ 32 : Nat) : Rat)
  match tbState s, wantedSource s with
  | .provisional, _ => s
  | .virtual, some src | .holdover, some src | .slew, some src =>
    let s1 := startTransfer s src
    steerTo s1 (pulledFreq s1 d)
  | .transfer, some src | .locked, some src =>
    if src = srcAct s then
      let e := phaseErr s 0
      let s1 := if tbState s = .transfer && decide (-(1 / 1024) < e) && decide (e < 1 / 1024) then
          let s2 := raise (setTb s .locked) Fld.TIME_EVENT_LOCKED_REACHED
          if src = 2 && !s.time.ccJudged then setTime s2 fun t => { t with ccDue := true } else s2
        else s
      steerTo s1 (pulledFreq s1 d)
    else
      let s1 := startTransfer s src
      steerTo s1 (pulledFreq s1 d)
  | .transfer, none | .locked, none => steerTo s (pulledFreq s d)
  | .virtual, none => steerTo s (mHz s.time.cfg.vfreq)
  | .holdover, none =>
    let s1 := setTime s fun t => { t with holdCount := t.holdCount + 1 }
    if s1.time.holdCount < max s.time.cfg.hold 1 then steerTo s1 s.time.held else s1
  | .slew, none => slewBoundary s

/-- CYCLE_BOUNDARY (R30): fret 0 of a new local cycle; a configuration that waits takes effect (R33, R452), and the frequency of that
cycle is chosen. -/
def execCycleBoundary (s : State) : Host.Outcome State Fault Refusal :=
  let s1 := fleetArrive (countCycle (anchorAngles s))
  let s2 :=
    if s1.time.take then
      if tbState s1 == .provisional then fleetBoundary (takeImageCfg s1)
      else steerBoundary (fleetBoundary (takeNewCfg (adoptCount s1)))
    else steerBoundary (fleetBoundary (adoptCount s1))
  let s3 := harnCycle s2
  .next (setTime s3 fun t => { t with savedCount := t.cycleCount, savedVfreq := t.cfg.vfreq, savedAt := s3.tick })

/-- ANGLE_WRAP (R29, R336): the shared angle wraps through zero and the 40-bit cycle count increments; a root owes its TUNING. -/
def execAngleWrap (s : State) : Host.Outcome State Fault Refusal :=
  let s1 := setTime s fun t => { t with cycleCount := (t.cycleCount + 1) % 2 ^ 40 }
  .next (setHarn s1 fun h => { h with tuneDue := isRoot s })

/-- HOLD_EXPIRE (R34): HOLD cycle boundaries have passed since the loss, and SLEW begins with the step of this boundary. -/
def execHoldExpire (s : State) : Host.Outcome State Fault Refusal :=
  if tbState s = .holdover ∧ max s.time.cfg.hold 1 ≤ s.time.holdCount then
    .next (slewBoundary (raise (setTb s .slew) Fld.TIME_EVENT_SLEW_START))
  else .next s

/-- MAINS_QUALIFIED (R37): the mains conditions have held for RET complete cycles. -/
def execMainsQualified (s : State) : Host.Outcome State Fault Refusal :=
  if s.time.condNow ∧ s.time.cfg.ret ≤ s.time.retCount then .next (fput s Fld.TIME_STATUS_MAINS_QUAL 1) else .next s

/-- MAINS_SAMPLE (R35): MSA, MSB, MSC and MSN sampled together at fret `fret` of the round, as 14-bit codes (R511). -/
def execMainsSample (a b c n : BitVec 14) (fret : Nat) (s : State) : Host.Outcome State Fault Refusal :=
  .next (setTime s fun t => { t with
    conv := ⟨(a, b, c, n), gridTurns s fret, absFret s fret⟩, convDue := true })

/-- Frets from the sampling of the mains inputs to a usable conversion: 20, in FRUGAL 10 (R35). -/
def mainsDelay (s : State) : Nat := if s.time.cfg.profile = 2 then 10 else 20

/-- MAINS_SAMPLE_READY (R35): the conversion in progress is usable from the fixed delay after its sampling fret on; words issued before
that read the one before it. -/
def execMainsSampleReady (s : State) : Host.Outcome State Fault Refusal :=
  if s.time.convDue then
    .next (setTime s fun t => { t with usable := t.usable.put t.conv.fret (mainsDelay s) t.conv, convDue := false })
  else .next s

/-- A follower has lost the Harness source (R48, R525): it falls back to its qualified mains, through TRANSFER, or enters HOLDOVER
when it steered. -/
def harnessLost (s : State) : State :=
  let s1 := setTime s fun t => { t with fallback := t.cfg.fb }
  if hasTarget s1 && srcAct s1 == 2 then
    if s1.time.cfg.fb && bit s1 Fld.TIME_STATUS_MAINS_QUAL then startTransfer (loseSource s1 0 false) 0 else loseSource s1 0 true
  else s1

/-- TUNING_MISS (R48): no valid TUNING frame in two consecutive cycles; once for each loss. -/
def execTuningMiss (s : State) : Host.Outcome State Fault Refusal :=
  if s.time.cfg.src = 2 ∧ !isRoot s ∧ 2 ≤ s.time.tunMissed ∧ !s.time.tunLost then
    let s1 := setTime (raise (fput s Fld.TIME_STATUS_HARN_VALID 0) Fld.TIME_EVENT_TUNING_MISS) fun t => { t with tunLost := true }
    .next (harnessLost (report s1 0x0305 0 0 0 (stampE s1 0)))
  else .next s

/-- XTAL_FAIL (R43): the 25 MHz crystal stops; fault 0x0309 is fatal. -/
def execXtalFail (s : State) : Host.Outcome State Fault Refusal :=
  .next (report { s with power := { s.power with xtalBad := true } } 0x0309 2 0 0 (stampI s))

/-- LFXTAL_FAIL (R55): the 32.768 kHz crystal fails; corrected fault 0x030A. -/
def execLfxtalFail (s : State) : Host.Outcome State Fault Refusal := .next (report s 0x030A 0 0 0 (stampI s))

/-- A host write of TIME_FLEET (R50): the target waits for the next round boundary. -/
def writeFleet (v : Word) (s : State) : State := setTime (wr s Reg.TIME_FLEET v) fun t => { t with fleetPend := true }

/-- TIME_FLEET_WRITE (R50). -/
def execTimeFleetWrite (v : Word) (s : State) : Host.Outcome State Fault Refusal := .next (writeFleet v s)

/-- FLEET_ANGLE_APPLY (R50): the new target takes effect at a round boundary and its slew begins. -/
def execFleetAngleApply (s : State) : Host.Outcome State Fault Refusal :=
  if s.time.fleetPend then
    let v := fget s Fld.TIME_FLEET_FLEET
    .next (fputB (fput (setTime s fun t => { t with fleetPend := false, fleetTarget := v })
      Fld.TIME_FLEET_EFF_FLEET_EFF (fleetAt s 0)) Fld.TIME_STATUS_FLEET_SLEW (fleetAt s 0 != v))
  else .next s

/-! ### Timestamps read by the host, and the replica -/

/-- Offsets of the CAPO block whose live values the host reads from the replica (R225). -/
def capoReplica (o : Nat) : Bool :=
  o == 0x08 || decide (0x24 ≤ o ∧ o ≤ 0x30) || o == 0x70 || decide (0x180 ≤ o ∧ o < 0x200) ||
  decide (0x280 ≤ o ∧ o < 0x300) || (decide (0x400 ≤ o ∧ o < 0x800) && o % 0x10 == 0x0C) ||
  (decide (0x8C0 ≤ o ∧ o < 0x900) && o % 0x10 == 0x0C)

/-- The addresses whose values the interface domain reads from the replica (R57, R130, R165, R192, R225). -/
def isReplica (a : Nat) : Bool :=
  (decide (0x101C ≤ a ∧ a ≤ 0x1054) && a != 0x1020 && a != 0x1024 && a != 0x1040) ||
  (decide (0x10000 ≤ a ∧ a < 0x18000) &&
    (let o := a % 0x400
     o == 0x20 || decide (0x30 ≤ o ∧ o ≤ 0x50) ||
       (decide (0x100 ≤ o ∧ o < 0x200) && (let c := o % 0x40; c == 0x0C || c == 0x10 || c == 0x20)))) ||
  (decide (0x18000 ≤ a ∧ a < 0x20000) &&
    (let o := a % 0x200; o == 0x10 || decide (0x20 ≤ o ∧ o ≤ 0x44))) ||
  (decide (0xA000 ≤ a ∧ a < 0xB000) && capoReplica (a - 0xA000))

/-- The TIME values of this moment put into their registers (R56): what the next refresh of the replica carries. The exact values are
rounded down to the units of their registers (DESIGN CHOICE: log entry 172). -/
def timeRegs (s : State) : State :=
  let e := phaseErr s 0
  let al := hasTarget s && decide (-(1 / 1024) < e) && decide (e < 1 / 1024)
  let s1 := fput s Fld.TIME_FREQ_FREQ (toFreqReg s.time.freq)
  let s2 := fput s1 Fld.TIME_GFREQ_GFREQ (toFreqReg s.time.gfreq)
  let s3 := fput s2 Fld.TIME_GAMPL_GAMPL (min (s.time.vd * 65536).floor.toNat 65535)
  let s4 := fput s3 Fld.TIME_GANGLE_GANGLE (toAngle (gridTurns s 0))
  let s5 := fput (fput s4 Fld.TIME_ANGLE_ANGLE (angleAt s 0)) Fld.TIME_FLEET_EFF_FLEET_EFF (fleetAt s 0)
  let s6 := fputS s5 Fld.TIME_PERR_PERR (e * ((2 ^ 32 : Nat) : Rat)).floor
  let s7 := fputB s6 Fld.TIME_STATUS_ALIGNED al
  wr64 s7 Reg.TIME_TS_LO Reg.TIME_TS_HI (stampE s 0)

/-- The selector outputs of this moment put into their registers (R217, R225). -/
def selectorRegs (s : State) : State :=
  (List.finRange 4).foldl (fun s (h : Fin 4) => wr s (Reg.CAPO_HSEL_OUT h) (selectorOut s h s.time.base)) s

/-- The comparators of the ports as CMP_STATUS shows them at this moment (R192). -/
def cmpRegs (s : State) : State :=
  (List.finRange 32).foldl (fun s (p : Fin 32) => (List.finRange 4).foldl (fun s (c : Fin 4) => showCmp s p c (absFret s 0)) s) s

/-- The replica of the interface domain refreshed from the engine (R52, R57): the copied timestamp never decreases. -/
def refreshReplica (s : State) : State :=
  let s1 := cmpRegs (selectorRegs (timeRegs s))
  let s2 := if stampE s 0 < stampI s then wr64 s1 Reg.TIME_TS_LO Reg.TIME_TS_HI (stampI s) else s1
  { s2 with repl := s2.live.filter fun e => isReplica e.1 }

/-- A host read sees the replica where the value belongs to the engine domain, and the register itself elsewhere. -/
def hostSees (s : State) (a : Nat) : Word := if isReplica a then rdRepl s a else rd s a

/-- Registers that a read captures as the low word of a 64-bit timestamp (R58, R406). -/
def isTsLo (a : Nat) : Bool :=
  a == Reg.TIME_TS_LO || a == Reg.FAULT_LAST_TS_LO || a == Reg.FAULT_FWD_TS_LO ||
  (decide (0x3200 ≤ a ∧ a < 0x3600) && a % 0x10 == 8)

/-- A read of a _TS_LO register on a path captures the whole 64-bit value (R58). -/
def captureTs (path : Path) (a : Nat) (s : State) : State :=
  { s with captures := storeSet (fun _ => (0 : Word)) s.captures (path.idx * 2 ^ 32 + a) (hostSees s (a + 4)) }

/-- The upper word of the last capture made on the same path (R58). -/
def capturedHi (s : State) (path : Path) (lo : Nat) : Word :=
  storeGet (fun _ => (0 : Word)) s.captures (path.idx * 2 ^ 32 + lo)

/-- TS_LO_CAPTURE (R58): a read of the _TS_LO register at address `a` on a path. -/
def execTsLoCapture (path : Path) (a : Nat) (s : State) : Host.Outcome State Fault Refusal :=
  if isTsLo a then .next (captureTs path a s) else .next s

/-! ### The mains PLL (R35 to R38, R44, R526) -/

/-- The phase voltages va, vb and vc of a mains conversion as fractions of 0.4 V (R35); the 14-bit codes of the converter span 0 to
0.8 V (R505, R511; DEDUCED: log entry 180). -/
def convVolts (m : BitVec 14 × BitVec 14 × BitVec 14 × BitVec 14) : Rat × Rat × Rat :=
  let v := fun (x : BitVec 14) => ((x.toNat : Rat) - (m.2.2.2.toNat : Rat)) / 8192
  (v m.1, v m.2.1, v m.2.2.1)

/-- The phase voltages of the conversion that the round's evaluation reads (R35). -/
def phaseVolts (s : State) : Rat × Rat × Rat := convVolts s.time.used.volts

/-- The transform of R35: (v_alpha, v_beta). -/
def clarke (va vb vc : Rat) : Rat × Rat := ((2 * va - vb - vc) / 3, (vb - vc) * invSqrt3)

/-- The voltages that the PLL evaluates (R35). The filters of the positive-sequence extraction and of the quadrature generator are the
implementation's (R35 gives no coefficients): uninterpreted, log entry 8. -/
def alphaBeta (s : State) : Rat × Rat :=
  let v := phaseVolts s
  if s.time.cfg.threePh then
    let p := Config.positiveSequence s.free v.1 v.2.1 v.2.2
    clarke p.1 p.2.1 p.2.2
  else (v.1, Config.quadrature s.free v.1 s.time.gfreq)

/-- Input loss holds on the AC input bus bar (R216). -/
def inputLoss (s : State) : Bool := bit s Fld.CAPO_STATUS_INPUT_LOSS

/-- The phase sequence is reversed (R36, R526): with the sequence A, B, C the vector (v_alpha, v_beta) of R35 turns from one evaluation to
the next in the positive sense, with the reverse sequence in the other; a vector that does not turn decides nothing (log entry 8). -/
def seqReversed (s : State) : Bool :=
  let v := phaseVolts s
  let ab := clarke v.1 v.2.1 v.2.2
  let turn := s.time.abPrev.1 * ab.2 - s.time.abPrev.2 * ab.1
  s.time.cfg.threePh && (if turn = 0 then bit s Fld.TIME_STATUS_SEQ_REV else decide (turn < 0))

/-- θg carried on by `w` Hz over one round from the angle that held for the sampling fret, with the books of the grid cycle that ends
when it wraps (R35, R37, R44, R45). -/
def advanceGrid (s : State) (w : Rat) : State :=
  let d := turnsIn s w s.time.cfg.rlen
  let th := s.time.thetaG + d
  let wrapped := decide (1 ≤ th)
  setTime s fun t =>
    let sum := t.meanSum + w
    let cnt := t.meanCnt + 1
    { t with
      thetaG := fracTurn th
      thetaAt := t.thetaAt + t.cfg.rlen
      meanSum := if wrapped then 0 else sum
      meanCnt := if wrapped then 0 else cnt
      lastMean := if wrapped && bit s Fld.TIME_STATUS_MAINS_QUAL && tbState s != .holdover then some (sum / (cnt : Rat)) else t.lastMean
      lockCycles := if wrapped then (if t.lockSoFar then t.lockCycles + 1 else 0) else t.lockCycles
      lockSoFar := wrapped || t.lockSoFar
      grace := t.grace.map (· - d) }

/-- The free run of R526 while input loss holds: no evaluation is made, so none of its cycles counts toward lock (R37). -/
def freeRun (s : State) : State :=
  setTime (advanceGrid s s.time.gfreq) fun t => { t with lockSoFar := false, lockCycles := 0, grace := none }

/-- The error of the last evaluation is inside 1/256 turn (R37). -/
def errSmall (s : State) : Bool := decide (-(1 / 256) < s.time.perr) && decide (s.time.perr < 1 / 256)

/-- One evaluation of the PLL (R35), or its free run while input loss holds (R44, R526). -/
def pllStep (s : State) : State :=
  if inputLoss s then freeRun s
  else
    let ab := alphaBeta s
    let sn := sinTurn s.time.thetaG
    let cs := cosTurn s.time.thetaG
    let vd := ab.1 * sn - ab.2 * cs
    let vq := ab.1 * cs + ab.2 * sn
    let r := if vd = 0 then Config.pllNoAmplitude vq else vq / vd
    let sum := s.time.pllSum + r
    let w := vwVal (rd s Reg.PLL_WFF) + vwVal (rd s Reg.PLL_KP) * r + vwVal (rd s Reg.PLL_KI) * sum
    let s1 := setTime { s with free := s.free + 1 } fun t => { t with pllSum := sum, gfreq := w, vd := vd, perr := phaseOfRatio r }
    let s2 := setTime s1 fun t => { t with
      lockSoFar := t.lockSoFar && errSmall s1, lockCycles := if errSmall s1 then t.lockCycles else 0 }
    advanceGrid s2 w

/-- The phase jump of R44: the error leaps past 1/32 turn between two evaluations, read as the difference of their errors; it is judged
only while the mains is qualified (both DESIGN CHOICE: log entry 129). -/
def phaseJump (s0 s : State) (f : Nat) : State :=
  let d := s.time.perr - s0.time.perr
  if bit s0 Fld.TIME_STATUS_MAINS_QUAL && decide (1 / 32 < (if d < 0 then -d else d)) then
    let s1 := inc (raise s Fld.TIME_EVENT_PHASE_JUMP) Fld.TIME_COUNT_JUMP_CNT
    report (setTime s1 fun t => { t with grace := some 2 }) 0x0304 0 0 0 (stampE s f)
  else s

/-- The two grid cycles of grace after a phase jump have not passed (R44): the mains stays qualified, and locked. -/
def inGrace (s : State) : Bool := match s.time.grace with | some r => decide (0 < r) | none => false

/-- The grace has passed and the PLL has re-acquired: its error is inside 1/256 turn again (R44; DESIGN CHOICE: log entry 129). -/
def reacquired (s : State) : Bool := match s.time.grace with | some r => decide (r ≤ 0) && errSmall s | none => false

/-- The grid PLL is locked (R37, R44). -/
def gridLocked (s : State) : Bool := decide (2 ≤ s.time.lockCycles) || inGrace s || reacquired s

/-- The mains conditions of R37 judged after an evaluation. In the grace of R44 the mains stays qualified whatever the window and the
sequence show, unless the input is lost, and the sequence is not judged (DESIGN CHOICE: log entry 129). -/
def judgeMains (s : State) (f : Nat) : State :=
  let locked := gridLocked s
  let was := bit s Fld.TIME_STATUS_MAINS_LOCK
  let rev := if inGrace s then bit s Fld.TIME_STATUS_SEQ_REV else seqReversed s
  let inWin := decide (mHz s.time.cfg.flo ≤ s.time.gfreq) && decide (s.time.gfreq ≤ mHz s.time.cfg.fhi)
  let s1 := fputB s Fld.TIME_STATUS_MAINS_LOCK locked
  let s2 := if locked && !was then raise s1 Fld.TIME_EVENT_LOCK_GAIN else s1
  let s3 := if rev && !bit s Fld.TIME_STATUS_SEQ_REV then
      report (raise s2 Fld.TIME_EVENT_SEQ_REV) 0x030B 0 0 0 (stampE s f) else s2
  let s4 := fputB s3 Fld.TIME_STATUS_SEQ_REV rev
  let cond := !inputLoss s && (inGrace s || (locked && inWin && !rev))
  let v := phaseVolts s
  let s5 := setTime s4 fun t => { t with
    condNow := cond
    condCycle := t.condCycle && cond
    abPrev := clarke v.1 v.2.1 v.2.2
    lockCycles := if reacquired s then max t.lockCycles 2 else t.lockCycles
    grace := if inGrace s then t.grace else none }
  if cond then s5 else mainsLost s5 f

/-- The round's evaluation reads the latest conversion that is usable at fret `fret` (R35), with θg carried to its sampling fret: by nothing
where that lies one round after the last one's; where no new conversion has come, θg goes on from the last (log entry 130). -/
def readMains (s : State) (fret : Nat) : State :=
  let c := s.time.usable.get (absFret s fret)
  let s1 := setTime s fun t => { t with pllDone := true, used := c }
  if c.fret = s.time.used.fret then s1
  else setTime s1 fun t => { t with thetaG := t.thetaG + turnsFrom s t.gfreq t.thetaAt c.fret, thetaAt := c.fret }

/-- PLL (R35, R526): the first PLL word of a round makes the round's evaluation (log entry 9); a word with a field that
is not 0 acts as NOP (R527). -/
def execPll (l : LaneFields) (fret : Nat) (s : State) : Host.Outcome State Fault Refusal :=
  if !engineRuns s || selfRejected s 0x18 l || s.time.pllDone then .next s
  else
    let s1 := pllStep (readMains s fret)
    .next (judgeMains (phaseJump s s1 fret) fret)

/-! ### The round (R28) -/

/-- The clock monitor's judgement of one round (R43): the measured clock in kHz and the lock of the analogue PLL. -/
def clockMonitor (clkKHz : Nat) (locked : Bool) (s : State) : State :=
  let exempt := match s.time.exemptAt with | some t => decide (s.tick < t + 2) | none => false
  let lim := if tbState s = .provisional then profileKHz 0 else profileKHz s.time.cfg.profile
  if exempt then s
  else
    let bad := decide (clkKHz * 1000 < lim.1 * 995) || decide (lim.2 * 1005 < clkKHz * 1000)
    let s0 := setTime s fun t => { t with clkBad := bad, pllBad := !locked }
    let s1 := if bad then report s0 0x0307 2 0 0 (stampI s) else s0
    if locked then s1 else report s1 0x0308 2 0 0 (stampI s)

/-- The round index, its first fret and the free-running counts of a new round (R28, R83). -/
def nextRound (s : State) : State :=
  setTime s fun t => { t with
    round := if t.round + 1 < t.cfg.rpc then t.round + 1 else 0
    base := t.base + t.cfg.rlen
    pllDone := false }

end Sys2Proof.Machine
end

