-- ==== Sys2Proof/Machine/Capo.lean ====
section
/-! DEFINITION. Sys2Proof/Machine/Capo.lean: current sharing, the power cap, fleet budgets and hold-up (spec/06). Every
quantity is held as a value word under the exponent ceiling 31 (log entry 6) and computed exactly within a step. -/

namespace Sys2Proof.Machine

/-- Capo changed in what no register holds. -/
def setCapo (s : State) (f : CapoSt → CapoSt) : State := { s with capo := f s.capo }

/-- A value word register. -/
def vreg (s : State) (a : Nat) : Rat := vwVal (rd s a)

/-- A table entry replaced, when the index lies in the table. -/
def updN {α : Type} {n : Nat} (t : Vector α n) (i : Nat) (f : α → α) : Vector α n :=
  if h : i < n then upd t ⟨i, h⟩ f else t

/-- Absolute value. -/
def absR (x : Rat) : Rat := if x < 0 then -x else x

/-! ### Sharing (R198 to R203) -/

/-- A trim moved by K·d / max(|a|, SMIN) and clipped to its bound (R199, R200). -/
def trimStep (old k d a smin bound : Rat) : Rat :=
  let den := max (absR a) smin
  clipR (old + k * (if den = 0 then Config.trimNoScale d else d / den)) (-bound) bound

/-- The latest current sample of a port (R137). -/
def portCurrent (s : State) (p : Nat) : Rat := sampleVal s p 0

/-- ACC (R199): the filtered current; an active port adds it to the sum of its course. -/
def shareAcc (s : State) (p : Fin 32) : State :=
  let f := vwVal (s.capo.f.get p)
  let f' := vwOf (f + vreg s Reg.CAPO_BETA * (portCurrent s p - f))
  let s1 := setCapo s fun c => { c with f := upd c.f p fun _ => f' }
  if fget s (Fld.PORT_STATUS_STATE p) = 3 then
    setCapo s1 fun c => { c with sumNow := upd c.sumNow p (· + vwVal f'), cntNow := upd c.cntNow p (· + 1) }
  else s1

/-- PTRIM (R199): the balance trim of a port toward the mean of its course. -/
def sharePtrim (s : State) (p : Fin 32) (t : Nat) : State :=
  let c := courseOf s p
  let n := s.capo.cntLast.toList.getD c 0
  if bit s (Fld.CAPO_COURSE_BAL c) && fget s (Fld.PORT_STATUS_STATE p) == 3 && decide (2 ≤ n) then
    let a := s.capo.sumLast.toList.getD c 0 / (n : Rat)
    let pb := vreg s Reg.CAPO_PB
    let old := vwVal (s.capo.t.get p).cur
    let v := trimStep old (vreg s Reg.CAPO_KSP) (a - vwVal (s.capo.f.get p)) a (vreg s Reg.CAPO_SMIN) pb
    let w := vwOf v
    let s1 := wr (setCapo s fun c => { c with t := upd c.t p fun x => x.put t 1 w }) (Reg.CAPO_PTRIM p) w
    if absR (vwVal w) = pb ∧ vwVal w ≠ old then raise s1 Fld.CAPO_EVENT_PB_HIT else s1
  else s

/-- APPLY (R201): the trim multiplier of the port's sharing loop, at the end of the fret. -/
def shareApply (s : State) (p : Fin 32) (t : Nat) : State :=
  let n := fget s (Fld.CAPO_PORT_SLOOP p)
  let tau := match s.capo.tau.toList[courseOf s p]? with | some x => vwVal (x.get t) | none => 0
  let m := vwOf ((1 + vwVal ((s.capo.t.get p).get t)) * (1 + tau))
  setCapo s fun c => { c with mult := updN c.mult n fun x => x.put t 1 m }

/-- SHARE_ACC (R199). -/
def execShareAcc (l : LaneFields) (_fret : Nat) (s : State) : Host.Outcome State Fault Refusal :=
  if laneActs s 0x1A l && l.arg.toNat == 0 then .next (shareAcc s l.port.toFin) else .next s

/-- SHARE_PTRIM (R199). -/
def execSharePtrim (l : LaneFields) (fret : Nat) (s : State) : Host.Outcome State Fault Refusal :=
  if laneActs s 0x1A l && l.arg.toNat == 1 then .next (sharePtrim s l.port.toFin (absFret s fret)) else .next s

/-- SHARE_APPLY (R201). -/
def execShareApply (l : LaneFields) (fret : Nat) (s : State) : Host.Outcome State Fault Refusal :=
  if laneActs s 0x1A l && l.arg.toNat == 2 then .next (shareApply s l.port.toFin (absFret s fret)) else .next s

/-- At a round boundary the sums of the courses over the round are latched and begin anew (R199). -/
def shareRound (s : State) : State :=
  let ports : Fin 32 → List (Fin 32) := fun k => (List.finRange 32).filter fun p => courseOf s p == k.val
  let sums := Vector.ofFn fun k => ((ports k).map fun p => s.capo.sumNow.get p).sum
  let cnts := Vector.ofFn fun k => ((ports k).map fun p => s.capo.cntNow.get p).sum
  setCapo s fun c => { c with
    sumLast := sums, cntLast := cnts, sumNow := Vector.replicate 32 0, cntNow := Vector.replicate 32 0 }

/-- A CAPO lane word of step `k` acts (R204, R527). -/
def capoActs (s : State) (l : LaneFields) (k : Nat) : Bool := laneActs s 0x19 l && l.argBits 0 4 == k

/-- CTRIM of a course (R200). -/
def courseTrim (s : State) (c t : Nat) : State :=
  let ob := fget s (Fld.CAPO_COURSE_OBUS c)
  let g := (List.range 32).filter fun d => bit s (Fld.CAPO_COURSE_SHARE d) && fget s (Fld.CAPO_COURSE_OBUS d) == ob &&
    decide (1 ≤ s.capo.cntLast.toList.getD d 0)
  let x := fun (d : Nat) => vreg s (Reg.CAPO_CSCALE d) * s.capo.sumLast.toList.getD d 0
  if g.contains c && decide (2 ≤ g.length) then
    let a := (g.map x).sum / (g.length : Rat)
    let cb := vreg s Reg.CAPO_CB
    let old := match s.capo.tau.toList[c]? with | some v => vwVal v.cur | none => 0
    let v := trimStep old (vreg s Reg.CAPO_KSC) (a - x c) a (vreg s Reg.CAPO_SMIN) cb
    let w := vwOf v
    let s1 := wr (setCapo s fun q => { q with tau := updN q.tau c fun p => p.put t 4 w }) (Reg.CAPO_CTRIM c) w
    if absR (vwVal w) = cb ∧ vwVal w ≠ old then raise s1 Fld.CAPO_EVENT_CB_HIT else s1
  else s

/-- CAPO_CTRIM (R200). -/
def execCapoCtrim (l : LaneFields) (fret : Nat) (s : State) : Host.Outcome State Fault Refusal :=
  if capoActs s l 5 then .next (courseTrim s (l.argBits 4 6) (absFret s fret)) else .next s

/-! ### Power terms and the cap (R204, R205) -/

/-- CAPO_TERM (R205): the product of one enabled term. -/
def execCapoTerm (l : LaneFields) (fret : Nat) (s : State) : Host.Outcome State Fault Refusal :=
  let j := l.argBits 4 6
  if capoActs s l 0 && bit s (Fld.CAPO_TERM_SIG_EN j) then
    let v := vwVal (signal s (fget s (Fld.CAPO_TERM_SIG_VSIG j)) fret fret)
    let i := vwVal (signal s (fget s (Fld.CAPO_TERM_SIG_ISIG j)) fret fret)
    let w := vwOf (vreg s (Reg.CAPO_TERM_K j) * v * i)
    .next (setCapo s fun c => { c with terms := updN c.terms j fun p => p.put (absFret s fret) 4 w })
  else .next s

/-- The value of an enabled term at absolute fret `t`. -/
def termVal (s : State) (t j : Nat) : Rat :=
  if bit s (Fld.CAPO_TERM_SIG_EN j) then
    match s.capo.terms.toList[j]? with | some p => vwVal (p.get t) | none => 0
  else 0

/-- CAPO_POWER (R205): P_in, Pf, every Lp_k and B. -/
def execCapoPower (l : LaneFields) (fret : Nat) (s : State) : Host.Outcome State Fault Refusal :=
  if capoActs s l 1 then
    let t := absFret s fret
    let g := vreg s Reg.CAPO_GAMMA
    let pin := ((List.range 8).map (termVal s t)).sum
    let loads := (List.range 16).map fun j => (fget s (Fld.CAPO_TERM_SIG_LIM (8 + j)), termVal s t (8 + j))
    let pf0 := vwVal s.capo.pf.cur
    let pf := vwOf (pf0 + g * (pin - pf0))
    let f : Fin 64 → Word := fun k =>
      let old := vwVal (s.capo.lp.get k).cur
      let sum := ((loads.filter fun e => e.1 == k.val).map (·.2)).sum
      vwOf (old + g * (sum - old))
    let lp := Vector.ofFn f
    let b := vwOf (vwVal pf - (lp.toList.map vwVal).sum)
    let s1 := setCapo s fun c => { c with
      pIn := c.pIn.put t 4 (vwOf pin), pf := c.pf.put t 4 pf, base := c.base.put t 4 b
      loadSum := c.loadSum.put t 4 (vwOf (loads.map (·.2)).sum)
      lp := Vector.ofFn fun (k : Fin 64) => (c.lp.get k).put t 4 (lp.get k) }
    .next (wr (wr s1 Reg.CAPO_PIN pf) Reg.CAPO_BASE b)
  else .next s

/-- C and what sets it (R205, R214): the lowest of LCAP, HOSTCAP and FLEETCAP, the first of them where they tie. -/
def capInForce (s : State) : Word × Nat :=
  let lcap := rd s Reg.CAPO_LCAP
  let a := if vwVal s.capo.hostCap < vwVal lcap then (s.capo.hostCap, 1) else (lcap, 0)
  if bit s Fld.CAPO_CFG_FLEET then
    let f := rd s Reg.CAPO_FLEETCAP
    if vwVal f < vwVal a.1 then (f, if s.capo.safeCap then 3 else 2) else a
  else a

/-- CAPO_CAP (R205): C is formed. -/
def execCapoCap (l : LaneFields) (fret : Nat) (s : State) : Host.Outcome State Fault Refusal :=
  if capoActs s l 2 then
    let c := capInForce s
    let s1 := setCapo s fun q => { q with cap := q.cap.put (absFret s fret) 4 c.1 }
    .next (fput (wr s1 Reg.CAPO_CAP c.1) Fld.CAPO_STATUS_CAPSRC c.2)
  else .next s

/-! ### Allocation (R206 to R208) -/

/-- R_k of R206. -/
def limR (s : State) (t k : Nat) : Rat :=
  let lp := match s.capo.lp.toList[k]? with | some p => vwVal (p.get t) | none => 0
  let lam := match s.capo.lam.toList[k]? with | some p => vwVal (p.get t) | none => 1
  max lp 0 / max lam (1 / 1024)

/-- F_k of R206. -/
def limF (s : State) (t k : Nat) : Rat := vreg s (Reg.CAPO_LIM_FLOOR k) * limR s t k

/-- The enabled limits. -/
def limits (s : State) : List Nat := (List.range 64).filter fun k => bit s (Fld.CAPO_LIM_CFG_EN k)

/-- The condition UNMET of R208 entered, held or left. -/
def judgeUnmet (s : State) (unmet : Bool) (fret : Nat) : State :=
  if unmet && !bit s Fld.CAPO_STATUS_UNMET then
    let s1 := inc (raise (fput s Fld.CAPO_STATUS_UNMET 1) Fld.CAPO_EVENT_UNMET) Fld.CAPO_HCNT_UNMET_CNT
    report s1 0x02A0 0 0 0 (stampE s1 fret)
  else fputB s Fld.CAPO_STATUS_UNMET unmet

/-- One priority level served from the headroom `a` (R206): λ′ of its limits, and what is left. -/
def allocate (s : State) (p t : Nat) (a : Rat) : State :=
  let ks := (limits s).filter fun k => fget s (Fld.CAPO_LIM_CFG_PRIO k) == p
  let q := (ks.map fun k => limR s t k - limF s t k).sum
  let g := clipR a 0 q
  let lam := fun (k : Nat) =>
    let r := limR s t k
    if r = 0 then vwOf 1 else vwOf ((limF s t k + (r - limF s t k) * (g / q)) / r)
  setCapo s fun c => { c with
    avail := c.avail.put t 4 (vwOf (a - g))
    lamNew := ks.foldl (fun v k => updN v k fun x => x.put t 4 (lam k)) c.lamNew }

/-- CAPO_ALLOC (R206, R208): the first level begins with A = C − B − Σ F_k. -/
def execCapoAlloc (l : LaneFields) (fret : Nat) (s : State) : Host.Outcome State Fault Refusal :=
  if capoActs s l 3 then
    let t := absFret s fret
    let p := l.argBits 4 6
    if p = 0 then
      let a := vwVal (s.capo.cap.get t) - vwVal (s.capo.base.get t) - ((limits s).map (limF s t)).sum
      .next (judgeUnmet (allocate s 0 t a) (decide (a < 0)) fret)
    else .next (allocate s p t (vwVal (s.capo.avail.get t)))
  else .next s

/-- λ of one limit cut at once or released by RISE (R207). -/
def updateLambda (t : Nat) (s : State) (k : Nat) : State :=
  match s.capo.lam.toList[k]?, s.capo.lamNew.toList[k]? with
  | some l, some n =>
    let old := vwVal l.cur
    let new := vwVal (n.get t)
    let v := if new < old then new else min new (old + vreg s Reg.CAPO_RISE)
    let w := vwOf v
    let s1 := wr (setCapo s fun c => { c with lam := updN c.lam k fun p => p.put t 4 w }) (Reg.CAPO_LIM_LAMBDA k) w
    if vwVal w < 1 ∧ 1 ≤ old then raise s1 Fld.CAPO_EVENT_CAP_START else s1
  | _, _ => s

/-- CAPO_WRITE (R207): λ of the limits of one group. -/
def execCapoWrite (l : LaneFields) (fret : Nat) (s : State) : Host.Outcome State Fault Refusal :=
  if capoActs s l 4 then
    let g := l.argBits 4 6
    let s1 := ((limits s).filter fun k => k / 16 == g).foldl (updateLambda (absFret s fret)) s
    let capping := (limits s1).any fun k =>
      match s1.capo.lam.toList[k]? with | some p => decide (vwVal p.cur < 1) | none => false
    .next (fputB s1 Fld.CAPO_STATUS_CAPPING capping)
  else .next s

/-! ### Fleet budgets (R211 to R215) -/

/-- A budget entry accepted (R212, R213). -/
def acceptBudget (s : State) (stamp budget : Word) : State :=
  let s1 := inc (raise (wr (wr s Reg.CAPO_BUDGET budget) Reg.CAPO_BSTAMP stamp) Fld.CAPO_EVENT_BUDGET_OK) Fld.CAPO_BCNT_OK
  let up := !decide (vwVal budget < vreg s Reg.CAPO_FLEETCAP)
  let s2 := setCapo s1 fun c => { c with budget := some budget, raise := up, boundarySeen := false, stampFree := false }
  fput (fputB s2 Fld.CAPO_STATUS_BPEND up) Fld.CAPO_STATUS_AGE 0

/-- The entry of BUDGET words that addresses this device: its address word and its budget (R211, R212). -/
def findBudget (own : Nat) : List Word → Option (Word × Word)
  | a :: v :: rest => if (a &&& 0xFFFF).toNat = own then some (a, v) else findBudget own rest
  | _ => none

/-- A BUDGET payload searched for this device's entry, which is accepted or refused (R212). -/
def judgeBudget (s : State) (payload : List Word) : State :=
  match payload with
  | [] => s
  | stamp :: rest =>
    if !bit s Fld.CAPO_CFG_FLEET then s
    else
      match findBudget (ownAddr s) rest with
      | none => s
      | some (a, v) =>
        let older := (stamp - rd s Reg.CAPO_BSTAMP).msb
        let test := !s.capo.stampFree && !bit s Fld.CAPO_STATUS_BSTALE
        if decide (vwVal v < 0) || vwReserved v || getBits a 16 16 != 0 || (test && older) then
          let s0 := setCapo s fun c => { c with stampFree := false }
          let s1 := inc (raise s0 Fld.CAPO_EVENT_BUDGET_REF) Fld.CAPO_BCNT_REF
          report s1 0x02A2 0 0 0 (stampI s1)
        else acceptBudget s stamp v

/-- A budget put in force as FLEETCAP (R213). -/
def applyBudget (s : State) (v : Word) : State :=
  let s1 := setCapo (wr s Reg.CAPO_FLEETCAP v) fun c => { c with budget := none, raise := false, boundarySeen := false, safeCap := false }
  fput (fput s1 Fld.CAPO_STATUS_BPEND 0) Fld.CAPO_STATUS_BSTALE 0

/-- FLEETCAP made SAFE_CAP (R214): at a stale budget, and from arming until the first acceptance. -/
def safeBudget (s : State) : State :=
  setCapo (wr s Reg.CAPO_FLEETCAP (rd s Reg.CAPO_SAFECAP)) fun c => { c with safeCap := true }

/-- A budget accepted before arming and still waiting is dropped: until the first acceptance since arming FLEETCAP is SAFE_CAP
(R214, log entry 148). -/
def dropBudget (s : State) : State :=
  fput (setCapo s fun c => { c with budget := none, raise := false, boundarySeen := false }) Fld.CAPO_STATUS_BPEND 0

/-- BUDGET_DECREASE_APPLY (R213). -/
def execBudgetDecreaseApply (s : State) : Host.Outcome State Fault Refusal :=
  match s.capo.budget with
  | some v => if s.capo.raise then .next s else .next (applyBudget s v)
  | none => .next s

/-- The root's stamp of a half-cycle (R211). -/
def halfStamp (s : State) (second : Bool) : Word :=
  BitVec.ofNat 32 ((s.time.cycleCount % 2 ^ 31) * 2 + second.toNat)

/-- HALF_CYCLE_BOUNDARY (R213 to R215): the shared angle passes 0, or 2^31 (`second`); the root's emission takes entries 0 to
COUNT − 1 of the table committed by now. -/
def execHalfCycleBoundary (second : Bool) (s : State) : Host.Outcome State Fault Refusal :=
  let s1 := match s.capo.budget with
    | some v => if s.capo.raise && s.capo.boundarySeen then applyBudget s v else s
    | none => s
  let s2 := if bit s1 Fld.CAPO_CFG_FLEET then inc s1 Fld.CAPO_STATUS_AGE else s1
  let n := min (fget s Fld.CAPO_BTX_COUNT) 224
  .next (if isRoot s2 && n != 0 then setCapo s2 fun c => { c with
      emitStamp := some (halfStamp s second), emitTable := (List.range n).map fun e => c.table.getD e (0, 0) }
    else s2)

/-- BUDGET_STALE (R214). -/
def execBudgetStale (s : State) : Host.Outcome State Fault Refusal :=
  if bit s Fld.CAPO_CFG_FLEET && decide (2 ≤ fget s Fld.CAPO_STATUS_AGE) && !bit s Fld.CAPO_STATUS_BSTALE then
    let s1 := raise (fput (safeBudget s) Fld.CAPO_STATUS_BSTALE 1) Fld.CAPO_EVENT_BSTALE
    .next (report s1 0x02A1 0 0 0 (stampI s1))
  else .next s

/-- The payloads of the BUDGET frames of a table: at most 127 entries each, in table order (R215). -/
def budgetPayloads (stamp : Word) (table : List (Nat × Word)) : List (List Word) :=
  ((List.range ((table.length + 126) / 127)).map fun i => (table.drop (127 * i)).take 127).map fun part =>
    stamp :: part.flatMap fun e => [BitVec.ofNat 32 e.1, e.2]

/-- BUDGET_EMIT (R215): the root sends the entries of the boundary, and takes its own entry as accepted. -/
def execBudgetEmit (s : State) : Host.Outcome State Fault Refusal :=
  match s.capo.emitStamp with
  | none => .next s
  | some stamp =>
    let s0 := setCapo s fun c => { c with emitStamp := none, emitTable := [] }
    let s1 := match s.capo.emitTable.find? fun e => e.1 == ownAddr s with
      | some e => if bit s Fld.CAPO_CFG_FLEET then acceptBudget s0 stamp e.2 else s0
      | none => s0
    .next ((budgetPayloads stamp s.capo.emitTable).foldl (fun s p =>
      nextSeq (sendDown s none (ownFrame s 0xFFFF 4 p))) s1)

/-- CAPO_CTRL.BTX_COMMIT (R215): the entries of CAPO_BTAB become the committed table. -/
def commitBudget (s : State) : State :=
  setCapo s fun c => { c with table := (List.range 224).map fun e => (fget s (Fld.CAPO_BTAB_ADDR_ADDR e), rd s (Reg.CAPO_BTAB_VAL e)) }

/-- BTX_COMMIT (R215). -/
def execBtxCommit (s : State) : Host.Outcome State Fault Refusal := .next (commitBudget s)

/-! ### Clears and HOSTCAP -/

/-- CAPO_CTRL.TRIM_CLR (R202). -/
def requestTrimClear (s : State) : State := setCapo s fun c => { c with trimClr := true }

/-- TRIM_CLR (R202). -/
def execTrimClr (s : State) : Host.Outcome State Fault Refusal := .next (requestTrimClear s)

/-- TRIM_CLR_APPLY (R202): every t and τ becomes 0 at a round boundary. -/
def execTrimClrApply (s : State) : Host.Outcome State Fault Refusal :=
  if s.capo.trimClr then
    let z : Piped Word := Piped.now (vwOf 0)
    let s1 := setCapo s fun c => { c with trimClr := false, t := Vector.replicate 32 z, tau := Vector.replicate 32 z }
    .next ((List.range 32).foldl (fun s i => wr (wr s (Reg.CAPO_PTRIM i) (vwOf 0)) (Reg.CAPO_CTRIM i) (vwOf 0)) s1)
  else .next s

/-- CAPO_CTRL.CNT_CLR (R225). -/
def clearCapoCnt (s : State) : State := wr (wr s Reg.CAPO_BCNT 0) Reg.CAPO_HCNT 0

/-- CAPO_CNT_CLR (R225). -/
def execCapoCntClr (s : State) : Host.Outcome State Fault Refusal := .next (clearCapoCnt s)

/-- A host write of CAPO_HOSTCAP (R205): a value word with reserved bits is ignored (R132, R18). -/
def writeHostCap (v : Word) (s : State) : State :=
  if vwReserved v then s else setCapo (wr s Reg.CAPO_HOSTCAP v) fun c => { c with hostPend := true }

/-- HOSTCAP_WRITE (R205). -/
def execHostcapWrite (v : Word) (s : State) : Host.Outcome State Fault Refusal := .next (writeHostCap v s)

/-- HOSTCAP_APPLY (R205): the new HOSTCAP reaches the engine at a round boundary. -/
def execHostcapApply (s : State) : Host.Outcome State Fault Refusal :=
  if s.capo.hostPend then .next (setCapo s fun c => { c with hostCap := rd s Reg.CAPO_HOSTCAP, hostPend := false })
  else .next s

/-! ### Hold-up (R216 to R220) -/

/-- A phase of mains conversion `c` lies outside its window (R216): `h` is the phase index. -/
def phaseOutside (s : State) (c : MainsConv) (a : Rat) (h : Nat) : Bool :=
  let m := convVolts c.volts
  let v := match h with | 0 => m.1 | 1 => m.2.1 | _ => m.2.2
  let e := a * sinTurn (fracTurn (c.theta - (h : Rat) / 3))
  decide (vreg s Reg.CAPO_WBAND < absR (v - e))

/-- The input lies outside (R216). -/
def inputOutside (s : State) (fret : Nat) : Bool :=
  if bit s Fld.CAPO_CFG_INSRC then
    let v := vwVal (signal s (fget s Fld.CAPO_CFG_DCSIG) fret fret)
    decide (v < vreg s Reg.CAPO_DCLO) || decide (vreg s Reg.CAPO_DCHI < v)
  else
    let a := if bit s Fld.CAPO_STATUS_INPUT_LOSS then s.capo.heldA else s.time.vd
    !bit s Fld.TIME_STATUS_MAINS_LOCK || (if s.time.cfg.threePh then [0, 1, 2] else [0]).any (phaseOutside s (s.time.usable.get (absFret s fret)) a)

/-- CAPO_HOLDUP (R216): one judgement of the input. -/
def execCapoHoldup (l : LaneFields) (fret : Nat) (s : State) : Host.Outcome State Fault Refusal :=
  if capoActs s l 6 then
    if inputOutside s fret then .next (setCapo s fun c => { c with outside := c.outside + 1, inside := 0 })
    else .next (setCapo s fun c => { c with inside := c.inside + 1, outside := 0 })
  else .next s

/-- LOSSN (R225): 0 encodes 16. -/
def lossN (s : State) : Nat := if fget s Fld.CAPO_CFG_LOSSN = 0 then 16 else fget s Fld.CAPO_CFG_LOSSN

/-- A hold-up record of input loss or return at fret `fret` (R220, R414). -/
def holdupRecord (s : State) (subtype sev fret : Nat) : State :=
  pushRecord s 4 sev 0 (stampE s fret) (mkPayload [(0, 1, subtype), (4, 4, s.capo.pf.cur.toNat), (8, 4, s.capo.cap.cur.toNat),
    (12, 4, (rd s Reg.CAPO_STATUS).toNat)])

/-- INPUT_LOSS_BEGIN (R216, R218): the mains is lost to the timebase (R37, R45). Selectors that switch do so at the next round
boundary, with the record of the loss; a loss that switches none is recorded here (R220, log entry 147). -/
def execInputLossBegin (fret : Nat) (s : State) : Host.Outcome State Fault Refusal :=
  if !bit s Fld.CAPO_STATUS_INPUT_LOSS && decide (lossN s ≤ s.capo.outside) then
    let switch := bit s Fld.CAPO_CFG_HOLD_EN && !bit s Fld.CAPO_STATUS_HOLDUP
    let s1 := raise (fput s Fld.CAPO_STATUS_INPUT_LOSS 1) Fld.CAPO_EVENT_LOSS
    let s2 := setCapo s1 fun c => { c with
      heldA := s.time.vd, inside := 0, switchDue := if switch then some s.time.base else none }
    let s3 := if switch then s2 else holdupRecord s2 1 1 fret
    .next (mainsLost (setTime s3 fun t => { t with condNow := false, condCycle := false }) fret)
  else .next s

/-- INPUT_LOSS_END (R216). -/
def execInputLossEnd (s : State) : Host.Outcome State Fault Refusal :=
  if bit s Fld.CAPO_STATUS_INPUT_LOSS && decide (fget s Fld.CAPO_HCFG_RETW ≤ s.capo.inside) &&
      (bit s Fld.CAPO_CFG_INSRC || bit s Fld.TIME_STATUS_MAINS_LOCK) then
    .next (fput s Fld.CAPO_STATUS_INPUT_LOSS 0)
  else .next s

/-- The selectors move: those in use take T and their source loops are preset (R218, R220). -/
def switchSelectors (s : State) (up : Bool) : State :=
  let load := vwVal s.capo.loadSum.cur
  (List.finRange 4).foldl (fun s (h : Fin 4) =>
    let use := if up then bit s (Fld.CAPO_HSEL_CFG_HUSE h) else bit s (Fld.CAPO_HSEL_CFG_NUSE h)
    if bit s (Fld.CAPO_HSEL_CFG_EN h) && use then
      let k := if up then vreg s (Reg.CAPO_HSEL_KFFH h) else vreg s (Reg.CAPO_HSEL_KFFN h)
      let n := if up then fget s (Fld.CAPO_HSEL_CFG_HLOOP h) else fget s (Fld.CAPO_HSEL_CFG_NLOOP h)
      let w := vwOf (k * load)
      { setCapo s (fun c => { c with selT := upd c.selT h fun _ => Piped.now (some w) }) with
        loops := updN s.loops n fun l => { l with switchPreset := some w } }
    else s) s

/-- HOLDUP_SWITCH (R218, R220): at the round boundary after the loss the selectors go to hold-up, with fault 0x02A3 and a
record; the mutes of the round that begins follow (R221, R310). -/
def execHoldupSwitch (s : State) : Host.Outcome State Fault Refusal :=
  if s.capo.switchDue.any fun b => decide (b < s.time.base) then
    let s1 := setCapo (inc (fput s Fld.CAPO_STATUS_HOLDUP 1) Fld.CAPO_HCNT_HOLD_CNT) fun c => { c with switchDue := none }
    let s2 := holdupRecord (switchSelectors s1 true) 1 1 0
    .next (remute (report s2 0x02A3 0 0 0 (stampE s2 0)))
  else .next s

/-- HOLDUP_RETURN (R220): the selectors return to normal. -/
def execHoldupReturn (s : State) : Host.Outcome State Fault Refusal :=
  let back := if bit s Fld.CAPO_CFG_INSRC then !bit s Fld.CAPO_STATUS_INPUT_LOSS else bit s Fld.TIME_STATUS_MAINS_QUAL
  if bit s Fld.CAPO_STATUS_HOLDUP && back then
    let s1 := raise (fput s Fld.CAPO_STATUS_HOLDUP 0) Fld.CAPO_EVENT_RETURN
    .next (remute (holdupRecord (switchSelectors s1 false) 2 0 0))
  else .next s

end Sys2Proof.Machine
end

