-- ==== Sys2Proof/Machine/Feed.lean ====
section
/-! DEFINITION. Sys2Proof/Machine/Feed.lean: the feed channels (spec/07), command by command. -/

namespace Sys2Proof.Machine

/-- What the feed keeps beside its registers. -/
def feedOf (s : State) (f : Fin 8) : FeedSt := s.feeds.get f

/-- The feeds whose request the host takes away in the tick of a trip that led into FAULT: DISCHARGE (R245). -/
def dropTripped (v : Word) (s : State) : State :=
  (List.finRange 8).foldl (fun s (f : Fin 8) => if !v.getLsbD f && trippedNow s f then feedRunLoss s f else s) s

/-- A host write of FEED_CMD (R230). -/
def writeFeedCmd (v : Word) (s : State) : State := refreshFeeds (fput (dropTripped v s) Fld.FEED_CMD_ON (getBits v 0 8))

/-- FEED_CMD_WRITE (R230). -/
def execFeedCmdWrite (v : Word) (s : State) : Host.Outcome State Fault Refusal := .next (writeFeedCmd v s)

/-- The filtered VS window is lost in PRECHARGE or ON and the feed opens (R234, R235); through OV it reports 0x0405. -/
def feedWindowLost (s : State) (f : Fin 8) (viaOv : Bool) : State :=
  let s1 := raise (feedQualify s f false) (Fld.FEED_EVENT_VS_LOST f)
  if viaOv then report s1 0x0405 0 0 0 (stampI s1) else s1

/-- The filtered VS window as the comparators give it now, and the move that its change makes (R232, R234, R235, R239); OV that
ends it in the tick of a trip in PRECHARGE is reported as well (R245). A feed that has stayed ON with the window lost through UV opens at
once where OV follows (R235). -/
def judgeWindow (s : State) (f : Fin 8) : State :=
  let now := windowNow s f
  if now = bit s (Fld.FEED_STATUS_VSWIN f) then
    if feedState s f == .on && !now && (feedOf s f).ov then feedWindowLost s f true else s
  else
    let s1 := fputB s (Fld.FEED_STATUS_VSWIN f) now
    let x := feedOf s f
    match feedState s f, now with
    | .qualify, true => feedQualify s1 f x.waived
    | .insert, false | .blocked, false => feedQualify s1 f false
    | .precharge, false => setFeed (feedWindowLost s1 f x.ov) f fun y => { y with ovAt := if x.ov then some s.tick else y.ovAt }
    | .on, false => if x.ov || bit s (Fld.FEED_CFG_UVOFF f) then feedWindowLost s1 f x.ov else s1
    | .retryWait, false | .fault, false => if x.ov && x.tripAt == some s.tick then report s1 0x0405 0 0 0 (stampI s1) else s1
    | _, _ => s1

/-- FEED_VS_WINDOW_CHANGE (R226, R232, R234, R235, R239): FnnVS stands at `vs` volts, and the window has had its outcome there for
`held` ticks; a filtered window that is satisfied or lost by it moves the feed. -/
def execFeedVsWindowChange (f : Fin 8) (vs : Rat) (held : Nat) (s : State) : Host.Outcome State Fault Refusal :=
  .next (judgeWindow (feedSense s f (some vs) none none held 0) f)

/-- FEED_INSDLY_EXPIRE (R232): the feed enters PRECHARGE, or ON where no precharge is used. -/
def execFeedInsdlyExpire (f : Fin 8) (s : State) : Host.Outcome State Fault Refusal :=
  if feedState s f = .insert ∧ (feedOf s f).due ≤ s.tick then .next (feedClose s f) else .next s

/-- FEED_RATIO_HELD (R226, R233): FnnVS and FnnVL stand at `vs` and `vl` volts, compared so for `held` ticks; when RATIO has held
at 16 ticks counted from the entry into PRECHARGE, in time, FnnG rises. -/
def execFeedRatioHeld : FeedDiff → State → Host.Outcome State Fault Refusal
  | ⟨f, vs, vl, held⟩, s =>
  let s1 := feedSense s f (some vs) (some vl) none held 0
  let x := feedOf s1 f
  if feedState s f = .precharge ∧ !bit s (Fld.FEED_STATUS_G f) ∧ x.ratio.raw ∧ max x.ratio.since x.pcAt + 16 ≤ s.tick ∧ s.tick ≤ x.due then
    .next (setFeed (feedOut s1 f true true) f fun x => { x with due := s.tick + fget s (Fld.FEED_PCFG_POVL f) })
  else .next s1

/-- FEED_POVL_EXPIRE (R233): FnnPC falls and the feed is ON. -/
def execFeedPovlExpire (f : Fin 8) (s : State) : Host.Outcome State Fault Refusal :=
  if feedState s f = .precharge ∧ bit s (Fld.FEED_STATUS_G f) ∧ (feedOf s f).due ≤ s.tick then .next (feedOn s f) else .next s

/-- FEED_PCTO_EXPIRE (R233): the precharge times out, fault 0x0403. -/
def execFeedPctoExpire (f : Fin 8) (s : State) : Host.Outcome State Fault Refusal :=
  if feedState s f = .precharge ∧ !bit s (Fld.FEED_STATUS_G f) ∧ (feedOf s f).due ≤ s.tick then
    .next (report (raise (feedFault s f) (Fld.FEED_EVENT_PC_TIMEOUT f)) 0x0403 1 3 f (stampI s))
  else .next s

/-- The retry count that a trip of this tick counts against (R237): the old one in the tick of its reset. -/
def retryCount (s : State) (f : Fin 8) : Nat :=
  match (feedOf s f).retryReset with
  | some (t, n) => if t = s.tick then n else fget s (Fld.FEED_STATUS_RTRY f)
  | none => fget s (Fld.FEED_STATUS_RTRY f)

/-- A trip counted (R236, R246): the trip counter, the retry count and the event. -/
def countTrip (s : State) (f : Fin 8) : State :=
  let n := retryCount s f + 1
  let s1 := raise (inc s (Fld.FEED_CNT_TRIP_CNT f)) (Fld.FEED_EVENT_TRIP f)
  fput s1 (Fld.FEED_STATUS_RTRY f) (min n 7)

/-- The electronic fuse trips (R236): RETRY_WAIT with 0x0402, or FAULT with 0x0401 when the retries are used up. -/
def feedTrip (s : State) (f : Fin 8) : State :=
  let n := retryCount s f + 1
  let s1 := countTrip s f
  if n ≤ fget s (Fld.FEED_RETRY_RETRY f) then
    let s2 := putFeedState (feedOut s1 f false false) f .retryWait
    let s3 := setFeed s2 f fun x => { x with
      waived := false, holdDue := none, due := s.tick + 1000 * fget s (Fld.FEED_RETRY_RDLY f) * 2 ^ (n - 1) }
    report s3 0x0402 0 0 0 (stampI s3)
  else report (setFeed (feedFault s1 f) f fun x => { x with faultAt := some s.tick }) 0x0401 1 3 f (stampI s1)

/-- FEED_OC_TRIP (R226, R236, R245): FnnIS stands at `is` volts, compared so for `clocks` interface clocks; the filtered OC output
trips the electronic fuse in PRECHARGE or ON. A trip that falls together with the loss of run permission is counted and
reported, and no retry follows; one in the tick in which OV ended the PRECHARGE acts as a trip. -/
def execFeedOcTrip : FeedLevel → State → Host.Outcome State Fault Refusal
  | ⟨f, is, clocks⟩, s =>
  let x := feedOf s f
  let s1 := feedSense s f none none (some is) 0 clocks
  if ocNow s1 f then
    match feedState s f with
    | .precharge => .next (setFeed (feedTrip s1 f) f fun x => { x with tripAt := some s.tick })
    | .on => .next (feedTrip s1 f)
    | .qualify | .insert => if x.ovAt = some s.tick then .next (feedTrip s1 f) else .next s1
    | .discharge => if x.fell = some s.tick then .next (report (countTrip s1 f) 0x0402 0 0 0 (stampI s)) else .next s1
    | _ => .next s1
  else .next s1

/-- FEED_RETRY_EXPIRE (R236): QUALIFY with the insertion delay waived. -/
def execFeedRetryExpire (f : Fin 8) (s : State) : Host.Outcome State Fault Refusal :=
  if feedState s f = .retryWait ∧ (feedOf s f).due ≤ s.tick then .next (feedQualify s f true)
  else .next s

/-- FEED_RHOLD_EXPIRE (R237): the retry count resets. -/
def execFeedRholdExpire (f : Fin 8) (s : State) : Host.Outcome State Fault Refusal :=
  match (feedOf s f).holdDue with
  | some t =>
    if feedState s f = .on ∧ t ≤ s.tick then
      let s1 := setFeed s f fun x => { x with holdDue := none, retryReset := some (s.tick, fget s (Fld.FEED_STATUS_RTRY f)) }
      .next (fput s1 (Fld.FEED_STATUS_RTRY f) 0)
    else .next s
  | none => .next s

/-- FEED_REV_BLOCK (R226, R238): FnnVS and FnnVL stand at `vs` and `vl` volts, compared so for `clocks` interface clocks; the
filtered REV output turns the ideal diode off; not a fault. -/
def execFeedRevBlock : FeedDiff → State → Host.Outcome State Fault Refusal
  | ⟨f, vs, vl, clocks⟩, s =>
  let s0 := feedSense s f (some vs) (some vl) none 0 clocks
  if feedState s f = .on ∧ bit s (Fld.FEED_CFG_IDEAL f) ∧ revNow s0 f then
    let s1 := setFeed (putFeedState (feedOut s0 f false false) f .blocked) f fun x => { x with holdDue := none }
    .next (raise (inc s1 (Fld.FEED_CNT_BLOCK_CNT f)) (Fld.FEED_EVENT_BLOCK f))
  else .next s0

/-- FEED_FWD_UNBLOCK (R226, R239): FnnVS and FnnVL stand at `vs` and `vl` volts, compared so for `held` ticks; when FWD has passed
its filter in BLOCKED the feed is ON again. -/
def execFeedFwdUnblock : FeedDiff → State → Host.Outcome State Fault Refusal
  | ⟨f, vs, vl, held⟩, s =>
  let s1 := feedSense s f (some vs) (some vl) none held 0
  if feedState s f = .blocked ∧ fwdNow s1 f then .next (feedOn s1 f) else .next s1

/-- FEED_DISCHARGE_END (R241): DDLY since the last gate-off is over, at the earliest in the tick after the loss; the feed enters
OFF, and QUALIFY where it has run permission (R232, R245). -/
def execFeedDischargeEnd (f : Fin 8) (s : State) : Host.Outcome State Fault Refusal :=
  let done := match (feedOf s f).fell with | some t => decide (t + ddly s f ≤ s.tick) | none => true
  if feedState s f == .discharge && done && decide ((feedOf s f).lossAt < s.tick) then .next (refreshFeed (putFeedState s f .off) f) else .next s

/-- FEED_SHORT_CHECK_RESUME (R241). -/
def execFeedShortCheckResume (f : Fin 8) (s : State) : Host.Outcome State Fault Refusal :=
  match (feedOf s f).resume with
  | some t => if t ≤ s.tick ∧ !groupHigh s f then .next (setFeed s f fun x => { x with resume := none }) else .next s
  | none => .next s

/-- The short check applies to a feed (R241). -/
def shortApplies (s : State) (f : Fin 8) : Bool :=
  bit s (Fld.FEED_CFG_SHCHK f) &&
    [FeedState.off, .qualify, .insert, .retryWait, .fault].contains (feedState s f) &&
    (match (feedOf s f).fell with | some t => decide (t + ddly s f ≤ s.tick) | none => true) &&
    !groupHigh s f && (feedOf s f).resume.isNone

/-- FEED_SHORT_DETECT (R226, R242): FnnVL stands at `vl` volts, compared so for `held` ticks; VLPRES active while the check applies is fault 0x0404. -/
def execFeedShortDetect : FeedLevel → State → Host.Outcome State Fault Refusal
  | ⟨f, vl, held⟩, s =>
  let s0 := feedSense s f none (some vl) none held 0
  if shortApplies s0 f && (feedOf s0 f).vlp.raw then
    let s1 := raise (fput s0 (Fld.FEED_STATUS_SHBLK f) 1) (Fld.FEED_EVENT_SHORT f)
    let s2 := if feedState s f = .fault then s1 else feedFault s1 f
    .next (report s2 0x0404 1 3 f (stampI s2))
  else .next s0

/-- The cause of fault 0x0404 is gone (R242): VLPRES has been inactive for DDLY. -/
def shortGone (s : State) (f : Fin 8) : Bool :=
  let x := (feedOf s f).vlp
  !x.raw && decide (x.since + ddly s f ≤ s.tick)

/-- FEED_VLPRES_INACTIVE (R226, R242): FnnVL stands at `vl` volts, compared so for `held` ticks; VLPRES inactive for DDLY is what
takes the cause of fault 0x0404 away. -/
def execFeedVlpresInactive : FeedLevel → State → Host.Outcome State Fault Refusal
  | ⟨f, vl, held⟩, s =>
  .next (feedSense s f none (some vl) none held 0)

/-- The monitor code of a voltage (R228): steps of 781.25 µV, clipped. -/
def monitorCode (v : Rat) : Nat := min (v * 1280).floor.toNat 1023

/-- FEED_MONITOR_CONV (R228): input `j` of feed `f` (0 VS, 1 VL, 2 IS), at `v` volts, converted in its tick of the frame. The converter
serves reading only: the comparators follow the commands that tell them. -/
def execFeedMonitorConv (f : Fin 8) (j : Fin 3) (v : Rat) (s : State) : Host.Outcome State Fault Refusal :=
  if bit s (Fld.FEED_CFG_EN f) ∧ (s.tick - s.resetTick) % 32 = 4 * f.val + j.val then
    let code := match j with | 0 => Fld.FEED_MEAS_VS_CODE f | 1 => Fld.FEED_MEAS_VL_CODE f | 2 => Fld.FEED_MEAS_IS_CODE f
    .next (fput s code (monitorCode v))
  else .next s

/-- FEED_CTRL.CNT_CLR (R246). -/
def clearFeedCnt (f : Fin 8) (s : State) : State := wr s (Reg.FEED_CNT f) 0

/-- FEED_CNT_CLR (R246). -/
def execFeedCntClr (f : Fin 8) (s : State) : Host.Outcome State Fault Refusal := .next (clearFeedCnt f s)

/-- A feed whose fault entries are all cleared returns to OFF with its retry count at 0 (R242, R244, R392). -/
def clearFeedFault (s : State) (f : Fin 8) (code : Nat) : State :=
  let s1 := if code = 0x0404 then fput s (Fld.FEED_STATUS_SHBLK f) 0 else s
  let more := (validEntries s1).any fun e =>
    fget s1 (Fld.FAULT_ENTRY_CODE_KIND e) == 3 && fget s1 (Fld.FAULT_ENTRY_CODE_INDEX e) == f.val
  if more || feedState s1 f != .fault then s1
  else
    let s2 := fput (putFeedState s1 f .off) (Fld.FEED_STATUS_RTRY f) 0
    refreshFeed s2 f

end Sys2Proof.Machine
end

