-- ==== Sys2Proof/Machine/Queues.lean ====
section
/-! DEFINITION. Sys2Proof/Machine/Queues.lean: the 64 hardware queues (R371 to R377), their watermark flags and the engine's
queue writes (R87, R88, R161). -/

namespace Sys2Proof.Machine

/-- Queue `q` beside its registers. -/
def queueOf (s : State) (q : Fin 64) : QueueSt := s.queues.get q

/-- A queue changed in what no register holds. -/
def setQueue (s : State) (q : Fin 64) (f : QueueSt → QueueSt) : State := { s with queues := upd s.queues q f }

/-- The depth of queue `q` in entries (R371); an unused queue has none. -/
def queueDepth (s : State) (q : Nat) : Nat :=
  if fget s (Fld.HOSTIF_Q_CFG_PROD q) = 0 then 0 else 16 * (fget s (Fld.HOSTIF_Q_CFG_DEPTH q) + 1)

/-- FREE of queue `q` (R373). -/
def queueFree (s : State) (q : Fin 64) : Nat :=
  queueDepth s q - 2 - ((queueOf s q).entries.length + (queueOf s q).unfreed)

/-! ### Watermarks (R376) -/

/-- The place of a queue in the watermark events. -/
def qeventFld (q : Nat) : Field := if q < 32 then Fld.HOSTIF_QEVENT_LO_WM else Fld.HOSTIF_QEVENT_HI_WM

/-- The QFL pins that are asserted (R376). -/
def qflPins (s : State) : Nat :=
  (List.range 4).foldl (fun m n =>
    if (List.range 64).any fun q => bit s (Fld.HOSTIF_Q_WM_PIN_EN q) && fget s (Fld.HOSTIF_Q_WM_PIN q) == n &&
      fget s (Fld.HOSTIF_Q_WM_HI q) != 0 && bit s (Fld.HOSTIF_Q_STAT_WMF q) then m + 2 ^ n else m) 0

/-- The level of QFL pin `n`: POL = 1 makes an asserted pin high, POL = 0 low (R376, R383). -/
def qflLevel (s : State) (n : Nat) : Bool := (qflPins s).testBit n == fbit s Fld.HOSTIF_QFL_CFG_POL n

/-- WMF of queue `q` judged (R376). -/
def judgeWmf (s : State) (q : Fin 64) : State :=
  let hi := fget s (Fld.HOSTIF_Q_WM_HI q)
  let fill := (queueOf s q).vis
  let was := bit s (Fld.HOSTIF_Q_STAT_WMF q)
  let now := if hi = 0 then false
    else if hi ≤ fill then true
    else if fill ≤ fget s (Fld.HOSTIF_Q_WM_LO q) then false
    else was
  let s1 := fputB s (Fld.HOSTIF_Q_STAT_WMF q) now
  let s2 := if now && !was then fputBit s1 (qeventFld q) (q.val % 32) true else s1
  fput s2 Fld.HOSTIF_STATUS_QFL (qflPins s2)

/-- The status of queue `q` brought up to date (R373, R376). -/
def syncQueue (s : State) (q : Fin 64) : State :=
  let free := queueFree s q
  let s1 := fput (fput s (Fld.HOSTIF_Q_STAT_FILL q) (queueOf s q).vis) (Fld.HOSTIF_Q_STAT_FREE q) free
  let s2 := fputB s1 (Fld.HOSTIF_Q_STAT_EMPTY q) ((queueOf s q).vis == 0)
  judgeWmf (fputB s2 (Fld.HOSTIF_Q_STAT_FULL q) (free == 0 && queueDepth s q != 0)) q

/-- QUEUE_ENTRY_VISIBLE (R372): the oldest entry that is not visible becomes so. -/
def showEntry (q : Fin 64) (s : State) : State :=
  if (queueOf s q).vis < (queueOf s q).entries.length then
    syncQueue (setQueue s q fun x => { x with vis := x.vis + 1 }) q
  else s

/-- QUEUE_SPACE_FREED (R372): a popped entry becomes free to the producer. -/
def execQueueSpaceFreed (q : Fin 64) (s : State) : Host.Outcome State Fault Refusal :=
  if (queueOf s q).unfreed = 0 then .next s
  else .next (syncQueue (setQueue s q fun x => { x with unfreed := x.unfreed - 1 }) q)

/-- The oldest visible entry popped (R374). -/
def popEntry (s : State) (q : Fin 64) : Option (Word × State) :=
  match (queueOf s q).vis, (queueOf s q).entries with
  | n + 1, w :: ws => some (w, syncQueue (setQueue s q fun x => { x with entries := ws, vis := n, unfreed := x.unfreed + 1 }) q)
  | _, _ => none

/-- A path may read queue `q`: it is used, and its consumer is the reader (R374). -/
def mayPop (s : State) (path : Path) (q : Nat) : Bool :=
  fget s (Fld.HOSTIF_Q_CFG_PROD q) != 0 && (bit s (Fld.HOSTIF_Q_CFG_CONS q) == (path == .core))

/-- An access to an unassigned address (R11): logged as fault 0x0901. -/
def unassigned (s : State) : State := reportCorrected (raise s Fld.HOSTIF_EVENT_UNASSIGNED) 0x0901 (stampI s)

/-- A refused write (R12, R16, R374): logged as fault 0x0902. -/
def refusedWrite (s : State) : State := reportCorrected (raise s Fld.HOSTIF_EVENT_REFUSED) 0x0902 (stampI s)

/-- A read of a word of the window of queue `q` (R374, R375): none while the reader must wait. -/
def readQueue (s : State) (path : Path) (q : Fin 64) : Option (Word × State) :=
  if mayPop s path q then popEntry s q else some (0, unassigned s)

/-- A word of a queue window returned to its reader. -/
def popped (r : Word × State) : State := { r.2 with host := { r.2.host with popped := r.1 } }

/-- QUEUE_POP (R374, R375): with no visible entry nothing is popped and the reader waits: the application core stalls; the waits of the
host ports are those of their transactions. A core that stalls makes no other read. -/
def execQueuePop (path : Path) (q : Fin 64) (s : State) : Host.Outcome State Fault Refusal :=
  if path == .core && s.host.coreRead.isSome then .next s
  else
    match readQueue s path q with
    | some r => .next (popped r)
    | none => .next (if path == .core then { s with host := { s.host with coreRead := some q } } else s)

/-- A stalled read of the application core is tried again (R375). -/
def resumeCore (s : State) : State :=
  match s.host.coreRead with
  | none => s
  | some q =>
    match readQueue s .core q with
    | some r => popped (r.1, { r.2 with host := { r.2.host with coreRead := none } })
    | none => s

/-- A record written to a queue whole, or dropped whole and counted (R87, R88, R345). -/
def queueRecord (s : State) (q : Fin 64) (ws : List Word) : State × Bool :=
  if ws.length ≤ queueFree s q then
    (syncQueue (setQueue s q fun x => { x with entries := x.entries ++ ws }) q, true)
  else (inc s (Fld.HOSTIF_Q_DROP_DROP q), false)

/-! ### Host commands of a queue -/

/-- A write of the watermarks of queue `q` (R376). -/
def writeQueueWm (q : Fin 64) (v : Word) (s : State) : State :=
  let hi := getBits v 0 13
  let lo := getBits v 16 13
  let bad := hi != 0 && (decide (hi ≤ lo) || decide (queueDepth s q - 2 < hi))
  let s1 := if bad then s else fput (fput s (Fld.HOSTIF_Q_WM_HI q) hi) (Fld.HOSTIF_Q_WM_LO q) lo
  judgeWmf (fput (fput s1 (Fld.HOSTIF_Q_WM_PIN_EN q) (getBits v 29 1)) (Fld.HOSTIF_Q_WM_PIN q) (getBits v 30 2)) q

/-- QUEUE_WM_WRITE (R376). -/
def execQueueWmWrite (q : Fin 64) (v : Word) (s : State) : Host.Outcome State Fault Refusal := .next (writeQueueWm q v s)

/-- A flush requested (R377). -/
def requestFlush (q : Fin 64) (s : State) : State := setQueue s q fun x => { x with flush := true }

/-- QUEUE_FLUSH (R377). -/
def execQueueFlush (q : Fin 64) (s : State) : Host.Outcome State Fault Refusal := .next (requestFlush q s)


/-- The drop counter of queue `q` cleared (R377). -/
def clearQueueDrop (q : Fin 64) (s : State) : State := wr s (Reg.HOSTIF_Q_DROP q) 0

/-- QUEUE_DROP_CLR (R377). -/
def execQueueDropClr (q : Fin 64) (s : State) : Host.Outcome State Fault Refusal := .next (clearQueueDrop q s)

/-! ### QPUSH (R87, R88, R161) -/

/-- The last committed value of a loop is one of a signed target (R158, R161): SHIFT_B or SHIFT_PORT. -/
def signedTarget (s : State) (n : Nat) : Bool := ((List.finRange 64)[n]?).any fun i => (s.loops.get i).qSigned

/-- The 32-bit entry of a signal code at fret `f` (R161). -/
def telemetryWord (s : State) (code f : Nat) (high : Option Word) : Word :=
  match code with
  | 0x400 => BitVec.ofNat 32 (stampE s f)
  | 0x401 => high.getD (BitVec.ofNat 32 (stampE s f / 2 ^ 32))
  | 0x402 => rd s Reg.SCHED_ROUNDS
  | _ =>
    if 0x200 ≤ code ∧ code % 8 = 7 then
      let n := (code - 0x200) / 8
      if signedTarget s n then BitVec.ofInt 32 (fgetS s (Fld.LOOP_Q_Q n)) else BitVec.ofNat 32 (fget s (Fld.LOOP_Q_Q n))
    else signal s code f f

/-- The open record of queue `q` in this round, if any (R87, R527). -/
def openRec (s : State) (q : Nat) : Option OpenRec := s.sched.openRecs.find? fun r => r.queue == q

/-- The open records with that of one queue put in place; one that has reached its length is closed. -/
def putRec (s : State) (r : OpenRec) : State :=
  let l := s.sched.openRecs.filter fun x => x.queue != r.queue
  { s with sched := { s.sched with openRecs := if r.left = 0 then l else r :: l } }

/-- The free space the engine sees in queue `q`: none where the queue is not the engine's (R371, R373). -/
def engineFree (s : State) (q : Fin 64) : Nat := if fget s (Fld.HOSTIF_Q_CFG_PROD q) = 1 then queueFree s q else 0

/-- QUEUE_FLUSH_APPLY (R377): every entry is discarded at a round boundary, where no record is open (R527), or between two records of the
Harness. -/
def execQueueFlushApply (q : Fin 64) (s : State) : Host.Outcome State Fault Refusal :=
  if (queueOf s q).flush && (openRec s q).isNone then
    .next (syncQueue (setQueue s q fun x => { x with entries := [], vis := 0, flush := false }) q)
  else .next s

/-- One word of a record. -/
def pushWord (s : State) (q : Fin 64) (r : OpenRec) (code fret : Nat) : State :=
  let w := telemetryWord s code fret r.high
  let s1 := if r.dropped then s
    else syncQueue (setQueue s q fun x => { x with entries := x.entries ++ [w] }) q
  let high := if code = 0x400 then some (BitVec.ofNat 32 (stampE s fret / 2 ^ 32)) else none
  putRec s1 { r with left := r.left - 1, high := high }

/-- QPUSH (R87, R88): the first word of a record is judged against the free space; a record that does not fit is dropped. -/
def execQpush (l : LaneFields) (fret : Nat) (s : State) : Host.Outcome State Fault Refusal :=
  if !laneActs s 0x20 l then .next s
  else if h : l.ctx.toNat < 64 then
    let q : Fin 64 := ⟨l.ctx.toNat, h⟩
    let code := (telemetryEntry s (l.argBits 0 8)).1
    if l.argBits 13 1 = 1 then
      let n := if l.argBits 8 5 = 0 then 32 else l.argBits 8 5
      let fits := decide (n ≤ engineFree s q)
      let s1 := if fits then s
        else raise (inc (inc s (Fld.HOSTIF_Q_DROP_DROP q)) Fld.SCHED_QDROP_QDROP) Fld.SCHED_EVENT_QDROP
      .next (pushWord s1 q ⟨q, n, !fits, none⟩ code fret)
    else
      match openRec s q with
      | some r => .next (pushWord s q r code fret)
      | none => .next s
  else .next s

end Sys2Proof.Machine
end

