-- ==== Sys2Proof/Machine/Sched.lean ====
section
/-! DEFINITION. Sys2Proof/Machine/Sched.lean: what a running schedule allows (spec/02): the start of the engine (R75),
bank swaps (R85, R86, R155), variants (R89 to R91) and host writes to engine memory (R77). -/

namespace Sys2Proof.Machine

/-- What no register holds of the schedule changed. -/
def setSched (s : State) (f : SchedSt → SchedSt) : State := { s with sched := f s.sched }

/-! ### Bank swaps (R85, R86, R153, R155) -/

/-- The pending bit of loop `n` (R85). -/
def pendFld (n : Nat) : Field := if n < 32 then Fld.SCHED_SWAP_PEND_LO_PEND_LO else Fld.SCHED_SWAP_PEND_HI_PEND_HI

/-- The mask bit of loop `n` (R85). -/
def maskBit (s : State) (n : Nat) : Bool :=
  if n < 32 then fbit s Fld.SCHED_SWAP_MASK_LO_MASK_LO n else fbit s Fld.SCHED_SWAP_MASK_HI_MASK_HI (n - 32)

/-- A swap of the masked loops requested (R85, R86). -/
def requestSwap (s : State) : State :=
  if !bit s Fld.SCHED_STATUS_LOADED then s
  else
    let s1 := (List.range 64).foldl (fun s n =>
      if !maskBit s n then s
      else if loopUsed s n then fputBit s (pendFld n) (n % 32) true
      else raise s Fld.SCHED_EVENT_SWAP_IGN) s
    setSched s1 fun x => { x with swapReq := true }

/-- SCHED_SWAP_GO (R85, R86). -/
def execSchedSwapGo (s : State) : Host.Outcome State Fault Refusal := .next (requestSwap s)

/-- The conditions of R153 (with those of R136) on a bank whose word at offset `o` is `f o`. -/
def bankOk (f : Nat → Word) (ei : Int) : Bool :=
  let v := fun (o : Nat) => vwVal (f o)
  let lim := pow2 ei
  let inside := fun (x : Rat) => decide (-lim < x) && decide (x < lim)
  decide (v 0x004 ≤ v 0x008) && inside (v 0x004) && inside (v 0x008) &&
    decide (v 0x004 ≤ v 0x00C) && decide (v 0x00C ≤ v 0x008) && decide (v 0x010 < v 0x014) && decide (v 0x014 < v 0x018) &&
    decide (0 ≤ v 0x01C) && ((List.range 4).all fun j => decide (0 ≤ v (0x02C + 0x10 * j)) && decide (v (0x02C + 0x10 * j) < 1))

/-- The exchange of one loop (R85, R151), or its refusal (R155). -/
def exchangeLoop (s : State) (n : Fin 64) : State :=
  if !swapPending s n then s
  else
    let s1 := fputBit s (pendFld n) (n.val % 32) false
    if bankOk (bankWord s n (1 - activeBank s n)) (eiOf s n) then
      let s2 := fput s1 (Fld.LOOP_STATUS_ABANK n) (1 - activeBank s n)
      if bit s (Fld.LOOP_CFG_SWAP_PRESET n) then setLoop s2 n fun l => { l with presetDue := true } else s2
    else
      let s2 := raise s1 (Fld.LOOP_EVENT_SWAP_BAD n)
      report s2 0x0202 0 0 0 (stampE s2 0)

/-- BANK_EXCHANGE (R85): at a round boundary the banks of every pending loop exchange together. -/
def execBankExchange (s : State) : Host.Outcome State Fault Refusal :=
  if s.sched.swapReq then
    let done := (List.finRange 64).any fun n =>
      swapPending s n && bankOk (bankWord s n (1 - activeBank s n)) (eiOf s n)
    let s1 := (List.finRange 64).foldl exchangeLoop (setSched s fun x => { x with swapReq := false })
    .next (if done then raise (inc s1 Fld.SCHED_SWAP_CNT_SWAP_CNT) Fld.SCHED_EVENT_SWAP_DONE else s1)
  else .next s

/-! ### Variants (R89 to R91) -/

/-- Variant `v` names port `p` (R2, R67), under the image that is loaded: the one whose program has yet to start counts already. -/
def variantNames (s : State) (v p : Nat) : Bool :=
  ((if s.sched.startDue then s.sched.next else s.sched.names).toList.getD v 0).testBit p

/-- A request for variant `v` is refused (R90). -/
def variantRefused (s : State) (v : Nat) : Bool :=
  !fbit s Fld.SCHED_STATUS_VAVAIL v || bit s Fld.TRUST_STATUS_ACT_ST || s.trust.inert ||
    (List.range 32).any fun p => variantNames s v p && (portOos s p || portCovered s p)

/-- A variant request refused (R90): the pending request is cleared. -/
def refuseVariant (s : State) : State :=
  report (raise (fput s Fld.SCHED_STATUS_VPEND 0) Fld.SCHED_EVENT_VSEL_REFUSED) 0x0281 0 0 0 (stampI s)

/-- A write of SCHED_VSEL (R89, R90): a new request replaces the pending one. -/
def requestVariant (v : Word) (s : State) : State :=
  if getBits v 16 16 != 0x5653 then s
  else if variantRefused s (getBits v 0 2) then refuseVariant s
  else setSched (fput (fput s Fld.SCHED_STATUS_VREQ (getBits v 0 2)) Fld.SCHED_STATUS_VPEND 1) fun x => { x with vselBoundaries := 0 }

/-- SCHED_VSEL (R89). -/
def execSchedVsel (v : Word) (s : State) : Host.Outcome State Fault Refusal := .next (requestVariant v s)

/-- The check windows of variant `v` (R483), and that a switch has taken place in this round (R494). -/
def setWindows (s : State) (v : Nat) : State :=
  setSched (fput s Fld.TEST_ADC_NA_NA (s.sched.adcNa.toList.getD v 0)) fun x => { x with sinceSwitch := 0 }

/-- VARIANT_SWITCH (R89, R91): at fret 0 of a cycle that begins at or after the second round boundary since the request. -/
def execVariantSwitch (s : State) : Host.Outcome State Fault Refusal :=
  if bit s Fld.SCHED_STATUS_VPEND && engineRuns s && s.time.round == 0 && decide (2 ≤ s.sched.vselBoundaries) then
    let v := fget s Fld.SCHED_STATUS_VREQ
    if variantRefused s v then .next (refuseVariant s)
    else
      let old := fget s Fld.SCHED_STATUS_VACT
      let s1 := raise (fput (fput s Fld.SCHED_STATUS_VPEND 0) Fld.SCHED_STATUS_VACT v) Fld.SCHED_EVENT_VSEL_DONE
      let s2 := pushRecord s1 2 0 0 (stampE s1 0) (mkPayload [(0, 1, 2), (1, 1, old), (2, 1, v)])
      .next (refreshPorts (setWindows s2 v))
  else .next s

/-! ### The engine starts (R75, R76) -/

/-- The engine runs in this device state, once an image is there (R76). -/
def stateRuns : DevState → Bool
  | .idle | .armed | .safe | .test => true
  | _ => false

/-- A comparator as the engine start finds it: its latches are clear and it begins to run (R183). -/
def cmpStart (s : State) (p : Fin 32) (c : Fin 4) : State :=
  powerCmp (fput (fput s (Fld.CMP_STATUS_LAT_HI p c) 0) (Fld.CMP_STATUS_LAT_LO p c) 0) p c (absFret s 0)

/-- The samples of a port are stale, and its carrier begins anew (R101, R115); its shadows stay as they are (log entry 134). -/
def portStart (s : State) (p : Fin 32) : State :=
  let s1 := (List.range 3).foldl (fun s c => fput s ⟨sampReg p c, 14, 1⟩ 1) s
  { s1 with ports := upd s1.ports p fun x => { x with carrier := false, conv := none } }

/-- Trims, multipliers and filtered currents at the start of a program (R201); no TARGET has written a limit (R196). λ, Pf, Lp, B, C and the
counts of losses and returns go on from the program before (DESIGN CHOICE: log entry 176). -/
def shareStart (s : State) : State :=
  let s1 := (List.range 32).foldl (fun s i => wr (wr s (Reg.CAPO_PTRIM i) 0) (Reg.CAPO_CTRIM i) 0) s
  { s1 with capo := { s1.capo with
    f := Vector.replicate 32 0, t := Vector.replicate 32 (Piped.now 0), tau := Vector.replicate 32 (Piped.now 0)
    mult := Vector.replicate 64 (Piped.now 0x50000), tk := Vector.replicate 64 (Piped.now none)
    sumNow := Vector.replicate 32 0, cntNow := Vector.replicate 32 0
    sumLast := Vector.replicate 32 0, cntLast := Vector.replicate 32 0 } }

/-- What the start of a program sets: V0, the rotation phases (R75, R83), the regions (R150), the comparator latches (R183),
the samples (R101) and the trims (R201). A variant request that was accepted before goes on waiting (R89). -/
def programStart (s : State) : State :=
  let s1 := setSched s fun x => { x with
    startDue := false, startAt := s.time.base, phase := Vector.replicate 16 0, openRecs := [], names := x.next }
  let s2 := (List.finRange 64).foldl (fun s n =>
    fput (setLoop s n fun l => { l with region := 0, cand := none, firstRegion := true }) (Fld.LOOP_STATUS_REGION n) 0) s1
  let s3 := (List.finRange 32).foldl (fun s p => (List.finRange 4).foldl (fun s c => cmpStart s p c) (portStart s p)) s2
  let s4 := wr (fput (fput s3 Fld.SCHED_STATUS_RUN 1) Fld.SCHED_STATUS_VACT 0) Reg.SCHED_ROUNDS 0
  refreshPorts (setWindows (raise (shareStart s4) Fld.SCHED_EVENT_ENGINE_START) 0)

/-- ENGINE_START (R75): fret 0 of a cycle, with an image applied and the timebase on its configuration; the grid angle
begins at 0 and its frequency at w_ff (R526). -/
def execEngineStart (s : State) : Host.Outcome State Fault Refusal :=
  if s.sched.startDue && !s.trust.inert && !s.time.take && s.time.round == 0 && stateRuns (devState s) then
    .next (programStart (pllStart s))
  else .next s

/-! ### Host writes to engine memory (R12, R77, R92) -/

/-- A host may write the word at offset `o` of engine memory: the program and table areas, in IDLE and TEST (R12, R77). -/
def engineOpen (s : State) (o : Nat) : Bool :=
  (devState s == .idle || devState s == .test) && (decide (o < 0x60000) || (decide (0x70000 ≤ o) && decide (o < 0x78000)))

/-- A host write of the word at offset `o` of engine memory (R12, R77). -/
def writeEngine (o : Nat) (v : Word) (s : State) : State :=
  if engineOpen s o then
    let s1 := rewriteEngine (engSetWord (abandonArm s 0x03) o v) fun a => a == o / 8 * 8
    raise (fput s1 Fld.SCHED_STATUS_MODIFIED 1) Fld.SCHED_EVENT_MODIFIED
  else refusedWrite s

/-- ENGINE_MEM_WRITE (R77): a host write of one word of 0x0030_0000 to 0x0037_FFFF. -/
def execEngineMemWrite (addr : BitVec 32) (v : Word) (s : State) : Host.Outcome State Fault Refusal :=
  let a := addr.toNat
  if 0x300000 ≤ a ∧ a < 0x380000 then .next (writeEngine ((a - 0x300000) / 4 * 4) v s) else .next s

/-- SCHED_CTRL.QDROP_CLR (R96). -/
def clearQdrop (s : State) : State := wr s Reg.SCHED_QDROP 0

/-- QDROP_CLR (R96). -/
def execQdropClr (s : State) : Host.Outcome State Fault Refusal := .next (clearQdrop s)

end Sys2Proof.Machine
end

