-- ==== Sys2Proof/Machine/Round.lean ====
section
/-! DEFINITION. Sys2Proof/Machine/Round.lean: the round boundary (R28) with everything that takes effect at one. -/

namespace Sys2Proof.Machine

/-- The rotation phases advance (R83), the round counter counts (R96) and open records end (R527) while the engine runs. -/
def roundSchedule (s : State) : State :=
  if engineRuns s then
    let ph := Vector.ofFn fun (g : Fin 16) =>
      let d := (s.sched.groups[g.val]?.getD []).length
      let p := s.sched.phase.get g + 1
      if p < d then p else 0
    let s1 := setSched s fun x => { x with
      phase := ph
      openRecs := []
      sinceSwitch := min (x.sinceSwitch + 1) 2 }
    wr s1 Reg.SCHED_ROUNDS (rd s Reg.SCHED_ROUNDS + 1)
  else s

/-- A round boundary has passed since the variant request in hand (R89). -/
def vselRound (s : State) : State := setSched s fun x => { x with vselBoundaries := min (x.vselBoundaries + 1) 2 }

/-- Throttle levels that have been published reach the engine domain (R306). -/
def levelsArrive (s : State) : State :=
  setHk s fun h => { h with atEngine := Vector.ofFn fun c => fget s (levelFld c.val) }

/-- The round boundary of sharing and Capo: sums of the round (R199), and that a boundary has passed since a budget raise (R213). -/
def capoRound (s : State) : State :=
  let s1 := shareRound s
  setCapo s1 fun c => { c with boundarySeen := c.budget.isSome }

/-- ROUND_BOUNDARY (R28): the measured engine clock in kHz and the lock of the analogue PLL are what the monitor sees (R43). -/
def execRoundBoundary (clkKHz : Nat) (pllLocked : Bool) (s : State) : Host.Outcome State Fault Refusal :=
  let s1 := clockMonitor clkKHz pllLocked s
  let s2 := levelsArrive (vselRound (roundSchedule (nextRound s1)))
  let s3 := (List.finRange 64).foldl regionRound (capoRound s2)
  .next (battRound (trimRefs (portsRound (muteRound (levelsApply s3)))))

end Sys2Proof.Machine
end

