-- ==== Sys2Proof/Machine/Seq.lean ====
section
/-! DEFINITION. Sys2Proof/Machine/Seq.lean: the rail sequencer (spec/08), command by command. -/

namespace Sys2Proof.Machine

/-- A host write of SEQ_CMD (R254): both bits set is a reserved encoding; a request acts at the next tick. -/
def writeSeqCmd (v : Word) (s : State) : State :=
  let up := v.getLsbD 0
  let down := v.getLsbD 1
  if up && down then raise s Fld.SEQ_EVENT_CMD_BAD
  else if !seqPowered s then s
  else if up then requestOn s
  else if down then requestOff s
  else s

/-- SEQ_UP (R254): a write of SEQ_CMD with UP = 1. -/
def execSeqUp (v : Word) (s : State) : Host.Outcome State Fault Refusal :=
  if v.getLsbD 0 then .next (writeSeqCmd v s) else .next s

/-- SEQ_DOWN (R254): a write of SEQ_CMD with DOWN = 1. -/
def execSeqDown (v : Word) (s : State) : Host.Outcome State Fault Refusal :=
  if v.getLsbD 1 then .next (writeSeqCmd v s) else .next s

/-- SEQ_DWELL_END (R256): MINOFF has passed since the last power-down, and the power-up begins. -/
def execSeqDwellEnd (s : State) : Host.Outcome State Fault Refusal :=
  if seqPhase s = .dwell ∧ s.seq.downAt + 1000 * fget s Fld.SEQ_CFG_MINOFF ≤ s.tick then .next (beginUp s) else .next s

/-- SEQ_DLY_EXPIRE (R257): SQnnEN rises and the rise window starts; in the tick of an off request the rail stays low (R270). -/
def execSeqDlyExpire (r : Fin 16) (s : State) : Host.Outcome State Fault Refusal :=
  if railState s r = .wait ∧ s.seq.due ≤ s.tick ∧ !s.seq.offNow then
    .next (setSeq (putRail s r .rising) fun x => { x with due := s.tick + 100 * fget s (Fld.SEQ_RTO_RTO r) })
  else .next s

/-- SEQ_RAIL_GOOD (R247, R249, R257): SQnnMON stands as `x` says; a rising
rail whose filtered good result is active inside the window is GOOD. -/
def execSeqRailGood : RailLevel → State → Host.Outcome State Fault Refusal
  | ⟨r, x⟩, s =>
  if railOn s r then
    let s1 := senseRail s r x.mon x.pin x.held
    if railState s r = .rising ∧ goodNow s1 r ∧ s.tick < s.seq.due then .next (takeUp (putRail s1 r .good) (r.val + 1)) else .next s1
  else .next s

/-- A rail that failed to rise (R257, R258): off, in FAULT, recorded; the sequence goes on. -/
def riseFailed (s : State) (r : Fin 16) (code : Nat) : State :=
  let s0 := setRail (putRail s r .fault) r fun x => { x with fault := some (code, false) }
  let s1 := fputBit s0 Fld.SEQ_FLAGS_RISEFAIL r true
  let s2 := raise (setSeq s1 fun x => { x with failed := true }) Fld.SEQ_EVENT_RISEFAIL
  let s3 := report s2 code 1 4 r (stampI s2)
  if seqPhase s3 = .powerup then takeUp s3 (r.val + 1) else s3

/-- SEQ_RISE_TIMEOUT (R257): the rise window ends without a good result, fault 0x0501; an off request that acts in that tick ends the window
without judgement (R260). -/
def execSeqRiseTimeout (r : Fin 16) (s : State) : Host.Outcome State Fault Refusal :=
  if railState s r = .rising ∧ s.seq.due ≤ s.tick ∧ !s.seq.offNow then .next (riseFailed s r 0x0501) else .next s

/-- SEQ_RAIL_OVER (R247, R249, R258): SQnnMON of a native rail stands as `x` says; a rising rail
whose filtered over side is active fails, fault 0x0504. -/
def execSeqRailOver : RailLevel → State → Host.Outcome State Fault Refusal
  | ⟨r, x⟩, s =>
  if railOn s r && railNative s r then
    let s1 := senseRail s r x.mon x.pin x.held
    if railState s r = .rising ∧ overNow s1 r then .next (riseFailed s1 r 0x0504) else .next s1
  else .next s

/-- SEQ_DNDLY_EXPIRE (R259): SQnnEN falls and the fall window starts. -/
def execSeqDndlyExpire (r : Fin 16) (s : State) : Host.Outcome State Fault Refusal :=
  if railState s r = .predown ∧ s.seq.due ≤ s.tick then
    .next (setSeq (putRail s r .falling) fun x => { x with due := s.tick + 100 * fget s (Fld.SEQ_RTO_FTO r) })
  else .next s

/-- SEQ_RAIL_FALLEN (R247, R249, R259): SQnnMON stands as `x` says; a
falling rail whose filtered fallen result is active inside the window is OFF. -/
def execSeqRailFallen : RailLevel → State → Host.Outcome State Fault Refusal
  | ⟨r, x⟩, s =>
  if railOn s r then
    let s1 := senseRail s r x.mon x.pin x.held
    if railState s r = .falling ∧ fallenNow s1 r ∧ s.tick < s.seq.due then .next (takeDown (putRail s1 r .off) r.val) else .next s1
  else .next s

/-- SEQ_FALL_TIMEOUT (R259): the fall window ends, fault 0x0502; the rail is OFF and the next one is taken. -/
def execSeqFallTimeout (r : Fin 16) (s : State) : Host.Outcome State Fault Refusal :=
  if railState s r = .falling ∧ s.seq.due ≤ s.tick then
    let s1 := raise (fputBit (putRail s r .off) Fld.SEQ_FLAGS_FALLFAIL r true) Fld.SEQ_EVENT_FALLFAIL
    let s2 := report s1 0x0502 0 0 0 (stampI s1)
    .next (takeDown s2 r.val)
  else .next s

/-- A rail has collapsed out of turn (R261, R262): off, in FAULT; a PREDOWN rail that the power-down had taken counts as judged. -/
def railCollapsed (s : State) (r : Fin 16) : State :=
  let st := railState s r
  let code := if overNow s r then 0x0504 else 0x0503
  let crit := bit s (Fld.SEQ_RCFG_CRIT r)
  let s1 := setRail (putRail s r .fault) r fun x => { x with fault := some (code, crit) }
  let s2 := raise s1 Fld.SEQ_EVENT_COLLAPSE
  let s3 := if crit then report s2 code 2 0 0 (stampI s2) else report s2 code 1 4 r (stampI s2)
  if st = .predown ∧ fget s Fld.SEQ_STATUS_CUR = r.val ∧ seqPhase s = .powerdown ∧ fget s3 Fld.SEQ_STATUS_CUR = r.val then
    takeDown s3 r.val
  else s3

/-- SEQ_RAIL_COLLAPSE (R247, R249, R261, R262): SQnnMON stands as `x` says; a GOOD or PREDOWN rail whose filtered good result becomes inactive has collapsed. -/
def execSeqRailCollapse (r : Fin 16) (x : RailSense) (s : State) : Host.Outcome State Fault Refusal :=
  if railOn s r then
    let s1 := senseRail s r x.mon x.pin x.held
    let st := railState s r
    if (st = .good ∨ st = .predown) ∧ (railOf s1 r).wasGood ∧ !goodNow s1 r then .next (railCollapsed s1 r) else .next s1
  else .next s

/-- SEQ_CTRL.CNT_CLR (R272). -/
def clearSeqCnt (s : State) : State := wr s Reg.SEQ_CNT 0

/-- SEQ_CNT_CLR (R272). -/
def execSeqCntClr (s : State) : Host.Outcome State Fault Refusal := .next (clearSeqCnt s)

/-- A rail whose fault is cleared is OFF, or stays UNUSED (R263, R392). -/
def freeRail (s : State) (r : Fin 16) : State :=
  let s1 := setRail s r fun x => { x with fault := none }
  if railState s r = .fault then putRail s1 r .off else s1

/-- A rail whose contained fault entries are all cleared (R263, R392). -/
def clearRailFault (s : State) (r : Fin 16) : State :=
  let more := (validEntries s).any fun e =>
    fget s (Fld.FAULT_ENTRY_CODE_KIND e) == 4 && fget s (Fld.FAULT_ENTRY_CODE_INDEX e) == r.val
  if more then s else freeRail s r

/-- The rails that a fatal fault of this code holds (R261). -/
def fatalRails (s : State) (code : Nat) : List (Fin 16) :=
  (List.finRange 16).filter fun r => (railOf s r).fault == some (code, true)

end Sys2Proof.Machine
end

