-- ==== Sys2Proof/Machine/Faults.lean ====
section
/-! DEFINITION. Sys2Proof/Machine/Faults.lean: clearing of standing entries (R391, R392), ALIVE (R394), the host watchdog
(R395 to R402) and the firmware watchdog (R403). -/

namespace Sys2Proof.Machine

/-- The fault block's own data changed. -/
def setFlt (s : State) (f : FaultSt → FaultSt) : State := { s with fault := f s.fault }

/-! ### When the cause of a fault is gone (R391) -/

/-- The used ports that a scope covers (R387). -/
def coveredPorts (s : State) (kind idx : Nat) : List (Fin 32) :=
  (List.finRange 32).filter fun p => portUsed s p && scopeCoversPort s kind idx p

/-- PnnFLT of port `p` has been inactive for FLT_FILT frets since PnnEN went low (R121). -/
def driverGone (s : State) (p : Fin 32) : Bool :=
  let x := s.ports.get p
  !bit s (Fld.PORT_DRV_FLT_USE p) ||
    (!fltActive s p && decide (max x.fltFrom x.enLowAt + fget s (Fld.PORT_DRV_FLT_FILT p) ≤ s.time.base))

/-- The ACTION whose faults have this scope (R173). -/
def actionOfKind (kind : Nat) : Nat := match kind with | 1 => 2 | 2 => 3 | _ => 4

/-- Both filtered outputs of comparator `c` are inactive on every covered port whose ACTION raises a fault of this scope and whose latch of
that side is set: those comparators are the fault's (R173, R174). -/
def latchGone (s : State) (kind idx : Nat) (c : Fin 4) (hiSide : Bool) : Bool :=
  (coveredPorts s kind idx).all fun p =>
    fget s (Fld.CMP_CFG_ACTION p c) != actionOfKind kind || !bit s (latFld p c hiSide) ||
      (!filterPasses s p c true (absFret s 0) && !filterPasses s p c false (absFret s 0))

/-- SQnnEN is low and the filtered fallen result active (R263). -/
def railGone (s : State) (r : Fin 16) : Bool := !bit s (Fld.SEQ_RSTAT_EN r) && fallenNow s r

/-- The groups a fatal 0x0702 can come from (R305). -/
def fatalGroups (s : State) : List (Fin 8) := (List.finRange 8).filter fun g => hget s (Fld.HK_G_CFG_FATAL g) != 0

/-- The cause of a fault is gone (R391). A code raised by a single event, and one
whose condition its report ends, has its cause gone at once. -/
def causeGone (s : State) (code kind idx : Nat) : Bool :=
  if code = 0x0101 then (coveredPorts s kind idx).all (driverGone s)
  else if code = 0x0104 then (s.test.adcRun.toList.getD idx 0) == 0
  else if 0x0120 ≤ code ∧ code ≤ 0x0127 then
    latchGone s kind idx (Fin.ofNat 4 ((code - 0x0120) / 2)) (code % 2 == 0)
  else if code = 0x0307 then !s.time.clkBad
  else if code = 0x0308 then !s.time.pllBad
  else if code = 0x0309 then !s.power.xtalBad
  else if code = 0x0401 ∨ code = 0x0403 then !bit s (Fld.FEED_STATUS_G idx) && !bit s (Fld.FEED_STATUS_PC idx)
  else if code = 0x0404 then shortGone s (Fin.ofNat 8 idx)
  else if 0x0501 ≤ code ∧ code ≤ 0x0504 then
    if kind = 4 then railGone s (Fin.ofNat 16 idx) else (fatalRails s code).all (railGone s)
  else if code = 0x0601 then battPresent s (Fin.ofNat 2 idx)
  else if code = 0x0702 then
    if kind = 6 then !s.hk.hotFault.get (Fin.ofNat 8 idx) else (fatalGroups s).all fun g => !s.hk.hotFault.get g
  else if code = 0x0707 then !(s.power.vioLow.get 0 || s.power.vioLow.get 1 || s.power.vioLow.get 2)
  else if code = 0x0A08 then !s.fault.fwdBad
  else if code = 0x0B02 then s.test.badEng.isEmpty
  else if code = 0x0B03 then s.test.badCore.isEmpty
  else true

/-- Code, class, kind, index of entry `e`. -/
def entryOf (s : State) (e : Nat) : Nat × Nat × Nat × Nat :=
  (fget s (Fld.FAULT_ENTRY_CODE_CODE e), fget s (Fld.FAULT_ENTRY_CODE_CLASS e),
    fget s (Fld.FAULT_ENTRY_CODE_KIND e), fget s (Fld.FAULT_ENTRY_CODE_INDEX e))

/-- GONE of entry `e` (R391). -/
def entryGone (s : State) (e : Nat) : Bool :=
  let x := entryOf s e
  causeGone s x.1 x.2.2.1 x.2.2.2

/-! ### Clearing (R392) -/

/-- What the clear of an entry brings back beside its coverage: comparator latches (R174), feeds (R244), rails (R263), the
cold start and charging of a battery (R286, R287). -/
def afterClear (s : State) (code kind idx : Nat) : State :=
  if 0x0120 ≤ code ∧ code ≤ 0x0127 then
    let c : Fin 4 := Fin.ofNat 4 ((code - 0x0120) / 2)
    (coveredPorts s kind idx).foldl (fun s (p : Fin 32) =>
      if fget s (Fld.CMP_CFG_ACTION p c) = actionOfKind kind then clearLatch s p c (code % 2 == 0) else s) s
  else if kind = 3 then clearFeedFault s (Fin.ofNat 8 idx) code
  else if kind = 4 then clearRailFault s (Fin.ofNat 16 idx)
  else if 0x0501 ≤ code ∧ code ≤ 0x0504 then (fatalRails s code).foldl freeRail s
  else if code = 0x0601 then clearBattFault s (Fin.ofNat 2 idx)
  else s

/-- The record of a cleared entry (R392, R414). -/
def clearedRecord (s : State) (e : Nat) : State :=
  let x := entryOf s e
  pushRecord s 3 0 x.1 (stampI s) (mkPayload [(0, 1, 0), (1, 1, x.2.2.1), (2, 1, x.2.2.2), (3, 1, x.2.1),
    (4, 4, fget s (Fld.FAULT_ENTRY_CNT_CNT e)), (8, 8, rd64 s (Reg.FAULT_ENTRY_TS_LO e) (Reg.FAULT_ENTRY_TS_HI e))])

/-- Entry `e` freed: its registers return to their reset values (DESIGN CHOICE, log entry 41). -/
def freeTheEntry (s : State) (e : Nat) : State :=
  wr64 (wr (wr s (Reg.FAULT_ENTRY_CODE e) 0) (Reg.FAULT_ENTRY_CNT e) 0) (Reg.FAULT_ENTRY_TS_LO e) (Reg.FAULT_ENTRY_TS_HI e) 0

/-- Candidate `e` judged and, where its cause is gone, cleared (R392). -/
def clearEntry (s : State) (e : Nat) : State :=
  if !entryValid s e then s
  else if entryGone s e then
    let x := entryOf s e
    let s1 := freeTheEntry (clearedRecord s e) e
    raise (afterClear s1 x.1 x.2.2.1 x.2.2.2) Fld.FAULT_EVENT_CLR_DONE
  else raise s Fld.FAULT_EVENT_CLR_REF

/-- The scope of entry `e` lies in the engine domain: ports and courses (R392). -/
def engineScope (s : State) (e : Nat) : Bool := [1, 2, 5, 6].contains (fget s (Fld.FAULT_ENTRY_CODE_KIND e))

/-- A write of FAULT_CLR names its candidates (R392). -/
def writeFaultClr (v : Word) (s : State) : State :=
  let new := if v.getLsbD 8 then validEntries s else [getBits v 0 6]
  setFlt s fun f => { f with
    candidates := f.candidates ++ (new.filter fun e => !(f.candidates.map Prod.fst).contains e).map fun e => (e, s.tick) }

/-- FAULT_CLR (R392). -/
def execFaultClr (v : Word) (s : State) : Host.Outcome State Fault Refusal := .next (writeFaultClr v s)

/-- The candidate judged now (R392): in the engine domain at a round boundary, otherwise from the tick after the write on. -/
def clearDue (s : State) (engine : Bool) (c : Nat × Nat) : Bool :=
  engineScope s c.1 == engine && (engine || decide (c.2 < s.tick))

/-- FAULT_CLEAR_APPLY (R392, R405): the candidates are judged, those whose scope lies in the engine domain at a round boundary
(`engine`), the others at the next interface tick; `xtal` says whether the 25 MHz crystal runs at that moment (log entry 113). -/
def execFaultClearApply (engine xtal : Bool) (s : State) : Host.Outcome State Fault Refusal :=
  let due := s.fault.candidates.filter (clearDue s engine)
  let s0 := { s with power := { s.power with xtalBad := s.power.xtalBad && !xtal } }
  let s1 := setFlt s0 fun f => { f with candidates := f.candidates.filter fun c => !clearDue s engine c }
  .next (refreshFaultStatus (refreshPorts ((due.map Prod.fst).foldl clearEntry s1)))

/-- FAULT_CTRL.CNT_CLR (R406). -/
def clearFaultCnt (s : State) : State :=
  wr ((List.range 13).foldl (fun s b => wr s (Reg.FAULT_BCNT b) 0) s) Reg.FAULT_HWD_SCNT 0

/-- FAULT_CNT_CLR (R406). -/
def execFaultCntClr (s : State) : Host.Outcome State Fault Refusal := .next (clearFaultCnt s)

/-! ### ALIVE (R394) -/

/-- ALIVE_TOGGLE (R394): a half-period has passed. -/
def execAliveToggle (s : State) : Host.Outcome State Fault Refusal :=
  match s.fault.aliveDue with
  | none => .next s
  | some t =>
    if t ≤ s.tick then
      .next (setFlt (fputB s Fld.FAULT_STATUS_ALIVE (!bit s Fld.FAULT_STATUS_ALIVE)) fun f => { f with
        aliveDue := some (s.tick + aliveHalf s) })
    else .next s

/-! ### The host watchdog (R395 to R402) -/

/-- One step of the question's sequence (R395). -/
def nextQuestion (q : Byte) : Byte :=
  let b : Bool := q.getLsbD 7 ^^ q.getLsbD 5 ^^ q.getLsbD 4 ^^ q.getLsbD 3
  (q <<< 1) ||| (if b then 1 else 0)

/-- Answer byte `i` for the question `q` and the key `k` (R396). -/
def answerByte (q : Byte) (i : Nat) (k : Word) : Byte := crc8Hwd [q, BitVec.ofNat 8 i, wordByte k 0, wordByte k 1]

/-- The check-in counts that a service at this tick sees: check-ins of earlier ticks (R399). -/
def slotCount (s : State) (i : Fin 8) : Nat :=
  min 31 (s.fault.slots.get i + (if s.fault.slotTick < s.tick then s.fault.slotsLater.get i else 0))

/-- The counts after a service or a failure: check-ins of this tick count toward the next (R399). -/
def clearSlots (s : State) : State :=
  setFlt s fun f => { f with
    slots := Vector.replicate 8 0
    slotsLater := if f.slotTick < s.tick then Vector.replicate 8 0 else f.slotsLater }

/-- The enabled slots whose count differs from its expected count, as a mask (R399). -/
def slotErrors (s : State) : Nat :=
  (List.finRange 8).foldl (fun m (i : Fin 8) =>
    if fbit s Fld.FAULT_HWD_CFG_SLOT_EN i && slotCount s i != getBits (rd s Reg.FAULT_HWD_EXP) (4 * i.val) 4 then m + 2 ^ i.val else m) 0

/-- The window reference moved to this tick (R398). -/
def setReference (s : State) : State := setFlt s fun f => { f with hwdRef := s.tick }

/-- The evidence record of a failure (R400, R414): FAILCNT and the reference are those that the failure leaves (DEDUCED: log entry 42). -/
def hwdRecord (s : State) (sev : Nat) : State :=
  pushRecord s 6 sev 0 (stampI s) (mkPayload [(0, 1, 0), (1, 1, fget s Fld.FAULT_HWD_Q_Q), (2, 1, fget s Fld.FAULT_HWD_STAT_FAILCNT),
    (3, 1, fget s Fld.FAULT_HWD_STAT_SLOTERR), (4, 1, fget s Fld.FAULT_HWD_STAT_CAUSE), (8, 4, s.fault.hwdRef - s.resetTick)])

/-- A failure of the host watchdog (R400): `cause` 1 to 4 of faults 0x0A01 to 0x0A04. -/
def hwdFail (s : State) (cause err : Nat) : State :=
  let old := fget s Fld.FAULT_HWD_STAT_FAILCNT
  let new := min (old + 1) 7
  let th := fget s Fld.FAULT_HWD_CFG_FAILTH
  let escalates := th != 0 && decide (old < th) && decide (th ≤ new)
  let s1 := fput (fput (fput s Fld.FAULT_HWD_STAT_FAILCNT new) Fld.FAULT_HWD_STAT_CAUSE cause) Fld.FAULT_HWD_STAT_SLOTERR err
  let s2 := fput (setReference (clearSlots s1)) Fld.FAULT_HWD_Q_NEXT 0
  let s3 := hwdRecord (raise s2 Fld.FAULT_EVENT_HWD_FAIL) (if escalates then 3 else 1)
  let s4 := reportCorrected s3 (0x0A00 + cause) (stampI s3)
  if escalates then report s4 0x0A05 2 0 0 (stampI s4) else s4

/-- A good service (R397). -/
def hwdGood (s : State) : State :=
  let s1 := fput s Fld.FAULT_HWD_Q_Q (nextQuestion (BitVec.ofNat 8 (fget s Fld.FAULT_HWD_Q_Q))).toNat
  let s2 := fput (fput (setReference (clearSlots s1)) Fld.FAULT_HWD_Q_NEXT 0) Fld.FAULT_HWD_STAT_FAILCNT 0
  raise (inc s2 Fld.FAULT_HWD_SCNT_SCNT) Fld.FAULT_EVENT_HWD_OK

/-- The judgement at the service time (R397, R399). -/
def hwdService (s : State) : State :=
  if s.tick < s.fault.hwdRef + fget s Fld.FAULT_HWD_OPEN_OPEN then hwdFail s 2 0
  else if slotErrors s != 0 then hwdFail s 4 (slotErrors s)
  else hwdGood s

/-- An answer byte belongs to a late service: written in the tick in which the window closed, or after it (R398). -/
def hwdLate (s : State) : Bool :=
  s.fault.hwdTick == some s.tick || decide (s.fault.hwdRef + fget s Fld.FAULT_HWD_CLOSE_CLOSE ≤ s.tick)

/-- The host watchdog stands still: disabled, or frozen in a host-service pause (R401, R403, R450). -/
def hwdStopped (s : State) : Bool := !bit s Fld.FAULT_HWD_CTRL_EN || s.trust.pause.isSome

/-- A write of FAULT_HWD_ANS (R396 to R398, R401). -/
def writeHwdAns (v : Word) (s : State) : State :=
  let i := getBits v 8 2
  if hwdStopped s || hwdLate s then s
  else if i ≠ fget s Fld.FAULT_HWD_Q_NEXT ∨
      wordByte v 0 ≠ answerByte (BitVec.ofNat 8 (fget s Fld.FAULT_HWD_Q_Q)) i (rd s Reg.FAULT_HWD_TOKKEY) then hwdFail s 3 0
  else if i = 3 then hwdService s
  else fput s Fld.FAULT_HWD_Q_NEXT (i + 1)

/-- HWD_ANS (R396). -/
def execHwdAns (v : Word) (s : State) : Host.Outcome State Fault Refusal := .next (writeHwdAns v s)

/-- HWD_CLOSE_EXPIRE (R398): the tick reference + CLOSE begins without a good service. -/
def execHwdCloseExpire (s : State) : Host.Outcome State Fault Refusal :=
  if !hwdStopped s ∧ s.fault.hwdRef + fget s Fld.FAULT_HWD_CLOSE_CLOSE ≤ s.tick then
    .next (setFlt (hwdFail s 1 0) fun f => { f with hwdTick := some s.tick })
  else .next s

/-- A write of FAULT_HWD_CHECKIN (R399, R401). -/
def writeHwdCheckin (v : Word) (s : State) : State :=
  if !bit s Fld.FAULT_HWD_CTRL_EN then s
  else
    let i : Fin 8 := Fin.ofNat 8 (getBits v 0 3)
    let s1 := if s.fault.slotTick < s.tick then setFlt s fun f => { f with
        slots := Vector.ofFn fun k => min 31 (f.slots.get k + f.slotsLater.get k)
        slotsLater := Vector.replicate 8 0
        slotTick := s.tick }
      else s
    setFlt s1 fun f => { f with slotsLater := upd f.slotsLater i fun n => min 31 (n + 1) }

/-- HWD_CHECKIN (R399). -/
def execHwdCheckin (v : Word) (s : State) : Host.Outcome State Fault Refusal := .next (writeHwdCheckin v s)

/-- The enable of the host watchdog, or its refusal (R401); it changes nothing while EN is 1 (DEDUCED, log entry 43). -/
def hwdEnable (s : State) : State :=
  let o := fget s Fld.FAULT_HWD_OPEN_OPEN
  let c := fget s Fld.FAULT_HWD_CLOSE_CLOSE
  if bit s Fld.FAULT_HWD_CTRL_EN then s
  else if c ≤ o ∨ c = 0 ∨ fget s Fld.FAULT_HWD_CFG_SEED = 0 then reportCorrected s 0x0A06 (stampI s)
  else
    let s1 := fput (fput s Fld.FAULT_HWD_CTRL_EN 1) Fld.FAULT_HWD_Q_Q (fget s Fld.FAULT_HWD_CFG_SEED)
    setReference (setFlt (fput s1 Fld.FAULT_HWD_Q_NEXT 0) fun f => { f with
      slots := Vector.replicate 8 0, slotsLater := Vector.replicate 8 0, slotTick := s.tick, hwdTick := none })

/-- A write of FAULT_HWD_CTRL (R401, R402): a 0 has no effect. -/
def writeHwdCtrl (v : Word) (s : State) : State :=
  let s1 := if v.getLsbD 0 then hwdEnable s else s
  if v.getLsbD 1 then fput s1 Fld.FAULT_HWD_CTRL_HWD_LOCK 1 else s1

/-- HWD_ENABLE (R401). -/
def execHwdEnable (s : State) : Host.Outcome State Fault Refusal := .next (writeHwdCtrl 1 s)

/-- HWD_LOCK (R402). -/
def execHwdLock (s : State) : Host.Outcome State Fault Refusal := .next (writeHwdCtrl 2 s)

/-- The key sequence discarded, with fault 0x0A06 (R402). -/
def keyRefused (s : State) : State :=
  reportCorrected (setFlt s fun f => { f with keyAt := none }) 0x0A06 (stampI s)

/-- A write of FAULT_HWD_KEY (R402). -/
def writeHwdKey (v : Word) (s : State) : State :=
  let k := getBits v 0 16
  if bit s Fld.FAULT_HWD_CTRL_HWD_LOCK then keyRefused s
  else
    match s.fault.keyAt with
    | none => if k = 0x4F55 then setFlt s fun f => { f with keyAt := some s.tick } else keyRefused s
    | some t =>
      if k = 0x564E ∧ s.tick < t + 32 then
        fput (fput (setFlt s fun f => { f with
          keyAt := none, slots := Vector.replicate 8 0, slotsLater := Vector.replicate 8 0 }) Fld.FAULT_HWD_CTRL_EN 0)
          Fld.FAULT_HWD_Q_NEXT 0
      else keyRefused s

/-- HWD_KEY (R402). -/
def execHwdKey (v : Word) (s : State) : Host.Outcome State Fault Refusal := .next (writeHwdKey v s)

/-- ELAPSED of FAULT_HWD_TIME (R406); 0 while the watchdog is disabled (DESIGN CHOICE, log entry 44). -/
def hwdElapsed (s : State) : Nat :=
  if bit s Fld.FAULT_HWD_CTRL_EN then min (s.tick - s.fault.hwdRef) (2 ^ 24 - 1) else 0

/-! ### The firmware watchdog (R403) -/

/-- FWD_EXPIRE (R403): the firmware watchdog expires with the core at `pc`; `last` is the stamp of its last good service. A core that
a debugger has halted freezes it, and a core that is stopped in a host-service pause does not run it (R450). -/
def execFwdExpire (pc : Word) (last : BitVec 64) (s : State) : Host.Outcome State Fault Refusal :=
  if bit s Fld.FAULT_FWD_STAT_FROZEN || s.trust.pause.isSome then .next s
  else
    let s1 := wr64 (wr s Reg.FAULT_FWD_PC pc) Reg.FAULT_FWD_TS_LO Reg.FAULT_FWD_TS_HI last.toNat
    let s2 := setFlt (raise (fput s1 Fld.FAULT_FWD_STAT_EXPIRED 1) Fld.FAULT_EVENT_FWD_EXP) fun f => { f with
      fwdBad := true }
    let s3 := pushRecord s2 6 3 0 (stampI s2) (mkPayload [(0, 1, 1), (8, 4, pc.toNat), (12, 8, last.toNat)])
    let s4 := { s3 with trust := { s3.trust with pause := some (s.tick, false) } }
    .next (report (ledgerAdd s4 0xFC 1) 0x0A08 2 0 0 (stampI s4))

end Sys2Proof.Machine
end

