-- ==== Sys2Proof/Machine/HarnLink.lean ====
section
/-! DEFINITION. Sys2Proof/Machine/HarnLink.lean: the Harness chain (spec/11): links and rings, enumeration and hop delay,
routing of received frames, NAK, roles, TUNING and BUDGET, the host frame path. -/

namespace Sys2Proof

/-! ### Frames as words (R319) -/

/-- Word `n` of a received frame. -/
def RxFrame.word (x : RxFrame) (n : Nat) : Word := x.words.getD n 0

/-- The fields of a received frame (R319): the payload lies between W2 and the CRC. -/
def RxFrame.frame (x : RxFrame) : Frame :=
  ⟨Machine.getBits (x.word 0) 16 16, Machine.getBits (x.word 0) 0 16, Machine.getBits (x.word 1) 24 8, Machine.getBits (x.word 1) 0 16,
    Machine.getBits (x.word 2) 24 8, Machine.getBits (x.word 2) 16 8, Machine.getBits (x.word 2) 0 16, (x.words.drop 3).dropLast⟩

/-- The checks of R321 orders 1 and 2 but for the ABORT: no code error, a CRC that fits, and LEN that equals the words received. -/
def RxFrame.good (x : RxFrame) : Bool :=
  !x.codeBad && decide (4 ≤ x.words.length) && x.words.getLast? == some (Machine.wordsCrc x.words.dropLast) &&
    Machine.getBits (x.word 1) 16 8 + 4 == x.words.length

end Sys2Proof

namespace Sys2Proof.Machine

/-- A frame as it arrives from a sender that forms it under R319, over a link without an error. -/
def received (f : Frame) : RxFrame := ⟨frameHead f ++ f.payload ++ [frameCrc f], false, false⟩

/-- Bit `n` of the FLAGS of a frame (R320). -/
def flagOf (f : Frame) (n : Nat) : Bool := f.flags.testBit n

/-- TYPE is known and the reserved FLAGS bits are 0 (R320, R321 order 3). -/
def typeOk (f : Frame) : Bool := decide (1 ≤ f.typ) && decide (f.typ ≤ 9) && decide (f.flags < 8)

/-- Word `n` of a payload. -/
def payWord (f : Frame) (n : Nat) : Word := f.payload.getD n 0

/-! ### Counters and NAK (R321, R323, R328) -/

/-- A frame dropped at port `p`: counted, with event and fault 0x0803 (R328). -/
def dropFrame (s : State) (p : HPort) : State :=
  let s1 := raise (inc s (Fld.HARNESS_PCNT_DROP_CNT p.idx)) Fld.HARNESS_EVENT_DROP
  reportCorrected s1 0x0803 (stampI s1)

/-- A frame with a CRC or code error at port `p` (R321 order 1). -/
def badFrame (s : State) (p : HPort) : State :=
  let s1 := inc s (Fld.HARNESS_PCNT_CRC_CNT p.idx)
  reportCorrected s1 0x0802 (stampI s1)

/-- A NAK for a refused frame, where R323 allows one and a route leads to its source; counted when it is sent. -/
def sendNak (s : State) (cause : Nat) (f : Frame) : State :=
  if f.typ = 9 ∨ f.dest = 0xFFFF ∨ f.src = 0 then s
  else
    let n : Frame := ⟨f.src, ownAddr s, 9, ownEpoch s, 0xFF, f.seq, 0, BitVec.ofNat 32 cause :: frameHead f⟩
    if maySend s f.src then inc (sendOwn s 3 n) Fld.HARNESS_NCNT_NAK_CNT else s

/-! ### Forwarding (R317, R322, R325 to R328) -/

/-- The device forwards frames: in the running states, in BOOT, and while RST_N alone holds it in reset with the
25 MHz crystal running (R317). -/
def harnForwards (s : State) : Bool :=
  match devState s with
  | .hibernate => false
  | .off => s.power.holdRstn && !s.power.holdVsup && !s.power.xtalBad
  | _ => true

/-- The device consumes frames (R317): not while it is held in reset. -/
def harnConsumes (s : State) : Bool := harnForwards s && devState s != .off

/-- The device has an address (R324). -/
def assigned (s : State) : Bool := ownAddr s != 0

/-- The copies of a received frame put on their outputs (R326 to R328): a copy whose output is idle leaves at once; the others wait in the
buffer of the input, which holds the frame once, or are dropped with it for want of room. -/
def forwardCopies (s : State) (from_ : HPort) (f : Frame) (copies : List (HPort × Frame)) : State :=
  if copies.isEmpty then s else
  let s0 := setHarn s fun h => { h with rxNo := h.rxNo + 1 }
  let open_ := copies.filter fun c => outOpen s c.1
  let put := fun (s : State) (c : HPort × Frame) => sendOn s c.1 (framePrio f) (some from_) c.2
  let s1 := (open_.filter fun c => mayTransmit s c.1 (framePrio f)).foldl put s0
  let late := open_.filter fun c => !mayTransmit s c.1 (framePrio f)
  if late.isEmpty then s1
  else if frameWords f ≤ bufferFree s from_ then syncPause (late.foldl put s1) from_
  else dropFrame s1 from_

/-- The outgoing copy of a frame whose tail fails ends with ABORT (R322): the copies that had left cut-through, `crc` the word that came
last. -/
def abortOn (s : State) (f : Frame) (crc : Word) (p : HPort) : State :=
  if !outOpen s p || !mayTransmit s p (framePrio f) then s
  else setHarn s fun h => { h with tx := h.tx ++ [TxItem.frame p f crc true] }

/-- Where a received frame goes (R325): consumed here, and the outputs it is forwarded to; `lost` says that it has no route. -/
structure Route where
  here : Bool
  outs : List HPort
  lost : Bool
  deriving DecidableEq, Repr

/-- The other ring port (R340). -/
def otherRing : HPort → HPort
  | .hup => .hdn
  | _ => .hup

/-- A frame is handled as one from the up port: it came on the up port, or it travels a ring in reverse on a ring port
(R325, R341; DEDUCED: log entry 70). -/
def fromAbove (s : State) (p : HPort) (f : Frame) : Bool :=
  some p == upPort s || (flagOf f 0 && bit s Fld.HARNESS_CFG_RING && !isRoot s && p != .hbr)

/-- The ports below, for a frame from above that came on port `p`: every down port that carries it (R325, R331); in reverse or
while SWAPPED only the other ring port (R340, R341). -/
def outsBelow (s : State) (p : HPort) (f : Frame) : List HPort :=
  if some p != upPort s || flagOf f 0 || bit s Fld.HARNESS_STATUS_SWAPPED then [otherRing p]
  else (downPorts s).filter fun q => q != p

/-- The route of a frame that is not ENUM (R325, R334, R340, R344). -/
def routeOf (s : State) (p : HPort) (f : Frame) : Route :=
  let up := match upPort s with | some q => [q] | none => []
  let none_ : Route := ⟨false, [], false⟩
  if fromAbove s p f then
    if !assigned s then ⟨false, outsBelow s p f, false⟩
    else if f.dest = ownAddr s then ⟨true, [], false⟩
    else if f.dest = 0xFFFF then ⟨true, outsBelow s p f, false⟩
    else if bit s Fld.HARNESS_STATUS_SWAPPED || flagOf f 0 then ⟨false, [otherRing p], false⟩
    else
      match rangePort s f.dest with
      | some q => if q != p && carriesDown s q then ⟨false, [q], false⟩ else ⟨false, [], true⟩
      | none => ⟨false, [], true⟩
  else if f.typ = 3 ∨ f.typ = 4 ∨ f.typ = 5 then none_
  else if !assigned s then ⟨false, up, false⟩
  else if f.dest = ownAddr s then ⟨true, [], false⟩
  else if f.dest = 0xFFFF then (if isRoot s then ⟨true, downPorts s, false⟩ else ⟨false, up, false⟩)
  else
    match rangePort s f.dest with
    | some q => if (q != p || bothWays s) && carriesDown s q then ⟨false, [q], false⟩
      else if isRoot s then ⟨false, [], true⟩ else ⟨false, up, false⟩
    | none => if isRoot s then ⟨false, [], true⟩ else ⟨false, up, false⟩

/-- A frame that the root has sent comes back to it around the ring (R324, R341): one of its own, or a broadcast that it has sent downward
for another device. In an intact ring nothing else comes on HUP but what a second root sends (R334; DESIGN CHOICE: log entry 158). -/
def returnsHome (s : State) (p : HPort) (f : Frame) : Bool :=
  isRoot s && f.typ != 7 && p != .hbr &&
    ((f.src == ownAddr s && (p == .hup || flagOf f 0)) ||
      (f.dest == 0xFFFF && f.typ != 3 && f.typ != 4 && p == .hup && bit s Fld.HARNESS_STATUS_RINGMODE &&
        !bit s Fld.HARNESS_STATUS_RINGBRK) ||
      (f.dest == 0xFFFF && (p == .hup || flagOf f 0) && bit s Fld.HARNESS_STATUS_RINGMODE && s.harn.resent.contains (f.src, f.seq)))

/-- Second root (R334): TUNING or BUDGET on a port below. -/
def secondRoot (s : State) (p : HPort) (f : Frame) : Bool := (f.typ == 3 || f.typ == 4) && !fromAbove s p f

/-- What a device does to the copy of a frame it forwards: it rewrites TUNING (R337); `late` names the outputs on which the
copy leaves later than R326 allows. -/
def rewritten (s : State) (late : Vector Bool 3) (f : Frame) (q : HPort) : Frame :=
  if f.typ = 3 ∧ f.payload.length = 5 then
    let w1 := payWord f 1
    let acc := payWord f 4 + rd s Reg.HARNESS_LINKDLY + rd s Reg.HARNESS_FWDLAT
    { f with
      payload := [payWord f 0, setBits w1 16 16 (getBits w1 16 16 + 1), payWord f 2, payWord f 3, acc]
      flags := if late.get q.idx then f.flags ||| 2 else f.flags }
  else f

/-- A guard closes when the TUNING has been forwarded (R327). -/
def closeGuard (s : State) (p : HPort) : State :=
  flushPort (setHarn s fun h => { h with guard := upd h.guard p.idx fun _ => false }) p

/-- The copies of a frame that go out by its route: at the root also one in reverse while the ring is broken (R341). -/
def copiesOf (s : State) (p : HPort) (late : Vector Bool 3) (f : Frame) : List (HPort × Frame) :=
  let r := routeOf s p f
  let down := !r.outs.isEmpty || (r.here && f.dest == 0xFFFF)
  r.outs.map (fun q => (q, rewritten s late f q)) ++ (if bothWays s && down then [(.hup, reversed f)] else [])

/-- The root notes a broadcast of another device that it sends downward (R324): it will come back around a ring. -/
def noteResent (s : State) (f : Frame) : State :=
  if isRoot s && f.dest == 0xFFFF && f.src != ownAddr s then setHarn s fun h => { h with resent := (f.src, f.seq) :: h.resent } else s

/-- The forwarding of a frame by its route. -/
def forward (s : State) (p : HPort) (late : Vector Bool 3) (f : Frame) : State :=
  let s1 := noteResent (forwardCopies s p f (copiesOf s p late f)) f
  if f.typ = 3 then (routeOf s p f).outs.foldl closeGuard s1 else s1

/-- What the judgement of R321 leaves to be done with a received frame. -/
inductive Judged where
  /-- nothing more: discarded, dropped or forwarded only -/
  | done (s : State)
  /-- forwarded where it had to be, and consumed here -/
  | consume (s : State)
  deriving Repr

/-- A frame received on port `p`, up to its consumption (R317, R321 orders 1 to 3, R322, R325, R334). Frames for other devices are
routed by W0 alone, whatever their TYPE (DEDUCED: log entry 71). -/
def judgeFrame (s : State) (p : HPort) (late : Vector Bool 3) (x : RxFrame) : Judged :=
  let f := x.frame
  if !outOpen s p || !harnForwards s then .done s
  else if !x.good || x.aborted then
    let s1 := if f.typ = 7 ∨ f.typ = 5 ∨ returnsHome s p f then s
      else (copiesOf s p late f).foldl (fun s c => abortOn s c.2 (x.words.getLast?.getD 0) c.1) s
    .done (if x.aborted then s1 else badFrame s1 p)
  else if returnsHome s p f then .done s
  else if f.typ = 7 then
    (if !harnConsumes s then .done (inc s (Fld.HARNESS_PCNT_DROP_CNT p.idx)) else if typeOk f then .consume s else .done s)
  else if secondRoot s p f then
    .done (if isRoot s && harnConsumes s then
        let s1 := raise s Fld.HARNESS_EVENT_TWO_ROOTS
        reportCorrected s1 0x0805 (stampI s1)
      else s)
  else
    let r := routeOf s p f
    if r.lost then .done (if harnConsumes s then sendNak s 0x04 f else s)
    else
      let s1 := if f.typ = 5 && r.here then s else forward s p late f
      if !r.here then .done s1
      else if !harnConsumes s then .done (inc s1 (Fld.HARNESS_PCNT_DROP_CNT p.idx))
      else if !typeOk f then .done (sendNak s1 0x03 f)
      else .consume s1

/-- The role a frame must carry to be for this device (R331, R333). -/
def ownRole (s : State) : Nat := if isRoot s then 0 else fget s Fld.HARNESS_ROLE_ROLE

/-- The role and epoch check (R333): `none` when the frame passes, else the state after its refusal. -/
def roleRefused (s : State) (f : Frame) : Option State :=
  if f.typ = 7 ∨ f.typ = 8 ∨ f.typ = 2 ∨ f.typ = 9 ∨ f.typ = 3 then none
  else if f.dest = 0xFFFF then
    if f.epoch = ownEpoch s then none else some (inc s Fld.HARNESS_NCNT_ROLE_CNT)
  else if (f.role = ownRole s ∨ f.role = 0xFF) ∧ f.epoch = ownEpoch s then none
  else
    let s1 := inc (sendNak s 0x01 f) Fld.HARNESS_NCNT_ROLE_CNT
    some (reportCorrected s1 0x0804 (stampI s1))

/-- No output is late. -/
def onTime : Vector Bool 3 := Vector.replicate 3 false

/-- A received frame that this row consumes: `mine` says whether its type and content make it the row's, and `act` is what
happens once it has passed R321 and R333; any other frame leaves the state unchanged. -/
def consumeFrame (s : State) (p : HPort) (x : RxFrame) (mine : Frame → Bool) (act : State → Frame → State) : State :=
  if (x.frame.typ == 7 || (routeOf s p x.frame).here) && mine x.frame then
    match judgeFrame s p onTime x with
    | .done t => t
    | .consume t => (match roleRefused t x.frame with | some u => u | none => act t x.frame)
  else s

/-- An ENUM frame with this SUB, its length and no reserved bit set (R329). -/
def enumIs (sub : Nat) (len : Nat) (f : Frame) : Bool :=
  f.typ == 7 && (payWord f 0).toNat == sub && f.payload.length == len

/-- An ENUM frame of R329. -/
def enumKnown (f : Frame) : Bool :=
  enumIs 0x01 3 f || enumIs 0x02 2 f || enumIs 0x03 1 f || enumIs 0x04 1 f || enumIs 0x05 1 f

/-- FRAME_FORWARD (R321, R325): a received frame that no other row consumes: for another device, of an unknown type, or an ENUM frame that
R329 does not know, which is malformed. -/
def execFrameForward (p : HPort) (f : RxFrame) (s : State) : Host.Outcome State Fault Refusal :=
  if enumKnown f.frame ∨ f.frame.typ = 3 ∨ (f.frame.typ ≠ 7 ∧ (routeOf s p f.frame).here ∧ typeOk f.frame) then .next s
  else match judgeFrame s p onTime f with | .done t => .next t | .consume t => .next (sendNak t 0x03 f.frame)

/-! ### Frames for the host (R345) -/

/-- A consumed RSP, EVT or NAK frame written as a record to the receive queue (R345). -/
def toRxQueue (p : HPort) (s : State) (f : Frame) : State :=
  let q := fget s Fld.HARNESS_CFG_RXQ
  if h : q < 64 then
    let r := queueRecord s ⟨q, h⟩ (frameHead f ++ f.payload)
    if r.2 then raise r.1 Fld.HARNESS_EVENT_RX_FRAME else sendNak r.1 0x02 f
  else inc s (Fld.HARNESS_PCNT_DROP_CNT p.idx)

/-- The record of a consumed frame fits the receive queue, where there is one (R321 order 4, R345). -/
def rxFits (s : State) (f : Frame) : Bool :=
  let q := fget s Fld.HARNESS_CFG_RXQ
  if h : q < 64 then decide ((frameHead f ++ f.payload).length ≤ queueFree s ⟨q, h⟩) else true

/-- The root learns of a ring break (R341): from the next cycle boundary it sends both ways. A root with RING = 0 takes no part (R340). -/
def ringBreak (s : State) : State :=
  if isRoot s && bit s Fld.HARNESS_CFG_RING && !bit s Fld.HARNESS_STATUS_RINGBRK then
    let s1 := raise (fput s Fld.HARNESS_STATUS_RINGBRK 1) Fld.HARNESS_EVENT_RING_BRK
    setHarn (reportCorrected s1 0x0806 (stampI s1)) fun h => { h with breakDue := true }
  else s

/-- The root has been told of a break between other devices (R341): the device at its own HDN, the first of that range, tells of the root's
own ring link (DESIGN CHOICE: log entry 158). -/
def farBreak (s : State) (src : Nat) : State :=
  if isRoot s && src != fget s Fld.HARNESS_RANGE_DN_LO then setHarn s fun h => { h with brkFar := true } else s

/-- A consumed RSP, EVT or NAK for the host: its room is judged before its payload (R321 orders 4 and 6). -/
def takeRx (p : HPort) (ok : Frame → Bool) (s : State) (f : Frame) : State :=
  if rxFits s f && !ok f then sendNak s 0x03 f else toRxQueue p s f

/-- The payload of an RSP is well formed (R342): it begins with word 0. -/
def rspOk (f : Frame) : Bool := decide (1 ≤ f.payload.length)

/-- The payload of an EVT is well formed (R343). -/
def evtOk (f : Frame) : Bool := f.payload.length == 3 && getBits (payWord f 0) 18 14 == 0

/-- The payload of a NAK is well formed (R323). -/
def nakOk (f : Frame) : Bool := f.payload.length == 4 && getBits (payWord f 0) 8 24 == 0

/-- RSP_FRAME (R321, R345). -/
def execRspFrame (p : HPort) (f : RxFrame) (s : State) : Host.Outcome State Fault Refusal :=
  .next (consumeFrame s p f (fun x => x.typ == 2) (takeRx p rspOk))

/-- EVT_FRAME (R321, R341, R345): its room is judged before its epoch; one with code 0x0806 tells the root of a ring break. -/
def execEvtFrame (p : HPort) (f : RxFrame) (s : State) : Host.Outcome State Fault Refusal :=
  .next (if f.frame.typ == 6 && (routeOf s p f.frame).here then
      match judgeFrame s p onTime f with
      | .done t => t
      | .consume t =>
        match roleRefused t f.frame with
        | some u => if rxFits t f.frame then u else toRxQueue p t f.frame
        | none =>
          let t1 := takeRx p evtOk t f.frame
          if evtOk f.frame && getBits (payWord f.frame 0) 0 16 == 0x0806 then ringBreak (farBreak t1 f.frame.src) else t1
    else s)

/-- NAK_FRAME (R321, R345). -/
def execNakFrame (p : HPort) (f : RxFrame) (s : State) : Host.Outcome State Fault Refusal :=
  .next (consumeFrame s p f (fun x => x.typ == 9) (takeRx p nakOk))

/-! ### TUNING (R47, R336, R337) -/

/-- The payload of a TUNING is well formed (R336). -/
def tuningOk (f : Frame) : Bool :=
  f.payload.length == 5 && getBits (payWord f 1) 11 5 == 0 && getBits (payWord f 3) 27 5 == 0

/-- The instant in frets at which a TUNING arrived: `sub` × 0.5 ns after the start of fret `fret` (R338). -/
def arrivalFret (s : State) (fret sub : Nat) : Rat :=
  (absFret s fret : Rat) + (sub : Rat) / 2000000000 * s.time.freq * (s.time.cfg.n : Rat)

/-- A TUNING taken by a follower (R47, R54, R321, R337, R338): the source angle at arrival is the root's at emission carried over the path
delay; a DELAYED one counts as valid, and its angle and count are not used. -/
def takeTuning (fret sub : Nat) (s : State) (f : Frame) : State :=
  if !tuningOk f then sendNak s 0x03 f
  else
    let path := payWord f 4 + rd s Reg.HARNESS_LINKDLY
    let freq := (getBits (payWord f 3) 0 27 : Rat) / ((2 ^ 20 : Nat) : Rat)
    let s1 := fput (wr s Reg.HARNESS_PATHDLY path) Fld.HARNESS_STATUS_DEPTH (getBits (payWord f 1) 16 16 + 1)
    let s2 := setTime s1 fun t => { t with tunSeen := true, tunLost := false }
    if flagOf f 1 then s2
    else
      setTime s2 fun t => { t with
        rootCount := (payWord f 0).toNat + getBits (payWord f 1) 0 8 * 2 ^ 32
        harTheta := turns (payWord f 2).toNat + (path.toNat : Rat) / 256 / 1000000000 * freq
        harFreq := freq
        harAt := arrivalFret s fret sub }

/-! ### BUDGET and ROLE (R212, R331, R332) -/

/-- BUDGET_FRAME (R211, R212, R331): searched for this device's entry; a SPARE ignores entries. -/
def execBudgetFrame (p : HPort) (f : RxFrame) (s : State) : Host.Outcome State Fault Refusal :=
  if f.frame.typ = 4 ∧ !(routeOf s p f.frame).here then
    match judgeFrame s p onTime f with | .done t => .next t | .consume _ => .next s
  else
    .next (consumeFrame s p f (fun x => x.typ == 4) fun t x =>
      if x.payload.length % 2 ≠ 1 then sendNak t 0x03 x
      else if ownRole t = 2 then t
      else judgeBudget t x.payload)

/-- An epoch is accepted (R332): it lies ahead of the current one by less than 2^15. -/
def epochOk (cur new : Nat) : Bool := decide ((new + 2 ^ 16 - cur) % 2 ^ 16 < 2 ^ 15)

/-- A response of this device (R342): STATUS, COUNT and TAG in word 0, then the data. In a host-service pause it waits (R450). -/
def sendRsp (s : State) (f : Frame) (status count tag : Nat) (data : List Word) : State :=
  let r : Frame := ⟨f.src, ownAddr s, 2, ownEpoch s, 0xFF, f.seq, 0, BitVec.ofNat 32 (status + count * 2 ^ 8 + tag * 2 ^ 16) :: data⟩
  if s.trust.pause.isSome then setHarn s fun h => { h with heldRsp := h.heldRsp ++ [r] } else sendOwn s 3 r

/-- The first entry after a change of epoch is free of the stamp test (R212). -/
def epochChanged (s : State) (same : Bool) : State :=
  if same then s else { s with capo := { s.capo with stampFree := true } }

/-- A ROLE frame taken or refused (R332); from any other source than the root address it is not accepted. -/
def takeRole (s : State) (f : Frame) : State :=
  if isRoot s || f.src != fget s Fld.HARNESS_ADDR_ROOTA then s
  else
    let r := (payWord f 0).toNat
    if f.payload.length = 1 ∧ 1 ≤ r ∧ r ≤ 3 ∧ epochOk (fget s Fld.HARNESS_ROLE_EPOCH) f.epoch then
      let same := f.epoch == fget s Fld.HARNESS_ROLE_EPOCH
      let s0 := if r = 2 then abandonArm s 0x05 else s
      let s1 := fput (fput s0 Fld.HARNESS_ROLE_ROLE r) Fld.HARNESS_ROLE_EPOCH f.epoch
      let s2 := setHarn (raise (epochChanged s1 same) Fld.HARNESS_EVENT_ROLE_SET) fun h => { h with assigned := true }
      sendRsp s2 f 0x00 0 0 []
    else sendNak s 0x03 f

/-- ROLE_FRAME (R332). -/
def execRoleFrame (p : HPort) (f : RxFrame) (s : State) : Host.Outcome State Fault Refusal :=
  .next (consumeFrame s p f (fun x => x.typ == 8) takeRole)

/-- A host write of HARNESS_ROOTEPOCH (R332): the root takes the epoch; ignored elsewhere. -/
def writeRootEpoch (v : Word) (s : State) : State :=
  if isRoot s then
    let e := getBits v 0 16
    epochChanged (fput (fput s Fld.HARNESS_ROOTEPOCH_ROOTEPOCH e) Fld.HARNESS_ROLE_EPOCH e) (e == ownEpoch s)
  else s

/-- ROOTEPOCH_WRITE (R332). -/
def execRootepochWrite (v : Word) (s : State) : Host.Outcome State Fault Refusal := .next (writeRootEpoch v s)

/-! ### Hop delay (R335) -/

/-- An ENUM frame of this device on one link (R329). -/
def sendEnum (s : State) (p : HPort) (sub : Nat) (more : List Word) : State :=
  let f : Frame := ⟨0, ownAddr s, 7, 0, 0xFF, s.harn.seq, 0, BitVec.ofNat 32 sub :: more⟩
  nextSeq (sendOn s p 3 none f)

/-- A measurement of the up link begins (R335): eight PROBE frames. -/
def startProbe (s : State) : State :=
  match upPort s with
  | none => s
  | some p =>
    let s1 := setHarn s fun h => { h with probe := some ⟨[]⟩, probeDue := false, probeAt := some s.time.cycleCount }
    (List.range 8).foldl (fun s _ => sendEnum s p 0x03 []) s1

/-- HOP_PROBE_START (R335, R346): in the cycle that matches the address, or to repeat a result that was not accepted; not in a cycle in which
a measurement has begun. -/
def execHopProbeStart (s : State) : Host.Outcome State Fault Refusal :=
  if harnRuns s && s.harn.probe.isNone && s.harn.probeAt != some s.time.cycleCount &&
      (s.harn.probeDue || (assigned s && s.time.cycleCount % 1024 == ownAddr s % 1024)) then .next (startProbe s)
  else .next s

/-- ENUM_PROBE (R335): answered with an ECHO. -/
def execEnumProbe (p : HPort) (f : RxFrame) (s : State) : Host.Outcome State Fault Refusal :=
  .next (consumeFrame s p f (enumIs 0x03 1) fun t _ => sendEnum t p 0x04 [])

/-- ENUM_ECHO (R335): `d` is the value (t4 − t1 − 1000 ns) / 2 in units of 2^−8 ns. -/
def execEnumEcho (p : HPort) (f : RxFrame) (d : Int) (s : State) : Host.Outcome State Fault Refusal :=
  .next (consumeFrame s p f (enumIs 0x04 1) fun t _ =>
    if some p == upPort t then
      setHarn t fun h => { h with probe := h.probe.map fun q => if q.values.length < 8 then ⟨q.values ++ [d]⟩ else q }
    else t)

/-- The mean of a measurement, when it is accepted (R335): eight values that span at most 2 ns, mean in 0 to 1,000 ns. -/
def probeMean (vs : List Int) : Option Nat :=
  let lo := vs.foldl min (vs.headD 0)
  let hi := vs.foldl max (vs.headD 0)
  let sum := vs.foldl (· + ·) 0
  if vs.length = 8 ∧ hi - lo ≤ 512 ∧ 0 ≤ sum ∧ sum ≤ 8 * 256000 then some (sum / 8).toNat else none

/-- HOP_PROBE_DONE (R335): the measurement is judged; `lat` is the own latency found by the internal loopback. -/
def execHopProbeDone (lat : BitVec 16) (s : State) : Host.Outcome State Fault Refusal :=
  match s.harn.probe with
  | none => .next s
  | some q =>
    let s1 := fput (setHarn s fun h => { h with probe := none }) Fld.HARNESS_FWDLAT_FWDLAT lat.toNat
    match probeMean q.values with
    | some m =>
      .next (setHarn (fput (fput s1 Fld.HARNESS_LINKDLY_LINKDLY m) Fld.HARNESS_STATUS_DELAY_VALID 1) fun h => { h with badProbes := 0 })
    | none =>
      if 3 ≤ s.harn.badProbes then
        let s2 := raise (setHarn s1 fun h => { h with badProbes := 0 }) Fld.HARNESS_EVENT_DELAY_BAD
        .next (reportCorrected s2 0x0807 (stampI s2))
      else .next (setHarn s1 fun h => { h with badProbes := h.badProbes + 1, probeDue := true })

/-- HARNESS_CTRL.REPROBE (R335). -/
def harnReprobe (s : State) : State := startProbe s

/-- HARNESS_REPROBE (R335). -/
def execHarnessReprobe (s : State) : Host.Outcome State Fault Refusal := .next (harnReprobe s)

/-! ### Enumeration (R329, R330) -/

/-- The range of a down port (R330). -/
def putRange (s : State) (p : HPort) (lo hi : Nat) : State :=
  if p == .hbr then fput (fput s Fld.HARNESS_RANGE_BR_LO lo) Fld.HARNESS_RANGE_BR_HI hi
  else fput (fput s Fld.HARNESS_RANGE_DN_LO lo) Fld.HARNESS_RANGE_DN_HI hi

/-- An empty range, as after reset (R348). -/
def emptyRange (s : State) (p : HPort) : State := putRange s p 0xFFFF 0

/-- Enumeration ends here (R329): DONE on the up port, or ENUM_DONE at the root; 0x0808 when the addresses ran out (R330). -/
def enumEnd (s : State) (next : Nat) : State :=
  let s1 := fput (setHarn s fun h => { h with enum := none }) Fld.HARNESS_STATUS_ENUM_BUSY 0
  match upPort s1 with
  | some p => sendEnum s1 p 0x02 [BitVec.ofNat 32 (next - 1)]
  | none =>
    let s2 := raise s1 Fld.HARNESS_EVENT_ENUM_DONE
    if 0xFFFF ≤ next then reportCorrected s2 0x0808 (stampI s2) else s2

/-- The next port of the loop of R329 is taken, from the ports that remain. -/
def enumLoop (s : State) (next : Nat) : List HPort → State
  | [] => enumEnd s next
  | p :: ps =>
    if linkUp s p && decide (next < 0xFFFF) && some p != upPort s then
      let s1 := setHarn s fun h => { h with enum := some ⟨next, some p⟩ }
      sendEnum s1 p 0x01 [BitVec.ofNat 32 next, BitVec.ofNat 32 (fget s Fld.HARNESS_ADDR_ROOTA)]
    else enumLoop (emptyRange s p) next ps

/-- The ports of the loop that follow port `p`. -/
def portsAfter : HPort → List HPort
  | .hdn => [.hbr]
  | _ => []

/-- The device takes an address and starts the enumeration of its subtree (R329, R330). -/
def takeAddress (s : State) (a root : Nat) : State :=
  let changed := a != ownAddr s
  let s1 := fput (fput s Fld.HARNESS_ADDR_ADDR a) Fld.HARNESS_ADDR_ROOTA root
  let s2 := fput (fput s1 Fld.HARNESS_STATUS_ENUMERATED 1) Fld.HARNESS_STATUS_ENUM_BUSY 1
  let s3 := if changed then raise s2 Fld.HARNESS_EVENT_ADDR_SET else s2
  enumLoop (startProbe s3) (a + 1) [.hdn, .hbr]

/-- The root starts an enumeration (R329, R341): the form for a broken ring ends. -/
def startEnum (s : State) : State :=
  if bit s Fld.HARNESS_CFG_ROOT then
    let s1 := fput (fput (setUpPort s 3) Fld.HARNESS_STATUS_RINGMODE 0) Fld.HARNESS_STATUS_RINGBRK 0
    let a := fget s Fld.HARNESS_CFG_ROOT_ADDR
    takeAddress (fput s1 Fld.HARNESS_STATUS_DEPTH 0) a a
  else s

/-- HARNESS_ENUM (R329). -/
def execHarnessEnum (s : State) : Host.Outcome State Fault Refusal := .next (startEnum s)

/-- UPPORT for a port of receipt (R348); HBR cannot be one. -/
def upCode : HPort → Nat
  | .hup => 0
  | _ => 1

/-- An ASSIGN has come around the ring: every ring link is up again after a break elsewhere (R341; DESIGN CHOICE: log entry 158). -/
def healFar (s : State) : State :=
  if s.harn.brkFar then raise (setHarn s fun h => { h with brkFar := false }) Fld.HARNESS_EVENT_RING_HEAL else s

/-- An ASSIGN taken (R329, R330): the root answers RING on HUP. -/
def takeAssign (p : HPort) (s : State) (f : Frame) : State :=
  if bit s Fld.HARNESS_CFG_ROOT then
    if p == .hup then healFar (fput (sendEnum s p 0x05 []) Fld.HARNESS_STATUS_RINGMODE 1) else s
  else if p == .hbr then s
  else
    takeAddress (fput (setUpPort s (upCode p)) Fld.HARNESS_STATUS_SWAPPED 0) (getBits (payWord f 1) 0 16) (getBits (payWord f 2) 0 16)

/-- ENUM_ASSIGN (R329). -/
def execEnumAssign (p : HPort) (f : RxFrame) (s : State) : Host.Outcome State Fault Refusal :=
  .next (consumeFrame s p f (enumIs 0x01 3) (takeAssign p))

/-- The port whose subtree is taken answers: `last` is the last address used, none for an empty range (R329). -/
def enumAnswer (p : HPort) (last : Option Nat) (s : State) : State :=
  match s.harn.enum with
  | some ⟨next, some q⟩ =>
    if q = p then
      match last with
      | some l => enumLoop (putRange s p next l) (l + 1) (portsAfter p)
      | none => enumLoop (emptyRange s p) next (portsAfter p)
    else s
  | _ => s

/-- ENUM_DONE (R329). -/
def execEnumDone (p : HPort) (f : RxFrame) (s : State) : Host.Outcome State Fault Refusal :=
  .next (consumeFrame s p f (enumIs 0x02 2) fun t x => enumAnswer p (some (getBits (payWord x 1) 0 16)) t)

/-- ENUM_RING (R330). -/
def execEnumRing (p : HPort) (f : RxFrame) (s : State) : Host.Outcome State Fault Refusal :=
  .next (consumeFrame s p f (enumIs 0x05 1) fun t _ => enumAnswer p none t)

/-! ### Links and rings (R316, R340, R341) -/

/-- The status bit of a link. -/
def putLink (s : State) (p : HPort) (b : Bool) : State :=
  raise (match p with
    | .hup => fputB s Fld.HARNESS_STATUS_LINK_UP b
    | .hdn => fputB s Fld.HARNESS_STATUS_LINK_DN b
    | .hbr => fputB s Fld.HARNESS_STATUS_LINK_BR b) Fld.HARNESS_EVENT_LINK_CHG

/-- The device is powered so that its links run (R316). -/
def linksRun (s : State) : Bool := harnForwards s

/-- The ring links of the root are up again, and no break elsewhere stands (R341). -/
def ringHealed (s : State) : State :=
  if isRoot s && bit s Fld.HARNESS_STATUS_RINGBRK && !s.harn.brkFar && linkUp s .hup && linkUp s .hdn then
    raise s Fld.HARNESS_EVENT_RING_HEAL
  else s

/-- HARNESS_LINK_UP (R316, R329, R335, R341). -/
def execHarnessLinkUp (p : HPort) (s : State) : Host.Outcome State Fault Refusal :=
  if !linksRun s || linkUp s p || s.harn.cut.get p.idx then .next s
  else
    let s1 := putLink s p true
    let s2 := if some p == upPort s1 && harnConsumes s1 then startProbe s1 else s1
    let s3 := if p == .hbr then s2 else ringHealed s2
    .next (if bit s3 Fld.HARNESS_CFG_ROOT && bit s3 Fld.HARNESS_CFG_AUTOENUM && harnConsumes s3 then startEnum s3 else s3)

/-- The up link of a ring device is lost (R340): the other ring port becomes the up port, and the root is told. -/
def ringSwap (s : State) : State :=
  match upPort s with
  | none => s
  | some p =>
    let q := otherRing p
    if bit s Fld.HARNESS_CFG_RING && p != .hbr && linkUp s q then
      let s2 := startProbe (fput (setUpPort s (upCode q)) Fld.HARNESS_STATUS_SWAPPED 1)
      let s3 := raise s2 Fld.HARNESS_EVENT_RING_BRK
      let s4 := reportCorrected s3 0x0806 (stampI s3)
      putEvt s4 true (evtFrame s4 0x0806 0 (stampI s4))
    else s

/-- What waits for a port, and what its far end had asked for, is gone with the link; inputs whose buffers it leaves end their pause
(R328). -/
def clearPort (s : State) (p : HPort) : State :=
  let s1 := setHarn s fun h => { h with
    waiting := h.waiting.filter fun w => w.out != p
    paused := upd h.paused p.idx fun _ => false
    asked := upd h.asked p.idx fun _ => false
    guard := upd h.guard p.idx fun _ => false }
  syncTx ((allPorts.filter fun q => q != p && linkUp s1 q).foldl syncPause s1)

/-- A link goes down (R316, R340, R341): fault 0x0801, and what a ring does about it. -/
def linkDown (p : HPort) (s : State) : State :=
  if !linkUp s p then s
  else
    let s1 := clearPort (putLink s p false) p
    let s2 := if harnConsumes s1 then reportCorrected s1 0x0801 (stampI s1) else s1
    let s3 := if some p == upPort s2 then ringSwap s2 else s2
    let s4 := if isRoot s3 && bit s3 Fld.HARNESS_STATUS_RINGMODE && p != .hbr then ringBreak s3 else s3
    enumAnswer p none s4

/-! ### Cut of a link (R490) -/

/-- One port cut or joined again by TEST_HARN.OFF (R490). -/
def cutPort (s : State) (p : HPort) : State :=
  let off := fbit s Fld.TEST_HARN_OFF p.idx.val
  if off && !s.harn.cut.get p.idx then
    setHarn (linkDown p s) fun h => { h with cut := upd h.cut p.idx fun _ => true }
  else if !off then setHarn s fun h => { h with cut := upd h.cut p.idx fun _ => false }
  else s

/-- TEST_HARN.OFF takes effect on these ports. -/
def applyCut (ps : List HPort) (s : State) : State :=
  ps.foldl (fun s p => setTest (cutPort s p) fun t => { t with cutPend := upd t.cutPend p.idx fun _ => false }) s

/-- An RSP of this device waits for an output. -/
def rspWaits (s : State) : Bool := s.harn.waiting.any fun w => w.from_.isNone && w.frame.typ == 2

/-- The cuts that wait for an RSP act once none waits (R490; DEDUCED: log entry 187). -/
def dueCut (s : State) : State :=
  if rspWaits s then s else applyCut (allPorts.filter fun p => s.test.cutPend.get p.idx) s

/-- HARNESS_LINK_DOWN (R316). -/
def execHarnessLinkDown (p : HPort) (s : State) : Host.Outcome State Fault Refusal := .next (dueCut (linkDown p s))

/-! ### Pause and guard (R327, R328) -/

/-- PAUSE_RECEIVED (R328). -/
def execPauseReceived (p : HPort) (s : State) : Host.Outcome State Fault Refusal :=
  if linkUp s p && linksRun s then .next (setHarn s fun h => { h with paused := upd h.paused p.idx fun _ => true }) else .next s

/-- RESUME_RECEIVED (R328). -/
def execResumeReceived (p : HPort) (s : State) : Host.Outcome State Fault Refusal :=
  if linkUp s p && linksRun s then .next (dueCut (flushPort (setHarn s fun h => { h with paused := upd h.paused p.idx fun _ => false }) p))
  else .next s

/-- HARNESS_GUARD_OPEN (R327): GT before the expected arrival of the next TUNING, on a down port. -/
def execHarnessGuardOpen (p : HPort) (s : State) : Host.Outcome State Fault Refusal :=
  if some p != upPort s && linkUp s p then .next (setHarn s fun h => { h with guard := upd h.guard p.idx fun _ => true }) else .next s

/-- HARNESS_GUARD_CLOSE (R327). -/
def execHarnessGuardClose (p : HPort) (s : State) : Host.Outcome State Fault Refusal := .next (dueCut (closeGuard s p))

/-! ### TUNING on its way (R47, R336, R337) -/

/-- TUNING_FRAME (R47, R333, R337): its SOF arrives as `sof` says; `late` names the outputs that were
busy. The root never follows (R49). -/
def execTuningFrame (p : HPort) (f : RxFrame) (sof : Arrival) (late : Vector Bool 3) (s : State) : Host.Outcome State Fault Refusal :=
  if f.frame.typ = 3 then
    match judgeFrame s p late f with
    | .done t => .next (dueCut t)
    | .consume t => .next (dueCut (if isRoot t then t else takeTuning sof.fret sof.sub t f.frame))
  else .next s

/-- TUNING_EMIT (R336): the root's TUNING of this wrap; SOF departs `sub` × 2^−8 ns after the round boundary. -/
def execTuningEmit (sub : Nat) (s : State) : Host.Outcome State Fault Refusal :=
  if isRoot s && s.harn.tuneDue && harnRuns s then
    let adv := ((sub : Rat) / 256 / 1000000000 * s.time.freq * ((2 ^ 32 : Nat) : Rat)).floor.toNat
    let f := ownFrame s 0xFFFF 3 [BitVec.ofNat 32 s.time.cycleCount,
      BitVec.ofNat 32 (s.time.cycleCount / 2 ^ 32 + (fget s Fld.TIME_STATUS_STATE) * 2 ^ 8),
      BitVec.ofNat 32 (angleAt s 0 + adv), BitVec.ofNat 32 (toFreqReg s.time.freq % 2 ^ 27), 0]
    let s1 := sendDown (nextSeq (setHarn s fun h => { h with tuneDue := false })) none f
    .next (dueCut ((downPorts s).foldl closeGuard s1))
  else .next s

/-! ### The host frame path (R345) -/

/-- The frame in HARNESS_TXBUF, with SRC and FLAGS.HOST set by the device (R345). -/
def txFrame (s : State) : Frame :=
  let w := fun (k : Nat) => rd s (Reg.HARNESS_TXBUF k)
  let n := getBits (w 1) 16 8
  ⟨getBits (w 0) 16 16, ownAddr s, getBits (w 1) 24 8, getBits (w 1) 0 16, getBits (w 2) 24 8, getBits (w 2) 16 8,
    getBits (w 2) 0 16 ||| 4, (List.range n).map fun k => w (3 + k)⟩

/-- The host frame is refused (R345). -/
def txRefused (s : State) (f : Frame) : Bool :=
  f.typ == 3 || f.typ == 7 || ((f.typ == 8 || f.typ == 4) && !isRoot s) ||
    (f.dest == 0xFFFF && f.typ != 1 && f.typ != 6 && !isRoot s) || !decide (f.flags < 8)

/-- HARNESS_CTRL.TX_GO (R345). -/
def harnTxGo (s : State) : State :=
  if bit s Fld.HARNESS_TXSTAT_BUSY then s
  else
    let f := txFrame s
    let s1 := fput (fput s Fld.HARNESS_TXSTAT_SENT 0) Fld.HARNESS_TXSTAT_REFUSED 0
    if txRefused s f then raise (fput s1 Fld.HARNESS_TXSTAT_REFUSED 1) Fld.HARNESS_EVENT_TX_DONE
    else syncTx (sendOwn (fput s1 Fld.HARNESS_TXSTAT_BUSY 1) 5 f)

/-- HARNESS_TX_GO (R345). -/
def execHarnessTxGo (s : State) : Host.Outcome State Fault Refusal := .next (harnTxGo s)

/-- HARNESS_CTRL.CNT_CLR (R348). -/
def clearHarnCnt (s : State) : State :=
  wr ((List.range 3).foldl (fun s p => wr s (Reg.HARNESS_PCNT p) 0) s) Reg.HARNESS_NCNT 0

/-- HARNESS_CNT_CLR (R348). -/
def execHarnessCntClr (s : State) : Host.Outcome State Fault Refusal := .next (clearHarnCnt s)

/-- A write of HARNESS_CTRL (R348): its bits act in rising order. -/
def writeHarnCtrl (v : Word) (s : State) : State :=
  let on := fun (k : Nat) (f : State → State) (t : State) => if v.getLsbD k then f t else t
  on 3 harnReprobe (on 2 clearHarnCnt (on 1 harnTxGo (on 0 startEnum s)))

end Sys2Proof.Machine
end

