-- ==== Sys2Proof/Machine/Crypto.lean ====
section
/-! DEFINITION. Sys2Proof/Machine/Crypto.lean: the standard functions that the spec names: SHA-256 and SHA-384 (FIPS 180-4),
HMAC-SHA-256 (RFC 2104), and the verification of ECDSA P-384 signatures (FIPS 186). The spec gives their names; their
definitions are PRESUMED from the standards (log entry 64). -/

namespace Sys2Proof.Machine

/-- Bytes, the most significant first, as a number. -/
def ofBeBytes (bs : List Byte) : Nat := bs.foldl (fun a b => 256 * a + b.toNat) 0

/-- A number as `n` bytes, the most significant first. -/
def beBytes (n v : Nat) : List Byte := (leBytes n v).reverse

/-! ### SHA-2 -/

/-- The first 64 bits of the fractional parts of the cube roots of the first eighty primes: the constants of SHA-384; their
upper halves are those of SHA-256. -/
def shaK : List Nat :=
  [0x428A2F98D728AE22, 0x7137449123EF65CD, 0xB5C0FBCFEC4D3B2F, 0xE9B5DBA58189DBBC,
   0x3956C25BF348B538, 0x59F111F1B605D019, 0x923F82A4AF194F9B, 0xAB1C5ED5DA6D8118,
   0xD807AA98A3030242, 0x12835B0145706FBE, 0x243185BE4EE4B28C, 0x550C7DC3D5FFB4E2,
   0x72BE5D74F27B896F, 0x80DEB1FE3B1696B1, 0x9BDC06A725C71235, 0xC19BF174CF692694,
   0xE49B69C19EF14AD2, 0xEFBE4786384F25E3, 0x0FC19DC68B8CD5B5, 0x240CA1CC77AC9C65,
   0x2DE92C6F592B0275, 0x4A7484AA6EA6E483, 0x5CB0A9DCBD41FBD4, 0x76F988DA831153B5,
   0x983E5152EE66DFAB, 0xA831C66D2DB43210, 0xB00327C898FB213F, 0xBF597FC7BEEF0EE4,
   0xC6E00BF33DA88FC2, 0xD5A79147930AA725, 0x06CA6351E003826F, 0x142929670A0E6E70,
   0x27B70A8546D22FFC, 0x2E1B21385C26C926, 0x4D2C6DFC5AC42AED, 0x53380D139D95B3DF,
   0x650A73548BAF63DE, 0x766A0ABB3C77B2A8, 0x81C2C92E47EDAEE6, 0x92722C851482353B] ++
  [0xA2BFE8A14CF10364, 0xA81A664BBC423001, 0xC24B8B70D0F89791, 0xC76C51A30654BE30,
   0xD192E819D6EF5218, 0xD69906245565A910, 0xF40E35855771202A, 0x106AA07032BBD1B8,
   0x19A4C116B8D2D0C8, 0x1E376C085141AB53, 0x2748774CDF8EEB99, 0x34B0BCB5E19B48A8,
   0x391C0CB3C5C95A63, 0x4ED8AA4AE3418ACB, 0x5B9CCA4F7763E373, 0x682E6FF3D6B2B8A3,
   0x748F82EE5DEFB2FC, 0x78A5636F43172F60, 0x84C87814A1F0AB72, 0x8CC702081A6439EC,
   0x90BEFFFA23631E28, 0xA4506CEBDE82BDE9, 0xBEF9A3F7B2C67915, 0xC67178F2E372532B,
   0xCA273ECEEA26619C, 0xD186B8C721C0C207, 0xEADA7DD6CDE0EB1E, 0xF57D4F7FEE6ED178,
   0x06F067AA72176FBA, 0x0A637DC5A2C898A6, 0x113F9804BEF90DAE, 0x1B710B35131C471B,
   0x28DB77F523047D84, 0x32CAAB7B40C72493, 0x3C9EBE0A15C9BEBC, 0x431D67C49C100D4C,
   0x4CC5D4BECB3E42B6, 0x597F299CFC657E2A, 0x5FCB6FAB3AD6FAEC, 0x6C44198C4A475817]

/-- The four functions in which SHA-256 and SHA-384 differ. -/
structure ShaFns (w : Nat) where
  big0 : BitVec w → BitVec w
  big1 : BitVec w → BitVec w
  small0 : BitVec w → BitVec w
  small1 : BitVec w → BitVec w

/-- The functions of SHA-256. -/
def sha256Fns : ShaFns 32 where
  big0 x := x.rotateRight 2 ^^^ x.rotateRight 13 ^^^ x.rotateRight 22
  big1 x := x.rotateRight 6 ^^^ x.rotateRight 11 ^^^ x.rotateRight 25
  small0 x := x.rotateRight 7 ^^^ x.rotateRight 18 ^^^ (x >>> 3)
  small1 x := x.rotateRight 17 ^^^ x.rotateRight 19 ^^^ (x >>> 10)

/-- The functions of SHA-384. -/
def sha384Fns : ShaFns 64 where
  big0 x := x.rotateRight 28 ^^^ x.rotateRight 34 ^^^ x.rotateRight 39
  big1 x := x.rotateRight 14 ^^^ x.rotateRight 18 ^^^ x.rotateRight 41
  small0 x := x.rotateRight 1 ^^^ x.rotateRight 8 ^^^ (x >>> 7)
  small1 x := x.rotateRight 19 ^^^ x.rotateRight 61 ^^^ (x >>> 6)

/-- The message schedule extended by `k` words, newest first. -/
def shaExtend {w : Nat} (f : ShaFns w) : Nat → List (BitVec w) → List (BitVec w)
  | 0, ws => ws
  | k + 1, ws => shaExtend f k ((f.small1 (ws.getD 1 0) + ws.getD 6 0 + f.small0 (ws.getD 14 0) + ws.getD 15 0) :: ws)

/-- One round: the eight working words, the schedule word and the constant. -/
def shaRound {w : Nat} (f : ShaFns w) (v : List (BitVec w)) (wk : BitVec w × BitVec w) : List (BitVec w) :=
  match v with
  | [a, b, c, d, e, g, h, i] =>
    let t1 := i + f.big1 e + ((e &&& g) ^^^ (~~~e &&& h)) + wk.2 + wk.1
    let t2 := f.big0 a + ((a &&& b) ^^^ (a &&& c) ^^^ (b &&& c))
    [t1 + t2, a, b, c, d + t1, e, g, h]
  | v => v

/-- The hash words after one block of sixteen words. -/
def shaBlock {w : Nat} (f : ShaFns w) (ks : List (BitVec w)) (h block : List (BitVec w)) : List (BitVec w) :=
  let ws := (shaExtend f (ks.length - 16) block.reverse).reverse
  (h.zip ((ws.zip ks).foldl (shaRound f) h)).map fun p => p.1 + p.2

/-- SHA-2 over words of `w` = 8·`wb` bits from the initial words `h0`: the hash words. -/
def sha2 {w : Nat} (wb : Nat) (f : ShaFns w) (ks h0 : List (BitVec w)) (m : List Byte) : List (BitVec w) :=
  let bl := 16 * wb
  let n := (m.length + 1 + 2 * wb + bl - 1) / bl
  let p := m ++ [0x80] ++ List.replicate (n * bl - m.length - 1 - 2 * wb) 0 ++ beBytes (2 * wb) (8 * m.length)
  (List.range n).foldl (fun h i => shaBlock f ks h
    ((List.range 16).map fun j => BitVec.ofNat w (ofBeBytes ((p.drop (i * bl + j * wb)).take wb)))) h0

/-- SHA-256 of a byte string. -/
def sha256 (m : List Byte) : List Byte :=
  (sha2 4 sha256Fns ((shaK.take 64).map fun k => BitVec.ofNat 32 (k / 2 ^ 32))
    [0x6A09E667, 0xBB67AE85, 0x3C6EF372, 0xA54FF53A, 0x510E527F, 0x9B05688C, 0x1F83D9AB, 0x5BE0CD19] m).flatMap
    fun x => beBytes 4 x.toNat

/-- SHA-384 of a byte string. -/
def sha384 (m : List Byte) : List Byte :=
  ((sha2 8 sha384Fns (shaK.map (BitVec.ofNat 64))
    [0xCBBB9D5DC1059ED8, 0x629A292A367CD507, 0x9159015A3070DD17, 0x152FECD8F70E5939,
     0x67332667FFC00B31, 0x8EB44A8768581511, 0xDB0C2E0D64F98FA7, 0x47B5481DBEFA4FA4] m).flatMap
    fun x => beBytes 8 x.toNat).take 48

/-- HMAC-SHA-256 of a byte string under a key. -/
def hmacSha256 (key m : List Byte) : List Byte :=
  let k0 := if 64 < key.length then sha256 key else key
  let k := k0 ++ List.replicate (64 - k0.length) 0
  sha256 (k.map (· ^^^ 0x5C) ++ sha256 (k.map (· ^^^ 0x36) ++ m))

/-! ### ECDSA P-384 -/

/-- The prime of the field. -/
def ecP : Nat := 0xFFFFFFFFFFFFFFFFFFFFFFFFFFFFFFFFFFFFFFFFFFFFFFFFFFFFFFFFFFFFFFFEFFFFFFFF0000000000000000FFFFFFFF

/-- The order of the base point. -/
def ecN : Nat := 0xFFFFFFFFFFFFFFFFFFFFFFFFFFFFFFFFFFFFFFFFFFFFFFFFC7634D81F4372DDF581A0DB248B0A77AECEC196ACCC52973

/-- The coefficient b of y² = x³ − 3x + b. -/
def ecB : Nat := 0xB3312FA7E23EE7E4988E056BE3F82D19181D9C6EFE8141120314088F5013875AC656398D8A2ED19D2A85C8EDD3EC2AEF

/-- A point in Jacobian coordinates; z = 0 is the point at infinity. -/
structure EcPoint where
  x : Nat
  y : Nat
  z : Nat
  deriving DecidableEq, Repr

/-- The base point. -/
def ecG : EcPoint :=
  ⟨0xAA87CA22BE8B05378EB1C71EF320AD746E1D3B628BA79B9859F741E082542A385502F25DBF55296C3A545E3872760AB7,
   0x3617DE4A96262C6F5D9E98BF9292DC29F8F41DBD289A147CE9DA3113B5F0B8C00A60B1CE1D7E819D7A431D7C90EA0E5F, 1⟩

/-- a − b modulo `m`, for a, b below `m`. -/
def subMod (m a b : Nat) : Nat := (a + m - b % m) % m

/-- a to the power e modulo m, bit by bit of the 384 bits of e. -/
def powMod (m a e : Nat) : Nat :=
  (List.range 384).foldl (fun r i => if e.testBit (383 - i) then r * r % m * a % m else r * r % m) 1

/-- A point doubled. -/
def ecDouble (a : EcPoint) : EcPoint :=
  let d := a.z * a.z % ecP
  let g := a.y * a.y % ecP
  let b := a.x * g % ecP
  let al := 3 * (subMod ecP a.x d * ((a.x + d) % ecP)) % ecP
  let x := subMod ecP (al * al % ecP) (8 * b % ecP)
  let z := subMod ecP (subMod ecP ((a.y + a.z) * (a.y + a.z) % ecP) g) d
  let y := subMod ecP (al * subMod ecP (4 * b % ecP) x % ecP) (8 * (g * g % ecP) % ecP)
  ⟨x, y, z⟩

/-- Two points added. -/
def ecAdd (a b : EcPoint) : EcPoint :=
  if a.z = 0 then b
  else if b.z = 0 then a
  else
    let z1 := a.z * a.z % ecP
    let z2 := b.z * b.z % ecP
    let u1 := a.x * z2 % ecP
    let u2 := b.x * z1 % ecP
    let s1 := a.y * b.z % ecP * z2 % ecP
    let s2 := b.y * a.z % ecP * z1 % ecP
    if u1 = u2 then (if s1 = s2 then ecDouble a else ⟨1, 1, 0⟩)
    else
      let h := subMod ecP u2 u1
      let r := subMod ecP s2 s1
      let h2 := h * h % ecP
      let h3 := h2 * h % ecP
      let v := u1 * h2 % ecP
      let x := subMod ecP (subMod ecP (r * r % ecP) h3) (2 * v % ecP)
      ⟨x, subMod ecP (r * subMod ecP v x % ecP) (s1 * h3 % ecP), h * a.z % ecP * b.z % ecP⟩

/-- A point multiplied by a number of 384 bits. -/
def ecMul (k : Nat) (a : EcPoint) : EcPoint :=
  (List.range 384).foldl (fun r i => if k.testBit (383 - i) then ecAdd (ecDouble r) a else ecDouble r) ⟨1, 1, 0⟩

/-- The affine coordinates of a point that is not at infinity. -/
def ecAffine (a : EcPoint) : Nat × Nat :=
  let zi := powMod ecP a.z (ecP - 2)
  (a.x * (zi * zi % ecP) % ecP, a.y * (zi * zi % ecP * zi % ecP) % ecP)

/-- A number of 1 to n − 1 from any number. -/
def ecScalar (k : Nat) : Nat := k % (ecN - 1) + 1

/-- The public key, x then y, that belongs to a private key. -/
def ecPublic (d : Nat) : List Byte :=
  let q := ecAffine (ecMul (ecScalar d) ecG)
  beBytes 48 q.1 ++ beBytes 48 q.2

/-- The signature of a digest under a private key with the secret number `k`, or none where r or s is 0. -/
def ecdsaTry (d : Nat) (digest : List Byte) (k : Nat) : Option (List Byte) :=
  let r := (ecAffine (ecMul (ecScalar k) ecG)).1 % ecN
  let s := powMod ecN (ecScalar k) (ecN - 2) * ((ofBeBytes digest + r * ecScalar d) % ecN) % ecN
  if r = 0 ∨ s = 0 then none else some (beBytes 48 r ++ beBytes 48 s)

/-- The signature r then s, 48 bytes each, of a digest under a private key (R443): with the secret number `k`, or the first after it that
gives one. -/
def ecdsaSign (d k : Nat) (digest : List Byte) : List Byte :=
  ((List.range 64).findSome? fun i => ecdsaTry d digest (k + i)).getD []

/-- Whether the signature r then s, 48 bytes each, over a 48-byte digest verifies under the public key x then y (R70, R443). -/
def ecdsaVerifies (key digest sig : List Byte) : Bool :=
  let qx := ofBeBytes (key.take 48)
  let qy := ofBeBytes ((key.drop 48).take 48)
  let r := ofBeBytes (sig.take 48)
  let s := ofBeBytes ((sig.drop 48).take 48)
  let curve := decide (qx < ecP) && decide (qy < ecP) &&
    qy * qy % ecP == (qx * qx % ecP * qx + (ecP - 3) * qx + ecB) % ecP
  let w := powMod ecN s (ecN - 2)
  let pt := ecAdd (ecMul (ofBeBytes digest * w % ecN) ecG) (ecMul (r * w % ecN) ⟨qx, qy, 1⟩)
  let zi := powMod ecP pt.z (ecP - 2)
  curve && decide (1 ≤ r) && decide (r < ecN) && decide (1 ≤ s) && decide (s < ecN) && pt.z != 0 &&
    pt.x * (zi * zi % ecP) % ecP % ecN == r

end Sys2Proof.Machine
end

