-- ==== Sys2Proof/Machine/Image.lean ====
section
/-! DEFINITION. Sys2Proof/Machine/Image.lean: the container of firmware and structure images in its NVM slot (R61 to R70,
R434, R437, R438) and the checks of R71 orders 1 to 9, which both kinds share. -/

namespace Sys2Proof.Machine

/-- An image as it stands in a slot: the slot's offset in NVM, the stored length, and whether it is a firmware image. -/
structure Img where
  base : Nat
  len : Nat
  fw : Bool
  deriving DecidableEq, Repr

/-- The offset of a slot in NVM (R434): firmware A and B, structure A and B. -/
def slotBase (fw b : Bool) : Nat :=
  match fw, b with
  | true, false => 0x0
  | true, true => 0xC0000
  | false, false => 0x180000
  | false, true => 0x1C0000

/-- The size of a slot (R434). -/
def slotSize (fw : Bool) : Nat := if fw then 0xC0000 else 0x40000

/-- The place of a slot in the table of stored lengths. -/
def slotIdx (fw b : Bool) : Fin 4 :=
  match fw, b with
  | true, false => 0
  | true, true => 1
  | false, false => 2
  | false, true => 3

/-- The image in slot `b` of a kind. -/
def imgOf (s : State) (fw b : Bool) : Img := ⟨slotBase fw b, s.trust.stored.get (slotIdx fw b), fw⟩

/-- The active slot of a kind: true is B (R434). -/
def activeSlot (s : State) (fw : Bool) : Bool := if fw then s.trust.fwSlot else s.trust.stSlot

/-- Byte `o` of an image; no byte at or beyond the stored length is read (R71). -/
def imgByte (s : State) (m : Img) (o : Nat) : Byte := if o < m.len then nvmByte s (m.base + o) else 0

/-- `n` bytes of an image from offset `o` up. -/
def imgBytes (s : State) (m : Img) (o n : Nat) : List Byte := (List.range n).map fun k => imgByte s m (o + k)

/-- The little-endian number in `n` bytes of an image (R61). -/
def imgNat (s : State) (m : Img) (o n : Nat) : Nat := ofLeBytes (imgBytes s m o n)

/-- One of `n` bytes of an image from offset `o` up cannot be read (R404). -/
def imgFails (s : State) (m : Img) (o n : Nat) : Bool := nvmFails s (m.base + o) n

/-- Every one of `n` bytes from offset `o` up is 0. -/
def imgZero (s : State) (m : Img) (o n : Nat) : Bool := (imgBytes s m o n).all (· == 0)

/-- TOTAL_LEN of the header (R61). -/
def totalLen (s : State) (m : Img) : Nat := imgNat s m 0x00C 4

/-- SECT_COUNT of the header (R61). -/
def sectCount (s : State) (m : Img) : Nat := imgNat s m 0x00A 2

/-- IMAGE_ID of the header (R61). -/
def imageId (s : State) (m : Img) : Nat := imgNat s m 0x010 8

/-- An entry of the section table (R62), with its table index. -/
structure Sect where
  idx : Nat
  typ : Nat
  off : Nat
  len : Nat
  crc : Nat
  deriving DecidableEq, Repr

/-- The section table (R62), at most 32 entries of it. -/
def sects (s : State) (m : Img) : List Sect :=
  (List.range (min (sectCount s m) 32)).map fun i =>
    let o := 0x100 + 16 * i
    ⟨i, imgNat s m o 2, imgNat s m (o + 4) 4, imgNat s m (o + 8) 4, imgNat s m (o + 12) 4⟩

/-- The section of a type (R63). -/
def sectOf (s : State) (m : Img) (typ : Nat) : Option Sect := (sects s m).find? fun x => x.typ == typ

/-- A failed check: the reason code of R71 and the table index of the section it concerns, 0x1F when none (R71, R96). -/
structure Reject where
  reason : Nat
  sect : Nat
  deriving DecidableEq, Repr

/-- The first failing check of a list of (passes, section index), under one reason. -/
def firstFail (reason : Nat) : List (Bool × Nat) → Option Reject
  | [] => none
  | (ok, i) :: cs => if ok then firstFail reason cs else some ⟨reason, i⟩

/-- A check that concerns no section. -/
def whole (ok : Bool) : Bool × Nat := (ok, 0x1F)

/-- Order 1 of R71 on a header given by its bytes (R61, R437). -/
def headerOk (stored : Nat) (f : Nat → Byte) (fw : Bool) : Bool :=
  let n := fun o k => ofLeBytes ((List.range k).map fun j => f (o + j))
  decide (256 ≤ stored) && n 0 4 == 0x49534D5A && n 4 2 == 1 && n 6 2 == 0x3232 && n 8 1 == (if fw then 1 else 2)

/-- Order 1 of R71; a header that cannot be read fails it (R404; DESIGN CHOICE: log entry 181). -/
def order1 (s : State) (m : Img) : Bool := !imgFails s m 0 0x100 && headerOk m.len (imgByte s m) m.fw

/-- Order 2 of R71. -/
def order2 (s : State) (m : Img) : Bool := (crc32 (imgBytes s m 0 0xFC)).toNat == imgNat s m 0xFC 4

/-- Order 3 of R71, with the length limit of R437 for firmware. -/
def order3 (s : State) (m : Img) : Bool :=
  let t := totalLen s m
  t % 4 == 0 && decide (t ≤ slotSize m.fw) && decide (t ≤ m.len) && decide (256 + 16 * min (sectCount s m) 32 + 104 ≤ t)

/-- Order 4 of R71: reserved header fields and the binding list; FLAGS and SHUIDE_VER of a firmware image are 0 (R437). -/
def order4 (s : State) (m : Img) : Bool :=
  let n := imgNat s m 0x022 1
  imgZero s m 0x009 1 && imgZero s m 0x023 29 && imgZero s m 0x0C0 60 && decide (imgNat s m 0x020 2 < 2) &&
    decide (n ≤ 16) && ((List.range 16).all fun i => decide (i < n) || imgZero s m (0x040 + 8 * i) 8) &&
    (!m.fw || (imgNat s m 0x020 2 == 0 && imgNat s m 0x01C 4 == 0))

/-- Order 5 of R71: the section table under R62 (one section for firmware, R437), which must be readable (R404). -/
def order5 (s : State) (m : Img) : Option Reject :=
  let n := sectCount s m
  if n = 0 ∨ 32 < n ∨ (m.fw ∧ n ≠ 1) ∨ imgFails s m 0x100 (16 * n) then some ⟨0x05, 0x1F⟩
  else
    let xs := sects s m
    let starts := xs.map fun x =>
      if x.idx = 0 then 0x100 + 16 * n else match xs[x.idx - 1]? with | some y => y.off + y.len | none => 0
    let ends := match xs[n - 1]? with | some y => y.off + y.len == totalLen s m - 104 | none => false
    let table := firstFail 0x05 ((xs.zip starts).map fun e =>
      (imgZero s m (0x102 + 16 * e.1.idx) 2 && e.1.off % 4 == 0 && e.1.len % 4 == 0 && e.1.len != 0 && e.1.off == e.2, e.1.idx))
    match table with
    | some r => some r
    | none => if ends then none else some ⟨0x05, n - 1⟩

/-- The section types of R63. -/
def stTypes : List Nat := (List.range 0x14).map (· + 1) ++ [0x20]

/-- RLEN of the PROGRAM header (R66, R68). -/
def progRlen (s : State) (m : Img) : Nat :=
  match sectOf s m 0x10 with | some x => imgNat s m x.off 2 | none => 0

/-- Order 6 of R71: section types under R63 and R68, or R437 for firmware. -/
def order6 (s : State) (m : Img) : Option Reject :=
  let xs := sects s m
  if m.fw then firstFail 0x06 (xs.map fun x => (x.typ == 0x0100, x.idx))
  else
    let known := xs.map fun x =>
      (stTypes.contains x.typ && ((xs.take x.idx).all fun y => y.typ != x.typ) &&
        (!(x.typ == 0x12 || x.typ == 0x13) || decide (progRlen s m ≤ 2048)), x.idx)
    let required := [0x01, 0x02, 0x10, 0x20].map fun t => whole (xs.any fun x => x.typ == t)
    firstFail 0x06 (known ++ required)

/-- Order 7 of R71; a section that cannot be read fails it (R404). -/
def order7 (s : State) (m : Img) : Option Reject :=
  firstFail 0x07 ((sects s m).map fun x => (!imgFails s m x.off x.len && (crc32 (imgBytes s m x.off x.len)).toNat == x.crc, x.idx))

/-- The public key that a KEYSLOT names, when it verifies on this device (R70, R436, R437). -/
def verifyKey (s : State) (fw : Bool) (slot : Nat) : Option (List Byte) :=
  if fw then
    match slot with
    | 0x20 => some (Config.fwKey 0)
    | 0x21 => some (Config.fwKey 1)
    | _ => none
  else if slot = 0x10 then (if s.trust.lifecycle = 1 then some Config.devKey else none)
  else
    match s.trust.keys.toList[slot]? with
    | none => none
    | some k => if k.isEmpty || s.trust.revoked.testBit slot then none else some k

/-- Order 8 of R71: the signature block of R70, readable (R404); its reserved bytes are 0 (R18). -/
def order8 (s : State) (m : Img) : Bool :=
  let b := totalLen s m - 104
  match verifyKey s m.fw (imgNat s m b 1) with
  | none => false
  | some k =>
    !imgFails s m b 104 && imgNat s m (b + 1) 1 == 1 && imgZero s m (b + 2) 2 && imgZero s m (b + 100) 4 &&
      ecdsaVerifies k (sha384 (imgBytes s m 0 b)) (imgBytes s m (b + 4) 96)

/-- Order 9 of R71: the unit binding of R438. -/
def order9 (s : State) (m : Img) : Bool :=
  let n := imgNat s m 0x022 1
  n == 0 || (List.range n).any fun i => imgNat s m (0x040 + 8 * i) 8 == Config.deviceId % 2 ^ 64

/-- Orders 1 to 9 of R71, stopping at the first failure. -/
def containerCheck (s : State) (m : Img) : Option Reject :=
  if !order1 s m then some ⟨0x01, 0x1F⟩
  else if !order2 s m then some ⟨0x02, 0x1F⟩
  else if !order3 s m then some ⟨0x03, 0x1F⟩
  else if !order4 s m then some ⟨0x04, 0x1F⟩
  else
    match order5 s m, order6 s m, order7 s m with
    | some r, _, _ => some r
    | none, some r, _ => some r
    | none, none, some r => some r
    | none, none, none =>
      if !order8 s m then some ⟨0x08, 0x1F⟩
      else if !order9 s m then some ⟨0x09, 0x1F⟩
      else none

/-- SHA-384 of bytes 0 to TOTAL_LEN − 1 of an image (R439). -/
def measure (s : State) (m : Img) : List Byte := sha384 (imgBytes s m 0 (totalLen s m))

end Sys2Proof.Machine
end

