-- ==== Sys2Proof/Machine/ImageCfg.lean ====
section
/-! DEFINITION. Sys2Proof/Machine/ImageCfg.lean: the configuration lists of a structure image (R64): its entries, the state
in which its checks are judged, and order 10 of R71 with the conditions that the chapters of spec/ put on configuration. -/

namespace Sys2Proof.Machine

/-! ### Entries and sections -/

/-- The block range that a configuration section names (R63, R64). -/
def sectRange (typ : Nat) : Option (Nat × Nat) :=
  match typ with
  | 0x01 => some (0x0, 0x1000)
  | 0x02 => some (0x1000, 0x2000)
  | 0x03 => some (0x10000, 0x18000)
  | 0x04 => some (0x18000, 0x20000)
  | 0x07 => some (0xA000, 0xB000)
  | 0x08 => some (0x7000, 0x8000)
  | 0x09 => some (0x6000, 0x7000)
  | 0x0A => some (0x8000, 0x9000)
  | 0x0B => some (0x9000, 0xA000)
  | 0x0C => some (0x5000, 0x6000)
  | 0x0D => some (0x4000, 0x5000)
  | 0x0E => some (0x3000, 0x4000)
  | 0x14 => some (0xB000, 0xC000)
  | _ => none

/-- The image-only words of the TIME block (R65, R524). -/
def imageOnly (a : Nat) : Bool := a == Reg.PLL_KP || a == Reg.PLL_KI || a == Reg.PLL_WFF

/-- A word of LOOP_SHADOW (R154). -/
def isShadow (a : Nat) : Bool := decide (0x18000 ≤ a ∧ a < 0x20000) && decide (0x100 ≤ a % 0x200)

/-- A register or image-only word that a structure image loads (R64); the reserved bank words are none (R153). -/
def isImageWord (a : Nat) : Bool :=
  imageOnly a ||
    (if isShadow a then decide (a % 0x100 < 0x60) else match regRow? a with | some r => r.image | none => false)

/-- A configuration word that holds a value word (R132). -/
def isValueWord (a : Nat) : Bool :=
  imageOnly a || isShadow a ||
    (decide (0xA000 ≤ a ∧ a < 0xB000) &&
      (let o := a - 0xA000
       decide (0x018 ≤ o ∧ o < 0x060) || decide (0x100 ≤ o ∧ o < 0x180) ||
         (decide (0x400 ≤ o ∧ o < 0x800) && (o % 0x10 == 4 || o % 0x10 == 8)) ||
         (decide (0x800 ≤ o ∧ o < 0x8C0) && o % 8 == 4) || (decide (0x8C0 ≤ o ∧ o < 0x900) && (o % 0x10 == 4 || o % 0x10 == 8)))) ||
    (decide (0x8000 ≤ a ∧ a < 0x9000) &&
      (let o := a % 0x800
       decide (0x040 ≤ o ∧ o < 0x0C0) || decide (0x200 ≤ o ∧ o < 0x280) || (decide (0x280 ≤ o ∧ o < 0x400) && o % 8 == 4) ||
         decide (0x400 ≤ o)))

/-- No reserved bit of a configuration word is set (R18, R64, R132). -/
def reservedClear (a : Nat) (v : Word) : Bool :=
  if isValueWord a then !vwReserved v
  else
    match regRow? a with
    | none => false
    | some r => (r.fields.foldl (fun w f => setBits w f.1 f.2.1 0) v) == 0

/-- The entries of a configuration section (R64): addresses and values. -/
def entries (s : State) (m : Img) (x : Sect) : List (Nat × Word) :=
  (List.range (x.len / 8)).map fun i =>
    (imgNat s m (x.off + 8 * i) 4, BitVec.ofNat 32 (imgNat s m (x.off + 8 * i + 4) 4))

/-- The configuration sections of an image. -/
def cfgSects (s : State) (m : Img) : List Sect := (sects s m).filter fun x => (sectRange x.typ).isSome

/-- Every configuration entry of an image. -/
def allEntries (s : State) (m : Img) : List (Nat × Word) := (cfgSects s m).flatMap (entries s m)

/-- A configuration section obeys R64 in itself: whole entries, and each address aligned, in its block, loaded from the
image, named once, with no reserved bit set. -/
def listOk (s : State) (m : Img) (x : Sect) : Bool :=
  match sectRange x.typ with
  | none => true
  | some (lo, hi) =>
    let es := entries s m x
    x.len % 8 == 0 && decide ((es.map (·.1)).Nodup) &&
      es.all fun e => e.1 % 4 == 0 && decide (lo ≤ e.1) && decide (e.1 < hi) && isImageWord e.1 && reservedClear e.1 e.2

/-! ### The candidate -/

/-- The rotation groups that ROTATION declares (R83), and whether every entry of it is well formed. -/
def parseRotation : Nat → List Byte → List (List Nat) → List (List Nat) × Bool
  | 0, _, gs => (gs, true)
  | _ + 1, [], gs => (gs, true)
  | k + 1, d :: bs, gs =>
    let n := d.toNat
    let pad := (4 - (1 + n) % 4) % 4
    let ms := (bs.take n).map (·.toNat)
    if n = 0 ∨ 64 < n ∨ 16 ≤ gs.length ∨ bs.length < n + pad ∨ (ms.any fun c => decide (64 ≤ c)) ∨
        ((bs.drop n).take pad).any (· != 0) then (gs, false)
    else parseRotation k (bs.drop (n + pad)) (gs ++ [ms])

/-- The rotation groups of an image, and whether they are well formed. -/
def rotation (s : State) (m : Img) : List (List Nat) × Bool :=
  match sectOf s m 0x06 with
  | none => ([], true)
  | some x => parseRotation x.len (imgBytes s m x.off x.len) []

/-- The bank words that the LOOPS section loads (R154): a word at offset `o` of the bank of loop `n`. -/
def loadedBank (es : List (Nat × Word)) (n o : Nat) : Word :=
  match es.find? fun e => e.1 == Reg.LOOP_SHADOW n 0 + o with
  | some e => e.2
  | none => 0

/-- The offsets of the bank words (R153). -/
def bankOffsets : List Nat := (List.range 24).map (4 * ·)

/-- Engine memory with its table area replaced by the TABLES section (R75, R92). -/
def loadTables (s : State) (m : Img) : State :=
  let s1 := { s with engMem := s.engMem.filter fun c => !(decide (0x70000 ≤ c.1 ∧ c.1 < 0x78000)) }
  match sectOf s m 0x0F with
  | none => s1
  | some x => engSetBytes s1 0x70000 (imgBytes s m x.off (min x.len 0x8000))

/-- The registers of an image written over the reset configuration (R63, R75); bank words go to engine memory. -/
def loadRegs (s : State) (es : List (Nat × Word)) : State :=
  let s1 := { s with live := s.live.filter fun e => !isImageWord e.1 }
  let s2 := es.foldl (fun s e => if isShadow e.1 then s else wr s e.1 e.2) s1
  fput s2 Fld.SCHED_STATUS_PROFILE (fget s2 Fld.GLOBAL_CFG_PROFILE)

/-- The state in which orders 10 to 15 are judged: registers, tables and rotation groups of the image in place. -/
def candidate (s : State) (m : Img) : State :=
  let s1 := loadTables (loadRegs s (allEntries s m)) m
  { s1 with
    time := { s1.time with cfg := timeCfgOfRegs s1 }
    sched := { s1.sched with groups := (rotation s m).1 } }

/-! ### Order 10: conditions of the chapters on a candidate `c` -/

/-- The ports that the image uses (R123, R129). -/
def usedPorts (c : State) : List Nat := (List.range 32).filter (portUsed c)

/-- The ports of course `k`. -/
def coursePorts (c : State) (k : Nat) : List Nat := (usedPorts c).filter fun p => courseOf c p == k

/-- A course that the image uses: some port belongs to it (R123). -/
def courseUsed (c : State) (k : Nat) : Bool := !(coursePorts c k).isEmpty

/-- All elements of a list agree under `f`. -/
def agree {α : Type} (f : α → Nat) : List α → Bool
  | [] => true
  | x :: xs => xs.all fun y => f y == f x

/-- R105, R106, R113, R116 and the reserved codes of PORT_CFG and PORT_DRV on a used port. -/
def portCfgOk (c : State) (p : Nat) : Bool :=
  let topo := fget c (Fld.PORT_CFG_TOPO p)
  let free := isFree c p
  let per := if free then fget c (Fld.PORT_PMIN_PMIN p) else fixedPeriod c p
  let off := fget c (Fld.PORT_CARRIER_OFFSET p)
  let mp := minPulse c
  let fits := fun (a b : Nat) => decide (a + mp + b + mp ≤ per)
  let pmin := fget c (Fld.PORT_PMIN_PMIN p)
  let pmax := fget c (Fld.PORT_PMAX_PMAX p)
  let da := fget c (Fld.PORT_DT_A_DT_ON_A p)
  let dan := fget c (Fld.PORT_DT_A_DT_ON_AN p)
  decide (1 ≤ topo) && decide (topo ≤ 9) && fget c (Fld.PORT_CFG_PHASE p) != 3 && fget c (Fld.PORT_CFG_UPD p) != 3 &&
    fget c (Fld.PORT_DRV_FLT_SCOPE p) != 3 && decide (fget c (Fld.PORT_CARRIER_RATIO p) ≤ 8) &&
    decide (off < if free then pmax else per) && fits da dan &&
    fits (fget c (Fld.PORT_DT_B_DT_ON_B p)) (fget c (Fld.PORT_DT_B_DT_ON_BN p)) &&
    (!free || (decide (2 * mp + da + dan ≤ pmin) && decide (pmin < pmax)))

/-- Reserved codes in the PORTS registers of a port that the image does not use (R18). -/
def unusedPortOk (c : State) (p : Nat) : Bool :=
  decide (fget c (Fld.PORT_CFG_TOPO p) ≤ 9) && fget c (Fld.PORT_CFG_PHASE p) != 3 && fget c (Fld.PORT_CFG_UPD p) != 3 &&
    fget c (Fld.PORT_DRV_FLT_SCOPE p) != 3 && decide (fget c (Fld.PORT_CARRIER_RATIO p) ≤ 8)

/-- The number of ports that a topology allows in one course (R123). -/
def topoCount (topo n : Nat) : Bool :=
  match topo with
  | 7 => decide (n ≤ 3)
  | 8 => n == 2
  | 9 => n == 1
  | _ => decide (n ≤ 8)

/-- The grouping rules of R124 and the port counts of R123 on course `k`. -/
def courseOk (c : State) (k : Nat) : Bool :=
  let ps := coursePorts c k
  match ps with
  | [] => true
  | p0 :: _ =>
    let topo := fget c (Fld.PORT_CFG_TOPO p0)
    agree (fun p => fget c (Fld.PORT_CFG_TOPO p)) ps && topoCount topo ps.length &&
      ((List.range ps.length).all fun j => ps.any fun p => fget c (Fld.PORT_CFG_MEMBER p) == j) &&
      agree (fun p => fget c (Fld.PORT_CARRIER_RATIO p)) ps && agree (fun p => fget c (Fld.PORT_CFG_FREE p)) ps &&
      agree (fun p => fget c (Fld.PORT_CFG_UPD p)) ps &&
      (topo != 8 || agree (fun p => fget c (Fld.PORT_CARRIER_OFFSET p)) ps) &&
      (topo == 9) == isFree c p0 &&
      (if topo = 7 then decide ((ps.map fun p => fget c (Fld.PORT_CFG_PHASE p)).Nodup)
       else ps.all fun p => fget c (Fld.PORT_CFG_PHASE p) == 0)

/-- R182 on comparator `j` of port `p`, and the reserved codes of ACTION (R173). -/
def cmpCfgOk (c : State) (p j : Nat) : Bool :=
  let act := fget c (Fld.CMP_CFG_ACTION p j)
  let clr := bit c (Fld.CMP_CFG_CLR p j)
  decide (act ≤ 4) && (!bit c (Fld.CMP_CFG_MIRROR p j) || j == 0 || j == 3) && (act != 1 || clr) && (!clr || decide (act ≤ 1)) &&
    (fget c (Fld.CMP_TIME_CBC_ESC p j) == 0 || act == 1) && (act == 0 || portUsed c p) &&
    (!bit c (Fld.CMP_CFG_ENABLE p j) || bit c (Fld.CMP_CFG_HI_EN p j) || bit c (Fld.CMP_CFG_LO_EN p j))

/-- Reserved codes of LOOP_CFG, and R136 and R153 on the bank that the image loads for loop `n` (R154). -/
def loopCfgOk (c : State) (es : List (Nat × Word)) (n : Nat) : Bool :=
  let rs := fget c (Fld.LOOP_CFG_REFSRC n)
  let k := fget c (Fld.LOOP_CFG_COURSE n)
  let g := fget c (Fld.LOOP_CFG_GROUP n)
  let loaded := loopUsed c n || es.any fun e => decide (Reg.LOOP_SHADOW n 0 ≤ e.1) && decide (e.1 < Reg.LOOP_SHADOW n 0 + 0x100)
  decide (rs ≤ 2) && !(rs == 2 && bit c (Fld.LOOP_SRC_REFMUL n)) && (decide (k < 32) || k == 0x3F) &&
    (decide (g < 16) || g == 0x1F) && (!loaded || bankOk (loadedBank es n) (eiOf c n))

/-- A seven-bit selector that names 0 to 63, or none (0x7F). -/
def selOk (n : Nat) : Bool := decide (n < 64) || n == 0x7F

/-- The course that a loop belongs to (R144). -/
def loopCourseIs (c : State) (n k : Nat) : Bool := fget c (Fld.LOOP_CFG_COURSE n) == k

/-- R195 and the reserved codes of CAPO_COURSE. -/
def capoCourseOk (c : State) (k : Nat) : Bool :=
  let i := fget c (Fld.CAPO_COURSE_IBUS k)
  let o := fget c (Fld.CAPO_COURSE_OBUS k)
  let b := fget c (Fld.CAPO_COURSE_BATT k)
  let isB := i == 3 || o == 3
  if courseUsed c k then
    decide (i ≤ 4) && decide (o ≤ 4) && b != 3 && (i != o || i == 0) && isB == (b != 0) &&
      !(bit c (Fld.CAPO_COURSE_SHARE k) && o == 0)
  else rd c (Reg.CAPO_COURSE k) == 0

/-- R197 and the reserved codes of CAPO_PORT and CAPO_LOOP. -/
def enrolOk (c : State) : Bool :=
  let sl := fun (p : Nat) => fget c (Fld.CAPO_PORT_SLOOP p)
  let named := ((List.range 32).map sl).filter fun n => decide (n < 64)
  decide named.Nodup && ((List.range 32).all fun p => selOk (sl p) && (decide (64 ≤ sl p) || loopCourseIs c (sl p) (courseOf c p))) &&
    (List.range 64).all fun n =>
      let k := fget c (Fld.CAPO_LOOP_LIM n)
      selOk k && (decide (64 ≤ k) || bit c (Fld.CAPO_LIM_CFG_EN k))

/-- R197 on limit `k`. -/
def limitOk (c : State) (k : Nat) : Bool :=
  let f := vwVal (rd c (Reg.CAPO_LIM_FLOOR k))
  !bit c (Fld.CAPO_LIM_CFG_EN k) || (decide (0 < vwVal (rd c (Reg.CAPO_LIM_MAX k))) && decide (0 ≤ f) && decide (f ≤ 1))

/-- The signals and the limit of power term `j` (R137, R205): terms 0 to 7 are input terms, 8 to 23 name a limit. -/
def termOk (c : State) (j : Nat) : Bool :=
  let k := fget c (Fld.CAPO_TERM_SIG_LIM j)
  let en := bit c (Fld.CAPO_TERM_SIG_EN j)
  selOk k && signalOk (fget c (Fld.CAPO_TERM_SIG_VSIG j)) && signalOk (fget c (Fld.CAPO_TERM_SIG_ISIG j)) &&
    (decide (8 ≤ j) || k == 0x7F) && (!en || decide (j < 8) || decide (k < 64))

/-- R203, R217, and RETW and DCSIG of CAPO. -/
def capoOk (c : State) : Bool :=
  decide (vwVal (rd c Reg.CAPO_PB) ≤ 1 / 4) && decide (vwVal (rd c Reg.CAPO_CB) ≤ 1 / 10) && fget c Fld.CAPO_HCFG_RETW != 0 &&
    signalOk (fget c Fld.CAPO_CFG_DCSIG) &&
    (!bit c Fld.CAPO_CFG_HOLD_EN || (List.range 4).any fun h => bit c (Fld.CAPO_HSEL_CFG_EN h) && bit c (Fld.CAPO_HSEL_CFG_HUSE h))

/-- R240 and the field ranges of the FEED registers on feed `f`. -/
def feedCfgOk (c : State) (f : Nat) : Bool :=
  let dd := fget c (Fld.FEED_SHORT_DDLY f)
  let ins := fget c (Fld.FEED_TIME_INSDLY f)
  let en := bit c (Fld.FEED_CFG_EN f)
  decide (fget c (Fld.FEED_CFG_GROUP f) ≤ 4) && decide (fget c (Fld.FEED_ITHR_OCF f) ≤ 26) && decide (fget c (Fld.FEED_DIODE_RVF f) ≤ 6) &&
    decide (32 ≤ fget c (Fld.FEED_PCFG_PCF f)) && fget c (Fld.FEED_PCFG_PCTO f) != 0 && decide (1 ≤ ins) && decide (ins ≤ 10000) &&
    fget c (Fld.FEED_RETRY_RDLY f) != 0 && fget c (Fld.FEED_RETRY_RHOLD f) != 0 && decide (1 ≤ dd) && decide (dd ≤ 10000) &&
    (!bit c (Fld.FEED_CFG_IDEAL f) || decide (4 ≤ fget c (Fld.FEED_DIODE_FTH f) + fget c (Fld.FEED_DIODE_RTH f))) &&
    (!en || decide (fget c (Fld.FEED_VSWIN_UV f) < fget c (Fld.FEED_VSWIN_OV f))) &&
    !(en && bit c (Fld.FEED_CFG_PC_USE f) && fget c (Fld.FEED_ITHR_OC f) == 0)

/-- R267 on rail `r`. -/
def railCfgOk (c : State) (r : Nat) : Bool :=
  let native := bit c (Fld.SEQ_RCFG_EN r) && !bit c (Fld.SEQ_RCFG_MODE r)
  let lo := fget c (Fld.SEQ_RTHR_LO r)
  fget c (Fld.SEQ_RTO_RTO r) != 0 && fget c (Fld.SEQ_RTO_FTO r) != 0 &&
    !(bit c (Fld.SEQ_RCFG_CRIT r) && !bit c (Fld.SEQ_RCFG_EN r)) &&
    (!native || (decide (fget c (Fld.SEQ_ROFF_OFF r) < lo) && decide (lo < fget c (Fld.SEQ_RTHR_HI r))))

/-- A list of exact values strictly rising. -/
def rising : List Rat → Bool
  | [] => true
  | [_] => true
  | x :: y :: xs => decide (x < y) && rising (y :: xs)

/-- R297 on battery `b`: reserved codes reject whether or not it is enabled (R18, R64); the rest with the ordering of the warning levels under R284. -/
def battCfgOk (c : State) (b : Nat) : Bool :=
  let v := fun (a : Nat) => vwVal (rd c a)
  let tag := fun (k : Nat) => fget c (Fld.CAPO_COURSE_BATT k) == b + 1
  ((List.range 32).all fun k => signalOk (fget c (Fld.BATT_CTERM_SIG_SIG b k))) &&
  fget c (Fld.BATT_TIMING_TREST b) != 0 && fget c (Fld.BATT_TIMING_AMAX b) != 0 && fget c (Fld.BATT_DTIME_DTIME b) != 0 &&
  (!bit c (Fld.BATT_CFG_EN b) ||
    (((List.range 32).all fun k => bit c (Fld.BATT_CTERM_SIG_EN b k) == tag k &&
        (!(fget c (Fld.BATT_CHGMASK_CHGMASK b)).testBit k || tag k)) &&
      rising ((List.range 4).map fun j => v (Reg.BATT_TEMP b j)) &&
      ((List.range 4).all fun j => rising ((List.range 33).map fun i => v (Reg.BATT_OCVT b j i))) &&
      ((List.range 4).all fun j =>
        let md := fun (k : Nat) => v (Reg.BATT_MODEL b j k)
        decide (0 < md 0) && decide (0 ≤ md 1) && decide (0 < md 2) && decide (0 ≤ md 3) && decide (0 < md 4)) &&
      decide (0 < v (Reg.BATT_QRATED b)) && decide (0 < v (Reg.BATT_VSCALE b)) && decide (0 < v (Reg.BATT_IREST b)) &&
      rising [v (Reg.BATT_W3S b), v (Reg.BATT_W2S b), v (Reg.BATT_W1S b), v (Reg.BATT_C1S b), v (Reg.BATT_C2S b)] &&
      rising [v (Reg.BATT_W3V b), v (Reg.BATT_W2V b), v (Reg.BATT_W1V b), v (Reg.BATT_C1V b), v (Reg.BATT_C2V b)] &&
      decide (0 ≤ v (Reg.BATT_SHYS b)) && decide (0 ≤ v (Reg.BATT_VHYS b))))

/-- R313 on group `g`. -/
def groupCfgOk (c : State) (g : Nat) : Bool :=
  let en := bit c (Fld.HK_G_CFG_EN g)
  decide (fget c (Fld.HK_G_CFG_RORLVL g) ≤ 8) && fget c (Fld.HK_G_CFG_ROR g) != 0 && fget c (Fld.HK_G_LIM_STEP g) != 0 &&
    (!en || decide (fget c (Fld.HK_G_LIM_HOT1 g) < fget c (Fld.HK_G_LIM_HOT2 g)))

/-- R313 on sensor `k`: 0 to 7 are the on-die sensors, which have no R25 and BETA. The range of R25 holds for every thermistor, that of
BETA for one in a group. -/
def sensorCfgOk (c : State) (k : Nat) : Bool :=
  let be := fget c (Fld.HK_SCFG_BETA k)
  (decide (k < 8) || fget c (Fld.HK_SCFG_R25 k) != 0) &&
  (!bit c (Fld.HK_SCFG_GEN k) ||
    (bit c (Fld.HK_G_CFG_EN (fget c (Fld.HK_SCFG_GROUP k))) &&
      (decide (k < 8) || (decide (1000 ≤ be) && decide (be ≤ 8000)))))

/-- R313 on the whole block; HYS is in units of 0.5 °C, so 2 × HYS is its code in °C. -/
def hkCfgOk (c : State) : Bool :=
  let per := fget c Fld.HK_CFG_PER
  decide (5 ≤ per) && decide (per ≤ 100) &&
    ((List.range 32).all fun k => !fbit c Fld.HK_MUTABLE_MUTABLE k || courseUsed c k) &&
    (List.range 2).all fun b =>
      ((List.range 32).all fun k => !(fget c (Fld.HK_CHGINH_CHGINH b)).testBit k ||
        (courseUsed c k && fget c (Fld.CAPO_COURSE_BATT k) == b + 1)) &&
      decide (toSigned 8 (fget c (Fld.HK_BCHG_TLO b)) + (fget c (Fld.HK_BCHG_HYS b) : Int) < toSigned 8 (fget c (Fld.HK_BCHG_THI b)))

/-- First and one past the last pool unit of queue `q` (R371). -/
def queueSpan (c : State) (q : Nat) : Nat × Nat :=
  let b := fget c (Fld.HOSTIF_Q_CFG_BASE q)
  (b, b + fget c (Fld.HOSTIF_Q_CFG_DEPTH q) + 1)

/-- R371 on queue `q`. -/
def queueCfgOk (c : State) (q : Nat) : Bool :=
  let prod := fget c (Fld.HOSTIF_Q_CFG_PROD q)
  let sp := queueSpan c q
  prod != 3 &&
    (prod == 0 || (decide (sp.2 ≤ 8192) &&
      ((List.range q).all fun r => fget c (Fld.HOSTIF_Q_CFG_PROD r) == 0 || decide ((queueSpan c r).2 ≤ sp.1) || decide (sp.2 ≤ (queueSpan c r).1)) &&
      (prod != 2 || fget c Fld.HARNESS_CFG_RXQ == q)))

/-- R371 on RXQ, and the reserved codes of HARNESS_CFG. -/
def harnCfgOk (c : State) : Bool :=
  let q := fget c Fld.HARNESS_CFG_RXQ
  let a := fget c Fld.HARNESS_CFG_ROOT_ADDR
  selOk q && (decide (64 ≤ q) || fget c (Fld.HOSTIF_Q_CFG_PROD q) == 2) && a != 0 && a != 0xFFFF

/-- HALF of FAULT_CFG and COMMIT of REC_CFG (R394, R428). -/
def faultCfgOk (c : State) : Bool :=
  let h := fget c Fld.FAULT_CFG_HALF
  decide (1 ≤ h) && decide (h ≤ 1000)

/-- COMMIT of REC_CFG (R428). -/
def recCfgOk (c : State) : Bool :=
  let k := fget c Fld.REC_CFG_COMMIT
  decide (1 ≤ k) && decide (k ≤ 60)

/-- R7 and the reserved code of TIME_CTRL.SRC (R56). -/
def profileOk (c : State) : Bool := fget c Fld.GLOBAL_CFG_PROFILE != 3

/-- TIME_CTRL holds no reserved encoding (R64, R56): SRC, HOLD and RET. -/
def timeCodesOk (c : State) : Bool :=
  fget c Fld.TIME_CTRL_SRC != 3 && decide (fget c Fld.TIME_CTRL_HOLD ≤ 16) && fget c Fld.TIME_CTRL_RET != 0

/-- Order 10 of R71. The section index is that of the section whose registers break a rule. -/
def order10 (s : State) (m : Img) (c : State) : Option Reject :=
  let es := allEntries s m
  let ix := fun (t : Nat) => match sectOf s m t with | some x => x.idx | none => 0x1F
  let all := fun (n t : Nat) (f : Nat → Bool) => ((List.range n).all f, ix t)
  firstFail 0x0A (((cfgSects s m).map fun x => (listOk s m x, x.idx)) ++
    [ (profileOk c, ix 0x01), (timeCodesOk c, ix 0x02),
      all 32 0x03 (fun p => if portUsed c p then portCfgOk c p else unusedPortOk c p), all 32 0x03 (courseOk c),
      all 32 0x03 (fun p => (List.range 4).all (cmpCfgOk c p)), all 64 0x04 (loopCfgOk c es),
      all 32 0x07 (capoCourseOk c), (enrolOk c, ix 0x07), all 64 0x07 (limitOk c), all 24 0x07 (termOk c), (capoOk c, ix 0x07),
      all 8 0x08 (feedCfgOk c), all 16 0x09 (railCfgOk c), all 2 0x0A (battCfgOk c),
      all 8 0x0B (groupCfgOk c), all 18 0x0B (sensorCfgOk c), (hkCfgOk c, ix 0x0B), all 64 0x0C (queueCfgOk c),
      (harnCfgOk c, ix 0x0D), (faultCfgOk c, ix 0x0E), (recCfgOk c, ix 0x14),
      (match sectOf s m 0x0F with | some x => decide (x.len ≤ 0x8000) | none => true, ix 0x0F) ])

end Sys2Proof.Machine
end

