-- ==== Sys2Proof/Machine/ImageProg.lean ====
section
/-! DEFINITION. Sys2Proof/Machine/ImageProg.lean: the program, patches, latency declarations, rotation groups and proof
summary of a structure image: orders 11 to 15 of R71, judged on the candidate of ImageCfg. -/

namespace Sys2Proof.Machine

/-! ### Order 11 -/

/-- The image has an AC input bus bar (R31): a used course whose input bus IBUS is the AC input (R194, R195). An OBUS of that code makes none
(DESIGN CHOICE: log entry 173). -/
def hasAcBus (c : State) : Bool := (List.range 32).any fun k => courseUsed c k && fget c (Fld.CAPO_COURSE_IBUS k) == 1

/-- Order 11 of R71: the conditions of R31, and TIME_N as the product of RPC and RLEN (R65). -/
def order11 (c : State) : Bool :=
  let t := c.time.cfg
  let lim := profileKHz t.profile
  decide (64 ≤ t.rpc) && decide (100 ≤ t.rlen) && decide (t.rlen ≤ 4096) && decide (40000 ≤ t.flo) && decide (t.fhi ≤ 70000) &&
    decide (t.flo < t.fhi) && decide (lim.1 * 1000000 ≤ t.n * t.flo) && decide (t.n * t.fhi ≤ lim.2 * 1000000) &&
    decide (t.flo ≤ t.vfreq) && decide (t.vfreq ≤ t.fhi) && decide (t.hold ≤ 16) && decide (1 ≤ t.ret) &&
    !(t.src == 0 && !hasAcBus c) && t.n == t.rpc * t.rlen

/-! ### The program and its variants (R66, R67) -/

/-- A lane word of the program, with its place. -/
structure PWord where
  fret : Nat
  lane : Nat
  word : LaneWord
  deriving DecidableEq, Repr

/-- The offset of the PROGRAM section's words in the image. -/
def progBase (s : State) (m : Img) : Nat := match sectOf s m 0x10 with | some x => x.off + 16 | none => 0

/-- The lane word of V0 at a fret and lane, as stored (R66). -/
def progWord (s : State) (m : Img) (fret lane : Nat) : Word :=
  BitVec.ofNat 32 (imgNat s m (progBase s m + 4 * (12 * fret + lane)) 4)

/-- The lane words of V0 that are not NOP, in program order. -/
def progWords (s : State) (m : Img) (rlen : Nat) : List PWord :=
  (List.range (12 * rlen)).filterMap fun i =>
    let w := laneOf (progWord s m (i / 12) (i % 12))
    if w.op == 0 && w.fields == ⟨0, 0, 0⟩ then none else some ⟨i / 12, i % 12, w⟩

/-- The patch words of variant `v` (R67). -/
def patchWords (s : State) (m : Img) (v : Nat) : List Word :=
  match sectOf s m (0x10 + v) with
  | none => []
  | some x => (List.range (imgNat s m (x.off + 2) 2)).map fun i => BitVec.ofNat 32 (imgNat s m (x.off + 8 + 4 * i) 4)

/-- The port that a patch of variant `v` gives the word at a fret and lane. -/
def patchPort (ps : List Word) (fret lane : Nat) : Option (BitVec 5) :=
  (ps.find? fun w => getBits w 0 12 == fret && getBits w 12 4 == lane).map fun w => BitVec.ofNat 5 (getBits w 16 5)

/-- A lane word with its PORT field replaced (R67). -/
def withPort (w : LaneWord) (p : BitVec 5) : LaneWord := ⟨w.op, { w.fields with port := p }⟩

/-- The words of variant `v` that are not NOP (R67). -/
def variantWords (s : State) (m : Img) (v : Nat) (v0 : List PWord) : List PWord :=
  let ps := patchWords s m v
  v0.map fun x => match patchPort ps x.fret x.lane with | some p => { x with word := withPort x.word p } | none => x

/-- The variants that an image carries (R67). -/
def variants (s : State) (m : Img) : List Nat := (List.range 4).filter fun v => v == 0 || (sectOf s m (0x10 + v)).isSome

/-- R66 on the PROGRAM section. -/
def programOk (s : State) (m : Img) (rlen : Nat) (v0 : List PWord) : Bool :=
  match sectOf s m 0x10 with
  | none => false
  | some x =>
    x.len == 16 + 48 * rlen && imgNat s m x.off 2 == rlen && imgNat s m (x.off + 2) 1 == 12 && imgNat s m (x.off + 3) 1 == 0 &&
      imgZero s m (x.off + 8) 8 && imgNat s m (x.off + 4) 4 == (v0.filter fun y => y.word.op != 0).length

/-- R67 on the PATCH section of variant `v`. -/
def patchOk (s : State) (m : Img) (rlen v : Nat) : Bool :=
  match sectOf s m (0x10 + v) with
  | none => true
  | some x =>
    let n := imgNat s m (x.off + 2) 2
    let ps := patchWords s m v
    decide (8 ≤ x.len) && imgNat s m x.off 1 == v && imgZero s m (x.off + 1) 1 && imgZero s m (x.off + 4) 4 && decide (n ≤ 49152) &&
      x.len == 8 + 4 * n && decide ((ps.map fun w => getBits w 0 16).Nodup) &&
      ps.all fun w =>
        let f := getBits w 0 12
        let l := getBits w 12 4
        getBits w 21 11 == 0 && decide (f < rlen) && decide (l < 12) && opHasPort (laneOf (progWord s m f l)).op.toNat

/-! ### Order 12: lane words -/

/-- The lane words of one operation. -/
def ofOp (op : Nat) (ws : List PWord) : List PWord := ws.filter fun x => x.word.op.toNat == op

/-- Fields of a lane word as numbers. -/
def PWord.ctx (x : PWord) : Nat := x.word.fields.ctx.toNat
def PWord.port (x : PWord) : Nat := x.word.fields.port.toNat
def PWord.arg (x : PWord) : Nat := x.word.fields.arg.toNat

/-- What a lane word claims alone in its fret (R60): an ADC, a commit target, a queue. -/
def claim (x : PWord) : Option (Nat × Nat × Nat × Nat) :=
  match x.word.op.toNat with
  | 0x01 => some (x.fret, 0, x.port, 0)
  | 0x10 => some (x.fret, 1, x.port, x.arg)
  | 0x11 => if x.arg = 1 then some (x.fret, 1, x.port, 5) else none
  | 0x20 => some (x.fret, 2, x.ctx, 0)
  | _ => none

/-- No two lane words of one fret claim the same (R60). -/
def noConflict (ws : List PWord) : Bool := decide ((ws.filterMap claim).Nodup)

/-- The record words of one queue in program order are whole records (R87): (left, words). -/
def recordsOk : Nat → List Nat → Bool
  | left, [] => left == 0
  | 0, a :: as => decide (0x2000 ≤ a) && recordsOk ((if a / 256 % 32 = 0 then 32 else a / 256 % 32) - 1) as
  | k + 1, a :: as => decide (a < 0x2000) && recordsOk k as

/-- R87 over every queue. -/
def allRecordsOk (ws : List PWord) : Bool :=
  (List.range 64).all fun q => recordsOk 0 ((ofOp 0x20 ws).filterMap fun x => if x.ctx = q then some x.arg else none)

/-- The contexts that a context code stands for (R83). -/
def ctxMembers (c : State) (k : Nat) : List Nat := if k < 64 then [k] else (c.sched.groups[k - 64]?).getD []

/-- R156 on the TARGET words. -/
def targetsOk (c : State) (ws : List PWord) : Bool :=
  let ts := ofOp 0x12 ws
  (ts.all fun x => decide (64 ≤ x.arg) ||
      (fget c (Fld.LOOP_CFG_REFSRC x.arg) == 1 && !(ctxMembers c x.ctx).contains x.arg)) &&
    (ts.all fun x => ts.all fun y => x.arg != y.arg || x.ctx == y.ctx) &&
    (List.range 64).all fun n => !loopUsed c n || fget c (Fld.LOOP_CFG_REFSRC n) != 1 || ts.any fun x => x.arg == n

/-- The reserved bits of the foldback entry of port `p` (R18, R159). -/
def foldReservedOk (c : State) (p : Nat) : Bool :=
  let w := fun (j : Nat) => engWord c (0x70000 + 0x20 * p + 4 * j)
  ((List.range 4).all fun j => getBits (w j) 14 2 == 0 && getBits (w j) 26 6 == 0) &&
    ((List.range 3).all fun j => !vwReserved (w (4 + j))) && w 7 == 0

/-- R159 on the ports that a THRESH word names: the foldback entry and the owner of CMP0. -/
def foldbackOk (c : State) (ws : List PWord) : Bool :=
  (ofOp 0x11 ws).all fun x =>
    let vo := fun (j : Nat) => getBits (engWord c (0x70000 + 0x20 * x.port + 4 * j)) 0 14
    decide (vo 0 < vo 1) && decide (vo 1 < vo 2) && decide (vo 2 < vo 3) && foldReservedOk c x.port &&
      (ofOp 0x10 ws).all fun y => !(y.port == x.port && y.arg == 5)

/-- R137 on LOOP_SRC of a loop: no reserved signal code. -/
def loopSrcOk (c : State) (n : Nat) : Bool := signalOk (fget c (Fld.LOOP_SRC_ZSRC n)) && signalOk (fget c (Fld.LOOP_SRC_REFSIG n))

/-- R18, R137, R159 and R161 on the table area of an image: no reserved signal code and no reserved bits in any entry. -/
def tablesOk (c : State) : Bool :=
  ((List.range 256).all fun i => telemetryOk (telemetryEntry c i).1 && (telemetryEntry c i).2) &&
    (List.range 32).all (foldReservedOk c)

/-- R198: the SHARE words of a variant, and the enrolment that SHARE and BAL of a course require. -/
def shareOk (c : State) (ws : List PWord) : Bool :=
  let sen := fun (p : Nat) => bit c (Fld.CAPO_PORT_SEN p)
  let sl := fun (p : Nat) => fget c (Fld.CAPO_PORT_SLOOP p)
  let count := fun (p a : Nat) => ((ofOp 0x1A ws).filter fun x => x.port == p && x.arg == a).length
  ((List.range 32).all fun p => (List.range 3).all fun a => count p a == (sen p).toNat) &&
    (List.range 32).all fun k =>
      let ps := coursePorts c k
      let sh := bit c (Fld.CAPO_COURSE_SHARE k)
      let bal := bit c (Fld.CAPO_COURSE_BAL k)
      (!(sh || bal) || ps.all sen) && (!bal || (ps.all (fun p => decide (sl p < 64)) && decide ((ps.map sl).Nodup))) &&
        (!sh || ps.any fun p => decide (sl p < 64))

/-- The fret of the only word of V0 with a CAPO step, if there is exactly one (R204). -/
def capoAt (ws : List PWord) (arg : Nat) : Option Nat :=
  match (ofOp 0x19 ws).filter fun x => x.arg == arg with | [x] => some x.fret | _ => none

/-- Every step is at least 4 frets after the one before it (R204). -/
def spaced : List Nat → Bool
  | [] => true
  | [_] => true
  | x :: y :: xs => decide (x + 4 ≤ y) && spaced (y :: xs)

/-- R204 on the CAPO words of V0. -/
def capoStepsOk (c : State) (ws : List PWord) : Bool :=
  let terms := (List.range 24).filter fun j => bit c (Fld.CAPO_TERM_SIG_EN j)
  let need := !terms.isEmpty || (List.range 64).any fun k => bit c (Fld.CAPO_LIM_CFG_EN k)
  let count := fun (a : Nat) => ((ofOp 0x19 ws).filter fun x => x.arg == a).length
  let ct := (List.range 32).all fun k => count (5 + 16 * k) == (bit c (Fld.CAPO_COURSE_SHARE k)).toNat
  let hu := count 6 == (hasAcBus c || bit c Fld.CAPO_CFG_INSRC).toNat
  let power := (List.range 24).all (fun j => count (16 * j) == (need && bit c (Fld.CAPO_TERM_SIG_EN j)).toNat) &&
    count 1 == need.toNat && count 2 == need.toNat && (List.range 8).all (fun p => count (3 + 16 * p) == need.toNat) &&
    (List.range 4).all fun g => count (4 + 16 * g) == need.toNat
  let fr := fun (a : Nat) => (capoAt ws a).getD 0
  let lastTerm := terms.foldl (fun x j => max x (fr (16 * j))) 0
  let firstWrite := (List.range 3).foldl (fun x g => min x (fr (4 + 16 * (g + 1)))) (fr 4)
  let order := !need ||
    ((terms.isEmpty || decide (lastTerm + 4 ≤ fr 1)) &&
      spaced ([fr 1, fr 2] ++ (List.range 8).map (fun p => fr (3 + 16 * p)) ++ [firstWrite]))
  ct && hu && power && order

/-- The lane words of one variant (R60, R78, R79, R87, R159, R198, R527). -/
def variantOk (c : State) (ws : List PWord) : Bool :=
  (ws.all fun x => !selfRejected c x.word.op.toNat x.word.fields) && noConflict ws && allRecordsOk ws && foldbackOk c ws &&
    shareOk c ws

/-- The rules of order 12 on V0 alone (R204), or on words without a port (R156). -/
def baseOk (c : State) (v0 : List PWord) : Bool := targetsOk c v0 && capoStepsOk c v0

/-- Order 12 of R71. -/
def order12 (s : State) (m : Img) (c : State) : Option Reject :=
  let rlen := c.time.cfg.rlen
  let v0 := progWords s m rlen
  let ix := fun (t : Nat) => match sectOf s m t with | some x => x.idx | none => 0x1F
  firstFail 0x0C
    ([(programOk s m rlen v0, ix 0x10)] ++ ((List.range 3).map fun k => (patchOk s m rlen (k + 1), ix (0x11 + k))) ++
      [((List.range 64).all (loopSrcOk c), ix 0x04), (tablesOk c, ix 0x0F), (baseOk c v0, ix 0x10)] ++
      (variants s m).map fun v => (variantOk c (variantWords s m v v0), ix (0x10 + v)))

/-! ### Order 13: latency and rotation -/

/-- The latency entries of an image (R81), and whether the section is a list of well-formed ones. -/
def latEntries (s : State) (m : Img) : List LatEntry × Bool :=
  match sectOf s m 0x05 with
  | none => ([], true)
  | some x =>
    let n := x.len / 8
    ((List.range n).map fun i =>
      let o := x.off + 8 * i
      ⟨imgNat s m o 1, imgNat s m (o + 1) 1, imgNat s m (o + 4) 2, imgNat s m (o + 6) 2⟩,
     x.len % 8 == 0 && (List.range n).all fun i => imgZero s m (x.off + 8 * i + 2) 2)

/-- A context belongs to a rotation group (R83). -/
def grouped (c : State) (n : Nat) : Bool := c.sched.groups.any fun g => g.contains n

/-- The context codes that must have a latency entry (R81). -/
def latNeeded (c : State) : List Nat :=
  (List.range 64).filter (fun n => loopUsed c n && !grouped c n) ++ (List.range c.sched.groups.length).map (64 + ·)

/-- The latency of an entry (R81). -/
def latency (e : LatEntry) (rlen : Nat) : Nat := if e.sfret < e.cfret then e.cfret - e.sfret else rlen - e.sfret + e.cfret

/-- The program holds the SAMPLE of the entry (or its MEAS, R138) and its output operation at the declared frets (R81). The
SAMPLE is of a port and channel that a READ of the entry's context reads (DEDUCED: log entry 61). -/
def latPlaced (ws : List PWord) (e : LatEntry) : Bool :=
  let reads := (ofOp 0x02 ws).filter fun x => x.ctx == e.ctx && decide (x.arg < 0x2000)
  let sample := (ofOp 0x01 ws).any fun x => x.fret == e.sfret && reads.any fun y => y.port == x.port && y.arg == x.arg
  let meas := (ofOp 0x03 ws).any fun x => x.fret == e.sfret && x.ctx == e.ctx
  let out := ws.any fun x => (x.word.op == 0x10 || x.word.op == 0x12) && x.fret == e.cfret && x.ctx == e.ctx
  (sample || meas) && out

/-- R81 on one entry. -/
def latOk (c : State) (ws : List PWord) (e : LatEntry) : Bool :=
  let rlen := c.time.cfg.rlen
  let l := latency e rlen
  let d := if e.ctx < 64 then 1 else (ctxMembers c e.ctx).length
  (latNeeded c).contains e.ctx && e.d == d && decide (e.sfret < rlen) && decide (e.cfret < rlen) && decide (48 ≤ l) &&
    decide (l ≤ rlen - 1) && (decide (e.ctx < 64) || decide (e.sfret < e.cfret)) && latPlaced ws e

/-- R83 on LOOP_CFG.GROUP of loop `n`. -/
def groupFieldOk (c : State) (n : Nat) : Bool :=
  let g := fget c (Fld.LOOP_CFG_GROUP n)
  match c.sched.groups.findIdx? fun ms => ms.contains n with
  | some k => g == k
  | none => g == 0x1F

/-- The round-length floor of R84 for loop `n`. -/
def floorOk (c : State) (n : Nat) : Bool :=
  let d := match c.sched.groups.find? fun ms => ms.contains n with | some ms => ms.length | none => 1
  !loopUsed c n || decide ((if c.time.cfg.profile = 0 then 125 else 250) ≤ c.time.cfg.rlen * d)

/-- Order 13 of R71. -/
def order13 (s : State) (m : Img) (c : State) : Option Reject :=
  let ix := fun (t : Nat) => match sectOf s m t with | some x => x.idx | none => 0x1F
  let le := latEntries s m
  let v0 := progWords s m c.time.cfg.rlen
  firstFail 0x0D
    [ (le.2, ix 0x05), (le.1.all (latOk c v0), ix 0x05), (decide ((le.1.map (·.ctx)).Nodup), ix 0x05),
      ((latNeeded c).all fun k => le.1.any fun e => e.ctx == k, ix 0x05),
      ((rotation s m).2, ix 0x06), (decide (c.sched.groups.flatten.Nodup), ix 0x06),
      ((List.range 64).all (groupFieldOk c), ix 0x04), ((List.range 64).all (floorOk c), ix 0x06) ]

/-! ### Orders 14 and 15 -/

/-- Order 14 of R71: every queue of a QPUSH has the engine as its producer (R371). -/
def order14 (s : State) (m : Img) (c : State) : Bool :=
  (ofOp 0x20 (progWords s m c.time.cfg.rlen)).all fun x => fget c (Fld.HOSTIF_Q_CFG_PROD x.ctx) == 1

/-- Order 15 of R71: the proof summary (R69). -/
def order15 (s : State) (m : Img) (c : State) : Bool :=
  match sectOf s m 0x20, sectOf s m 0x10 with
  | some x, some p =>
    let lim := profileKHz c.time.cfg.profile
    x.len == 32 && imgNat s m x.off 1 == c.time.cfg.profile && imgZero s m (x.off + 1) 3 && imgZero s m (x.off + 14) 2 &&
      imgZero s m (x.off + 24) 8 && decide (imgNat s m (x.off + 4) 4 ≤ lim.1) && decide (lim.2 ≤ imgNat s m (x.off + 8) 4) &&
      imgNat s m (x.off + 12) 2 == imgNat s m p.off 2 && imgNat s m (x.off + 16) 4 == imgNat s m (p.off + 4) 4
  | _, _ => false

/-- The checks of R71 on a structure image, stopping at the first failure (R72). -/
def imageCheck (s : State) (m : Img) : Option Reject :=
  match containerCheck s m with
  | some r => some r
  | none =>
    let c := candidate s m
    let ix := fun (t : Nat) => match sectOf s m t with | some x => x.idx | none => 0x1F
    match order10 s m c with
    | some r => some r
    | none =>
      if !order11 c then some ⟨0x0B, ix 0x02⟩
      else
        match order12 s m c, order13 s m c with
        | some r, _ => some r
        | none, some r => some r
        | none, none =>
          if !order14 s m c then some ⟨0x0E, ix 0x10⟩
          else if !order15 s m c then some ⟨0x0F, ix 0x20⟩
          else none

end Sys2Proof.Machine
end

