-- ==== Sys2Proof/Machine/Loader.lean ====
section
/-! DEFINITION. Sys2Proof/Machine/Loader.lean: what a load of a structure image does (R71 to R75): an accepted image applied,
a rejected one reported. -/

namespace Sys2Proof.Machine

/-- An area of engine memory cleared. -/
def clearEngine (s : State) (lo hi : Nat) : State :=
  { s with engMem := s.engMem.filter fun c => !(decide (lo ≤ c.1 ∧ c.1 < hi)) }

/-- The start of the slot of variant `v` in the program area (R92). -/
def variantBase (rlen v : Nat) : Nat := if 2048 < rlen then v * 0x30000 else v * 0x18000

/-- A lane word as its 32 bits (R78). -/
def laneBits (w : LaneWord) : Word :=
  BitVec.ofNat 32 (w.op.toNat * 2 ^ 26 + w.fields.ctx.toNat * 2 ^ 19 + w.fields.port.toNat * 2 ^ 14 + w.fields.arg.toNat)

/-- The resident variants built in the program area (R67, R75, R92). -/
def buildProgram (s : State) (m : Img) (rlen : Nat) : State :=
  let v0 := progWords s m rlen
  (variants s m).foldl (fun s v => (variantWords s m v v0).foldl (fun s x =>
    engSetWord s (variantBase rlen v + 4 * (12 * x.fret + x.lane)) (laneBits x.word)) s) (clearEngine s 0 0x60000)

/-- Both banks of every loop filled with the loaded words (R75, R154). -/
def buildBanks (s : State) (es : List (Nat × Word)) : State :=
  (List.range 64).foldl (fun s n => (List.range 2).foldl (fun s b => bankOffsets.foldl (fun s o =>
    engSetWord s (0x60000 + n * 0x400 + b * 0x200 + o) (loadedBank es n o)) s) s) (clearEngine s 0x60000 0x70000)

/-- The ports that the lane words of a variant name, as a mask (R2, R67). -/
def namesOf (ws : List PWord) : Nat :=
  (List.range 32).foldl (fun m p => if ws.any fun x => opHasPort x.word.op.toNat && x.port == p then m + 2 ^ p else m) 0

/-- The longest run of frets without a SAMPLE of port `p`, taken circularly (R483). -/
def checkWindow (ws : List PWord) (rlen p : Nat) : Nat :=
  let fs := (ofOp 0x01 ws).filterMap fun x => if x.port = p then some x.fret else none
  if fs.isEmpty then rlen
  else fs.foldl (fun best f => max best (fs.foldl (fun k g => min k ((g + rlen - f - 1) % rlen)) rlen)) 0

/-- The ports that a variant leaves no check window, as a mask (R483): `sp` is the strobe spacing of R99. -/
def naOf (ws : List PWord) (rlen sp : Nat) : Nat :=
  (List.range 32).foldl (fun m p => if checkWindow ws rlen p < 3 * sp then m + 2 ^ p else m) 0

/-- The COMMIT words of a variant (R111). -/
def commitsOf (v : Nat) (ws : List PWord) : List CommitRef :=
  (ofOp 0x10 ws).map fun x => ⟨v, x.ctx, x.port, x.arg⟩

/-- What the schedule holds of an accepted image (R75). -/
def buildSched (s c : State) (m : Img) : State :=
  let rlen := c.time.cfg.rlen
  let v0 := progWords s m rlen
  let of_ := fun (v : Nat) => if (variants s m).contains v then variantWords s m v v0 else []
  setSched s fun x => { x with
    startDue := true
    autoarm := imgNat s m 0x020 1 == 1
    keyslot := imgNat s m (totalLen s m - 104) 1
    groups := (rotation s m).1
    lat := (latEntries s m).1
    next := Vector.ofFn fun v => namesOf (of_ v.val)
    commits := (variants s m).flatMap fun v => commitsOf v (of_ v)
    adcNa := Vector.ofFn fun v => naOf (of_ v.val) rlen (adcSpacing c)
    swapReq := false }

/-- The registers in which an accepted image is reported (R75, R96); a variant request that still waits meets the activation and is refused
(R90). -/
def buildStatus (s c : State) (m : Img) : State :=
  let av := (variants s m).foldl (fun k v => k + 2 ^ v) 0
  let s1 := fput (fput s Fld.SCHED_STATUS_VAVAIL av) Fld.SCHED_STATUS_MODIFIED 0
  let s2 := fputB s1 Fld.SCHED_STATUS_DEVKEY (imgNat s m (totalLen s m - 104) 1 == 0x10)
  let s3 := wr64 s2 Reg.SCHED_IMG_ID_LO Reg.SCHED_IMG_ID_HI (imageId s m)
  let s4 := wr (wr s3 Reg.SCHED_IMG_VER (BitVec.ofNat 32 (imgNat s m 0x018 4))) Reg.SCHED_SHUIDE_VER (BitVec.ofNat 32 (imgNat s m 0x01C 4))
  let s5 := fput s4 Fld.SCHED_SLOTS_USED (match sectOf s m 0x10 with | some x => imgNat s m (x.off + 4) 4 | none => 0)
  let s6 := wr (wr (fput s5 Fld.SCHED_SLOTS_CAPACITY (12 * c.time.cfg.rlen)) Reg.SCHED_SWAP_PEND_LO 0) Reg.SCHED_SWAP_PEND_HI 0
  if bit s6 Fld.SCHED_STATUS_VPEND then refuseVariant s6 else s6

/-- Loop `n` at the acceptance of an image (R146, R529): `old` is the state before it. I, D, e, x, u and the limit flags that the passes read
start at 0; the flags of LOOP_STATUS and the LOOP registers keep what the last evaluation wrote until the next one (DESIGN CHOICE: log
entry 175). -/
def acceptLoop (old : State) (s : State) (n : Fin 64) : State :=
  let o := old.loops.get n
  let used := loopUsed s n
  let ran := o.ev.state == .auto || o.ev.state == .man
  let st : LoopState := if used then .hold else .off
  let l : LoopSt := { LoopSt.reset with
    ev := { LoopSt.reset.ev with state := st }
    prevState := st
    man := o.man
    uman := o.uman
    modePend := o.modePend
    umanPend := o.umanPend
    carry := if used && bit s (Fld.LOOP_CFG_CARRY n) && ran then some o.u.cur else none }
  fput (fput { s with loops := s.loops.set n l } (Fld.LOOP_STATUS_STATE n) st.code) (Fld.LOOP_STATUS_ABANK n) 0

/-- HI of every comparator that a COMMIT or THRESH word of the image targets is owned by the engine (R179). -/
def ownThresholds (s : State) (m : Img) (rlen : Nat) : State :=
  let v0 := progWords s m rlen
  let ws := (variants s m).flatMap fun v => variantWords s m v v0
  (List.range 32).foldl (fun s p => (List.range 4).foldl (fun s j =>
    fputB s (Fld.CMP_STATUS_HI_OWNED p j)
      (ws.any fun x => x.port == p && ((x.word.op == 0x10 && x.arg == 5 + j) || (j == 0 && x.word.op == 0x11)))) s) s

/-- The SEQ configuration of an accepted image takes effect in DOWN, and waits in any other phase (R268). -/
def acceptSeq (old : State) (s : State) : State :=
  let new := seqCfgRegs.map fun a => (a, rd s a)
  let s1 := setSeq (seqCfgRegs.foldl (fun s a => wr s a (rd old a)) s) fun x => { x with pendCfg := new }
  if seqPhase old == .down then applySeqCfg s1 else fput s1 Fld.SEQ_STATUS_CFG_PEND 1

/-- Battery `b` under an accepted image (R287, R293): a battery that the image does not use has its state cleared. A SAVEP that is new
starts its period (log entry 156). -/
def acceptBatt (old s : State) (b : Fin 2) : State :=
  let s0 := if fget s (Fld.BATT_TIMING_SAVEP b) = fget old (Fld.BATT_TIMING_SAVEP b) then s
    else setBatt s b fun x => { x with saveAt := s.tick }
  if bit s0 (Fld.BATT_CFG_EN b) then
    if battState s0 b == .off then setBatt s0 b fun x => { x with coldDue := true, upTo := s.tick } else s0
  else
    let x := battOf s0 b
    let s1 := setBatt s0 b fun _ => { BattSt.reset with
      temp := x.temp, thBad := x.thBad, rawId := x.rawId, rawRun := x.rawRun, saveAt := x.saveAt, convAt := x.convAt, stepAt := x.stepAt
      upTo := s.tick, snapDue := x.snapDue, restoreDue := x.restoreDue }
    let s2 := [Fld.BATT_STATUS_COLD b, Fld.BATT_STATUS_DISAGREE b, Fld.BATT_STATUS_RESTING b, Fld.BATT_STATUS_ABSENT b,
      Fld.BATT_WARN_SOCW b].foldl (fun s f => fput s f 0) (putBattState s1 b .off)
    clearLive s2 b

/-- A queue whose allocation changes becomes empty (DESIGN CHOICE: log entry 63). -/
def acceptQueue (old : State) (s : State) (q : Fin 64) : State :=
  if rd s (Reg.HOSTIF_Q_CFG q) = rd old (Reg.HOSTIF_Q_CFG q) then s
  else syncQueue { s with queues := s.queues.set q QueueSt.reset } q

/-- The place of a device in the Harness under an accepted image (R314, R331): HARNESS_CFG.ROOT makes it the root, which has no up port; a
root no more is a SHELF whose up port is HUP. -/
def acceptHarn (s : State) : State :=
  if bit s Fld.HARNESS_CFG_ROOT then
    fput (setUpPort (fput s Fld.HARNESS_ROLE_ROLE 0) 3) Fld.HARNESS_STATUS_SWAPPED 0
  else if fget s Fld.HARNESS_ROLE_ROLE = 0 then setUpPort (fput s Fld.HARNESS_ROLE_ROLE 1) 0
  else s

/-- An accepted image applied (R75), engine memory rewritten (R404): configuration lists, tables, variants and banks, and what follows
from them: the comparators and the groups of the feeds follow the new settings (R226, R241). -/
def applyImage (s : State) (m : Img) : State :=
  let es := allEntries s m
  let c := candidate s m
  let s1 := rewriteEngine (loadTables (loadRegs s es) m) fun _ => true
  let s2 := buildStatus (buildSched (buildBanks (buildProgram s1 m c.time.cfg.rlen) es) c m) c m
  let s3 := (List.finRange 64).foldl (acceptLoop s) s2
  let s4 := (List.finRange 64).foldl (acceptQueue s) (acceptSeq s (ownThresholds s3 m c.time.cfg.rlen))
  let s5 := (List.finRange 2).foldl (acceptBatt s) s4
  let s6 := setHk (setTime s5 fun t => { t with take := true }) fun h => { h with afresh := true }
  let tgt := (ofOp 0x12 (progWords s m c.time.cfg.rlen)).foldl (fun k x => if 64 ≤ x.arg && !k.testBit (x.arg - 64) then k + 2 ^ (x.arg - 64) else k) 0
  let s7 := { s6 with capo := { s6.capo with targeted := tgt } }
  let s8 := if s7.capo.safeCap && bit s7 Fld.CAPO_CFG_FLEET then safeBudget s7 else s7
  let s9 := if bit s Fld.SCHED_STATUS_RUN then s8 else fput s8 Fld.TEST_ADC_NA_NA (s8.sched.adcNa.get 0)
  refreshFeeds (refreshSuspension <| (List.finRange 8).foldl resenseFeed (acceptHarn (fput s9 Fld.SCHED_STATUS_LOADED 1)))

/-- SCHED_LOAD written (R96): result, reason, section and source. -/
def putLoad (s : State) (result reason sect : Nat) (activation : Bool) : State :=
  fputB (fput (fput (fput s Fld.SCHED_LOAD_RESULT result) Fld.SCHED_LOAD_REASON reason) Fld.SCHED_LOAD_SECT sect)
    Fld.SCHED_LOAD_SOURCE activation

/-- A load of the structure image in a slot (R71 to R75): the state it leaves, and the reason of a rejection. -/
def loadStructure (u : State) (m : Img) (activation : Bool) : State × Option Reject :=
  let s := nvmReadFaults u m.base m.len
  match imageCheck s m with
  | none => (raise (putLoad (applyImage s m) 1 0 0x1F activation) Fld.SCHED_EVENT_LOAD_OK, none)
  | some r =>
    let s1 := raise (putLoad s 2 r.reason r.sect activation) Fld.SCHED_EVENT_LOAD_REJ
    (report s1 0x0280 0 0 0 (stampI s1), some r)

end Sys2Proof.Machine
end

