-- ==== Sys2Proof/Machine/Recorder.lean ====
section
/-! DEFINITION. Sys2Proof/Machine/Recorder.lean: the Saddlebag, the fault snapshots and the life ledger (spec/14): the block writes
(R408 to R412), freeze and clear (R416 to R418), snapshots (R422, R423), commits (R427 to R429) and wall time (R430). -/

namespace Sys2Proof.Machine

/-- The recorder changed in what no register holds. -/
def setRec (s : State) (f : RecSt → RecSt) : State := { s with saddle := f s.saddle }

/-- The bytes of `n` consecutive registers. -/
def regBytes (s : State) (a n : Nat) : List Byte := (List.range n).flatMap fun k => leBytes 4 (rd s (a + 4 * k)).toNat

/-- Registers from address `a` up made to hold a byte string. -/
def putRegBytes (s : State) (a : Nat) (bs : List Byte) : State :=
  (List.range ((bs.length + 3) / 4)).foldl (fun s k => wr s (a + 4 * k) (BitVec.ofNat 32 (ofLeBytes ((bs.drop (4 * k)).take 4)))) s

/-- The device ID as eight bytes (R435). -/
def deviceIdBytes : List Byte := leBytes 8 Config.deviceId

/-- A fresh random byte string (R417, R453, R493) and the state that has drawn it. -/
def drawBytes (s : State) (n : Nat) : List Byte × State :=
  (leBytes n (Config.random s.free (8 * n)), { s with free := s.free + 1 })

/-! ### Records and their slots (R410, R411) -/

/-- Bytes 0 to 62 of a record (R410): its payload has 36 bytes, those that it does not list 0 (R414). -/
def recordBody (r : Record) (seq : Nat) : List Byte :=
  let pay := (r.payload ++ List.replicate 36 0).take 36
  let b := leBytes 1 r.typ ++ leBytes 1 r.sev ++ leBytes 2 r.code ++ leBytes 8 r.stamp ++ leBytes 4 r.wall ++ leBytes 4 seq ++ pay
  b ++ leBytes 4 (crc32 b).toNat ++ [0, 0, 0]

/-- Where the record of a sequence number lies in NVM (R411). -/
def recordSlotAt (seq : Nat) : Nat := 0x200000 + 64 * (seq % 16384)

/-- `n` bytes of NVM from offset `o` erased (R408): a word with a double-bit error among them is good again once it is rewritten. -/
def nvmErase (s : State) (o n : Nat) : State :=
  { s with
    nvm := s.nvm.filter fun c => decide (c.1 < o) || decide (o + n ≤ c.1)
    nvmBad := s.nvmBad.filter fun w => decide (w < o) || decide (o + n ≤ w) }

/-- `n` bytes of NVM from offset `o` up whose program was found bad: what they hold is open. -/
def nvmSpoil (s : State) (o n : Nat) : State :=
  { nvmSetBytes s o ((List.range n).map fun k => Config.freeByte (s.free + k)) with free := s.free + n }

/-- A valid record lies in slot `j`: it can be read (R404), and MARK, CRC and place are right (R410, R411, R415); its sequence number. -/
def slotRecord (s : State) (j : Nat) : Option Nat :=
  let o := 0x200000 + 64 * j
  let seq := (nvmWord s (o + 16)).toNat
  if !nvmFails s o 64 ∧ nvmByte s (o + 63) = 0x5A ∧ crc32 (nvmBytes s o 56) = nvmWord s (o + 56) ∧ seq % 16384 = j then some seq else none

/-- Sequence numbers compare as angles (R20, R411): `a` lies at or above `b`. -/
def seqAtLeast (a b : Nat) : Bool := decide ((a + 2 ^ 32 - b) % 2 ^ 32 < 2 ^ 31)

/-- Saddlebag records may be written: not frozen (R416), not in BOOT or a firmware pause (R413, R450). -/
def recordsFlow (s : State) : Bool :=
  !bit s Fld.REC_STATUS_FROZEN && s.trust.pause.isNone && (match devState s with | .idle | .armed | .safe | .test => true | _ => false)

/-! ### Block writes (R408, R409, R412) -/

/-- The 64 bytes of block `k` of a byte string. -/
def blockOf (bs : List Byte) (k : Nat) : List Byte := (bs.drop (64 * k)).take 64

/-- A record is the Fault record of a fault (R414): by code, stamp and scope. -/
def recordOf (r : Record) (code stamp : Nat) (scope : Nat × Nat) : Bool :=
  r.typ == 1 && r.code == code && r.stamp == stamp && (r.payload.getD 0 0).toNat == scope.1 && (r.payload.getD 1 0).toNat == scope.2

/-- The waiting snapshots learn the SEQ of their Fault record, and the new one of a record that is written once more (R412, R423). -/
def noteRecordSeq (s : State) (r : Record) (seq : Nat) : State :=
  setRec s fun x => { x with
    snaps := x.snaps.map fun y => if recordOf r y.code y.stamp y.scope then { y with recSeq := some seq } else y
    asked := x.asked.map fun y => if recordOf r y.code y.stamp y.scope then { y with recSeq := some seq } else y }

/-- A record's block write begins (R411, R412): the next sequence number, and the erase of its slot. -/
def startRecord (s : State) (r : Record) (again : Bool) : State :=
  let seq := (rd s Reg.REC_NEXT).toNat
  let s1 := nvmErase (wr s Reg.REC_NEXT (BitVec.ofNat 32 (seq + 1))) (recordSlotAt seq) 64
  setRec (noteRecordSeq s1 r seq) fun x => { x with job := some (.record r seq again) }

/-- The block write of the oldest pending record begins, if there is one (R411, R413). -/
def startPending (s : State) : Option State :=
  match s.saddle.pending with
  | r :: rs => some (startRecord (syncPending (setRec s fun x => { x with pending := rs, clearedFirst := false })) r false)
  | [] => none

/-- A Saddlebag record waits that may be written (R409, R412, R413): one that failed its verify goes first, but after the Cleared record of
a new floor (R418). -/
def startSaddlebag (s : State) : Option State :=
  if !recordsFlow s then none
  else
    match s.saddle.retry with
    | some r =>
      if s.saddle.clearedFirst && !s.saddle.pending.isEmpty then startPending s
      else some (startRecord (setRec s fun x => { x with retry := none }) r true)
    | none => startPending s

/-- The Fault record of a snapshot still waits to be written, or to be written once more. -/
def recordWaits (s : State) (x : Snapshot) : Bool :=
  (s.saddle.pending ++ s.saddle.retry.toList).any fun r => recordOf r x.code x.stamp x.scope

/-- The 1,024 bytes of a snapshot as written, MARK left erased (R423). -/
def snapshotBytes (x : Snapshot) (n : Nat) : List Byte :=
  let h := leBytes 2 0x534E ++ leBytes 1 x.course ++ leBytes 1 x.slot ++ leBytes 2 x.code ++ leBytes 1 x.cls ++ leBytes 1 x.members ++
    leBytes 8 x.stamp ++ leBytes 4 (x.recSeq.getD 0) ++ leBytes 4 n
  h ++ leBytes 4 (crc32 (h ++ x.body)).toNat ++ [0xFF, 0, 0, 0] ++ x.body

/-- The write of block `k` of a snapshot begins with its erase (R408, R423). -/
def startSnapBlock (s : State) (x : Snapshot) (n k : Nat) : State :=
  setRec (nvmErase s (snapBase x.course x.slot + 64 * k) 64) fun y => { y with job := some (.snap x n k) }

/-- The next block of a snapshot begins, or a new snapshot (R409, R418, R423). The SEQ of a Fault record that never got one is
a free value. -/
def startSnapshot (s : State) : Option State :=
  match s.saddle.snapRun with
  | some (x, n, k) => some (startSnapBlock s x n k)
  | none =>
    match s.saddle.snaps with
    | x :: xs =>
      if bit s Fld.REC_STATUS_SNAPCLR || recordWaits s x then none
      else
        let n := (rd s Reg.REC_SNAPSEQ).toNat
        let s1 := wr s Reg.REC_SNAPSEQ (BitVec.ofNat 32 (n + 1))
        let x1 := { x with recSeq := some (x.recSeq.getD (Config.freeWord s.free).toNat) }
        some (startSnapBlock (setRec { s1 with free := s1.free + 1 } fun y => { y with
          snaps := xs, snapRun := some (x1, n, 0) }) x1 n 0)
    | [] => none

/-- The 8 KiB ledger image of commit `n` (R427). -/
def ledgerImage (s : State) (n reason : Nat) : List Byte :=
  let put := fun (l : List Byte) (o : Nat) (b : List Byte) => bytesPut l o b
  let z : List Byte := List.replicate 0x1FFC 0
  let h := put (put (put (put (put (put (put z 0 (leBytes 4 0x4C444D5A)) 4 (leBytes 4 n)) 8 (leBytes 8 (stampI s)))
    0x10 (leBytes 4 (rd s Reg.REC_WALL).toNat)) 0x14 (leBytes 1 reason)) 0x15 (leBytes 1 1)) 0x18 (leBytes 4 s.saddle.satur)
  let b := s.saddle.ledger.foldl (fun l e => if e.1 + 4 ≤ 0x1FFC then put l e.1 (leBytes 4 e.2.toNat) else l) h
  b ++ leBytes 4 (crc32 b).toNat

/-- The block written `k`-th in a commit: in ascending order, block 0 last (R428). -/
def commitBlock (k : Nat) : Nat := if k < 127 then k + 1 else 0

/-- Where the image of a commit lies in NVM (R428). -/
def commitAtNvm (n : Nat) : Nat := 0x300000 + 0x2000 * (n % 64)

/-- The write of a commit's next block begins with its erase (R408, R428). -/
def startCommitBlock (s : State) (im : List Byte) (n reason k : Nat) : State :=
  setRec (nvmErase s (commitAtNvm n + 64 * commitBlock k) 64) fun y => { y with job := some (.ledger im n reason k) }

/-- The next block of a ledger commit begins, or a commit that waits (R409, R428). -/
def startCommit (s : State) : Option State :=
  match s.saddle.commitRun with
  | some (im, n, reason, k) => some (startCommitBlock s im n reason k)
  | none =>
    match s.saddle.commitDue with
    | some reason =>
      let n := ((rd s Reg.REC_LEDGER).toNat + 1) % 2 ^ 32
      let im := ledgerImage s n reason
      some (startCommitBlock (setRec s fun y => { y with commitDue := none, commitRun := some (im, n, reason, 0) }) im n reason 0)
    | none => none

/-- A block write waits that may begin (R409). -/
def blockWaits (s : State) : Bool := (startSaddlebag s).isSome || (startSnapshot s).isSome || (startCommit s).isSome

/-- A slot below the floor waits to be erased now (R418); no slot is erased while the recorder is frozen (R416). -/
def scrubWaits (s : State) : Bool :=
  bit s Fld.REC_STATUS_SCRUB && decide (s.saddle.scrubAt ≤ s.tick) && !bit s Fld.REC_STATUS_FROZEN

/-- An erase of the background waits (R409, R418). -/
def eraseWaits (s : State) : Bool := s.saddle.snapErase != 0 || scrubWaits s

/-- A write of R409 waits that ranks above image sector erases and page programs. -/
def aboveStaging (s : State) : Bool := blockWaits s || eraseWaits s

/-- The state of the staged slot of a kind (R434). -/
def stagedState (s : State) (fw : Bool) : Nat := if fw then s.trust.fwStg else s.trust.stStg

/-- The bytes of the next page, once they are all in the receive buffer (R446). -/
def nextPage (x : Staging) : Option (List Byte) :=
  let n := min 1024 (x.total - x.done)
  if n ≠ 0 ∧ n ≤ x.buf.length then some (x.buf.take n) else none

/-- An image sector erase or page program waits or runs (R446). -/
def stagingWaits (s : State) : Bool :=
  match s.trust.staging with
  | some x => stagedState s x.fw == 1 || (stagedState s x.fw == 2 && (nextPage x).isSome)
  | none => false

/-! ### Refresh of a block (R489) -/

/-- A block lies in the ring of the Saddlebag (R411). -/
def inRingBlock (o : Nat) : Bool := decide (0x200000 ≤ o) && decide (o < 0x300000)

/-- A block may be refreshed (R489): HUCAP is charged, NVM writes are allowed, and the ring is not frozen (R416). -/
def mayRefresh (s : State) (o : Nat) : Bool :=
  bit s Fld.REC_STATUS_HU_READY && nvmAllowed s && !(inRingBlock o && bit s Fld.REC_STATUS_FROZEN)

/-- The refresh of the block that has waited longest begins; one that may no longer be made is given up (R489, R494). A Saddlebag slot shows
MARK 0xFF meanwhile; any other block reads as before (DESIGN CHOICE: log entry 76). -/
def startRefresh (s : State) : State :=
  match s.saddle.refreshDue with
  | [] => s
  | o :: os =>
    let s1 := setRec s fun x => { x with refreshDue := os }
    if mayRefresh s o then
      let last := nvmByte s (o + 63)
      setRec (if inRingBlock o then nvmSetByte s1 (o + 63) 0xFF else s1) fun x => { x with job := some (.refresh o last) }
    else s1

/-- A refresh completes: the block holds what it held (R489). -/
def finishRefresh (s : State) (o : Nat) (last : Byte) : State :=
  setRec (if inRingBlock o then nvmSetByte s (o + 63) last else s) fun x => { x with job := none }

/-- A block write that begins is what a staging let go first (R409). -/
def served (s : State) : State :=
  { s with trust := { s.trust with staging := s.trust.staging.map fun x => { x with owes := false } } }

/-- REC_BLOCK_WRITE_START (R409, R489): the block write of the highest-priority item that waits begins; a refresh ranks below every other
write. -/
def execRecBlockWriteStart (s : State) : Host.Outcome State Fault Refusal :=
  if s.saddle.job.isSome || !nvmAllowed s then .next s
  else
    match startSaddlebag s with
    | some t => .next (served t)
    | none =>
      match startSnapshot s with
      | some t => .next (served (syncSnaps t))
      | none =>
        match startCommit s with
        | some t => .next (served t)
        | none => .next (if eraseWaits s || stagingWaits s then s else startRefresh s)

/-- A record's block write completes (R412); `ok` is what the verify read found. -/
def finishRecord (s : State) (r : Record) (seq : Nat) (again ok : Bool) : State :=
  let s0 := if ok then nvmSetBytes s (recordSlotAt seq) (recordBody r seq) else nvmSpoil s (recordSlotAt seq) 63
  let s1 := setRec s0 fun x => { x with job := none }
  if ok || !bit s Fld.REC_CFG_WVERIFY then ledgerAdd (nvmSetByte s1 (recordSlotAt seq + 63) 0x5A) 0xE0 1
  else
    let s2 := reportCorrected (raise (inc s1 Fld.REC_CNT_VERIFY_CNT) Fld.REC_EVENT_VERIFY) 0x0D02 (stampI s1)
    if again then inc s2 Fld.REC_CNT_LOST else setRec s2 fun x => { x with retry := some r }

/-- A block of a snapshot completes; MARK follows the last (R423). -/
def finishSnap (s : State) (x : Snapshot) (n k : Nat) : State :=
  let o := snapBase x.course x.slot
  let s1 := ledgerAdd (nvmSetBytes s (o + 64 * k) (blockOf (snapshotBytes x n) k)) 0xE4 1
  if k < 15 then setRec s1 fun y => { y with job := none, snapRun := some (x, n, k + 1) }
  else syncSnaps (setRec (nvmSetByte s1 (o + 28) 0x5A) fun y => { y with job := none, snapRun := none })

/-- A block of a commit completes; the last one completes the commit, and its record follows (R414, R428). -/
def finishLedger (s : State) (im : List Byte) (n reason k : Nat) : State :=
  let b := commitBlock k
  let s1 := nvmSetBytes s (commitAtNvm n + 64 * b) (blockOf im b)
  if k < 127 then setRec s1 fun y => { y with job := none, commitRun := some (im, n, reason, k + 1) }
  else
    let s2 := ledgerAdd (setRec s1 fun y => { y with job := none, commitRun := none }) 0xE8 1
    let s3 := raise (wr s2 Reg.REC_LEDGER (BitVec.ofNat 32 n)) Fld.REC_EVENT_COMMIT_DONE
    pushRecord s3 7 0 0 (stampI s3) (mkPayload [(0, 1, reason), (4, 4, n), (8, 2, n % 64), (12, 4, ofLeBytes (im.drop 0x1FFC))])

/-- A freeze that waited for the record in progress acts (R431). -/
def freezeNow (s : State) : State :=
  if s.saddle.freezeDue then fput (setRec s fun x => { x with freezeDue := false }) Fld.REC_STATUS_FROZEN 1 else s

/-- The block write in progress completes. -/
def finishJob (ok : Bool) (s : State) : State :=
  match s.saddle.job with
  | none => s
  | some (.record r seq again) => freezeNow (finishRecord s r seq again ok)
  | some (.snap x n k) => finishSnap s x n k
  | some (.ledger im n reason k) => finishLedger s im n reason k
  | some (.refresh o last) => freezeNow (finishRefresh s o last)

/-- The block write in progress writes a slot of the Saddlebag. -/
def ringJob (s : State) : Bool :=
  match s.saddle.job with
  | some (.record _ _ _) => true
  | some (.refresh o _) => inRingBlock o
  | _ => false

/-- REC_BLOCK_WRITE_DONE (R412): the block write completes; `ok` is what its verify read finds. -/
def execRecBlockWriteDone (ok : Bool) (s : State) : Host.Outcome State Fault Refusal := .next (finishJob ok s)

/-! ### Commands of REC_CTRL (R414, R416, R417, R428) -/

/-- REC_CTRL.FREEZE (R416): it acts once the record in progress is complete (R431). -/
def recFreeze (s : State) : State :=
  if devState s == .test || (devState s == .idle && !bit s Fld.SCHED_STATUS_LOADED) then
    if ringJob s then setRec s fun x => { x with freezeDue := true } else fput s Fld.REC_STATUS_FROZEN 1
  else s

/-- REC_CTRL.THAW (R416). -/
def recThaw (s : State) : State := endFreeze s

/-- A ledger commit asked for: merged with one that waits or runs (R428). In recovery, in which no image has been loaded (R462), none is made
(DEDUCED: log entry 182). -/
def askCommit (reason : Nat) (s : State) : State :=
  if bit s Fld.TRUST_STATUS_RECOVERY || s.saddle.commitDue.isSome || s.saddle.commitRun.isSome then s
  else setRec s fun x => { x with commitDue := some reason }

/-- REC_CTRL.NONCE_NEW (R417). -/
def recNonceNew (s : State) : State :=
  let d := drawBytes s 16
  fput (putRegBytes d.2 (Reg.REC_NONCE 0) d.1) Fld.REC_STATUS_NONCE 1

/-- REC_CTRL.NOTE (R414): a Host note. -/
def recNote (s : State) : State :=
  raise (pushRecord s 8 0 0 (stampI s) (regBytes s (Reg.REC_NOTE 0) 9)) Fld.REC_EVENT_NOTE_DONE

/-- REC_CTRL.CNT_CLR (R433). -/
def recCntClr (s : State) : State := wr s Reg.REC_CNT 0

/-- A write of REC_CTRL (R433): its bits act in rising order. -/
def writeRecCtrl (v : Word) (s : State) : State :=
  let on := fun (k : Nat) (f : State → State) (t : State) => if v.getLsbD k then f t else t
  on 5 recCntClr (on 4 recNote (on 3 recNonceNew (on 2 (askCommit 2) (on 1 recThaw (on 0 recFreeze s)))))

/-- REC_FREEZE (R416). -/
def execRecFreeze (s : State) : Host.Outcome State Fault Refusal := .next (recFreeze s)

/-- REC_THAW (R416). -/
def execRecThaw (s : State) : Host.Outcome State Fault Refusal := .next (recThaw s)

/-- REC_COMMIT (R428). -/
def execRecCommit (s : State) : Host.Outcome State Fault Refusal := .next (askCommit 2 s)

/-- REC_NONCE_NEW (R417). -/
def execRecNonceNew (s : State) : Host.Outcome State Fault Refusal := .next (recNonceNew s)

/-- REC_NOTE (R414). -/
def execRecNote (s : State) : Host.Outcome State Fault Refusal := .next (recNote s)

/-- REC_CNT_CLR (R433). -/
def execRecCntClr (s : State) : Host.Outcome State Fault Refusal := .next (recCntClr s)

/-- LEDGER_COMMIT_DUE (R428): the commit period has passed on the interface tick. -/
def execLedgerCommitDue (s : State) : Host.Outcome State Fault Refusal :=
  if s.saddle.commitAt + fget s Fld.REC_CFG_COMMIT * 60000000 ≤ s.tick then
    .next (askCommit 1 (setRec s fun x => { x with commitAt := s.tick }))
  else .next s

/-! ### Authorised clearing (R417, R418) -/

/-- A token as the trust block checks it: HMAC-SHA-256 under the OEM clear key; without a key none fits (R417, R453, R493). -/
def tokenFits (s : State) (msg token : List Byte) : Bool :=
  !s.trust.clearKey.isEmpty && hmacSha256 s.trust.clearKey msg == token

/-- The conditions of R418 under which a clear is accepted: `v` is the word written. -/
def clearAccepted (s : State) (v : Word) : Bool :=
  (match devState s with | .idle | .safe | .test => true | _ => false) && getBits v 16 16 == 0x434C && bit s Fld.REC_STATUS_NONCE &&
    getBits v 0 2 != 0 && !bit s Fld.REC_STATUS_LOCKOUT &&
    tokenFits s (regBytes s (Reg.REC_NONCE 0) 4 ++ [wordByte v 0] ++ deviceIdBytes) (regBytes s (Reg.REC_TOKEN 0) 8)

/-- A Cleared record of subtype 0x01 or 0x02 (R414). -/
def clearedPayload (sub : Nat) (nonce : List Byte) (floor : Nat) : List Byte :=
  mkPayload [(0, 1, sub), (4, 8, ofLeBytes (nonce.take 8)), (12, 4, floor)]

/-- A record put ahead of every pending one (R418); when the queue is full its youngest record is lost (R413). -/
def putFirst (s : State) (r : Record) : State :=
  if s.saddle.pending.length < 128 then syncPending (setRec s fun x => { x with pending := r :: x.pending })
  else recordLost (setRec s fun x => { x with pending := r :: x.pending.dropLast })

/-- The Saddlebag cleared (R418). -/
def clearSaddlebag (s : State) (nonce : List Byte) : State :=
  let n := (rd s Reg.REC_NEXT).toNat
  let s1 := programTrust (fput (wr s Reg.REC_FLOOR (rd s Reg.REC_NEXT)) Fld.REC_STATUS_SCRUB 1)
  let s2 := setRec s1 fun x => { x with scrub := (n % 16384, 16384), scrubAt := s.tick, clearedFirst := true }
  putFirst s2 ⟨3, 0, 0, stampI s2, recWall s2, clearedPayload 1 nonce n⟩

/-- The erase of every snapshot begins (R418). -/
def clearSnapshots (s : State) (nonce : List Byte) : State :=
  fput (setRec s fun x => { x with snapErase := 256, snapNonce := nonce }) Fld.REC_STATUS_SNAPCLR 1

/-- A refused clear (R418). -/
def clearRefused (s : State) : State :=
  let n := s.saddle.refusals + 1
  let s1 := raise (setRec s fun x => { x with refusals := n }) Fld.REC_EVENT_CLR_REF
  reportCorrected (if 4 ≤ n then fput s1 Fld.REC_STATUS_LOCKOUT 1 else s1) 0x0D04 (stampI s1)

/-- A write of REC_CLEAR (R418): it consumes the nonce whatever its outcome. -/
def writeRecClear (v : Word) (s : State) : State :=
  let nonce := regBytes s (Reg.REC_NONCE 0) 4
  let s0 := fput (putRegBytes s (Reg.REC_NONCE 0) (List.replicate 16 0)) Fld.REC_STATUS_NONCE 0
  if clearAccepted s v then
    let s1 := raise s0 Fld.REC_EVENT_CLR_DONE
    let s2 := if v.getLsbD 0 then clearSaddlebag s1 nonce else s1
    if v.getLsbD 1 then clearSnapshots s2 nonce else s2
  else clearRefused s0

/-- REC_CLEAR (R418). -/
def execRecClear (v : Word) (s : State) : Host.Outcome State Fault Refusal := .next (writeRecClear v s)

/-- The background erase of one slot below the floor (R418): a slot that holds, or receives, a record at or above the floor stays. -/
def scrubSlot (s : State) : State :=
  let j := s.saddle.scrub.1
  let left := s.saddle.scrub.2 - 1
  let floor := (rd s Reg.REC_FLOOR).toNat
  let kept := (match slotRecord s j with | some q => seqAtLeast q floor | none => false) ||
    (match s.saddle.job with | some (.record _ q _) => q % 16384 == j | _ => false)
  let s1 := if kept then s else nvmErase s (0x200000 + 64 * j) 64
  let s2 := setRec s1 fun x => { x with scrub := ((j + 1) % 16384, left), scrubAt := s.tick + 2000 }
  if left = 0 then fput s2 Fld.REC_STATUS_SCRUB 0 else s2

/-- The erase of one snapshot slot (R418); after the last, the Cleared record of subtype 0x02. -/
def eraseSnapSlot (s : State) : State :=
  let k := s.saddle.snapErase - 1
  let s1 := setRec (nvmErase s (0x380000 + 0x400 * k) 0x400) fun x => { x with snapErase := k }
  if k = 0 then
    let s2 := fput s1 Fld.REC_STATUS_SNAPCLR 0
    pushRecord s2 3 0 0 (stampI s2) (clearedPayload 2 s2.saddle.snapNonce (rd s2 Reg.REC_FLOOR).toNat)
  else s1

/-- REC_SCRUB_ERASE (R409, R418): the background erase removes one slot below the floor in 2 ms, or one snapshot slot; it ranks below every
block write that is in progress or waits. -/
def execRecScrubErase (snapshot : Bool) (s : State) : Host.Outcome State Fault Refusal :=
  if !nvmAllowed s || s.saddle.job.isSome || blockWaits s then .next s
  else if snapshot then (if s.saddle.snapErase = 0 then .next s else .next (served (eraseSnapSlot s)))
  else if scrubWaits s then .next (served (scrubSlot s))
  else .next s

/-! ### Snapshots (R422, R423) -/

/-- The used ports of course `c`, by member index (R123, R423). -/
def memberPort (s : State) (c m : Nat) : Option Nat :=
  (List.range 32).find? fun p => portUsed s p && courseOf s p == c && fget s (Fld.PORT_CFG_MEMBER p) == m

/-- The 64 bytes of member port `p` in a snapshot (R423). -/
def memberBytes (s : State) (p : Nat) : List Byte :=
  let w := fun (a : Nat) => leBytes 4 (hostSees s a).toNat
  leBytes 1 p ++ leBytes 1 (hostSees s (Reg.PORT_STATUS p)).toNat ++ [0, 0] ++
    w (Reg.PORT_SAMP_I p) ++ w (Reg.PORT_SAMP_VO p) ++ w (Reg.PORT_SAMP_VI p) ++ w (Reg.PORT_ONTIME_A p) ++ w (Reg.PORT_ONTIME_B p) ++
    w (Reg.PORT_SHIFT p) ++ w (Reg.PORT_SHIFT_B p) ++ w (Reg.PORT_PERIOD p) ++
    (List.range 4).flatMap (fun c => leBytes 1 (getBits (rd s (Reg.CMP_STATUS p c)) 0 4)) ++
    (List.range 4).flatMap (fun c => w (Reg.CMP_THR_ACT p c)) ++ List.replicate 8 0

/-- The 28 bytes of loop `n` in a snapshot (R423). -/
def loopBytes (s : State) (n : Nat) : List Byte :=
  let w := fun (a : Nat) => leBytes 4 (hostSees s a).toNat
  leBytes 1 n ++ leBytes 1 (hostSees s (Reg.LOOP_STATUS n)).toNat ++ [0, 0] ++
    w (Reg.LOOP_R n) ++ w (Reg.LOOP_Y n) ++ w (Reg.LOOP_E n) ++ w (Reg.LOOP_I n) ++ w (Reg.LOOP_D n) ++ w (Reg.LOOP_U n)

/-- The loops of a course in context order, sixteen at most (R423). -/
def courseLoops (s : State) (c : Nat) : List Nat :=
  ((List.range 64).filter fun n => bit s (Fld.LOOP_CFG_USED n) && loopCourse s n == some c).take 16

/-- Bytes 32 to 1023 of the snapshot of a course (R423). -/
def snapshotBody (s : State) (c : Nat) : List Byte :=
  let ports := (List.range 8).flatMap fun m =>
    match memberPort s c m with | some p => memberBytes s p | none => List.replicate 64 0
  let ls := (courseLoops s c).flatMap (loopBytes s)
  ports ++ ls ++ List.replicate (448 - ls.length) 0 ++
    (List.range 8).flatMap (fun g => leBytes 2 (fget s (Fld.HK_G_STAT_TEMP g))) ++
    leBytes 1 (s.hk.inForce.toList.getD c 0) ++ List.replicate 15 0

/-- REPLICA_REFRESH (R52, R57, R130, R165): snapshots asked for before it take their values from it (R422). -/
def execReplicaRefresh (s : State) : Host.Outcome State Fault Refusal :=
  let t := refreshReplica s
  let hold := fun (r : SnapReq) => if r.got.isSome then r else { r with
    got := some (((List.range 8).filter fun m => (memberPort t r.course m).isSome).length, snapshotBody t r.course) }
  .next (setRec t fun x => { x with asked := x.asked.map hold })

/-- A snapshot asked for whose values have been taken (R422). -/
def captured (r : SnapReq) : Option Snapshot :=
  r.got.map fun g => ⟨r.scope, r.course, r.slot, r.code, r.cls, r.stamp, g.1, r.recSeq, g.2⟩

/-- SNAPSHOT_CAPTURE (R422): the snapshots asked for before the last refresh of the replicas join the pending buffer. -/
def execSnapshotCapture (s : State) : Host.Outcome State Fault Refusal :=
  .next (syncSnaps (setRec s fun x => { x with
    asked := x.asked.filter fun r => r.got.isNone
    snaps := x.snaps ++ x.asked.filterMap captured }))

/-! ### BOOT (R411, R429) -/

/-- The ring scan (R404, R411): REC_NEXT is the larger of REC_FLOOR and one above the highest valid sequence number. -/
def ringScan (s : State) : State :=
  let floor := (rd s Reg.REC_FLOOR).toNat
  let s1 := nvmReadFaults s 0x200000 0x100000
  let top := (List.range 16384).foldl (fun b j =>
    match slotRecord s j with
    | some q => if seqAtLeast (q + 1) b then (q + 1) % 2 ^ 32 else b
    | none => b) floor
  wr s1 Reg.REC_NEXT (BitVec.ofNat 32 top)

/-- The ledger image at a position, when it can be read and is valid: its commit number (R404, R429). -/
def ledgerAt (s : State) (k : Nat) : Option Nat :=
  let o := 0x300000 + 0x2000 * k
  if !nvmFails s o 0x2000 ∧ nvmWord s o = 0x4C444D5A ∧ nvmByte s (o + 0x15) = 1 ∧ crc32 (nvmBytes s o 0x1FFC) = nvmWord s (o + 0x1FFC) then
    some (nvmWord s (o + 4)).toNat
  else none

/-- The valid image of the highest commit number: position and number (R429). -/
def newestLedger (s : State) : Option (Nat × Nat) :=
  (List.range 64).foldl (fun b k =>
    match ledgerAt s k with
    | some n => (match b with | some (_, m) => if m < n then some (k, n) else b | none => some (k, n))
    | none => b) none

/-- The counters of an image (R427): every word from 0x40 up that is not 0. -/
def imageCounters (s : State) (k : Nat) : List (Nat × Word) :=
  (List.range 0x7EF).foldl (fun m i =>
    let o := 0x40 + 4 * i
    storeSet (fun _ => (0 : Word)) m o (nvmWord s (0x300000 + 0x2000 * k + o))) []

/-- The live counts added to the counters of an image (R429). -/
def addLive (s : State) (k : Nat) : State :=
  s.saddle.ledger.foldl (fun s e => ledgerAdd s e.1 e.2.toNat) (setRec s fun x => { x with
    ledger := imageCounters s k, satur := x.satur ||| (nvmWord s (0x300000 + 0x2000 * k + 0x18)).toNat })

/-- The ledger loaded at BOOT (R429): the live counts are added to the newest image, unless they already hold it. -/
def ledgerLoad (s : State) : State :=
  let s0 := setRec (nvmReadFaults s 0x300000 0x80000) fun x => { x with loaded := true }
  match newestLedger s with
  | some (k, n) =>
    let s1 := wr s0 Reg.REC_LEDGER (BitVec.ofNat 32 n)
    if s.saddle.loaded then s1 else addLive s1 k
  | none => reportCorrected (fput s0 Fld.REC_STATUS_LEDGER_NEW 1) 0x0D05 (stampI s)

/-! ### Wall time (R430) -/

/-- The alarm is reached: `REC_WALL` at or beyond the alarm time held or set (R476). -/
def alarmReached (s : State) (alarm : Nat) : Bool := decide (alarm ≤ (rd s Reg.REC_WALL).toNat)

/-- A wake source becomes active (R476): it is latched. -/
def latchWake (s : State) (b : Nat) : State := { s with power := { s.power with woke := s.power.woke ||| 2 ^ b } }

/-- REC_WALL_TICK (R430, R476): one second of the 32.768 kHz oscillator; in HIBERNATE the alarm may wake the device. -/
def execRecWallTick (s : State) : Host.Outcome State Fault Refusal :=
  let s1 := wr s Reg.REC_WALL (rd s Reg.REC_WALL + 1)
  let hib := devState s == .hibernate || bit s Fld.GLOBAL_STATE_HIB_PEND
  let en := if devState s == .hibernate then s.power.wakeEn.testBit 3 else bit s Fld.GLOBAL_WAKE_EN_ALARM
  let al := if devState s == .hibernate then s.power.alarm else (rd s Reg.GLOBAL_ALARM).toNat
  if hib && en && alarmReached s1 al then .next (latchWake s1 4) else .next s1

/-- A host write of REC_WALL (R430). -/
def writeRecWall (v : Word) (s : State) : State :=
  setRec (fput (wr s Reg.REC_WALL v) Fld.REC_STATUS_WALL_SET 1) fun x => { x with
    wallWas := some (s.tick, BitVec.ofNat 32 (recWall s)) }

end Sys2Proof.Machine
end

