-- ==== Sys2Proof/Machine/Trust.lean ====
section
/-! DEFINITION. Sys2Proof/Machine/Trust.lean: staging (R444 to R446), activation (R447 to R452), measured boot (R439 to
R441), attestation reports (R442, R443) and key commands (R453). -/

namespace Sys2Proof.Machine

/-- The trust block changed in what no register holds. -/
def setTrust (s : State) (f : TrustSt → TrustSt) : State := { s with trust := f s.trust }

/-- The state of the staged slot changed, and TRUST_STATUS with it; the region of R435 follows when NVM may be written (R308). -/
def putStaged (s : State) (fw : Bool) (v : Nat) : State :=
  programTrust (if fw then fput (setTrust s fun x => { x with fwStg := v }) Fld.TRUST_STATUS_FW_STG v
    else fput (setTrust s fun x => { x with stStg := v }) Fld.TRUST_STATUS_ST_STG v)

/-- The stored length of a slot (R71, R446). -/
def putStored (s : State) (fw b : Bool) (n : Nat) : State :=
  setTrust s fun x => { x with stored := x.stored.set (slotIdx fw b) n }

/-- The pending activation of a kind (R447). -/
def pendingAct (s : State) (fw : Bool) : Option Nat := if fw then s.trust.actFw else s.trust.actSt

/-- The pending activation of a kind changed, with TRUST_STATUS and TRUST_PEND (R447, R456); a count that is no longer
pending stays readable (DESIGN CHOICE, log entry 65). -/
def putAct (s : State) (fw : Bool) (c : Option Nat) : State :=
  let s1 := if fw then fputB (setTrust s fun x => { x with actFw := c }) Fld.TRUST_STATUS_ACT_FW c.isSome
    else fputB (setTrust s fun x => { x with actSt := c }) Fld.TRUST_STATUS_ACT_ST c.isSome
  match c with
  | some n => wr s1 (if fw then Reg.TRUST_PEND_FW else Reg.TRUST_PEND_ST) (BitVec.ofNat 32 n)
  | none => s1

/-- The kind codes of R447. -/
def kindCode (fw : Bool) : Nat := if fw then 1 else 2

/-- The image in the staged slot of a kind. -/
def stagedImg (s : State) (fw : Bool) : Img := imgOf s fw (!activeSlot s fw)

/-! ### Activation requests and results (R447 to R449) -/

/-- TRUST_ACT_RES written. -/
def putActRes (s : State) (kind result : Nat) : State :=
  fput (fput s Fld.TRUST_ACT_RES_KIND kind) Fld.TRUST_ACT_RES_RESULT result

/-- An activation ends with a result (R448, R449): event, TRUST_ACT_RES, the Activation record of image `id`, `ver`. -/
def endActivation (s : State) (fw : Bool) (result id ver c : Nat) : State :=
  let s1 := putActRes (raise s (if result = 0 then Fld.TRUST_EVENT_ACT_DONE else Fld.TRUST_EVENT_ACT_REF)) (kindCode fw) result
  pushRecord s1 5 0 0 (stampI s1) (mkPayload [(0, 1, kindCode fw), (1, 1, result), (4, 8, id), (12, 4, ver), (16, 5, c)])

/-- IMAGE_ID and IMAGE_VER of an image (R61). -/
def idVer (s : State) (m : Img) : Nat × Nat := (imageId s m, imgNat s m 0x018 4)

/-- A pending activation cancelled, result 0x07 (R445, R456); none pending: no effect (R454). -/
def cancelAct (s : State) (fw : Bool) : State :=
  match pendingAct s fw with
  | none => s
  | some c =>
    let iv := idVer s (stagedImg s fw)
    endActivation (putAct s fw none) fw 0x07 iv.1 iv.2 c

/-- The cycle count that the device reads from the replica (R448). -/
def replicaCycle (s : State) : Nat := stampI s / 2 ^ 24

/-- The refusal of a request, if any (R447). -/
def requestRefused (s : State) (fw : Bool) (c id : Nat) : Option Nat :=
  if stagedState s fw ≠ 3 then some 0x01
  else if imageId s (stagedImg s fw) ≠ id then some 0x09
  else if c < replicaCycle s + 2 then some 0x02
  else none

/-- A request for an activation (R447): accepted, it is pending and replaces an earlier one; `some` is the result of a refusal. -/
def requestActivation (s : State) (fw : Bool) (c id : Nat) : State × Option Nat :=
  match requestRefused s fw c id with
  | some r => (s, some r)
  | none => (putAct s fw (some c), none)

/-- TRUST_CTRL.ACTIVATE (R447): a reserved kind is ignored (R18). -/
def hostActivate (s : State) : State :=
  let c := fget s Fld.TRUST_ACT_CFG_CC_HI * 2 ^ 32 + (rd s Reg.TRUST_ACT_CC).toNat
  let k := fget s Fld.TRUST_ACT_CFG_KIND
  if k = 1 ∨ k = 2 then
    let r := requestActivation s (k == 1) c (rd64 s Reg.TRUST_ACT_ID_LO Reg.TRUST_ACT_ID_HI)
    match r.2 with
    | some x => putActRes r.1 k x
    | none => r.1
  else s

/-- TRUST_ACTIVATE (R447). -/
def execTrustActivate (s : State) : Host.Outcome State Fault Refusal := .next (hostActivate s)

/-- TRUST_CANCEL_FW (R456). -/
def execTrustCancelFw (s : State) : Host.Outcome State Fault Refusal := .next (cancelAct s true)

/-- TRUST_CANCEL_ST (R456). -/
def execTrustCancelSt (s : State) : Host.Outcome State Fault Refusal := .next (cancelAct s false)

/-! ### Staging (R444 to R446) -/

/-- What becomes of a piece: RESULT of R444, the cause of a NAK (R323), and whether an IMG frame is forwarded. -/
structure PieceOutcome where
  result : Nat
  nak : Option Nat
  forward : Bool
  deriving DecidableEq, Repr

/-- The header of the image that a piece at offset 0 begins (R61). -/
def pieceNat (d : List Byte) (o n : Nat) : Nat := ofLeBytes ((d.drop o).take n)

/-- Free bytes of the receive buffer of 16 KiB (R446). -/
def stagingRoom (x : Staging) : Nat := 16384 - x.buf.length

/-- The row of R444 that a piece takes, by its order: 1 to 10. -/
def pieceRow (s : State) (o t : Nat) (d : List Byte) : Nat :=
  let fw := pieceNat d 8 1 == 1
  if o % 4 ≠ 0 ∨ t < o + d.length ∨ (o = 0 ∧ d.length < 256) then 1
  else if o = 0 then
    if !headerOk d.length (fun k => d.getD k 0) fw then 2
    else if pieceNat d 0x00C 4 ≠ t ∨ slotSize fw < t then 3
    else
      match s.trust.staging with
      | some x => if x.fw = fw ∧ x.imageId = pieceNat d 0x010 8 ∧ x.ver = pieceNat d 0x018 4 ∧ x.total = t then 4 else 5
      | none => 5
  else
    match s.trust.staging with
    | none => 6
    | some x =>
      if x.total ≠ t then 6
      else if o < x.next then 7
      else if x.next < o then 8
      else if d.length ≤ stagingRoom x then 9
      else 10

/-- What each row of R444 answers. -/
def rowOutcome : Nat → PieceOutcome
  | 1 => ⟨0x04, some 0x03, true⟩
  | 2 => ⟨0x05, none, true⟩
  | 3 => ⟨0x03, some 0x02, false⟩
  | 4 => ⟨0x01, none, true⟩
  | 5 => ⟨0x00, none, true⟩
  | 6 => ⟨0x02, none, true⟩
  | 7 => ⟨0x01, none, true⟩
  | 8 => ⟨0x02, none, true⟩
  | 9 => ⟨0x00, none, true⟩
  | _ => ⟨0x03, some 0x02, false⟩

/-- NEXT of the staging in progress shown (R456). -/
def showNext (s : State) (n : Nat) : State := fput s Fld.TRUST_STG_NEXT_NEXT n

/-- The staging in progress abandoned: its slot becomes INVALID (R445, R446). -/
def abandonStaging (s : State) : State :=
  match s.trust.staging with
  | none => s
  | some x => putStaged (setTrust s fun y => { y with staging := none }) x.fw 5

/-- A new staging (R445), with its first piece in the receive buffer. -/
def newStaging (s : State) (t : Nat) (d : List Byte) : State :=
  let fw := pieceNat d 8 1 == 1
  let s1 := cancelAct (abandonStaging s) fw
  let s2 := putStored (putStaged s1 fw 1) fw (!activeSlot s1 fw) 0
  showNext (setTrust s2 fun y => { y with
    staging := some ⟨fw, t, d.length, pieceNat d 0x010 8, pieceNat d 0x018 4, d, 0, aboveStaging s2⟩ }) d.length

/-- A piece judged and, where its row says so, stored (R444). -/
def judgePiece (s : State) (o t : Nat) (d : List Byte) : State × PieceOutcome :=
  let row := pieceRow s o t d
  let s1 :=
    if row = 5 then newStaging s t d
    else if row = 9 then
      showNext (setTrust s fun y => { y with
        staging := y.staging.map fun x => { x with next := o + d.length, buf := x.buf ++ d } }) (o + d.length)
    else s
  (s1, rowOutcome row)

/-- A write of TRUST_STG_CTRL (R444, R456): GO submits a piece of WORDS words; a reserved WORDS is ignored (R18). -/
def writeStgCtrl (v : Word) (s : State) : State :=
  let n := getBits v 0 8
  if v.getLsbD 31 && decide (1 ≤ n) && decide (n ≤ 253) then
    let r := judgePiece s (fget s Fld.TRUST_STG_OFS_OFS) (fget s Fld.TRUST_STG_TOTAL_TOTAL) (regBytes s (Reg.TRUST_STG_DATA 0) n)
    fput r.1 Fld.TRUST_STG_STAT_RESULT r.2.result
  else s

/-- STG_PIECE (R444). -/
def execStgPiece (v : Word) (s : State) : Host.Outcome State Fault Refusal := .next (writeStgCtrl v s)

/-- The image-slot region may be erased or programmed: NVM writes are allowed, no block write is in progress, and none goes first that has
waited since the last erase or page, or since before the first (R408, R409). -/
def stagingMayWrite (s : State) (x : Staging) : Bool := nvmAllowed s && s.saddle.job.isNone && !(x.owes && aboveStaging s)

/-- The end of an erase or of a page: a write of R409 that waits goes first. -/
def yieldStaging (s : State) : State :=
  setTrust s fun y => { y with staging := y.staging.map fun x => { x with owes := aboveStaging s } }

/-- STG_ERASE_DONE (R445): the slot is erased and RECEIVING. -/
def execStgEraseDone (s : State) : Host.Outcome State Fault Refusal :=
  match s.trust.staging with
  | none => .next s
  | some x =>
    if stagedState s x.fw = 1 ∧ stagingMayWrite s x then
      .next (yieldStaging <| putStaged (nvmErase s (slotBase x.fw (!activeSlot s x.fw)) (slotSize x.fw)) x.fw 2)
    else .next s

/-- A staging that fails: verify failure, or a page abandoned at a VSUP collapse (R446). -/
def stagingFailed (s : State) : State :=
  if s.trust.staging.isSome then
    let s1 := raise (abandonStaging s) Fld.TRUST_EVENT_STG_ERR
    reportCorrected s1 0x0C04 (stampI s1)
  else s

/-- A page programmed and verified, and its blocks counted (R424); the slot is COMPLETE after the last page (R446). -/
def pageDone (s : State) (x : Staging) (d : List Byte) : State :=
  let b := !activeSlot s x.fw
  let s1 := ledgerAdd (nvmSetBytes s (slotBase x.fw b + x.done) d) 0xEC ((d.length + 63) / 64)
  let y := { x with buf := x.buf.drop d.length, done := x.done + d.length }
  if y.done = y.total then
    raise (putStaged (putStored (setTrust s1 fun z => { z with staging := none }) x.fw b x.total) x.fw 3) Fld.TRUST_EVENT_STG_DONE
  else yieldStaging (setTrust s1 fun z => { z with staging := some y })

/-- STG_PAGE_DONE (R446): the next page is programmed; `ok` is what its verify read found. -/
def execStgPageDone (ok : Bool) (s : State) : Host.Outcome State Fault Refusal :=
  match s.trust.staging with
  | none => .next s
  | some x =>
    match nextPage x with
    | none => .next s
    | some d =>
      if stagedState s x.fw = 2 ∧ stagingMayWrite s x then
        if ok then .next (pageDone s x d)
        else .next (stagingFailed (nvmSpoil s (slotBase x.fw (!activeSlot s x.fw) + x.done) d.length))
      else .next s

/-! ### Activations that act (R448 to R452) -/

/-- The slots of a kind change roles: the active slot becomes PREVIOUS (R450, R451). -/
def swapRoles (s : State) (fw : Bool) : State :=
  let b := !activeSlot s fw
  let s1 := if fw then fputB (setTrust s fun x => { x with fwSlot := b }) Fld.TRUST_STATUS_FW_SLOT b
    else fputB (setTrust s fun x => { x with stSlot := b }) Fld.TRUST_STATUS_ST_SLOT b
  putStaged s1 fw 4

/-- A measurement changed (R439, R441). -/
def putMeas (s : State) (m : Fin 4) (d : List Byte) : State := setTrust s fun x => { x with meas := x.meas.set m d }

/-- The result of R449 for a failed check of R71. -/
def resultOf (r : Reject) : Nat :=
  if r.reason ≤ 7 then 0x03 else if r.reason = 8 then 0x04 else if r.reason = 9 then 0x05 else 0x06

/-- A staging of a kind is ended by the activation that has just changed its slot (DESIGN CHOICE, log entry 66). -/
def endStagingOf (s : State) (fw : Bool) : State :=
  match s.trust.staging with
  | some x => if x.fw = fw then setTrust s fun y => { y with staging := none } else s
  | none => s

/-- A check that ended in refusal (R449): the staged slot is INVALID, fault 0x0C01. -/
def activationRefused (s : State) (fw : Bool) (r : Reject) (iv : Nat × Nat) : State :=
  let s1 := putStaged (endStagingOf s fw) fw 5
  endActivation (reportCorrected s1 0x0C01 (stampI s1)) fw (resultOf r) iv.1 iv.2 s.trust.actNow

/-- The pending activation of a kind acts, or is refused, at cycle `c` (R448). -/
def actOn (s : State) (fw : Bool) (c : Nat) : State :=
  let iv := idVer s (stagedImg s fw)
  let s1 := putAct s fw none
  if devState s == .test then endActivation s1 fw 0x08 iv.1 iv.2 c
  else if stagedState s fw ≠ 3 then endActivation s1 fw 0x01 iv.1 iv.2 c
  else if fw then setTrust s1 fun x => { x with pause := some (s.tick, true), actNow := c }
  else refreshPorts (setTrust (abandonArm s1 0x07) fun x => { x with inert := true, loaded := none, actNow := c })

/-- ACTIVATION_DUE (R448, R454): at a cycle boundary whose count, as the replica has it, reaches C; firmware first. -/
def execActivationDue (s : State) : Host.Outcome State Fault Refusal :=
  if s.time.round ≠ 0 ∨ s.trust.pause.isSome then .next s
  else
    let due := fun (c : Option Nat) => match c with | some n => decide (n ≤ replicaCycle s) | none => false
    if due s.trust.actFw then .next (actOn s true (s.trust.actFw.getD 0))
    else if due s.trust.actSt && !s.trust.inert then .next (actOn s false (s.trust.actSt.getD 0))
    else .next s

/-- STRUCT_LOAD_DONE (R451): the loader has checked the staged structure image and, if it passed, applied it. -/
def execStructLoadDone (s : State) : Host.Outcome State Fault Refusal :=
  if s.trust.inert && s.trust.loaded.isNone then
    let m := stagedImg s false
    let iv := idVer s m
    let r := loadStructure s m true
    match r.2 with
    | none =>
      let s1 := putMeas (swapRoles (endStagingOf r.1 false) false) 2 (measure s m)
      .next (endActivation (setTrust s1 fun x => { x with loaded := some true }) false 0x00 iv.1 iv.2 s.trust.actNow)
    | some x => .next (activationRefused (setTrust r.1 fun y => { y with loaded := some false }) false x iv)
  else .next s

/-- STRUCT_PROGRAM_START (R451, R452): fret 0 of the first cycle after the application; the new program starts with V0, or the old
one goes on. A program that is the first since BOOT also sets the grid angle (R526). -/
def execStructProgramStart (s : State) : Host.Outcome State Fault Refusal :=
  if s.trust.inert && s.time.round == 0 && !s.time.take then
    match s.trust.loaded with
    | none => .next s
    | some ok =>
      let s1 := setTrust s fun x => { x with inert := false, loaded := none }
      if ok then
        .next (programStart (if bit s Fld.SCHED_STATUS_RUN then s1
          else pllStart s1))
      else .next (refreshPorts s1)
  else .next s

/-- The firmware in the staged slot checked (R439 step 4, R450): the first failure, if any. -/
def firmwareCheck (s : State) : Option Reject := containerCheck s (stagedImg s true)

/-- A firmware activation's outcome at the end of its pause (R450): the new firmware is in force, or the old one goes on. -/
def finishFirmware (u : State) : State :=
  let s := nvmReadFaults u (stagedImg u true).base (stagedImg u true).len
  let m := stagedImg s true
  let iv := idVer s m
  match firmwareCheck s with
  | none =>
    endActivation (putMeas (swapRoles (endStagingOf s true) true) 1 (measure s m)) true 0x00 iv.1 iv.2 s.trust.actNow
  | some r => activationRefused s true r iv

/-! ### Measured boot (R439 to R441) -/

/-- The key configuration record, 0x200 bytes from 0x103C_1000 (R435), of a lifecycle, the revoked keys and the keys; what no key fills is the
device's, but for the byte after the keys: it says whether the OEM clear key has been written, so that this change too alters M3 (R453;
DESIGN CHOICE: log entry 183). -/
def keyRecord (lifecycle revoked : Nat) (keys : Vector (List Byte) 4) (clearKey : List Byte) : List Byte :=
  (List.range 0x200).map fun o =>
    if o = 0 then BitVec.ofNat 8 lifecycle
    else if o = 1 then BitVec.ofNat 8 revoked
    else if o = 386 then (if clearKey.isEmpty then 0 else 1)
    else
      match (keys.toList[(o - 2) / 96]?).bind fun k => k[(o - 2) % 96]? with
      | some b => b
      | none => Config.idByte (0x1000 + o)

/-- TRUST_STATUS, TRUST_KEYSTAT and TRUST_BOOTCNT as the trust block's own state gives them (R456). -/
def syncTrust (s : State) : State :=
  let t := s.trust
  let s1 := fputB (fputB (fput s Fld.TRUST_STATUS_LIFECYCLE t.lifecycle) Fld.TRUST_STATUS_FW_SLOT t.fwSlot) Fld.TRUST_STATUS_ST_SLOT t.stSlot
  let s2 := fput (fput s1 Fld.TRUST_STATUS_FW_STG t.fwStg) Fld.TRUST_STATUS_ST_STG t.stStg
  let present := (List.finRange 4).foldl (fun m (k : Fin 4) => if (t.keys.get k).isEmpty then m else m + 2 ^ k.val) 0
  let s3 := fput (fput s2 Fld.TRUST_KEYSTAT_PRESENT present) Fld.TRUST_KEYSTAT_REVOKED t.revoked
  wr (fputB s3 Fld.TRUST_KEYSTAT_CLEARKEY (!t.clearKey.isEmpty)) Reg.TRUST_BOOTCNT (BitVec.ofNat 32 t.bootCnt)

/-- The bytes of an image are read by a function of the device: 0x0B07 for every word that cannot be read (R404). -/
def readFaults (s : State) (m : Img) : State := nvmReadFaults s m.base m.len

/-- The firmware chosen at BOOT (R439 steps 4 to 6, R440): the active slot, or the previous one, or recovery. -/
def bootFirmware (u : State) : State :=
  let s := readFaults u (imgOf u true u.trust.fwSlot)
  if (containerCheck s (imgOf s true s.trust.fwSlot)).isNone then putMeas s 1 (measure s (imgOf s true s.trust.fwSlot))
  else
    let s0 := reportCorrected s 0x0C02 (stampI s)
    let m := stagedImg s0 true
    let s1 := if s0.trust.fwStg = 4 then readFaults s0 m else s0
    if s1.trust.fwStg = 4 ∧ (containerCheck s1 m).isNone then
      putMeas (programTrust (syncTrust (setTrust s1 fun x => { x with fwSlot := !x.fwSlot, fwStg := 5 }))) 1 (measure s1 m)
    else fput (reportCorrected s1 0x0C03 (stampI s1)) Fld.TRUST_STATUS_RECOVERY 1

/-- M2 at BOOT (R439 step 7), and the state that has read it; of bytes that cannot be read the spec states no measurement: a free value
(DESIGN CHOICE: log entry 181). -/
def bootM2 (s : State) : List Byte × State :=
  let m := imgOf s false s.trust.stSlot
  let t := readFaults s m
  if !(order1 s m && order3 s m) then (List.replicate 48 0, t)
  else if imgFails s m 0 (totalLen s m) then drawBytes t 48
  else (measure s m, t)

/-- The measured boot (R439). -/
def measuredBoot (s : State) : State :=
  let s1 := syncTrust (setTrust s fun x => { x with bootCnt := min (x.bootCnt + 1) (2 ^ 32 - 1) })
  let s2 := putMeas (putMeas (putMeas s1 0 (sha384 Config.bootRom)) 1 []) 3 (sha384 (keyRecord s1.trust.lifecycle s1.trust.revoked s1.trust.keys s1.trust.clearKey))
  let r := bootM2 (bootFirmware s2)
  putMeas r.2 2 r.1

/-- The device is in recovery (R440). -/
def inRecovery (s : State) : Bool := bit s Fld.TRUST_STATUS_RECOVERY

/-! ### Attestation reports (R442, R443) -/

/-- A report asked for (R442): one at a time. -/
def requestReport (s : State) (nonce : List Byte) (answer : Option (Nat × Nat × Nat)) : State :=
  fput (setTrust s fun x => { x with report := some ⟨nonce, answer⟩ }) Fld.TRUST_STATUS_RPT_BUSY 1

/-- TRUST_CTRL.REPORT (R442): ignored while a report is in progress. -/
def hostReport (s : State) : State :=
  if s.trust.report.isSome then s else requestReport s (regBytes s (Reg.TRUST_NONCE 0) 8) none

/-- TRUST_REPORT (R442). -/
def execTrustReport (s : State) : Host.Outcome State Fault Refusal := .next (hostReport s)

/-- A measurement as 48 bytes. -/
def measBytes (s : State) (m : Fin 4) : List Byte := (List.range 48).map fun k => (s.trust.meas.get m).getD k 0

/-- Bytes 0x000 to 0x0FF of a report (R443). -/
def reportBody (s : State) (nonce : List Byte) : List Byte :=
  leBytes 4 0x54414D5A ++ [1, BitVec.ofNat 8 s.trust.lifecycle, 0, 0] ++ deviceIdBytes ++ leBytes 4 s.trust.bootCnt ++
    leBytes 4 0 ++ leBytes 8 (stampI s) ++ nonce ++ measBytes s 0 ++ measBytes s 1 ++ measBytes s 2 ++ measBytes s 3

/-- The signed report (R443): ECDSA P-384 under the attestation key, its secret number drawn; and the state that has drawn it. -/
def formReport (s : State) (nonce : List Byte) : List Byte × State :=
  let b := reportBody s nonce
  (b ++ ecdsaSign Config.attestSecret (Config.random s.free 384) (sha384 b), { s with free := s.free + 1 })

/-! ### Key commands (R453) -/

/-- The 26 bytes a key token covers (R453), after the nonce of `s`. -/
def keyMessage (s : State) (op slot : Nat) : List Byte :=
  regBytes s (Reg.TRUST_KNONCE 0) 4 ++ [BitVec.ofNat 8 op, BitVec.ofNat 8 slot] ++ deviceIdBytes

/-- A valid key token is there (R453). -/
def keyToken (s : State) (op slot : Nat) : Bool :=
  s.trust.knonce && tokenFits s (keyMessage s op slot) (regBytes s (Reg.TRUST_TOKEN 0) 8)

/-- The key nonce consumed (R453). -/
def consumeKnonce (s : State) : State :=
  putRegBytes (setTrust s fun x => { x with knonce := false }) (Reg.TRUST_KNONCE 0) (List.replicate 16 0)

/-- A key operation refused (R453). -/
def keyOpRefused (s : State) : State := reportCorrected (raise s Fld.TRUST_EVENT_KEY_REF) 0x0C05 (stampI s)

/-- A key operation accepted (R453); its record is programmed as soon as NVM writes are allowed (R308; log entry 157). -/
def keyOpDone (s : State) : State :=
  raise (programTrust (syncTrust (putRegBytes s (Reg.TRUST_KEYDATA 0) (List.replicate 96 0)))) Fld.TRUST_EVENT_KEY_DONE

/-- OP 0x1: an OEM structure key written into an empty slot (R453). -/
def keyWriteOem (slot : Fin 4) (s : State) : State :=
  let s1 := consumeKnonce s
  if devState s == .idle && (s.trust.keys.get slot).isEmpty then
    keyOpDone (setTrust s1 fun x => { x with keys := x.keys.set slot (regBytes s (Reg.TRUST_KEYDATA 0) 24) })
  else keyOpRefused s1

/-- OP 0x2: an OEM structure key revoked (R453). -/
def keyRevoke (slot : Fin 4) (s : State) : State :=
  let s1 := consumeKnonce s
  if devState s == .idle && !(s.trust.keys.get slot).isEmpty && keyToken s 2 slot then
    keyOpDone (setTrust s1 fun x => { x with revoked := x.revoked ||| 2 ^ slot.val })
  else keyOpRefused s1

/-- OP 0x3: the OEM clear key written (R453). -/
def keyWriteClear (s : State) : State :=
  let s1 := consumeKnonce s
  if devState s == .idle && s.trust.clearKey.isEmpty then
    keyOpDone (setTrust s1 fun x => { x with clearKey := regBytes s (Reg.TRUST_KEYDATA 0) 8 })
  else keyOpRefused s1

/-- OP 0x4: the change to PRODUCTION (R436, R453), under a token that names slot `slot`. -/
def keyLifecycle (slot : Nat) (s : State) : State :=
  let s1 := consumeKnonce s
  if devState s == .idle && s.trust.lifecycle == 1 && keyToken s 4 slot then
    keyOpDone (setTrust s1 fun x => { x with lifecycle := 2 })
  else keyOpRefused s1

/-- A write of TRUST_KEYCMD (R453, R456): a wrong KEY, and a reserved OP or SLOT (R18), do nothing but consume the nonce. -/
def writeKeyCmd (v : Word) (s : State) : State :=
  let op := getBits v 0 4
  let slot := getBits v 4 4
  if getBits v 16 16 ≠ 0x4B59 ∨ 4 ≤ slot then consumeKnonce s
  else if op = 1 then keyWriteOem (Fin.ofNat 4 slot) s
  else if op = 2 then keyRevoke (Fin.ofNat 4 slot) s
  else if op = 3 then keyWriteClear s
  else if op = 4 then keyLifecycle slot s
  else consumeKnonce s

/-- KEY_WRITE_OEM (R453). -/
def execKeyWriteOem (slot : Fin 4) (s : State) : Host.Outcome State Fault Refusal := .next (keyWriteOem slot s)

/-- KEY_REVOKE (R453). -/
def execKeyRevoke (slot : Fin 4) (s : State) : Host.Outcome State Fault Refusal := .next (keyRevoke slot s)

/-- KEY_WRITE_CLEAR (R453). -/
def execKeyWriteClear (s : State) : Host.Outcome State Fault Refusal := .next (keyWriteClear s)

/-- KEY_LIFECYCLE_PROD (R453): `slot` is the SLOT field of the write, which the token covers. -/
def execKeyLifecycleProd (slot : Fin 4) (s : State) : Host.Outcome State Fault Refusal := .next (keyLifecycle slot s)

/-- TRUST_CTRL.NONCE_NEW (R453). -/
def trustNonceNew (s : State) : State :=
  let d := drawBytes s 16
  setTrust (putRegBytes d.2 (Reg.TRUST_KNONCE 0) d.1) fun x => { x with knonce := true }

/-- TRUST_NONCE_NEW (R453). -/
def execTrustNonceNew (s : State) : Host.Outcome State Fault Refusal := .next (trustNonceNew s)

/-- A write of TRUST_CTRL (R456): its bits act in rising order. -/
def writeTrustCtrl (v : Word) (s : State) : State :=
  let on := fun (k : Nat) (f : State → State) (t : State) => if v.getLsbD k then f t else t
  on 4 trustNonceNew (on 3 (fun t => cancelAct t false) (on 2 (fun t => cancelAct t true) (on 1 hostActivate (on 0 hostReport s))))

end Sys2Proof.Machine
end

