-- ==== Sys2Proof/Machine/Power.lean ====
section
/-! DEFINITION. Sys2Proof/Machine/Power.lean: the device states (spec/16): reset, BOOT, arming, whole-device TEST, hibernation and
wake; the keep-alive comparators (R185 to R188) and the VIO detectors (R507). -/

namespace Sys2Proof.Machine

/-- State control changed in what no register holds. -/
def setPower (s : State) (f : PowerSt → PowerSt) : State := { s with power := f s.power }

/-! ### What survives (R460, R474) -/

/-- Registers of the keep-alive domain: KA (R193), BATT (R296), the Harness place (R318), REC_WALL (R430), and the recorder's numbers
that no reset sets back (R411, R418, R423). -/
def keepAliveReg (a : Nat) : Bool :=
  (decide (0x9800 ≤ a) && decide (a < 0x9840)) || (decide (0x8000 ≤ a) && decide (a < 0x9000)) ||
    [Reg.HARNESS_ADDR, Reg.HARNESS_ROLE, Reg.HARNESS_RANGE_DN, Reg.HARNESS_RANGE_BR, Reg.REC_NEXT, Reg.REC_FLOOR, Reg.REC_SNAPSEQ,
      Reg.REC_WALL].contains a

/-- Numbers of the recorder that are kept in NVM (R411, R418, R423, R435). -/
def nvmReg (a : Nat) : Bool := [Reg.REC_NEXT, Reg.REC_FLOOR, Reg.REC_SNAPSEQ].contains a

/-- The block writes that a reset finds: the one in progress completes (R408), a commit is abandoned (R431), and snapshots not
yet captured are gone with the engine. -/
def settleRecorder (s : State) : State :=
  setRec (finishJob true s) fun x => { x with
    commitRun := none, commitDue := none, snaps := x.snaps ++ x.asked.filterMap captured, asked := [] }

/-- The recorder in keep-alive SRAM (R413, R424, R474); an erase in progress goes on after the next BOOT (DESIGN CHOICE: log entry 72). -/
def keptRecorder (x : RecSt) : RecSt := { x with
  full := x.full, commitAt := 0, refusals := 0, freezeDue := false, refreshDue := [] }

/-- The estimator in keep-alive SRAM, its converter stopped (R288, R292). -/
def keptBatt (x : BattSt) : BattSt := { x with
  samples := [], charge := [], convAt := none, stepAt := none, absSeen := false, closing := none, valid := false, rawRun := 0 }

/-- A reset clears every fault entry (R393): a battery of which 0x0601 stood cold-starts (R286, R287). -/
def freeBatt (s : State) (b : Fin 2) : State := if bit s (Fld.BATT_STATUS_CHG_INH b) then clearBattFault s b else s

/-- What the trust block keeps (R434, R435): what NVM holds, and with VKA what waits to be programmed (R308; log entry 157). -/
def keptTrust (t : TrustSt) (ka : Bool) : TrustSt := { TrustSt.reset with
  kept := t.kept
  stored := if ka then t.stored else t.kept.stored
  lifecycle := if ka then t.lifecycle else t.kept.lifecycle
  revoked := if ka then t.revoked else t.kept.revoked
  keys := if ka then t.keys else t.kept.keys
  clearKey := if ka then t.clearKey else t.kept.clearKey
  bootCnt := if ka then t.bootCnt else t.kept.bootCnt
  fwSlot := if ka then t.fwSlot else t.kept.fwSlot
  stSlot := if ka then t.stSlot else t.kept.stSlot
  fwStg := if ka then t.fwStg else t.kept.fwStg
  stStg := if ka then t.stStg else t.kept.stStg }

/-- Bits of REC_STATUS that outlive a reset while VKA holds: WALL_SET (R430), and an erase that goes on. -/
def keptRecStatus (s : State) : Nat := (rd s Reg.REC_STATUS).toNat &&& 0x2C

/-- Everything outside the keep-alive domain lost (R460, R474); with `ka` false the keep-alive domain too (R459: VKA loss). -/
def clearVolatile (s : State) (ka : Bool) : State :=
  let s0 := settleRecorder (abandonStaging s)
  let s1 : State := { State.reset with
    pending := s0.pending
    tick := s0.tick
    resetTick := s0.resetTick
    free := s0.free
    live := s0.live.filter fun e => if ka then keepAliveReg e.1 else nvmReg e.1
    nvm := s0.nvm
    nvmBad := s0.nvmBad
    time := if ka then { TimeSt.reset with
      savedCount := s0.time.savedCount
      savedVfreq := s0.time.savedVfreq
      savedAt := s0.time.savedAt } else TimeSt.reset
    batts := if ka then s0.batts.map keptBatt else State.reset.batts
    harn := { HarnSt.reset with assigned := ka && s0.harn.assigned }
    saddle := if ka then keptRecorder s0.saddle else RecSt.reset
    trust := keptTrust s0.trust ka
    power := { s0.power with
      bootDone := false
      armAt := none
      autoPend := false
      kaRun := if ka then s0.power.kaRun else Vector.replicate 6 0
      kaDue := if ka then s0.power.kaDue else none
      kaBad := if ka then s0.power.kaBad else []
      vioLow := Vector.replicate 4 false } }
  let s2 := fput s1 Fld.HOSTIF_STATUS_ADDR (fget s Fld.HOSTIF_STATUS_ADDR)
  let s3 := (List.finRange 2).foldl freeBatt s2
  if ka then syncSnaps (syncPending (wr s3 Reg.REC_STATUS (BitVec.ofNat 32 (keptRecStatus s0))))
  else wr s3 Reg.REC_FLOOR (BitVec.ofNat 32 s0.trust.kept.floor)

/-- While RST_N alone holds the device in reset, the links, what routes over them (UPPORT and the state of a ring) and their buffers live
on (R317); every other field returns to its reset value (R460; DEDUCED: log entry 98). -/
def keepLinks (old s : State) : State :=
  setHarn (wr s Reg.HARNESS_STATUS (rd old Reg.HARNESS_STATUS &&& 0x3BF#32)) fun h => { old.harn with
    enum := h.enum, probe := h.probe, badProbes := h.badProbes, probeDue := h.probeDue, probeAt := h.probeAt,
    held := h.held, heldRsp := h.heldRsp, tuneDue := h.tuneDue, cut := h.cut, assigned := old.harn.assigned }

/-- A two-wire transfer in progress at a reset is aborted as in R366: an incomplete word is reported, and its record outlives the reset
(R380); what a bulk write leaves incomplete is reported as it arrives (R361). -/
def cutTwoWire (s : State) : State :=
  match s.host.tw with
  | some r => if r.cut then partialWord s else s
  | none => s

/-- A reset begins or gains a source (R458 to R460): `cause` is its bit of GLOBAL_RSTCAUSE. The change into OFF writes no record. -/
def beginReset (s : State) (cause : Nat) (ka : Bool) : State :=
  let first := devState s != .off
  let from_ := if ka then (if first then devState s else s.power.heldFrom) else .off
  let s1 := setDev (clearVolatile (cutTwoWire s) ka) .off
  let s2 := if ka && cause = 8 && harnForwards s && !s.power.xtalBad then keepLinks s s1 else s1
  let causes := (if first then 0 else s.power.causes) ||| cause
  setPower (wr s2 Reg.GLOBAL_RSTCAUSE (BitVec.ofNat 32 causes)) fun p => { p with causes := causes, heldFrom := from_ }

/-! ### Loss of keep-alive SRAM (R404, R462) -/

/-- The state of a battery estimator in keep-alive SRAM lost as with VKA: what the image loads stays (R404). -/
def loseBatt (s : State) (b : Fin 2) : State :=
  let lo := Reg.BATT_CHGMASK b - Reg.BATT_CHGMASK b % 0x800
  let mine := fun (a : Nat) => decide (lo ≤ a) && decide (a < lo + 0x800) && !((regRow? a).map (·.image)).getD false
  setBatt { s with live := s.live.filter fun e => !mine e.1 } b fun _ => { BattSt.reset with
    coldDue := bit s (Fld.BATT_CFG_EN b), upTo := s.tick }

/-- The state of the recorder in keep-alive SRAM lost as with VKA (R404, R413, R422, R426, R429, R430). -/
def loseRecorder (s : State) : State :=
  let s1 := setRec s fun x => { RecSt.reset with
    job := x.job
    commitRun := x.commitRun
    commitDue := x.commitDue
    commitAt := x.commitAt
    refusals := x.refusals
    scrub := x.scrub
    snapErase := x.snapErase
    scrubAt := x.scrubAt
    snapNonce := x.snapNonce
    freezeDue := x.freezeDue
    refreshDue := x.refreshDue }
  let s2 := fput (wr s1 Reg.REC_WALL 0) Fld.REC_STATUS_WALL_SET 0
  syncSnaps (syncPending s2)

/-- The Harness place in keep-alive SRAM lost as with VKA (R318, R331, R404). -/
def loseHarness (s : State) : State :=
  let mine := fun (a : Nat) => [Reg.HARNESS_ADDR, Reg.HARNESS_ROLE, Reg.HARNESS_RANGE_DN, Reg.HARNESS_RANGE_BR].contains a
  let s1 := setHarn { s with live := s.live.filter fun e => !mine e.1 } fun h => { h with assigned := false }
  fput s1 Fld.HARNESS_STATUS_ENUMERATED 0

/-- The saved cycle count lost as with VKA (R53, R404). -/
def loseTime (s : State) : State :=
  setTime s fun t => { t with savedCount := 0, savedVfreq := 0, savedAt := s.tick }

/-- The state in a region of keep-alive SRAM lost as with VKA by the block that owns it (R404). -/
def loseRegion (s : State) : SramKind → State
  | .keepAliveBatt b => loseBatt s b
  | .keepAliveRecorder => loseRecorder s
  | .keepAliveHarness => loseHarness s
  | .keepAliveTime => loseTime s
  | .keepAliveStaging => abandonStaging s
  | _ => s

/-- Keep-alive SRAM is checked in BOOT (R462 step 4): 0x0B05 for every region with a double-bit error, and its block treats its state as lost with
VKA (R404); a lost cycle count restarts at 0 (R461). -/
def checkKeepAlive (s : State) : State :=
  s.power.kaBad.foldl (fun s k =>
    let s1 := loseRegion s k
    let s2 := if k = .keepAliveTime then setTime s1 fun t => { t with cycleCount := 0 } else s1
    reportCorrected s2 0x0B05 (stampI s2)) (setPower s fun p => { p with kaBad := [] })

/-! ### BOOT (R461 to R464, R439, R53) -/

/-- The cycle count resumed (R53, R461): the saved count + ceil(elapsed × VFREQ) + 1, the elapsed time as whole periods of the 32.768 kHz
oscillator. -/
def resumeCount (s : State) : State :=
  let periods := (s.tick - s.time.savedAt) * 32768 / 1000000
  let cycles := (periods * s.time.savedVfreq + 32768 * 1000 - 1) / (32768 * 1000)
  setTime s fun t => { t with cycleCount := (t.savedCount + cycles + 1) % 2 ^ 40 }

/-- The registers that BOOT finds set: the causes of the reset, and an address that was held (R318, R348, R480). -/
def bootRegs (s : State) : State :=
  let s1 := wr s Reg.GLOBAL_RSTCAUSE (BitVec.ofNat 32 s.power.causes)
  let s2 := if isRoot s then fput s1 Fld.HARNESS_STATUS_UPPORT 3 else s1
  fputB s2 Fld.HARNESS_STATUS_ENUMERATED (ownAddr s != 0)

/-- The starts that the ledger counts (R424). -/
def countBoot (s : State) : State :=
  let c := s.power.causes
  let s1 := if c.testBit 1 then ledgerAdd s 0xF0 1 else s
  let s2 := if c.testBit 3 then ledgerAdd s1 0xF4 1 else s1
  if c.testBit 5 then ledgerAdd s2 0xF8 1 else s2

/-- The work of BOOT (R462): measured boot; unless it ends in recovery, the check of keep-alive SRAM, ring scan, ledger load, and the structure image of the
active slot checked and applied. -/
def bootWork (s : State) : State :=
  if s.power.bootDone then s
  else
    let s1 := measuredBoot (bootRegs (setPower s fun p => { p with bootDone := true }))
    if inRecovery s1 then countBoot s1
    else
      let s2 := countBoot (ledgerLoad (ringScan (checkKeepAlive s1)))
      (loadStructure s2 (imgOf s2 false s2.trust.stSlot) false).1

/-- BOOT begins from state `old` (R458, R462): the record carries OFF as the old state, and in p3 the state in which a reset began (R414). -/
def enterBoot (s : State) (old from_ : DevState) : State :=
  let s1 := setDev (fput s Fld.GLOBAL_STATE_PREV old.code) .boot
  let s2 := refreshReplica { s1 with resetTick := s.tick }
  let s3 := setRec (setPower (raise s2 Fld.GLOBAL_EVENT_STATE_CHG) fun p => { p with
    bootAt := s.tick, bootDone := false, bootFatal := false }) fun x => { x with commitAt := s.tick }
  bootWork (pushRecord s3 2 0 0 (stampI s3) (mkPayload [(0, 1, 1), (1, 1, DevState.off.code), (2, 1, 2), (3, 1, from_.code)]))

/-- The two-wire address is sampled when RST_N is released (R362): not at the end of a soft reset alone. -/
def sampleAddr (s : State) (addr : BitVec 3) : State :=
  if s.power.causes = 16 then s else fput s Fld.HOSTIF_STATUS_ADDR addr.toNat

/-- A soft reset lasts 10 µs (R459). -/
def softOver (s : State) : Bool := match s.power.softAt with | some t => decide (t + 10 ≤ s.tick) | none => true

/-- RESET_END (R459, R462): every source has ended, and BOOT begins; `addr` is the level of ADDR2 to ADDR0. -/
def execResetEnd (addr : BitVec 3) (s : State) : Host.Outcome State Fault Refusal :=
  if devState s == .off && s.power.causes != 0 && softOver s then
    let s1 := setPower (sampleAddr s addr) fun p => { p with holdVsup := false, holdRstn := false, softAt := none, xtalBad := false }
    let s2 := if s1.power.causes.testBit 0 then s1 else resumeCount s1
    .next (enterBoot s2 .off s2.power.heldFrom)
  else .next s

/-! ### Arming (R465 to R469) -/

/-- The first condition of R466 that fails, by its reason, of orders 1 to 5 and 7. A hibernation entry counts as leaving
IDLE (DESIGN CHOICE: log entry 73). -/
def armReason (s : State) : Option Nat :=
  if !(devState s == .idle && !bit s Fld.GLOBAL_STATE_HIB_PEND) && devState s != .safe then some 1
  else if !bit s Fld.SCHED_STATUS_LOADED then some 2
  else if bit s Fld.SCHED_STATUS_MODIFIED then some 3
  else if fatalValid s then some 4
  else if fget s Fld.HARNESS_ROLE_ROLE = 2 then some 5
  else if s.trust.inert then some 7
  else none

/-- A refused arming (R466). -/
def armRefused (s : State) (reason : Nat) : State :=
  let s1 := raise (fput s Fld.GLOBAL_ARMSTAT_REASON reason) Fld.GLOBAL_EVENT_ARM_REF
  reportCorrected s1 0x0A20 (stampI s1)

/-- The judgement of a completed sequence (R466, R467). -/
def judgeArm (s : State) (auto : Bool) : State :=
  match armReason s with
  | some r => armRefused s r
  | none => setPower (fput s Fld.GLOBAL_STATE_ARM_PEND 1) fun p => { p with autoPend := auto }

/-- A write of GLOBAL_ARM (R465). -/
def writeGlobalArm (v : Word) (s : State) : State :=
  let k := getBits v 0 16
  match s.power.armAt with
  | none => if k = 0xA55A then setPower s fun p => { p with armAt := some s.tick } else armRefused s 6
  | some t =>
    let s1 := setPower s fun p => { p with armAt := none }
    if k = 0x5AA5 ∧ s.tick < t + 1000 then judgeArm s1 false else armRefused s1 6

/-- GLOBAL_ARM (R465). -/
def execGlobalArm (v : Word) (s : State) : Host.Outcome State Fault Refusal := .next (writeGlobalArm v s)

/-- The feeds with AUTO = 1 get their ON bit (R231). -/
def autoFeeds (s : State) : State :=
  (List.finRange 8).foldl (fun s (f : Fin 8) => if bit s (Fld.FEED_CFG_AUTO f) then fputBit s Fld.FEED_CMD_ON f true else s) s

/-- The device becomes ARMED (R467, R214, R231, R468). -/
def arm (s : State) : State :=
  let s1 := fput (fput s Fld.GLOBAL_STATE_ARM_PEND 0) Fld.GLOBAL_ARMSTAT_REASON 0
  let s2 := refreshFeeds (autoFeeds (changeState s1 .armed))
  let s3 := raise (inc s2 Fld.GLOBAL_ARMSTAT_ARM_CNT) Fld.GLOBAL_EVENT_ARM_DONE
  let s4 := if s3.power.autoPend then setPower (fput s3 Fld.SCHED_STATUS_AUTOARM_HON 1) fun p => { p with autoPend := false } else s3
  if bit s4 Fld.CAPO_CFG_FLEET then safeBudget (dropBudget s4) else s4

/-- ARM_APPLY (R467): a round boundary with RUN = 1 that the request has reached; a condition that no longer holds abandons it. -/
def execArmApply (s : State) : Host.Outcome State Fault Refusal :=
  if bit s Fld.GLOBAL_STATE_ARM_PEND && bit s Fld.SCHED_STATUS_RUN then
    match armReason s with
    | some r => .next (setPower (abandonArm s r) fun p => { p with autoPend := false })
    | none => .next (arm s)
  else .next s

/-- BOOT ends (R462 to R464, R94, R256, R329): the AUTOARM ball is sampled and the device enters IDLE, or SAFE. -/
def endBoot (autoarm : Bool) (s : State) : State :=
  let s1 := fputB (fput s Fld.GLOBAL_BOOTTIME_BOOTTIME (min (s.tick - s.power.bootAt) 65535)) Fld.GLOBAL_STRAP_AUTOARM autoarm
  let s2 := setSeq s1 fun x => { x with downAt := s.tick }
  if fatalValid s2 || s2.power.bootFatal then startEnum (powerRails (changeState s2 .safe))
  else
    let s3 := powerRails (changeState s2 .idle)
    let s4 := if bit s3 Fld.SEQ_CFG_AUTOUP then requestOn s3 else s3
    let s5 := startEnum s4
    let auto := autoarm && bit s5 Fld.SCHED_STATUS_LOADED && s5.sched.autoarm && decide (s5.sched.keyslot ≤ 3)
    if auto then judgeArm s5 true else s5

/-- BOOT_COMPLETE (R462). -/
def execBootComplete (autoarm : Bool) (s : State) : Host.Outcome State Fault Refusal :=
  if devState s == .boot then .next (endBoot autoarm (bootWork s)) else .next s

/-! ### GLOBAL_CTRL (R469 to R473) -/

/-- A refused GLOBAL_CTRL request (R471). -/
def ctrlRefused (s : State) : State :=
  let s1 := raise s Fld.GLOBAL_EVENT_CTRL_REF
  reportCorrected s1 0x0A20 (stampI s1)

/-- DISARM (R469). -/
def doDisarm (s : State) : State :=
  if devState s == .armed then changeState s .idle
  else if (devState s == .idle || devState s == .safe) && bit s Fld.GLOBAL_STATE_ARM_PEND then
    setPower (abandonArm s 0x08) fun p => { p with autoPend := false }
  else ctrlRefused s

/-- TEST_ENTER (R470): not while a hibernation entry runs (DESIGN CHOICE: log entry 73). -/
def doTestEnter (s : State) : State :=
  if devState s == .idle && !bit s Fld.GLOBAL_STATE_HIB_PEND then changeState s .test else ctrlRefused s

/-- TEST_EXIT (R470, R492, R493): the feeds wait for new requests (DEDUCED: log entry 74). -/
def doTestExit (s : State) : State :=
  if devState s == .test then
    changeState (fput s Fld.FEED_CMD_ON 0) .idle
  else ctrlRefused s

/-- A wake source is enabled (R472). -/
def wakeEnabled (s : State) : Bool :=
  (rd s Reg.GLOBAL_WAKE_EN != 0) || (fget s Fld.KA_TICK_PER != 0 &&
    (List.range 6).any fun k => bit s (Fld.KA_CFG_EN k) && bit s (Fld.KA_CFG_WAKE k))

/-- A wake source is already active (R472). -/
def wakeActive (s : State) : Bool :=
  ((List.range 6).any fun k => fbit s Fld.KA_STATUS_LAT k && bit s (Fld.KA_CFG_WAKE k)) || s.power.wakePin ||
    (bit s Fld.GLOBAL_WAKE_EN_ALARM && alarmReached s (rd s Reg.GLOBAL_ALARM).toNat)

/-- HIBERNATE is accepted (R472, R478). -/
def mayHibernate (s : State) : Bool :=
  devState s == .idle && !bit s Fld.GLOBAL_STATE_HIB_PEND && seqPhase s == .down && !s.seq.reqOn && wakeEnabled s && !wakeActive s &&
    s.trust.actFw.isNone && s.trust.actSt.isNone && !s.trust.inert && !bit s Fld.GLOBAL_STATE_ARM_PEND

/-- HIBERNATE (R472, R473): the feeds open and the ledger is committed with reason 0x03. -/
def doHibernate (s : State) : State :=
  if mayHibernate s then
    let s1 := setPower (fput s Fld.GLOBAL_STATE_HIB_PEND 1) fun p => { p with woke := 0, ka2Hib := false, hibAt := s.tick }
    let s2 := refreshFeeds s1
    if nvmAllowed s2 then askCommit 3 s2 else s2
  else ctrlRefused s

/-- RESET (R459). -/
def doSoftReset (s : State) : State :=
  if stateRuns (devState s) then setPower (beginReset s 16 true) fun p => { p with softAt := some s.tick }
  else ctrlRefused s

/-- A write of GLOBAL_CTRL (R471). -/
def writeGlobalCtrl (v : Word) (s : State) : State :=
  if getBits v 16 16 ≠ 0x4743 then ctrlRefused s
  else
    match getBits v 0 4 with
    | 1 => doDisarm s
    | 2 => doTestEnter s
    | 3 => doTestExit s
    | 4 => doHibernate s
    | 5 => doSoftReset s
    | _ => ctrlRefused s

/-- DISARM (R469). -/
def execDisarm (s : State) : Host.Outcome State Fault Refusal := .next (doDisarm s)

/-- TEST_ENTER (R470). -/
def execTestEnter (s : State) : Host.Outcome State Fault Refusal := .next (doTestEnter s)

/-- TEST_EXIT (R470). -/
def execTestExit (s : State) : Host.Outcome State Fault Refusal := .next (doTestExit s)

/-- HIBERNATE_REQUEST (R472). -/
def execHibernateRequest (s : State) : Host.Outcome State Fault Refusal := .next (doHibernate s)

/-- SOFT_RESET (R459). -/
def execSoftReset (s : State) : Host.Outcome State Fault Refusal := .next (doSoftReset s)

/-! ### Hibernation and wake (R473 to R477) -/

/-- The recorder has done what entry asks of it (R473), 400 ms have passed, or NVM writes are forbidden. -/
def hibSettled (s : State) : Bool :=
  s.saddle.job.isNone && (!nvmAllowed s || (s.saddle.commitRun.isNone && s.saddle.commitDue.isNone &&
    ((s.saddle.pending.isEmpty && s.saddle.retry.isNone && s.saddle.snaps.isEmpty && s.saddle.asked.isEmpty && s.saddle.snapRun.isNone) ||
      decide (s.power.hibAt + 400000 ≤ s.tick))))

/-- The wake settings in force, in the order of GLOBAL_WAKE_EN. -/
def wakeSettings (s : State) : Nat := (rd s Reg.GLOBAL_WAKE_EN).toNat

/-- HIBERNATE_ENTERED (R473, R474, R480): the cycle count is saved and the VSUP domain powers down; only in phase DOWN of the sequencer, with
no on request under way (R269; log entry 73). -/
def execHibernateEntered (s : State) : Host.Outcome State Fault Refusal :=
  if devState s == .idle && bit s Fld.GLOBAL_STATE_HIB_PEND && hibSettled s && seqPhase s == .down && !s.seq.reqOn then
    let en := wakeSettings s
    let al := (rd s Reg.GLOBAL_ALARM).toNat
    let s1 := setTime (changeState s .hibernate) fun t => { t with savedCount := t.cycleCount, savedVfreq := t.cfg.vfreq, savedAt := s.tick }
    let s2 := setDev (clearVolatile ((List.finRange 2).foldl battAdvance s1) true) .hibernate
    .next (setPower s2 fun p => { p with hibAt := s.tick, wakeEn := en, alarm := al })
  else .next s

/-- A wake source of GLOBAL_WAKE_EN is enabled, in HIBERNATE or on the way into it (R473, R476). -/
def wakeSourceOn (s : State) (b : Nat) : Bool :=
  if devState s == .hibernate then s.power.wakeEn.testBit b
  else bit s Fld.GLOBAL_STATE_HIB_PEND && (wakeSettings s).testBit b

/-- An estimator applies the hibernation time (R292): a rest goes on with that time, or begins anew without the credit. -/
def battWake (th : Rat) (s : State) (b : Fin 2) : State :=
  if battState s b == .off then s
  else
    let rest := bit s (Fld.BATT_CFG_HIBREST b) && !s.power.ka2Hib
    let n := (th * 1000000).floor.toNat
    setBatt s b fun x => { battElapse s b th x with
      upTo := s.tick
      rest := if rest then x.rest.map (· + n) else none
      credit := if rest && x.rest.isNone then th else 0 }

/-- HIBERNATE_WAKE (R477): a wake source is latched and VSUP is good; BOOT begins. -/
def execHibernateWake (s : State) : Host.Outcome State Fault Refusal :=
  if devState s == .hibernate && s.power.woke != 0 then
    let periods := (s.tick - s.power.hibAt) * 32768 / 1000000
    let s1 := (List.finRange 2).foldl (battWake ((periods : Rat) / 32768)) s
    let s2 := fput (wr s1 Reg.GLOBAL_WAKESRC (BitVec.ofNat 32 s.power.woke)) Fld.GLOBAL_HIBTIME_HIBTIME (min (periods / 32768) (2 ^ 32 - 1))
    let s3 := setPower (resumeCount s2) fun p => { p with causes := 32, heldFrom := .off, woke := 0 }
    .next (enterBoot s3 .hibernate .off)
  else .next s

/-- TW_ADDRESS_WAKE (R476). -/
def execTwAddressWake (s : State) : Host.Outcome State Fault Refusal := if wakeSourceOn s 0 then .next (latchWake s 1) else .next s

/-- HARNESS_ACTIVITY_WAKE (R316, R476). -/
def execHarnessActivityWake (s : State) : Host.Outcome State Fault Refusal := if wakeSourceOn s 1 then .next (latchWake s 2) else .next s

/-- WAKE_PIN (R379, R473, R476): a level of WAKE accepted; during hibernation entry the state is still IDLE, so the event is raised and the
source takes effect once HIBERNATE is reached. -/
def execWakePin (level : Bool) (s : State) : Host.Outcome State Fault Refusal :=
  let s1 := setPower s fun p => { p with wakePin := level }
  if !level then .next s1
  else
    let s2 := if wakeSourceOn s 2 then latchWake s1 3 else s1
    .next (if devState s == .hibernate || devState s == .off then s2 else raise s2 Fld.HOSTIF_EVENT_WAKE_PIN)

/-! ### The sources of reset (R459, R530) -/

/-- POWER_ON (R459, R530): VSUP rises from below 0.85 V in OFF; not while the reset of a brown-out holds. -/
def execPowerOn (s : State) : Host.Outcome State Fault Refusal :=
  if devState s == .off && !s.power.causes.testBit 2 then
    .next (setPower (beginReset s 2 true) fun p => { p with holdVsup := true })
  else .next s

/-- VKA_LOSS (R459, R460): everything but NVM is lost; a device in HIBERNATE starts cold at the next power-on. -/
def execVkaLoss (s : State) : Host.Outcome State Fault Refusal :=
  .next (setPower (beginReset s 1 false) fun p => { p with holdVsup := true, woke := 0, ka2Hib := false })

/-- RST_N_ASSERT (R380, R459, R476): a reset; in HIBERNATE a wake source that is always enabled. -/
def execRstNAssert (s : State) : Host.Outcome State Fault Refusal :=
  if devState s == .hibernate then .next (latchWake s 5)
  else .next (setPower (beginReset s 8 true) fun p => { p with holdRstn := true })

/-- A block write that VSUP collapse cuts short (R408): its bytes are open, and its record waits again (R413). -/
def cutJob (s : State) : State :=
  match s.saddle.job with
  | none => s
  | some (.record r seq again) =>
    let s1 := nvmSpoil s (recordSlotAt seq) 64
    if again then setRec s1 fun x => { x with job := none, retry := some r } else putFirst (setRec s1 fun x => { x with job := none }) r
  | some (.snap x _ k) => setRec (nvmSpoil s (snapBase x.course x.slot + 64 * k) 64) fun y => { y with job := none }
  | some (.ledger _ n _ k) => setRec (nvmSpoil s (commitAtNvm n + 64 * commitBlock k) 64) fun y => { y with job := none }
  | some (.refresh o _) => setRec (nvmSpoil s o 64) fun y => { y with job := none }

/-- The payload of the hold-up record of a VSUP collapse (R414); `last` is the SEQ of the record whose write was in progress. -/
def collapsePayload (s : State) (last : Nat) : List Byte :=
  mkPayload [(0, 1, 3), (1, 1, (devState s).code), (2, 8, seqSnapshot s), (10, 1, fget s Fld.FEED_SUMMARY_G),
    (11, 1, fget s Fld.FEED_SUMMARY_PC), (12, 2, s.hk.codes.get 26), (16, 4, last)]

/-- The SEQ that the hold-up record names (R414). -/
def lastSeq (s : State) : Nat :=
  match s.saddle.job with
  | some (.record _ seq _) => seq
  | _ => ((rd s Reg.REC_NEXT).toNat + 2 ^ 32 - 1) % 2 ^ 32

/-- The hold-up record written at once (R420): it precedes every pending record. -/
def writeHoldup (s : State) (payload : List Byte) : State :=
  let r : Record := ⟨4, 0, 0, stampI s, recWall s, payload⟩
  let seq := (rd s Reg.REC_NEXT).toNat
  finishRecord (startRecord s r false) r seq false true

/-- An image sector erase or page program is in progress (R408, R446). -/
def pageInProgress (s : State) : Bool :=
  match s.trust.staging with
  | none => false
  | some x => stagingMayWrite s x && stagingWaits s

/-- The recorder at a VSUP collapse (R310, R420, R431): the block write in progress completes on HUCAP, or is left open without it; the
hold-up record is written at once, or waits while NVM writes are forbidden. -/
def collapse (s : State) : State :=
  let s0 := endFreeze (if pageInProgress s then stagingFailed s else s)
  let last := lastSeq s0
  let payload := collapsePayload s0 last
  let ready := bit s0 Fld.REC_STATUS_HU_READY
  let s1 := if ready then finishJob true s0
    else (fun (s : State) => if Config.freeBool s0.free then finishJob true s else cutJob s) { s0 with free := s0.free + 1 }
  if !nvmAllowed s0 then pushRecord s1 4 0 0 (stampI s1) payload
  else if ready then writeHoldup s1 payload
  else s1

/-- BROWNOUT (R419, R420, R530): a VSUP collapse; in HIBERNATE and OFF it has no effect. -/
def execBrownout (s : State) : Host.Outcome State Fault Refusal :=
  if devState s == .off || devState s == .hibernate then .next s
  else .next (setPower (beginReset (collapse s) 4 true) fun p => { p with holdVsup := true })

/-! ### Keep-alive comparators (R185 to R188) -/

/-- CNT of comparator `k`: 0 encodes 16 (R193). -/
def kaCnt (s : State) (k : Nat) : Nat := let n := fget s (Fld.KA_CFG_CNT k); if n = 0 then 16 else n

/-- The span of the threshold of comparator `k`, volts at its input (R185). -/
def kaSpan (k : Nat) : Rat := match k with | 2 => 1 / 10 | 5 => 2 | _ => 4 / 5

/-- The result of comparator `k` for an input of `v` volts, under its threshold, polarity and hysteresis; KA2 and KA5 trip above only
(R169, R185). The result of the last tick is what the hysteresis starts from (DEDUCED: log entry 135). -/
def kaResult (s : State) (k : Nat) (v : Rat) : Bool :=
  let x := if k = 2 ∧ v < 0 then -v else v
  let thr := (fget s (Fld.KA_CFG_THR k) : Rat) / 1024 * kaSpan k
  let h := hystVolt (fget s (Fld.KA_CFG_HYST k)) * kaSpan k / (4 / 5)
  let was := fbit s Fld.KA_STATUS_OUT k
  if bit s (Fld.KA_CFG_POL k) || k == 2 || k == 5 then overSide was x thr h else underSide was x thr h

/-- The keep-alive tick is due: PER periods of the 32.768 kHz oscillator have passed since the last (R186; log entry 135). -/
def kaTickDue (s : State) : Bool :=
  fget s Fld.KA_TICK_PER != 0 && (match s.power.kaDue with | some d => decide (d / 32768 ≤ s.tick) | none => true)

/-- When the tick after this one is due, in 1/32768 of an interface tick (R186). -/
def kaNextDue (s : State) : Nat := max (s.power.kaDue.getD 0) (s.tick * 32768) + fget s Fld.KA_TICK_PER * 1000000

/-- A new tick period takes effect with the next tick (R186; log entry 135). -/
def restartKa (s : State) : State := setPower s fun p => { p with kaDue := none }

/-- The input of comparator `k` (R185): SEL chooses the port of KA2 and the feed of KA3 and KA4 (R193). -/
def kaInput (s : State) (volts : KaInputs) (k : Nat) : Rat :=
  let sel := fget s (Fld.KA_CFG_SEL k)
  match k with
  | 0 => volts.batts.get 0
  | 1 => volts.batts.get 1
  | 2 => volts.ports.get (Fin.ofNat 32 sel)
  | 3 | 4 => volts.feeds.get (Fin.ofNat 8 sel)
  | _ => volts.vsup

/-- KA_TICK (R185, R186): every enabled comparator is powered and its output taken from the input that SEL chooses. -/
def execKaTick (volts : KaInputs) (s : State) : Host.Outcome State Fault Refusal :=
  if !kaTickDue s then .next s
  else
    let on := fun (k : Nat) => bit s (Fld.KA_CFG_EN k) && kaResult s k (kaInput s volts k)
    let out := (List.range 6).foldl (fun m k => if on k then m + 2 ^ k else m) 0
    .next (setPower (fput s Fld.KA_STATUS_OUT out) fun p => { p with
      kaDue := some (kaNextDue s)
      kaRun := Vector.ofFn fun k => if on k.val then min (p.kaRun.get k + 1) 16 else 0 })

/-- KA_LATCH_SET (R187, R188): comparator `k` was active at CNT consecutive ticks. -/
def execKaLatchSet (k : Fin 6) (s : State) : Host.Outcome State Fault Refusal :=
  if kaCnt s k ≤ s.power.kaRun.get k then
    let was := fbit s Fld.KA_STATUS_LAT k
    let s1 := fputBit s Fld.KA_STATUS_LAT k true
    let hib := devState s == .hibernate || bit s Fld.GLOBAL_STATE_HIB_PEND
    let s2 := if hib && bit s (Fld.KA_CFG_WAKE k) then latchWake s1 0 else s1
    .next (if hib && k.val == 2 && !was then setPower s2 fun p => { p with ka2Hib := true } else s2)
  else .next s

/-- A write of KA_LATCH (R187): the latches written with 1 clear, and their counting starts anew. -/
def writeKaLatch (v : Word) (s : State) : State :=
  let s1 := (List.range 6).foldl (fun s k => if v.getLsbD k then fputBit s Fld.KA_STATUS_LAT k false else s) s
  setPower s1 fun p => { p with kaRun := Vector.ofFn fun k => if v.getLsbD k.val then 0 else p.kaRun.get k }

/-- KA_LATCH_CLEAR (R187). -/
def execKaLatchClear (v : Word) (s : State) : Host.Outcome State Fault Refusal := .next (writeKaLatch v s)

/-! ### VIO banks (R507) -/

/-- The VIO detectors run (R507). -/
def vioRuns (s : State) : Bool := stateRuns (devState s)

/-- VIO_UNDERVOLTAGE (R507): bank `b`, at `v` volts, has been below its threshold of 1.00 V for `held` ticks; the filter takes 2 µs. -/
def execVioUndervoltage : BankLevel → State → Host.Outcome State Fault Refusal
  | ⟨b, v, held⟩, s =>
  if vioRuns s && !s.power.vioLow.get b && decide (v < 1) && decide (2 ≤ held) then
    let s1 := setPower s fun p => { p with vioLow := upd p.vioLow b fun _ => true }
    .next (if b.val = 3 then report s1 0x0708 0 0 0 (stampI s1) else report s1 0x0707 2 0 0 (stampI s1))
  else .next s

/-- VIO_ABOVE_THRESHOLD (R507): bank `b`, at `v` volts, has stayed above threshold and hysteresis for `held` ticks; it takes 1 ms. -/
def execVioAboveThreshold : BankLevel → State → Host.Outcome State Fault Refusal
  | ⟨b, v, held⟩, s =>
  if decide (21 / 20 < v) && decide (1000 ≤ held) then .next (setPower s fun p => { p with vioLow := upd p.vioLow b fun _ => false })
  else .next s

end Sys2Proof.Machine
end

