-- ==== Sys2Proof/Machine/Test.lean ====
section
/-! DEFINITION. Sys2Proof/Machine/Test.lean: online test (spec/17): ports out of service, the checks of the port ADCs, the comparator
sweep, the PWM loopback, ECC scrubbing, the Harness link cut, the TAP and debug unlock. -/

namespace Sys2Proof.Machine

/-! ### Out-of-service ports (R481) -/

/-- States in which a request is accepted (R481). -/
def oosAccepted (s : State) : Bool := match devState s with | .idle | .armed | .safe | .test => true | _ => false

/-- A host write of TEST_OOS (R481). -/
def writeOos (v : Word) (s : State) : State :=
  if oosAccepted s then setTest (wr s Reg.TEST_OOS v) fun t => { t with oosPend := true, oosAt := s.tick } else s

/-- TEST_OOS_WRITE (R481). -/
def execTestOosWrite (v : Word) (s : State) : Host.Outcome State Fault Refusal := .next (writeOos v s)

/-- The port under sweep stays out of service until its sweep ends (R494). -/
def sweptMask (s : State) : Nat :=
  match s.test.sweep with
  | some w => if portOos s w.port then 2 ^ w.port.val else 0
  | none => 0

/-- The requested ports are in force (R481). -/
def applyOos (s : State) : State :=
  refreshPorts (fput s Fld.TEST_OOS_ACT_ACT (fget s Fld.TEST_OOS_OOS ||| sweptMask s))

/-- OOS_APPLY (R481): at a round boundary, or from the interface tick after the write on while the engine does not run. -/
def execOosApply (s : State) : Host.Outcome State Fault Refusal :=
  if s.test.oosPend && (engineRuns s || decide (s.test.oosAt < s.tick)) then .next (setTest (applyOos s) fun t => { t with oosPend := false }) else .next s

/-! ### Checks of the port ADCs (R484, R485) -/

/-- A check conversion with the trims of R103, in the range [lo, hi] of its channel. -/
def checkCode (s : State) (p : Fin 32) (lo hi raw : Int) : Int :=
  clipI (adcTrimmed s p (clipI raw lo hi)) lo hi

/-- A check of the port is due and can be made: it is enabled, it has a window (R483), no variant switch met it (R494), the reference it
measures has not failed (R485), and it has not been made in this slow round (R484). -/
def checkMade (s : State) (p : Fin 32) : Bool :=
  engineRuns s && fbit s Fld.TEST_ADC_EN_EN p && !fbit s Fld.TEST_ADC_NA_NA p && !fbit s Fld.TEST_HK_FAIL_CH 1 &&
    decide (2 ≤ s.sched.sinceSwitch) && s.test.adcAt.get p != some s.hk.startAt

/-- A check that failed (R485): 0x0104 once in a run of FAILN failures or more (DEDUCED: log entry 184). -/
def checkFailed (s : State) (p : Fin 32) : State :=
  let n := s.test.adcRun.get p + 1
  let s1 := setTest s fun t => { t with adcRun := upd t.adcRun p fun _ => n }
  let s2 := raise (fputBit s1 Fld.TEST_ADC_FAIL_FAIL p true) Fld.TEST_EVENT_ADC_FAIL
  let s3 := reportCorrected s2 0x0103 (stampI s2)
  if fget s3 Fld.TEST_CHK_CFG_FAILN != 0 && decide (fget s3 Fld.TEST_CHK_CFG_FAILN ≤ n) && !s3.test.adcTold.get p then
    let s4 := setTest s3 fun t => { t with adcTold := upd t.adcTold p fun _ => true }
    report s4 0x0104 1 1 p (stampI s4)
  else s3

/-- PORT_ADC_CHECK (R484, R485): the codes of the halved reference (nominal 8,192) and of the shorted current path (nominal 0). -/
def execPortAdcCheck (p : Fin 32) (c1 c2 : Int) (u : State) : Host.Outcome State Fault Refusal :=
  if !checkMade u p then .next u
  else
    let s := setTest u fun t => { t with adcAt := upd t.adcAt p fun _ => some u.hk.startAt }
    let tol : Int := (fget s Fld.TEST_CHK_CFG_ADCTOL : Nat)
    let a := checkCode s p 0 16383 c1
    let b := checkCode s p (-8192) 8191 c2
    if (a - 8192).natAbs ≤ tol ∧ b.natAbs ≤ tol then
      .next (fputBit (setTest s fun t => { t with
        adcRun := upd t.adcRun p fun _ => 0, adcTold := upd t.adcTold p fun _ => false }) Fld.TEST_ADC_FAIL_FAIL p false)
    else .next (checkFailed s p)

/-! ### Comparator sweep (R486) -/

/-- A sweep is accepted (R486); one that runs already is finished first (DESIGN CHOICE: log entry 75). -/
def sweepAccepted (s : State) (p : Fin 32) : Bool := s.test.sweep.isNone && (portOos s p || devState s == .test)

/-- The filtered outputs of a port's comparators are inactive while their inputs are disconnected (R486). -/
def quietPort (s : State) (p : Fin 32) : State :=
  (List.finRange 4).foldl (fun s (c : Fin 4) => fput (fput s (outFld p c true) 0) (outFld p c false) 0) s

/-- A sweep begins (R486, R494). -/
def startSweep (s : State) (p : Fin 32) (level : Nat) : State :=
  let s1 := match s.test.capture with
    | some c => if c.port = p then
        fput (setTest s fun t => { t with capture := some { c with aborted := true } }) Fld.TEST_PWM_STAT_ABORTED 1 else s
    | none => s
  let s2 := setTest s1 fun t => { t with sweep := some ⟨p, level, 0, s.tick + 32, 0, 1023, []⟩ }
  quietPort (wr s2 Reg.TEST_CMP_STAT 1) p

/-- A host write of TEST_CMP_CTRL (R486). -/
def writeCmpCtrl (v : Word) (s : State) : State :=
  let s1 := fput (fput s Fld.TEST_CMP_CTRL_PORT (getBits v 0 5)) Fld.TEST_CMP_CTRL_LEVEL (getBits v 16 10)
  let p : Fin 32 := Fin.ofNat 32 (getBits v 0 5)
  if !v.getLsbD 31 then s1
  else if sweepAccepted s1 p then startSweep s1 p (getBits v 16 10)
  else fput s1 Fld.TEST_CMP_STAT_REFUSED 1

/-- CMP_SWEEP_GO (R486). -/
def execCmpSweepGo (v : Word) (s : State) : Host.Outcome State Fault Refusal := .next (writeCmpCtrl v s)

/-- One step of the binary search: over side for the lowest inactive HI code, under side for the highest inactive LO code (R486). -/
def sweepBounds (overSide active : Bool) (lo hi : Nat) : Nat × Nat :=
  if overSide then
    let m := (lo + hi) / 2
    if active then (m + 1, hi) else (lo, m)
  else
    let m := (lo + hi + 1) / 2
    if active then (lo, m - 1) else (m, hi)

/-- A code found lies within CMPTOL codes of the level (R486). -/
def sweepPass (s : State) (level code : Nat) : Bool :=
  decide (((level : Int) - (code : Int)).natAbs ≤ fget s Fld.TEST_CHK_CFG_CMPTOL)

/-- The result register of one comparator (R486, R496). -/
def sweepResult (w : SweepSt) (s : State) (c : Fin 4) : State :=
  let th := w.found.getD (2 * c.val) 0
  let tl := w.found.getD (2 * c.val + 1) 0
  let s1 := fput (fput s (Fld.TEST_CMP_RES_T_HI c) th) (Fld.TEST_CMP_RES_T_LO c) tl
  fputB (fputB s1 (Fld.TEST_CMP_RES_PASS_HI c) (sweepPass s w.level th)) (Fld.TEST_CMP_RES_PASS_LO c) (sweepPass s w.level tl)

/-- Every latch of the port is cleared, and its filters start again (R486). -/
def sweepRestore (p : Fin 32) (s : State) (c : Fin 4) : State :=
  let s1 := setCmp s p c fun x => { x with filtFrom := s.time.base + s.time.cfg.rlen, setNow := false }
  fput (fput s1 (latFld p c true) 0) (latFld p c false) 0

/-- The sweep ends (R486, R494): results, latches, and a return to service that waited for it. -/
def endSweep (s : State) (w : SweepSt) : State :=
  let s1 := (List.finRange 4).foldl (sweepResult w) s
  let s2 := (List.finRange 4).foldl (sweepRestore w.port) (setTest s1 fun t => { t with sweep := none })
  let s3 := raise (fput (fput s2 Fld.TEST_CMP_STAT_BUSY 0) Fld.TEST_CMP_STAT_DONE 1) Fld.TEST_EVENT_CMP_DONE
  let s4 := if w.found.all (sweepPass s w.level) then s3 else reportCorrected s3 0x0105 (stampI s3)
  if s4.test.oosPend then s4 else applyOos s4

/-- The side under search for the level that its comparator sees, in codes (R168, R169, R486: hysteresis 0). -/
def sweepActive (w : SweepSt) (seen : Rat) : Bool :=
  if w.step % 20 < 10 then overSide false seen (((w.lo + w.hi) / 2 : Nat) : Rat) 0 else underSide false seen (((w.lo + w.hi + 1) / 2 : Nat) : Rat) 0

/-- CMP_SWEEP_STEP (R486): a step has dwelt 32 µs and is judged; `seen` is the internal source as the comparator sees it, in codes of R168. -/
def execCmpSweepStep (seen : Rat) (s : State) : Host.Outcome State Fault Refusal :=
  match s.test.sweep with
  | none => .next s
  | some w =>
    if s.tick < w.due then .next s
    else
      let b := sweepBounds (w.step % 20 < 10) (sweepActive w seen) w.lo w.hi
      let ends := w.step % 10 == 9
      let w' : SweepSt := { w with
        step := w.step + 1
        due := w.due + 32
        lo := if ends then 0 else b.1
        hi := if ends then 1023 else b.2
        found := if ends then w.found ++ [b.1] else w.found }
      if w.step = 79 then .next (endSweep s w') else .next (setTest s fun t => { t with sweep := some w' })

/-! ### PWM loopback (R487) -/

/-- A host write of TEST_PWM_CTRL (R487): a request while a capture runs is ignored (DESIGN CHOICE: log entry 75). -/
def writePwmCtrl (v : Word) (s : State) : State :=
  let s1 := fput s Fld.TEST_PWM_CTRL_PORT (getBits v 0 5)
  if v.getLsbD 31 && engineRuns s1 && s1.test.capture.isNone then
    setTest (wr s1 Reg.TEST_PWM_STAT 1) fun t => { t with capture := some ⟨Fin.ofNat 32 (getBits v 0 5), false, 0, [], false⟩ }
  else s1

/-- PWM_CAPTURE_GO (R487). -/
def execPwmCaptureGo (v : Word) (s : State) : Host.Outcome State Fault Refusal := .next (writePwmCtrl v s)

/-- The edges of one output and direction, in order. -/
def edgesOf (l : List EdgeRec) (g : Gate) (rise : Bool) : List Nat := (l.filter fun e => e.out = g && e.rise == rise).map (·.pos)

/-- The same number of edges, each within `tol` steps of its expected position. -/
def edgesAgree (tol : Nat) : List Nat → List Nat → Bool
  | [], [] => true
  | a :: l, b :: m => decide (((a : Int) - (b : Int)).natAbs ≤ tol) && edgesAgree tol l m
  | _, _ => false

/-- A capture passes (R487): the same edges on the same outputs in the same directions, in place. -/
def capturePasses (s : State) (got want : List EdgeRec) : Bool :=
  let tol := max (fget s Fld.TEST_CHK_CFG_PWMTOL) 8
  [Gate.a, .an, .b, .bn].all fun g => [true, false].all fun r => edgesAgree tol (edgesOf got g r) (edgesOf want g r)

/-- A captured position as it is recorded: rounded down to a multiple of 8 steps (R487). -/
def recordedPos (n : Nat) : Nat := n - n % 8

/-- The sixteen edge registers (R487, R496). -/
def putEdges (s : State) (l : List EdgeRec) : State :=
  (List.range 16).foldl (fun s e =>
    match l[e]? with
    | some x => wr s (Reg.TEST_PWM_EDGE e)
        (BitVec.ofNat 32 (x.pos % 2 ^ 24 + x.out.idx.val * 2 ^ 24 + x.rise.toNat * 2 ^ 26 + 2 ^ 31))
    | none => wr s (Reg.TEST_PWM_EDGE e) 0) s

/-- The captured carrier has come and ends in this round or has ended, it was cut, or the port has none because the image does not use it. -/
def captureRan (s : State) (c : CaptureSt) : Bool :=
  let pt := s.ports.get c.port
  c.aborted || !portUsed s c.port ||
    (c.started && (pt.carStart != c.startAt || decide (c.startAt + pt.carLen ≤ 64 * (s.time.base + s.time.cfg.rlen))))

/-- The edges of the captured carrier that the active values command: turn-offs deferred to its end have come (R109, R487). -/
def expectedEdges (s : State) (c : CaptureSt) : List EdgeRec :=
  let pt := s.ports.get c.port
  let s1 := if pt.carStart = c.startAt then settleGates s c.port (c.startAt + pt.carLen - 1) else s
  match s1.test.capture with
  | some d => d.expected
  | none => c.expected

/-- PWM_CAPTURE_DONE (R487, R494): the captured carrier ends; `edges` are those seen at the balls, at their exact positions. -/
def execPwmCaptureDone (edges : List EdgeRec) (s : State) : Host.Outcome State Fault Refusal :=
  match s.test.capture with
  | none => .next s
  | some c =>
    if !captureRan s c then .next s
    else
      let got := (edges.take 16).map fun e => { e with pos := recordedPos e.pos }
      let pass := !c.aborted && capturePasses s got ((expectedEdges s c).take 16)
      let s1 := putEdges (setTest s fun t => { t with capture := none }) got
      let v := pass.toNat * 2 + (decide (16 < edges.length)).toNat * 4 + c.aborted.toNat * 8 + got.length * 16
      let s2 := raise (wr s1 Reg.TEST_PWM_STAT (BitVec.ofNat 32 v)) Fld.TEST_EVENT_PWM_DONE
      .next (if pass || c.aborted then s2 else reportCorrected s2 0x0106 (stampI s2))

/-! ### ECC scrubbing (R404, R488, R489) -/

/-- A word joins the failing words, not rewritten since (R404). -/
def noteBad (l : List (Nat × Bool)) (addr : Nat) : List (Nat × Bool) := (addr / 8 * 8, false) :: l.filter fun e => e.1 != addr / 8 * 8

/-- Keep-alive SRAM goes bad while nothing reads it: the check in BOOT finds it (R462). -/
def lateError (s : State) (k : SramKind) : State := setPower s fun p => { p with kaBad := k :: p.kaBad.filter (· != k) }

/-- A double-bit error in an SRAM word (R404). For bulk staging SRAM R404 names no fault, and it holds nothing beyond a transaction (log entry
181). -/
def doubleError (s : State) (k : SramKind) (addr : Nat) : State :=
  match k with
  | .engine => report (setTest s fun t => { t with badEng := noteBad t.badEng addr }) 0x0B02 2 0 0 (stampI s)
  | .core => report (setTest s fun t => { t with badCore := noteBad t.badCore addr }) 0x0B03 2 0 0 (stampI s)
  | .queuePool q i =>
    let s1 := setQueue s q fun x => { x with entries := x.entries.set i (rd s Reg.HOSTIF_FILL) }
    reportCorrected s1 0x0B04 (stampI s1)
  | .bulkStaging => s
  | .keepAliveRecorder =>
    if devState s == .off || devState s == .hibernate then lateError s k else reportCorrected (ledgerLoad (loseRecorder s)) 0x0B05 (stampI s)
  | _ => if devState s == .off || devState s == .hibernate then lateError s k else reportCorrected (loseRegion s k) 0x0B05 (stampI s)

/-- A word read back without error: it is no longer among the failing words once it has been rewritten (R404). -/
def wordGood (s : State) (k : SramKind) (addr : Nat) : State :=
  let left := fun (l : List (Nat × Bool)) => l.filter fun e => !(e.2 && e.1 == addr / 8 * 8)
  match k with
  | .engine => setTest s fun t => { t with badEng := left t.badEng }
  | .core => setTest s fun t => { t with badCore := left t.badCore }
  | _ => s

/-- What the read of an SRAM word with `errs` bits in error does (R404, R488). -/
def sramWord (s : State) (k : SramKind) (addr errs : Nat) : State :=
  match errs with
  | 0 => wordGood s k addr
  | 1 => reportCorrected s 0x0B01 (stampI s)
  | _ => doubleError s k addr

/-- An SRAM word may be read: scrubbing is on, at most one word a microsecond, and a pass starts SPER seconds after the last began (R488). -/
def sramDue (s : State) : Bool :=
  bit s Fld.TEST_SCRUB_CFG_SRAM_EN && decide (s.test.sramAt ≤ s.tick) &&
    (s.test.sramOpen || (match s.test.sramFrom with
      | some t => decide (t + 1000000 * fget s Fld.TEST_SCRUB_CFG_SPER ≤ s.tick)
      | none => true))

/-- The pass goes on, or ends with this word (R488). -/
def sramPass (s : State) (last : Bool) : State :=
  setTest s fun t => { t with
    sramAt := s.tick + 1
    sramFrom := if t.sramOpen then t.sramFrom else some s.tick
    sramOpen := !last }

/-- SRAM_SCRUB_WORD (R404, R488): a word is read with `errs` bits in error; `last` closes a pass of the scrub. A read that is not of the scrub
keeps no pace and needs no enable. -/
def execSramScrubWord (kind : SramKind) (ecc : EccRead) (errs : Nat) (last : Bool) (u : State) : Host.Outcome State Fault Refusal :=
  if !ecc.scrub then .next (sramWord u kind ecc.addr errs)
  else if !sramDue u then .next u
  else
    let s1 := sramWord (sramPass u last) kind ecc.addr errs
    .next (if last then inc s1 Fld.TEST_SCRUB_STAT_SRAM_PASS else s1)

/-- A single-bit error asks for the refresh of its block, where it may be made (R489); a block that waits already is asked for once. -/
def askRefresh (s : State) (addr : Nat) : State :=
  let o := addr / 64 * 64
  if bit s Fld.TEST_SCRUB_CFG_REFRESH && mayRefresh s o && !s.saddle.refreshDue.contains o then
    setRec s fun x => { x with refreshDue := x.refreshDue ++ [o] }
  else s

/-- What the read of an NVM word with `errs` bits in error does (R404, R489): after a double-bit error the reads of its word fail in the function
that makes them, until its block is rewritten. -/
def nvmScrubbed (s : State) (addr errs : Nat) : State :=
  match errs with
  | 0 => s
  | 1 => reportCorrected s 0x0B06 (stampI s)
  | _ => reportCorrected { s with nvmBad := (addr / 8 * 8) :: s.nvmBad.filter (· != addr / 8 * 8) } 0x0B07 (stampI s)

/-- NVM_SCRUB_WORD (R404, R489): a word is read with `errs` bits in error, by the scrub at most one per 10 µs; a single-bit error that the scrub
meets asks for the refresh of its block. -/
def execNvmScrubWord (ecc : EccRead) (errs : Nat) (last : Bool) (u : State) : Host.Outcome State Fault Refusal :=
  if !ecc.scrub then .next (nvmScrubbed u ecc.addr errs)
  else if !bit u Fld.TEST_SCRUB_CFG_NVM_EN || decide (u.tick < u.test.nvmAt) then .next u
  else
    let s := nvmScrubbed (setTest u fun t => { t with nvmAt := u.tick + 10 }) ecc.addr errs
    let s1 := if errs = 1 then askRefresh s ecc.addr else s
    .next (if last then inc s1 Fld.TEST_SCRUB_STAT_NVM_PASS else s1)

/-! ### Harness link cut (R490) -/

/-- A write of TEST_HARN (R490): from a Harness CMD it acts when the CMD has been executed. -/
def writeTestHarn (v : Word) (byHarness : Bool) (s : State) : State :=
  let s1 := fput s Fld.TEST_HARN_OFF (getBits v 0 3)
  if byHarness then setTest s1 fun t => { t with cutPend := Vector.replicate 3 true } else applyCut allPorts s1

/-- TEST_HARN_WRITE (R490). -/
def execTestHarnWrite (v : Word) (s : State) : Host.Outcome State Fault Refusal := .next (writeTestHarn v false s)

/-! ### TAP and debug (R492, R493) -/

/-- The TAP instruction is served only in whole-device TEST with BSCAN_EN = 1 (R492). -/
def testInstr : TapInstr → Bool
  | .extest | .intest | .clamp | .highz => true
  | _ => false

/-- The instructions of a debugger (R493). -/
def debugInstr (i : TapInstr) : Bool := i == .coreHalt || i == .coreRun

/-- A TAP instruction is served (R492, R493): a boundary-scan test only with BSCAN_EN = 1 in whole-device TEST, the debugger's halt and run of the
core only while debug is unlocked (DESIGN CHOICE: log entry 185). -/
def tapServed (s : State) (i : TapInstr) : Bool :=
  (!testInstr i || (devState s == .test && bit s Fld.TEST_JTAG_BSCAN_EN)) && (!debugInstr i || bit s Fld.TEST_STATUS_DBG)

/-- JTAG_INSTRUCTION (R403, R492, R493): an instruction that is not served loads BYPASS; a debugger that halts the core freezes the firmware
watchdog until the core runs. -/
def execJtagInstruction (i : TapInstr) (s : State) : Host.Outcome State Fault Refusal :=
  match devState s with
  | .off | .hibernate => .next s
  | _ =>
    let i' := if tapServed s i then i else .bypass
    let s1 := setTest s fun t => { t with tap := i' }
    .next (if debugInstr i' then fputB s1 Fld.FAULT_FWD_STAT_FROZEN (i' == .coreHalt) else s1)

/-- A write of TEST_JTAG (R492): without BSCAN_EN a boundary-scan test is served no more. -/
def leaveBscan (s : State) : State :=
  if !bit s Fld.TEST_JTAG_BSCAN_EN && testInstr s.test.tap then setTest s fun t => { t with tap := .bypass } else s

/-- A debug nonce drawn (R493). -/
def debugNonce (s : State) : State :=
  let d := drawBytes s 16
  fput (putRegBytes d.2 (Reg.TEST_DNONCE 0) d.1) Fld.TEST_STATUS_DNONCE 1

/-- DBG_NONCE_NEW (R493). -/
def execDbgNonceNew (s : State) : Host.Outcome State Fault Refusal := .next (debugNonce s)

/-- The conditions of R493 under which an unlock is accepted; `v` is the word written. -/
def unlockAccepted (s : State) (v : Word) : Bool :=
  devState s == .test && getBits v 16 16 == 0x4442 && bit s Fld.TEST_STATUS_DNONCE && !bit s Fld.TEST_STATUS_DLOCKOUT &&
    tokenFits s (regBytes s (Reg.TEST_DNONCE 0) 4 ++ [0x44] ++ deviceIdBytes) (regBytes s (Reg.TEST_DTOKEN 0) 8)

/-- An unlock request (R493): it consumes the nonce; the fourth refusal since reset locks out. -/
def debugUnlock (v : Word) (s : State) : State :=
  let ok := unlockAccepted s v
  let s1 := fput (putRegBytes s (Reg.TEST_DNONCE 0) (List.replicate 16 0)) Fld.TEST_STATUS_DNONCE 0
  if ok then fput s1 Fld.TEST_STATUS_DBG 1
  else
    let n := s1.test.dbgRefusals + 1
    let s2 := setTest s1 fun t => { t with dbgRefusals := n }
    let s3 := if n = 4 then fput s2 Fld.TEST_STATUS_DLOCKOUT 1 else s2
    reportCorrected s3 0x0C06 (stampI s3)

/-- A host write of TEST_DBG_CTRL (R493): NONCE_NEW acts before UNLOCK. -/
def writeDbgCtrl (v : Word) (s : State) : State :=
  let s1 := if v.getLsbD 0 then debugNonce s else s
  if v.getLsbD 1 then debugUnlock v s1 else s1

/-- DBG_UNLOCK (R493): TEST_DBG_CTRL is written with UNLOCK = 1; NONCE_NEW of the same write acts first. -/
def execDbgUnlock (v : Word) (s : State) : Host.Outcome State Fault Refusal := .next (writeDbgCtrl (v ||| 2#32) s)

end Sys2Proof.Machine
end

