-- ==== Sys2Proof/Machine/Map.lean ====
section
/-! DEFINITION. Sys2Proof/Machine/Map.lean: the address map as a host path reads and writes it (R9 to R18, R58, R93, R349, R524): one
write operation and one read operation, with the behaviour of each register behind its address. -/

namespace Sys2Proof.Machine

/-! ### Interrupts (R378) -/

/-- An event register and the enable register that follows it hold a common bit. -/
def evOn (s : State) (ev : Nat) : Bool := rd s ev &&& rd s (ev + 4) != 0

/-- HOSTIF_IRQSUM (R378, R383): bit b for the fixed blocks in the order of R10, then ports and loops. -/
def irqSum (s : State) : Nat :=
  let fixed : List Bool := [evOn s Reg.GLOBAL_EVENT, evOn s Reg.TIME_EVENT, evOn s Reg.SCHED_EVENT, evOn s Reg.FAULT_EVENT,
    evOn s Reg.HARNESS_EVENT,
    evOn s Reg.HOSTIF_EVENT || rd s Reg.HOSTIF_QEVENT_LO &&& rd s Reg.HOSTIF_QIRQEN_LO != 0 ||
      rd s Reg.HOSTIF_QEVENT_HI &&& rd s Reg.HOSTIF_QIRQEN_HI != 0,
    evOn s Reg.SEQ_EVENT, (List.range 8).any fun f => evOn s (Reg.FEED_EVENT f), (List.range 2).any fun b => evOn s (Reg.BATT_EVENT b),
    evOn s Reg.HK_EVENT || fget s Fld.KA_STATUS_LAT &&& fget s Fld.KA_IRQEN_IRQ != 0,
    evOn s Reg.CAPO_EVENT, evOn s Reg.REC_EVENT, evOn s Reg.TRUST_EVENT, evOn s Reg.TEST_EVENT,
    (List.range 32).any fun p => evOn s (Reg.PORT_EVENT p) || (List.range 4).any fun c => evOn s (Reg.CMP_EVENT p c),
    (List.range 64).any fun n => evOn s (Reg.LOOP_EVENT n)]
  (fixed.foldl (fun (a : Nat × Nat) b => (if b then a.1 + a.2 else a.1, 2 * a.2)) (0, 1)).1

/-- IRQ_N is asserted (R378). -/
def irqOn (s : State) : Bool := irqSum s != 0

/-! ### What the ports serve -/

/-- The host ports serve accesses (R349, R450). -/
def hostReady (s : State) : Bool := stateRuns (devState s) && s.trust.pause.isNone

/-- In recovery the boot ROM serves GLOBAL and TRUST only (R440). -/
def blockServed (s : State) (a : Nat) : Bool :=
  !inRecovery s || decide (a < 0x1000) || (decide (0xC000 ≤ a) && decide (a < 0xD000))

/-! ### Writes (R14 to R18) -/

/-- Bits of `v` replaced by those of `old`: a reserved encoding is ignored (R18). -/
def keepBits (old v : Word) (lo n : Nat) : Word := setBits v lo n (getBits old lo n)

/-- A written word with every reserved encoding replaced by what the field holds (R18). -/
def ignoreReserved (a : Nat) (old v : Word) : Word :=
  if a = Reg.SCHED_LATSEL then (if 80 ≤ getBits v 0 7 then keepBits old v 0 7 else v)
  else if a = Reg.CAPO_BTX then (if 225 ≤ getBits v 0 8 then keepBits old v 0 8 else v)
  else if 0xA900 ≤ a ∧ a < 0xB000 ∧ a % 8 = 4 then (if vwReserved v then old else v)
  else if a = Reg.HOSTIF_BULK_CFG ∨ a = Reg.HOSTIF_TW_CFG then (if getBits v 8 8 = 0 then keepBits old v 8 8 else v)
  else if a = Reg.HOSTIF_TWC_CTRL then
    let v1 := if 33 ≤ getBits v 8 6 then keepBits old v 8 6 else v
    if 33 ≤ getBits v 16 6 then keepBits old v1 16 6 else v1
  else if a = Reg.KA_TICK then
    let p := getBits v 0 12
    if p = 0 ∨ (33 ≤ p ∧ p ≤ 3276) then v else keepBits old v 0 12
  else if 0x9810 ≤ a ∧ a < 0x9828 then
    let k := (a - 0x9810) / 4
    let v1 := if (k = 2 ∨ k = 5) ∧ getBits v 11 1 = 0 then keepBits old v 11 1 else v
    let top := if k = 2 then 32 else if k = 3 ∨ k = 4 then 8 else 1
    if top ≤ getBits v 19 5 then keepBits old v1 19 5 else v1
  else if a = Reg.FAULT_HWD_CFG then (if getBits v 0 8 = 0 then keepBits old v 0 8 else v)
  else if a = Reg.TRUST_ACT_CFG then
    let k := getBits v 0 2
    if k = 1 ∨ k = 2 then v else keepBits old v 0 2
  else v

/-- The lock that governs the RWL fields, all of the host watchdog (R401). -/
def hwdLocked (s : State) : Bool := bit s Fld.FAULT_HWD_CTRL_EN || bit s Fld.FAULT_HWD_CTRL_HWD_LOCK

/-- One field of a register after a write of `v` (R14); a write-only field is held where a later command reads it. -/
def writeField (locked idle : Bool) (v : Word) (w : Word) (f : Nat × Nat × Access) : Word :=
  let x := getBits v f.1 f.2.1
  match f.2.2 with
  | .ro => w
  | .rw | .wo => setBits w f.1 f.2.1 x
  | .w1c => w &&& ~~~(setBits 0 f.1 f.2.1 x)
  | .rwl => if locked then w else setBits w f.1 f.2.1 x
  | .rwi => if idle then setBits w f.1 f.2.1 x else w

/-- A write to the register is refused for one of its fields (R16). -/
def plainRefused (s : State) (r : RegRow) : Bool :=
  r.fields.any fun f => match f.2.2 with | .rwl => hwdLocked s | .rwi => devState s != .idle | _ => false

/-- A write to a register without behaviour of its own (R14 to R18). -/
def writePlain (r : RegRow) (a : Nat) (v : Word) (s : State) : State :=
  let locked := hwdLocked s
  let idle := devState s == .idle
  let old := rd s a
  let s1 := wr s a (r.fields.foldl (writeField locked idle (ignoreReserved a old v)) old)
  if plainRefused s r then refusedWrite s1 else s1

/-- A command bit of a control register. -/
def whenBit (v : Word) (k : Nat) (f : State → State) (s : State) : State := if v.getLsbD k then f s else s

/-- A write of CAPO_CTRL (R225): its bits act in rising order. -/
def writeCapoCtrl (v : Word) (s : State) : State :=
  whenBit v 2 commitBudget (whenBit v 1 clearCapoCnt (whenBit v 0 requestTrimClear s))

/-- A write of BATT_CTRL (R296). -/
def writeBattCtrl (b : Fin 2) (v : Word) (s : State) : State := whenBit v 1 (requestRestore b) (whenBit v 0 (requestSnap b) s)

/-- A write of HOSTIF_Qn_CTRL (R377). -/
def writeQueueCtrl (q : Fin 64) (v : Word) (s : State) : State := whenBit v 1 (clearQueueDrop q) (whenBit v 0 (requestFlush q) s)

/-- HOSTIF_CTRL.CNT_CLR (R383). -/
def clearHostCnt (s : State) : State := wr s Reg.HOSTIF_CNT 0

/-- The two-wire interface reset (R366): an open transfer ends, a partial word is discarded under R350; a controller transfer ends without
a result (DESIGN CHOICE: log entry 78). -/
def twReset (s : State) : State :=
  let cut := match s.host.tw with | some r => r.cut | none => false
  let s1 := fput { s with host := { s.host with tw := none, twcOn := false } } Fld.HOSTIF_TWC_STAT_BUSY 0
  if cut then partialWord s1 else s1

/-- A write of HOSTIF_CTRL (R383). -/
def writeHostCtrl (v : Word) (s : State) : State := whenBit v 1 twReset (whenBit v 0 clearHostCnt s)

/-- A write of HOSTIF_TWC_CTRL (R369): GO is ignored while a transfer runs, or with both lengths 0. -/
def writeTwcCtrl (v : Word) (s : State) : State :=
  let old := rd s Reg.HOSTIF_TWC_CTRL
  let w := ignoreReserved Reg.HOSTIF_TWC_CTRL old v
  let s1 := wr s Reg.HOSTIF_TWC_CTRL (setBits (setBits (setBits (setBits (setBits old 0 7 (getBits w 0 7)) 8 6 (getBits w 8 6)) 16 6
    (getBits w 16 6)) 22 1 (getBits w 22 1)) 24 3 (getBits w 24 3))
  if v.getLsbD 31 && !bit s1 Fld.HOSTIF_TWC_STAT_BUSY &&
      (fget s1 Fld.HOSTIF_TWC_CTRL_WLEN != 0 || fget s1 Fld.HOSTIF_TWC_CTRL_RLEN != 0) then
    { wr s1 Reg.HOSTIF_TWC_STAT 1 with host := { s1.host with twcOn := false } }
  else s1

/-- A write of FAULT_HWD_TOKKEY (R401). -/
def writeTokKey (v : Word) (s : State) : State :=
  if hwdLocked s then refusedWrite s else fput s Fld.FAULT_HWD_TOKKEY_K (getBits v 0 16)

/-- Registers with behaviour of their own in GLOBAL to HOSTIF. -/
def writeLow (r : RegRow) (a : Nat) (v : Word) (s : State) : State :=
  if a = Reg.GLOBAL_ARM then writeGlobalArm v s
  else if a = Reg.GLOBAL_CTRL then writeGlobalCtrl v s
  else if a = Reg.TIME_FLEET then writeFleet v s
  else if a = Reg.SCHED_CTRL then whenBit v 0 clearQdrop s
  else if a = Reg.SCHED_VSEL then requestVariant v s
  else if a = Reg.SCHED_SWAP_GO then whenBit v 0 requestSwap s
  else if a = Reg.FAULT_CLR then writeFaultClr v s
  else if a = Reg.FAULT_CTRL then whenBit v 0 clearFaultCnt s
  else if a = Reg.FAULT_HWD_CTRL then writeHwdCtrl v s
  else if a = Reg.FAULT_HWD_TOKKEY then writeTokKey v s
  else if a = Reg.FAULT_HWD_KEY then writeHwdKey v s
  else if a = Reg.FAULT_HWD_ANS then writeHwdAns v s
  else if a = Reg.FAULT_HWD_CHECKIN then writeHwdCheckin v s
  else if a = Reg.HARNESS_CTRL then writeHarnCtrl v s
  else if a = Reg.HARNESS_ROOTEPOCH then writeRootEpoch v s
  else if a = Reg.HOSTIF_TWC_CTRL then writeTwcCtrl v s
  else if a = Reg.HOSTIF_CTRL then writeHostCtrl v s
  else if 0x5800 ≤ a ∧ a % 0x20 = 4 then writeQueueWm (Fin.ofNat 64 ((a - 0x5800) / 0x20)) v s
  else if 0x5800 ≤ a ∧ a % 0x20 = 0x10 then writeQueueCtrl (Fin.ofNat 64 ((a - 0x5800) / 0x20)) v s
  else writePlain r a v s

/-- Registers with behaviour of their own in SEQ to TEST. -/
def writeHigh (byHarness : Bool) (r : RegRow) (a : Nat) (v : Word) (s : State) : State :=
  if a = Reg.SEQ_CMD then writeSeqCmd v s
  else if a = Reg.SEQ_CTRL then whenBit v 0 clearSeqCnt s
  else if a = Reg.FEED_CMD then writeFeedCmd v s
  else if 0x712C ≤ a ∧ a < 0x8000 ∧ (a - 0x712C) % 0x40 = 0 then whenBit v 0 (clearFeedCnt (Fin.ofNat 8 ((a - 0x712C) / 0x40))) s
  else if a = Reg.BATT_CTRL 0 then writeBattCtrl 0 v s
  else if a = Reg.BATT_CTRL 1 then writeBattCtrl 1 v s
  else if a = Reg.HK_CTRL then whenBit v 0 clearHkCnt s
  else if a = Reg.KA_TICK then restartKa (writePlain r a v s)
  else if a = Reg.KA_LATCH then writeKaLatch v s
  else if a = Reg.CAPO_CTRL then writeCapoCtrl v s
  else if a = Reg.CAPO_HOSTCAP then writeHostCap v s
  else if a = Reg.REC_CTRL then writeRecCtrl v s
  else if a = Reg.REC_WALL then writeRecWall v s
  else if a = Reg.REC_CLEAR then writeRecClear v s
  else if a = Reg.TRUST_CTRL then writeTrustCtrl v s
  else if a = Reg.TRUST_STG_CTRL then writeStgCtrl v s
  else if a = Reg.TRUST_KEYCMD then writeKeyCmd v s
  else if a = Reg.TEST_OOS then writeOos v s
  else if a = Reg.TEST_CMP_CTRL then writeCmpCtrl v s
  else if a = Reg.TEST_PWM_CTRL then writePwmCtrl v s
  else if a = Reg.TEST_HARN then writeTestHarn v byHarness s
  else if a = Reg.TEST_DBG_CTRL then writeDbgCtrl v s
  else if a = Reg.TEST_JTAG then leaveBscan (writePlain r a v s)
  else writePlain r a v s

/-- A port block with its comparators (R129, R191): `o` is the offset in the block. -/
def writePortBlock (r : RegRow) (p : Fin 32) (o a : Nat) (v : Word) (s : State) : State :=
  if o = 0x2C then whenBit v 0 (clearPortCnt p) s
  else if 0x100 ≤ o ∧ o < 0x200 then
    let c : Fin 4 := Fin.ofNat 4 ((o - 0x100) / 0x40)
    match o % 0x40 with
    | 0x08 => writeCmpThr p c v s
    | 0x14 => writeCmpLatch p c v s
    | 0x24 => whenBit v 0 (clearCmpCnt p c) s
    | _ => writePlain r a v s
  else writePlain r a v s

/-- A loop context (R165, R166): `o` is the offset in the context. -/
def writeLoopBlock (r : RegRow) (n : Fin 64) (o a : Nat) (v : Word) (s : State) : State :=
  if o = 0x08 then writeLoopMode n v s
  else if o = 0x0C then writeLoopUman n v s
  else if o = 0x1C then whenBit v 0 (clearLoopCnt n) s
  else if 0x100 ≤ o then writeLoopShadow n (Fin.ofNat 64 ((o - 0x100) / 4)) v s
  else writePlain r a v s

/-- A write of an assigned register. -/
def writeReg (path : Path) (r : RegRow) (a : Nat) (v : Word) (s : State) : State :=
  let h := path == .harness
  if a < 0x6000 then writeLow r a v s
  else if a < 0x10000 then writeHigh h r a v s
  else if a < 0x18000 then writePortBlock r (Fin.ofNat 32 ((a - 0x10000) / 0x400)) (a % 0x400) a v s
  else writeLoopBlock r (Fin.ofNat 64 ((a - 0x18000) / 0x200)) (a % 0x200) a v s

/-- A write of the map word at `a`, a multiple of 4 (R10 to R18, R77, R349, R374, R440, R524). -/
def hostWrite (path : Path) (a : Nat) (v : Word) (s : State) : State :=
  if !hostReady s || !blockServed s a then s
  else if 0x20000 ≤ a ∧ a < 0x30000 then refusedWrite s
  else if 0x300000 ≤ a ∧ a < 0x380000 then writeEngine (a - 0x300000) v s
  else if 0x10000000 ≤ a ∧ a < 0x10400000 then refusedWrite s
  else if imageOnly a then s
  else
    match regRow? a with
    | none => unassigned s
    | some r => writeReg path r a v s

/-- REG_WRITE (R14): a word is written to the map. -/
def execRegWrite (path : Path) (addr : BitVec 32) (v : Word) (s : State) : Host.Outcome State Fault Refusal :=
  .next (hostWrite path (addr.toNat / 4 * 4) v s)

/-- HOSTIF_CNT_CLR (R383). -/
def execHostifCntClr (s : State) : Host.Outcome State Fault Refusal := .next (clearHostCnt s)

/-- TW_RESET (R366): HOSTIF_CTRL.TW_RESET. -/
def execTwReset (s : State) : Host.Outcome State Fault Refusal := .next (twReset s)

/-- TWC_GO (R369): HOSTIF_TWC_CTRL is written. -/
def execTwcGo (v : Word) (s : State) : Host.Outcome State Fault Refusal := .next (writeTwcCtrl v s)

/-! ### Reads -/

/-- SCHED_LAT: the latency entry of the selection (R81, R96). -/
def schedLat (s : State) : Word :=
  let sel := fget s Fld.SCHED_LATSEL_SEL
  let e := if sel < 64 then (if loopUsed s sel then latOf s sel else none) else s.sched.lat.find? fun e => e.ctx == sel
  match e with
  | some e => BitVec.ofNat 32 (e.sfret + e.cfret * 2 ^ 12 + (decide (e.cfret ≤ e.sfret)).toNat * 2 ^ 24 + 2 ^ 25 + e.d % 64 * 2 ^ 26)
  | none => BitVec.ofNat 32 (2 ^ 26)

/-- HOSTIF_STATUS (R362, R376, R378, R379, R383). -/
def hostStatus (s : State) : Word :=
  let w := rd s Reg.HOSTIF_STATUS
  let b := fun (w : Word) (k : Nat) (x : Bool) => setBits w k 1 x.toNat
  b (b (b (b (b w 3 s.host.bulk.isSome) 4 s.host.tw.isSome) 5 (bit s Fld.HOSTIF_TWC_STAT_BUSY)) 6 (irqOn s)) 7 s.power.wakePin

/-- Word `k` of a byte list. -/
def listWord (l : List Byte) (k : Nat) : Word := leWord (fun o => l.getD o 0) (4 * k)

/-- A standing entry as the host reads it: GONE shows whether the cause is gone (R387, R392). -/
def readEntry (s : State) (a e : Nat) : Word × State :=
  if entryValid s e then (setBits (rd s a) 26 1 (entryGone s e).toNat, s) else (rd s a, s)

/-- The value of an assigned register, with those that are formed when they are read. -/
def regValue (s : State) (a : Nat) : Word × State :=
  if a = Reg.HOSTIF_STATUS then (hostStatus s, s)
  else if a = Reg.HOSTIF_IRQSUM then (BitVec.ofNat 32 (irqSum s), s)
  else if a = Reg.SCHED_LAT then (schedLat s, s)
  else if a = Reg.FAULT_HWD_TIME then (BitVec.ofNat 32 (hwdElapsed s), s)
  else if a = Reg.TRUST_DEVID_LO then (BitVec.ofNat 32 Config.deviceId, s)
  else if a = Reg.TRUST_DEVID_HI then (BitVec.ofNat 32 (Config.deviceId / 2 ^ 32), s)
  else if 0xC100 ≤ a ∧ a < 0xC260 then (listWord s.trust.reportOut ((a - 0xC100) / 4), s)
  else if 0xC300 ≤ a ∧ a < 0xC3C0 then (listWord (measBytes s (Fin.ofNat 4 ((a - 0xC300) / 0x30))) ((a - 0xC300) % 0x30 / 4), s)
  else if 0x3200 ≤ a ∧ a < 0x3600 ∧ a % 0x10 = 0 then readEntry s a ((a - 0x3200) / 0x10)
  else if 0x18000 ≤ a ∧ a < 0x20000 ∧ 0x100 ≤ a % 0x200 then
    let n := (a - 0x18000) / 0x200
    let w := (a % 0x200 - 0x100) / 4
    (if w < 24 then bankWord s n (1 - activeBank s n) (4 * w) else 0, s)
  else if 0x10000 ≤ a ∧ a < 0x18000 ∧ 0x100 ≤ a % 0x400 ∧ a % 0x400 < 0x200 ∧ a % 0x40 = 0x14 then
    (BitVec.ofNat 32 (getBits (rd s (a - 4)) 2 2), s)
  else if a = Reg.KA_LATCH then (BitVec.ofNat 32 (fget s Fld.KA_STATUS_LAT), s)
  else if a = Reg.SEQ_SUMMARY then (seqSummary s, s)
  else if 0x6100 ≤ a ∧ a < 0x6300 ∧ a % 0x20 = 0x14 then (railStatus s (Fin.ofNat 16 ((a - 0x6100) / 0x20)), s)
  else if 0x7100 ≤ a ∧ a < 0x7300 ∧ a % 0x40 = 0x20 then (feedStatus s (Fin.ofNat 8 ((a - 0x7100) / 0x40)), s)
  else if 0x18000 ≤ a ∧ a < 0x20000 ∧ a % 0x200 = 0x10 then (setBits (hostSees s a) 9 1 (getBits (rd s a) 9 1), s)
  else (hostSees s a, s)

/-- Write-only fields read as 0 (R14). -/
def hideWo (r : RegRow) (w : Word) : Word :=
  r.fields.foldl (fun w f => match f.2.2 with | .wo => setBits w f.1 f.2.1 0 | _ => w) w

/-- A read of an assigned register on a path: timestamp pairs are captured (R58, R406). -/
def readReg (s : State) (path : Path) (r : RegRow) (a : Nat) : Word × State :=
  if isTsLo a then (hostSees s a, captureTs path a s)
  else if decide (4 ≤ a) && isTsLo (a - 4) then (capturedHi s path (a - 4), s)
  else
    let x := regValue s a
    (hideWo r x.1, x.2)

/-- A byte of the identity region (R435), by its offset from 0x103C_0000: secrets read 0. -/
def idWindow (s : State) (o : Nat) : Byte :=
  if o < 8 then deviceIdBytes.getD o 0
  else if o < 0x68 then (ecPublic Config.attestSecret).getD (o - 8) 0
  else if 0x100 ≤ o ∧ o < 0x130 then 0
  else if 0x1000 ≤ o ∧ o < 0x1200 then (keyRecord s.trust.kept.lifecycle s.trust.kept.revoked s.trust.kept.keys s.trust.kept.clearKey).getD (o - 0x1000) 0
  else if 0x1200 ≤ o ∧ o < 0x1220 then 0
  else if 0x2000 ≤ o ∧ o < 0x3000 then
    Config.configByte (o - 0x2000) (s.trust.kept.fwSlot.toNat + 2 * s.trust.kept.stSlot.toNat) s.trust.kept.bootCnt s.trust.kept.floor
  else Config.idByte o

/-- A byte of the NVM read window (R407, R435), by its offset from 0x1000_0000. -/
def nvmWindow (s : State) (o : Nat) : Byte := if 0x3C0000 ≤ o then idWindow s (o - 0x3C0000) else nvmByte s o

/-- A word of the NVM read window: one with a double-bit error cannot be read, and the spec states no value for it (R404; DESIGN CHOICE: log
entry 181). -/
def readNvm (s : State) (o : Nat) : Word × State :=
  if nvmFails s o 4 then (Config.freeWord s.free, nvmReadFaults { s with free := s.free + 1 } o 4) else (leWord (nvmWindow s) o, s)

/-- The read of a word of engine memory that has been rewritten finds no error (R404). -/
def readBack (s : State) (o : Nat) : State :=
  { s with test := { s.test with badEng := s.test.badEng.filter fun e => !(e.2 && e.1 == o / 8 * 8) } }

/-- A word of engine memory as a host reads it (R93, R404): the layout of the state area is open. -/
def readEngine (s : State) (o : Nat) : Word × State :=
  if 0x78000 ≤ o then (Config.freeWord s.free, { readBack s o with free := s.free + 1 }) else (engWord s o, readBack s o)

/-- A read of the map word at `a`, a multiple of 4, on a path: none while the reader must wait for a queue entry (R10, R11, R58, R93,
R374, R375, R407, R440, R524). -/
def hostRead (path : Path) (a : Nat) (s : State) : Option (Word × State) :=
  if !blockServed s a then some (0, s)
  else if 0x20000 ≤ a ∧ a < 0x30000 then readQueue s path (Fin.ofNat 64 ((a - 0x20000) / 0x400))
  else if 0x300000 ≤ a ∧ a < 0x380000 then some (readEngine s (a - 0x300000))
  else if 0x10000000 ≤ a ∧ a < 0x10400000 then some (readNvm s (a - 0x10000000))
  else if imageOnly a then some (0, s)
  else
    match regRow? a with
    | none => some (0, unassigned s)
    | some r => some (readReg s path r a)

end Sys2Proof.Machine
end

