-- ==== Sys2Proof/Machine/HostPorts.lean ====
section
/-! DEFINITION. Sys2Proof/Machine/HostPorts.lean: the bulk port (R353 to R361) and the two-wire port as target and controller (R362 to
R370). A command is one transaction; one that must wait for a queue entry stays open in State until it is served, times out or is cut. -/

namespace Sys2Proof.Machine

/-- The host ports changed in what no register holds. -/
def setHost (s : State) (f : HostSt → HostSt) : State := { s with host := f s.host }

/-! ### Words from bytes (R350) -/

/-- The bytes of a word as far as they have arrived, with the byte for the map address `a` (R350): a word is built from its byte 0 on. -/
def wordSoFar (buf : List Byte) (a : Nat) (b : Byte) : List Byte :=
  if a % 4 = 0 then [b] else if buf.isEmpty then [] else buf ++ [b]

/-- The words that a run of bytes completes, each byte with its map address: a word is written when its bytes 0 to 3 have arrived, `none`
stands for a word that was passed incomplete; the flag says that the last word is still open. -/
def gather : List Byte → List (Nat × Byte) → List (Option (Nat × Word)) × Bool
  | _, [] => ([], false)
  | buf, (a, b) :: l =>
    let buf' := wordSoFar buf a b
    if a % 4 = 3 then
      let r := gather [] l
      let w : Option (Nat × Word) := if buf'.length = 4 then some (a - 3, BitVec.ofNat 32 (ofLeBytes buf')) else none
      (w :: r.1, r.2)
    else if l.isEmpty then ([], true)
    else gather buf' l

/-- The words of a bulk run written in order, while the port serves (R350). -/
def landWords (ws : List (Option (Nat × Word))) (s : State) : State :=
  ws.foldl (fun s w => if !hostReady s then s else match w with | some x => hostWrite .bulk x.1 x.2 s | none => partialWord s) s

/-- Complete words in a run. -/
def wholeWords (ws : List (Option (Nat × Word))) : Nat := (ws.filter (·.isSome)).length

/-! ### Regions (R10, R360) -/

/-- The end of the region that holds `a`, and whether the map assigns it (R10, R360). -/
def regionEnd (a : Nat) : Nat × Bool :=
  if a < 0xE000 then ((a / 0x1000 + 1) * 0x1000, true)
  else if a < 0x10000 then (0x10000, false)
  else if a < 0x18000 then ((a / 0x400 + 1) * 0x400, true)
  else if a < 0x20000 then ((a / 0x200 + 1) * 0x200, true)
  else if a < 0x30000 then ((a / 0x400 + 1) * 0x400, true)
  else if a < 0x300000 then (0x300000, false)
  else if a < 0x380000 then (0x380000, true)
  else if a < 0x10000000 then (0x10000000, false)
  else if a < 0x10400000 then (0x10400000, true)
  else (2 ^ 32, false)

/-! ### Status (R356) -/

/-- The status byte of this moment. -/
def statusByte (s : State) : Byte :=
  BitVec.ofNat 8 ((hostReady s).toNat + ((rd s Reg.HOSTIF_BULK_STAT).toNat &&& 0x1E) + (irqOn s).toNat * 32)

/-- A bulk error counted (R383). -/
def bulkErr (s : State) : State := inc s Fld.HOSTIF_CNT_BULK_ERR

/-- A two-wire error counted (R383). -/
def twErr (s : State) : State := inc s Fld.HOSTIF_CNT_TW_ERR

/-- A truncation reported (R360). -/
def bulkOverrun (s : State) : State := reportCorrected (bulkErr (raise s Fld.HOSTIF_EVENT_OVERRUN)) 0x0904 (stampI s)

/-! ### The end of a bulk transaction (R359, R361) -/

/-- Bytes of data and CRC that a transaction has. -/
def bulkTotal (r : BulkRun) : Nat := r.len + (if r.crc then 2 else 0)

/-- HOSTIF_BULK_STAT of a transaction that ends, at its end or cut (R361, R383). -/
def bulkStat (r : BulkRun) (done : Bool) : Nat :=
  done.toNat + r.crcErr.toNat * 2 + r.overrun.toNat * 4 + r.tmo.toNat * 8 + r.partialWord.toNat * 16 + r.void.toNat * 32 +
    r.refused.toNat * 64 + min r.count 4096 * 256

/-- BCS_N rises, or the transaction has run to its end. -/
def bulkEnd (s : State) (r : BulkRun) (done : Bool) : State :=
  setHost (wr s Reg.HOSTIF_BULK_STAT (BitVec.ofNat 32 (bulkStat r done))) fun h => { h with bulk := none, bulkOut := r.out }

/-- What the host has clocked is done: the transaction ends, or stays open until BCS_N rises. A reset has closed it already (R380). -/
def bulkSettle (s : State) (r : BulkRun) : State :=
  if s.host.bulk.isNone then s
  else if bulkTotal r ≤ r.want then bulkEnd s r true
  else setHost s fun h => { h with bulk := some r, bulkOut := r.out }

/-! ### Bulk reads (R351, R353, R357 to R360) -/

/-- One byte sent. -/
def sendByte (r : BulkRun) (b : Byte) (counts : Bool) : BulkRun :=
  { r with
    out := r.out ++ [b]
    pos := r.pos + 1
    count := r.count + counts.toNat
    haveWord := r.haveWord && (r.addr + r.pos) % 4 != 3 }

/-- The byte of the word in transfer. -/
def sendWordByte (r : BulkRun) : BulkRun := sendByte r (wordByte r.word ((r.addr + r.pos) % 4)) (!r.filler)

/-- The bytes of a read that the host clocks, as far as no word must be waited for (R351, R357): where the port does not serve, no access is
made and the word waits (R349, R450). -/
def bulkReadGo : Nat → State → BulkRun → State × BulkRun
  | 0, s, r => (s, r)
  | n + 1, s, r =>
    if min r.want r.len ≤ r.pos then (s, r)
    else
      let a := r.addr + r.pos
      if r.void || r.refused then bulkReadGo n s (sendByte r 0 false)
      else if (regionEnd r.addr).1 ≤ a then
        bulkReadGo n (if r.overrun then s else bulkOverrun s) { sendByte r 0 false with overrun := true }
      else if !(regionEnd r.addr).2 then
        bulkReadGo n (if r.gapLogged then s else unassigned s) { sendByte r 0 true with gapLogged := true }
      else if r.haveWord then bulkReadGo n s (sendWordByte r)
      else
        match (if hostReady s then hostRead .bulk (a / 4 * 4) s else none) with
        | none => (s, { r with wait := some (r.wait.getD s.tick) })
        | some x => bulkReadGo n x.2 (sendWordByte { r with word := x.1, haveWord := true, filler := false, wait := none })

/-- The CRC that the device appends to a read (R359). -/
def readCrc (r : BulkRun) : List Byte :=
  if r.crc then (beBytes 2 (crc16 (r.header ++ r.out)).toNat).take (r.want - r.len) else []

/-- A read goes on until it waits or what the host clocks is sent. -/
def bulkRead (s : State) (r : BulkRun) : State :=
  let x := bulkReadGo (r.len + 1) s r
  if x.2.wait.isSome then setHost x.1 fun h => { h with bulk := some x.2, bulkOut := x.2.out }
  else bulkSettle x.1 (if r.len ≤ x.2.pos then { x.2 with out := x.2.out ++ readCrc x.2 } else x.2)

/-- A bulk read that waits is tried again (R357, R375). -/
def resumeBulk (s : State) : State :=
  match s.host.bulk with
  | some r => if r.wait.isSome && hostReady s then bulkRead s r else s
  | none => s

/-! ### Bulk writes (R350, R359, R360) -/

/-- The words of a write take effect (R359, R360): in a gap the transaction reports fault 0x0901 once. -/
def bulkLand (s : State) (r : BulkRun) (ws : List (Option (Nat × Word))) : State × BulkRun :=
  let n := 4 * wholeWords ws
  if (regionEnd r.addr).2 then (landWords ws s, { r with count := n })
  else (if r.gapLogged then s else unassigned s, { r with gapLogged := true, count := n })

/-- The check of a staged write (R359). -/
def bulkCommit (s : State) (r : BulkRun) (bs : List Byte) (ws : List (Option (Nat × Word))) : State × BulkRun :=
  if crc16 (r.header ++ bs) = BitVec.ofNat 16 r.check then bulkLand s r (ws.filter (·.isSome))
  else (reportCorrected (bulkErr (raise s Fld.HOSTIF_EVENT_CRC_ERR)) 0x0903 (stampI s), { r with crcErr := true })

/-- A write of which the host clocks `want` bytes of data and CRC. -/
def bulkWrite (s : State) (r : BulkRun) : State :=
  if r.void || r.refused then bulkSettle s r
  else
    let bs := r.sent.take (min r.want r.len)
    let room := (regionEnd r.addr).1 - r.addr
    let g := gather [] ((bs.take room).zipIdx.map fun x => (r.addr + x.2, x.1))
    let holes := g.1.length - wholeWords g.1
    let overrun := decide (room < bs.length)
    let x := if !r.crc then (if bs.isEmpty then (s, r) else bulkLand s r g.1)
      else if bulkTotal r ≤ r.want then bulkCommit s r bs g.1
      else (s, r)
    let s1 := if overrun && hostReady x.1 then bulkOverrun x.1 else x.1
    let told := if r.crc || !(regionEnd r.addr).2 then 0 else holes
    let s2 := (List.range (holes - told + g.2.toNat)).foldl (fun s _ => if hostReady s then partialWord s else s) s1
    bulkSettle s2 { x.2 with overrun := overrun, partialWord := g.2 || decide (0 < holes), pos := bs.length }

/-! ### The commands of R354 -/

/-- The six commands. -/
def bulkKnown (c : BitVec 8) : Bool := [0x10, 0x11, 0x20, 0x21, 0x05, 0x0C].contains c.toNat

/-- The bytes of CMD, ADDR and LEN, each field most significant byte first (R353). -/
def headBytes (h : BulkHead) : List Byte := beBytes 1 h.cmd.toNat ++ beBytes 4 h.addr.toNat ++ beBytes 2 h.len.toNat

/-- A transaction with a header, of which the host clocks `n` bytes from CMD on (R353, R354, R359): a CMD byte that is no command makes it
void when it has arrived, reserved bits of LEN when LEN is complete. -/
def bulkRun (s : State) (write : Bool) (h : BulkHead) (data : List Byte) (check n : Nat) : BulkRun :=
  let len := if getBits (h.len.setWidth 32) 0 12 = 0 then 4096 else getBits (h.len.setWidth 32) 0 12
  let crc := h.len.getLsbD 12
  let whole := decide (7 ≤ n)
  let void := decide (1 ≤ n) && !bulkKnown h.cmd || whole && (h.len.getLsbD 13 || h.len.getLsbD 14 || h.len.getLsbD 15)
  { write := write
    void := void
    refused := whole && !void && bit s Fld.HOSTIF_BULK_CFG_CRCREQ && !crc
    addr := h.addr.toNat
    len := len
    crc := crc
    header := headBytes h
    sent := (data ++ List.replicate (len - data.length) 0).take len
    check := check
    want := n - 7
    pos := 0
    word := 0
    haveWord := false
    filler := false
    out := []
    wait := none
    gapLogged := false
    overrun := false
    tmo := false
    crcErr := false
    partialWord := false
    count := 0 }

/-- The bulk port is powered, and no transaction is open (R349). -/
def bulkFree (s : State) : Bool :=
  s.host.bulk.isNone && (match devState s with | .off | .hibernate => false | _ => true)

/-- A transaction begins (R349, R353): where the port does not serve, it returns its status byte and makes no access. -/
def bulkBegin (s : State) (r : BulkRun) : State :=
  let s1 := setHost s fun h => { h with bulkStatus := statusByte s, bulkOut := [] }
  if !hostReady s then s1
  else
    let s2 := setHost (if r.void then raise s1 Fld.HOSTIF_EVENT_CMD_BAD else s1) fun h => { h with bulk := some r }
    if r.write then bulkWrite s2 r else bulkRead s2 r

/-- A transaction sent with the command byte `h.cmd` by the row of command `c`: a byte that is no command makes it void (R354); another
row's command is not this row's. -/
def bulkRow (c : Nat) (write : Bool) (h : BulkHead) (data : List Byte) (check n : Nat) (s : State) : State :=
  if bulkFree s && (h.cmd.toNat == c || !bulkKnown h.cmd) then bulkBegin s (bulkRun s write h data check n) else s

/-- BULK_WRITE (R354, R359). -/
def execBulkWrite (h : BulkHead) (data : List Byte) (check : BitVec 16) (n : Nat) (s : State) : Host.Outcome State Fault Refusal :=
  .next (bulkRow 0x10 true h data check.toNat n s)

/-- BULK_READ (R353, R354). -/
def execBulkRead (h : BulkHead) (n : Nat) (s : State) : Host.Outcome State Fault Refusal := .next (bulkRow 0x11 false h [] 0 n s)

/-- BULK_QWRITE (R354, R355): the same transaction on four lines. -/
def execBulkQwrite (h : BulkHead) (data : List Byte) (check : BitVec 16) (n : Nat) (s : State) : Host.Outcome State Fault Refusal :=
  .next (bulkRow 0x20 true h data check.toNat n s)

/-- BULK_QREAD (R354, R355). -/
def execBulkQread (h : BulkHead) (n : Nat) (s : State) : Host.Outcome State Fault Refusal := .next (bulkRow 0x21 false h [] 0 n s)

/-- BULK_STATUS (R354): the word of HOSTIF_BULK_STAT, or 0 where the port does not serve. -/
def execBulkStatus (s : State) : Host.Outcome State Fault Refusal :=
  if bulkFree s then
    let w := if hostReady s then (rd s Reg.HOSTIF_BULK_STAT).toNat else 0
    .next (setHost s fun h => { h with bulkStatus := statusByte s, bulkOut := leBytes 4 w })
  else .next s

/-- BULK_CLRSTAT (R354): bits [6:0] of HOSTIF_BULK_STAT are cleared. -/
def execBulkClrstat (s : State) : Host.Outcome State Fault Refusal :=
  if bulkFree s then
    let s1 := setHost s fun h => { h with bulkStatus := statusByte s, bulkOut := [] }
    .next (if hostReady s then wr s1 Reg.HOSTIF_BULK_STAT (setBits (rd s1 Reg.HOSTIF_BULK_STAT) 0 7 0) else s1)
  else .next s

/-- BULK_ABORT (R361): BCS_N rises before the transaction ends. -/
def execBulkAbort (s : State) : Host.Outcome State Fault Refusal :=
  match s.host.bulk with
  | none => .next s
  | some r => .next (bulkEnd s r false)

/-- Filler takes the place of the word at `a`: of a queue read that raises Q_FILL (R365, R375). -/
def fillerRead (s : State) (a : Nat) : State := if 0x20000 ≤ a ∧ a < 0x30000 then raise s Fld.HOSTIF_EVENT_Q_FILL else s

/-- BULK_WAIT_TIMEOUT (R358, R375): the wait for a word has lasted TMO × 10 µs; filler is sent in its place. -/
def execBulkWaitTimeout (s : State) : Host.Outcome State Fault Refusal :=
  match s.host.bulk with
  | none => .next s
  | some r =>
    match r.wait with
    | none => .next s
    | some t =>
      if s.tick < t + 10 * fget s Fld.HOSTIF_BULK_CFG_TMO then .next s
      else
        let s1 := fillerRead (raise (bulkErr s) Fld.HOSTIF_EVENT_BULK_TMO) (r.addr + r.pos)
        let s2 := reportCorrected s1 0x0905 (stampI s1)
        .next (bulkRead s2 { r with word := rd s2 Reg.HOSTIF_FILL, haveWord := true, filler := true, tmo := true, wait := none })

/-! ### The two-wire target (R362 to R367) -/

/-- The map byte that a pointer selects (R13). -/
def twMap (base p : Nat) : Nat := if p < 0xE000 then p else base + (p - 0xE000)

/-- The address byte of a transfer (R362): with its direction bit. -/
def twAddrByte (s : State) (read : Bool) : Byte := BitVec.ofNat 8 ((0x58 + fget s Fld.HOSTIF_STATUS_ADDR) * 2 + read.toNat)

/-- The window base in force at a START (R364). -/
def winBase (s : State) : Nat := fget s Fld.HOSTIF_WINBASE_BASE * 0x2000

/-- The pointer after a written byte: it wraps within its page of 64 bytes (R363). -/
def pageNext (p : Nat) : Nat := p / 64 * 64 + (p + 1) % 64

/-- The transfer in which the bytes of a write land still runs: the port serves, and a transfer that is `live` on the bus has not been
ended by a reset of the interface (R366). -/
def twRuns (live : Bool) (s : State) : Bool := hostReady s && !(live && s.host.tw.isNone)

/-- The data bytes of a write transfer land at the pointer one by one (R363): the byte 3 of a word writes it or discards it (R350). -/
def twStore (live : Bool) (base : Nat) : List Byte → List Byte → State → State
  | _, [], s => s
  | buf, b :: bs, s =>
    if !twRuns live s then s
    else
      let a := twMap base s.host.twPtr
      let w := wordSoFar buf a b
      let s1 := setHost s fun h => { h with twPtr := pageNext h.twPtr }
      if a % 4 = 3 then
        twStore live base [] bs (if w.length = 4 then hostWrite .twoWire (a - 3) (BitVec.ofNat 32 (ofLeBytes w)) s1 else partialWord s1)
      else twStore live base w bs s1

/-- A word is incomplete after these bytes of a write (R350). -/
def twOpenWord (s : State) (data : List Byte) : Bool := !data.isEmpty && s.host.twPtr % 4 != 0

/-- A packet error code that does not match (R367). -/
def pecError (s : State) : State := reportCorrected (twErr (raise s Fld.HOSTIF_EVENT_PEC_ERR)) 0x0907 (stampI s)

/-- A write transfer with PEC that ends with STOP (R367): the last byte is the code; a transfer of more than 64 data bytes writes nothing. -/
def twPecWrite (s : State) (bytes : List Byte) : State :=
  let body := bytes.dropLast
  let s1 := match body with
    | hi :: lo :: _ => setHost s fun h => { h with twPtr := hi.toNat * 256 + lo.toNat }
    | _ => s
  let data := body.drop 2
  if bytes.isEmpty || 64 < data.length then s1
  else if crc8Pec (twAddrByte s false :: body) = bytes.getLastD 0 then
    let s2 := twStore false (winBase s) [] data s1
    if hostReady s2 && twOpenWord s2 data then partialWord s2 else s2
  else pecError s1

/-- A write transfer runs (R363); `cut` says that an incomplete word has arrived (R350). -/
def twHold (s : State) (cut : Bool) : State :=
  setHost s fun h => { h with tw := some ⟨true, cut, 0, 0, 0, false, false, [], [], none⟩ }

/-- A write transfer without PEC (R363): its bytes land as they come. At STOP, and where the port serves no more, it has ended; a transfer
that a reset of the interface has ended stays so (R366). -/
def twPlainWrite (s : State) (hi lo : Byte) (data : List Byte) (stop : Bool) : State :=
  let s1 := twStore true (winBase s) [] data (setHost (twHold s false) fun h => { h with twPtr := hi.toNat * 256 + lo.toNat })
  if s1.host.tw.isNone then s1
  else if !hostReady s1 then setHost s1 fun h => { h with tw := none }
  else if !stop then twHold s1 (twOpenWord s1 data)
  else
    let s2 := setHost s1 fun h => { h with tw := none }
    if twOpenWord s1 data then partialWord s2 else s2

/-- The staged data of a write with PEC leave a word incomplete (R350, R366): every byte after the pointer is data until a STOP comes, and
the 65th is not taken (R367; DEDUCED: log entry 69). -/
def twPecOpen : List Byte → Bool
  | hi :: lo :: data =>
    let p := hi.toNat * 256 + lo.toNat
    !data.isEmpty && (p / 64 * 64 + (p + min data.length 64) % 64) % 4 != 0
  | _ => false

/-- TW_WRITE (R363, R367): the bytes after the address byte; without `stop` SCL is held low after the last of them. -/
def execTwWrite (bytes : List Byte) (stop : Bool) (s : State) : Host.Outcome State Fault Refusal :=
  if !hostReady s || s.host.tw.isSome then .next s
  else if bit s Fld.HOSTIF_TW_CFG_PEC then .next (if stop then twPecWrite s bytes else twHold s (twPecOpen bytes))
  else
    match bytes with
    | hi :: lo :: data => .next (twPlainWrite s hi lo data stop)
    | _ => .next (if stop then s else twHold s false)

/-- PECLEN of a read (R367, R383). -/
def pecLen (s : State) : Nat := if fget s Fld.HOSTIF_TW_CFG_PECLEN = 0 then 64 else fget s Fld.HOSTIF_TW_CFG_PECLEN

/-- A byte of a read transfer that is no data byte: the code after the data, then 0xFF (R367). -/
def pecByte (s : State) (r : TwRun) : Byte := if r.out.length = pecLen s then crc8Pec r.bytes else 0xFF

/-- A data byte sent: the pointer goes on across pages, and stops at 0xFFFF (R364). -/
def twSend (s : State) (r : TwRun) (b : Byte) : State × TwRun :=
  let p := s.host.twPtr
  (setHost s fun h => { h with twPtr := min (p + 1) 0xFFFF },
    { r with
      left := r.left - 1
      out := r.out ++ [b]
      bytes := r.bytes ++ [b]
      past := r.past || p == 0xFFFF
      haveWord := r.haveWord && twMap r.base p % 4 != 3 })

/-- The bytes of a read that the controller clocks, as far as no word must be waited for (R351, R364, R365); where the port does not serve,
no access is made and the word waits (R450). -/
def twGo : Nat → State → TwRun → State × TwRun
  | 0, s, r => (s, r)
  | n + 1, s, r =>
    if r.left = 0 then (s, r)
    else if bit s Fld.HOSTIF_TW_CFG_PEC && decide (pecLen s ≤ r.out.length) then
      twGo n s { r with left := r.left - 1, out := r.out ++ [pecByte s r] }
    else if r.past then
      twGo n (raise s Fld.HOSTIF_EVENT_OVERRUN) { r with left := r.left - 1, out := r.out ++ [0], bytes := r.bytes ++ [0] }
    else
      let a := twMap r.base s.host.twPtr
      if r.haveWord then
        let x := twSend s r (wordByte r.word (a % 4))
        twGo n x.1 x.2
      else
        match (if hostReady s then hostRead .twoWire (a / 4 * 4) s else none) with
        | none => (s, { r with wait := some (r.wait.getD s.tick) })
        | some y =>
          let x := twSend y.2 { r with word := y.1, haveWord := true, wait := none } (wordByte y.1 (a % 4))
          twGo n x.1 x.2

/-- A read transfer goes on until it waits or ends. -/
def twRead (s : State) (r : TwRun) : State :=
  let x := twGo (r.left + 1) s r
  setHost x.1 fun h => { h with tw := if x.2.wait.isSome then some x.2 else none, twOut := x.2.out }

/-- A two-wire read that waits is tried again (R365, R375). -/
def resumeTw (s : State) : State :=
  match s.host.tw with
  | some r => if r.wait.isSome && hostReady s then twRead s r else s
  | none => s

/-- TW_READ (R364, R367): `n` bytes from the pointer, after a write of the pointer in the same transfer where there is one. -/
def execTwRead (ptr : Option (BitVec 16)) (n : Nat) (s : State) : Host.Outcome State Fault Refusal :=
  if !hostReady s || s.host.tw.isSome then .next s
  else
    let pre : List Byte := match ptr with
      | some p => twAddrByte s false :: beBytes 2 p.toNat
      | none => []
    let s1 := match ptr with
      | some p => setHost s fun h => { h with twPtr := p.toNat }
      | none => s
    let r : TwRun := ⟨false, false, n, winBase s, 0, false, false, [], pre ++ [twAddrByte s true], none⟩
    .next (twRead (setHost s1 fun h => { h with tw := some r }) r)

/-- TW_STRETCH_TIMEOUT (R365, R375): the stretch has lasted STRETCH × 40 µs; filler is sent in place of the word. -/
def execTwStretchTimeout (s : State) : Host.Outcome State Fault Refusal :=
  match s.host.tw with
  | none => .next s
  | some r =>
    match r.wait with
    | none => .next s
    | some t =>
      if s.tick < t + 40 * fget s Fld.HOSTIF_TW_CFG_STRETCH then .next s
      else
        .next (twRead (fillerRead s (twMap r.base s.host.twPtr)) { r with word := rd s Reg.HOSTIF_FILL, haveWord := true, wait := none })

/-- The device is stretching SCL (R365, R381). -/
def stretching (s : State) : Bool := match s.host.tw with | some r => r.wait.isSome | none => false

/-- TW_SMB_TIMEOUT (R366, R381): SCL has been low for 32 ms. -/
def execTwSmbTimeout (s : State) : Host.Outcome State Fault Refusal :=
  if hostReady s && bit s Fld.HOSTIF_TW_CFG_SMBTO && !stretching s then
    let s1 := raise (twErr (twReset s)) Fld.HOSTIF_EVENT_SMB_TMO
    .next (reportCorrected s1 0x0908 (stampI s1))
  else .next s

/-- QUEUE_ENTRY_VISIBLE (R372, R352, R375): a written entry becomes visible; the bulk port, then the two-wire port, then the application
core takes it if it waits for it. -/
def execQueueEntryVisible (q : Fin 64) (s : State) : Host.Outcome State Fault Refusal :=
  .next (resumeCore (resumeTw (resumeBulk (showEntry q s))))

/-! ### The two-wire controller (R369, R370) -/

/-- A controller transfer ends without success (R369, R370, R383). -/
def twcFail (s : State) : State :=
  twErr (raise (setHost (fput s Fld.HOSTIF_TWC_STAT_BUSY 0) fun h => { h with twcOn := false }) Fld.HOSTIF_EVENT_TWC_FAIL)

/-- Arbitration is lost (R370): the transfer starts again when the bus is free, up to RETRY times. -/
def twcLost (s : State) (asTarget : Bool) : State :=
  let s1 := if asTarget then fput s Fld.HOSTIF_TWC_STAT_AS_TARGET 1 else s
  if fget s1 Fld.HOSTIF_TWC_STAT_TRIES < fget s1 Fld.HOSTIF_TWC_CTRL_RETRY then inc s1 Fld.HOSTIF_TWC_STAT_TRIES
  else
    let s2 := twcFail (fput s1 Fld.HOSTIF_TWC_STAT_ARB_LOST 1)
    reportCorrected s2 0x0909 (stampI s2)

/-- The bytes of HOSTIF_TWC_BUF. -/
def twcBuf (s : State) : List Byte := regBytes s (Reg.HOSTIF_TWC_BUF 0) 8

/-- What the controller sends in a transfer in which every byte is acknowledged (R369): TADDR with write and WLEN bytes, the packet error
code after a write that no read follows (log entry 79), TADDR with read. -/
def twcFrame (s : State) : List Byte :=
  let a := fget s Fld.HOSTIF_TWC_CTRL_TADDR
  let w := fget s Fld.HOSTIF_TWC_CTRL_WLEN
  let wr := if w = 0 then [] else BitVec.ofNat 8 (2 * a) :: (twcBuf s).take w
  if fget s Fld.HOSTIF_TWC_CTRL_RLEN != 0 then wr ++ [BitVec.ofNat 8 (2 * a + 1)]
  else if bit s Fld.HOSTIF_TWC_CTRL_PEC then wr ++ [crc8Pec wr] else wr

/-- TWC_START (R370): after a STOP and the bus-free time the transfer starts; `lost` says that it loses arbitration, and whether to a
transfer addressed to this device. -/
def execTwcStart (lost : Option Bool) (s : State) : Host.Outcome State Fault Refusal :=
  if bit s Fld.HOSTIF_TWC_STAT_BUSY && !s.host.twcOn && s.host.tw.isNone then
    match lost with
    | none => .next (setHost s fun h => { h with twcOn := true, twcSent := twcFrame s })
    | some t => .next (twcLost s t)
  else .next s

/-- The end of a transfer that every byte was acknowledged in (R369): a read whose code does not match is a failure (DESIGN CHOICE: log
entry 79). -/
def twcOk (s : State) (data : List Byte) (code : Byte) : State :=
  let r := fget s Fld.HOSTIF_TWC_CTRL_RLEN
  let d := (data ++ List.replicate (r - data.length) 0xFF).take r
  let s1 := fput (putRegBytes s (Reg.HOSTIF_TWC_BUF 0) (bytesPut (twcBuf s) 0 d)) Fld.HOSTIF_TWC_STAT_RCOUNT r
  if r != 0 && bit s Fld.HOSTIF_TWC_CTRL_PEC && crc8Pec (s.host.twcSent ++ d) != code then
    let s2 := raise (twcFail (fput s1 Fld.HOSTIF_TWC_STAT_PEC_ERR 1)) Fld.HOSTIF_EVENT_PEC_ERR
    reportCorrected s2 0x0907 (stampI s2)
  else
    let s2 := fput (fput s1 Fld.HOSTIF_TWC_STAT_BUSY 0) Fld.HOSTIF_TWC_STAT_OK 1
    raise (setHost s2 fun h => { h with twcOn := false }) Fld.HOSTIF_EVENT_TWC_DONE

/-- TWC_DONE (R369): the transfer ends, after its last byte or by a NACK of the last of the `k` bytes sent; `data` and `code` are what the
target sent. -/
def execTwcDone (nack : Option Nat) (data : List Byte) (code : Byte) (s : State) : Host.Outcome State Fault Refusal :=
  if !s.host.twcOn then .next s
  else
    match nack with
    | some k => .next (twcFail (setHost (fput s Fld.HOSTIF_TWC_STAT_NACK 1) fun h => { h with twcSent := h.twcSent.take k }))
    | none => .next (twcOk s data code)

end Sys2Proof.Machine
end

