-- ==== Sys2Proof/Machine/HarnCmd.lean ====
section
/-! DEFINITION. Sys2Proof/Machine/HarnCmd.lean: CMD and IMG frames (R342, R344), attestation reports (R442, R443) and the end of a
host-service pause (R403, R450). -/

namespace Sys2Proof.Machine

/-! ### The payload of a CMD (R342) -/

/-- OP, COUNT, TAG and the address of a CMD. -/
def cmdOp (f : Frame) : Nat := getBits (payWord f 0) 0 8
def cmdCount (f : Frame) : Nat := getBits (payWord f 0) 8 8
def cmdTag (f : Frame) : Nat := getBits (payWord f 0) 16 16
def cmdAddr (f : Frame) : Nat := (payWord f 1).toNat

/-- READ or WRITE runs beyond the region of its address (R25, R360). -/
def cmdNoRoom (f : Frame) : Bool :=
  (cmdOp f == 1 || cmdOp f == 2) && decide ((regionEnd (cmdAddr f)).1 < cmdAddr f + 4 * cmdCount f)

/-- The payload of a READ or WRITE is well formed (R342). -/
def cmdWordsOk (f : Frame) : Bool :=
  decide (1 ≤ cmdCount f) && decide (cmdCount f ≤ 253) && cmdAddr f % 4 == 0 &&
    f.payload.length == (if cmdOp f = 1 then 2 else 2 + cmdCount f)

/-! ### Accesses and whether they were served (R342) -/

/-- The map word at `a` is assigned to a reader on the Harness (R11, R374, R524). -/
def readServed (s : State) (a : Nat) : Bool :=
  if 0x20000 ≤ a ∧ a < 0x30000 then mayPop s .harness ((a - 0x20000) / 0x400)
  else if a < 0x20000 then imageOnly a || (regRow? a).isSome
  else (regionEnd a).2

/-- A write of a register is not refused (R16, R86, R401). -/
def regTakes (s : State) (r : RegRow) (a : Nat) : Bool :=
  !plainRefused s r && !(a == Reg.FAULT_HWD_TOKKEY && hwdLocked s) &&
    !(decide (0x18000 ≤ a) && decide (0x100 ≤ a % 0x200) && swapPending s ((a - 0x18000) / 0x200))

/-- A write of the map word at `a` is neither refused nor to an unassigned address (R11, R12, R16, R374). -/
def writeServed (s : State) (a : Nat) : Bool :=
  if a < 0x20000 then imageOnly a || (match regRow? a with | some r => regTakes s r a | none => false)
  else decide (0x300000 ≤ a) && decide (a < 0x380000) && engineOpen s (a - 0x300000)

/-- A read by a CMD; an empty queue gives a free value (DESIGN CHOICE: log entry 80: R375 names no behaviour for this reader). -/
def cmdReadWord (a : Nat) (s : State) : Word × State :=
  match hostRead .harness a s with
  | some x => x
  | none => (Config.freeWord s.free, { s with free := s.free + 1 })

/-- The words of a READ: the state after them, the data, and whether any was not served. -/
def cmdReadWords (s : State) (a n : Nat) : State × List Word × Bool :=
  (List.range n).foldl (fun x k =>
    let w := cmdReadWord (a + 4 * k) x.1
    (w.2, x.2.1 ++ [w.1], x.2.2 || !readServed x.1 (a + 4 * k))) (s, [], false)

/-- The words of a WRITE: the state after them, and whether any was not served. -/
def cmdWriteWords (s : State) (a : Nat) (ws : List Word) : State × Bool :=
  ws.zipIdx.foldl (fun x w =>
    (hostWrite .harness (a + 4 * w.2) w.1 x.1, x.2 || !writeServed x.1 (a + 4 * w.2))) (s, false)

/-! ### Execution of a CMD -/

/-- The RSP to a CMD; a broadcast is answered by none (R342). -/
def answerCmd (s : State) (f : Frame) (status count tag : Nat) (data : List Word) : State :=
  if f.dest = 0xFFFF then s else sendRsp s f status count tag data

/-- A READ; any reserved OP is malformed (R321, R342). -/
def runRead (s : State) (f : Frame) : State :=
  if cmdOp f ≠ 1 ∨ !cmdWordsOk f then sendNak s 0x03 f
  else
    let r := cmdReadWords s (cmdAddr f) (cmdCount f)
    answerCmd r.1 f r.2.2.toNat (cmdCount f) (cmdTag f) r.2.1

/-- A WRITE that came by port `p` (R342): a cut that it asks for acts now, but on the port it came by once its RSP has been sent (R490). -/
def runWrite (p : HPort) (s : State) (f : Frame) : State :=
  if !cmdWordsOk f then sendNak s 0x03 f
  else if !bit s Fld.HARNESS_CFG_CMDWR then sendNak s 0x05 f
  else
    let r := cmdWriteWords s (cmdAddr f) (f.payload.drop 2)
    let s1 := answerCmd r.1 f r.2.toNat (cmdCount f) (cmdTag f) []
    dueCut (applyCut (allPorts.filter fun q => q != p && s1.test.cutPend.get q.idx && !s.test.cutPend.get q.idx) s1)

/-- A REPORT (R442): a broadcast is ignored. -/
def runReport (s : State) (f : Frame) : State :=
  if f.dest = 0xFFFF then s
  else if cmdCount f ≠ 0 ∨ f.payload.length ≠ 9 then sendNak s 0x03 f
  else if s.trust.report.isSome then answerCmd s f 0x03 0 (cmdTag f) []
  else
    let nonce := (f.payload.drop 1).flatMap fun w => leBytes 4 w.toNat
    answerCmd (requestReport s nonce (some (f.src, cmdTag f, f.seq))) f 0x02 0 (cmdTag f) []

/-- The payload of an ACTIVATE is well formed (R447). -/
def activateOk (f : Frame) : Bool :=
  f.payload.length == 6 && (payWord f 1 == 1 || payWord f 1 == 2) && getBits (payWord f 3) 8 24 == 0

/-- An ACTIVATE (R447). -/
def runActivate (s : State) (f : Frame) : State :=
  if !activateOk f then sendNak s 0x03 f
  else
    let c := (payWord f 2).toNat + getBits (payWord f 3) 0 8 * 2 ^ 32
    let r := requestActivation s (payWord f 1 == 1) c ((payWord f 4).toNat + (payWord f 5).toNat * 2 ^ 32)
    answerCmd r.1 f r.2.isSome.toNat (cmdCount f) (cmdTag f) [BitVec.ofNat 32 (r.2.getD 0)]

/-- A CMD by its OP, which came by port `p`. -/
def runCmd (p : HPort) (s : State) (f : Frame) : State :=
  match cmdOp f with
  | 2 => runWrite p s f
  | 3 => runReport s f
  | 4 => runActivate s f
  | _ => runRead s f

/-- A consumed CMD is executed, or waits for the end of a host-service pause (R342, R450); where no firmware serves it, it is dropped and
counted (DESIGN CHOICE: log entry 82). -/
def serveCmd (p : HPort) (s : State) (f : Frame) : State :=
  if !stateRuns (devState s) || inRecovery s then inc s (Fld.HARNESS_PCNT_DROP_CNT p.idx)
  else if s.trust.pause.isSome then setHarn s fun h => { h with held := h.held ++ [(p, f)] }
  else runCmd p s f

/-- A CMD frame of the row that `mine` names: judged in the order of R321, with its length before its role (R25). -/
def cmdFrame (s : State) (p : HPort) (x : RxFrame) (mine : Nat → Bool) : State :=
  if x.frame.typ == 1 && (routeOf s p x.frame).here && mine (cmdOp x.frame) then
    match judgeFrame s p onTime x with
    | .done t => t
    | .consume t =>
      if cmdNoRoom x.frame then sendNak t 0x02 x.frame
      else
        match roleRefused t x.frame with
        | some u => u
        | none => serveCmd p t x.frame
  else s

/-- CMD_READ (R342): it also takes a CMD with a reserved OP. -/
def execCmdRead (p : HPort) (f : RxFrame) (s : State) : Host.Outcome State Fault Refusal :=
  .next (cmdFrame s p f fun o => o != 2 && o != 3 && o != 4)

/-- CMD_WRITE (R342). -/
def execCmdWrite (p : HPort) (f : RxFrame) (s : State) : Host.Outcome State Fault Refusal := .next (cmdFrame s p f (· == 2))

/-- CMD_REPORT (R442). -/
def execCmdReport (p : HPort) (f : RxFrame) (s : State) : Host.Outcome State Fault Refusal := .next (cmdFrame s p f (· == 3))

/-- CMD_ACTIVATE (R447). -/
def execCmdActivate (p : HPort) (f : RxFrame) (s : State) : Host.Outcome State Fault Refusal := .next (cmdFrame s p f (· == 4))

/-! ### IMG (R344, R444) -/

/-- An IMG frame for this device: judged as a piece, then forwarded unless its row drops it (R444). Where nothing serves staging it is
forwarded only (DESIGN CHOICE: log entry 82). -/
def takeImg (p : HPort) (s : State) (f : Frame) : State :=
  if !hostReady s || inRecovery s then forward s p onTime f
  else if f.payload.length < 3 then forward (sendNak s 0x03 f) p onTime f
  else
    let d := (f.payload.drop 2).flatMap fun w => leBytes 4 w.toNat
    let r := judgePiece s (payWord f 0).toNat (payWord f 1).toNat d
    let s1 := match r.2.nak with | some c => sendNak r.1 c f | none => r.1
    if r.2.forward then forward s1 p onTime f else s1

/-- The data of an IMG do not fit the staged slot or its buffer: a row of R444 that is answered NO_ROOM (R25, R321 order 4). -/
def imgNoRoom (s : State) (f : Frame) : Bool :=
  hostReady s && !inRecovery s && decide (3 ≤ f.payload.length) &&
    (let r := pieceRow s (payWord f 0).toNat (payWord f 1).toNat ((f.payload.drop 2).flatMap fun w => leBytes 4 w.toNat)
     r == 3 || r == 10)

/-- IMG_FRAME (R321, R344): stored whole before it goes on; its room is judged before its role and epoch. -/
def execImgFrame (p : HPort) (f : RxFrame) (s : State) : Host.Outcome State Fault Refusal :=
  if f.frame.typ = 5 then
    match judgeFrame s p onTime f with
    | .done t => .next t
    | .consume t =>
      match (if imgNoRoom t f.frame then none else roleRefused t f.frame) with
      | some u => .next (forward u p onTime f.frame)
      | none => .next (takeImg p t f.frame)
  else .next s

/-! ### Reports (R442, R443) -/

/-- REPORT_DONE (R442, R443): the report is formed, signed, and delivered where it was asked for. -/
def execReportDone (s : State) : Host.Outcome State Fault Refusal :=
  match s.trust.report with
  | none => .next s
  | some r =>
    if s.trust.pause.isSome then .next s
    else
      let x := formReport s r.nonce
      let s1 := fput (setTrust x.2 fun t => { t with report := none }) Fld.TRUST_STATUS_RPT_BUSY 0
      match r.answer with
      | none => .next (raise (setTrust s1 fun t => { t with reportOut := x.1 }) Fld.TRUST_EVENT_RPT_DONE)
      | some (dest, tag, seq) =>
        .next (sendOwn s1 3 ⟨dest, ownAddr s1, 2, ownEpoch s1, 0xFF, seq, 0,
          BitVec.ofNat 32 (tag * 2 ^ 16) :: (List.range 88).map (listWord x.1)⟩)

/-! ### The end of a host-service pause (R403, R450) -/

/-- The host watchdog's reference moves forward by the length of the pause (R450). -/
def moveReference (s : State) (from_ : Nat) : State :=
  setFlt s fun f => { f with hwdRef := f.hwdRef + (s.tick - from_) }

/-- The RSP frames that waited leave, and the CMD frames that waited are executed in order (R342, R450). -/
def runHeld (s : State) : State :=
  let s1 := s.harn.heldRsp.foldl (fun s f => sendOwn s 3 f) (setHarn s fun h => { h with heldRsp := [] })
  s.harn.held.foldl (fun s x => serveCmd x.1 s x.2) (setHarn s1 fun h => { h with held := [] })

/-- FW_PAUSE_END (R403, R404, R450): host service resumes; a firmware activation has its outcome, and a restarted firmware its first good
service; core SRAM is rewritten by the restart (DESIGN CHOICE: log entry 181). -/
def execFwPauseEnd (s : State) : Host.Outcome State Fault Refusal :=
  match s.trust.pause with
  | none => .next s
  | some (t, act) =>
    let s1 := moveReference (if act then finishFirmware s else s) t
    let s2 := setFlt (setTrust s1 fun x => { x with pause := none }) fun f => { f with fwdBad := false }
    let s3 := { s2 with test := { s2.test with badCore := s2.test.badCore.map fun e => (e.1, true) } }
    .next (resumeTw (resumeBulk (runHeld s3)))

end Sys2Proof.Machine
end

