-- ==== Sys2Proof/Machine/Dispatch.lean ====
section
/-! DEFINITION. Sys2Proof/Machine/Dispatch.lean: the effect of a command, one arm per constructor of Instr. -/

namespace Sys2Proof.Machine

/-- The effect of a command on everything but the queue. -/
def exec (i : Instr) (s : State) : Host.Outcome State Fault Refusal :=
  match i with
  | .roundBoundary clkKHz pllLocked => Sys2Proof.Machine.execRoundBoundary clkKHz pllLocked s
  | .cycleBoundary => Sys2Proof.Machine.execCycleBoundary s
  | .angleWrap => Sys2Proof.Machine.execAngleWrap s
  | .holdExpire => Sys2Proof.Machine.execHoldExpire s
  | .mainsQualified => Sys2Proof.Machine.execMainsQualified s
  | .mainsSample a b c n fret => Sys2Proof.Machine.execMainsSample a b c n fret s
  | .mainsSampleReady => Sys2Proof.Machine.execMainsSampleReady s
  | .tuningMiss => Sys2Proof.Machine.execTuningMiss s
  | .xtalFail => Sys2Proof.Machine.execXtalFail s
  | .lfxtalFail => Sys2Proof.Machine.execLfxtalFail s
  | .timeFleetWrite v => Sys2Proof.Machine.execTimeFleetWrite v s
  | .fleetAngleApply => Sys2Proof.Machine.execFleetAngleApply s
  | .tsLoCapture path addr => Sys2Proof.Machine.execTsLoCapture path addr s
  | .replicaRefresh => Sys2Proof.Machine.execReplicaRefresh s
  | .nop l fret => Sys2Proof.Machine.execNop l fret s
  | .sample l fret => Sys2Proof.Machine.execSample l fret s
  | .adcConvDone p c1 c2 => Sys2Proof.Machine.execAdcConvDone p c1 c2 s
  | .read l fret => Sys2Proof.Machine.execRead l fret s
  | .meas l fret => Sys2Proof.Machine.execMeas l fret s
  | .passE l fret => Sys2Proof.Machine.execPassE l fret s
  | .passP l fret => Sys2Proof.Machine.execPassP l fret s
  | .passI l fret => Sys2Proof.Machine.execPassI l fret s
  | .passD l fret => Sys2Proof.Machine.execPassD l fret s
  | .passSum l fret => Sys2Proof.Machine.execPassSum l fret s
  | .region l fret => Sys2Proof.Machine.execRegion l fret s
  | .commit l fret => Sys2Proof.Machine.execCommit l fret s
  | .thresh l fret => Sys2Proof.Machine.execThresh l fret s
  | .target l fret => Sys2Proof.Machine.execTarget l fret s
  | .pll l fret => Sys2Proof.Machine.execPll l fret s
  | .capoTerm l fret => Sys2Proof.Machine.execCapoTerm l fret s
  | .capoPower l fret => Sys2Proof.Machine.execCapoPower l fret s
  | .capoCap l fret => Sys2Proof.Machine.execCapoCap l fret s
  | .capoAlloc l fret => Sys2Proof.Machine.execCapoAlloc l fret s
  | .capoWrite l fret => Sys2Proof.Machine.execCapoWrite l fret s
  | .capoCtrim l fret => Sys2Proof.Machine.execCapoCtrim l fret s
  | .capoHoldup l fret => Sys2Proof.Machine.execCapoHoldup l fret s
  | .shareAcc l fret => Sys2Proof.Machine.execShareAcc l fret s
  | .sharePtrim l fret => Sys2Proof.Machine.execSharePtrim l fret s
  | .shareApply l fret => Sys2Proof.Machine.execShareApply l fret s
  | .qpush l fret => Sys2Proof.Machine.execQpush l fret s
  | .engineStart => Sys2Proof.Machine.execEngineStart s
  | .engineMemWrite addr v => Sys2Proof.Machine.execEngineMemWrite addr v s
  | .schedSwapGo => Sys2Proof.Machine.execSchedSwapGo s
  | .bankExchange => Sys2Proof.Machine.execBankExchange s
  | .schedVsel v => Sys2Proof.Machine.execSchedVsel v s
  | .variantSwitch => Sys2Proof.Machine.execVariantSwitch s
  | .qdropClr => Sys2Proof.Machine.execQdropClr s
  | .loopShadowWrite n w v => Sys2Proof.Machine.execLoopShadowWrite n w v s
  | .carrierStart p t => Sys2Proof.Machine.execCarrierStart p t s
  | .updatePoint p t => Sys2Proof.Machine.execUpdatePoint p t s
  | .pwmEdge p g => Sys2Proof.Machine.execPwmEdge p g s
  | .deadTimeTurnOn p g => Sys2Proof.Machine.execDeadTimeTurnOn p g s
  | .enSettleEnd p fret => Sys2Proof.Machine.execEnSettleEnd p fret s
  | .drvFltInput p level fret => Sys2Proof.Machine.execDrvFltInput p level fret s
  | .driverFault p fret => Sys2Proof.Machine.execDriverFault p fret s
  | .portCntClr p => Sys2Proof.Machine.execPortCntClr p s
  | .cmpCrossing p c vp vn fret => Sys2Proof.Machine.execCmpCrossing p c vp vn fret s
  | .cmpLatchSet p c hiSide fret => Sys2Proof.Machine.execCmpLatchSet p c hiSide fret s
  | .cmpBlankEnd p c fret => Sys2Proof.Machine.execCmpBlankEnd p c fret s
  | .cmpLatchWrite p c v => Sys2Proof.Machine.execCmpLatchWrite p c v s
  | .cmpLatchClearApply p c => Sys2Proof.Machine.execCmpLatchClearApply p c s
  | .cmpThrWrite p c v => Sys2Proof.Machine.execCmpThrWrite p c v s
  | .cmpThrShadowApply p c => Sys2Proof.Machine.execCmpThrShadowApply p c s
  | .cmpCntClr p c => Sys2Proof.Machine.execCmpCntClr p c s
  | .kaTick volts => Sys2Proof.Machine.execKaTick volts s
  | .kaLatchSet k => Sys2Proof.Machine.execKaLatchSet k s
  | .kaLatchClear v => Sys2Proof.Machine.execKaLatchClear v s
  | .loopModeWrite n v => Sys2Proof.Machine.execLoopModeWrite n v s
  | .loopUmanWrite n v => Sys2Proof.Machine.execLoopUmanWrite n v s
  | .loopModeApply n => Sys2Proof.Machine.execLoopModeApply n s
  | .loopCntClr n => Sys2Proof.Machine.execLoopCntClr n s
  | .inputLossBegin fret => Sys2Proof.Machine.execInputLossBegin fret s
  | .inputLossEnd => Sys2Proof.Machine.execInputLossEnd s
  | .holdupSwitch => Sys2Proof.Machine.execHoldupSwitch s
  | .holdupReturn => Sys2Proof.Machine.execHoldupReturn s
  | .halfCycleBoundary second => Sys2Proof.Machine.execHalfCycleBoundary second s
  | .budgetDecreaseApply => Sys2Proof.Machine.execBudgetDecreaseApply s
  | .budgetStale => Sys2Proof.Machine.execBudgetStale s
  | .budgetEmit => Sys2Proof.Machine.execBudgetEmit s
  | .trimClr => Sys2Proof.Machine.execTrimClr s
  | .trimClrApply => Sys2Proof.Machine.execTrimClrApply s
  | .capoCntClr => Sys2Proof.Machine.execCapoCntClr s
  | .btxCommit => Sys2Proof.Machine.execBtxCommit s
  | .hostcapWrite v => Sys2Proof.Machine.execHostcapWrite v s
  | .hostcapApply => Sys2Proof.Machine.execHostcapApply s
  | .feedCmdWrite v => Sys2Proof.Machine.execFeedCmdWrite v s
  | .feedVsWindowChange f vs held => Sys2Proof.Machine.execFeedVsWindowChange f vs held s
  | .feedInsdlyExpire f => Sys2Proof.Machine.execFeedInsdlyExpire f s
  | .feedRatioHeld x => Sys2Proof.Machine.execFeedRatioHeld x s
  | .feedPovlExpire f => Sys2Proof.Machine.execFeedPovlExpire f s
  | .feedPctoExpire f => Sys2Proof.Machine.execFeedPctoExpire f s
  | .feedOcTrip x => Sys2Proof.Machine.execFeedOcTrip x s
  | .feedRetryExpire f => Sys2Proof.Machine.execFeedRetryExpire f s
  | .feedRholdExpire f => Sys2Proof.Machine.execFeedRholdExpire f s
  | .feedRevBlock x => Sys2Proof.Machine.execFeedRevBlock x s
  | .feedFwdUnblock x => Sys2Proof.Machine.execFeedFwdUnblock x s
  | .feedDischargeEnd f => Sys2Proof.Machine.execFeedDischargeEnd f s
  | .feedShortCheckResume f => Sys2Proof.Machine.execFeedShortCheckResume f s
  | .feedShortDetect x => Sys2Proof.Machine.execFeedShortDetect x s
  | .feedMonitorConv f j v => Sys2Proof.Machine.execFeedMonitorConv f j v s
  | .feedCntClr f => Sys2Proof.Machine.execFeedCntClr f s
  | .seqUp v => Sys2Proof.Machine.execSeqUp v s
  | .seqDown v => Sys2Proof.Machine.execSeqDown v s
  | .seqDwellEnd => Sys2Proof.Machine.execSeqDwellEnd s
  | .seqDlyExpire r => Sys2Proof.Machine.execSeqDlyExpire r s
  | .seqRailGood x => Sys2Proof.Machine.execSeqRailGood x s
  | .seqRiseTimeout r => Sys2Proof.Machine.execSeqRiseTimeout r s
  | .seqRailOver x => Sys2Proof.Machine.execSeqRailOver x s
  | .seqDndlyExpire r => Sys2Proof.Machine.execSeqDndlyExpire r s
  | .seqRailFallen x => Sys2Proof.Machine.execSeqRailFallen x s
  | .seqFallTimeout r => Sys2Proof.Machine.execSeqFallTimeout r s
  | .seqRailCollapse r x => Sys2Proof.Machine.execSeqRailCollapse r x s
  | .seqCntClr => Sys2Proof.Machine.execSeqCntClr s
  | .battConvDone b code => Sys2Proof.Machine.execBattConvDone b code s
  | .battStep b => Sys2Proof.Machine.execBattStep b s
  | .battRestPoint b => Sys2Proof.Machine.execBattRestPoint b s
  | .battUnanchored b => Sys2Proof.Machine.execBattUnanchored b s
  | .battDisagree b => Sys2Proof.Machine.execBattDisagree b s
  | .battSnap b => Sys2Proof.Machine.execBattSnap b s
  | .battSavepExpire b => Sys2Proof.Machine.execBattSavepExpire b s
  | .battRestore b => Sys2Proof.Machine.execBattRestore b s
  | .hkRoundStart codes => Sys2Proof.Machine.execHkRoundStart codes s
  | .hkEvaluate => Sys2Proof.Machine.execHkEvaluate s
  | .hkPublish => Sys2Proof.Machine.execHkPublish s
  | .throttleApply c => Sys2Proof.Machine.execThrottleApply c s
  | .hkCntClr => Sys2Proof.Machine.execHkCntClr s
  | .harnessLinkUp p => Sys2Proof.Machine.execHarnessLinkUp p s
  | .harnessLinkDown p => Sys2Proof.Machine.execHarnessLinkDown p s
  | .frameForward p f => Sys2Proof.Machine.execFrameForward p f s
  | .cmdRead p f => Sys2Proof.Machine.execCmdRead p f s
  | .cmdWrite p f => Sys2Proof.Machine.execCmdWrite p f s
  | .cmdReport p f => Sys2Proof.Machine.execCmdReport p f s
  | .cmdActivate p f => Sys2Proof.Machine.execCmdActivate p f s
  | .rspFrame p f => Sys2Proof.Machine.execRspFrame p f s
  | .evtFrame p f => Sys2Proof.Machine.execEvtFrame p f s
  | .nakFrame p f => Sys2Proof.Machine.execNakFrame p f s
  | .tuningFrame p f sof late => Sys2Proof.Machine.execTuningFrame p f sof late s
  | .budgetFrame p f => Sys2Proof.Machine.execBudgetFrame p f s
  | .imgFrame p f => Sys2Proof.Machine.execImgFrame p f s
  | .enumAssign p f => Sys2Proof.Machine.execEnumAssign p f s
  | .enumDone p f => Sys2Proof.Machine.execEnumDone p f s
  | .enumProbe p f => Sys2Proof.Machine.execEnumProbe p f s
  | .enumEcho p f d => Sys2Proof.Machine.execEnumEcho p f d s
  | .enumRing p f => Sys2Proof.Machine.execEnumRing p f s
  | .roleFrame p f => Sys2Proof.Machine.execRoleFrame p f s
  | .pauseReceived p => Sys2Proof.Machine.execPauseReceived p s
  | .resumeReceived p => Sys2Proof.Machine.execResumeReceived p s
  | .harnessGuardOpen p => Sys2Proof.Machine.execHarnessGuardOpen p s
  | .harnessGuardClose p => Sys2Proof.Machine.execHarnessGuardClose p s
  | .tuningEmit sub => Sys2Proof.Machine.execTuningEmit sub s
  | .harnessEnum => Sys2Proof.Machine.execHarnessEnum s
  | .hopProbeStart => Sys2Proof.Machine.execHopProbeStart s
  | .hopProbeDone lat => Sys2Proof.Machine.execHopProbeDone lat s
  | .harnessReprobe => Sys2Proof.Machine.execHarnessReprobe s
  | .harnessTxGo => Sys2Proof.Machine.execHarnessTxGo s
  | .harnessCntClr => Sys2Proof.Machine.execHarnessCntClr s
  | .rootepochWrite v => Sys2Proof.Machine.execRootepochWrite v s
  | .bulkWrite h data check n => Sys2Proof.Machine.execBulkWrite h data check n s
  | .bulkRead h n => Sys2Proof.Machine.execBulkRead h n s
  | .bulkQwrite h data check n => Sys2Proof.Machine.execBulkQwrite h data check n s
  | .bulkQread h n => Sys2Proof.Machine.execBulkQread h n s
  | .bulkStatus => Sys2Proof.Machine.execBulkStatus s
  | .bulkClrstat => Sys2Proof.Machine.execBulkClrstat s
  | .bulkAbort => Sys2Proof.Machine.execBulkAbort s
  | .bulkWaitTimeout => Sys2Proof.Machine.execBulkWaitTimeout s
  | .queueEntryVisible q => Sys2Proof.Machine.execQueueEntryVisible q s
  | .queueSpaceFreed q => Sys2Proof.Machine.execQueueSpaceFreed q s
  | .queuePop path q => Sys2Proof.Machine.execQueuePop path q s
  | .twWrite bytes stop => Sys2Proof.Machine.execTwWrite bytes stop s
  | .twRead ptr n => Sys2Proof.Machine.execTwRead ptr n s
  | .twStretchTimeout => Sys2Proof.Machine.execTwStretchTimeout s
  | .twSmbTimeout => Sys2Proof.Machine.execTwSmbTimeout s
  | .twReset => Sys2Proof.Machine.execTwReset s
  | .twcGo v => Sys2Proof.Machine.execTwcGo v s
  | .twcStart lost => Sys2Proof.Machine.execTwcStart lost s
  | .twcDone nack data code => Sys2Proof.Machine.execTwcDone nack data code s
  | .hostifCntClr => Sys2Proof.Machine.execHostifCntClr s
  | .queueWmWrite q v => Sys2Proof.Machine.execQueueWmWrite q v s
  | .queueFlush q => Sys2Proof.Machine.execQueueFlush q s
  | .queueFlushApply q => Sys2Proof.Machine.execQueueFlushApply q s
  | .queueDropClr q => Sys2Proof.Machine.execQueueDropClr q s
  | .wakePin level => Sys2Proof.Machine.execWakePin level s
  | .rstNAssert => Sys2Proof.Machine.execRstNAssert s
  | .regWrite path addr v => Sys2Proof.Machine.execRegWrite path addr v s
  | .faultClr v => Sys2Proof.Machine.execFaultClr v s
  | .faultClearApply engine xtal => Sys2Proof.Machine.execFaultClearApply engine xtal s
  | .aliveToggle => Sys2Proof.Machine.execAliveToggle s
  | .hwdAns v => Sys2Proof.Machine.execHwdAns v s
  | .hwdCloseExpire => Sys2Proof.Machine.execHwdCloseExpire s
  | .hwdCheckin v => Sys2Proof.Machine.execHwdCheckin v s
  | .hwdEnable => Sys2Proof.Machine.execHwdEnable s
  | .hwdLock => Sys2Proof.Machine.execHwdLock s
  | .hwdKey v => Sys2Proof.Machine.execHwdKey v s
  | .fwdExpire pc last => Sys2Proof.Machine.execFwdExpire pc last s
  | .faultCntClr => Sys2Proof.Machine.execFaultCntClr s
  | .recBlockWriteStart => Sys2Proof.Machine.execRecBlockWriteStart s
  | .recBlockWriteDone ok => Sys2Proof.Machine.execRecBlockWriteDone ok s
  | .recFreeze => Sys2Proof.Machine.execRecFreeze s
  | .recThaw => Sys2Proof.Machine.execRecThaw s
  | .recCommit => Sys2Proof.Machine.execRecCommit s
  | .recNonceNew => Sys2Proof.Machine.execRecNonceNew s
  | .recNote => Sys2Proof.Machine.execRecNote s
  | .recCntClr => Sys2Proof.Machine.execRecCntClr s
  | .recClear v => Sys2Proof.Machine.execRecClear v s
  | .recScrubErase snapshot => Sys2Proof.Machine.execRecScrubErase snapshot s
  | .snapshotCapture => Sys2Proof.Machine.execSnapshotCapture s
  | .ledgerCommitDue => Sys2Proof.Machine.execLedgerCommitDue s
  | .brownout => Sys2Proof.Machine.execBrownout s
  | .recWallTick => Sys2Proof.Machine.execRecWallTick s
  | .stgPiece v => Sys2Proof.Machine.execStgPiece v s
  | .stgEraseDone => Sys2Proof.Machine.execStgEraseDone s
  | .stgPageDone ok => Sys2Proof.Machine.execStgPageDone ok s
  | .trustActivate => Sys2Proof.Machine.execTrustActivate s
  | .activationDue => Sys2Proof.Machine.execActivationDue s
  | .fwPauseEnd => Sys2Proof.Machine.execFwPauseEnd s
  | .structLoadDone => Sys2Proof.Machine.execStructLoadDone s
  | .structProgramStart => Sys2Proof.Machine.execStructProgramStart s
  | .trustReport => Sys2Proof.Machine.execTrustReport s
  | .reportDone => Sys2Proof.Machine.execReportDone s
  | .trustCancelFw => Sys2Proof.Machine.execTrustCancelFw s
  | .trustCancelSt => Sys2Proof.Machine.execTrustCancelSt s
  | .trustNonceNew => Sys2Proof.Machine.execTrustNonceNew s
  | .keyWriteOem slot => Sys2Proof.Machine.execKeyWriteOem slot s
  | .keyRevoke slot => Sys2Proof.Machine.execKeyRevoke slot s
  | .keyWriteClear => Sys2Proof.Machine.execKeyWriteClear s
  | .keyLifecycleProd slot => Sys2Proof.Machine.execKeyLifecycleProd slot s
  | .powerOn => Sys2Proof.Machine.execPowerOn s
  | .vkaLoss => Sys2Proof.Machine.execVkaLoss s
  | .softReset => Sys2Proof.Machine.execSoftReset s
  | .resetEnd addr => Sys2Proof.Machine.execResetEnd addr s
  | .bootComplete autoarm => Sys2Proof.Machine.execBootComplete autoarm s
  | .globalArm v => Sys2Proof.Machine.execGlobalArm v s
  | .armApply => Sys2Proof.Machine.execArmApply s
  | .disarm => Sys2Proof.Machine.execDisarm s
  | .testEnter => Sys2Proof.Machine.execTestEnter s
  | .testExit => Sys2Proof.Machine.execTestExit s
  | .hibernateRequest => Sys2Proof.Machine.execHibernateRequest s
  | .hibernateEntered => Sys2Proof.Machine.execHibernateEntered s
  | .hibernateWake => Sys2Proof.Machine.execHibernateWake s
  | .twAddressWake => Sys2Proof.Machine.execTwAddressWake s
  | .harnessActivityWake => Sys2Proof.Machine.execHarnessActivityWake s
  | .vioUndervoltage x => Sys2Proof.Machine.execVioUndervoltage x s
  | .testOosWrite v => Sys2Proof.Machine.execTestOosWrite v s
  | .oosApply => Sys2Proof.Machine.execOosApply s
  | .portAdcCheck p c1 c2 => Sys2Proof.Machine.execPortAdcCheck p c1 c2 s
  | .cmpSweepGo v => Sys2Proof.Machine.execCmpSweepGo v s
  | .cmpSweepStep seen => Sys2Proof.Machine.execCmpSweepStep seen s
  | .pwmCaptureGo v => Sys2Proof.Machine.execPwmCaptureGo v s
  | .pwmCaptureDone edges => Sys2Proof.Machine.execPwmCaptureDone edges s
  | .sramScrubWord kind ecc errs last => Sys2Proof.Machine.execSramScrubWord kind ecc errs last s
  | .nvmScrubWord ecc errs last => Sys2Proof.Machine.execNvmScrubWord ecc errs last s
  | .testHarnWrite v => Sys2Proof.Machine.execTestHarnWrite v s
  | .jtagInstruction load => Sys2Proof.Machine.execJtagInstruction load s
  | .dbgNonceNew => Sys2Proof.Machine.execDbgNonceNew s
  | .dbgUnlock v => Sys2Proof.Machine.execDbgUnlock v s
  | .vioAboveThreshold x => Sys2Proof.Machine.execVioAboveThreshold x s
  | .feedVlpresInactive x => Sys2Proof.Machine.execFeedVlpresInactive x s

end Sys2Proof.Machine
end

