-- ==== Sys2Proof/Machine/Step.lean ====
section
/-! DEFINITION. Sys2Proof/Machine/Step.lean: one step of the block: the command at the front of the queue; on an empty queue
one interface tick passes. -/

namespace Sys2Proof.Machine

/-- The state after one interface tick in which no command arrives (R22). -/
def State.idle (s : State) : State := { s with tick := s.tick + 1 }

/-- What an interface tick brings about by itself (log entry 151): an off request that waited for the judgements of its tick acts, the tick
count rises, and sequencer requests of the tick before act (R254, R270). -/
def State.ticked (s : State) : State := seqTick (seqEnd s).idle

/-- The step: the front command acts on the state with the queue's rest. -/
def step (s : State) : Host.Outcome State Fault Refusal :=
  match s.pending with
  | [] => .next s.ticked
  | c :: cs => exec c { s with pending := cs }

/-- `s` with command `c` at the front of its queue. -/
def State.push (s : State) (c : Instr) : State := { s with pending := c :: s.pending }

/-- `s` with the command that a word of the opcode table spells at the front of its queue. -/
def State.withFetchWord (s : State) (nbits w : Nat) : State :=
  match decodeTableWord nbits w with
  | none => s
  | some c => s.push c

end Sys2Proof.Machine
end

