-- ==== Sys2Proof/Safety.lean ====
section
/-! DEFINITION. Sys2Proof/Safety.lean: the terms in which statements about the block speak: a command answers a next state;
which bits, registers and bytes it leaves as they were; and the canonical form of everything that is held sparsely. -/

namespace Sys2Proof.Machine

/-- The command answers a next state (no fault, no refusal), and `P` holds of it. -/
def AnswersNext (o : Host.Outcome State Fault Refusal) (P : State → Prop) : Prop := ∃ t, o = .next t ∧ P t

/-- Every bit of every register outside the fields `fs` reads after as before. -/
def SameBits (fs : List Field) (s t : State) : Prop :=
  ∀ a k, k < 32 → (∀ f ∈ fs, f.addr = a → k < f.lo ∨ f.lo + f.width ≤ k) → (rd t a).getLsbD k = (rd s a).getLsbD k

/-- Every register whose address `p` does not name reads after as before. -/
def SameRegsOutside (p : Nat → Bool) (s t : State) : Prop := ∀ a, p a = false → rd t a = rd s a

/-- Every byte of engine memory and of NVM reads after as before. -/
def SameMemory (s t : State) : Prop := (∀ o, engByte t o = engByte s o) ∧ ∀ o, nvmByte t o = nvmByte s o

/-- The blocks that the report of a corrected fault writes: FAULT and REC (R386, R413). -/
def faultOrRec (a : Nat) : Bool := decide (0x3000 ≤ a ∧ a < 0x4000) || decide (0xB000 ≤ a ∧ a < 0xC000)

/-- A corrected fault of this code has been reported (R386): its block's count has grown by one, saturating, its block's bit of
FAULT_CORR is set and the event of its class is raised. -/
def CorrectedReported (s t : State) (code : Nat) : Prop :=
  fget t (Fld.FAULT_BCNT_COUNT (code / 256 - 1)) = min (fget s (Fld.FAULT_BCNT_COUNT (code / 256 - 1)) + 1) (2 ^ 32 - 1) ∧
  fbit t Fld.FAULT_CORR_BLK (code / 256 - 1) = true ∧ bit t Fld.FAULT_EVENT_CORR = true

/-- Everything held sparsely is in canonical form: registers, their replica, captures and the two memories. -/
def State.canonical (s : State) : Bool :=
  Memory.wf s && storeWf regReset s.live && storeWf regReset s.repl && storeWf (fun _ => (0 : Word)) s.captures

/-- A whole register, as a field. -/
def wholeReg (a : Nat) : Field := ⟨a, 0, 32⟩

/-- The registers whose write does more than store their fields by the access codes: commands, and stored fields with a rule of their own
(the rows of the table that write registers, R89, R92, R225, R248, R296, R369, R374, R377, R399 to R401 and others). -/
def ownEffect (a : Nat) : Bool :=
  [Reg.GLOBAL_ARM, Reg.GLOBAL_CTRL, Reg.TIME_FLEET, Reg.SCHED_CTRL, Reg.SCHED_VSEL, Reg.SCHED_SWAP_GO, Reg.FAULT_CLR, Reg.FAULT_CTRL,
    Reg.FAULT_HWD_CTRL, Reg.FAULT_HWD_TOKKEY, Reg.FAULT_HWD_KEY, Reg.FAULT_HWD_ANS, Reg.FAULT_HWD_CHECKIN, Reg.HARNESS_CTRL,
    Reg.HARNESS_ROOTEPOCH, Reg.HOSTIF_TWC_CTRL, Reg.HOSTIF_CTRL].contains a ||
  [Reg.SEQ_CMD, Reg.SEQ_CTRL, Reg.FEED_CMD, Reg.BATT_CTRL 0, Reg.BATT_CTRL 1, Reg.HK_CTRL, Reg.KA_TICK, Reg.KA_LATCH, Reg.CAPO_CTRL,
    Reg.CAPO_HOSTCAP, Reg.REC_CTRL, Reg.REC_WALL, Reg.REC_CLEAR, Reg.TRUST_CTRL, Reg.TRUST_STG_CTRL, Reg.TRUST_KEYCMD, Reg.TEST_OOS,
    Reg.TEST_CMP_CTRL, Reg.TEST_PWM_CTRL, Reg.TEST_HARN, Reg.TEST_DBG_CTRL, Reg.TEST_JTAG].contains a ||
  decide (0x5800 ≤ a ∧ a < 0x6000 ∧ (a % 0x20 = 4 ∨ a % 0x20 = 0x10)) || decide (0x712C ≤ a ∧ a < 0x8000 ∧ (a - 0x712C) % 0x40 = 0) ||
  decide (0x10000 ≤ a ∧ a < 0x18000 ∧ (a % 0x400 = 0x2C ∨
    (0x100 ≤ a % 0x400 ∧ a % 0x400 < 0x200 ∧ (a % 0x40 = 0x08 ∨ a % 0x40 = 0x14 ∨ a % 0x40 = 0x24)))) ||
  decide (0x18000 ≤ a ∧ (a % 0x200 = 0x08 ∨ a % 0x200 = 0x0C ∨ a % 0x200 = 0x1C ∨ 0x100 ≤ a % 0x200))

/-- What a field holds after a write (R14 to R18): `old` before it, `new` the written bits, `locked` for RWL, `idle` for RWI. -/
def afterWrite (locked idle : Bool) (old new : Nat) : Access → Nat
  | .ro => old
  | .rw | .wo => new
  | .w1c => old - (old &&& new)
  | .rwl => if locked then old else new
  | .rwi => if idle then new else old

/-- A value in the engine pipeline has taken the result `v` of a word issued at absolute fret `t`: words issued `lat` frets
later or after receive it, those before that what they would have received without it (R80). -/
def Delivers {α : Type} (old new : Piped α) (t lat : Nat) (v : α) : Prop :=
  ∀ k, t ≤ k → new.get k = if t + lat ≤ k then v else old.get k

/-- Every loop context but `n` is as before in what no register holds. -/
def OtherLoops (n : Fin 64) (s t : State) : Prop := ∀ m, m ≠ n → t.loops.get m = s.loops.get m

/-- Every port but `p` is as before in what no register holds. -/
def OtherPorts (p : Fin 32) (s t : State) : Prop := ∀ q, q ≠ p → t.ports.get q = s.ports.get q

/-- Every feed but `f` keeps its state and its outputs. -/
def OtherFeeds (f : Fin 8) (s t : State) : Prop := ∀ h, h ≠ f → feedState t h = feedState s h ∧ feedHigh t h = feedHigh s h

/-- Every rail but `r` keeps its state register. -/
def OtherRails (r : Fin 16) (s t : State) : Prop := ∀ q : Fin 16, q ≠ r → rd t (Reg.SEQ_RSTAT q) = rd s (Reg.SEQ_RSTAT q)

/-- The device is in a state in which no gate output may be high: it is not ARMED (R117). -/
def Unarmed (s : State) : Prop := devState s ≠ .armed

/-- All four gate outputs of a port are low (R117). -/
def PortLow (s : State) (p : Fin 32) : Prop := ∀ g : Fin 4, ((s.ports.get p).gates.get g).high = false

/-- No pair of any port has both outputs high (R109 invariant 1). -/
def PairsApart (s : State) : Prop :=
  ∀ (q : Fin 32) (h : Gate), ¬ ((gateOf s q h).high = true ∧ (gateOf s q h.compl).high = true)

/-- No cut of a link asked for by TEST_HARN.OFF waits for an RSP (R490). -/
def NoCutWaits (s : State) : Prop := s.test.cutPend = Vector.replicate 3 false

/-- Frame `x` has arrived on port `p` whole, at a device that consumes frames (R316, R317, R321). -/
def Arrives (s : State) (p : HPort) (x : RxFrame) : Prop :=
  linkUp s p = true ∧ s.harn.cut.get p.idx = false ∧ harnConsumes s = true ∧ x.good = true ∧ x.aborted = false ∧
  typeOk x.frame = true ∧ returnsHome s p x.frame = false

/-- Frame `x` on port `p` is consumed here and goes nowhere else, and it passes the role and epoch check (R325, R333). -/
def ForThisDevice (s : State) (p : HPort) (x : RxFrame) : Prop :=
  Arrives s p x ∧ secondRoot s p x.frame = false ∧ routeOf s p x.frame = ⟨true, [], false⟩ ∧ roleRefused s x.frame = none

/-- What this device originates for address `dest` leaves by its up port `u` at once (R325, R327). -/
def SendsUp (s : State) (u : HPort) (dest : Nat) : Prop :=
  harnRuns s = true ∧ upPort s = some u ∧ linkUp s u = true ∧ s.harn.cut.get u.idx = false ∧ mayTransmit s u 3 = true ∧
  dest ≠ 0xFFFF ∧ dest ≠ ownAddr s ∧ rangePort s dest = none

/-- The answer of type `typ` to frame `f` (R320, R323, R342). -/
def answerTo (s : State) (f : Frame) (typ : Nat) (payload : List Word) : Frame :=
  ⟨f.src, ownAddr s, typ, ownEpoch s, 0xFF, f.seq, 0, payload⟩

/-- A frame put on port `p`, and nothing else. -/
def Sent (s : State) (p : HPort) (f : Frame) : State := { s with harn := { s.harn with tx := s.harn.tx ++ [sentFrame p f] } }

end Sys2Proof.Machine
end

