-- ==== Sys2Proof/Certificates/Slice0/Obligations.lean ====
section
/-! DEFINITION. Sys2Proof/Certificates/Slice0/Obligations.lean: what is claimed of the model, one definition per claim. -/

set_option linter.unusedVariables false

open Sys2Proof Sys2Proof.Machine

/-- A step takes the front command of the queue and runs it on the state with the queue's rest; on an empty queue one interface tick passes (the model's choice: log entry 1), in which sequencer requests act (log entry 151). -/
def Obligations.StepRunsFrontCommand : Prop :=
  (∀ (s : State) (c : Instr) (cs : List Instr), s.pending = c :: cs → step s = exec c { s with pending := cs }) ∧
  (∀ s : State, s.pending = [] → s.seq.reqOn = false → s.seq.reqOff = false → s.seq.offNow = false →
    step s = .next { s with tick := s.tick + 1 }) ∧
  (∀ s : State, s.pending = [] → seqPowered s = true → s.seq.offNow = false →
    let t := { s with tick := s.tick + 1, seq := { s.seq with reqOn := false, reqOff := false } }
    (s.seq.reqOff = true → railRising s = false → step s = .next (seqOff t)) ∧
    (s.seq.reqOff = true → railRising s = true → step s = .next { t with seq := { t.seq with offNow := true } }) ∧
    (s.seq.reqOn = true → s.seq.reqOff = false → step s = .next (seqOn t))) ∧
  ∀ s : State, s.pending = [] → seqPowered s = true → s.seq.offNow = true →
    let u := seqOff { s with seq := { s.seq with offNow := false } }
    u.seq.reqOn = false → u.seq.reqOff = false →
    step s = .next { u with tick := u.tick + 1, seq := { u.seq with reqOn := false, reqOff := false } }

/-- R29: the 40-bit cycle count increments when the shared angle wraps through zero; with φ = 0 that is fret 0 of the local cycle. -/
def Obligations.CycleCountIncrementsAtAngleWrap : Prop :=
  (∀ s : State, AnswersNext (exec .angleWrap s) fun t =>
    t.time.cycleCount = (s.time.cycleCount + 1) % 2 ^ 40 ∧
    t = { s with time := { s.time with cycleCount := t.time.cycleCount }, harn := { s.harn with tuneDue := t.harn.tuneDue } }) ∧
  ∀ s : State, s.time.fleetBase = 0 → s.time.fleetStep = 0 → 0 < s.time.cfg.n →
    (s.time.round = 0 → angleAt s 0 = 0) ∧
    ∀ f k : Nat, f ≤ k → s.time.round * s.time.cfg.rlen + k < s.time.cfg.n → angleAt s f ≤ angleAt s k

/-- The results and frames of MAINS_SAMPLE, MAINS_SAMPLE_READY (R35), TIME_FLEET_WRITE, FLEET_ANGLE_APPLY (R50) and MAINS_QUALIFIED (R37); that a sample keeps the grid angle of its fret is log entry 47, that TIME_FLEET_EFF shows the effective angle at the apply is log entry 11. -/
def Obligations.TimebaseSamplesAndFleetWrites : Prop :=
  (∀ (s : State) (a b c n : BitVec 14) (f : Nat), AnswersNext (exec (.mainsSample a b c n f) s) fun t =>
    t.time.conv.volts = (a, b, c, n) ∧ t.time.conv.fret = absFret s f ∧ t.time.convDue = true ∧ t.time.usable = s.time.usable ∧
    t = { s with time := { s.time with conv := ⟨(a, b, c, n), gridTurns s f, absFret s f⟩, convDue := true } }) ∧
  (∀ s : State, s.time.convDue = true → AnswersNext (exec .mainsSampleReady s) fun t =>
    Delivers s.time.usable t.time.usable s.time.conv.fret (if s.time.cfg.profile = 2 then 10 else 20) s.time.conv ∧
    t = { s with time := { s.time with usable := t.time.usable, convDue := false } }) ∧
  (∀ s : State, s.time.convDue = false → AnswersNext (exec .mainsSampleReady s) fun t => t = s) ∧
  (∀ (s : State) (v : Word), AnswersNext (exec (.timeFleetWrite v) s) fun t =>
    rd t Reg.TIME_FLEET = v ∧ t.time.fleetPend = true ∧ SameBits [wholeReg Reg.TIME_FLEET] s t ∧
    t = { s with live := t.live, time := { s.time with fleetPend := true } }) ∧
  (∀ s : State, s.time.fleetPend = true → AnswersNext (exec .fleetAngleApply s) fun t =>
    t.time.fleetTarget = (rd s Reg.TIME_FLEET).toNat ∧ (rd t Reg.TIME_FLEET_EFF).toNat = fleetAt s 0 ∧
    bit t Fld.TIME_STATUS_FLEET_SLEW = (fleetAt s 0 != (rd s Reg.TIME_FLEET).toNat) ∧
    SameBits [Fld.TIME_STATUS_FLEET_SLEW, wholeReg Reg.TIME_FLEET_EFF] s t ∧
    t = { s with live := t.live, time := { s.time with fleetPend := false, fleetTarget := t.time.fleetTarget } }) ∧
  (∀ s : State, s.time.fleetPend = false → AnswersNext (exec .fleetAngleApply s) fun t => t = s) ∧
  (∀ s : State, s.time.condNow = true → s.time.cfg.ret ≤ s.time.retCount → AnswersNext (exec .mainsQualified s) fun t =>
    bit t Fld.TIME_STATUS_MAINS_QUAL = true ∧ SameBits [Fld.TIME_STATUS_MAINS_QUAL] s t ∧ t = { s with live := t.live }) ∧
  ∀ s : State, (s.time.condNow = false ∨ s.time.retCount < s.time.cfg.ret) →
    AnswersNext (exec .mainsQualified s) fun t => t = s

/-- R40, R41 (the rate limit and the clip of the engine frequency, without the exempt changes), R34 and R46 (the end of HOLDOVER): CYCLE_BOUNDARY and HOLD_EXPIRE; R33, exempt from them: PROVISIONAL until an image is loaded, at the next cycle boundary its configuration is taken and the state is VIRTUAL. -/
def Obligations.EngineFrequencyMovesAtMostTwoPercent : Prop :=
  (∀ s : State, s.time.take = false → s.time.exemptAt ≠ some s.tick →
    (((profileKHz s.time.cfg.profile).1 * 1000 : Nat) : Rat) / (s.time.cfg.n : Rat) ≤ s.time.freq →
    s.time.freq ≤ (((profileKHz s.time.cfg.profile).2 * 1000 : Nat) : Rat) / (s.time.cfg.n : Rat) →
    AnswersNext (exec .cycleBoundary s) fun t =>
      t.time.round = 0 ∧ t.time.cycles = s.time.cycles + 1 ∧
      s.time.freq - mHz s.time.cfg.vfreq / 50 ≤ t.time.freq ∧ t.time.freq ≤ s.time.freq + mHz s.time.cfg.vfreq / 50 ∧
      (((profileKHz s.time.cfg.profile).1 * 1000 : Nat) : Rat) / (s.time.cfg.n : Rat) ≤ t.time.freq ∧
      t.time.freq ≤ (((profileKHz s.time.cfg.profile).2 * 1000 : Nat) : Rat) / (s.time.cfg.n : Rat)) ∧
  (∀ s : State, fget s Fld.TIME_STATUS_STATE = 4 → max s.time.cfg.hold 1 ≤ s.time.holdCount →
    s.time.exemptAt ≠ some s.tick →
    (((profileKHz s.time.cfg.profile).1 * 1000 : Nat) : Rat) / (s.time.cfg.n : Rat) ≤ s.time.freq →
    s.time.freq ≤ (((profileKHz s.time.cfg.profile).2 * 1000 : Nat) : Rat) / (s.time.cfg.n : Rat) →
    AnswersNext (exec .holdExpire s) fun t =>
      bit t Fld.TIME_EVENT_SLEW_START = true ∧
      (fget t Fld.TIME_STATUS_STATE = 5 ∨ (fget t Fld.TIME_STATUS_STATE = 1 ∧ t.time.freq = mHz s.time.cfg.vfreq)) ∧
      s.time.freq - mHz s.time.cfg.vfreq / 50 ≤ t.time.freq ∧ t.time.freq ≤ s.time.freq + mHz s.time.cfg.vfreq / 50) ∧
  ∀ s : State, fget s Fld.TIME_STATUS_STATE = 0 → s.time.take = true → AnswersNext (exec .cycleBoundary s) fun t =>
    t.time.cfg = timeCfgOfRegs s ∧ t.time.take = false ∧ t.time.freq = mHz (fget s Fld.TIME_VFREQ_MHZ) ∧
    fget t Fld.TIME_STATUS_STATE = 1 ∧ fget t Fld.TIME_STATUS_SRC_ACT = 1 ∧ SameMemory s t

/-- R27: the shared angle at the start of fret k, and the first fret whose start reaches the shared angle θ. -/
def Obligations.SharedAngleOfEveryFret : Prop :=
  (∀ (s : State) (f k : Nat), k = s.time.round * s.time.cfg.rlen + f → k < s.time.cfg.n →
    angleAt s f = (k * 2 ^ 32 / s.time.cfg.n + fleetAt s f) % 2 ^ 32) ∧
  ∀ (s : State) (f k φ θ : Nat), k = s.time.round * s.time.cfg.rlen + f → k < s.time.cfg.n → φ < 2 ^ 32 → θ < 2 ^ 32 →
    s.time.fleetBase % 2 ^ 32 = φ → s.time.fleetStep = 0 →
    fleetAt s f = φ ∧ ((θ + (2 ^ 32 - φ)) % 2 ^ 32 ≤ (angleAt s f + (2 ^ 32 - φ)) % 2 ^ 32 ↔
      ((θ + (2 ^ 32 - φ)) % 2 ^ 32 * s.time.cfg.n + (2 ^ 32 - 1)) / 2 ^ 32 ≤ k)

/-- R58 (captures belong to their path) and R52, R57 (the replica): TS_LO_CAPTURE and REPLICA_REFRESH. -/
def Obligations.TimestampCapturesArePerPath : Prop :=
  (∀ (s : State) (path : Path) (a : Nat), isTsLo a = true → a < 2 ^ 32 → AnswersNext (exec (.tsLoCapture path a) s) fun t =>
    capturedHi t path a = hostSees s (a + 4) ∧
    (∀ (p : Path) (b : Nat), b < 2 ^ 32 → (p, b) ≠ (path, a) → capturedHi t p b = capturedHi s p b) ∧
    t = { s with captures := t.captures }) ∧
  ∀ s : State, AnswersNext (exec .replicaRefresh s) fun t =>
    (∀ a, isReplica a = true → rdRepl t a = rd t a) ∧ stampI s ≤ stampI t ∧ (∀ r ∈ t.saddle.asked, r.got.isSome = true) ∧
    t.saddle.asked.length = s.saddle.asked.length ∧ SameRegsOutside isReplica s t ∧
    t = { s with live := t.live, repl := t.repl, saddle := { s.saddle with asked := t.saddle.asked } }

/-- R48, R525 and R55 (TUNING_MISS; that one loss is reported once is the model's reading: log entry 124), R386 (a corrected fault: LFXTAL_FAIL), R43 and R389 (a fatal fault enters SAFE: XTAL_FAIL), R463 (a fatal fault in BOOT acts at its end); reports in OFF and HIBERNATE are the model's choice (log entry 188). -/
def Obligations.TimebaseLossesAndCrystals : Prop :=
  (∀ s : State, s.time.cfg.src = 2 → isRoot s = false → 2 ≤ s.time.tunMissed → s.time.tunLost = false →
    AnswersNext (exec .tuningMiss s) fun t =>
      bit t Fld.TIME_STATUS_HARN_VALID = false ∧ bit t Fld.TIME_EVENT_TUNING_MISS = true ∧ t.time.tunLost = true ∧
      SameMemory s t ∧
      ((hasTarget s = false ∨ srcAct s ≠ 2) → CorrectedReported s t 0x0305 ∧
        SameRegsOutside (fun a => faultOrRec a || a == Reg.TIME_STATUS || a == Reg.TIME_EVENT) s t) ∧
      (hasTarget s = true → srcAct s = 2 → bit t Fld.TIME_EVENT_LOCK_LOSS = true ∧
        ((s.time.cfg.fb = true ∧ bit s Fld.TIME_STATUS_MAINS_QUAL = true) →
          fget t Fld.TIME_STATUS_STATE = 2 ∧ srcAct t = 0 ∧ bit t Fld.TIME_EVENT_TRANSFER_START = true) ∧
        ((s.time.cfg.fb = false ∨ bit s Fld.TIME_STATUS_MAINS_QUAL = false) →
          fget t Fld.TIME_STATUS_STATE = 4 ∧ srcAct t = 1 ∧ bit t Fld.TIME_EVENT_HOLD_ENTER = true))) ∧
  (∀ s : State, (s.time.cfg.src ≠ 2 ∨ isRoot s = true ∨ s.time.tunMissed < 2 ∨ s.time.tunLost = true) →
    AnswersNext (exec .tuningMiss s) fun t => t = s) ∧
  (∀ s : State, AnswersNext (exec .lfxtalFail s) fun t =>
    CorrectedReported s t 0x030A ∧
    (s.saddle.pending.length < 128 → fget t Fld.FAULT_LAST_CODE = 0x030A ∧ fget t Fld.FAULT_LAST_CLASS = 0) ∧
    SameRegsOutside faultOrRec s t ∧ t = { s with live := t.live, fault := t.fault, saddle := t.saddle }) ∧
  ∀ s : State, AnswersNext (exec .xtalFail s) fun t =>
    bit t Fld.FAULT_EVENT_FATAL = true ∧ SameMemory s t ∧ t.power.xtalBad = true ∧
    ((devState s = .idle ∨ devState s = .armed ∨ devState s = .test) →
      devState t = .safe ∧ fget t Fld.GLOBAL_STATE_PREV = (devState s).code ∧ bit t Fld.GLOBAL_EVENT_STATE_CHG = true ∧
      bit t Fld.FAULT_STATUS_SAFE = true) ∧
    ((devState s = .boot ∨ devState s = .safe ∨ devState s = .hibernate ∨ devState s = .off) → devState t = devState s) ∧
    (devState s = .boot → t.power.bootFatal = true)

/-- R35 and R526: the PLL word (once per round: log entry 9; the filters and the open ratio: log entry 8; the angle carried to the sampling fret: log entry 130), and the free run under input loss. -/
def Obligations.GridPllEvaluatesOncePerRound : Prop :=
  (∀ (s : State) (l : LaneFields) (f : Nat), engineRuns s = true → selfRejected s 0x18 l = false → s.time.pllDone = false →
    let c := s.time.usable.get (absFret s f)
    let th := if c.fret = s.time.used.fret then s.time.thetaG
      else s.time.thetaG + turnsFrom s s.time.gfreq s.time.thetaAt c.fret
    AnswersNext (exec (.pll l f) s) fun t =>
      t.time.pllDone = true ∧ t.time.used = c ∧ SameMemory s t ∧
      t.time.thetaG = fracTurn (th + turnsIn s t.time.gfreq s.time.cfg.rlen) ∧
      t.time.thetaAt = (if c.fret = s.time.used.fret then s.time.thetaAt else c.fret) + s.time.cfg.rlen ∧
      (bit s Fld.CAPO_STATUS_INPUT_LOSS = true → t.time.gfreq = s.time.gfreq ∧ t.time.pllSum = s.time.pllSum) ∧
      (bit s Fld.CAPO_STATUS_INPUT_LOSS = false →
        let ab := alphaBeta (readMains s f)
        let vd := ab.1 * sinTurn th - ab.2 * cosTurn th
        let vq := ab.1 * cosTurn th + ab.2 * sinTurn th
        let r := if vd = 0 then Config.pllNoAmplitude vq else vq / vd
        t.time.vd = vd ∧ t.time.pllSum = s.time.pllSum + r ∧ t.time.perr = phaseOfRatio r ∧
        t.time.gfreq = vwVal (rd s Reg.PLL_WFF) + vwVal (rd s Reg.PLL_KP) * r + vwVal (rd s Reg.PLL_KI) * (s.time.pllSum + r))) ∧
  ∀ (s : State) (l : LaneFields) (f : Nat), (s.time.pllDone = true ∨ engineRuns s = false ∨ selfRejected s 0x18 l = true) →
    exec (.pll l f) s = .next s

/-- R28 (rounds of the local cycle), R83 (rotation phases) and R96 (the round counter): ROUND_BOUNDARY. -/
def Obligations.RoundBoundaryAdvancesTheRound : Prop :=
  ∀ (s : State) (k : Nat) (b : Bool), AnswersNext (exec (.roundBoundary k b) s) fun t =>
    t.time.round = (if s.time.round + 1 < s.time.cfg.rpc then s.time.round + 1 else 0) ∧
    t.time.base = s.time.base + s.time.cfg.rlen ∧ SameMemory s t ∧
    (engineRuns s = true → rd t Reg.SCHED_ROUNDS = rd s Reg.SCHED_ROUNDS + 1 ∧
      ∀ g : Fin 16, t.sched.phase.get g =
        (if s.sched.phase.get g + 1 < (s.sched.groups[g.val]?.getD []).length then s.sched.phase.get g + 1 else 0)) ∧
    (engineRuns s = false → rd t Reg.SCHED_ROUNDS = rd s Reg.SCHED_ROUNDS ∧ t.sched.phase = s.sched.phase)

/-- R12 and R77: host writes of engine memory (ENGINE_MEM_WRITE), accepted and refused. -/
def Obligations.EngineMemoryWritesFollowTheState : Prop :=
  (∀ (s : State) (a : BitVec 32) (v : Word) (o : Nat), a.toNat = 0x300000 + o → o % 4 = 0 →
    (o < 0x60000 ∨ (0x70000 ≤ o ∧ o < 0x78000)) → (devState s = .idle ∨ devState s = .test) →
    AnswersNext (exec (.engineMemWrite a v) s) fun t =>
      (∀ k, k < 4 → engByte t (o + k) = wordByte v k) ∧
      (∀ b, (b < o ∨ o + 4 ≤ b) → engByte t b = engByte s b) ∧ (∀ b, nvmByte t b = nvmByte s b) ∧
      bit t Fld.SCHED_STATUS_MODIFIED = true ∧ bit t Fld.SCHED_EVENT_MODIFIED = true ∧
      (bit s Fld.GLOBAL_STATE_ARM_PEND = false → SameBits [Fld.SCHED_STATUS_MODIFIED, Fld.SCHED_EVENT_MODIFIED] s t) ∧
      (bit s Fld.GLOBAL_STATE_ARM_PEND = true → bit t Fld.GLOBAL_STATE_ARM_PEND = false ∧ fget t Fld.GLOBAL_ARMSTAT_REASON = 3 ∧
        bit t Fld.GLOBAL_EVENT_ARM_REF = true) ∧
      SameBits [Fld.SCHED_STATUS_MODIFIED, Fld.SCHED_EVENT_MODIFIED, Fld.GLOBAL_STATE_ARM_PEND, Fld.GLOBAL_ARMSTAT_REASON,
        Fld.GLOBAL_EVENT_ARM_REF] s t ∧
      t = { s with live := t.live, engMem := t.engMem, test := { s.test with badEng := t.test.badEng } }) ∧
  (∀ (s : State) (a : BitVec 32) (v : Word), (a.toNat < 0x300000 ∨ 0x380000 ≤ a.toNat) → exec (.engineMemWrite a v) s = .next s) ∧
  ∀ (s : State) (a : BitVec 32) (v : Word) (o : Nat), a.toNat = 0x300000 + o → o < 0x80000 →
    ((devState s ≠ .idle ∧ devState s ≠ .test) ∨ (0x60000 ≤ o ∧ o < 0x70000) ∨ 0x78000 ≤ o) →
    AnswersNext (exec (.engineMemWrite a v) s) fun t =>
      SameMemory s t ∧ bit t Fld.HOSTIF_EVENT_REFUSED = true ∧ CorrectedReported s t 0x0902 ∧ SameRegsOutside (fun a => faultOrRec a || a == Reg.HOSTIF_EVENT) s t

/-- R85, R86 and R155: SCHED_SWAP_GO and BANK_EXCHANGE. -/
def Obligations.BankSwapsExchangeTogether : Prop :=
  (∀ s : State, bit s Fld.SCHED_STATUS_LOADED = true → AnswersNext (exec .schedSwapGo s) fun t =>
    (∀ n, n < 64 → swapPending t n = (swapPending s n || (maskBit s n && loopUsed s n))) ∧ t.sched.swapReq = true ∧
    SameMemory s t) ∧
  (∀ s : State, bit s Fld.SCHED_STATUS_LOADED = false → AnswersNext (exec .schedSwapGo s) fun t => t = s) ∧
  (∀ s : State, s.sched.swapReq = true → AnswersNext (exec .bankExchange s) fun t =>
    t.sched.swapReq = false ∧ (∀ n, n < 64 → swapPending t n = false) ∧
    (∀ n, n < 64 → activeBank t n =
      if swapPending s n && bankOk (bankWord s n (1 - activeBank s n)) (eiOf s n) then 1 - activeBank s n else activeBank s n) ∧
    SameMemory s t) ∧
  ∀ s : State, s.sched.swapReq = false → AnswersNext (exec .bankExchange s) fun t => t = s

/-- R89 to R91: SCHED_VSEL and VARIANT_SWITCH. -/
def Obligations.VariantRequestsAndSwitch : Prop :=
  (∀ (s : State) (v : Word), getBits v 16 16 ≠ 0x5653 → AnswersNext (exec (.schedVsel v) s) fun t => t = s) ∧
  (∀ (s : State) (v : Word), getBits v 16 16 = 0x5653 → variantRefused s (getBits v 0 2) = false →
    AnswersNext (exec (.schedVsel v) s) fun t =>
      fget t Fld.SCHED_STATUS_VREQ = getBits v 0 2 ∧ bit t Fld.SCHED_STATUS_VPEND = true ∧
      SameBits [Fld.SCHED_STATUS_VREQ, Fld.SCHED_STATUS_VPEND] s t ∧
      t = { s with live := t.live, sched := { s.sched with vselBoundaries := 0 } }) ∧
  (∀ (s : State) (v : Word), getBits v 16 16 = 0x5653 → variantRefused s (getBits v 0 2) = true →
    AnswersNext (exec (.schedVsel v) s) fun t =>
      bit t Fld.SCHED_STATUS_VPEND = false ∧ bit t Fld.SCHED_EVENT_VSEL_REFUSED = true ∧
      CorrectedReported s t 0x0281 ∧ SameMemory s t) ∧
  (∀ s : State, bit s Fld.SCHED_STATUS_VPEND = true → engineRuns s = true → s.time.round = 0 → 2 ≤ s.sched.vselBoundaries →
    (variantRefused s (fget s Fld.SCHED_STATUS_VREQ) = false → AnswersNext (exec .variantSwitch s) fun t =>
      fget t Fld.SCHED_STATUS_VACT = fget s Fld.SCHED_STATUS_VREQ ∧ bit t Fld.SCHED_STATUS_VPEND = false ∧
      bit t Fld.SCHED_EVENT_VSEL_DONE = true ∧ t.loops = s.loops ∧ SameMemory s t) ∧
    (variantRefused s (fget s Fld.SCHED_STATUS_VREQ) = true → AnswersNext (exec .variantSwitch s) fun t =>
      fget t Fld.SCHED_STATUS_VACT = fget s Fld.SCHED_STATUS_VACT ∧ bit t Fld.SCHED_STATUS_VPEND = false ∧
      bit t Fld.SCHED_EVENT_VSEL_REFUSED = true ∧ CorrectedReported s t 0x0281 ∧ SameMemory s t)) ∧
  ∀ s : State, (bit s Fld.SCHED_STATUS_VPEND = false ∨ engineRuns s = false ∨ s.time.round ≠ 0 ∨ s.sched.vselBoundaries < 2) →
    exec .variantSwitch s = .next s

/-- R75, R83, R89, R526 (ENGINE_START) and R96 (QDROP_CLR). -/
def Obligations.EngineStartsAtFretZero : Prop :=
  (∀ s : State, s.sched.startDue = true → s.trust.inert = false → s.time.take = false → s.time.round = 0 →
    (devState s = .idle ∨ devState s = .armed ∨ devState s = .safe ∨ devState s = .test) →
    AnswersNext (exec .engineStart s) fun t =>
      engineRuns t = true ∧ fget t Fld.SCHED_STATUS_VACT = 0 ∧ bit t Fld.SCHED_STATUS_VPEND = bit s Fld.SCHED_STATUS_VPEND ∧
      rd t Reg.SCHED_ROUNDS = 0 ∧ bit t Fld.SCHED_EVENT_ENGINE_START = true ∧ t.sched.startDue = false ∧
      t.sched.phase = Vector.replicate 16 0 ∧ t.time.thetaG = 0 ∧ t.time.gfreq = vwVal (rd s Reg.PLL_WFF) ∧ SameMemory s t) ∧
  (∀ s : State, (s.sched.startDue = false ∨ s.trust.inert = true ∨ s.time.take = true ∨ s.time.round ≠ 0 ∨
      stateRuns (devState s) = false) → exec .engineStart s = .next s) ∧
  ∀ s : State, AnswersNext (exec .qdropClr s) fun t =>
    rd t Reg.SCHED_QDROP = 0 ∧ SameBits [wholeReg Reg.SCHED_QDROP] s t ∧ t = { s with live := t.live }

/-- R79 (NOP), R527 (words that do not act), R80, R82, R101 and R138 (READ and MEAS), R160 (the foldback form of READ): results and frames; R99 and R100: SAMPLE, accepted and ignored. -/
def Obligations.NopAndMeasurementWords : Prop :=
  (∀ (s : State) (l : LaneFields) (f : Nat), exec (.nop l f) s = .next s) ∧
  (∀ (s : State) (l : LaneFields) (f : Nat),
    (laneActs s 0x01 l = false → exec (.sample l f) s = .next s) ∧ (laneActs s 0x02 l = false → exec (.read l f) s = .next s) ∧
    (laneActs s 0x03 l = false → exec (.meas l f) s = .next s) ∧ (laneActs s 0x08 l = false → exec (.passE l f) s = .next s) ∧
    (laneActs s 0x09 l = false → exec (.passP l f) s = .next s) ∧ (laneActs s 0x0A l = false → exec (.passI l f) s = .next s) ∧
    (laneActs s 0x0B l = false → exec (.passD l f) s = .next s) ∧ (laneActs s 0x0C l = false → exec (.passSum l f) s = .next s) ∧
    (laneActs s 0x0D l = false → exec (.region l f) s = .next s) ∧ (laneActs s 0x10 l = false → exec (.commit l f) s = .next s) ∧
    (laneActs s 0x11 l = false → exec (.thresh l f) s = .next s) ∧ (laneActs s 0x12 l = false → exec (.target l f) s = .next s)) ∧
  (∀ (s : State) (l : LaneFields) (f : Nat) (n : Fin 64), laneActs s 0x02 l = true → l.argBits 13 1 = 0 →
    ctxLoop s l.ctx.toNat = some n.val → AnswersNext (exec (.read l f) s) fun t =>
      Delivers (s.loops.get n).y (t.loops.get n).y (absFret s f) 4 (vwOf (sampleVal s l.port.toNat (l.argBits 0 2))) ∧
      rd t (Reg.LOOP_Y n) = vwOf (sampleVal s l.port.toNat (l.argBits 0 2)) ∧ OtherLoops n s t ∧
      SameBits [wholeReg (Reg.LOOP_Y n)] s t ∧ t = { s with live := t.live, loops := t.loops }) ∧
  (∀ (s : State) (l : LaneFields) (f : Nat), laneActs s 0x02 l = true → l.argBits 13 1 = 1 →
    AnswersNext (exec (.read l f) s) fun t =>
      Delivers (s.ports.get l.port.toFin).foldback (t.ports.get l.port.toFin).foldback (absFret s f) 4
        (if bit s (Fld.PORT_SAMP_VO_STALE l.port.toNat) then 0 else fget s (Fld.PORT_SAMP_VO_CODE l.port.toNat)) ∧
      OtherPorts l.port.toFin s t ∧ t = { s with ports := t.ports }) ∧
  (∀ (s : State) (l : LaneFields) (f : Nat) (n : Fin 64), laneActs s 0x03 l = true → ctxLoop s l.ctx.toNat = some n.val →
    AnswersNext (exec (.meas l f) s) fun t =>
      Delivers (s.loops.get n).y (t.loops.get n).y (absFret s f) 4 (rd t (Reg.LOOP_Y n)) ∧
      rd t (Reg.LOOP_Y n) = signal (latchEvals s f) (l.argBits 0 12) f (outFret (latchEvals s f) n f) ∧
      OtherLoops n (latchEvals s f) t ∧ (t.loops.get n).ev = ((latchEvals s f).loops.get n).ev ∧
      SameRegsOutside (fun a => decide (0x18000 ≤ a ∧ a < 0x20000)) s t ∧ t = { s with live := t.live, loops := t.loops }) ∧
  (∀ (s : State) (l : LaneFields) (f : Nat), ctxLoop s l.ctx.toNat = none →
    (laneActs s 0x02 l = true → l.argBits 13 1 = 0 → exec (.read l f) s = .next s) ∧
    (laneActs s 0x03 l = true → exec (.meas l f) s = .next (latchEvals s f))) ∧
  (∀ (s : State) (l : LaneFields) (f : Nat), laneActs s 0x01 l = true →
    (∀ k, (s.ports.get l.port.toFin).strobe = some k → k + adcSpacing s ≤ absFret s f) →
    AnswersNext (exec (.sample l f) s) fun t =>
      (t.ports.get l.port.toFin).strobe = some (absFret s f) ∧ (t.ports.get l.port.toFin).conv = some (l.argBits 0 2) ∧
      OtherPorts l.port.toFin s t ∧ SameRegsOutside (fun a => decide (0x18000 ≤ a ∧ a < 0x20000)) s t ∧
      t = { s with live := t.live, loops := (latchEvals s f).loops, ports := t.ports }) ∧
  ∀ (s : State) (l : LaneFields) (f k : Nat), laneActs s 0x01 l = true →
    (s.ports.get l.port.toFin).strobe = some k → absFret s f < k + adcSpacing s →
    AnswersNext (exec (.sample l f) s) fun t =>
      t.ports = s.ports ∧ t.loops = (latchEvals s f).loops ∧ bit t (Fld.PORT_EVENT_ADC_BUSY l.port.toNat) = true ∧
      fget t (Fld.PORT_CNT_ADC_BUSY_CNT l.port.toNat) = min (fget s (Fld.PORT_CNT_ADC_BUSY_CNT l.port.toNat) + 1) 65535 ∧
      CorrectedReported s t 0x0102 ∧ SameMemory s t

/-- R425: the bins of temperature residency; temperatures are held in 1/16 °C (`degC`). -/
def Obligations.LedgerTemperatureBins : Prop :=
  ∀ T : Int, (tempBin T = 0 ↔ T < degC (-30)) ∧
    (∀ k : Nat, 1 ≤ k → k ≤ 14 → (tempBin T = k ↔ degC (-30 + 10 * ((k : Int) - 1)) ≤ T ∧ T < degC (-30 + 10 * (k : Int)))) ∧
    (tempBin T = 15 ↔ degC 110 ≤ T)

/-- R80, R131, R134, R135, R139 to R145, R151 and R529: the five passes of a loop, both slots, in every state. The model's readings: no g in HOLD and MAN (log entry 142), rounding before the clip, with the flags judged on the rounded value (log entry 145), r_eff rounded once (log entry 144), x as the exact negation of e (log entry 21), P and D formed anew for tracking (log entry 20), one count for two saturations of a pass (log entry 169). -/
def Obligations.LoopPassesDeliverTheirResults : Prop :=
  (∀ (s : State) (l : LaneFields) (f : Nat), ctxLoop s l.ctx.toNat = none →
    (laneActs s 0x08 l = true → exec (.passE l f) s = .next s) ∧ (laneActs s 0x09 l = true → exec (.passP l f) s = .next s) ∧
    (laneActs s 0x0A l = true → exec (.passI l f) s = .next s) ∧ (laneActs s 0x0B l = true → exec (.passD l f) s = .next s) ∧
    (laneActs s 0x0C l = true → exec (.passSum l f) s = .next s)) ∧
  (∀ (s : State) (l : LaneFields) (f : Nat) (n : Fin 64), laneActs s 0x08 l = true → ctxLoop s l.ctx.toNat = some n.val →
    let c := s.loops.get n
    let re := vwRound (emax s n) (shareAndCap s n (absFret s f) (baseRef s n f))
    let tr := Term.ofVw re.1
    let ty := Term.ofVw (c.y.get (absFret s f))
    let sum := passSum [signTerm s n tr, signTerm s n ty.neg]
    let ex := if bit s (Fld.LOOP_CFG_DMODE n) then vwRound2 (emax s n) sum (sumAt (maxLsb [tr, ty]) [signTerm s n ty])
      else vwRoundNeg (emax s n) sum
    (bit s (Fld.LOOP_CFG_DMODE n) = false → ex.2.2 = false → vwVal ex.2.1 = -vwVal ex.1) ∧
    AnswersNext (exec (.passE l f) s) fun t =>
      Delivers c.rEff (t.loops.get n).rEff (absFret s f) 8 re.1 ∧ Delivers c.e (t.loops.get n).e (absFret s f) 8 ex.1 ∧
      Delivers c.x (t.loops.get n).x (absFret s f) 8 ex.2.1 ∧ (t.loops.get n).ePrev = c.e.cur ∧ (t.loops.get n).xPrev = c.x.cur ∧
      (t.loops.get n).dPrev = c.d.cur ∧ (t.loops.get n).uPrev = c.u.cur ∧ (t.loops.get n).ev = c.ev ∧
      rd t (Reg.LOOP_R n) = re.1 ∧ rd t (Reg.LOOP_E n) = ex.1 ∧ OtherLoops n s t ∧
      ((re.2 || ex.2.2) = true → bit t (Fld.LOOP_EVENT_OVF n) = true ∧ fbit t Fld.FAULT_CORR_BLK 1 = true) ∧
      ((re.2 || ex.2.2) = false → SameBits [wholeReg (Reg.LOOP_R n), wholeReg (Reg.LOOP_E n)] s t ∧ t.fault = s.fault ∧ t.saddle = s.saddle) ∧
      t = { s with live := t.live, loops := t.loops, fault := t.fault, saddle := t.saddle }) ∧
  (∀ (s : State) (l : LaneFields) (f : Nat) (n : Fin 64), laneActs s 0x09 l = true → ctxLoop s l.ctx.toNat = some n.val →
    let p := vwRound (emax s n) (passSum [Term.prod (coef s n 0) ((s.loops.get n).e.get (absFret s f))])
    AnswersNext (exec (.passP l f) s) fun t =>
      Delivers (s.loops.get n).p (t.loops.get n).p (absFret s f) 8 p.1 ∧ rd t (Reg.LOOP_P n) = p.1 ∧ OtherLoops n s t ∧
      (p.2 = true → bit t (Fld.LOOP_EVENT_OVF n) = true ∧ CorrectedReported s t 0x0201) ∧
      (p.2 = false → SameBits [wholeReg (Reg.LOOP_P n)] s t ∧ t.fault = s.fault ∧ t.saddle = s.saddle) ∧
      t = { s with live := t.live, loops := t.loops, fault := t.fault, saddle := t.saddle }) ∧
  (∀ (s : State) (l : LaneFields) (f : Nat) (n : Fin 64), laneActs s 0x0B l = true → ctxLoop s l.ctx.toNat = some n.val →
    let c := s.loops.get n
    (l.argBits 0 1 = 0 → exec (.passD l f) s = .next (setLoop s n fun x => { x with
      dSum := passSum [Term.prod (coef s n 12) c.dPrev, Term.prod (coef s n 8) c.xPrev,
        (Term.prod (coef s n 8) (c.x.get (absFret s f))).neg]
      dAt := absFret s f })) ∧
    (l.argBits 0 1 = 1 → AnswersNext (exec (.passD l f) s) fun t =>
      Delivers c.d (t.loops.get n).d c.dAt 8 (vwRound (emax s n) c.dSum).1 ∧
      rd t (Reg.LOOP_D n) = (vwRound (emax s n) c.dSum).1 ∧ OtherLoops n s t ∧
      ((vwRound (emax s n) c.dSum).2 = true → bit t (Fld.LOOP_EVENT_OVF n) = true ∧ CorrectedReported s t 0x0201) ∧
      ((vwRound (emax s n) c.dSum).2 = false → SameBits [wholeReg (Reg.LOOP_D n)] s t ∧ t.fault = s.fault ∧ t.saddle = s.saddle) ∧
      t = { s with live := t.live, loops := t.loops, fault := t.fault, saddle := t.saddle })) ∧
  (∀ (s : State) (l : LaneFields) (f : Nat) (n : Fin 64), laneActs s 0x0A l = true → ctxLoop s l.ctx.toNat = some n.val →
    l.argBits 0 1 = 0 →
    let c := s.loops.get n
    let due : Option Int := match c.ev.state, c.ev.preset with
      | .hold, _ => some (trackValue s n (absFret s f) c.ev.hold)
      | .man, _ => some (trackValue s n (absFret s f) c.ev.uman)
      | _, some v => some (presetValue s n v)
      | _, none => if c.ev.due then some (presetValue s n c.uPrev)
        else if c.ev.first then some (toMi (eiOf s n) (vwVal c.ev.hold)) else none
    AnswersNext (exec (.passI l f) s) fun t =>
      (∀ v, due = some v → (t.loops.get n).iBase = clipI v (miLimits s n).1 (miLimits s n).2 ∧
        bit t (Fld.LOOP_STATUS_PRESET_CLIP n) = (clipI v (miLimits s n).1 (miLimits s n).2 != v) ∧
        (clipI v (miLimits s n).1 (miLimits s n).2 ≠ v → bit t (Fld.LOOP_EVENT_PRESET_CLIP n) = true)) ∧
      (due = none → (t.loops.get n).iBase = c.mi.get (absFret s f) ∧ t.live = s.live) ∧
      (t.loops.get n).iAt = absFret s f ∧ (t.loops.get n).mi = c.mi ∧ OtherLoops n s t ∧
      SameBits [Fld.LOOP_STATUS_PRESET_CLIP n, Fld.LOOP_EVENT_PRESET_CLIP n] s t ∧ t = { s with live := t.live, loops := t.loops }) ∧
  (∀ (s : State) (l : LaneFields) (f : Nat) (n : Fin 64), laneActs s 0x0A l = true → ctxLoop s l.ctx.toNat = some n.val →
    l.argBits 0 1 = 1 →
    let c := s.loops.get n
    let g := toMi (eiOf s n) (vwVal (coef s n 4) * vwVal (c.e.get c.iAt))
    let frozen := c.ev.state == .auto && ((c.limH.get c.iAt && decide (0 < g)) || (c.limL.get c.iAt && decide (g < 0)))
    let i := clipI (c.iBase + if c.ev.state == .auto && !frozen then g else 0) (miLimits s n).1 (miLimits s n).2
    AnswersNext (exec (.passI l f) s) fun t =>
      Delivers c.mi (t.loops.get n).mi c.iAt 8 i ∧ rd t (Reg.LOOP_I n) = BitVec.ofInt 32 i ∧
      bit t (Fld.LOOP_STATUS_IFROZEN n) = frozen ∧ OtherLoops n s t ∧
      SameBits [wholeReg (Reg.LOOP_I n), Fld.LOOP_STATUS_IFROZEN n] s t ∧ t = { s with live := t.live, loops := t.loops }) ∧
  ∀ (s : State) (l : LaneFields) (f : Nat) (n : Fin 64), laneActs s 0x0C l = true → ctxLoop s l.ctx.toNat = some n.val →
    let c := s.loops.get n
    (l.argBits 0 1 = 0 → exec (.passSum l f) s = .next (setLoop s n fun x => { x with
      sSum := passSum [Term.ofVw (c.p.get (absFret s f)), Term.ofMi (c.mi.get (absFret s f)) (eiOf s n), Term.ofVw (c.d.get (absFret s f))]
      sAt := absFret s f })) ∧
    (l.argBits 0 1 = 1 →
      let r := vwRound (emax s n) (match c.ev.state with | .man => vwVal c.ev.uman | .hold => vwVal c.ev.hold | _ => c.sSum)
      let lo := vwVal (evalWord s n 0x004)
      let hi := vwVal (evalWord s n 0x008)
      let u := vwRound (emax s n) (clipR (vwVal r.1) lo hi)
      AnswersNext (exec (.passSum l f) s) fun t =>
        Delivers c.u (t.loops.get n).u c.sAt 8 u.1 ∧ rd t (Reg.LOOP_U n) = u.1 ∧
        Delivers c.limH (t.loops.get n).limH c.sAt 8 (decide (hi < vwVal r.1)) ∧
        Delivers c.limL (t.loops.get n).limL c.sAt 8 (decide (vwVal r.1 < lo)) ∧
        bit t (Fld.LOOP_STATUS_LIMH n) = decide (hi < vwVal r.1) ∧ bit t (Fld.LOOP_STATUS_LIML n) = decide (vwVal r.1 < lo) ∧
        (hi < vwVal r.1 → bit s (Fld.LOOP_STATUS_LIMH n) = false → bit t (Fld.LOOP_EVENT_LIMIT n) = true) ∧
        (vwVal r.1 < lo → bit s (Fld.LOOP_STATUS_LIML n) = false → bit t (Fld.LOOP_EVENT_LIMIT n) = true) ∧
        OtherLoops n s t ∧ (c.ev.preset = none → t.capo = s.capo) ∧
        ((r.2 || u.2) = true → bit t (Fld.LOOP_EVENT_OVF n) = true ∧ CorrectedReported s t 0x0201) ∧
        ((r.2 || u.2) = false → t.fault = s.fault ∧ t.saddle = s.saddle ∧ SameBits [wholeReg (Reg.LOOP_U n), Fld.LOOP_STATUS_LIMH n,
          Fld.LOOP_STATUS_LIML n, Fld.LOOP_EVENT_LIMIT n] s t) ∧
        t = { s with live := t.live, loops := t.loops, capo := t.capo, fault := t.fault, saddle := t.saddle })

/-- R112 and R156 to R158 (COMMIT, TARGET), R178 and R180 (thresholds), R160 (THRESH) and R150 (REGION). -/
def Obligations.LoopOutputsReachTheirTargets : Prop :=
  (∀ (s : State) (l : LaneFields) (f : Nat), ctxLoop s l.ctx.toNat = none →
    (laneActs s 0x10 l = true → exec (.commit l f) s = .next s) ∧ (laneActs s 0x12 l = true → exec (.target l f) s = .next s) ∧
    (laneActs s 0x0D l = true → exec (.region l f) s = .next s)) ∧
  (∀ (s : State) (l : LaneFields) (f : Nat) (n : Fin 64), laneActs s 0x10 l = true → ctxLoop s l.ctx.toNat = some n.val →
    let q := commitValue (l.argBits 0 4) (vwVal ((s.loops.get n).u.get (absFret s f)))
    AnswersNext (exec (.commit l f) s) fun t =>
      (∀ k : Fin 5, l.argBits 0 4 = k.val →
        Delivers ((s.ports.get l.port.toFin).shadow.get k) ((t.ports.get l.port.toFin).shadow.get k) (64 * absFret s f) 64 q.1 ∧
        (∀ j, j ≠ k → (t.ports.get l.port.toFin).shadow.get j = (s.ports.get l.port.toFin).shadow.get j) ∧ t.cmps = s.cmps ∧
        SameBits [Fld.LOOP_Q_Q n, Fld.LOOP_STATUS_QSAT n, Fld.LOOP_EVENT_QSAT n] s t) ∧
      (∀ c : Fin 4, l.argBits 0 4 = 5 + c.val →
        Delivers (cmpOf s l.port.toFin c).shHi (cmpOf t l.port.toFin c).shHi (64 * absFret s f) 64 q.1.toNat ∧
        fget t (Fld.CMP_THR_HI l.port.toNat c) = q.1.toNat ∧ t.ports = s.ports ∧
        SameBits [Fld.LOOP_Q_Q n, Fld.LOOP_STATUS_QSAT n, Fld.LOOP_EVENT_QSAT n, Fld.CMP_THR_HI l.port.toNat c] s t) ∧
      fget t (Fld.LOOP_Q_Q n) = ofSigned 24 q.1 ∧ bit t (Fld.LOOP_STATUS_QSAT n) = q.2 ∧
      (q.2 = true → bit t (Fld.LOOP_EVENT_QSAT n) = true) ∧
      t.loops.get n = { s.loops.get n with qSigned := l.argBits 0 4 == 2 || l.argBits 0 4 == 3 } ∧ OtherLoops n s t ∧
      OtherPorts l.port.toFin s t ∧ t = { s with live := t.live, ports := t.ports, loops := t.loops, cmps := t.cmps }) ∧
  (∀ (s : State) (l : LaneFields) (f : Nat) (n m : Fin 64), laneActs s 0x12 l = true → ctxLoop s l.ctx.toNat = some n.val →
    (l.argBits 0 8 = m.val → AnswersNext (exec (.target l f) s) fun t =>
      Delivers (s.loops.get m).refIn (t.loops.get m).refIn (absFret s f) 1 ((s.loops.get n).u.get (absFret s f)) ∧
      OtherLoops m s t ∧ t = { s with loops := t.loops }) ∧
    (l.argBits 0 8 = 64 + m.val → AnswersNext (exec (.target l f) s) fun t =>
      Delivers (s.capo.tk.get m) (t.capo.tk.get m) (absFret s f) 1 (some ((s.loops.get n).u.get (absFret s f))) ∧
      (∀ k, k ≠ m → t.capo.tk.get k = s.capo.tk.get k) ∧ t = { s with capo := { s.capo with tk := t.capo.tk } })) ∧
  (∀ (s : State) (l : LaneFields) (f : Nat), laneActs s 0x11 l = true →
    let v := (s.ports.get l.port.toFin).foldback.get (absFret s f)
    (l.argBits 0 1 = 0 → AnswersNext (exec (.thresh l f) s) fun t =>
      Delivers (s.ports.get l.port.toFin).segment (t.ports.get l.port.toFin).segment (absFret s f) 4 (foldSegment s l.port.toNat v) ∧
      OtherPorts l.port.toFin s t ∧ t = { s with ports := t.ports }) ∧
    (l.argBits 0 1 = 1 → AnswersNext (exec (.thresh l f) s) fun t =>
      let q := (foldThreshold s l.port.toNat v ((s.ports.get l.port.toFin).segment.get (absFret s f))).toNat
      fget t (Fld.CMP_THR_HI l.port.toNat 0) = q ∧
      Delivers (cmpOf s l.port.toFin 0).shHi (cmpOf t l.port.toFin 0).shHi (64 * absFret s f) 64 q ∧
      SameBits [Fld.CMP_THR_HI l.port.toNat 0] s t ∧ t = { s with live := t.live, cmps := t.cmps })) ∧
  ∀ (s : State) (l : LaneFields) (f : Nat) (n : Fin 64), laneActs s 0x0D l = true → ctxLoop s l.ctx.toNat = some n.val →
    (bit s (Fld.LOOP_SRC_GS n) = false → exec (.region l f) s = .next s) ∧
    (bit s (Fld.LOOP_SRC_GS n) = true →
      let z := signal s (fget s (Fld.LOOP_SRC_ZSRC n)) f (outFret s n f)
      let h := if (s.loops.get n).firstRegion then 0 else vwVal (evalWord s n 0x01C)
      AnswersNext (exec (.region l f) s) fun t =>
        t.loops.get n = { s.loops.get n with
          cand := some (regionOf (vwVal z) h (fun k => vwVal (evalWord s n (0x00C + 4 * k))) (s.loops.get n).region)
          firstRegion := false } ∧
        rd t (Reg.LOOP_Z n) = z ∧ OtherLoops n s t ∧ SameBits [wholeReg (Reg.LOOP_Z n)] s t ∧ t = { s with live := t.live, loops := t.loops })

/-- R148, R149 (mode and UMAN), R86 and R166 (the shadow bank and LOOP_CTRL): host commands of a loop. -/
def Obligations.LoopHostWritesAndModes : Prop :=
  (∀ (s : State) (n : Fin 64) (v : Word), AnswersNext (exec (.loopModeWrite n v) s) fun t =>
    fget t (Fld.LOOP_MODE_MAN n) = getBits v 0 1 ∧ fget t (Fld.LOOP_MODE_LOAD_U n) = getBits v 1 1 ∧
    bit t (Fld.LOOP_STATUS_MAN_PEND n) = true ∧ t.loops.get n = { s.loops.get n with modePend := true } ∧ OtherLoops n s t ∧
    SameBits [Fld.LOOP_MODE_MAN n, Fld.LOOP_MODE_LOAD_U n, Fld.LOOP_STATUS_MAN_PEND n] s t ∧
    t = { s with live := t.live, loops := t.loops }) ∧
  (∀ (s : State) (n : Fin 64) (v : Word), vwReserved v = false → AnswersNext (exec (.loopUmanWrite n v) s) fun t =>
    rd t (Reg.LOOP_UMAN n) = v ∧ t.loops.get n = { s.loops.get n with umanPend := true } ∧ OtherLoops n s t ∧
    SameBits [wholeReg (Reg.LOOP_UMAN n)] s t ∧ t = { s with live := t.live, loops := t.loops }) ∧
  (∀ (s : State) (n : Fin 64) (v : Word), vwReserved v = true → exec (.loopUmanWrite n v) s = .next s) ∧
  (∀ (s : State) (n : Fin 64), (s.loops.get n).modePend = false → (s.loops.get n).umanPend = false →
    exec (.loopModeApply n) s = .next s) ∧
  (∀ (s : State) (n : Fin 64), (s.loops.get n).modePend = false → (s.loops.get n).umanPend = true →
    exec (.loopModeApply n) s = .next (setLoop s n fun c => { c with uman := rd s (Reg.LOOP_UMAN n), umanPend := false })) ∧
  (∀ (s : State) (n : Fin 64), (s.loops.get n).modePend = true → AnswersNext (exec (.loopModeApply n) s) fun t =>
    (t.loops.get n).man = bit s (Fld.LOOP_MODE_MAN n) ∧ (t.loops.get n).modePend = false ∧
    bit t (Fld.LOOP_STATUS_MAN_PEND n) = false ∧ bit t (Fld.LOOP_EVENT_MODE_DONE n) = true ∧ OtherLoops n s t ∧
    (t.loops.get n).umanPend = false ∧ rd t (Reg.LOOP_UMAN n) = (if bit s (Fld.LOOP_MODE_MAN n) && !(s.loops.get n).man &&
      bit s (Fld.LOOP_MODE_LOAD_U n) && !(s.loops.get n).umanPend then (s.loops.get n).u.cur else rd s (Reg.LOOP_UMAN n)) ∧
    (((s.loops.get n).umanPend = true ∨ (bit s (Fld.LOOP_MODE_MAN n) = true ∧ (s.loops.get n).man = false ∧
      bit s (Fld.LOOP_MODE_LOAD_U n) = true)) → (t.loops.get n).uman = rd t (Reg.LOOP_UMAN n)) ∧
    SameBits [wholeReg (Reg.LOOP_UMAN n), Fld.LOOP_STATUS_MAN_PEND n, Fld.LOOP_EVENT_MODE_DONE n] s t ∧
    t = { s with live := t.live, loops := t.loops }) ∧
  (∀ (s : State) (n w : Fin 64) (v : Word), swapPending s n = false → vwReserved v = false → w.val < 24 →
    AnswersNext (exec (.loopShadowWrite n w v) s) fun t =>
      bankWord t n (1 - activeBank s n) (4 * w) = v ∧
      (∀ o, (o < 0x60000 + n * 0x400 + (1 - activeBank s n) * 0x200 + 4 * w ∨
        0x60000 + n * 0x400 + (1 - activeBank s n) * 0x200 + 4 * w + 4 ≤ o) → engByte t o = engByte s o) ∧
      t = { s with engMem := t.engMem }) ∧
  (∀ (s : State) (n w : Fin 64) (v : Word), swapPending s n = true → AnswersNext (exec (.loopShadowWrite n w v) s) fun t =>
    bit t Fld.SCHED_EVENT_SHADOW_BUSY = true ∧ SameBits [Fld.SCHED_EVENT_SHADOW_BUSY] s t ∧ t = { s with live := t.live }) ∧
  (∀ (s : State) (n w : Fin 64) (v : Word), swapPending s n = false → (vwReserved v = true ∨ 24 ≤ w.val) →
    exec (.loopShadowWrite n w v) s = .next s) ∧
  ∀ (s : State) (n : Fin 64), AnswersNext (exec (.loopCntClr n) s) fun t =>
    rd t (Reg.LOOP_CNT n) = 0 ∧ SameBits [wholeReg (Reg.LOOP_CNT n)] s t ∧ t = { s with live := t.live }

/-- R80, R97, R99, R101, R102 and R103 (ADC_CONV_DONE) and R130 (PORT_CNT_CLR). -/
def Obligations.ConversionsDeliverClippedCodes : Prop :=
  (∀ (s : State) (p : Fin 32) (c1 c2 : Int) (f c k : Nat), (s.ports.get p).conv = some c → (s.ports.get p).strobe = some k →
    k + adcSpacing s ≤ absFret s f →
    let lo : Int := if c = 0 then -8192 else 0
    let hi : Int := if c = 0 then 8191 else 16383
    let mean : Int := if s.time.cfg.profile = 1 then (clipI c1 lo hi + clipI c2 lo hi + 1).fdiv 2 else clipI c1 lo hi
    AnswersNext (exec (.adcConvDone ⟨p, f⟩ c1 c2) s) fun t =>
      fget t ⟨sampReg p c, 0, 14⟩ = ofSigned 14 (clipI (adcTrimmed s p mean) lo hi) ∧
      (rd s (Reg.PORT_TRIM p) = 0 → fget t ⟨sampReg p c, 0, 14⟩ = ofSigned 14 mean) ∧
      fget t ⟨sampReg p c, 14, 1⟩ = 0 ∧ fget t ⟨sampReg p c, 16, 16⟩ = (fget s ⟨sampReg p c, 16, 16⟩ + 1) % 2 ^ 16 ∧
      (adcOver s c c1 c2 = true → fget t ⟨sampReg p c, 15, 1⟩ = 1 ∧ bit t (Fld.PORT_EVENT_ADC_OVR p) = true) ∧
      (adcOver s c c1 c2 = false → fget t ⟨sampReg p c, 15, 1⟩ = 0 ∧ SameBits [wholeReg (sampReg p c)] s t) ∧
      (t.ports.get p).conv = none ∧ OtherPorts p s t ∧
      SameBits [wholeReg (sampReg p c), Fld.PORT_EVENT_ADC_OVR p] s t ∧ t = { s with live := t.live, ports := t.ports }) ∧
  (∀ (s : State) (c : Nat) (c1 c2 : Int), (s.time.cfg.profile ≠ 1) →
    (adcOver s c c1 c2 = true ↔ c1 ≤ (if c = 0 then -8192 else 0) ∨ (if c = 0 then 8191 else 16383) ≤ c1)) ∧
  (∀ (s : State) (p : Fin 32) (c1 c2 : Int) (f : Nat),
    (∀ c k, (s.ports.get p).conv = some c → (s.ports.get p).strobe = some k → absFret s f < k + adcSpacing s) →
    exec (.adcConvDone ⟨p, f⟩ c1 c2) s = .next s) ∧
  ∀ (s : State) (p : Fin 32), AnswersNext (exec (.portCntClr p) s) fun t =>
    rd t (Reg.PORT_CNT p) = 0 ∧ SameBits [wholeReg (Reg.PORT_CNT p)] s t ∧ t = { s with live := t.live }

/-- R109, invariant 1: the two outputs of a pair are never high at the same time; kept by every command. -/
def Obligations.GatePairsAreNeverBothOn : Prop :=
  ∀ s : State, PairsApart s →
    (∀ (c : Instr) (t : State), exec c s = .next t → PairsApart t) ∧
    (∀ (p : Fin 32) (g : Gate), AnswersNext (exec (.pwmEdge p g) s) PairsApart) ∧
    (∀ (p : Fin 32) (g : Gate), AnswersNext (exec (.deadTimeTurnOn p g) s) PairsApart) ∧
    (∀ (p : Fin 32) (n : Nat), AnswersNext (exec (.updatePoint p n) s) PairsApart) ∧
    ∀ (p : Fin 32) (n : Nat), AnswersNext (exec (.carrierStart p n) s) PairsApart

/-- R108 to R110, R112 and R528: PWM_EDGE and DEAD_TIME_TURN_ON. That a deferred turn-off and a pending turn-on follow the pair's new command at once is the model's reading (log entry 132). -/
def Obligations.GateEdgesAndDeadTime : Prop :=
  (∀ (s : State) (p : Fin 32) (g : Gate) (pos : Nat), edgeAhead s p g = some pos → pos < (s.ports.get p).carLen →
    (gateOf s p g).cmd = true → (gateOf s p g.compl).cmd = false →
    let k := (s.ports.get p).carStart + pos
    let u := settleGates s p k
    let early := (gateOf u p g).onAt + minPulse s
    AnswersNext (exec (.pwmEdge p g) s) fun t =>
      (gateOf t p g).done = true ∧ (gateOf t p g).rise = none ∧ (gateOf t p g).cmd = false ∧ (gateOf t p g.compl).cmd = true ∧
      (gateOf t p g.compl).high = (gateOf u p g.compl).high ∧
      (((gateOf u p g).high = false ∨ early ≤ k) →
        (gateOf t p g).high = false ∧ (gateOf t p g).fall = none ∧ ((gateOf u p g).high = true → (gateOf t p g).offAt = k) ∧
        (gateOf t p g.compl).rise = if (gateOf u p g.compl).high then none else some (k + deadTime s p g.compl)) ∧
      ((gateOf u p g).high = true → k < early →
        (gateOf t p g).high = true ∧ (gateOf t p g).fall = some early ∧ bit t (Fld.PORT_EVENT_STRETCH p) = true ∧
        (gateOf t p g.compl).rise = if (gateOf u p g.compl).high then none else some (early + deadTime s p g.compl)) ∧
      OtherPorts p s t ∧ (∀ q, q ≠ p → t.cmps.get q = s.cmps.get q) ∧
      SameRegsOutside (fun a => a == Reg.PORT_EVENT p || (List.range 4).any fun c => a == Reg.CMP_STATUS p c) s t ∧
      t = { s with live := t.live, ports := t.ports, cmps := t.cmps, test := t.test }) ∧
  (∀ (s : State) (p : Fin 32) (g : Gate) (pos : Nat), edgeAhead s p g = some pos → pos < (s.ports.get p).carLen →
    (gateOf s p g).cmd = false → exec (.pwmEdge p g) s = .next (setGate s p g fun x => { x with done := true })) ∧
  (∀ (s : State) (p : Fin 32) (g : Gate), (∀ pos, edgeAhead s p g = some pos → (s.ports.get p).carLen ≤ pos) →
    exec (.pwmEdge p g) s = .next s) ∧
  (∀ (s : State) (p : Fin 32) (g : Gate) (k : Nat), (gateOf s p g).rise = some k →
    let u := settleGates s p k
    ((gateOf u p g.compl).high = true → exec (.deadTimeTurnOn p g) s = .next u) ∧
    ((gateOf u p g.compl).high = false → (gateOf u p g).high = true →
      exec (.deadTimeTurnOn p g) s = .next (setGate u p g fun x => { x with rise := none })) ∧
    ((gateOf u p g.compl).high = false → (gateOf u p g).high = false → AnswersNext (exec (.deadTimeTurnOn p g) s) fun t =>
      (gateOf t p g).high = true ∧ (gateOf t p g).onAt = k ∧ (gateOf t p g).rise = none ∧
      (gateOf t p g.compl).high = false ∧ OtherPorts p s t ∧ (∀ q, q ≠ p → t.cmps.get q = s.cmps.get q) ∧
      SameRegsOutside (fun a => (List.range 4).any fun c => a == Reg.CMP_STATUS p c) s t ∧
      t = { s with live := t.live, ports := t.ports, cmps := t.cmps, test := t.test })) ∧
  ∀ (s : State) (p : Fin 32) (g : Gate), (gateOf s p g).rise = none → exec (.deadTimeTurnOn p g) s = .next s

/-- R105 to R107, R115, R117, R118 (CARRIER_START) and R111 to R113, R180, R181 (UPDATE_POINT). That the fixed P/2 on-times are not clamped is the model's choice (log entry 140); that SHIFT_PORT moves no update point is its reading (log entry 132), as is the carrier of an unused port (log entry 170). -/
def Obligations.CarriersAndUpdatePoints : Prop :=
  (∀ (s : State) (p : Fin 32) (n : Nat), engineRuns s = true → carrierDue s p n = true →
    let at_ := 64 * s.time.base + n
    let per := if isFree s p then freePeriod s p (shadowAt s p 4 at_) % 2 ^ 24 else fixedPeriod s p
    AnswersNext (exec (.carrierStart p n) s) fun t =>
      (t.ports.get p).carrier = true ∧ (t.ports.get p).carStart = at_ ∧ (t.ports.get p).carPer = per ∧
      (t.ports.get p).carLen = (if isFree s p then per else carrierLength s p n) ∧
      bit t (Fld.PORT_STATUS_SHORT_CYC p) = shortCycle s p ∧ OtherPorts p s t ∧ SameMemory s t ∧
      ((s.ports.get p).active = false → mayStart s p at_ = false → PortLow s p →
        (t.ports.get p).active = false ∧ PortLow t p) ∧
      ((s.ports.get p).active = false → mayStart s p at_ = true →
        (t.ports.get p).active = true ∧ fget t (Fld.PORT_STATUS_STATE p) = 3 ∧ bit t (Fld.PORT_EVENT_ACTIVE_START p) = true)) ∧
  (∀ (s : State) (p : Fin 32) (n : Nat), (engineRuns s = false ∨ carrierDue s p n = false) →
    exec (.carrierStart p n) s = .next s) ∧
  (∀ (s : State) (p : Fin 32) (k : Nat), inertNow s (portCovered s p) p = true → mayStart s p k = false) ∧
  ∀ (s : State) (p : Fin 32) (n : Nat),
    let at_ := 64 * s.time.base + n
    let u := fget s (Fld.PORT_CFG_UPD p)
    let due := (at_ = (s.ports.get p).carStart ∧ (u = 0 ∨ u = 2 ∨ isFree s p = true)) ∨
      (at_ = (s.ports.get p).carStart + (s.ports.get p).carPer / 2 ∧ (u = 1 ∨ u = 2) ∧ isFree s p = false)
    ((engineRuns s = false ∨ (s.ports.get p).carrier = false ∨ ¬ due) → exec (.updatePoint p n) s = .next s) ∧
    (engineRuns s = true → (s.ports.get p).carrier = true → due →
      let per := if isFree s p then freePeriod s p (shadowAt s p 4 at_) else fixedPeriod s p
      let topo := fget s (Fld.PORT_CFG_TOPO p)
      AnswersNext (exec (.updatePoint p n) s) fun t =>
        (∀ c : Fin 4, fget t (Fld.CMP_THR_ACT_HI p c) = (cmpOf s p c).shHi.get at_ % 1024 ∧
          fget t (Fld.CMP_THR_ACT_LO p c) = (if bit s (Fld.CMP_CFG_MIRROR p c) then min (1024 - (cmpOf s p c).shHi.get at_) 1023
            else (cmpOf s p c).shLo) % 1024) ∧
        fget t (Fld.PORT_PERIOD_PERIOD p) = per % 2 ^ 24 ∧
        (portUsed s p = false → fget t (Fld.PORT_ONTIME_A_ONTIME p) = fget s (Fld.PORT_ONTIME_A_ONTIME p)) ∧
        (portUsed s p = true → fget t (Fld.PORT_ONTIME_A_ONTIME p) = (if topo = 5 ∨ topo = 8 ∨ topo = 9 then per / 2
          else (clampOn s p (mainA s p) per (qSteps (shadowAt s p 0 at_) per)).1) % 2 ^ 24) ∧
        OtherPorts p s t ∧ SameMemory s t)

/-- R119, R120 and R184: DRV_FLT_INPUT, DRIVER_FAULT and EN_SETTLE_END. The premise on the standing entry rules out entries of no class, which no report makes (StandingEntriesClearWhenTheirCauseIsGone). -/
def Obligations.DriverEnableAndDriverFault : Prop :=
  (∀ (s : State) (p : Fin 32) (b : Bool) (f : Nat),
    ((s.ports.get p).fltHigh = b → exec (.drvFltInput p b f) s = .next s) ∧
    ((s.ports.get p).fltHigh ≠ b → AnswersNext (exec (.drvFltInput p b f) s) fun t =>
      (t.ports.get p).fltHigh = b ∧ (t.ports.get p).fltFrom = absFret s f ∧
      fltActive t p = (b == bit s (Fld.PORT_DRV_FLT_POL p)) ∧ (fltActive t p = false → bit t (Fld.PORT_STATUS_FLT p) = false) ∧
      (fltActive t p = true → t.live = s.live) ∧ OtherPorts p s t ∧
      SameBits [Fld.PORT_STATUS_FLT p] s t ∧ t = { s with live := t.live, ports := t.ports })) ∧
  (∀ (s : State) (p : Fin 32) (f : Nat),
    (bit s (Fld.PORT_DRV_FLT_USE p) = false ∨ fltPasses s p (absFret s f) = false ∨
      (accepting s p = false ∧ ((s.ports.get p).acceptAt ≠ some (absFret s f) ∨ bit s (Fld.PORT_STATUS_FLT p) = true))) →
    exec (.driverFault p f) s = .next s) ∧
  (∀ (s : State) (p : Fin 32) (f : Nat), bit s (Fld.PORT_DRV_FLT_USE p) = true → fget s (Fld.PORT_DRV_FLT_SCOPE p) = 0 →
    (accepting s p = true ∨ ((s.ports.get p).acceptAt = some (absFret s f) ∧ bit s (Fld.PORT_STATUS_FLT p) = false)) →
    fltPasses s p (absFret s f) = true →
    (∀ e, matchingEntry s 0x0101 1 p = some e → fget s (Fld.FAULT_ENTRY_CODE_CLASS e) = 1) →
    AnswersNext (exec (.driverFault p f) s) fun t =>
      bit t (Fld.PORT_EVENT_DRV_FLT p) = true ∧ bit t (Fld.PORT_STATUS_EN p) = false ∧ PortLow t p ∧
      (t.ports.get p).active = false ∧ SameMemory s t) ∧
  (∀ (s : State) (p : Fin 32) (f : Nat), (∀ k, (s.ports.get p).settle = some k → s.tick < k) →
    exec (.enSettleEnd p f) s = .next s) ∧
  ∀ (s : State) (p : Fin 32) (f k : Nat), (s.ports.get p).settle = some k → k ≤ s.tick →
    AnswersNext (exec (.enSettleEnd p f) s) fun t =>
      (t.ports.get p).settledAt = absFret s f ∧ SameMemory s t ∧
      (bit s (Fld.PORT_STATUS_EN p) = true → (∀ (c : Fin 4) (h : Bool), filterPasses s p c h (absFret s f) = false) →
        (t.ports.get p).settle = none) ∧
      ∀ (c : Fin 4) (h : Bool), filterPasses s p c h (absFret s f) = true → bit t (outFld p c h) = true

/-- R167 to R173, R175 and R184: CMP_CROSSING, CMP_LATCH_SET and CMP_BLANK_END. The premise on the standing entry rules out entries of no class, which no report makes. That a crossing is sampled from the next fret on is the model's reading (log entry 19), as is that the fall of the output is given by the same samples (log entry 23). -/
def Obligations.ComparatorCrossingsAndLatches : Prop :=
  (∀ (s : State) (p : Fin 32) (c : Fin 4) (vp vn : Rat) (f : Nat),
    let v := vp - vn
    let seen : Rat := if c = 0 ∨ c = 3 then 2 / 5 + (2 : Rat) ^ fget s (Fld.PORT_CFG_PGA p) * v else v
    let hyst : Rat := match fget s (Fld.CMP_CFG_HYST p c) with | 0 => 0 | 1 => 5 / 1000 | 2 => 10 / 1000 | _ => 20 / 1000
    let hi : Rat := (fget s (Fld.CMP_THR_ACT_HI p c) : Rat) / 1024 * (8 / 10)
    let lo : Rat := (fget s (Fld.CMP_THR_ACT_LO p c) : Rat) / 1024 * (8 / 10)
    AnswersNext (exec (.cmpCrossing p c vp vn f) s) fun t =>
      (cmpOf t p c).level = v ∧
      ((cmpOf t p c).hi.on = true ↔ hi < seen ∨ ((cmpOf s p c).hi.on = true ∧ hi - hyst ≤ seen)) ∧
      ((cmpOf t p c).lo.on = true ↔ seen < lo ∨ ((cmpOf s p c).lo.on = true ∧ seen ≤ lo + hyst)) ∧
      (cmpOf t p c).hi = (cmpOf s p c).hi.put (cmpOf t p c).hi.on (absFret s f + 1) ∧
      (cmpOf t p c).lo = (cmpOf s p c).lo.put (cmpOf t p c).lo.on (absFret s f + 1) ∧
      (∀ d, d ≠ c → cmpOf t p d = cmpOf s p d) ∧ (∀ q, q ≠ p → t.cmps.get q = s.cmps.get q) ∧
      (∀ h, (sideOf (cmpOf s p c) h) = ⟨false, []⟩ → (cmpOf s p c).blanks = [] → (cmpOf s p c).filtFrom ≤ absFret s f + 1 →
        (sideOf (cmpOf t p c) h).on = true → ∀ k, filterPasses t p c h k =
          (sideOn s p c h && !swept s p && decide (absFret s f + 2 + max (fget s (Fld.CMP_TIME_GF p c)) 1 ≤ k))) ∧
      t = { s with cmps := t.cmps }) ∧
  (∀ (s : State) (p : Fin 32) (c : Fin 4) (h : Bool) (f : Nat),
    let u := settleGates s p (64 * absFret s f)
    let trip := if h then Fld.CMP_EVENT_TRIP_HI p c else Fld.CMP_EVENT_TRIP_LO p c
    (filterPasses u p c h (absFret s f) = false → exec (.cmpLatchSet p c h f) s = .next s) ∧
    (filterPasses u p c h (absFret s f) = true →
      (bit s (latFld p c h) = true ∨ latchAccepted s p c (absFret s f) = false) →
      exec (.cmpLatchSet p c h f) s = .next (fput u (outFld p c h) 1)) ∧
    (filterPasses u p c h (absFret s f) = true → bit s (latFld p c h) = false → latchAccepted s p c (absFret s f) = true →
      (2 ≤ fget s (Fld.CMP_CFG_ACTION p c) → fget s (Fld.CMP_CFG_ACTION p c) ≤ 3 →
        ∀ e, matchingEntry s ((if h then 0x0120 else 0x0121) + 2 * c.val) (fget s (Fld.CMP_CFG_ACTION p c) - 1)
          (if fget s (Fld.CMP_CFG_ACTION p c) = 2 then p.val else courseOf s p) = some e →
          fget s (Fld.FAULT_ENTRY_CODE_CLASS e) = 1) →
      AnswersNext (exec (.cmpLatchSet p c h f) s) fun t =>
        bit t (outFld p c h) = true ∧ bit t (latFld p c h) = true ∧
        fget t (Fld.CMP_CNT_TRIP_CNT p c) = min (fget s (Fld.CMP_CNT_TRIP_CNT p c) + 1) 65535 ∧ bit t trip = true ∧
        SameMemory s t ∧
        (fget s (Fld.CMP_CFG_ACTION p c) = 0 →
          SameBits [outFld p c h, latFld p c h, Fld.CMP_CNT_TRIP_CNT p c, trip] u t ∧ t = { u with live := t.live }) ∧
        (fget s (Fld.CMP_CFG_ACTION p c) = 1 → PortLow t p ∧
          fget t (Fld.CMP_CNT_CBC_CNT p c) = (if (cmpOf s p c).setNow then fget s (Fld.CMP_CNT_CBC_CNT p c)
            else min (fget s (Fld.CMP_CNT_CBC_CNT p c) + 1) 65535) ∧
          (fget s (Fld.CMP_TIME_CBC_ESC p c) = 0 → (cmpOf t p c).setNow = true ∧ t.fault = s.fault ∧
            bit t (Fld.PORT_STATUS_EN p) = bit s (Fld.PORT_STATUS_EN p))) ∧
        (2 ≤ fget s (Fld.CMP_CFG_ACTION p c) → fget s (Fld.CMP_CFG_ACTION p c) ≤ 4 →
          PortLow t p ∧ (t.ports.get p).active = false ∧ bit t (Fld.PORT_STATUS_EN p) = false))) ∧
  ∀ (s : State) (p : Fin 32) (c : Fin 4) (f : Nat),
    (blankEnd (cmpOf s p c) ≤ absFret s f → AnswersNext (exec (.cmpBlankEnd p c f) s) fun t =>
      bit t (Fld.CMP_STATUS_BLANKED p c) = false ∧ SameBits [Fld.CMP_STATUS_BLANKED p c] s t ∧ t = { s with live := t.live }) ∧
    (absFret s f < blankEnd (cmpOf s p c) → exec (.cmpBlankEnd p c f) s = .next s)

/-- R174, R179, R180 and R192: CMP_LATCH_WRITE, CMP_LATCH_CLEAR_APPLY, CMP_THR_WRITE, CMP_THR_SHADOW_APPLY and CMP_CNT_CLR. -/
def Obligations.ComparatorHostWritesWaitForTheirBoundary : Prop :=
  (∀ (s : State) (p : Fin 32) (c : Fin 4) (v : Word), AnswersNext (exec (.cmpLatchWrite p c v) s) fun t =>
    (fget s (Fld.CMP_CFG_ACTION p c) = 0 → bit s (Fld.CMP_CFG_CLR p c) = false →
      (cmpOf t p c).clrHi = ((cmpOf s p c).clrHi || v.getLsbD 0) ∧ (cmpOf t p c).clrLo = ((cmpOf s p c).clrLo || v.getLsbD 1) ∧
      t = { s with cmps := t.cmps }) ∧
    ((fget s (Fld.CMP_CFG_ACTION p c) ≠ 0 ∨ bit s (Fld.CMP_CFG_CLR p c) = true) → t = s)) ∧
  (∀ (s : State) (p : Fin 32) (c : Fin 4), AnswersNext (exec (.cmpLatchClearApply p c) s) fun t =>
    bit t (latFld p c true) = (bit s (latFld p c true) && !((cmpOf s p c).clrHi && !filterPasses s p c true (absFret s 0))) ∧
    bit t (latFld p c false) = (bit s (latFld p c false) && !((cmpOf s p c).clrLo && !filterPasses s p c false (absFret s 0))) ∧
    (cmpOf t p c).clrHi = false ∧ (cmpOf t p c).clrLo = false ∧ SameBits [latFld p c true, latFld p c false] s t ∧
    t = { s with live := t.live, cmps := t.cmps }) ∧
  (∀ (s : State) (p : Fin 32) (c : Fin 4) (v : Word), AnswersNext (exec (.cmpThrWrite p c v) s) fun t =>
    fget t (Fld.CMP_THR_LO p c) = getBits v 0 10 ∧ t = { s with live := t.live, cmps := t.cmps } ∧
    (bit s (Fld.CMP_STATUS_HI_OWNED p c) = true → fget t (Fld.CMP_THR_HI p c) = fget s (Fld.CMP_THR_HI p c) ∧
      bit t (Fld.CMP_EVENT_THR_OWNED p c) = true ∧ (cmpOf t p c).thrPend = some (getBits v 0 10, none)) ∧
    (bit s (Fld.CMP_STATUS_HI_OWNED p c) = false → fget t (Fld.CMP_THR_HI p c) = getBits v 16 10 ∧
      (cmpOf t p c).thrPend = some (getBits v 0 10, some (getBits v 16 10))) ∧
    SameBits [Fld.CMP_THR_LO p c, Fld.CMP_THR_HI p c, Fld.CMP_EVENT_THR_OWNED p c] s t) ∧
  (∀ (s : State) (p : Fin 32) (c : Fin 4) (lo : Nat) (hi : Option Nat), (cmpOf s p c).thrPend = some (lo, hi) →
    AnswersNext (exec (.cmpThrShadowApply p c) s) fun t =>
      (cmpOf t p c).thrPend = none ∧ (cmpOf t p c).shLo = lo ∧
      (∀ h, hi = some h → Delivers (cmpOf s p c).shHi (cmpOf t p c).shHi (64 * s.time.base) 0 h) ∧
      (hi = none → (cmpOf t p c).shHi = (cmpOf s p c).shHi) ∧ t = { s with cmps := t.cmps }) ∧
  (∀ (s : State) (p : Fin 32) (c : Fin 4), (cmpOf s p c).thrPend = none → exec (.cmpThrShadowApply p c) s = .next s) ∧
  ∀ (s : State) (p : Fin 32) (c : Fin 4), AnswersNext (exec (.cmpCntClr p c) s) fun t =>
    rd t (Reg.CMP_CNT p c) = 0 ∧ SameBits [wholeReg (Reg.CMP_CNT p c)] s t ∧ t = { s with live := t.live }

/-- R199 to R201 and R203 (SHARE words) and R204 to R208, R216 (CAPO words): what the ten steps deliver. That every quantity is held as a value word under the exponent ceiling 31 is the model's choice (log entry 6); that results of SHARE words are usable one fret later is its reading (log entry 35), as is the factor 1 where Q is 0 (log entries 38, 150). -/
def Obligations.SharingAndCapSteps : Prop :=
  (∀ (s : State) (l : LaneFields) (f : Nat),
    (capoActs s l 0 = false → exec (.capoTerm l f) s = .next s) ∧ (capoActs s l 1 = false → exec (.capoPower l f) s = .next s) ∧
    (capoActs s l 2 = false → exec (.capoCap l f) s = .next s) ∧ (capoActs s l 3 = false → exec (.capoAlloc l f) s = .next s) ∧
    (capoActs s l 4 = false → exec (.capoWrite l f) s = .next s) ∧ (capoActs s l 5 = false → exec (.capoCtrim l f) s = .next s) ∧
    (capoActs s l 6 = false → exec (.capoHoldup l f) s = .next s) ∧
    ((laneActs s 0x1A l = false ∨ l.arg ≠ 0) → exec (.shareAcc l f) s = .next s) ∧
    ((laneActs s 0x1A l = false ∨ l.arg ≠ 1) → exec (.sharePtrim l f) s = .next s) ∧
    ((laneActs s 0x1A l = false ∨ l.arg ≠ 2 ∨ 64 ≤ fget s (Fld.CAPO_PORT_SLOOP l.port.toNat)) → exec (.shareApply l f) s = .next s) ∧
    (24 ≤ l.argBits 4 6 → exec (.capoTerm l f) s = .next s) ∧ (32 ≤ l.argBits 4 6 → exec (.capoCtrim l f) s = .next s)) ∧
  (∀ (s : State) (l : LaneFields) (f : Nat), capoActs s l 2 = true → AnswersNext (exec (.capoCap l f) s) fun t =>
    Delivers s.capo.cap t.capo.cap (absFret s f) 4 (rd t Reg.CAPO_CAP) ∧
    vwVal (rd t Reg.CAPO_CAP) ≤ vwVal (rd s Reg.CAPO_LCAP) ∧ vwVal (rd t Reg.CAPO_CAP) ≤ vwVal s.capo.hostCap ∧
    (bit s Fld.CAPO_CFG_FLEET = true → vwVal (rd t Reg.CAPO_CAP) ≤ vwVal (rd s Reg.CAPO_FLEETCAP)) ∧
    (rd t Reg.CAPO_CAP = rd s Reg.CAPO_LCAP ∨ rd t Reg.CAPO_CAP = s.capo.hostCap ∨
      (bit s Fld.CAPO_CFG_FLEET = true ∧ rd t Reg.CAPO_CAP = rd s Reg.CAPO_FLEETCAP)) ∧
    SameBits [wholeReg Reg.CAPO_CAP, Fld.CAPO_STATUS_CAPSRC] s t ∧ t = { s with live := t.live, capo := t.capo }) ∧
  (∀ (s : State) (l : LaneFields) (f : Nat) (j : Fin 24), capoActs s l 0 = true → l.argBits 4 6 = j.val →
    (bit s (Fld.CAPO_TERM_SIG_EN j) = false → exec (.capoTerm l f) s = .next s) ∧
    (bit s (Fld.CAPO_TERM_SIG_EN j) = true → AnswersNext (exec (.capoTerm l f) s) fun t =>
      Delivers (s.capo.terms.get j) (t.capo.terms.get j) (absFret s f) 4 (vwOf (vwVal (rd s (Reg.CAPO_TERM_K j)) *
        vwVal (signal s (fget s (Fld.CAPO_TERM_SIG_VSIG j)) f f) * vwVal (signal s (fget s (Fld.CAPO_TERM_SIG_ISIG j)) f f))) ∧
      (∀ k, k ≠ j → t.capo.terms.get k = s.capo.terms.get k) ∧ t = { s with capo := t.capo })) ∧
  (∀ (s : State) (l : LaneFields) (f : Nat), capoActs s l 1 = true →
    let k := absFret s f
    let g := vwVal (rd s Reg.CAPO_GAMMA)
    let pin := ((List.range 8).map (termVal s k)).sum
    let load := fun (n : Nat) => (((List.range 16).filter fun j => fget s (Fld.CAPO_TERM_SIG_LIM (8 + j)) == n).map fun j =>
      termVal s k (8 + j)).sum
    let lp := fun (n : Fin 64) => vwOf (vwVal (s.capo.lp.get n).cur + g * (load n - vwVal (s.capo.lp.get n).cur))
    AnswersNext (exec (.capoPower l f) s) fun t =>
      rd t Reg.CAPO_PIN = vwOf (vwVal s.capo.pf.cur + g * (pin - vwVal s.capo.pf.cur)) ∧
      rd t Reg.CAPO_BASE = vwOf (vwVal (rd t Reg.CAPO_PIN) - ((List.finRange 64).map fun n => vwVal (lp n)).sum) ∧
      Delivers s.capo.pIn t.capo.pIn k 4 (vwOf pin) ∧ Delivers s.capo.pf t.capo.pf k 4 (rd t Reg.CAPO_PIN) ∧
      Delivers s.capo.base t.capo.base k 4 (rd t Reg.CAPO_BASE) ∧
      (∀ n : Fin 64, Delivers (s.capo.lp.get n) (t.capo.lp.get n) k 4 (lp n)) ∧
      SameBits [wholeReg Reg.CAPO_PIN, wholeReg Reg.CAPO_BASE] s t ∧ t = { s with live := t.live, capo := t.capo }) ∧
  (∀ (s : State) (l : LaneFields) (f : Nat), capoActs s l 3 = true →
    let k := absFret s f
    let p := l.argBits 4 6
    let level := (limits s).filter fun n => fget s (Fld.CAPO_LIM_CFG_PRIO n) == p
    let a := if p = 0 then vwVal (s.capo.cap.get k) - vwVal (s.capo.base.get k) - ((limits s).map (limF s k)).sum
      else vwVal (s.capo.avail.get k)
    let q := (level.map fun n => limR s k n - limF s k n).sum
    let g := clipR a 0 q
    AnswersNext (exec (.capoAlloc l f) s) fun t =>
      Delivers s.capo.avail t.capo.avail k 4 (vwOf (a - g)) ∧
      (∀ n : Fin 64, n.val ∈ level → Delivers (s.capo.lamNew.get n) (t.capo.lamNew.get n) k 4
        (if limR s k n = 0 then vwOf 1 else vwOf ((limF s k n + (limR s k n - limF s k n) * (g / q)) / limR s k n))) ∧
      (∀ n : Fin 64, n.val ∉ level → t.capo.lamNew.get n = s.capo.lamNew.get n) ∧
      (p ≠ 0 → t = { s with capo := t.capo }) ∧
      (p = 0 → bit t Fld.CAPO_STATUS_UNMET = decide (a < 0) ∧ SameMemory s t ∧ t.ports = s.ports ∧ t.loops = s.loops ∧
        (a < 0 → bit s Fld.CAPO_STATUS_UNMET = false → bit t Fld.CAPO_EVENT_UNMET = true ∧ CorrectedReported s t 0x02A0))) ∧
  (∀ (s : State) (l : LaneFields) (f : Nat), capoActs s l 4 = true → AnswersNext (exec (.capoWrite l f) s) fun t =>
    (∀ k : Fin 64, k.val / 16 = l.argBits 4 6 → bit s (Fld.CAPO_LIM_CFG_EN k) = true →
      (t.capo.lam.get k).cur = (if vwVal ((s.capo.lamNew.get k).get (absFret s f)) < vwVal (s.capo.lam.get k).cur
        then vwOf (vwVal ((s.capo.lamNew.get k).get (absFret s f)))
        else vwOf (min (vwVal ((s.capo.lamNew.get k).get (absFret s f))) (vwVal (s.capo.lam.get k).cur + vwVal (rd s Reg.CAPO_RISE)))) ∧
      rd t (Reg.CAPO_LIM_LAMBDA k) = (t.capo.lam.get k).cur ∧
      Delivers (s.capo.lam.get k) (t.capo.lam.get k) (absFret s f) 4 (t.capo.lam.get k).cur) ∧
    (∀ k : Fin 64, (k.val / 16 ≠ l.argBits 4 6 ∨ bit s (Fld.CAPO_LIM_CFG_EN k) = false) →
      t.capo.lam.get k = s.capo.lam.get k ∧ rd t (Reg.CAPO_LIM_LAMBDA k) = rd s (Reg.CAPO_LIM_LAMBDA k)) ∧
    (bit t Fld.CAPO_STATUS_CAPPING = true ↔ ∃ k : Fin 64, bit s (Fld.CAPO_LIM_CFG_EN k) = true ∧ vwVal (t.capo.lam.get k).cur < 1) ∧
    t = { s with live := t.live, capo := t.capo }) ∧
  (∀ (s : State) (l : LaneFields) (f : Nat) (c : Fin 32), capoActs s l 5 = true → l.argBits 4 6 = c.val →
    let on := fun (d : Fin 32) => bit s (Fld.CAPO_COURSE_SHARE d) &&
      fget s (Fld.CAPO_COURSE_OBUS d) == fget s (Fld.CAPO_COURSE_OBUS c) && decide (1 ≤ s.capo.cntLast.get d)
    let x := fun (d : Fin 32) => vwVal (rd s (Reg.CAPO_CSCALE d)) * s.capo.sumLast.get d
    let g := (List.finRange 32).filter on
    let a := (g.map x).sum / (g.length : Rat)
    let old := vwVal (s.capo.tau.get c).cur
    let w := vwOf (trimStep old (vwVal (rd s Reg.CAPO_KSC)) (a - x c) a (vwVal (rd s Reg.CAPO_SMIN)) (vwVal (rd s Reg.CAPO_CB)))
    ((on c = false ∨ g.length < 2) → exec (.capoCtrim l f) s = .next s) ∧
    (on c = true → 2 ≤ g.length → AnswersNext (exec (.capoCtrim l f) s) fun t =>
      Delivers (s.capo.tau.get c) (t.capo.tau.get c) (absFret s f) 4 w ∧ rd t (Reg.CAPO_CTRIM c) = w ∧
      (absR (vwVal w) = vwVal (rd s Reg.CAPO_CB) → vwVal w ≠ old → bit t Fld.CAPO_EVENT_CB_HIT = true) ∧
      (∀ d, d ≠ c → t.capo.tau.get d = s.capo.tau.get d) ∧
      SameBits [wholeReg (Reg.CAPO_CTRIM c), Fld.CAPO_EVENT_CB_HIT] s t ∧ t = { s with live := t.live, capo := t.capo })) ∧
  (∀ (old k d a smin bound : Rat), max (absR a) smin ≠ 0 →
    trimStep old k d a smin bound = clipR (old + k * (d / max (absR a) smin)) (-bound) bound) ∧
  (∀ (s : State) (l : LaneFields) (f : Nat), capoActs s l 6 = true → AnswersNext (exec (.capoHoldup l f) s) fun t =>
    t.capo.outside = (if inputOutside s f then s.capo.outside + 1 else 0) ∧
    t.capo.inside = (if inputOutside s f then 0 else s.capo.inside + 1) ∧ t = { s with capo := t.capo }) ∧
  (∀ (s : State) (l : LaneFields) (f : Nat), laneActs s 0x1A l = true → l.arg = 0 → AnswersNext (exec (.shareAcc l f) s) fun t =>
    let p := l.port.toFin
    t.capo.f.get p = vwOf (vwVal (s.capo.f.get p) +
      vwVal (rd s Reg.CAPO_BETA) * (portCurrent s l.port.toNat - vwVal (s.capo.f.get p))) ∧
    (fget s (Fld.PORT_STATUS_STATE l.port.toNat) = 3 → t.capo.sumNow.get p = s.capo.sumNow.get p + vwVal (t.capo.f.get p) ∧
      t.capo.cntNow.get p = s.capo.cntNow.get p + 1) ∧
    (fget s (Fld.PORT_STATUS_STATE l.port.toNat) ≠ 3 → t.capo.sumNow = s.capo.sumNow ∧ t.capo.cntNow = s.capo.cntNow) ∧
    (∀ q, q ≠ p → t.capo.f.get q = s.capo.f.get q ∧ t.capo.sumNow.get q = s.capo.sumNow.get q) ∧ t = { s with capo := t.capo }) ∧
  (∀ (s : State) (l : LaneFields) (f : Nat) (c : Fin 32), laneActs s 0x1A l = true → l.arg = 1 →
    courseOf s l.port.toNat = c.val →
    let p := l.port.toFin
    let on := bit s (Fld.CAPO_COURSE_BAL c) && fget s (Fld.PORT_STATUS_STATE l.port.toNat) == 3 && decide (2 ≤ s.capo.cntLast.get c)
    let a := s.capo.sumLast.get c / ((s.capo.cntLast.get c : Nat) : Rat)
    let old := vwVal (s.capo.t.get p).cur
    let w := vwOf (trimStep old (vwVal (rd s Reg.CAPO_KSP)) (a - vwVal (s.capo.f.get p)) a (vwVal (rd s Reg.CAPO_SMIN))
      (vwVal (rd s Reg.CAPO_PB)))
    (on = false → exec (.sharePtrim l f) s = .next s) ∧
    (on = true → AnswersNext (exec (.sharePtrim l f) s) fun t =>
      Delivers (s.capo.t.get p) (t.capo.t.get p) (absFret s f) 1 w ∧ rd t (Reg.CAPO_PTRIM l.port.toNat) = w ∧
      (absR (vwVal w) = vwVal (rd s Reg.CAPO_PB) → vwVal w ≠ old → bit t Fld.CAPO_EVENT_PB_HIT = true) ∧
      (∀ q, q ≠ p → t.capo.t.get q = s.capo.t.get q) ∧
      SameBits [wholeReg (Reg.CAPO_PTRIM l.port.toNat), Fld.CAPO_EVENT_PB_HIT] s t ∧ t = { s with live := t.live, capo := t.capo })) ∧
  ∀ (s : State) (l : LaneFields) (f : Nat) (n : Fin 64) (c : Fin 32), laneActs s 0x1A l = true → l.arg = 2 →
    fget s (Fld.CAPO_PORT_SLOOP l.port.toNat) = n.val → courseOf s l.port.toNat = c.val → AnswersNext (exec (.shareApply l f) s) fun t =>
      Delivers (s.capo.mult.get n) (t.capo.mult.get n) (absFret s f) 1
        (vwOf ((1 + vwVal ((s.capo.t.get l.port.toFin).get (absFret s f))) *
          (1 + vwVal ((s.capo.tau.get c).get (absFret s f))))) ∧
      (∀ m, m ≠ n → t.capo.mult.get m = s.capo.mult.get m) ∧ t = { s with capo := t.capo }

/-- R202, R205, R211, R213 to R216, R218, R220 and R225: the commands of budgets, clears, HOSTCAP and hold-up. That BTX_COMMIT takes all 224 entries and COUNT is read at the boundary is the model's reading (log entry 149), as is that AGE counts only with FLEET = 1, that BSTALE ends when the next budget takes effect, and that the operand tells which half begins (log entry 39). -/
def Obligations.BudgetsAndHoldUp : Prop :=
  (∀ (s : State) (v : Word), s.capo.budget = some v → s.capo.raise = false → AnswersNext (exec .budgetDecreaseApply s) fun t =>
    rd t Reg.CAPO_FLEETCAP = v ∧ bit t Fld.CAPO_STATUS_BPEND = false ∧ bit t Fld.CAPO_STATUS_BSTALE = false ∧
    t.capo.budget = none ∧ SameBits [wholeReg Reg.CAPO_FLEETCAP, Fld.CAPO_STATUS_BPEND, Fld.CAPO_STATUS_BSTALE] s t ∧
    t = { s with live := t.live, capo := t.capo }) ∧
  (∀ s : State, (s.capo.budget = none ∨ s.capo.raise = true) → exec .budgetDecreaseApply s = .next s) ∧
  (∀ (s : State) (b : Bool), AnswersNext (exec (.halfCycleBoundary b) s) fun t =>
    (∀ v, s.capo.budget = some v → s.capo.raise = true → s.capo.boundarySeen = true →
      rd t Reg.CAPO_FLEETCAP = v ∧ t.capo.budget = none ∧ bit t Fld.CAPO_STATUS_BPEND = false ∧ bit t Fld.CAPO_STATUS_BSTALE = false) ∧
    ((s.capo.budget = none ∨ s.capo.raise = false ∨ s.capo.boundarySeen = false) →
      rd t Reg.CAPO_FLEETCAP = rd s Reg.CAPO_FLEETCAP ∧ t.capo.budget = s.capo.budget) ∧
    fget t Fld.CAPO_STATUS_AGE = (if bit s Fld.CAPO_CFG_FLEET then min (fget s Fld.CAPO_STATUS_AGE + 1) (2 ^ Fld.CAPO_STATUS_AGE.width - 1)
      else fget s Fld.CAPO_STATUS_AGE) ∧
    (isRoot s = true → fget s Fld.CAPO_BTX_COUNT ≠ 0 → fget s Fld.CAPO_BTX_COUNT ≤ 224 →
      t.capo.emitStamp = some (BitVec.ofNat 32 ((s.time.cycleCount % 2 ^ 31) * 2 + b.toNat)) ∧
      t.capo.emitTable.length = fget s Fld.CAPO_BTX_COUNT ∧
      (∀ e, e < fget s Fld.CAPO_BTX_COUNT → t.capo.emitTable[e]? = some (s.capo.table.getD e (0, 0)))) ∧
    ((isRoot s = false ∨ fget s Fld.CAPO_BTX_COUNT = 0) →
      t.capo.emitStamp = s.capo.emitStamp ∧ t.capo.emitTable = s.capo.emitTable) ∧
    SameBits [wholeReg Reg.CAPO_FLEETCAP, Fld.CAPO_STATUS_BPEND, Fld.CAPO_STATUS_BSTALE, Fld.CAPO_STATUS_AGE] s t ∧
    t = { s with live := t.live, capo := t.capo }) ∧
  (∀ s : State,
    ((bit s Fld.CAPO_CFG_FLEET = false ∨ fget s Fld.CAPO_STATUS_AGE < 2 ∨ bit s Fld.CAPO_STATUS_BSTALE = true) →
      exec .budgetStale s = .next s) ∧
    (bit s Fld.CAPO_CFG_FLEET = true → 2 ≤ fget s Fld.CAPO_STATUS_AGE → bit s Fld.CAPO_STATUS_BSTALE = false →
      AnswersNext (exec .budgetStale s) fun t =>
        rd t Reg.CAPO_FLEETCAP = rd s Reg.CAPO_SAFECAP ∧ bit t Fld.CAPO_STATUS_BSTALE = true ∧
        bit t Fld.CAPO_EVENT_BSTALE = true ∧ CorrectedReported s t 0x02A1 ∧ SameMemory s t)) ∧
  (∀ s : State, (s.capo.emitStamp = none → exec .budgetEmit s = .next s) ∧
    AnswersNext (exec .budgetEmit s) fun t => t.capo.emitStamp = none ∧ SameMemory s t ∧
      (s.capo.emitStamp ≠ none → t.capo.emitTable = []) ∧
      (∀ w v, s.capo.emitStamp = some w → (s.capo.emitTable.find? fun e => e.1 == ownAddr s) = some v →
        bit s Fld.CAPO_CFG_FLEET = true → rd t Reg.CAPO_BUDGET = v.2 ∧ rd t Reg.CAPO_BSTAMP = w ∧ t.capo.budget = some v.2)) ∧
  (∀ s : State, AnswersNext (exec .btxCommit s) fun t =>
    t.capo.table.length = 224 ∧
    (∀ e, e < 224 → t.capo.table[e]? = some (fget s (Fld.CAPO_BTAB_ADDR_ADDR e), rd s (Reg.CAPO_BTAB_VAL e))) ∧
    t = { s with capo := t.capo }) ∧
  (∀ s : State, AnswersNext (exec .trimClr s) fun t => t = { s with capo := { s.capo with trimClr := true } }) ∧
  (∀ s : State, s.capo.trimClr = true → AnswersNext (exec .trimClrApply s) fun t =>
    (∀ p : Fin 32, vwVal (t.capo.t.get p).cur = 0 ∧ vwVal (t.capo.tau.get p).cur = 0 ∧
      rd t (Reg.CAPO_PTRIM p) = (t.capo.t.get p).cur ∧ rd t (Reg.CAPO_CTRIM p) = (t.capo.tau.get p).cur) ∧ t.capo.trimClr = false ∧
    t = { s with live := t.live, capo := t.capo }) ∧
  (∀ s : State, AnswersNext (exec .capoCntClr s) fun t => rd t Reg.CAPO_BCNT = 0 ∧ rd t Reg.CAPO_HCNT = 0 ∧
    SameBits [wholeReg Reg.CAPO_BCNT, wholeReg Reg.CAPO_HCNT] s t ∧ t = { s with live := t.live }) ∧
  (∀ (s : State) (v : Word), (vwReserved v = true → exec (.hostcapWrite v) s = .next s) ∧
    (vwReserved v = false → AnswersNext (exec (.hostcapWrite v) s) fun t =>
      rd t Reg.CAPO_HOSTCAP = v ∧ t.capo.hostCap = s.capo.hostCap ∧ SameBits [wholeReg Reg.CAPO_HOSTCAP] s t ∧
      t = { s with live := t.live, capo := { s.capo with hostPend := true } })) ∧
  (∀ s : State, (s.capo.hostPend = true → AnswersNext (exec .hostcapApply s) fun t =>
      t = { s with capo := { s.capo with hostCap := rd s Reg.CAPO_HOSTCAP, hostPend := false } }) ∧
    (s.capo.hostPend = false → exec .hostcapApply s = .next s) ∧ (s.capo.trimClr = false → exec .trimClrApply s = .next s)) ∧
  (∀ (s : State) (f : Nat),
    ((bit s Fld.CAPO_STATUS_INPUT_LOSS = true ∨ s.capo.outside < lossN s) → exec (.inputLossBegin f) s = .next s) ∧
    (bit s Fld.CAPO_STATUS_INPUT_LOSS = false → lossN s ≤ s.capo.outside →
      AnswersNext (exec (.inputLossBegin f) s) fun t =>
        bit t Fld.CAPO_STATUS_INPUT_LOSS = true ∧ bit t Fld.CAPO_EVENT_LOSS = true ∧
        t.capo.heldA = s.time.vd ∧ t.capo.inside = 0 ∧
        t.capo.switchDue = (if bit s Fld.CAPO_CFG_HOLD_EN && !bit s Fld.CAPO_STATUS_HOLDUP then some s.time.base else none) ∧
        bit t Fld.TIME_STATUS_MAINS_QUAL = false ∧ SameMemory s t)) ∧
  (∀ s : State,
    ((bit s Fld.CAPO_STATUS_INPUT_LOSS = false ∨ s.capo.inside < fget s Fld.CAPO_HCFG_RETW ∨
      (bit s Fld.CAPO_CFG_INSRC = false ∧ bit s Fld.TIME_STATUS_MAINS_LOCK = false)) → exec .inputLossEnd s = .next s) ∧
    (bit s Fld.CAPO_STATUS_INPUT_LOSS = true → fget s Fld.CAPO_HCFG_RETW ≤ s.capo.inside →
      (bit s Fld.CAPO_CFG_INSRC = true ∨ bit s Fld.TIME_STATUS_MAINS_LOCK = true) → AnswersNext (exec .inputLossEnd s) fun t =>
        bit t Fld.CAPO_STATUS_INPUT_LOSS = false ∧ SameBits [Fld.CAPO_STATUS_INPUT_LOSS] s t ∧ t = { s with live := t.live })) ∧
  (∀ s : State,
    ((∀ b, s.capo.switchDue = some b → s.time.base ≤ b) → exec .holdupSwitch s = .next s) ∧
    (∀ b, s.capo.switchDue = some b → b < s.time.base → AnswersNext (exec .holdupSwitch s) fun t =>
      bit t Fld.CAPO_STATUS_HOLDUP = true ∧ CorrectedReported s t 0x02A3 ∧ t.capo.switchDue = none ∧ SameMemory s t ∧
      fget t Fld.CAPO_HCNT_HOLD_CNT = min (fget s Fld.CAPO_HCNT_HOLD_CNT + 1) (2 ^ Fld.CAPO_HCNT_HOLD_CNT.width - 1))) ∧
  ∀ s : State,
    let back := if bit s Fld.CAPO_CFG_INSRC then !bit s Fld.CAPO_STATUS_INPUT_LOSS else bit s Fld.TIME_STATUS_MAINS_QUAL
    ((bit s Fld.CAPO_STATUS_HOLDUP = false ∨ back = false) → exec .holdupReturn s = .next s) ∧
    (bit s Fld.CAPO_STATUS_HOLDUP = true → back = true → AnswersNext (exec .holdupReturn s) fun t =>
      bit t Fld.CAPO_STATUS_HOLDUP = false ∧ bit t Fld.CAPO_EVENT_RETURN = true ∧ SameMemory s t)

/-- R226 to R241: the comparators and the ten feed commands that follow the normal course of a feed. That the commands carry the voltages and for how long the comparisons have had their outcome is the model's choice (log entry 24); that DISCHARGE lasts to the next tick is its reading (log entry 25). -/
def Obligations.FeedsInsertAndPrecharge : Prop :=
  (∀ (s : State) (f : Fin 8) (vs vl is : Rat) (held clocks : Nat),
    let x := (feedSense s f (some vs) (some vl) (some is) held clocks).feeds.get f
    x.vs = vs ∧ x.vl = vl ∧ x.is = is ∧ x.vsAt = s.tick ∧ x.vlAt = s.tick ∧ x.isAt = s.tick ∧
    (x.ratio.raw = true ↔ vs * (fget s (Fld.FEED_PCFG_PCF f) : Rat) / 64 ≤ vl) ∧
    (x.fwd.raw = true ↔ (fget s (Fld.FEED_DIODE_FTH f) : Rat) / 1280 < vs - vl) ∧
    (x.vlp.raw = true ↔ (fget s (Fld.FEED_SHORT_SHTH f) : Rat) / 1280 < vl) ∧
    (x.oc.raw = true ↔ (fget s (Fld.FEED_ITHR_OC f) : Rat) / 1280 < is) ∧
    (x.rev.raw = true ↔ (fget s (Fld.FEED_DIODE_RTH f) : Rat) / 1280 < vl - vs) ∧
    ((fget s (Fld.FEED_VSWIN_UV f) : Rat) / 1280 + hystVolt (fget s (Fld.FEED_VSWIN_HYST f)) < vs →
      vs < (fget s (Fld.FEED_VSWIN_OV f) : Rat) / 1280 - hystVolt (fget s (Fld.FEED_VSWIN_HYST f)) →
      (s.feeds.get f).win.raw = false → (s.feeds.get f).vsAt + fget s (Fld.FEED_TIME_VSF f) ≤ s.tick →
      fget s (Fld.FEED_TIME_VSF f) ≤ held → windowNow (feedSense s f (some vs) (some vl) (some is) held clocks) f = true)) ∧
  (∀ (s : State) (v : Word), AnswersNext (exec (.feedCmdWrite v) s) fun t =>
    fget t Fld.FEED_CMD_ON = getBits v 0 8 ∧ t = { s with live := t.live, feeds := t.feeds } ∧
    (∀ f : Fin 8, v.getLsbD f = false → feedState s f ≠ .off → feedState s f ≠ .discharge → feedState s f ≠ .fault →
      feedHigh t f = false ∧ feedState t f = .discharge) ∧
    ∀ f : Fin 8, v.getLsbD f = true → feedState s f = .off → bit s (Fld.FEED_CFG_EN f) = true →
      bit s (Fld.FEED_STATUS_SHBLK f) = false →
      ((devState s = .idle ∧ bit s Fld.GLOBAL_STATE_HIB_PEND = false) ∨ devState s = .armed) →
      feedState t f = if bit s (Fld.FEED_STATUS_VSWIN f) then .insert else .qualify) ∧
  (∀ (s : State) (f : Fin 8) (vs : Rat) (held : Nat),
    let u := feedSense s f (some vs) none none held 0
    let ov := (u.feeds.get f).ov
    (windowNow u f = bit s (Fld.FEED_STATUS_VSWIN f) → (feedState s f ≠ .on ∨ windowNow u f = true ∨ ov = false) →
      exec (.feedVsWindowChange f vs held) s = .next u) ∧
    (windowNow u f = false → bit s (Fld.FEED_STATUS_VSWIN f) = false → feedState s f = .on → ov = true →
      AnswersNext (exec (.feedVsWindowChange f vs held) s) fun t =>
        feedState t f = .qualify ∧ feedHigh t f = false ∧ bit t (Fld.FEED_EVENT_VS_LOST f) = true ∧ CorrectedReported s t 0x0405 ∧
        OtherFeeds f s t ∧ SameMemory s t) ∧
    (windowNow u f ≠ bit s (Fld.FEED_STATUS_VSWIN f) → AnswersNext (exec (.feedVsWindowChange f vs held) s) fun t =>
      bit t (Fld.FEED_STATUS_VSWIN f) = windowNow u f ∧ OtherFeeds f s t ∧ SameMemory s t ∧
      (windowNow u f = true → feedState s f = .qualify → (s.feeds.get f).waived = false →
        feedState t f = .insert ∧ (t.feeds.get f).due = s.tick + 1000 * fget s (Fld.FEED_TIME_INSDLY f)) ∧
      (windowNow u f = true → feedState s f = .qualify → (s.feeds.get f).waived = true →
        feedState t f = if bit s (Fld.FEED_CFG_PC_USE f) then .precharge else .on) ∧
      (windowNow u f = false → (feedState s f = .insert ∨ feedState s f = .blocked) →
        feedState t f = .qualify ∧ feedHigh t f = false ∧ (t.feeds.get f).waived = false) ∧
      (windowNow u f = false →
        (feedState s f = .precharge ∨ (feedState s f = .on ∧ (ov = true ∨ bit s (Fld.FEED_CFG_UVOFF f) = true))) →
        feedState t f = .qualify ∧ feedHigh t f = false ∧ bit t (Fld.FEED_EVENT_VS_LOST f) = true ∧
        (ov = true → CorrectedReported s t 0x0405)) ∧
      (windowNow u f = false → feedState s f = .on → ov = false → bit s (Fld.FEED_CFG_UVOFF f) = false →
        feedState t f = .on ∧ feedHigh t f = feedHigh s f))) ∧
  (∀ (s : State) (f : Fin 8),
    ((feedState s f ≠ .insert ∨ s.tick < (s.feeds.get f).due) → exec (.feedInsdlyExpire f) s = .next s) ∧
    (feedState s f = .insert → (s.feeds.get f).due ≤ s.tick → AnswersNext (exec (.feedInsdlyExpire f) s) fun t =>
      (if bit s (Fld.FEED_CFG_PC_USE f) then feedState t f = .precharge ∧ bit t (Fld.FEED_STATUS_PC f) = true ∧
          bit t (Fld.FEED_STATUS_G f) = false ∧ (t.feeds.get f).pcAt = s.tick ∧
          (t.feeds.get f).due = s.tick + 1000 * fget s (Fld.FEED_PCFG_PCTO f)
        else feedState t f = .on ∧ bit t (Fld.FEED_STATUS_G f) = true ∧ bit t (Fld.FEED_EVENT_CLOSED f) = true) ∧
      OtherFeeds f s t ∧ t = { s with live := t.live, feeds := t.feeds })) ∧
  (∀ (s : State) (f : Fin 8) (vs vl : Rat) (held : Nat),
    let u := feedSense s f (some vs) (some vl) none held 0
    let x := u.feeds.get f
    let now := feedState s f = .precharge ∧ bit s (Fld.FEED_STATUS_G f) = false ∧ x.ratio.raw = true ∧
      max x.ratio.since x.pcAt + 16 ≤ s.tick ∧ s.tick ≤ x.due
    (¬ now → exec (.feedRatioHeld ⟨f, vs, vl, held⟩) s = .next u) ∧
    (now → AnswersNext (exec (.feedRatioHeld ⟨f, vs, vl, held⟩) s) fun t =>
      feedState t f = .precharge ∧ bit t (Fld.FEED_STATUS_G f) = true ∧ bit t (Fld.FEED_STATUS_PC f) = true ∧
      (t.feeds.get f).due = s.tick + fget s (Fld.FEED_PCFG_POVL f) ∧ OtherFeeds f s t ∧
      t = { s with live := t.live, feeds := t.feeds })) ∧
  (∀ (s : State) (f : Fin 8),
    ((feedState s f ≠ .precharge ∨ bit s (Fld.FEED_STATUS_G f) = false ∨ s.tick < (s.feeds.get f).due) →
      exec (.feedPovlExpire f) s = .next s) ∧
    (feedState s f = .precharge → bit s (Fld.FEED_STATUS_G f) = true → (s.feeds.get f).due ≤ s.tick →
      AnswersNext (exec (.feedPovlExpire f) s) fun t =>
        feedState t f = .on ∧ bit t (Fld.FEED_STATUS_G f) = true ∧ bit t (Fld.FEED_STATUS_PC f) = false ∧
        (t.feeds.get f).holdDue = some (s.tick + 10000 * fget s (Fld.FEED_RETRY_RHOLD f)) ∧
        bit t (Fld.FEED_EVENT_CLOSED f) = true ∧ OtherFeeds f s t ∧ t = { s with live := t.live, feeds := t.feeds })) ∧
  (∀ (s : State) (f : Fin 8),
    ((feedState s f ≠ .retryWait ∨ s.tick < (s.feeds.get f).due) → exec (.feedRetryExpire f) s = .next s) ∧
    (feedState s f = .retryWait → (s.feeds.get f).due ≤ s.tick → AnswersNext (exec (.feedRetryExpire f) s) fun t =>
      (bit s (Fld.FEED_STATUS_VSWIN f) = false → feedState t f = .qualify ∧ (t.feeds.get f).waived = true) ∧
      (bit s (Fld.FEED_STATUS_VSWIN f) = true → feedState t f = if bit s (Fld.FEED_CFG_PC_USE f) then .precharge else .on) ∧
      OtherFeeds f s t ∧ t = { s with live := t.live, feeds := t.feeds })) ∧
  (∀ (s : State) (f : Fin 8),
    ((feedState s f ≠ .on ∨ ∀ k, (s.feeds.get f).holdDue = some k → s.tick < k) → exec (.feedRholdExpire f) s = .next s) ∧
    (∀ k, feedState s f = .on → (s.feeds.get f).holdDue = some k → k ≤ s.tick →
      AnswersNext (exec (.feedRholdExpire f) s) fun t =>
        fget t (Fld.FEED_STATUS_RTRY f) = 0 ∧ SameBits [Fld.FEED_STATUS_RTRY f] s t ∧
        t = { s with live := t.live, feeds := t.feeds })) ∧
  (∀ (s : State) (f : Fin 8) (vs vl : Rat) (n : Nat),
    let u := feedSense s f (some vs) (some vl) none 0 n
    ((feedState s f ≠ .on ∨ bit s (Fld.FEED_CFG_IDEAL f) = false ∨ revNow u f = false) →
      exec (.feedRevBlock ⟨f, vs, vl, n⟩) s = .next u) ∧
    (feedState s f = .on → bit s (Fld.FEED_CFG_IDEAL f) = true → revNow u f = true →
      AnswersNext (exec (.feedRevBlock ⟨f, vs, vl, n⟩) s) fun t =>
        feedState t f = .blocked ∧ feedHigh t f = false ∧ bit t (Fld.FEED_EVENT_BLOCK f) = true ∧ OtherFeeds f s t ∧
        t = { s with live := t.live, feeds := t.feeds })) ∧
  (∀ (s : State) (f : Fin 8) (vs vl : Rat) (held : Nat),
    let u := feedSense s f (some vs) (some vl) none held 0
    ((feedState s f ≠ .blocked ∨ fwdNow u f = false) → exec (.feedFwdUnblock ⟨f, vs, vl, held⟩) s = .next u) ∧
    (feedState s f = .blocked → fwdNow u f = true → AnswersNext (exec (.feedFwdUnblock ⟨f, vs, vl, held⟩) s) fun t =>
      feedState t f = .on ∧ bit t (Fld.FEED_STATUS_G f) = true ∧ bit t (Fld.FEED_EVENT_CLOSED f) = true ∧
      OtherFeeds f s t ∧ t = { s with live := t.live, feeds := t.feeds })) ∧
  ∀ (s : State) (f : Fin 8),
    ((feedState s f ≠ .discharge ∨ s.tick ≤ (s.feeds.get f).lossAt ∨
      ∃ k, (s.feeds.get f).fell = some k ∧ s.tick < k + 1000 * fget s (Fld.FEED_SHORT_DDLY f)) →
      exec (.feedDischargeEnd f) s = .next s) ∧
    (feedState s f = .discharge → (s.feeds.get f).lossAt < s.tick →
      (∀ k, (s.feeds.get f).fell = some k → k + 1000 * fget s (Fld.FEED_SHORT_DDLY f) ≤ s.tick) →
      AnswersNext (exec (.feedDischargeEnd f) s) fun t =>
        feedState t f = (if feedPermitted s f then if bit s (Fld.FEED_STATUS_VSWIN f) then .insert else .qualify else .off) ∧
        OtherFeeds f s t ∧ t = { s with live := t.live, feeds := t.feeds })

/-- R226, R228, R233, R236, R241, R242 and R244 to R246: the feed commands that protect, and the monitors and counters. The model's readings: a trip in the tick of the loss is counted with 0x0402 (log entry 28), the commands carry the levels (log entry 24), the resume of the short check (log entries 26, 27). -/
def Obligations.FeedsProtect : Prop :=
  (∀ (s : State) (f : Fin 8),
    ((feedState s f ≠ .precharge ∨ bit s (Fld.FEED_STATUS_G f) = true ∨ s.tick < (s.feeds.get f).due) →
      exec (.feedPctoExpire f) s = .next s) ∧
    (feedState s f = .precharge → bit s (Fld.FEED_STATUS_G f) = false → (s.feeds.get f).due ≤ s.tick →
      AnswersNext (exec (.feedPctoExpire f) s) fun t =>
        feedState t f = .fault ∧ feedHigh t f = false ∧ fbit t Fld.FEED_CMD_ON f = false ∧
        bit t (Fld.FEED_EVENT_PC_TIMEOUT f) = true ∧ bit t (Fld.FEED_EVENT_FAULT f) = true ∧ SameMemory s t)) ∧
  (∀ (s : State) (f : Fin 8) (is : Rat) (n : Nat),
    let u := feedSense s f none none (some is) 0 n
    let st := feedState s f
    let trips := st = .precharge ∨ st = .on ∨ ((st = .qualify ∨ st = .insert) ∧ (s.feeds.get f).ovAt = some s.tick)
    let late := st = .discharge ∧ (s.feeds.get f).fell = some s.tick
    ((ocNow u f = false ∨ (¬ trips ∧ ¬ late)) → exec (.feedOcTrip ⟨f, is, n⟩) s = .next u) ∧
    (ocNow u f = true → (trips ∨ late) → AnswersNext (exec (.feedOcTrip ⟨f, is, n⟩) s) fun t =>
      bit t (Fld.FEED_EVENT_TRIP f) = true ∧ fget t (Fld.FEED_STATUS_RTRY f) = min (retryCount s f + 1) 7 ∧
      fget t (Fld.FEED_CNT_TRIP_CNT f) = min (fget s (Fld.FEED_CNT_TRIP_CNT f) + 1) (2 ^ (Fld.FEED_CNT_TRIP_CNT f).width - 1) ∧
      SameMemory s t ∧
      (late → feedState t f = .discharge ∧ CorrectedReported s t 0x0402 ∧ OtherFeeds f s t) ∧
      (trips → retryCount s f + 1 ≤ fget s (Fld.FEED_RETRY_RETRY f) →
        feedState t f = .retryWait ∧ feedHigh t f = false ∧
        (t.feeds.get f).due = s.tick + 1000 * fget s (Fld.FEED_RETRY_RDLY f) * 2 ^ retryCount s f ∧
        CorrectedReported s t 0x0402 ∧ OtherFeeds f s t) ∧
      (trips → fget s (Fld.FEED_RETRY_RETRY f) < retryCount s f + 1 → feedState t f = .fault ∧ feedHigh t f = false))) ∧
  (∀ (s : State) (f : Fin 8) (vl : Rat) (held : Nat),
    let u := feedSense s f none (some vl) none held 0
    let on := (fget s (Fld.FEED_SHORT_SHTH f) : Rat) / 1280 < vl
    ((shortApplies s f = false ∨ ¬ on) → exec (.feedShortDetect ⟨f, vl, held⟩) s = .next u) ∧
    (shortApplies s f = true → on → AnswersNext (exec (.feedShortDetect ⟨f, vl, held⟩) s) fun t =>
      feedState t f = .fault ∧ bit t (Fld.FEED_STATUS_SHBLK f) = true ∧ bit t (Fld.FEED_EVENT_SHORT f) = true ∧ SameMemory s t)) ∧
  (∀ (s : State) (f : Fin 8) (vl : Rat) (held : Nat), AnswersNext (exec (.feedVlpresInactive ⟨f, vl, held⟩) s) fun t =>
    ((t.feeds.get f).vlp.raw = true ↔ (fget s (Fld.FEED_SHORT_SHTH f) : Rat) / 1280 < vl) ∧
    (vl ≤ (fget s (Fld.FEED_SHORT_SHTH f) : Rat) / 1280 → (s.feeds.get f).vlp.raw = true →
      (s.feeds.get f).vlAt + ddly s f ≤ s.tick → ddly s f ≤ held → shortGone t f = true) ∧
    (∀ h, h ≠ f → t.feeds.get h = s.feeds.get h) ∧ t = { s with feeds := t.feeds }) ∧
  (∀ (s : State) (f : Fin 8),
    ((groupHigh s f = true ∨ ∀ k, (s.feeds.get f).resume = some k → s.tick < k) → exec (.feedShortCheckResume f) s = .next s) ∧
    (∀ k, (s.feeds.get f).resume = some k → k ≤ s.tick → groupHigh s f = false →
      AnswersNext (exec (.feedShortCheckResume f) s) fun t =>
        (t.feeds.get f).resume = none ∧ (∀ h, h ≠ f → t.feeds.get h = s.feeds.get h) ∧ t = { s with feeds := t.feeds })) ∧
  (∀ (s : State) (f : Fin 8) (j : Fin 3) (v : Rat),
    let code := match j with | 0 => Fld.FEED_MEAS_VS_CODE f | 1 => Fld.FEED_MEAS_VL_CODE f | 2 => Fld.FEED_MEAS_IS_CODE f
    ((bit s (Fld.FEED_CFG_EN f) = false ∨ (s.tick - s.resetTick) % 32 ≠ 4 * f.val + j.val) →
      exec (.feedMonitorConv f j v) s = .next s) ∧
    (bit s (Fld.FEED_CFG_EN f) = true → (s.tick - s.resetTick) % 32 = 4 * f.val + j.val →
      AnswersNext (exec (.feedMonitorConv f j v) s) fun t =>
        fget t code = min (v * 1280).floor.toNat 1023 ∧ SameBits [code] s t ∧ t = { s with live := t.live })) ∧
  ∀ (s : State) (f : Fin 8), AnswersNext (exec (.feedCntClr f) s) fun t =>
    rd t (Reg.FEED_CNT f) = 0 ∧ SameBits [wholeReg (Reg.FEED_CNT f)] s t ∧ t = { s with live := t.live }

/-- R247 to R262, R268 and R272: the monitors and the twelve sequencer commands. The model's readings: requests act at the next tick and are ignored unpowered, PARTIAL clears when a power-up begins (log entries 29, 151), the commands carry the level at the monitor (log entry 152). -/
def Obligations.SequencerRequestsAndRails : Prop :=
  (∀ (s : State) (r : Fin 16) (mon : Rat) (pin : Bool) (held : Nat),
    let h := hystVolt (fget s (Fld.SEQ_RCFG_HYST r))
    let inside := (fget s (Fld.SEQ_RTHR_LO r) : Rat) / 1280 + h < mon ∧ mon < (fget s (Fld.SEQ_RTHR_HI r) : Rat) / 1280 - h
    ((railNative s r = true ∧ holdsLo (railState s r) = true ∧ inside) ∨
      (railNative s r = false ∧ pin = bit s (Fld.SEQ_RCFG_PGPOL r))) →
    (railOf s r).good.raw = false → (railOf s r).told + (fget s (Fld.SEQ_ROFF_GF r) - 1) ≤ s.tick →
    fget s (Fld.SEQ_ROFF_GF r) - 1 ≤ held → goodNow (senseRail s r mon pin held) r = true) ∧
  (∀ (s : State) (v : Word),
    (v.getLsbD 0 = false → exec (.seqUp v) s = .next s) ∧ (v.getLsbD 1 = false → exec (.seqDown v) s = .next s) ∧
    (v.getLsbD 0 = true → v.getLsbD 1 = true → AnswersNext (exec (.seqUp v) s) fun t => exec (.seqDown v) s = .next t ∧
      bit t Fld.SEQ_EVENT_CMD_BAD = true ∧ SameBits [Fld.SEQ_EVENT_CMD_BAD] s t ∧ t = { s with live := t.live }) ∧
    (v.getLsbD 0 = true → v.getLsbD 1 = false → seqPowered s = true →
      exec (.seqUp v) s = .next { s with seq := { s.seq with reqOn := true } }) ∧
    (v.getLsbD 0 = false → v.getLsbD 1 = true → seqPowered s = true →
      exec (.seqDown v) s = .next { s with seq := { s.seq with reqOff := true } }) ∧
    ((v.getLsbD 0 && v.getLsbD 1) = false → seqPowered s = false → exec (.seqUp v) s = .next s ∧ exec (.seqDown v) s = .next s)) ∧
  (∀ s : State,
    ((seqPhase s ≠ .dwell ∨ s.tick < s.seq.downAt + 1000 * fget s Fld.SEQ_CFG_MINOFF) → exec .seqDwellEnd s = .next s) ∧
    (seqPhase s = .dwell → s.seq.downAt + 1000 * fget s Fld.SEQ_CFG_MINOFF ≤ s.tick → AnswersNext (exec .seqDwellEnd s) fun t =>
      rd t Reg.SEQ_FLAGS = setBits (rd s Reg.SEQ_FLAGS) Fld.SEQ_FLAGS_RISEFAIL.lo Fld.SEQ_FLAGS_RISEFAIL.width 0 ∧ SameMemory s t ∧
      ((∀ r : Fin 16, bit s (Fld.SEQ_RCFG_EN r) = false) →
        seqPhase t = .up ∧ bit t Fld.SEQ_EVENT_UP_DONE = true ∧ bit t Fld.SEQ_STATUS_PARTIAL = false) ∧
      (∀ r : Fin 16, bit s (Fld.SEQ_RCFG_EN r) = true → railState s r ≠ .fault →
        (∀ q : Fin 16, q < r → bit s (Fld.SEQ_RCFG_EN q) = false ∨ railState s q = .fault) →
        seqPhase t = .powerup ∧ railState t r = .wait ∧ fget t Fld.SEQ_STATUS_CUR = r.val ∧
        t.seq.due = s.tick + fget s (Fld.SEQ_RTIME_DLY r) ∧ OtherRails r s t))) ∧
  (∀ (s : State) (r : Fin 16),
    ((railState s r ≠ .wait ∨ s.tick < s.seq.due ∨ s.seq.offNow = true) → exec (.seqDlyExpire r) s = .next s) ∧
    (railState s r = .wait → s.seq.due ≤ s.tick → s.seq.offNow = false → AnswersNext (exec (.seqDlyExpire r) s) fun t =>
      railState t r = .rising ∧ bit t (Fld.SEQ_RSTAT_EN r) = true ∧ t.seq.due = s.tick + 100 * fget s (Fld.SEQ_RTO_RTO r) ∧
      OtherRails r s t ∧ t = { s with live := t.live, seq := t.seq })) ∧
  (∀ (s : State) (r : Fin 16) (mon : Rat) (pin : Bool) (held : Nat),
    let u := senseRail s r mon pin held
    (railOn s r = false → exec (.seqRailGood ⟨r, mon, pin, held⟩) s = .next s ∧ exec (.seqRailFallen ⟨r, mon, pin, held⟩) s = .next s ∧
      exec (.seqRailCollapse r ⟨mon, pin, held⟩) s = .next s) ∧
    (railOn s r = true → (railState s r ≠ .rising ∨ goodNow u r = false ∨ s.seq.due ≤ s.tick) →
      exec (.seqRailGood ⟨r, mon, pin, held⟩) s = .next u) ∧
    (railOn s r = true → railState s r = .rising → goodNow u r = true → s.tick < s.seq.due →
      AnswersNext (exec (.seqRailGood ⟨r, mon, pin, held⟩) s) fun t =>
        railState t r = .good ∧ bit t (Fld.SEQ_RSTAT_EN r) = true ∧ bit t (Fld.SEQ_RSTAT_GOOD r) = true ∧ SameMemory s t) ∧
    (railOn s r = true → (railState s r ≠ .falling ∨ fallenNow u r = false ∨ s.seq.due ≤ s.tick) →
      exec (.seqRailFallen ⟨r, mon, pin, held⟩) s = .next u) ∧
    (railOn s r = true → railState s r = .falling → fallenNow u r = true → s.tick < s.seq.due →
      AnswersNext (exec (.seqRailFallen ⟨r, mon, pin, held⟩) s) fun t =>
        (bit s Fld.SEQ_STATUS_CFG_PEND = false → railState t r = .off ∧ bit t (Fld.SEQ_RSTAT_FALLEN r) = true) ∧
        bit t (Fld.SEQ_RSTAT_EN r) = false ∧ SameMemory s t) ∧
    (railOn s r = true → ((railState s r ≠ .good ∧ railState s r ≠ .predown) ∨ (railOf u r).wasGood = false ∨ goodNow u r = true) →
      exec (.seqRailCollapse r ⟨mon, pin, held⟩) s = .next u) ∧
    (railOn s r = true → (railState s r = .good ∨ railState s r = .predown) → (railOf u r).wasGood = true → goodNow u r = false →
      AnswersNext (exec (.seqRailCollapse r ⟨mon, pin, held⟩) s) fun t =>
        (bit s Fld.SEQ_STATUS_CFG_PEND = false → railState t r = .fault ∧ bit t (Fld.SEQ_RSTAT_GOOD r) = false) ∧
        bit t (Fld.SEQ_RSTAT_EN r) = false ∧ bit t Fld.SEQ_EVENT_COLLAPSE = true ∧ SameMemory s t)) ∧
  (∀ (s : State) (r : Fin 16),
    ((railState s r ≠ .rising ∨ s.tick < s.seq.due ∨ s.seq.offNow = true) → exec (.seqRiseTimeout r) s = .next s) ∧
    (railState s r = .rising → s.seq.due ≤ s.tick → s.seq.offNow = false → AnswersNext (exec (.seqRiseTimeout r) s) fun t =>
      railState t r = .fault ∧ bit t (Fld.SEQ_RSTAT_EN r) = false ∧ fbit t Fld.SEQ_FLAGS_RISEFAIL r = true ∧
      bit t Fld.SEQ_EVENT_RISEFAIL = true ∧ SameMemory s t)) ∧
  (∀ (s : State) (r : Fin 16) (mon : Rat) (pin : Bool) (held : Nat),
    let u := senseRail s r mon pin held
    ((railOn s r = false ∨ railNative s r = false) → exec (.seqRailOver ⟨r, mon, pin, held⟩) s = .next s) ∧
    (railOn s r = true → railNative s r = true → (railState s r ≠ .rising ∨ overNow u r = false) →
      exec (.seqRailOver ⟨r, mon, pin, held⟩) s = .next u) ∧
    (railOn s r = true → railNative s r = true → railState s r = .rising → overNow u r = true →
      AnswersNext (exec (.seqRailOver ⟨r, mon, pin, held⟩) s) fun t =>
        railState t r = .fault ∧ bit t (Fld.SEQ_RSTAT_EN r) = false ∧ fbit t Fld.SEQ_FLAGS_RISEFAIL r = true ∧ SameMemory s t)) ∧
  (∀ (s : State) (r : Fin 16),
    ((railState s r ≠ .predown ∨ s.tick < s.seq.due) → exec (.seqDndlyExpire r) s = .next s) ∧
    (railState s r = .predown → s.seq.due ≤ s.tick → AnswersNext (exec (.seqDndlyExpire r) s) fun t =>
      railState t r = .falling ∧ bit t (Fld.SEQ_RSTAT_EN r) = false ∧ t.seq.due = s.tick + 100 * fget s (Fld.SEQ_RTO_FTO r) ∧
      OtherRails r s t ∧ t = { s with live := t.live, seq := t.seq })) ∧
  (∀ (s : State) (r : Fin 16),
    ((railState s r ≠ .falling ∨ s.tick < s.seq.due) → exec (.seqFallTimeout r) s = .next s) ∧
    (railState s r = .falling → s.seq.due ≤ s.tick → AnswersNext (exec (.seqFallTimeout r) s) fun t =>
      (bit s Fld.SEQ_STATUS_CFG_PEND = false → railState t r = .off) ∧ bit t (Fld.SEQ_RSTAT_EN r) = false ∧
      fbit t Fld.SEQ_FLAGS_FALLFAIL r = true ∧ bit t Fld.SEQ_EVENT_FALLFAIL = true ∧ SameMemory s t)) ∧
  ∀ s : State, AnswersNext (exec .seqCntClr s) fun t =>
    rd t Reg.SEQ_CNT = 0 ∧ SameBits [wholeReg Reg.SEQ_CNT] s t ∧ t = { s with live := t.live }

/-- R273 to R277, R284, R288 and R294: BATT_CONV_DONE and BATT_STEP. Rounding to value words is the model's (log entry 6), and so are the bounds within which the exponential is left open (log entry 15), the numbering of the windows (log entry 154) and the step that waits for its rest point or warning and is closed first by the next (log entry 40). -/
def Obligations.BatteryStepFiltersAndAccounts : Prop :=
  (∀ (s : State) (b : Fin 2) (c : BitVec 16),
    ((battRuns s = false ∨ s.tick % 1000 ≠ 0 ∨ (battOf s b).convAt = some s.tick) → exec (.battConvDone b c) s = .next s) ∧
    (battRuns s = true → s.tick % 1000 = 0 → (battOf s b).convAt ≠ some s.tick → AnswersNext (exec (.battConvDone b c) s) fun t =>
      (battOf t b).samples = (battOf s b).samples ++ [(s.tick / 10000, c.toNat)] ∧ (∀ d, d ≠ b → battOf t d = battOf s d) ∧
      SameMemory s t ∧
      ((c = 0 ∨ c = 65535) → bit t (Fld.BATT_STATUS_VOVR b) = true ∧ bit t (Fld.BATT_EVENT_VOVR b) = true ∧ CorrectedReported s t 0x0605) ∧
      (c ≠ 0 → c ≠ 65535 → t = { s with batts := t.batts }))) ∧
  (∀ (s : State) (b : Fin 2), battRuns s = true → s.tick % 10000 = 0 → (battOf s b).stepAt ≠ some s.tick →
    (battOf s b).closing = none → bit s (Fld.BATT_CFG_EN b) = true → battValid s b = true →
    battAbsent s b = false → (battOf s b).swapped = false → (battOf s b).restoreDue = false → (battOf s b).coldDue = false →
    AnswersNext (exec (.battStep b) s) fun t =>
      let x := battOf s b
      let k := s.tick / 10000
      let mine := (x.samples.filter fun e => e.1 + 1 == k).map Prod.snd
      let ok := mine.length == 10 && !(mine.any fun c => c == 0 || c == 65535)
      let v : Rat := if ok then ((mine.sum : Nat) : Rat) / 10 * (8 / 10) / 65536 * bv s (Reg.BATT_VSCALE b) else x.v
      let i : Rat := ((x.charge.filter fun e => e.1 + 1 == k).map Prod.snd).sum / (1 / 100) - bv s (Reg.BATT_IPAR b)
      let dq := i * (1 / 100) / (3600 * x.qcap)
      let a1 := expR (-(1 / 100) / battModel s b 2 x.temp)
      let a2 := expR (-(1 / 100) / battModel s b 4 x.temp)
      let v1 := a1 * x.v1 + battModel s b 1 x.temp * (1 - a1) * i
      let v2 := a2 * x.v2 + battModel s b 3 x.temp * (1 - a2) * i
      let vm := battOcv s b (x.socv + dq) x.temp + battModel s b 0 x.temp * x.r0f * i + v1 + v2
      let ls := bv s (Reg.BATT_LSTEP b)
      (battOf t b).v = v ∧ (battOf t b).i = i ∧ (battOf t b).valid = ok ∧ (battOf t b).v1 = v1 ∧ (battOf t b).v2 = v2 ∧
      (battOf t b).socv = (if ok then clip01 (x.socv + dq + clipR (bv s (Reg.BATT_LGAIN b) * (v - vm)) (-ls) ls)
        else clip01 (x.socv + dq)) ∧
      (battOf t b).socq = clipR (x.socq + dq) (-1) 2 ∧ (battOf t b).qsum = x.qsum + i * (1 / 100) / 3600 ∧
      (battOf t b).samples = (x.samples.filter fun e => decide (k ≤ e.1)) ∧
      (battOf t b).charge = (x.charge.filter fun e => decide (k ≤ e.1)) ∧ (battOf t b).stepAt = some s.tick ∧
      rd t (Reg.BATT_V b) = vwOf v ∧ rd t (Reg.BATT_I b) = vwOf i ∧ rd t (Reg.BATT_SOC b) = vwOf (battOf t b).socv ∧
      (battOf t b).snapDue = false ∧ ((battOf t b).closing = none ∨ (battOf t b).closing = some x.snapDue) ∧
      (x.snapDue = true → (battOf t b).closing = none →
        (rd t (Reg.BATT_SEQ b)).toNat = ((rd s (Reg.BATT_SEQ b)).toNat + 1) % 2 ^ 32 ∧ bit t (Fld.BATT_EVENT_SNAP_READY b) = true) ∧
      (∀ d, d ≠ b → battOf t d = battOf s d) ∧ SameMemory s t) ∧
  (∀ (s : State) (b : Fin 2) (n : Bool), battRuns s = true → s.tick % 10000 = 0 → (battOf s b).stepAt ≠ some s.tick →
    (battOf s b).closing = some n → exec (.battStep b) s = exec (.battStep b) (closeStep s b n)) ∧
  (∀ (s : State) (b : Fin 2), (battRuns s = false ∨ s.tick % 10000 ≠ 0 ∨ (battOf s b).stepAt = some s.tick) →
    exec (.battStep b) s = .next s) ∧
  ∀ (s : State) (b : Fin 2), battRuns s = true → s.tick % 10000 = 0 → (battOf s b).stepAt ≠ some s.tick →
    (battOf s b).closing = none → bit s (Fld.BATT_CFG_EN b) = false → (battOf s b).restoreDue = false →
    (battOf s b).snapDue = false → AnswersNext (exec (.battStep b) s) fun t =>
      (battOf t b).samples = ((battOf s b).samples.filter fun e => decide (s.tick / 10000 ≤ e.1)) ∧
      (battOf t b).stepAt = some s.tick ∧ (battOf t b).socv = (battOf s b).socv ∧ (battOf t b).age = (battOf s b).age ∧
      (∀ d, d ≠ b → battOf t d = battOf s d) ∧ SameBits [Fld.BATT_STATUS_VOVR b] s t ∧
      t = { s with live := t.live, batts := t.batts }

/-- R279 to R282, R288, R290 and R293: BATT_REST_POINT, BATT_UNANCHORED, BATT_DISAGREE, BATT_SNAP, BATT_SAVEP_EXPIRE, BATT_RESTORE. That UNANCHORED and DISAGREE wait for the rest point of their step (log entry 40) and that a SAVEP period begins where the last ended (log entry 156) are the model's. -/
def Obligations.BatteryAnchorsAgesAndSnapshots : Prop :=
  (∀ (s : State) (b : Fin 2),
    ((battValid s b = false ∨ (battOf s b).valid = false ∨ ∀ n, (battOf s b).rest = some n → n < (battOf s b).restDue) →
      exec (.battRestPoint b) s = .next s) ∧
    (∀ n, (battOf s b).rest = some n → battValid s b = true → (battOf s b).valid = true → (battOf s b).restDue ≤ n →
      let x := battOf s b
      let sa := battInvOcv s b (x.v - battModel s b 0 x.temp * x.r0f * x.i - x.v1 - x.v2) x.temp
      let tr := 1000000 * fget s (Fld.BATT_TIMING_TREST b)
      AnswersNext (exec (.battRestPoint b) s) fun t =>
        SameMemory s t ∧ (∀ d, d ≠ b → battOf t d = battOf s d) ∧ (tr ≠ 0 → (battOf t b).restDue = (n / tr + 1) * tr) ∧
        (bv s (Reg.BATT_SLOPEMIN b) ≤ ocvSlope s b sa x.temp → battState t b = .anchored ∧ battValid t b = true ∧
          (battOf t b).socv = sa ∧ (battOf t b).socq = sa ∧ (battOf t b).soca = sa ∧ (battOf t b).age = 0 ∧
          (battOf t b).qsum = 0 ∧ bit t (Fld.BATT_STATUS_DISAGREE b) = false ∧ bit t (Fld.BATT_STATUS_COLD b) = false ∧
          bit t (Fld.BATT_EVENT_ANCHOR b) = true) ∧
        (ocvSlope s b sa x.temp < bv s (Reg.BATT_SLOPEMIN b) → bit t (Fld.BATT_EVENT_REST_WEAK b) = true ∧
          battState t b = battState s b ∧ (battOf t b).socv = x.socv ∧ (battOf t b).socq = x.socq ∧ (battOf t b).soca = x.soca ∧
          (battOf t b).age = x.age ∧ (battOf t b).qcap = x.qcap))) ∧
  (∀ (s : State) (b : Fin 2),
    let age := battState s b = .anchored ∧ ((fget s (Fld.BATT_TIMING_AMAX b) * 3600 : Nat) : Rat) ≤ (battOf s b).age
    let gap := battValid s b = true ∧ ∃ n, (battOf s b).gap = some n ∧ 1000000 * fget s (Fld.BATT_DTIME_DTIME b) ≤ n
    ((¬ age ∨ restPointDue s b = true) → exec (.battUnanchored b) s = .next s) ∧
    ((¬ gap ∨ restPointDue s b = true) → exec (.battDisagree b) s = .next s) ∧
    (age → restPointDue s b = false → AnswersNext (exec (.battUnanchored b) s) fun t =>
      battState t b = .unanchored ∧ battValid t b = true ∧ bit t (Fld.BATT_EVENT_UNANCHORED b) = true ∧
      CorrectedReported s t 0x0602 ∧ (battOf t b).socv = (battOf s b).socv ∧ (battOf t b).age = (battOf s b).age ∧
      (∀ d, d ≠ b → battOf t d = battOf s d) ∧ SameMemory s t) ∧
    (gap → restPointDue s b = false → AnswersNext (exec (.battDisagree b) s) fun t =>
      bit t (Fld.BATT_STATUS_DISAGREE b) = true ∧ bit t (Fld.BATT_EVENT_DISAGREE b) = true ∧ (battOf t b).gap = none ∧
      CorrectedReported s t 0x0603 ∧ (battOf t b).socv = (battOf s b).socv ∧ (battOf t b).socq = (battOf s b).socq ∧
      (∀ d, d ≠ b → battOf t d = battOf s d) ∧ SameMemory s t)) ∧
  (∀ (s : State) (b : Fin 2), AnswersNext (exec (.battSnap b) s) fun t =>
    t = setBatt s b fun x => { x with snapDue := true }) ∧
  (∀ (s : State) (b : Fin 2),
    let p := 60000000 * fget s (Fld.BATT_TIMING_SAVEP b)
    ((p = 0 ∨ s.tick < (battOf s b).saveAt + p) → exec (.battSavepExpire b) s = .next s) ∧
    (p ≠ 0 → (battOf s b).saveAt + p ≤ s.tick → AnswersNext (exec (.battSavepExpire b) s) fun t =>
      t = setBatt s b fun x => { x with snapDue := true, saveAt := x.saveAt + p })) ∧
  (∀ (s : State) (b : Fin 2), AnswersNext (exec (.battRestore b) s) fun t =>
    t = setBatt s b fun x => { x with restoreDue := true }) ∧
  ∀ (s : State) (b : Fin 2), battRuns s = true → s.tick % 10000 = 0 → (battOf s b).stepAt ≠ some s.tick →
    (battOf s b).closing = none → (battOf s b).restoreDue = true →
    (bit s (Fld.BATT_CFG_EN b) = false ∨ (battAbsent s b = false ∧ (battOf s b).swapped = false)) →
    AnswersNext (exec (.battStep b) s) fun t =>
      bit t (Fld.BATT_RRES_DONE b) = true ∧ fget t (Fld.BATT_RRES_REASON b) = restoreReason s b ∧
      (bit s (Fld.BATT_CFG_EN b) = false → fget t (Fld.BATT_RRES_REASON b) = 1 ∧ bit t (Fld.BATT_EVENT_RESTORE_REF b) = true ∧
        CorrectedReported s t 0x0604) ∧
      (battOf t b).restoreDue = false ∧ SameMemory s t

/-- R298 to R312 and R421: HK_ROUND_START, HK_EVALUATE, HK_PUBLISH and HK_CNT_CLR. The level as the larger of what the thresholds and the rate of rise give (log entry 51), the limits of NVM_INH taken by its state (log entry 53) and the settings copied at the start of the round (log entry 54) are the model's readings. -/
def Obligations.HousekeepingRoundJudgesTemperatures : Prop :=
  (∀ (s : State) (c : HkCodes),
    ((hkRuns s = false ∨ s.hk.phase ≠ .idle ∨ s.tick < s.hk.nextAt) → exec (.hkRoundStart c) s = .next s) ∧
    (hkRuns s = true → s.hk.phase = .idle → s.hk.nextAt ≤ s.tick → AnswersNext (exec (.hkRoundStart c) s) fun t =>
      t.hk.phase = .converting ∧ t.hk.startAt = s.tick ∧ t.hk.nextAt = s.tick + 100 * fget s Fld.HK_CFG_PER ∧
      (∀ i : Fin 40, t.hk.codes.get i = (c.codes.get i).toNat) ∧ (∀ i : Fin 8, t.hk.die.get i = (c.die.get i).toInt) ∧
      (∀ a, 0x9000 ≤ a → a < 0x9800 → storeGet regReset t.hk.cfg a = rd s a) ∧ t = { s with hk := t.hk })) ∧
  (∀ s : State,
    ((hkRuns s = false ∨ s.hk.phase ≠ .converting ∨ s.tick < s.hk.startAt + 40) → exec .hkEvaluate s = .next s) ∧
    (hkRuns s = true → s.hk.phase = .converting → s.hk.startAt + 40 ≤ s.tick → AnswersNext (exec .hkEvaluate s) fun t =>
      t.hk.phase = .evaluated ∧ SameMemory s t ∧ t.hk.codes = s.hk.codes ∧
      (∀ i : Fin 18, t.hk.raw.get i = rawTemp s i) ∧ (∀ i : Fin 8, rawTemp s i = s.hk.die.get i) ∧
      (∀ i : Fin 18, 8 ≤ i.val → (vget 0 s.hk.codes i < 16 ∨ 4079 < vget 0 s.hk.codes i) → t.hk.broken.testBit i = true) ∧
      t.hk.nvmInh = (if s.hk.nvmInh then !(decide (tjMax t ≤ degC 113) && decide (degC (-38) ≤ tjMin t))
        else decide (degC 115 < tjMax t) || decide (tjMin t < degC (-40))) ∧
      (∀ g : Fin 8, groupOn s g = true → t.hk.hot2.get g = decide (gHot2 s g ≤ t.hk.gtemp.get g) ∧
        t.hk.level.get g = (if t.hk.ror.get g then max (judgeLevel s g (t.hk.gtemp.get g) (s.hk.level.get g)) (hget s (Fld.HK_G_CFG_RORLVL g))
          else judgeLevel s g (t.hk.gtemp.get g) (s.hk.level.get g))) ∧
      bit t Fld.REC_STATUS_HU_READY = decide (3208 ≤ vget 0 s.hk.codes 26))) ∧
  (∀ s : State,
    ((hkRuns s = false ∨ s.hk.phase ≠ .evaluated ∨ s.tick < s.hk.startAt + 41) → exec .hkPublish s = .next s) ∧
    (hkRuns s = true → s.hk.phase = .evaluated → s.hk.startAt + 41 ≤ s.tick → AnswersNext (exec .hkPublish s) fun t =>
      (∀ i, i < 40 → fget t (Fld.HK_CODE_CODE i) = vget 0 s.hk.codes i % 4096) ∧
      (∀ k, k < 18 → fget t (Fld.HK_TEMP_TEMP k) = ofSigned 16 (sensorTemp s k) ∧ bit t (Fld.HK_TEMP_BROKEN k) = sensorBroken s k) ∧
      (∀ c, c < 32 → fget t (levelFld c) = courseLevel s c % 16) ∧
      fget t Fld.HK_TJ_TJMAX = ofSigned 16 (tjMax s) ∧ fget t Fld.HK_TJ_TJMIN = ofSigned 16 (tjMin s) ∧
      bit t Fld.HK_STATUS_FIRST = true ∧ bit t Fld.HK_STATUS_NVM_INH = s.hk.nvmInh ∧
      fget t Fld.HK_ROUNDS_ROUNDS = min (fget s Fld.HK_ROUNDS_ROUNDS + 1) (2 ^ 32 - 1) ∧
      SameRegsOutside (fun a => decide (0x9000 ≤ a ∧ a < 0x9800)) s t ∧
      (s.hk.nvmInh = false → t.trust.kept.bootCnt = s.trust.bootCnt ∧ t.trust.kept.keys = s.trust.keys ∧ t.trust.kept.fwStg = s.trust.fwStg) ∧
      (s.hk.nvmInh = true → t.trust = s.trust) ∧
      t = { s with
        live := t.live
        hk := { s.hk with phase := .idle, engine := t.hk.engine }
        trust := { s.trust with kept := t.trust.kept } })) ∧
  ∀ s : State, AnswersNext (exec .hkCntClr s) fun t =>
    rd t Reg.HK_ROUNDS = 0 ∧ SameBits [wholeReg Reg.HK_ROUNDS] s t ∧ t = { s with live := t.live }

/-- R306: THROTTLE_APPLY. -/
def Obligations.ThrottleActsEverySixteenRounds : Prop :=
  (∀ (s : State) (c : Fin 32), fget s Fld.SCHED_ROUNDS_ROUNDS % 16 = 0 → AnswersNext (exec (.throttleApply c) s) fun t =>
    t.hk.inForce.get c = s.hk.atEngine.get c ∧ (∀ d, d ≠ c → t.hk.inForce.get d = s.hk.inForce.get d) ∧
    (∀ d : Fin 32, t.hk.muted.testBit d = mutedIn t (fget s Fld.SCHED_ROUNDS_ROUNDS) (holdupCourse s d) d) ∧
    t.hk = { s.hk with inForce := t.hk.inForce, muted := t.hk.muted } ∧
    (∀ p : Fin 32, portUsed s p = true → t.hk.muted.testBit (courseOf s p) = true → PortLow t p) ∧
    SameRegsOutside (fun a => a == Reg.TEST_PWM_STAT || decide (0x10000 ≤ a ∧ a < 0x18000)) s t ∧ SameMemory s t) ∧
  ∀ (s : State) (c : Fin 32), fget s Fld.SCHED_ROUNDS_ROUNDS % 16 ≠ 0 → exec (.throttleApply c) s = .next s

/-- R87, R88, R161 and R373: QPUSH. -/
def Obligations.QueuesKeepWholeRecords : Prop :=
  (∀ (s : State) (l : LaneFields) (f : Nat) (q : Fin 64), laneActs s 0x20 l = true → l.ctx.toNat = q.val → l.argBits 13 1 = 1 →
    let n := if l.argBits 8 5 = 0 then 32 else l.argBits 8 5
    AnswersNext (exec (.qpush l f) s) fun t =>
      (∀ k, k ≠ q → queueOf t k = queueOf s k) ∧ SameMemory s t ∧
      (openRec t q).map (·.left) = (if n = 1 then none else some (n - 1)) ∧
      (n ≤ engineFree s q →
        (queueOf t q).entries = (queueOf s q).entries ++ [telemetryWord s (telemetryEntry s (l.argBits 0 8)).1 f none] ∧
        SameRegsOutside (fun a => [Reg.HOSTIF_Q_STAT q, Reg.HOSTIF_QEVENT_LO, Reg.HOSTIF_QEVENT_HI, Reg.HOSTIF_STATUS].contains a) s t) ∧
      (engineFree s q < n → queueOf t q = queueOf s q ∧ bit t Fld.SCHED_EVENT_QDROP = true ∧
        fget t (Fld.HOSTIF_Q_DROP_DROP q) = min (fget s (Fld.HOSTIF_Q_DROP_DROP q) + 1) (2 ^ 32 - 1) ∧
        fget t Fld.SCHED_QDROP_QDROP = min (fget s Fld.SCHED_QDROP_QDROP + 1) (2 ^ 32 - 1) ∧
        SameBits [Fld.HOSTIF_Q_DROP_DROP q, Fld.SCHED_QDROP_QDROP, Fld.SCHED_EVENT_QDROP] s t)) ∧
  (∀ (s : State) (l : LaneFields) (f : Nat) (q : Fin 64) (r : OpenRec), laneActs s 0x20 l = true → l.ctx.toNat = q.val →
    l.argBits 13 1 = 0 → openRec s q = some r → r.dropped = false → AnswersNext (exec (.qpush l f) s) fun t =>
      (queueOf t q).entries = (queueOf s q).entries ++ [telemetryWord s (telemetryEntry s (l.argBits 0 8)).1 f r.high] ∧
      (∀ k, k ≠ q → queueOf t k = queueOf s k) ∧ SameMemory s t ∧
      SameRegsOutside (fun a => [Reg.HOSTIF_Q_STAT q, Reg.HOSTIF_QEVENT_LO, Reg.HOSTIF_QEVENT_HI, Reg.HOSTIF_STATUS].contains a) s t) ∧
  (∀ (s : State) (l : LaneFields) (f : Nat) (q : Fin 64) (r : OpenRec), laneActs s 0x20 l = true → l.ctx.toNat = q.val →
    l.argBits 13 1 = 0 → openRec s q = some r → r.dropped = true → AnswersNext (exec (.qpush l f) s) fun t =>
      (openRec t q).map (·.left) = (if r.left ≤ 1 then none else some (r.left - 1)) ∧ t = { s with sched := t.sched }) ∧
  (∀ (s : State) (l : LaneFields) (f : Nat) (q : Fin 64), l.ctx.toNat = q.val → l.argBits 13 1 = 0 → openRec s q = none →
    exec (.qpush l f) s = .next s) ∧
  ∀ (s : State) (l : LaneFields) (f : Nat), (laneActs s 0x20 l = false ∨ 64 ≤ l.ctx.toNat) →
    exec (.qpush l f) s = .next s

/-- R372 to R377: the seven queue commands. The stalled read of the core (log entry 162), the flush that frees when it applies (log entry 161) and the sides from which a queue is seen (log entry 57) are the model's readings. -/
def Obligations.QueueReadersAndWatermarks : Prop :=
  (∀ (s : State) (q : Fin 64), (∀ r, s.host.bulk = some r → r.wait = none) → (∀ r, s.host.tw = some r → r.wait = none) →
    s.host.coreRead = none →
    ((queueOf s q).entries.length ≤ (queueOf s q).vis → exec (.queueEntryVisible q) s = .next s) ∧
    ((queueOf s q).vis < (queueOf s q).entries.length → AnswersNext (exec (.queueEntryVisible q) s) fun t =>
      queueOf t q = { queueOf s q with vis := (queueOf s q).vis + 1 } ∧
      fget t (Fld.HOSTIF_Q_STAT_FILL q) = ((queueOf s q).vis + 1) % 2 ^ 13 ∧
      (∀ k, k ≠ q → queueOf t k = queueOf s k) ∧ t = { s with live := t.live, queues := t.queues })) ∧
  (∀ (s : State) (q : Fin 64) (w : Word) (ws : List Word), (∀ r, s.host.bulk = some r → r.wait = none) →
    (∀ r, s.host.tw = some r → r.wait = none) → s.host.coreRead = some q → mayPop s .core q = true →
    (queueOf s q).entries = w :: ws → (queueOf s q).vis = 0 → AnswersNext (exec (.queueEntryVisible q) s) fun t =>
      t.host.popped = w ∧ t.host.coreRead = none ∧ (queueOf t q).entries = ws ∧ (queueOf t q).vis = 0 ∧
      (queueOf t q).unfreed = (queueOf s q).unfreed + 1 ∧ (∀ k, k ≠ q → queueOf t k = queueOf s k) ∧
      t = { s with live := t.live, queues := t.queues, host := t.host }) ∧
  (∀ (s : State) (q k : Fin 64), s.host.coreRead = some k → exec (.queuePop .core q) s = .next s) ∧
  (∀ (s : State) (p : Path) (q : Fin 64) (w : Word) (ws : List Word) (n : Nat), (p = .core → s.host.coreRead = none) →
    mayPop s p q = true → (queueOf s q).entries = w :: ws → (queueOf s q).vis = n + 1 → AnswersNext (exec (.queuePop p q) s) fun t =>
      t.host.popped = w ∧ (queueOf t q).entries = ws ∧ (queueOf t q).vis = n ∧ (queueOf t q).unfreed = (queueOf s q).unfreed + 1 ∧
      fget t (Fld.HOSTIF_Q_STAT_FILL q) = n % 2 ^ 13 ∧ (∀ k, k ≠ q → queueOf t k = queueOf s k) ∧
      t = { s with live := t.live, queues := t.queues, host := { s.host with popped := w } }) ∧
  (∀ (s : State) (p : Path) (q : Fin 64), (p = .core → s.host.coreRead = none) → mayPop s p q = true → (queueOf s q).vis = 0 →
    exec (.queuePop p q) s = .next (if p = .core then { s with host := { s.host with coreRead := some q } } else s)) ∧
  (∀ (s : State) (p : Path) (q : Fin 64), (p = .core → s.host.coreRead = none) → mayPop s p q = false → AnswersNext (exec (.queuePop p q) s) fun t =>
    t.host.popped = 0 ∧ t.queues = s.queues ∧ CorrectedReported s t 0x0901 ∧ SameMemory s t) ∧
  (∀ (s : State) (q : Fin 64), (queueOf s q).unfreed = 0 → exec (.queueSpaceFreed q) s = .next s) ∧
  (∀ (s : State) (q : Fin 64) (n : Nat), (queueOf s q).unfreed = n + 1 → AnswersNext (exec (.queueSpaceFreed q) s) fun t =>
    queueOf t q = { queueOf s q with unfreed := n } ∧ (∀ k, k ≠ q → queueOf t k = queueOf s k) ∧
    t = { s with live := t.live, queues := t.queues }) ∧
  (∀ (s : State) (q : Fin 64) (v : Word), AnswersNext (exec (.queueWmWrite q v) s) fun t =>
    fget t (Fld.HOSTIF_Q_WM_PIN_EN q) = getBits v 29 1 ∧ fget t (Fld.HOSTIF_Q_WM_PIN q) = getBits v 30 2 ∧ t = { s with live := t.live } ∧
    (getBits v 0 13 ≠ 0 → (getBits v 0 13 ≤ getBits v 16 13 ∨ queueDepth s q - 2 < getBits v 0 13) →
      fget t (Fld.HOSTIF_Q_WM_HI q) = fget s (Fld.HOSTIF_Q_WM_HI q) ∧ fget t (Fld.HOSTIF_Q_WM_LO q) = fget s (Fld.HOSTIF_Q_WM_LO q)) ∧
    ((getBits v 0 13 = 0 ∨ (getBits v 16 13 < getBits v 0 13 ∧ getBits v 0 13 ≤ queueDepth s q - 2)) →
      fget t (Fld.HOSTIF_Q_WM_HI q) = getBits v 0 13 ∧ fget t (Fld.HOSTIF_Q_WM_LO q) = getBits v 16 13)) ∧
  (∀ (s : State) (q : Fin 64), AnswersNext (exec (.queueFlush q) s) fun t =>
    queueOf t q = { queueOf s q with flush := true } ∧ (∀ k, k ≠ q → queueOf t k = queueOf s k) ∧ t = { s with queues := t.queues }) ∧
  (∀ (s : State) (q : Fin 64), ((queueOf s q).flush = false ∨ (openRec s q).isSome = true) → exec (.queueFlushApply q) s = .next s) ∧
  (∀ (s : State) (q : Fin 64), (queueOf s q).flush = true → openRec s q = none → AnswersNext (exec (.queueFlushApply q) s) fun t =>
    (queueOf t q).entries = [] ∧ (queueOf t q).vis = 0 ∧ (queueOf t q).flush = false ∧ bit t (Fld.HOSTIF_Q_STAT_EMPTY q) = true ∧
    (∀ k, k ≠ q → queueOf t k = queueOf s k) ∧ t = { s with live := t.live, queues := t.queues }) ∧
  ∀ (s : State) (q : Fin 64), AnswersNext (exec (.queueDropClr q) s) fun t =>
    rd t (Reg.HOSTIF_Q_DROP q) = 0 ∧ SameBits [wholeReg (Reg.HOSTIF_Q_DROP q)] s t ∧ t = { s with live := t.live }

/-- R11, with R524 for image-only words: reads of the map and REG_WRITE. -/
def Obligations.UnassignedAddressesReadZero : Prop :=
  (∀ (s : State) (p : Path) (a : BitVec 32), hostReady s = true → inRecovery s = false → a.toNat % 4 = 0 →
    regRow? a.toNat = none → imageOnly a.toNat = false → ¬ (0x20000 ≤ a.toNat ∧ a.toNat < 0x30000) →
    ¬ (0x300000 ≤ a.toNat ∧ a.toNat < 0x380000) → ¬ (0x10000000 ≤ a.toNat ∧ a.toNat < 0x10400000) →
    ∃ u, hostRead p a.toNat s = some (0, u) ∧ CorrectedReported s u 0x0901 ∧ bit u Fld.HOSTIF_EVENT_UNASSIGNED = true ∧
      (∀ b, faultOrRec b = false → b ≠ Reg.HOSTIF_EVENT → rd u b = rd s b) ∧
      SameMemory s u ∧ u = { s with live := u.live, fault := u.fault, saddle := u.saddle } ∧
      ∀ v : Word, exec (.regWrite p a v) s = .next u) ∧
  ∀ (s : State) (p : Path) (a : BitVec 32), inRecovery s = false → imageOnly a.toNat = true →
    hostRead p a.toNat s = some (0, s) ∧ ∀ v : Word, exec (.regWrite p a v) s = .next s

/-- R12, R14, R16, R18, R349, R374 and R383: REG_WRITE and HOSTIF_CNT_CLR. That a write to the NVM window is logged as a refused write is the model's reading of R12 (log entry 112). -/
def Obligations.MapWritesFollowAccessCodes : Prop :=
  (∀ (s : State) (p : Path) (a : BitVec 32) (v : Word) (r : RegRow), hostReady s = true → inRecovery s = false → a.toNat % 4 = 0 →
    regRow? a.toNat = some r → imageOnly a.toNat = false → ownEffect a.toNat = false →
    let w := ignoreReserved a.toNat (rd s a.toNat) v
    AnswersNext (exec (.regWrite p a v) s) fun t =>
      (∀ f ∈ r.fields, getBits (rd t a.toNat) f.1 f.2.1 =
        afterWrite (hwdLocked s) (devState s == .idle) (getBits (rd s a.toNat) f.1 f.2.1) (getBits w f.1 f.2.1) f.2.2) ∧
      (∀ b, b ≠ a.toNat → faultOrRec b = false → b ≠ Reg.HOSTIF_EVENT → rd t b = rd s b) ∧ t.queues = s.queues ∧ SameMemory s t ∧
      (plainRefused s r = false → SameBits (r.fields.map fun f => ⟨a.toNat, f.1, f.2.1⟩) s t ∧ t = { s with live := t.live }) ∧
      (plainRefused s r = true → CorrectedReported s t 0x0902 ∧ bit t Fld.HOSTIF_EVENT_REFUSED = true)) ∧
  (∀ (s u : State) (p : Path) (a : Nat) (r : RegRow) (x : Word), regRow? a = some r → hostRead p a s = some (x, u) →
    ∀ f ∈ r.fields, f.2.2 = .wo → getBits x f.1 f.2.1 = 0) ∧
  (∀ (s : State) (p : Path) (a : BitVec 32) (v : Word), hostReady s = true → inRecovery s = false →
    ((0x20000 ≤ a.toNat ∧ a.toNat < 0x30000) ∨ (0x10000000 ≤ a.toNat ∧ a.toNat < 0x10400000)) →
    AnswersNext (exec (.regWrite p a v) s) fun t =>
      CorrectedReported s t 0x0902 ∧ bit t Fld.HOSTIF_EVENT_REFUSED = true ∧ t.queues = s.queues ∧ SameMemory s t ∧
      ∀ b, faultOrRec b = false → b ≠ Reg.HOSTIF_EVENT → rd t b = rd s b) ∧
  (∀ (s : State) (p : Path) (a : BitVec 32) (v : Word), hostReady s = false → exec (.regWrite p a v) s = .next s) ∧
  ∀ s : State, AnswersNext (exec .hostifCntClr s) fun t =>
    rd t Reg.HOSTIF_CNT = 0 ∧ SameBits [wholeReg Reg.HOSTIF_CNT] s t ∧ t = { s with live := t.live }

/-- R350 to R361: the eight bulk commands. That a transaction is ignored while one is open, and one of another row's command byte (log entry 68), is the model's reading. -/
def Obligations.BulkTransactionsCarryWholeWords : Prop :=
  (∀ (s : State) (h : BulkHead) (d : List Byte) (c : BitVec 16) (n : Nat),
    let t := setHost s fun x => { x with bulkStatus := statusByte s, bulkOut := [] }
    ((bulkFree s = false ∨ (bulkKnown h.cmd = true ∧ h.cmd ≠ 0x10)) → exec (.bulkWrite h d c n) s = .next s) ∧
    ((bulkFree s = false ∨ (bulkKnown h.cmd = true ∧ h.cmd ≠ 0x20)) → exec (.bulkQwrite h d c n) s = .next s) ∧
    ((bulkFree s = false ∨ (bulkKnown h.cmd = true ∧ h.cmd ≠ 0x11)) → exec (.bulkRead h n) s = .next s) ∧
    ((bulkFree s = false ∨ (bulkKnown h.cmd = true ∧ h.cmd ≠ 0x21)) → exec (.bulkQread h n) s = .next s) ∧
    (bulkFree s = true → hostReady s = false →
      (h.cmd = 0x10 → exec (.bulkWrite h d c n) s = .next t) ∧ (h.cmd = 0x20 → exec (.bulkQwrite h d c n) s = .next t) ∧
      (h.cmd = 0x11 → exec (.bulkRead h n) s = .next t) ∧ (h.cmd = 0x21 → exec (.bulkQread h n) s = .next t))) ∧
  (∀ (s : State) (h : BulkHead) (len : Nat), hostReady s = true → inRecovery s = false → s.host.bulk = none →
    0 < len → len ≤ 4096 → h.len.toNat % 8192 % 4096 = len % 4096 → h.len.toNat < 8192 →
    0x10000000 ≤ h.addr.toNat → h.addr.toNat + len ≤ 0x10400000 →
    (bit s Fld.HOSTIF_BULK_CFG_CRCREQ = true → h.len.getLsbD 12 = true) → s.nvmBad = [] →
    let bytes := (List.range len).map fun k => nvmWindow s (h.addr.toNat - 0x10000000 + k)
    let crc := if h.len.getLsbD 12 then beBytes 2 (crc16 (headBytes h ++ bytes)).toNat else []
    let t := setHost (wr s Reg.HOSTIF_BULK_STAT (BitVec.ofNat 32 (1 + 256 * len))) fun x =>
      { x with bulk := none, bulkOut := bytes ++ crc, bulkStatus := statusByte s }
    (h.cmd = 0x11 → exec (.bulkRead h (7 + len + crc.length)) s = .next t) ∧
    (h.cmd = 0x21 → exec (.bulkQread h (7 + len + crc.length)) s = .next t)) ∧
  (∀ (s : State) (h : BulkHead) (b0 b1 b2 b3 : Byte) (c : BitVec 16), hostReady s = true → s.host.bulk = none →
    h.len = 4 → h.addr.toNat % 4 = 0 → (regionEnd h.addr.toNat).2 = true → bit s Fld.HOSTIF_BULK_CFG_CRCREQ = false →
    let data := [b0, b1, b2, b3]
    let r := bulkRun s true h data c.toNat 11
    let u := hostWrite .bulk h.addr.toNat (b3 ++ b2 ++ b1 ++ b0)
      (setHost s fun x => { x with bulk := some r, bulkOut := [], bulkStatus := statusByte s })
    let t := if u.host.bulk.isNone then u else setHost (wr u Reg.HOSTIF_BULK_STAT (BitVec.ofNat 32 (1 + 256 * 4))) fun x => { x with bulk := none, bulkOut := [] }
    (h.cmd = 0x10 → exec (.bulkWrite h data c 11) s = .next t) ∧ (h.cmd = 0x20 → exec (.bulkQwrite h data c 11) s = .next t)) ∧
  (∀ (s : State) (h : BulkHead) (b0 b1 b2 b3 : Byte) (c : BitVec 16), hostReady s = true → s.host.bulk = none →
    h.len = 0x1004 → h.addr.toNat % 4 = 0 → (regionEnd h.addr.toNat).2 = true →
    crc16 (headBytes h ++ [b0, b1, b2, b3]) ≠ c →
    (h.cmd = 0x10 → AnswersNext (exec (.bulkWrite h [b0, b1, b2, b3] c 13) s) fun t =>
      bit t Fld.HOSTIF_BULK_STAT_CRC_ERR = true ∧ bit t Fld.HOSTIF_EVENT_CRC_ERR = true ∧ CorrectedReported s t 0x0903 ∧ SameMemory s t ∧
      (∀ a, faultOrRec a = false → [Reg.HOSTIF_BULK_STAT, Reg.HOSTIF_EVENT, Reg.HOSTIF_CNT].contains a = false → rd t a = rd s a)) ∧
    (h.cmd = 0x20 → AnswersNext (exec (.bulkQwrite h [b0, b1, b2, b3] c 13) s) fun t =>
      bit t Fld.HOSTIF_BULK_STAT_CRC_ERR = true ∧ bit t Fld.HOSTIF_EVENT_CRC_ERR = true ∧ CorrectedReported s t 0x0903 ∧ SameMemory s t ∧
      (∀ a, faultOrRec a = false → [Reg.HOSTIF_BULK_STAT, Reg.HOSTIF_EVENT, Reg.HOSTIF_CNT].contains a = false → rd t a = rd s a))) ∧
  (∀ s : State, bulkFree s = false → exec .bulkStatus s = .next s ∧ exec .bulkClrstat s = .next s) ∧
  (∀ s : State, bulkFree s = true → hostReady s = false →
    exec .bulkStatus s = .next (setHost s fun x => { x with bulkStatus := statusByte s, bulkOut := leBytes 4 0 }) ∧
    exec .bulkClrstat s = .next (setHost s fun x => { x with bulkStatus := statusByte s, bulkOut := [] })) ∧
  (∀ s : State, hostReady s = true → s.host.bulk = none →
    (AnswersNext (exec .bulkStatus s) fun t => t.host.bulkOut = leBytes 4 (rd s Reg.HOSTIF_BULK_STAT).toNat ∧
      t.host.bulkStatus = statusByte s ∧ t = { s with host := t.host }) ∧
    AnswersNext (exec .bulkClrstat s) fun t => getBits (rd t Reg.HOSTIF_BULK_STAT) 0 7 = 0 ∧
      SameBits [⟨Reg.HOSTIF_BULK_STAT, 0, 7⟩] s t ∧ t = { s with live := t.live, host := t.host }) ∧
  (∀ s : State, (s.host.bulk = none → exec .bulkAbort s = .next s) ∧
    ((∀ r k, s.host.bulk = some r → r.wait = some k → s.tick < k + 10 * fget s Fld.HOSTIF_BULK_CFG_TMO) →
      exec .bulkWaitTimeout s = .next s)) ∧
  (∀ (s : State) (r : BulkRun), s.host.bulk = some r → AnswersNext (exec .bulkAbort s) fun t =>
    t.host.bulk = none ∧ bit t Fld.HOSTIF_BULK_STAT_DONE = false ∧ SameBits [wholeReg Reg.HOSTIF_BULK_STAT] s t ∧
    t = { s with live := t.live, host := t.host }) ∧
  ∀ (s : State) (r : BulkRun) (k : Nat), s.host.bulk = some r → r.wait = some k → k + 10 * fget s Fld.HOSTIF_BULK_CFG_TMO ≤ s.tick →
    r.void = false → r.refused = false → r.crc = false → r.want = r.pos + 1 → r.len = r.pos + 1 →
    r.addr + r.pos < (regionEnd r.addr).1 → (regionEnd r.addr).2 = true →
    AnswersNext (exec .bulkWaitTimeout s) fun t =>
      t.host.bulk = none ∧ t.host.bulkOut = r.out ++ [wordByte (rd s Reg.HOSTIF_FILL) ((r.addr + r.pos) % 4)] ∧
      bit t Fld.HOSTIF_EVENT_BULK_TMO = true ∧ bit t Fld.HOSTIF_BULK_STAT_TMO = true ∧
      (0x20000 ≤ r.addr + r.pos → r.addr + r.pos < 0x30000 → bit t Fld.HOSTIF_EVENT_Q_FILL = true) ∧
      CorrectedReported s t 0x0905 ∧ SameMemory s t

/-- R13 and R363 to R370: the eight two-wire commands. That TW_RESET and the bus timeout end a controller transfer (log entry 78), how writes with PEC and the pointer act (log entry 69) and the controller's own code (log entry 79) are the model's. -/
def Obligations.TwoWireTargetAndController : Prop :=
  (∀ (s : State) (p : Option (BitVec 16)) (n : Nat) (bs : List Byte) (stop : Bool), (hostReady s = false ∨ s.host.tw.isSome = true) →
    exec (.twRead p n) s = .next s ∧ exec (.twWrite bs stop) s = .next s) ∧
  (∀ (s : State) (p : BitVec 16) (n : Nat), hostReady s = true → inRecovery s = false → s.host.tw = none →
    bit s Fld.HOSTIF_TW_CFG_PEC = false → 0xE000 ≤ p.toNat → p.toNat + n ≤ 0x10000 →
    0x10000000 ≤ winBase s → winBase s + 0x2000 ≤ 0x10400000 → s.nvmBad = [] →
    exec (.twRead (some p) n) s = .next (setHost s fun x => { x with
      tw := none
      twPtr := min (p.toNat + n) 0xFFFF
      twOut := (List.range n).map fun k => nvmWindow s (winBase s - 0x10000000 + (p.toNat - 0xE000) + k) })) ∧
  (∀ (s : State) (p : BitVec 16) (b0 b1 b2 b3 : Byte), hostReady s = true → s.host.tw = none → bit s Fld.HOSTIF_TW_CFG_PEC = false →
    p.toNat % 4 = 0 → exec (.twWrite (beBytes 2 p.toNat ++ [b0, b1, b2, b3]) true) s =
      .next (setHost (hostWrite .twoWire (twMap (winBase s) p.toNat) (b3 ++ b2 ++ b1 ++ b0)
        (setHost (twHold s false) fun x => { x with twPtr := p.toNat / 64 * 64 + (p.toNat + 4) % 64 })) fun x => { x with tw := none })) ∧
  (∀ (s : State) (bs : List Byte), hostReady s = true → s.host.tw = none → bit s Fld.HOSTIF_TW_CFG_PEC = true → bs ≠ [] →
    bs.length ≤ 67 → crc8Pec (twAddrByte s false :: bs.dropLast) ≠ bs.getLastD 0 → AnswersNext (exec (.twWrite bs true) s) fun t =>
      bit t Fld.HOSTIF_EVENT_PEC_ERR = true ∧ CorrectedReported s t 0x0907 ∧ SameMemory s t ∧ t.host = { s.host with twPtr := t.host.twPtr } ∧
      fget t Fld.HOSTIF_CNT_TW_ERR = min (fget s Fld.HOSTIF_CNT_TW_ERR + 1) (2 ^ 16 - 1) ∧
      ∀ a, faultOrRec a = false → [Reg.HOSTIF_EVENT, Reg.HOSTIF_CNT].contains a = false → rd t a = rd s a) ∧
  (∀ s : State, ((∀ r k, s.host.tw = some r → r.wait = some k → s.tick < k + 40 * fget s Fld.HOSTIF_TW_CFG_STRETCH) →
      exec .twStretchTimeout s = .next s) ∧
    ((hostReady s = false ∨ bit s Fld.HOSTIF_TW_CFG_SMBTO = false ∨ stretching s = true) → exec .twSmbTimeout s = .next s)) ∧
  (∀ (s : State) (r : TwRun) (k : Nat), s.host.tw = some r → r.wait = some k → k + 40 * fget s Fld.HOSTIF_TW_CFG_STRETCH ≤ s.tick →
    r.left = 1 → r.past = false → bit s Fld.HOSTIF_TW_CFG_PEC = false → AnswersNext (exec .twStretchTimeout s) fun t =>
      t.host.tw = none ∧ t.host.twOut = r.out ++ [wordByte (rd s Reg.HOSTIF_FILL) (twMap r.base s.host.twPtr % 4)] ∧
      (0x20000 ≤ twMap r.base s.host.twPtr → twMap r.base s.host.twPtr < 0x30000 → bit t Fld.HOSTIF_EVENT_Q_FILL = true) ∧
      SameBits [Fld.HOSTIF_EVENT_Q_FILL] s t ∧ t = { s with live := t.live, host := t.host }) ∧
  (∀ s : State, hostReady s = true → bit s Fld.HOSTIF_TW_CFG_SMBTO = true → stretching s = false →
    AnswersNext (exec .twSmbTimeout s) fun t =>
      t.host.tw = none ∧ t.host.twcOn = false ∧ bit t Fld.HOSTIF_TWC_STAT_BUSY = false ∧ bit t Fld.HOSTIF_EVENT_SMB_TMO = true ∧
      SameMemory s t ∧ ((∀ r, s.host.tw = some r → r.cut = false) → CorrectedReported s t 0x0908) ∧
      (∀ r, s.host.tw = some r → r.cut = true → bit t Fld.HOSTIF_EVENT_PARTIAL = true)) ∧
  (∀ s : State, AnswersNext (exec .twReset s) fun t =>
    t.host.tw = none ∧ t.host.twcOn = false ∧ bit t Fld.HOSTIF_TWC_STAT_BUSY = false ∧ SameMemory s t ∧
    ((∀ r, s.host.tw = some r → r.cut = false) → SameBits [Fld.HOSTIF_TWC_STAT_BUSY] s t) ∧
    (∀ r, s.host.tw = some r → r.cut = true → bit t Fld.HOSTIF_EVENT_PARTIAL = true ∧ CorrectedReported s t 0x0906)) ∧
  (∀ (s : State) (v : Word), bit s Fld.HOSTIF_TWC_STAT_BUSY = false → v.getLsbD 31 = true → getBits v 8 6 ≤ 32 → getBits v 16 6 ≤ 32 →
    (getBits v 8 6 ≠ 0 ∨ getBits v 16 6 ≠ 0) → AnswersNext (exec (.twcGo v) s) fun t =>
      bit t Fld.HOSTIF_TWC_STAT_BUSY = true ∧ rd t Reg.HOSTIF_TWC_STAT = 1 ∧ t.host.twcOn = false ∧
      fget t Fld.HOSTIF_TWC_CTRL_TADDR = getBits v 0 7 ∧ fget t Fld.HOSTIF_TWC_CTRL_WLEN = getBits v 8 6 ∧
      fget t Fld.HOSTIF_TWC_CTRL_RLEN = getBits v 16 6 ∧ SameBits [wholeReg Reg.HOSTIF_TWC_STAT, wholeReg Reg.HOSTIF_TWC_CTRL] s t ∧
      t = { s with live := t.live, host := t.host }) ∧
  (∀ (s : State) (v : Word), (bit s Fld.HOSTIF_TWC_STAT_BUSY = true ∨ v.getLsbD 31 = false) → AnswersNext (exec (.twcGo v) s) fun t =>
    SameBits [wholeReg Reg.HOSTIF_TWC_CTRL] s t ∧ t = { s with live := t.live }) ∧
  (∀ (s : State) (b : Option Bool), (bit s Fld.HOSTIF_TWC_STAT_BUSY = false ∨ s.host.twcOn = true ∨ s.host.tw.isSome = true) →
    exec (.twcStart b) s = .next s) ∧
  (∀ s : State, bit s Fld.HOSTIF_TWC_STAT_BUSY = true → s.host.twcOn = false → s.host.tw = none →
    exec (.twcStart none) s = .next (setHost s fun x => { x with twcOn := true, twcSent := twcFrame s }) ∧
    ∀ b : Bool, AnswersNext (exec (.twcStart (some b)) s) fun t => SameMemory s t ∧
      (fget s Fld.HOSTIF_TWC_STAT_TRIES < fget s Fld.HOSTIF_TWC_CTRL_RETRY →
        fget t Fld.HOSTIF_TWC_STAT_TRIES = fget s Fld.HOSTIF_TWC_STAT_TRIES + 1 ∧ bit t Fld.HOSTIF_TWC_STAT_BUSY = true ∧
        SameBits [Fld.HOSTIF_TWC_STAT_TRIES, Fld.HOSTIF_TWC_STAT_AS_TARGET] s t) ∧
      (fget s Fld.HOSTIF_TWC_CTRL_RETRY ≤ fget s Fld.HOSTIF_TWC_STAT_TRIES →
        bit t Fld.HOSTIF_TWC_STAT_ARB_LOST = true ∧ bit t Fld.HOSTIF_TWC_STAT_BUSY = false ∧ bit t Fld.HOSTIF_EVENT_TWC_FAIL = true ∧
        CorrectedReported s t 0x0909)) ∧
  (∀ (s : State) (k : Option Nat) (d : List Byte) (c : Byte), s.host.twcOn = false → exec (.twcDone k d c) s = .next s) ∧
  (∀ (s : State) (k : Nat) (d : List Byte) (c : Byte), s.host.twcOn = true → AnswersNext (exec (.twcDone (some k) d c) s) fun t =>
    t.host.twcSent = s.host.twcSent.take k ∧
    bit t Fld.HOSTIF_TWC_STAT_NACK = true ∧ bit t Fld.HOSTIF_TWC_STAT_BUSY = false ∧ bit t Fld.HOSTIF_EVENT_TWC_FAIL = true ∧
    t.host.twcOn = false ∧ fget t Fld.HOSTIF_CNT_TW_ERR = min (fget s Fld.HOSTIF_CNT_TW_ERR + 1) (2 ^ 16 - 1) ∧ SameMemory s t) ∧
  (∀ (s : State) (d : List Byte) (c : Byte), s.host.twcOn = true → bit s Fld.HOSTIF_TWC_CTRL_PEC = true →
    d.length = fget s Fld.HOSTIF_TWC_CTRL_RLEN → d ≠ [] → crc8Pec (s.host.twcSent ++ d) ≠ c →
    AnswersNext (exec (.twcDone none d c) s) fun t =>
      bit t Fld.HOSTIF_TWC_STAT_PEC_ERR = true ∧ bit t Fld.HOSTIF_TWC_STAT_BUSY = false ∧ bit t Fld.HOSTIF_EVENT_TWC_FAIL = true ∧
      bit t Fld.HOSTIF_EVENT_PEC_ERR = true ∧ t.host.twcOn = false ∧ CorrectedReported s t 0x0907 ∧ SameMemory s t) ∧
  ∀ (s : State) (d : List Byte) (c : Byte), s.host.twcOn = true →
    (bit s Fld.HOSTIF_TWC_CTRL_PEC = false ∨ d = [] ∨ crc8Pec (s.host.twcSent ++ d) = c) →
    d.length = fget s Fld.HOSTIF_TWC_CTRL_RLEN → d.length ≤ 32 → AnswersNext (exec (.twcDone none d c) s) fun t =>
      (twcBuf t).take d.length = d ∧ (twcBuf t).drop d.length = (twcBuf s).drop d.length ∧
      fget t Fld.HOSTIF_TWC_STAT_RCOUNT = d.length ∧ bit t Fld.HOSTIF_TWC_STAT_OK = true ∧ bit t Fld.HOSTIF_TWC_STAT_BUSY = false ∧
      bit t Fld.HOSTIF_EVENT_TWC_DONE = true ∧ t.host.twcOn = false ∧ SameMemory s t

/-- R389 to R394, R403 and R406: FAULT_CLR, FAULT_CLEAR_APPLY, ALIVE_TOGGLE, FAULT_CNT_CLR and FWD_EXPIRE. That a cleared entry's registers read 0 is the model's choice (log entry 41). -/
def Obligations.StandingEntriesClearWhenTheirCauseIsGone : Prop :=
  (∀ (s : State) (v : Word), AnswersNext (exec (.faultClr v) s) fun t =>
    (∀ c, c ∈ t.fault.candidates ↔ c ∈ s.fault.candidates ∨ (c.2 = s.tick ∧ (∀ k, (c.1, k) ∉ s.fault.candidates) ∧
      (if v.getLsbD 8 then c.1 ∈ validEntries s else c.1 = getBits v 0 6))) ∧
    t = { s with fault := { s.fault with candidates := t.fault.candidates } }) ∧
  (∀ (s : State) (g x : Bool) (e k : Nat), e < 64 → s.fault.candidates = [(e, k)] →
    (engineScope s e ≠ g ∨ (g = false ∧ s.tick ≤ k)) → AnswersNext (exec (.faultClearApply g x) s) fun t =>
      t.fault.candidates = [(e, k)] ∧ rd t (Reg.FAULT_ENTRY_CODE e) = rd s (Reg.FAULT_ENTRY_CODE e) ∧
      rd t (Reg.FAULT_ENTRY_CNT e) = rd s (Reg.FAULT_ENTRY_CNT e) ∧ SameMemory s t) ∧
  (∀ (s : State) (g x : Bool) (e k : Nat), e < 64 → s.fault.candidates = [(e, k)] → entryValid s e = true → engineScope s e = g →
    (g = true ∨ k < s.tick) →
    let u := { s with power := { s.power with xtalBad := s.power.xtalBad && !x } }
    AnswersNext (exec (.faultClearApply g x) s) fun t =>
      t.fault.candidates = [] ∧ SameMemory s t ∧
      (entryGone u e = false → rd t (Reg.FAULT_ENTRY_CODE e) = rd s (Reg.FAULT_ENTRY_CODE e) ∧
        rd t (Reg.FAULT_ENTRY_CNT e) = rd s (Reg.FAULT_ENTRY_CNT e) ∧ bit t Fld.FAULT_EVENT_CLR_REF = true) ∧
      (entryGone u e = true → ¬ (0x0120 ≤ fget s (Fld.FAULT_ENTRY_CODE_CODE e) ∧ fget s (Fld.FAULT_ENTRY_CODE_CODE e) ≤ 0x0127) →
        ¬ (0x0501 ≤ fget s (Fld.FAULT_ENTRY_CODE_CODE e) ∧ fget s (Fld.FAULT_ENTRY_CODE_CODE e) ≤ 0x0504) →
        fget s (Fld.FAULT_ENTRY_CODE_CODE e) ≠ 0x0601 → fget s (Fld.FAULT_ENTRY_CODE_KIND e) ≠ 3 →
        fget s (Fld.FAULT_ENTRY_CODE_KIND e) ≠ 4 →
        rd t (Reg.FAULT_ENTRY_CODE e) = 0 ∧ rd t (Reg.FAULT_ENTRY_CNT e) = 0 ∧ rd t (Reg.FAULT_ENTRY_TS_LO e) = 0 ∧
        rd t (Reg.FAULT_ENTRY_TS_HI e) = 0 ∧ bit t Fld.FAULT_EVENT_CLR_DONE = true ∧
        ∀ k, k ≠ e → k < 64 → rd t (Reg.FAULT_ENTRY_CODE k) = rd s (Reg.FAULT_ENTRY_CODE k))) ∧
  (∀ s : State, (∀ k, s.fault.aliveDue = some k → s.tick < k) → exec .aliveToggle s = .next s) ∧
  (∀ (s : State) (k : Nat), s.fault.aliveDue = some k → k ≤ s.tick → AnswersNext (exec .aliveToggle s) fun t =>
    bit t Fld.FAULT_STATUS_ALIVE = !bit s Fld.FAULT_STATUS_ALIVE ∧ t.fault.aliveDue = some (s.tick + 100 * fget s Fld.FAULT_CFG_HALF) ∧
    SameBits [Fld.FAULT_STATUS_ALIVE] s t ∧ t = { s with live := t.live, fault := { s.fault with aliveDue := t.fault.aliveDue } }) ∧
  (∀ s : State, AnswersNext (exec .faultCntClr s) fun t =>
    (∀ b, b < 13 → rd t (Reg.FAULT_BCNT b) = 0) ∧ rd t Reg.FAULT_HWD_SCNT = 0 ∧ t = { s with live := t.live } ∧
    SameRegsOutside (fun a => a == Reg.FAULT_HWD_SCNT || (List.range 13).any fun b => a == Reg.FAULT_BCNT b) s t) ∧
  (∀ (s : State) (code cls kind idx ts e : Nat), (cls = 1 ∨ cls = 2) → 0x0100 ≤ code → code < 0x0E00 → kind < 7 → idx < 32 →
    (cls = 2 → kind = 0 ∧ idx = 0) → matchingEntry s code kind idx = none → freeEntry s = some e →
    let t := report s code cls kind idx ts
    entryValid t e = true ∧ fget t (Fld.FAULT_ENTRY_CODE_CODE e) = code ∧ fget t (Fld.FAULT_ENTRY_CODE_CLASS e) = cls ∧
    fget t (Fld.FAULT_ENTRY_CODE_KIND e) = kind ∧ fget t (Fld.FAULT_ENTRY_CODE_INDEX e) = idx ∧ fget t (Fld.FAULT_ENTRY_CNT_CNT e) = 0 ∧
    ∀ k, k ≠ e → k < 64 → rd t (Reg.FAULT_ENTRY_CODE k) = rd s (Reg.FAULT_ENTRY_CODE k)) ∧
  (∀ (s : State) (pc : Word) (l : BitVec 64), (bit s Fld.FAULT_FWD_STAT_FROZEN = true ∨ s.trust.pause.isSome = true) →
    exec (.fwdExpire pc l) s = .next s) ∧
  ∀ (s : State) (pc : Word) (l : BitVec 64), bit s Fld.FAULT_FWD_STAT_FROZEN = false → s.trust.pause = none →
    AnswersNext (exec (.fwdExpire pc l) s) fun t =>
    rd t Reg.FAULT_FWD_PC = pc ∧ rd64 t Reg.FAULT_FWD_TS_LO Reg.FAULT_FWD_TS_HI = l.toNat ∧ bit t Fld.FAULT_FWD_STAT_EXPIRED = true ∧
    bit t Fld.FAULT_EVENT_FWD_EXP = true ∧ t.trust.pause = some (s.tick, false) ∧ SameMemory s t ∧
    ((devState s = .idle ∨ devState s = .armed ∨ devState s = .test) → devState t = .safe)

/-- R395 to R402: the six host-watchdog commands. -/
def Obligations.HostWatchdogJudgesEveryService : Prop :=
  (∀ (s : State) (v : Word),
    (bit s Fld.FAULT_HWD_CTRL_EN = true → exec .hwdEnable s = .next s) ∧
    ((hwdStopped s = true ∨ hwdLate s = true) → exec (.hwdAns v) s = .next s) ∧
    ((hwdStopped s = true ∨ s.tick < s.fault.hwdRef + fget s Fld.FAULT_HWD_CLOSE_CLOSE) → exec .hwdCloseExpire s = .next s) ∧
    (bit s Fld.FAULT_HWD_CTRL_EN = false → exec (.hwdCheckin v) s = .next s)) ∧
  (∀ s : State, bit s Fld.FAULT_HWD_CTRL_EN = false → AnswersNext (exec .hwdEnable s) fun t =>
    (fget s Fld.FAULT_HWD_OPEN_OPEN < fget s Fld.FAULT_HWD_CLOSE_CLOSE → fget s Fld.FAULT_HWD_CFG_SEED ≠ 0 →
      bit t Fld.FAULT_HWD_CTRL_EN = true ∧ fget t Fld.FAULT_HWD_Q_Q = fget s Fld.FAULT_HWD_CFG_SEED ∧ fget t Fld.FAULT_HWD_Q_NEXT = 0 ∧
      t.fault.hwdRef = s.tick ∧ (∀ i : Fin 8, slotCount t i = 0) ∧ t = { s with live := t.live, fault := t.fault } ∧
      SameBits [Fld.FAULT_HWD_CTRL_EN, Fld.FAULT_HWD_Q_Q, Fld.FAULT_HWD_Q_NEXT] s t) ∧
    ((fget s Fld.FAULT_HWD_CLOSE_CLOSE ≤ fget s Fld.FAULT_HWD_OPEN_OPEN ∨ fget s Fld.FAULT_HWD_CFG_SEED = 0) →
      bit t Fld.FAULT_HWD_CTRL_EN = false ∧ CorrectedReported s t 0x0A06 ∧ SameMemory s t)) ∧
  (∀ (s : State) (v : Word), hwdStopped s = false → hwdLate s = false → getBits v 8 2 = fget s Fld.FAULT_HWD_Q_NEXT →
    wordByte v 0 = answerByte (BitVec.ofNat 8 (fget s Fld.FAULT_HWD_Q_Q)) (getBits v 8 2) (rd s Reg.FAULT_HWD_TOKKEY) →
    AnswersNext (exec (.hwdAns v) s) fun t => SameMemory s t ∧
      (getBits v 8 2 < 3 → fget t Fld.FAULT_HWD_Q_NEXT = getBits v 8 2 + 1 ∧ SameBits [Fld.FAULT_HWD_Q_NEXT] s t ∧
        t = { s with live := t.live }) ∧
      (getBits v 8 2 = 3 → s.fault.hwdRef + fget s Fld.FAULT_HWD_OPEN_OPEN ≤ s.tick → slotErrors s = 0 →
        fget t Fld.FAULT_HWD_Q_Q = (nextQuestion (BitVec.ofNat 8 (fget s Fld.FAULT_HWD_Q_Q))).toNat ∧ fget t Fld.FAULT_HWD_Q_NEXT = 0 ∧
        fget t Fld.FAULT_HWD_STAT_FAILCNT = 0 ∧ bit t Fld.FAULT_EVENT_HWD_OK = true ∧ t.fault.hwdRef = s.tick ∧
        fget t Fld.FAULT_HWD_SCNT_SCNT = min (fget s Fld.FAULT_HWD_SCNT_SCNT + 1) (2 ^ 32 - 1) ∧
        t = { s with live := t.live, fault := t.fault }) ∧
      (getBits v 8 2 = 3 → s.tick < s.fault.hwdRef + fget s Fld.FAULT_HWD_OPEN_OPEN →
        fget t Fld.FAULT_HWD_STAT_FAILCNT = min (fget s Fld.FAULT_HWD_STAT_FAILCNT + 1) 7 ∧ fget t Fld.FAULT_HWD_STAT_CAUSE = 2) ∧
      (getBits v 8 2 = 3 → s.fault.hwdRef + fget s Fld.FAULT_HWD_OPEN_OPEN ≤ s.tick → slotErrors s ≠ 0 →
        fget t Fld.FAULT_HWD_STAT_FAILCNT = min (fget s Fld.FAULT_HWD_STAT_FAILCNT + 1) 7 ∧ fget t Fld.FAULT_HWD_STAT_CAUSE = 4 ∧
        fget t Fld.FAULT_HWD_STAT_SLOTERR = slotErrors s % 256)) ∧
  (∀ (s : State) (v : Word), hwdStopped s = false → hwdLate s = false →
    (getBits v 8 2 ≠ fget s Fld.FAULT_HWD_Q_NEXT ∨
      wordByte v 0 ≠ answerByte (BitVec.ofNat 8 (fget s Fld.FAULT_HWD_Q_Q)) (getBits v 8 2) (rd s Reg.FAULT_HWD_TOKKEY)) →
    AnswersNext (exec (.hwdAns v) s) fun t =>
      fget t Fld.FAULT_HWD_STAT_FAILCNT = min (fget s Fld.FAULT_HWD_STAT_FAILCNT + 1) 7 ∧ fget t Fld.FAULT_HWD_STAT_CAUSE = 3 ∧
      bit t Fld.FAULT_EVENT_HWD_FAIL = true ∧ t.fault.hwdRef = s.tick ∧ SameMemory s t) ∧
  (∀ s : State, hwdStopped s = false → s.fault.hwdRef + fget s Fld.FAULT_HWD_CLOSE_CLOSE ≤ s.tick →
    AnswersNext (exec .hwdCloseExpire s) fun t =>
      fget t Fld.FAULT_HWD_STAT_FAILCNT = min (fget s Fld.FAULT_HWD_STAT_FAILCNT + 1) 7 ∧ fget t Fld.FAULT_HWD_STAT_CAUSE = 1 ∧
      bit t Fld.FAULT_EVENT_HWD_FAIL = true ∧ t.fault.hwdRef = s.tick ∧ t.fault.hwdTick = some s.tick ∧ SameMemory s t ∧
      (devState s = .armed → fget s Fld.FAULT_HWD_CFG_FAILTH ≠ 0 →
        fget s Fld.FAULT_HWD_STAT_FAILCNT + 1 = fget s Fld.FAULT_HWD_CFG_FAILTH → devState t = .safe)) ∧
  (∀ (s : State) (v : Word), bit s Fld.FAULT_HWD_CTRL_EN = true → s.tick ≤ s.fault.slotTick → AnswersNext (exec (.hwdCheckin v) s) fun t =>
    t.fault.slotsLater.get (Fin.ofNat 8 (getBits v 0 3)) = min 31 (s.fault.slotsLater.get (Fin.ofNat 8 (getBits v 0 3)) + 1) ∧
    (∀ i, i ≠ Fin.ofNat 8 (getBits v 0 3) → t.fault.slotsLater.get i = s.fault.slotsLater.get i) ∧
    t = { s with fault := { s.fault with slotsLater := t.fault.slotsLater } }) ∧
  (∀ (s : State) (v : Word), bit s Fld.FAULT_HWD_CTRL_EN = true → s.fault.slotTick < s.tick → AnswersNext (exec (.hwdCheckin v) s) fun t =>
    t.fault.slotTick = s.tick ∧ (∀ i, t.fault.slots.get i = min 31 (s.fault.slots.get i + s.fault.slotsLater.get i)) ∧
    (∀ i, t.fault.slotsLater.get i = if i = Fin.ofNat 8 (getBits v 0 3) then 1 else 0) ∧
    t = { s with fault := { s.fault with slots := t.fault.slots, slotsLater := t.fault.slotsLater, slotTick := t.fault.slotTick } }) ∧
  (∀ s : State, AnswersNext (exec .hwdLock s) fun t =>
    bit t Fld.FAULT_HWD_CTRL_HWD_LOCK = true ∧ SameBits [Fld.FAULT_HWD_CTRL_HWD_LOCK] s t ∧ t = { s with live := t.live }) ∧
  ∀ (s : State) (v : Word), AnswersNext (exec (.hwdKey v) s) fun t => SameMemory s t ∧
    ((bit s Fld.FAULT_HWD_CTRL_HWD_LOCK = true ∨ (s.fault.keyAt = none ∧ getBits v 0 16 ≠ 0x4F55)) →
      bit t Fld.FAULT_HWD_CTRL_EN = bit s Fld.FAULT_HWD_CTRL_EN ∧ t.fault.keyAt = none ∧ CorrectedReported s t 0x0A06) ∧
    (bit s Fld.FAULT_HWD_CTRL_HWD_LOCK = false → s.fault.keyAt = none → getBits v 0 16 = 0x4F55 →
      t.fault.keyAt = some s.tick ∧ t = { s with fault := { s.fault with keyAt := some s.tick } }) ∧
    (∀ k, bit s Fld.FAULT_HWD_CTRL_HWD_LOCK = false → s.fault.keyAt = some k → getBits v 0 16 = 0x564E → s.tick < k + 32 →
      bit t Fld.FAULT_HWD_CTRL_EN = false ∧ t.fault.keyAt = none ∧ SameBits [Fld.FAULT_HWD_CTRL_EN, Fld.FAULT_HWD_Q_NEXT] s t) ∧
    (∀ k, bit s Fld.FAULT_HWD_CTRL_HWD_LOCK = false → s.fault.keyAt = some k → (getBits v 0 16 ≠ 0x564E ∨ k + 32 ≤ s.tick) →
      bit t Fld.FAULT_HWD_CTRL_EN = bit s Fld.FAULT_HWD_CTRL_EN ∧ t.fault.keyAt = none ∧ CorrectedReported s t 0x0A06)

/-- R408 to R414, R416, R418 to R420, R423, R428, R431 and R489: REC_BLOCK_WRITE_START, REC_BLOCK_WRITE_DONE, REC_NOTE, REC_SCRUB_ERASE and BROWNOUT. That a record leaves the queue at its start, and that its slot is erased then, is the model's choice (log entry 45), and so is what a refresh shows (log entry 76). -/
def Obligations.RecorderWritesWholeBlocks : Prop :=
  (∀ s : State,
    ((s.saddle.job.isSome = true ∨ nvmAllowed s = false ∨
      (blockWaits s = false ∧ (eraseWaits s = true ∨ stagingWaits s = true ∨ s.saddle.refreshDue = []))) →
      exec .recBlockWriteStart s = .next s) ∧
    (s.saddle.job = none → ∀ ok, exec (.recBlockWriteDone ok) s = .next s) ∧
    ((s.saddle.job.isSome = true ∨ nvmAllowed s = false ∨ blockWaits s = true ∨ s.saddle.snapErase = 0) →
      exec (.recScrubErase true) s = .next s) ∧
    ((s.saddle.job.isSome = true ∨ nvmAllowed s = false ∨ blockWaits s = true ∨ bit s Fld.REC_STATUS_SCRUB = false ∨
      s.tick < s.saddle.scrubAt ∨ bit s Fld.REC_STATUS_FROZEN = true) → exec (.recScrubErase false) s = .next s) ∧
    ((devState s = .off ∨ devState s = .hibernate) → exec .brownout s = .next s)) ∧
  (∀ (s : State) (x : Snapshot) (xs : List Snapshot), s.saddle.job = none → nvmAllowed s = true → startSaddlebag s = none →
    s.saddle.snapRun = none → s.saddle.snaps = x :: xs → bit s Fld.REC_STATUS_SNAPCLR = false → recordWaits s x = false →
    AnswersNext (exec .recBlockWriteStart s) fun t =>
      (∃ y, t.saddle.job = some (.snap y (rd s Reg.REC_SNAPSEQ).toNat 0) ∧ y = { x with recSeq := y.recSeq } ∧
        ∀ k, x.recSeq = some k → y.recSeq = some k) ∧
      t.saddle.snaps = xs ∧ (rd t Reg.REC_SNAPSEQ).toNat = ((rd s Reg.REC_SNAPSEQ).toNat + 1) % 2 ^ 32 ∧
      (∀ o, nvmByte t o = if snapBase x.course x.slot ≤ o ∧ o < snapBase x.course x.slot + 64 then 0xFF else nvmByte s o) ∧
      SameBits [wholeReg Reg.REC_SNAPSEQ, Fld.REC_STATUS_SPEND] s t ∧ t.engMem = s.engMem) ∧
  (∀ (s : State) (reason : Nat), s.saddle.job = none → nvmAllowed s = true → startSaddlebag s = none → startSnapshot s = none →
    s.saddle.commitRun = none → s.saddle.commitDue = some reason → AnswersNext (exec .recBlockWriteStart s) fun t =>
      let n := ((rd s Reg.REC_LEDGER).toNat + 1) % 2 ^ 32
      t.saddle.job = some (.ledger (ledgerImage s n reason) n reason 0) ∧ t.saddle.commitDue = none ∧ t.live = s.live ∧ t.engMem = s.engMem ∧
      ∀ o, nvmByte t o = if commitAtNvm n + 64 ≤ o ∧ o < commitAtNvm n + 128 then 0xFF else nvmByte s o) ∧
  (∀ (s : State) (x : Snapshot) (n k : Nat), s.saddle.job = none → nvmAllowed s = true → startSaddlebag s = none →
    s.saddle.snapRun = some (x, n, k) → AnswersNext (exec .recBlockWriteStart s) fun t =>
      let o := snapBase x.course x.slot + 64 * k
      t.saddle.job = some (.snap x n k) ∧ SameBits [Fld.REC_STATUS_SPEND] s t ∧ t.engMem = s.engMem ∧
      ∀ a, nvmByte t a = if o ≤ a ∧ a < o + 64 then 0xFF else nvmByte s a) ∧
  (∀ (s : State) (im : List Byte) (n reason k : Nat), s.saddle.job = none → nvmAllowed s = true → startSaddlebag s = none →
    startSnapshot s = none → s.saddle.commitRun = some (im, n, reason, k) → AnswersNext (exec .recBlockWriteStart s) fun t =>
      let o := commitAtNvm n + 64 * commitBlock k
      t.saddle.job = some (.ledger im n reason k) ∧ t.live = s.live ∧ t.engMem = s.engMem ∧
      ∀ a, nvmByte t a = if o ≤ a ∧ a < o + 64 then 0xFF else nvmByte s a) ∧
  (∀ (s : State) (r : Record), s.saddle.job = none → nvmAllowed s = true → recordsFlow s = true → s.saddle.retry = some r →
    (s.saddle.clearedFirst = false ∨ s.saddle.pending = []) → AnswersNext (exec .recBlockWriteStart s) fun t =>
      t.saddle.job = some (.record r (rd s Reg.REC_NEXT).toNat true) ∧ t.saddle.retry = none ∧ t.saddle.pending = s.saddle.pending ∧
      (rd t Reg.REC_NEXT).toNat = ((rd s Reg.REC_NEXT).toNat + 1) % 2 ^ 32 ∧ SameBits [wholeReg Reg.REC_NEXT] s t) ∧
  (∀ (s : State) (o : Nat) (os : List Nat), s.saddle.job = none → nvmAllowed s = true → blockWaits s = false → eraseWaits s = false →
    stagingWaits s = false → s.saddle.refreshDue = o :: os → AnswersNext (exec .recBlockWriteStart s) fun t =>
      t.saddle.refreshDue = os ∧ t.live = s.live ∧ t.engMem = s.engMem ∧
      (mayRefresh s o = false → t.saddle.job = none ∧ t.nvm = s.nvm) ∧
      (mayRefresh s o = true → t.saddle.job = some (.refresh o (nvmByte s (o + 63))) ∧
        ∀ a, nvmByte t a = if 0x200000 ≤ o ∧ o < 0x300000 ∧ a = o + 63 then 0xFF else nvmByte s a)) ∧
  (∀ (s : State) (o : Nat) (b : Byte) (ok : Bool), s.saddle.job = some (.refresh o b) → AnswersNext (exec (.recBlockWriteDone ok) s) fun t =>
      t.saddle.job = none ∧ t.engMem = s.engMem ∧ SameBits [Fld.REC_STATUS_FROZEN] s t ∧
      (s.saddle.freezeDue = true → bit t Fld.REC_STATUS_FROZEN = true) ∧
      ∀ a, nvmByte t a = if 0x200000 ≤ o ∧ o < 0x300000 ∧ a = o + 63 then b else nvmByte s a) ∧
  (∀ (s : State) (x : Snapshot) (n k : Nat) (ok : Bool), s.saddle.job = some (.snap x n k) → x.body.length = 992 → k < 16 →
    let o := snapBase x.course x.slot + 64 * k
    AnswersNext (exec (.recBlockWriteDone ok) s) fun t => t.saddle.job = none ∧ t.engMem = s.engMem ∧
      (∀ j, j < 64 → nvmByte t (o + j) = (snapshotBytes x n).getD (64 * k + j) 0) ∧
      (k < 15 → t.saddle.snapRun = some (x, n, k + 1) ∧ t.live = s.live ∧ ∀ a, ¬ (o ≤ a ∧ a < o + 64) → nvmByte t a = nvmByte s a) ∧
      (k = 15 → t.saddle.snapRun = none ∧ nvmByte t (snapBase x.course x.slot + 28) = 0x5A ∧ SameBits [Fld.REC_STATUS_SPEND] s t ∧
        ∀ a, ¬ (o ≤ a ∧ a < o + 64) → a ≠ snapBase x.course x.slot + 28 → nvmByte t a = nvmByte s a)) ∧
  (∀ (s : State) (im : List Byte) (n reason k : Nat) (ok : Bool), s.saddle.job = some (.ledger im n reason k) → im.length = 8192 →
    k < 128 → let o := commitAtNvm n + 64 * commitBlock k
    AnswersNext (exec (.recBlockWriteDone ok) s) fun t => t.saddle.job = none ∧ t.engMem = s.engMem ∧
      (∀ j, j < 64 → nvmByte t (o + j) = im.getD (64 * commitBlock k + j) 0) ∧
      (∀ a, ¬ (o ≤ a ∧ a < o + 64) → nvmByte t a = nvmByte s a) ∧
      (k < 127 → t.saddle.commitRun = some (im, n, reason, k + 1) ∧ t.live = s.live) ∧
      (k = 127 → t.saddle.commitRun = none ∧ (rd t Reg.REC_LEDGER).toNat = n % 2 ^ 32 ∧ bit t Fld.REC_EVENT_COMMIT_DONE = true)) ∧
  (∀ (s : State) (r : Record) (rs : List Record), s.saddle.job = none → nvmAllowed s = true → recordsFlow s = true →
    s.saddle.retry = none → s.saddle.pending = r :: rs → AnswersNext (exec .recBlockWriteStart s) fun t =>
      t.saddle.job = some (.record r (rd s Reg.REC_NEXT).toNat false) ∧ t.saddle.pending = rs ∧
      (rd t Reg.REC_NEXT).toNat = ((rd s Reg.REC_NEXT).toNat + 1) % 2 ^ 32 ∧
      (∀ o, nvmByte t o = if recordSlotAt (rd s Reg.REC_NEXT).toNat ≤ o ∧ o < recordSlotAt (rd s Reg.REC_NEXT).toNat + 64 then 0xFF
        else nvmByte s o) ∧
      SameBits [wholeReg Reg.REC_NEXT, Fld.REC_STATUS_PEND] s t ∧ t.engMem = s.engMem) ∧
  (∀ (s : State) (r : Record) (n : Nat) (again : Bool), s.saddle.job = some (.record r n again) →
    AnswersNext (exec (.recBlockWriteDone true) s) fun t =>
      t.saddle.job = none ∧ (∀ k, k < 63 → nvmByte t (recordSlotAt n + k) = (recordBody r n).getD k 0) ∧
      nvmByte t (recordSlotAt n + 63) = 0x5A ∧
      (∀ o, ¬ (recordSlotAt n ≤ o ∧ o < recordSlotAt n + 64) → nvmByte t o = nvmByte s o) ∧ t.engMem = s.engMem ∧
      (s.saddle.freezeDue = false → t.live = s.live) ∧
      (s.saddle.freezeDue = true → bit t Fld.REC_STATUS_FROZEN = true ∧ SameBits [Fld.REC_STATUS_FROZEN] s t)) ∧
  (∀ (s : State) (r : Record) (n : Nat), s.saddle.job = some (.record r n false) → bit s Fld.REC_CFG_WVERIFY = true →
    AnswersNext (exec (.recBlockWriteDone false) s) fun t =>
      t.saddle.job = none ∧ t.saddle.retry = some r ∧ bit t Fld.REC_EVENT_VERIFY = true ∧ bit t Fld.FAULT_EVENT_CORR = true ∧
      fget t Fld.REC_CNT_VERIFY_CNT = min (fget s Fld.REC_CNT_VERIFY_CNT + 1) (2 ^ 16 - 1) ∧
      ∀ o, ¬ (recordSlotAt n ≤ o ∧ o < recordSlotAt n + 64) → nvmByte t o = nvmByte s o) ∧
  (∀ (s : State) (r : Record) (n : Nat), s.saddle.job = some (.record r n true) → bit s Fld.REC_CFG_WVERIFY = true →
    AnswersNext (exec (.recBlockWriteDone false) s) fun t =>
      t.saddle.job = none ∧ t.saddle.retry = s.saddle.retry ∧ bit t Fld.REC_EVENT_VERIFY = true ∧ bit t Fld.FAULT_EVENT_CORR = true ∧
      ∀ o, ¬ (recordSlotAt n ≤ o ∧ o < recordSlotAt n + 64) → nvmByte t o = nvmByte s o) ∧
  (∀ (s : State) (r : Record) (n : Nat) (again : Bool), s.saddle.job = some (.record r n again) → bit s Fld.REC_CFG_WVERIFY = false →
    AnswersNext (exec (.recBlockWriteDone false) s) fun t =>
      t.saddle.job = none ∧ nvmByte t (recordSlotAt n + 63) = 0x5A ∧ SameBits [Fld.REC_STATUS_FROZEN] s t ∧
      ∀ o, ¬ (recordSlotAt n ≤ o ∧ o < recordSlotAt n + 64) → nvmByte t o = nvmByte s o) ∧
  (∀ s : State, 128 ≤ s.saddle.pending.length → AnswersNext (exec .recNote s) fun t =>
    t.saddle.pending = s.saddle.pending ∧ bit t Fld.REC_EVENT_NOTE_DONE = true ∧ bit t Fld.REC_EVENT_LOST = true ∧
    fget t Fld.REC_CNT_LOST = min (fget s Fld.REC_CNT_LOST + 1) (2 ^ 16 - 1) ∧ SameMemory s t) ∧
  (∀ s : State, s.saddle.pending.length < 128 → AnswersNext (exec .recNote s) fun t =>
    t.saddle.pending = s.saddle.pending ++ [⟨8, 0, 0, stampI s, recWall s, regBytes s (Reg.REC_NOTE 0) 9⟩] ∧
    fget t Fld.REC_STATUS_PEND = s.saddle.pending.length + 1 ∧ bit t Fld.REC_EVENT_NOTE_DONE = true ∧
    SameBits [Fld.REC_STATUS_PEND, Fld.REC_EVENT_NOTE_DONE] s t ∧ t = { s with live := t.live, saddle := t.saddle }) ∧
  (∀ (s : State) (j n : Nat), nvmAllowed s = true → s.saddle.job = none → blockWaits s = false → bit s Fld.REC_STATUS_SCRUB = true →
    s.saddle.scrubAt ≤ s.tick → bit s Fld.REC_STATUS_FROZEN = false → s.saddle.scrub = (j, n) → AnswersNext (exec (.recScrubErase false) s) fun t =>
    t.saddle.scrub = ((j + 1) % 16384, n - 1) ∧ t.saddle.scrubAt = s.tick + 2000 ∧ SameBits [Fld.REC_STATUS_SCRUB] s t ∧
    t.engMem = s.engMem ∧ bit t Fld.REC_STATUS_SCRUB = decide (1 < n) ∧
    (∀ q, slotRecord s j = some q → seqAtLeast q (rd s Reg.REC_FLOOR).toNat = true → t.nvm = s.nvm) ∧
    ((∀ q, slotRecord s j = some q → seqAtLeast q (rd s Reg.REC_FLOOR).toNat = false) →
      ∀ o, nvmByte t o = if 0x200000 + 64 * j ≤ o ∧ o < 0x200000 + 64 * j + 64 then 0xFF else nvmByte s o)) ∧
  (∀ (s : State) (n : Nat), nvmAllowed s = true → s.saddle.job = none → blockWaits s = false → s.saddle.snapErase = n + 1 →
    AnswersNext (exec (.recScrubErase true) s) fun t =>
    t.saddle.snapErase = n ∧ t.engMem = s.engMem ∧
    ∀ o, nvmByte t o = if 0x380000 + 0x400 * n ≤ o ∧ o < 0x380000 + 0x400 * n + 0x400 then 0xFF else nvmByte s o) ∧
  ∀ s : State, devState s ≠ .off → devState s ≠ .hibernate → bit s Fld.REC_STATUS_HU_READY = true → nvmAllowed s = true →
    s.saddle.job = none → s.trust.staging = none → AnswersNext (exec .brownout s) fun t =>
      devState t = .off ∧ t.power.causes = 4 ∧ t.power.holdVsup = true ∧
      nvmByte t (recordSlotAt (rd s Reg.REC_NEXT).toNat) = 4 ∧ nvmByte t (recordSlotAt (rd s Reg.REC_NEXT).toNat + 63) = 0x5A ∧
      ∀ o, ¬ (recordSlotAt (rd s Reg.REC_NEXT).toNat ≤ o ∧ o < recordSlotAt (rd s Reg.REC_NEXT).toNat + 64) → nvmByte t o = nvmByte s o

/-- R416 to R418, R422, R428, R430, R431, R433 and R476: the nine other recorder commands. The Cleared record put first in the queue and the order of the clear (log entry 45) and no commit in recovery (log entry 182) are the model's. -/
def Obligations.RecorderControlsAndClear : Prop :=
  (∀ s : State, AnswersNext (exec .recFreeze s) fun t => SameBits [Fld.REC_STATUS_FROZEN] s t ∧
    t = { s with live := t.live, saddle := { s.saddle with freezeDue := t.saddle.freezeDue } } ∧
    ((devState s = .test ∨ (devState s = .idle ∧ bit s Fld.SCHED_STATUS_LOADED = false)) →
      (s.saddle.job = none → bit t Fld.REC_STATUS_FROZEN = true) ∧
      (∀ r n g, s.saddle.job = some (.record r n g) → t.saddle.freezeDue = true ∧ t.live = s.live)) ∧
    (devState s ≠ .test → (devState s ≠ .idle ∨ bit s Fld.SCHED_STATUS_LOADED = true) → t = s)) ∧
  (∀ s : State, AnswersNext (exec .recThaw s) fun t =>
    bit t Fld.REC_STATUS_FROZEN = false ∧ SameBits [Fld.REC_STATUS_FROZEN] s t ∧
    t = { s with live := t.live, saddle := { s.saddle with freezeDue := false } }) ∧
  (∀ s : State, ((s.saddle.commitDue.isSome = true ∨ s.saddle.commitRun.isSome = true ∨ bit s Fld.TRUST_STATUS_RECOVERY = true) → exec .recCommit s = .next s ∧
      (s.saddle.commitAt + fget s Fld.REC_CFG_COMMIT * 60000000 ≤ s.tick →
        exec .ledgerCommitDue s = .next { s with saddle := { s.saddle with commitAt := s.tick } })) ∧
    (s.tick < s.saddle.commitAt + fget s Fld.REC_CFG_COMMIT * 60000000 → exec .ledgerCommitDue s = .next s)) ∧
  (∀ s : State, s.saddle.commitDue = none → s.saddle.commitRun = none → bit s Fld.TRUST_STATUS_RECOVERY = false →
    AnswersNext (exec .recCommit s) fun t =>
    t = { s with saddle := { s.saddle with commitDue := some 2 } }) ∧
  (∀ s : State, s.saddle.commitDue = none → s.saddle.commitRun = none → bit s Fld.TRUST_STATUS_RECOVERY = false →
    s.saddle.commitAt + fget s Fld.REC_CFG_COMMIT * 60000000 ≤ s.tick → AnswersNext (exec .ledgerCommitDue s) fun t =>
      t = { s with saddle := { s.saddle with commitDue := some 1, commitAt := s.tick } }) ∧
  (∀ s : State, AnswersNext (exec .recNonceNew s) fun t =>
    bit t Fld.REC_STATUS_NONCE = true ∧ t.free = s.free + 1 ∧ t = { s with live := t.live, free := t.free } ∧
    SameBits [Fld.REC_STATUS_NONCE, wholeReg (Reg.REC_NONCE 0), wholeReg (Reg.REC_NONCE 1), wholeReg (Reg.REC_NONCE 2),
      wholeReg (Reg.REC_NONCE 3)] s t) ∧
  (∀ s : State, AnswersNext (exec .recCntClr s) fun t =>
    rd t Reg.REC_CNT = 0 ∧ SameBits [wholeReg Reg.REC_CNT] s t ∧ t = { s with live := t.live }) ∧
  (∀ s : State, AnswersNext (exec .recWallTick s) fun t =>
    rd t Reg.REC_WALL = rd s Reg.REC_WALL + 1 ∧ SameBits [wholeReg Reg.REC_WALL] s t ∧
    t = { s with live := t.live, power := { s.power with woke := t.power.woke } } ∧
    (devState s ≠ .hibernate → bit s Fld.GLOBAL_STATE_HIB_PEND = false → t.power.woke = s.power.woke) ∧
    (devState s = .hibernate → t.power.woke =
      if s.power.wakeEn.testBit 3 && decide (s.power.alarm ≤ (rd s Reg.REC_WALL + 1).toNat) then s.power.woke ||| 16 else s.power.woke)) ∧
  (∀ s : State, AnswersNext (exec .snapshotCapture s) fun t =>
    t.saddle.asked = s.saddle.asked.filter (·.got.isNone) ∧ t.saddle.snaps = s.saddle.snaps ++ s.saddle.asked.filterMap captured ∧
    SameBits [Fld.REC_STATUS_SPEND] s t ∧
    t = { s with live := t.live, saddle := t.saddle }) ∧
  ∀ (s : State) (v : Word), AnswersNext (exec (.recClear v) s) fun t =>
    bit t Fld.REC_STATUS_NONCE = false ∧ (∀ k, k < 4 → rd t (Reg.REC_NONCE k) = 0) ∧ SameMemory s t ∧
    (clearAccepted s v = true → v.getLsbD 0 = true → v.getLsbD 1 = false → s.saddle.pending.length < 128 →
      rd t Reg.REC_FLOOR = rd s Reg.REC_NEXT ∧ bit t Fld.REC_STATUS_SCRUB = true ∧ bit t Fld.REC_EVENT_CLR_DONE = true ∧
      (t.saddle.pending.head?.map fun r => r.typ) = some 3 ∧ t.saddle.pending.drop 1 = s.saddle.pending) ∧
    (clearAccepted s v = false → rd t Reg.REC_FLOOR = rd s Reg.REC_FLOOR ∧ bit t Fld.REC_EVENT_CLR_REF = true ∧
      t.saddle.refusals = s.saddle.refusals + 1 ∧ (s.saddle.pending.length < 128 → CorrectedReported s t 0x0D04))

/-- R444 to R446: STG_PIECE, STG_ERASE_DONE and STG_PAGE_DONE. That an erase or a page gives way to a write of R409 that has waited at its end is the model's reading (log entry 167). -/
def Obligations.StagingFillsOnlyTheStagedSlot : Prop :=
  (∀ (s : State) (v : Word), v.getLsbD 31 = true → 1 ≤ getBits v 0 8 → getBits v 0 8 ≤ 253 →
    let d := regBytes s (Reg.TRUST_STG_DATA 0) (getBits v 0 8)
    let o := fget s Fld.TRUST_STG_OFS_OFS
    let row := pieceRow s o (fget s Fld.TRUST_STG_TOTAL_TOTAL) d
    AnswersNext (exec (.stgPiece v) s) fun t =>
      fget t Fld.TRUST_STG_STAT_RESULT = (rowOutcome row).result ∧ SameMemory s t ∧
      (row = 9 → ∀ x, s.trust.staging = some x → t.trust.staging = some { x with next := o + d.length, buf := x.buf ++ d } ∧
        fget t Fld.TRUST_STG_NEXT_NEXT = (o + d.length) % 2 ^ 20) ∧
      (row = 5 → (∃ x, t.trust.staging = some x ∧ x.next = d.length ∧ x.buf = d ∧ x.done = 0 ∧ stagedState t x.fw = 1 ∧
          x.total = fget s Fld.TRUST_STG_TOTAL_TOTAL)) ∧
      (row ≠ 5 → row ≠ 9 → t.trust.staging = s.trust.staging ∧ SameBits [Fld.TRUST_STG_STAT_RESULT] s t)) ∧
  (∀ (s : State) (v : Word), (v.getLsbD 31 = false ∨ getBits v 0 8 = 0 ∨ 253 < getBits v 0 8) → exec (.stgPiece v) s = .next s) ∧
  (∀ (s : State) (ok : Bool),
    ((∀ x, s.trust.staging = some x → stagedState s x.fw ≠ 1 ∨ stagingMayWrite s x = false) → exec .stgEraseDone s = .next s) ∧
    ((∀ x, s.trust.staging = some x → nextPage x = none ∨ stagedState s x.fw ≠ 2 ∨ stagingMayWrite s x = false) →
      exec (.stgPageDone ok) s = .next s)) ∧
  (∀ (s : State) (x : Staging), s.trust.staging = some x → stagedState s x.fw = 1 → stagingMayWrite s x = true →
    AnswersNext (exec .stgEraseDone s) fun t =>
      stagedState t x.fw = 2 ∧ t.trust.staging = some { x with owes := aboveStaging s } ∧ t.engMem = s.engMem ∧
      ∀ o, nvmByte t o = if slotBase x.fw (!activeSlot s x.fw) ≤ o ∧ o < slotBase x.fw (!activeSlot s x.fw) + slotSize x.fw then 0xFF
        else nvmByte s o) ∧
  (∀ (s : State) (x : Staging) (d : List Byte), s.trust.staging = some x → nextPage x = some d → stagedState s x.fw = 2 →
    stagingMayWrite s x = true → AnswersNext (exec (.stgPageDone true) s) fun t =>
      t.engMem = s.engMem ∧
      (∀ k, k < d.length → nvmByte t (slotBase x.fw (!activeSlot s x.fw) + x.done + k) = d.getD k 0) ∧
      (∀ o, ¬ (slotBase x.fw (!activeSlot s x.fw) + x.done ≤ o ∧ o < slotBase x.fw (!activeSlot s x.fw) + x.done + d.length) →
        nvmByte t o = nvmByte s o) ∧
      (x.done + d.length = x.total → t.trust.staging = none ∧ stagedState t x.fw = 3 ∧ bit t Fld.TRUST_EVENT_STG_DONE = true) ∧
      (x.done + d.length ≠ x.total →
        t.trust.staging = some { x with buf := x.buf.drop d.length, done := x.done + d.length, owes := aboveStaging s } ∧ t.live = s.live)) ∧
  ∀ (s : State) (x : Staging) (d : List Byte), s.trust.staging = some x → nextPage x = some d → stagedState s x.fw = 2 →
    stagingMayWrite s x = true → AnswersNext (exec (.stgPageDone false) s) fun t =>
      t.trust.staging = none ∧ stagedState t x.fw = 5 ∧ bit t Fld.TRUST_EVENT_STG_ERR = true ∧ CorrectedReported s t 0x0C04 ∧
      ∀ o, ¬ (slotBase x.fw (!activeSlot s x.fw) + x.done ≤ o ∧ o < slotBase x.fw (!activeSlot s x.fw) + x.done + d.length) →
        nvmByte t o = nvmByte s o

/-- R447 to R451 and R456: TRUST_ACTIVATE, TRUST_CANCEL_FW, TRUST_CANCEL_ST, ACTIVATION_DUE and FW_PAUSE_END. That a refused request writes no more than ACT_RES (log entry 88) and that an activation is judged in round 0 by the replica of the count (log entry 92) are the model's readings. -/
def Obligations.ActivationsActAtTheirCycle : Prop :=
  (∀ s : State,
    (fget s Fld.TRUST_ACT_CFG_KIND ≠ 1 → fget s Fld.TRUST_ACT_CFG_KIND ≠ 2 → exec .trustActivate s = .next s) ∧
    ((s.time.round ≠ 0 ∨ s.trust.pause.isSome = true ∨ ((∀ c, s.trust.actFw = some c → replicaCycle s < c) ∧
      (s.trust.inert = true ∨ ∀ c, s.trust.actSt = some c → replicaCycle s < c))) → exec .activationDue s = .next s) ∧
    (s.trust.pause = none → exec .fwPauseEnd s = .next s)) ∧
  (∀ (s : State) (c : Nat) (fw : Bool), s.time.round = 0 → s.trust.pause = none → pendingAct s fw = some c → c ≤ replicaCycle s →
    (fw = false → s.trust.inert = false ∧ ∀ k, s.trust.actFw = some k → replicaCycle s < k) →
    (devState s = .test ∨ stagedState s fw ≠ 3) → AnswersNext (exec .activationDue s) fun t =>
      pendingAct t fw = none ∧ pendingAct t (!fw) = pendingAct s (!fw) ∧ bit t Fld.TRUST_EVENT_ACT_REF = true ∧
      fget t Fld.TRUST_ACT_RES_KIND = kindCode fw ∧ fget t Fld.TRUST_ACT_RES_RESULT = (if devState s = .test then 8 else 1) ∧
      t.trust.pause = none ∧ t.trust.inert = s.trust.inert ∧ SameMemory s t) ∧
  (∀ s : State, (fget s Fld.TRUST_ACT_CFG_KIND = 1 ∨ fget s Fld.TRUST_ACT_CFG_KIND = 2) →
    let fw := fget s Fld.TRUST_ACT_CFG_KIND == 1
    let c := fget s Fld.TRUST_ACT_CFG_CC_HI * 2 ^ 32 + (rd s Reg.TRUST_ACT_CC).toNat
    let id := rd64 s Reg.TRUST_ACT_ID_LO Reg.TRUST_ACT_ID_HI
    AnswersNext (exec .trustActivate s) fun t => SameMemory s t ∧ pendingAct t (!fw) = pendingAct s (!fw) ∧
      (requestRefused s fw c id = none → pendingAct t fw = some c ∧ bit t (if fw then Fld.TRUST_STATUS_ACT_FW else Fld.TRUST_STATUS_ACT_ST) = true) ∧
      (∀ r, requestRefused s fw c id = some r → pendingAct t fw = pendingAct s fw ∧ fget t Fld.TRUST_ACT_RES_RESULT = r ∧
        fget t Fld.TRUST_ACT_RES_KIND = fget s Fld.TRUST_ACT_CFG_KIND ∧ SameBits [Fld.TRUST_ACT_RES_RESULT, Fld.TRUST_ACT_RES_KIND] s t)) ∧
  (∀ s : State, (AnswersNext (exec .trustCancelFw s) fun t => SameMemory s t ∧ t.trust.actFw = none ∧ t.trust.actSt = s.trust.actSt ∧
      (s.trust.actFw = none → t = s) ∧ (s.trust.actFw ≠ none → fget t Fld.TRUST_ACT_RES_RESULT = 7 ∧ fget t Fld.TRUST_ACT_RES_KIND = 1 ∧
        bit t Fld.TRUST_EVENT_ACT_REF = true ∧ bit t Fld.TRUST_STATUS_ACT_FW = false)) ∧
    AnswersNext (exec .trustCancelSt s) fun t => SameMemory s t ∧ t.trust.actSt = none ∧ t.trust.actFw = s.trust.actFw ∧
      (s.trust.actSt = none → t = s) ∧ (s.trust.actSt ≠ none → fget t Fld.TRUST_ACT_RES_RESULT = 7 ∧ fget t Fld.TRUST_ACT_RES_KIND = 2 ∧
        bit t Fld.TRUST_EVENT_ACT_REF = true ∧ bit t Fld.TRUST_STATUS_ACT_ST = false)) ∧
  (∀ (s : State) (c : Nat), s.time.round = 0 → s.trust.pause = none → s.trust.actFw = some c → c ≤ replicaCycle s → devState s ≠ .test →
    s.trust.fwStg = 3 → AnswersNext (exec .activationDue s) fun t =>
      t.trust.pause = some (s.tick, true) ∧ t.trust.actFw = none ∧ t.trust.actSt = s.trust.actSt ∧ t.trust.actNow = c ∧
      bit t Fld.TRUST_STATUS_ACT_FW = false ∧ SameBits [Fld.TRUST_STATUS_ACT_FW] s t ∧ t = { s with live := t.live, trust := t.trust }) ∧
  (∀ (s : State) (c : Nat), s.time.round = 0 → s.trust.pause = none → (∀ k, s.trust.actFw = some k → replicaCycle s < k) → s.trust.actSt = some c →
    c ≤ replicaCycle s → devState s ≠ .test → s.trust.stStg = 3 → s.trust.inert = false → AnswersNext (exec .activationDue s) fun t =>
      t.trust.inert = true ∧ t.trust.loaded = none ∧ t.trust.actSt = none ∧ t.trust.actNow = c ∧ (∀ p, PortLow t p) ∧
      (∀ p : Fin 32, (t.ports.get p).active = false) ∧ SameMemory s t) ∧
  ∀ (s : State) (k : Nat) (act : Bool), s.trust.pause = some (k, act) → s.harn.held = [] → s.harn.heldRsp = [] →
    s.host.bulk = none → s.host.tw = none →
    AnswersNext (exec .fwPauseEnd s) fun t =>
      t.trust.pause = none ∧ t.fault.hwdRef = s.fault.hwdRef + (s.tick - k) ∧ t.fault.fwdBad = false ∧ SameMemory s t ∧
      (act = false → t = { s with trust := { s.trust with pause := none }, fault := t.fault, test := { s.test with badCore := t.test.badCore } }) ∧
      (act = true → firmwareCheck s = none → t.trust.fwSlot = !s.trust.fwSlot ∧ t.trust.fwStg = 4 ∧
        t.trust.meas.get 1 = measure s (stagedImg s true) ∧ fget t Fld.TRUST_ACT_RES_RESULT = 0 ∧ bit t Fld.TRUST_EVENT_ACT_DONE = true) ∧
      (act = true → firmwareCheck s ≠ none → t.trust.fwSlot = s.trust.fwSlot ∧ t.trust.fwStg = 5 ∧ bit t Fld.TRUST_EVENT_ACT_REF = true ∧
        CorrectedReported s t 0x0C01)

/-- R441, R449, R451 and R452: STRUCT_LOAD_DONE and STRUCT_PROGRAM_START. That the new program counts as an engine start (log entry 62) and the order of load and start (log entry 59) are the model's readings. -/
def Obligations.StructureImagesChangeBetweenCycles : Prop :=
  (∀ s : State, ((s.trust.inert = false ∨ s.trust.loaded.isSome = true) → exec .structLoadDone s = .next s) ∧
    ((s.trust.inert = false ∨ s.trust.loaded = none ∨ s.time.round ≠ 0 ∨ s.time.take = true) → exec .structProgramStart s = .next s)) ∧
  (∀ s : State, s.trust.inert = true → s.trust.loaded = none → AnswersNext (exec .structLoadDone s) fun t =>
    (∀ o, nvmByte t o = nvmByte s o) ∧ t.trust.inert = true ∧ t.trust.fwSlot = s.trust.fwSlot ∧
    ((loadStructure s (stagedImg s false) true).2 = none → t.trust.loaded = some true ∧ t.trust.stSlot = !s.trust.stSlot ∧
      t.trust.stStg = 4 ∧ t.trust.meas.get 2 = measure s (stagedImg s false) ∧ fget t Fld.TRUST_ACT_RES_RESULT = 0 ∧
      fget t Fld.TRUST_ACT_RES_KIND = 2 ∧ bit t Fld.TRUST_EVENT_ACT_DONE = true) ∧
    ((loadStructure s (stagedImg s false) true).2 ≠ none → t.trust.loaded = some false ∧ t.trust.stSlot = s.trust.stSlot ∧
      t.trust.stStg = 5 ∧ t.engMem = s.engMem ∧ bit t Fld.TRUST_EVENT_ACT_REF = true ∧ fget t Fld.TRUST_ACT_RES_KIND = 2 ∧
      CorrectedReported s t 0x0C01)) ∧
  (∀ s : State, s.trust.inert = true → s.trust.loaded = some true → s.time.round = 0 → s.time.take = false →
    AnswersNext (exec .structProgramStart s) fun t =>
      t.trust.inert = false ∧ t.trust.loaded = none ∧ bit t Fld.SCHED_STATUS_RUN = true ∧ fget t Fld.SCHED_STATUS_VACT = 0 ∧
      fget t Fld.SCHED_ROUNDS_ROUNDS = 0 ∧ bit t Fld.SCHED_EVENT_ENGINE_START = true ∧ t.sched.startDue = false ∧ SameMemory s t) ∧
  ∀ s : State, s.trust.inert = true → s.trust.loaded = some false → s.time.round = 0 → s.time.take = false →
    AnswersNext (exec .structProgramStart s) fun t =>
      t.trust.inert = false ∧ t.trust.loaded = none ∧ SameMemory s t ∧
      SameRegsOutside (fun a => decide (0x10000 ≤ a ∧ a < 0x18000) || a == Reg.TEST_PWM_STAT) s t

/-- R436, R442, R443 and R453: the seven report and key commands. The attestation key and the secret number of each signature are free values (log entry 119); that a report does not end in a pause is the model's reading (log entry 110), and so is the byte by which the key record shows the clear key (log entry 183). -/
def Obligations.ReportsAndKeyOperations : Prop :=
  (∀ s : State, AnswersNext (exec .trustReport s) fun t => SameMemory s t ∧
    (s.trust.report = none → t.trust.report = some ⟨regBytes s (Reg.TRUST_NONCE 0) 8, none⟩ ∧ bit t Fld.TRUST_STATUS_RPT_BUSY = true ∧
      SameBits [Fld.TRUST_STATUS_RPT_BUSY] s t) ∧ (s.trust.report ≠ none → t = s)) ∧
  (∀ s : State, (s.trust.report = none ∨ s.trust.pause.isSome = true) → exec .reportDone s = .next s) ∧
  (∀ (s : State) (n : List Byte) (a : Nat × Nat × Nat), s.trust.report = some ⟨n, some a⟩ → s.trust.pause = none →
    AnswersNext (exec .reportDone s) fun t => t.trust = { s.trust with report := none } ∧ t.free = s.free + 1 ∧
      bit t Fld.TRUST_STATUS_RPT_BUSY = false ∧ SameMemory s t) ∧
  (∀ (s : State) (n : List Byte), s.trust.report = some ⟨n, none⟩ → s.trust.pause = none → AnswersNext (exec .reportDone s) fun t =>
    t.trust.reportOut = reportBody s n ++ ecdsaSign Config.attestSecret (Config.random s.free 384) (sha384 (reportBody s n)) ∧
    t.trust.report = none ∧ bit t Fld.TRUST_STATUS_RPT_BUSY = false ∧ bit t Fld.TRUST_EVENT_RPT_DONE = true ∧ t.free = s.free + 1 ∧
    SameBits [Fld.TRUST_STATUS_RPT_BUSY, Fld.TRUST_EVENT_RPT_DONE] s t ∧ t = { s with live := t.live, trust := t.trust, free := t.free }) ∧
  (∀ s : State, AnswersNext (exec .trustNonceNew s) fun t =>
    t.trust.knonce = true ∧ t.free = s.free + 1 ∧ t = { s with live := t.live, free := t.free, trust := { s.trust with knonce := true } } ∧
    SameRegsOutside (fun a => (List.range 4).any fun k => a == Reg.TRUST_KNONCE k) s t) ∧
  (∀ (s : State) (k : Fin 4), AnswersNext (exec (.keyWriteOem k) s) fun t => t.trust.knonce = false ∧ SameMemory s t ∧
    (devState s = .idle → s.trust.keys.get k = [] → t.trust.keys = s.trust.keys.set k (regBytes s (Reg.TRUST_KEYDATA 0) 24) ∧
      bit t Fld.TRUST_EVENT_KEY_DONE = true ∧ (∀ j, j < 24 → rd t (Reg.TRUST_KEYDATA j) = 0) ∧
      fbit t Fld.TRUST_KEYSTAT_PRESENT k = true) ∧
    ((devState s ≠ .idle ∨ s.trust.keys.get k ≠ []) → t.trust.keys = s.trust.keys ∧ bit t Fld.TRUST_EVENT_KEY_REF = true ∧
      CorrectedReported s t 0x0C05)) ∧
  (∀ (s : State) (k : Fin 4), AnswersNext (exec (.keyRevoke k) s) fun t => t.trust.knonce = false ∧ SameMemory s t ∧
    t.trust.keys = s.trust.keys ∧
    (devState s = .idle → s.trust.keys.get k ≠ [] → keyToken s 2 k = true →
      t.trust.revoked = s.trust.revoked ||| 2 ^ k.val ∧ bit t Fld.TRUST_EVENT_KEY_DONE = true) ∧
    ((devState s ≠ .idle ∨ s.trust.keys.get k = [] ∨ keyToken s 2 k = false) → t.trust.revoked = s.trust.revoked ∧
      bit t Fld.TRUST_EVENT_KEY_REF = true ∧ CorrectedReported s t 0x0C05)) ∧
  (∀ s : State, AnswersNext (exec .keyWriteClear s) fun t => t.trust.knonce = false ∧ SameMemory s t ∧
    (devState s = .idle → s.trust.clearKey = [] → t.trust.clearKey = regBytes s (Reg.TRUST_KEYDATA 0) 8 ∧
      bit t Fld.TRUST_KEYSTAT_CLEARKEY = true ∧ bit t Fld.TRUST_EVENT_KEY_DONE = true ∧
      keyRecord t.trust.lifecycle t.trust.revoked t.trust.keys t.trust.clearKey ≠
        keyRecord s.trust.lifecycle s.trust.revoked s.trust.keys s.trust.clearKey) ∧
    ((devState s ≠ .idle ∨ s.trust.clearKey ≠ []) → t.trust.clearKey = s.trust.clearKey ∧ bit t Fld.TRUST_EVENT_KEY_REF = true ∧
      CorrectedReported s t 0x0C05)) ∧
  ∀ (s : State) (k : Fin 4), AnswersNext (exec (.keyLifecycleProd k) s) fun t => t.trust.knonce = false ∧ SameMemory s t ∧
    (devState s = .idle → s.trust.lifecycle = 1 → keyToken s 4 k = true →
      t.trust.lifecycle = 2 ∧ fget t Fld.TRUST_STATUS_LIFECYCLE = 2 ∧ bit t Fld.TRUST_EVENT_KEY_DONE = true) ∧
    ((devState s ≠ .idle ∨ s.trust.lifecycle ≠ 1 ∨ keyToken s 4 k = false) → t.trust.lifecycle = s.trust.lifecycle ∧
      bit t Fld.TRUST_EVENT_KEY_REF = true ∧ CorrectedReported s t 0x0C05)

/-- R316, R321, R323, R325 to R328, R332, R345, R348 and R490: ten Harness commands. That ROOTEPOCH changes the epoch in force (log entry 160), which frames wait for an output (log entry 33) and which cuts wait for an RSP (log entry 187) are the model's readings. -/
def Obligations.LinksPausesAndTheHostFrame : Prop :=
  (∀ (s : State) (p : HPort),
    ((linksRun s = false ∨ linkUp s p = true ∨ s.harn.cut.get p.idx = true) → exec (.harnessLinkUp p) s = .next s) ∧
    (linkUp s p = false → NoCutWaits s → exec (.harnessLinkDown p) s = .next s) ∧
    ((linkUp s p = false ∨ linksRun s = false) → exec (.pauseReceived p) s = .next s ∧ exec (.resumeReceived p) s = .next s) ∧
    ((linkUp s p = false ∨ upPort s = some p) → exec (.harnessGuardOpen p) s = .next s)) ∧
  (∀ (s : State) (p : HPort), linksRun s = true → linkUp s p = false → s.harn.cut.get p.idx = false →
    AnswersNext (exec (.harnessLinkUp p) s) fun t =>
      linkUp t p = true ∧ bit t Fld.HARNESS_EVENT_LINK_CHG = true ∧ (∀ q, q ≠ p → linkUp t q = linkUp s q) ∧ SameMemory s t ∧
      (upPort s = some p → harnConsumes s = true → bit s Fld.HARNESS_CFG_ROOT = false → t.harn.probe = some ⟨[]⟩) ∧
      (bit s Fld.HARNESS_CFG_ROOT = true → bit s Fld.HARNESS_CFG_AUTOENUM = true → harnConsumes s = true →
        bit t Fld.HARNESS_STATUS_ENUMERATED = true ∧ ownAddr t = fget s Fld.HARNESS_CFG_ROOT_ADDR)) ∧
  (∀ (s : State) (p : HPort), linksRun s = true → linkUp s p = false → s.harn.cut.get p.idx = false → upPort s ≠ some p →
    (bit s Fld.HARNESS_CFG_ROOT = false ∨ bit s Fld.HARNESS_CFG_AUTOENUM = false) →
    AnswersNext (exec (.harnessLinkUp p) s) fun t =>
      linkUp t p = true ∧ bit t Fld.HARNESS_EVENT_LINK_CHG = true ∧ (∀ q, q ≠ p → linkUp t q = linkUp s q) ∧ t = { s with live := t.live } ∧
      SameBits [Fld.HARNESS_STATUS_LINK_UP, Fld.HARNESS_STATUS_LINK_DN, Fld.HARNESS_STATUS_LINK_BR, Fld.HARNESS_EVENT_LINK_CHG,
        Fld.HARNESS_EVENT_RING_HEAL] s t) ∧
  (∀ (s : State) (p : HPort), linkUp s p = true → NoCutWaits s → AnswersNext (exec (.harnessLinkDown p) s) fun t =>
    linkUp t p = false ∧ bit t Fld.HARNESS_EVENT_LINK_CHG = true ∧ (∀ q, q ≠ p → linkUp t q = linkUp s q) ∧ SameMemory s t ∧
    (s.harn.enum = none → harnConsumes s = true → upPort s ≠ some p → bit s Fld.HARNESS_STATUS_RINGMODE = false → CorrectedReported s t 0x0801 ∧
      (∀ w ∈ t.harn.waiting, w.out ≠ p) ∧ t.harn.paused.get p.idx = false)) ∧
  (∀ (s : State) (p : HPort), linkUp s p = true → linksRun s = true → AnswersNext (exec (.pauseReceived p) s) fun t =>
    t.harn.paused.get p.idx = true ∧ (∀ q, q ≠ p → t.harn.paused.get q.idx = s.harn.paused.get q.idx) ∧
    t = { s with harn := { s.harn with paused := t.harn.paused } }) ∧
  (∀ (s : State) (p : HPort), linkUp s p = true → linksRun s = true → NoCutWaits s → AnswersNext (exec (.resumeReceived p) s) fun t =>
    t.harn.paused.get p.idx = false ∧ SameMemory s t ∧ t.harn.guard = s.harn.guard ∧
    (s.harn.waiting = [] → bit s Fld.HARNESS_TXSTAT_BUSY = false → t = { s with harn := { s.harn with paused := t.harn.paused } })) ∧
  (∀ (s : State) (p : HPort), upPort s ≠ some p → linkUp s p = true → AnswersNext (exec (.harnessGuardOpen p) s) fun t =>
    t.harn.guard.get p.idx = true ∧ (∀ q, q ≠ p → t.harn.guard.get q.idx = s.harn.guard.get q.idx) ∧
    t = { s with harn := { s.harn with guard := t.harn.guard } }) ∧
  (∀ (s : State) (p q : HPort), s.harn.waiting = [] → s.test.cutPend.get q.idx = true → fbit s Fld.TEST_HARN_OFF q.idx = true →
    AnswersNext (exec (.harnessGuardClose p) s) fun t => t.harn.cut.get q.idx = true ∧ t.test.cutPend.get q.idx = false) ∧
  (∀ (s : State) (p : HPort), NoCutWaits s → AnswersNext (exec (.harnessGuardClose p) s) fun t =>
    t.harn.guard.get p.idx = false ∧ SameMemory s t ∧ t.harn.paused = s.harn.paused ∧
    (s.harn.waiting = [] → bit s Fld.HARNESS_TXSTAT_BUSY = false → t = { s with harn := { s.harn with guard := t.harn.guard } })) ∧
  (∀ (s : State) (p : HPort) (x : RxFrame),
    ((enumKnown x.frame = true ∨ x.frame.typ = 3 ∨ (x.frame.typ ≠ 7 ∧ (routeOf s p x.frame).here = true ∧ typeOk x.frame = true) ∨
      outOpen s p = false ∨ harnForwards s = false) → exec (.frameForward p x) s = .next s) ∧
    (enumKnown x.frame = false → x.frame.typ ≠ 3 → (x.frame.typ = 7 ∨ (routeOf s p x.frame).here = false ∨ typeOk x.frame = false) →
      outOpen s p = true → harnForwards s = true → x.good = false → x.aborted = false → AnswersNext (exec (.frameForward p x) s) fun t =>
        fget t (Fld.HARNESS_PCNT_CRC_CNT p.idx) = min (fget s (Fld.HARNESS_PCNT_CRC_CNT p.idx) + 1) (2 ^ 16 - 1) ∧
        CorrectedReported s t 0x0802 ∧ SameMemory s t)) ∧
  (∀ (s : State) (p q : HPort) (x : RxFrame), outOpen s p = true → harnForwards s = true → x.good = true → x.aborted = false →
    returnsHome s p x.frame = false → secondRoot s p x.frame = false → x.frame.typ ≠ 7 → x.frame.typ ≠ 3 → bothWays s = false →
    routeOf s p x.frame = ⟨false, [q], false⟩ → outOpen s q = true → mayTransmit s q (framePrio x.frame) = true →
    exec (.frameForward p x) s = .next (setHarn (Sent s q x.frame) fun h => { h with rxNo := h.rxNo + 1 })) ∧
  (∀ (s : State) (p u : HPort) (x : RxFrame), Arrives s p x → secondRoot s p x.frame = false → x.frame.typ ≠ 7 → x.frame.typ ≠ 3 →
    x.frame.typ ≠ 9 → x.frame.dest ≠ 0xFFFF → x.frame.src ≠ 0 → routeOf s p x.frame = ⟨false, [], true⟩ → SendsUp s u x.frame.src →
    exec (.frameForward p x) s =
      .next (inc (Sent s u (answerTo s x.frame 9 (BitVec.ofNat 32 4 :: frameHead x.frame))) Fld.HARNESS_NCNT_NAK_CNT)) ∧
  (∀ s : State, bit s Fld.HARNESS_TXSTAT_BUSY = true → exec .harnessTxGo s = .next s) ∧
  (∀ s : State, bit s Fld.HARNESS_TXSTAT_BUSY = false → AnswersNext (exec .harnessTxGo s) fun t => SameMemory s t ∧
    (txRefused s (txFrame s) = true → bit t Fld.HARNESS_TXSTAT_REFUSED = true ∧ bit t Fld.HARNESS_EVENT_TX_DONE = true ∧
      t = { s with live := t.live }) ∧
    (∀ u, txRefused s (txFrame s) = false → SendsUp s u (txFrame s).dest → mayTransmit s u 5 = true → s.harn.waiting = [] →
      t.harn.tx = s.harn.tx ++ [sentFrame u (txFrame s)] ∧ bit t Fld.HARNESS_TXSTAT_BUSY = false ∧
      bit t Fld.HARNESS_TXSTAT_SENT = true ∧ bit t Fld.HARNESS_EVENT_TX_DONE = true) ∧
    (∀ u, txRefused s (txFrame s) = false → harnRuns s = true → upPort s = some u → outOpen s u = true →
      (txFrame s).dest ≠ 0xFFFF → (txFrame s).dest ≠ ownAddr s → rangePort s (txFrame s).dest = none → mayTransmit s u 5 = false →
      t.harn.waiting = s.harn.waiting ++ [⟨u, 5, s.harn.rxNo, none, txFrame s⟩] ∧ bit t Fld.HARNESS_TXSTAT_BUSY = true ∧
      t.harn.tx = s.harn.tx)) ∧
  (∀ s : State, AnswersNext (exec .harnessCntClr s) fun t =>
    (∀ i, i < 3 → rd t (Reg.HARNESS_PCNT i) = 0) ∧ rd t Reg.HARNESS_NCNT = 0 ∧ t = { s with live := t.live } ∧
    SameBits [wholeReg (Reg.HARNESS_PCNT 0), wholeReg (Reg.HARNESS_PCNT 1), wholeReg (Reg.HARNESS_PCNT 2), wholeReg Reg.HARNESS_NCNT] s t) ∧
  ∀ (s : State) (v : Word), AnswersNext (exec (.rootepochWrite v) s) fun t =>
    (isRoot s = true → fget t Fld.HARNESS_ROOTEPOCH_ROOTEPOCH = getBits v 0 16 ∧ ownEpoch t = getBits v 0 16 ∧
      SameBits [Fld.HARNESS_ROOTEPOCH_ROOTEPOCH, Fld.HARNESS_ROLE_EPOCH] s t ∧
      t = { s with live := t.live, capo := { s.capo with stampFree := s.capo.stampFree || getBits v 0 16 != ownEpoch s } }) ∧
    (isRoot s = false → t = s)

/-- R333, R340 to R342, R344, R345, R442, R444, R447 and R490: the CMD rows and the frames for the host. The COUNT of an RSP (log entry 81), NO_ROOM beyond a region and malformed lengths (log entry 116), the RSP's shape (log entry 186), the ring break told from afar (log entry 158) and a CMD's cut (log entry 187) are the model's readings. -/
def Obligations.CommandFramesAreExecutedAndAnswered : Prop :=
  (∀ (s : State) (p : HPort) (x : RxFrame),
    ((x.frame.typ ≠ 1 ∨ (routeOf s p x.frame).here = false) → exec (.cmdRead p x) s = .next s ∧ exec (.cmdWrite p x) s = .next s ∧
      exec (.cmdReport p x) s = .next s ∧ exec (.cmdActivate p x) s = .next s) ∧
    (x.frame.typ ≠ 2 → exec (.rspFrame p x) s = .next s) ∧ (x.frame.typ ≠ 6 → exec (.evtFrame p x) s = .next s) ∧
    (x.frame.typ ≠ 9 → exec (.nakFrame p x) s = .next s) ∧ (x.frame.typ ≠ 5 → exec (.imgFrame p x) s = .next s)) ∧
  (∀ (s w : State) (p u : HPort) (x : RxFrame), Arrives s p x → x.frame.typ = 1 → x.frame.dest ≠ 0xFFFF →
    routeOf s p x.frame = ⟨true, [], false⟩ →
    (cmdNoRoom x.frame = true → x.frame.src ≠ 0 → SendsUp s u x.frame.src →
      let t := inc (Sent s u (answerTo s x.frame 9 (BitVec.ofNat 32 2 :: frameHead x.frame))) Fld.HARNESS_NCNT_NAK_CNT
      (cmdOp x.frame = 1 → exec (.cmdRead p x) s = .next t) ∧ (cmdOp x.frame = 2 → exec (.cmdWrite p x) s = .next t)) ∧
    (cmdNoRoom x.frame = false → roleRefused s x.frame = some w →
      (cmdOp x.frame = 1 → exec (.cmdRead p x) s = .next w) ∧ (cmdOp x.frame = 2 → exec (.cmdWrite p x) s = .next w) ∧
      (cmdOp x.frame = 3 → exec (.cmdReport p x) s = .next w) ∧ (cmdOp x.frame = 4 → exec (.cmdActivate p x) s = .next w) ∧
      fget w Fld.HARNESS_NCNT_ROLE_CNT = min (fget s Fld.HARNESS_NCNT_ROLE_CNT + 1) (2 ^ 16 - 1) ∧ CorrectedReported s w 0x0804)) ∧
  (∀ (s : State) (p u : HPort) (x : RxFrame), ForThisDevice s p x → x.frame.dest ≠ 0xFFFF → x.frame.typ = 1 →
    stateRuns (devState s) = true → inRecovery s = false → s.trust.pause = none → SendsUp s u x.frame.src →
    let f := x.frame
    (cmdOp f = 1 → cmdWordsOk f = true → 0x10000000 ≤ cmdAddr f → cmdAddr f + 4 * cmdCount f ≤ 0x10400000 →
      exec (.cmdRead p x) s = .next (Sent s u (answerTo s f 2 (BitVec.ofNat 32 (0 + cmdCount f * 2 ^ 8 + cmdTag f * 2 ^ 16) ::
        (List.range (cmdCount f)).map fun k => leWord (nvmWindow s) (cmdAddr f - 0x10000000 + 4 * k))))) ∧
    (cmdOp f = 2 → cmdWordsOk f = true → cmdNoRoom f = false → cmdCount f = 1 → bit s Fld.HARNESS_CFG_CMDWR = true →
      ∀ w, hostWrite .harness (cmdAddr f) (payWord f 2) s = w → SendsUp w u f.src →
      (NoCutWaits w → exec (.cmdWrite p x) s = .next (Sent w u (answerTo w f 2
        [BitVec.ofNat 32 ((!writeServed s (cmdAddr f)).toNat + 1 * 2 ^ 8 + cmdTag f * 2 ^ 16)]))) ∧
      ∀ q, NoCutWaits s → w.test.cutPend.get q.idx = true → fbit w Fld.TEST_HARN_OFF q.idx = true →
        (q ≠ p ∨ (rspWaits w = false ∧ ∀ r, r ≠ p → w.test.cutPend.get r.idx = false)) →
        AnswersNext (exec (.cmdWrite p x) s) fun t => t.harn.cut.get q.idx = true) ∧
    (cmdOp f = 2 → cmdWordsOk f = true → cmdNoRoom f = false → bit s Fld.HARNESS_CFG_CMDWR = false → f.src ≠ 0 →
      exec (.cmdWrite p x) s = .next (inc (Sent s u (answerTo s f 9 (BitVec.ofNat 32 5 :: frameHead f))) Fld.HARNESS_NCNT_NAK_CNT)) ∧
    (cmdOp f = 3 → cmdCount f = 0 → f.payload.length = 9 →
      (s.trust.report = none → AnswersNext (exec (.cmdReport p x) s) fun t =>
        t.trust.report = some ⟨(f.payload.drop 1).flatMap fun w => leBytes 4 w.toNat, some (f.src, cmdTag f, f.seq)⟩ ∧
        bit t Fld.TRUST_STATUS_RPT_BUSY = true ∧ SameBits [Fld.TRUST_STATUS_RPT_BUSY] s t ∧
        t.harn = (Sent s u (answerTo s f 2 [BitVec.ofNat 32 (2 + 0 * 2 ^ 8 + cmdTag f * 2 ^ 16)])).harn) ∧
      (s.trust.report ≠ none → exec (.cmdReport p x) s =
        .next (Sent s u (answerTo s f 2 [BitVec.ofNat 32 (3 + 0 * 2 ^ 8 + cmdTag f * 2 ^ 16)])))) ∧
    (cmdOp f = 4 → activateOk f = true →
      let r := requestActivation s (payWord f 1 == 1) ((payWord f 2).toNat + getBits (payWord f 3) 0 8 * 2 ^ 32)
        ((payWord f 4).toNat + (payWord f 5).toNat * 2 ^ 32)
      AnswersNext (exec (.cmdActivate p x) s) fun t => t.trust = r.1.trust ∧ t.live = r.1.live ∧ SameMemory s t ∧
        t.harn = (Sent s u (answerTo s f 2 [BitVec.ofNat 32 (r.2.isSome.toNat + cmdCount f * 2 ^ 8 + cmdTag f * 2 ^ 16),
          BitVec.ofNat 32 (r.2.getD 0)])).harn)) ∧
  (∀ (s : State) (p : HPort) (x : RxFrame) (q : Fin 64), ForThisDevice s p x → x.frame.dest ≠ 0xFFFF →
    fget s Fld.HARNESS_CFG_RXQ = q.val → x.frame.payload.length + 3 ≤ queueFree s q →
    let after := fun (t : State) => (queueOf t q).entries = (queueOf s q).entries ++ (frameHead x.frame ++ x.frame.payload) ∧
      bit t Fld.HARNESS_EVENT_RX_FRAME = true ∧ (∀ k, k ≠ q → queueOf t k = queueOf s k) ∧ t.harn.tx = s.harn.tx ∧ SameMemory s t
    (x.frame.typ = 2 → rspOk x.frame = true → AnswersNext (exec (.rspFrame p x) s) after) ∧
    (x.frame.typ = 6 → evtOk x.frame = true → (isRoot s = false ∨ getBits (payWord x.frame 0) 0 16 ≠ 0x0806) → AnswersNext (exec (.evtFrame p x) s) after) ∧
    (x.frame.typ = 6 → evtOk x.frame = true → isRoot s = true → getBits (payWord x.frame 0) 0 16 = 0x0806 →
      AnswersNext (exec (.evtFrame p x) s) fun t =>
      (queueOf t q).entries = (queueOf s q).entries ++ (frameHead x.frame ++ x.frame.payload) ∧ SameMemory s t ∧
      t.harn.brkFar = (s.harn.brkFar || x.frame.src != fget s Fld.HARNESS_RANGE_DN_LO) ∧
      bit t Fld.HARNESS_STATUS_RINGBRK = (bit s Fld.HARNESS_STATUS_RINGBRK || bit s Fld.HARNESS_CFG_RING) ∧
      (bit s Fld.HARNESS_CFG_RING = true → bit s Fld.HARNESS_STATUS_RINGBRK = false →
        bit t Fld.HARNESS_EVENT_RING_BRK = true ∧ t.harn.breakDue = true ∧ CorrectedReported s t 0x0806)) ∧
    (x.frame.typ = 9 → nakOk x.frame = true → AnswersNext (exec (.nakFrame p x) s) after) ∧
    (∀ u, x.frame.src ≠ 0 → SendsUp s u x.frame.src →
      let t := inc (Sent s u (answerTo s x.frame 9 (BitVec.ofNat 32 3 :: frameHead x.frame))) Fld.HARNESS_NCNT_NAK_CNT
      (x.frame.typ = 2 → rspOk x.frame = false → exec (.rspFrame p x) s = .next t) ∧
      (x.frame.typ = 6 → evtOk x.frame = false → exec (.evtFrame p x) s = .next t)) ∧
    (x.frame.typ = 9 → nakOk x.frame = false → exec (.nakFrame p x) s = .next s)) ∧
  (∀ (s : State) (p : HPort) (x : RxFrame), ForThisDevice s p x → x.frame.dest ≠ 0xFFFF →
    (∀ q : Fin 64, fget s Fld.HARNESS_CFG_RXQ = q.val → queueFree s q < x.frame.payload.length + 3 →
      (x.frame.typ = 2 → AnswersNext (exec (.rspFrame p x) s) fun t => t.queues = s.queues ∧ SameMemory s t ∧
        fget t (Fld.HOSTIF_Q_DROP_DROP q) = min (fget s (Fld.HOSTIF_Q_DROP_DROP q) + 1) (2 ^ 32 - 1)) ∧
      (x.frame.typ = 9 → exec (.nakFrame p x) s = .next (inc s (Fld.HOSTIF_Q_DROP_DROP q)))) ∧
    (64 ≤ fget s Fld.HARNESS_CFG_RXQ → (x.frame.typ = 2 → rspOk x.frame = true → exec (.rspFrame p x) s = .next (inc s (Fld.HARNESS_PCNT_DROP_CNT p.idx))) ∧
      (x.frame.typ = 9 → nakOk x.frame = true → exec (.nakFrame p x) s = .next (inc s (Fld.HARNESS_PCNT_DROP_CNT p.idx))))) ∧
  ∀ (s : State) (p : HPort) (x : RxFrame), ForThisDevice s p x → x.frame.dest ≠ 0xFFFF → x.frame.typ = 5 → hostReady s = true →
    inRecovery s = false → 3 ≤ x.frame.payload.length →
    let r := judgePiece s (payWord x.frame 0).toNat (payWord x.frame 1).toNat ((x.frame.payload.drop 2).flatMap fun w => leBytes 4 w.toNat)
    r.2.nak = none → exec (.imgFrame p x) s = .next r.1

/-- R47, R211, R212, R331, R332, R334 and R336 to R338: TUNING_FRAME, TUNING_EMIT, BUDGET_FRAME and ROLE_FRAME. Role frames and epochs in corners (log entry 93), an own entry of a budget (log entry 149) and its stamp (log entry 39) are the model's readings. -/
def Obligations.TuningBudgetsAndRolesReachTheDevice : Prop :=
  (∀ (s : State) (p : HPort) (x : RxFrame) (fret sub : Nat) (late : Vector Bool 3),
    (x.frame.typ ≠ 3 → exec (.tuningFrame p x ⟨fret, sub⟩ late) s = .next s) ∧
    (x.frame.typ ≠ 4 → exec (.budgetFrame p x) s = .next s) ∧ (x.frame.typ ≠ 8 → exec (.roleFrame p x) s = .next s) ∧
    ((isRoot s = false ∨ s.harn.tuneDue = false ∨ harnRuns s = false) → exec (.tuningEmit sub) s = .next s) ∧
    AnswersNext (exec .angleWrap s) (fun t => t.harn.tuneDue = isRoot s) ∧
    (ForThisDevice s p x → NoCutWaits s → isRoot s = false → x.frame.dest = 0xFFFF → x.frame.typ = 3 → tuningOk x.frame = false →
      exec (.tuningFrame p x ⟨fret, sub⟩ late) s = .next s) ∧
    (Arrives s p x → NoCutWaits s → isRoot s = true → x.frame.typ = 3 → AnswersNext (exec (.tuningFrame p x ⟨fret, sub⟩ late) s) fun t =>
      bit t Fld.HARNESS_EVENT_TWO_ROOTS = true ∧ CorrectedReported s t 0x0805 ∧ SameMemory s t)) ∧
  (∀ (s : State) (p : HPort) (x : RxFrame) (fret sub : Nat) (late : Vector Bool 3), ForThisDevice s p x → x.frame.typ = 3 →
    isRoot s = false → NoCutWaits s → tuningOk x.frame = true → AnswersNext (exec (.tuningFrame p x ⟨fret, sub⟩ late) s) fun t =>
      let path := payWord x.frame 4 + rd s Reg.HARNESS_LINKDLY
      let freq := (getBits (payWord x.frame 3) 0 27 : Rat) / ((2 ^ 20 : Nat) : Rat)
      rd t Reg.HARNESS_PATHDLY = path ∧ fget t Fld.HARNESS_STATUS_DEPTH = (getBits (payWord x.frame 1) 16 16 + 1) % 2 ^ 16 ∧
      t.time.tunSeen = true ∧ t.time.tunLost = false ∧
      (flagOf x.frame 1 = false → t.time.harFreq = freq ∧ t.time.harAt = arrivalFret s fret sub ∧
        t.time.rootCount = (payWord x.frame 0).toNat + getBits (payWord x.frame 1) 0 8 * 2 ^ 32 ∧
        t.time.harTheta = turns (payWord x.frame 2).toNat + (path.toNat : Rat) / 256 / 1000000000 * freq) ∧
      (flagOf x.frame 1 = true → t.time = { s.time with tunSeen := true, tunLost := false }) ∧
      SameBits [wholeReg Reg.HARNESS_PATHDLY, Fld.HARNESS_STATUS_DEPTH] s t ∧ t = { s with live := t.live, time := t.time }) ∧
  (∀ (s : State) (p q : HPort) (x : RxFrame) (fret sub : Nat) (late : Vector Bool 3), Arrives s p x → secondRoot s p x.frame = false →
    x.frame.typ = 3 → isRoot s = false → routeOf s p x.frame = ⟨true, [q], false⟩ → x.frame.payload.length = 5 → linkUp s q = true →
    s.harn.cut.get q.idx = false → NoCutWaits s → AnswersNext (exec (.tuningFrame p x ⟨fret, sub⟩ late) s) fun t =>
      ∃ (f : Frame) (more : List TxItem), t.harn.tx = s.harn.tx ++ sentFrame q f :: more ∧ f.typ = 3 ∧ f.dest = x.frame.dest ∧
        payWord f 0 = payWord x.frame 0 ∧ payWord f 4 = payWord x.frame 4 + rd s Reg.HARNESS_LINKDLY + rd s Reg.HARNESS_FWDLAT ∧
        getBits (payWord f 1) 16 16 = (getBits (payWord x.frame 1) 16 16 + 1) % 2 ^ 16 ∧
        (flagOf f 1 = (flagOf x.frame 1 || late.get q.idx))) ∧
  (∀ (s : State) (sub : Nat) (q : HPort), isRoot s = true → s.harn.tuneDue = true → harnRuns s = true → downPorts s = [q] →
    s.harn.cut.get q.idx = false → NoCutWaits s → bit s Fld.HARNESS_STATUS_RINGBRK = false → AnswersNext (exec (.tuningEmit sub) s) fun t =>
      t.harn.tuneDue = false ∧ SameMemory s t ∧
      ∃ (f : Frame) (more : List TxItem), t.harn.tx = s.harn.tx ++ sentFrame q f :: more ∧ f.typ = 3 ∧ f.dest = 0xFFFF ∧
        f.payload.length = 5 ∧ payWord f 0 = BitVec.ofNat 32 s.time.cycleCount ∧ payWord f 4 = 0 ∧
        payWord f 2 = BitVec.ofNat 32 (angleAt s 0 + ((sub : Rat) / 256 / 1000000000 * s.time.freq * ((2 ^ 32 : Nat) : Rat)).floor.toNat)) ∧
  (∀ (s : State) (p : HPort) (x : RxFrame), ForThisDevice s p x → x.frame.typ = 4 → isRoot s = false →
    (ownRole s = 2 ∨ bit s Fld.CAPO_CFG_FLEET = false) → x.frame.payload.length % 2 = 1 → exec (.budgetFrame p x) s = .next s) ∧
  (∀ (s : State) (p : HPort) (x : RxFrame) (stamp : Word) (es : List Word), ForThisDevice s p x → x.frame.typ = 4 → isRoot s = false →
    x.frame.payload = stamp :: es → es.length % 2 = 0 → ownRole s ≠ 2 → AnswersNext (exec (.budgetFrame p x) s) fun t => SameMemory s t ∧
      (findBudget (ownAddr s) es = none → t = s) ∧
      (∀ a v, bit s Fld.CAPO_CFG_FLEET = true → findBudget (ownAddr s) es = some (a, v) →
        (vwVal v < 0 ∨ vwReserved v = true ∨ getBits a 16 16 ≠ 0 ∨ (s.capo.stampFree = false ∧ bit s Fld.CAPO_STATUS_BSTALE = false ∧
          (stamp - rd s Reg.CAPO_BSTAMP).msb = true)) →
        rd t Reg.CAPO_BUDGET = rd s Reg.CAPO_BUDGET ∧ rd t Reg.CAPO_BSTAMP = rd s Reg.CAPO_BSTAMP ∧ t.capo = { s.capo with stampFree := false } ∧
        bit t Fld.CAPO_EVENT_BUDGET_REF = true ∧ CorrectedReported s t 0x02A2) ∧
      (∀ a v, bit s Fld.CAPO_CFG_FLEET = true → findBudget (ownAddr s) es = some (a, v) → 0 ≤ vwVal v → vwReserved v = false →
        getBits a 16 16 = 0 → (s.capo.stampFree = true ∨ bit s Fld.CAPO_STATUS_BSTALE = true ∨ (stamp - rd s Reg.CAPO_BSTAMP).msb = false) →
        rd t Reg.CAPO_BUDGET = v ∧ rd t Reg.CAPO_BSTAMP = stamp ∧ t.capo.budget = some v ∧ t.capo.stampFree = false ∧
        bit t Fld.CAPO_EVENT_BUDGET_OK = true ∧ fget t Fld.CAPO_STATUS_AGE = 0)) ∧
  (∀ (s : State) (p u : HPort) (x : RxFrame), ForThisDevice s p x → x.frame.typ = 8 → isRoot s = false →
    (x.frame.src ≠ fget s Fld.HARNESS_ADDR_ROOTA → exec (.roleFrame p x) s = .next s) ∧
    (x.frame.src = fget s Fld.HARNESS_ADDR_ROOTA → x.frame.dest ≠ 0xFFFF → x.frame.src ≠ 0 → SendsUp s u x.frame.src →
      (x.frame.payload.length ≠ 1 ∨ (payWord x.frame 0).toNat = 0 ∨ 3 < (payWord x.frame 0).toNat ∨
        epochOk (fget s Fld.HARNESS_ROLE_EPOCH) x.frame.epoch = false) →
      exec (.roleFrame p x) s =
        .next (inc (Sent s u (answerTo s x.frame 9 (BitVec.ofNat 32 3 :: frameHead x.frame))) Fld.HARNESS_NCNT_NAK_CNT))) ∧
  ∀ (s : State) (p u : HPort) (x : RxFrame), ForThisDevice s p x → x.frame.typ = 8 → isRoot s = false →
    x.frame.src = fget s Fld.HARNESS_ADDR_ROOTA → x.frame.payload.length = 1 → 1 ≤ (payWord x.frame 0).toNat →
    (payWord x.frame 0).toNat ≤ 3 → epochOk (fget s Fld.HARNESS_ROLE_EPOCH) x.frame.epoch = true →
    SendsUp s u x.frame.src → AnswersNext (exec (.roleFrame p x) s) fun t =>
      fget t Fld.HARNESS_ROLE_ROLE = (payWord x.frame 0).toNat ∧ fget t Fld.HARNESS_ROLE_EPOCH = x.frame.epoch ∧
      bit t Fld.HARNESS_EVENT_ROLE_SET = true ∧ t.harn.assigned = true ∧ SameMemory s t ∧
      t.harn.tx = s.harn.tx ++ [sentFrame u ⟨x.frame.src, ownAddr s, 2, x.frame.epoch, 0xFF, x.frame.seq, 0, [0]⟩] ∧
      t.capo.stampFree = (s.capo.stampFree || x.frame.epoch != ownEpoch s) ∧
      ((bit s Fld.GLOBAL_STATE_ARM_PEND = false ∨ (payWord x.frame 0).toNat ≠ 2) →
        SameBits [Fld.HARNESS_ROLE_ROLE, Fld.HARNESS_ROLE_EPOCH, Fld.HARNESS_EVENT_ROLE_SET] s t)

/-- R329, R330 and R335: the eight enumeration and hop-delay commands. The walk of an enumeration in its corners (log entry 94), the mean of eight probes (log entry 96) and the far break that ends with an ASSIGN on HUP (log entry 158) are the model's readings. -/
def Obligations.EnumerationAssignsAddresses : Prop :=
  (∀ (s : State) (p : HPort) (x : RxFrame) (d : Int),
    (enumIs 0x01 3 x.frame = false → exec (.enumAssign p x) s = .next s) ∧ (enumIs 0x02 2 x.frame = false → exec (.enumDone p x) s = .next s) ∧
    (enumIs 0x03 1 x.frame = false → exec (.enumProbe p x) s = .next s) ∧ (enumIs 0x04 1 x.frame = false → exec (.enumEcho p x d) s = .next s) ∧
    (enumIs 0x05 1 x.frame = false → exec (.enumRing p x) s = .next s)) ∧
  (∀ (s : State) (p : HPort) (x : RxFrame), Arrives s p x → enumIs 0x01 3 x.frame = true →
    (bit s Fld.HARNESS_CFG_ROOT = true → p ≠ .hup → exec (.enumAssign p x) s = .next s) ∧
    (bit s Fld.HARNESS_CFG_ROOT = false → p = .hbr → exec (.enumAssign p x) s = .next s) ∧
    (bit s Fld.HARNESS_CFG_ROOT = true → p = .hup → mayTransmit s .hup 3 = true → AnswersNext (exec (.enumAssign p x) s) fun t =>
      bit t Fld.HARNESS_STATUS_RINGMODE = true ∧ SameMemory s t ∧ (s.harn.brkFar = true → bit t Fld.HARNESS_EVENT_RING_HEAL = true) ∧
      t.harn.tx = s.harn.tx ++ [sentFrame .hup ⟨0, ownAddr s, 7, 0, 0xFF, s.harn.seq, 0, [5]⟩])) ∧
  (∀ (s : State) (p : HPort) (x : RxFrame), Arrives s p x → enumIs 0x01 3 x.frame = true → bit s Fld.HARNESS_CFG_ROOT = false → p ≠ .hbr →
    fget s Fld.HARNESS_ROLE_ROLE ≠ 0 → (∀ q, q ≠ p → linkUp s q = false) → s.harn.paused.get p.idx = false → s.harn.guard.get p.idx = false →
    AnswersNext (exec (.enumAssign p x) s) fun t =>
      ownAddr t = getBits (payWord x.frame 1) 0 16 ∧ fget t Fld.HARNESS_ADDR_ROOTA = getBits (payWord x.frame 2) 0 16 ∧
      upPort t = some p ∧ bit t Fld.HARNESS_STATUS_ENUMERATED = true ∧ bit t Fld.HARNESS_STATUS_ENUM_BUSY = false ∧
      rd t Reg.HARNESS_RANGE_DN = 0xFFFF ∧ rd t Reg.HARNESS_RANGE_BR = 0xFFFF ∧ t.harn.enum = none ∧ SameMemory s t ∧
      (fget s Fld.HARNESS_STATUS_UPPORT ≠ upCode p → bit t Fld.HARNESS_STATUS_DELAY_VALID = false) ∧
      ∃ n, t.harn.tx.getLast? = some (sentFrame p ⟨0, getBits (payWord x.frame 1) 0 16, 7, 0, 0xFF, n, 0,
        [2, BitVec.ofNat 32 (getBits (payWord x.frame 1) 0 16)]⟩)) ∧
  (∀ s : State, (bit s Fld.HARNESS_CFG_ROOT = false → exec .harnessEnum s = .next s) ∧
    (bit s Fld.HARNESS_CFG_ROOT = true → outOpen s .hdn = true → mayTransmit s .hdn 3 = true → fget s Fld.HARNESS_CFG_ROOT_ADDR < 0xFFFE →
      AnswersNext (exec .harnessEnum s) fun t => let a := fget s Fld.HARNESS_CFG_ROOT_ADDR
        ownAddr t = a ∧ bit t Fld.HARNESS_STATUS_ENUM_BUSY = true ∧ t.harn.enum = some ⟨a + 1, some .hdn⟩ ∧ SameMemory s t ∧
        t.harn.tx = s.harn.tx ++ [sentFrame .hdn ⟨0, a, 7, 0, 0xFF, s.harn.seq, 0, [1, BitVec.ofNat 32 (a + 1), BitVec.ofNat 32 a]⟩])) ∧
  (∀ s : State, bit s Fld.HARNESS_CFG_ROOT = true → (∀ q, linkUp s q = false) → fget s Fld.HARNESS_CFG_ROOT_ADDR < 0xFFFE →
    AnswersNext (exec .harnessEnum s) fun t =>
      ownAddr t = fget s Fld.HARNESS_CFG_ROOT_ADDR ∧ bit t Fld.HARNESS_EVENT_ENUM_DONE = true ∧ bit t Fld.HARNESS_STATUS_ENUMERATED = true ∧
      upPort t = none ∧ t.harn.tx = s.harn.tx ∧ t.harn.enum = none ∧ SameMemory s t) ∧
  (∀ (s : State) (p : HPort) (x : RxFrame), Arrives s p x → (∀ n, s.harn.enum ≠ some ⟨n, some p⟩) →
    (enumIs 0x02 2 x.frame = true → exec (.enumDone p x) s = .next s) ∧ (enumIs 0x05 1 x.frame = true → exec (.enumRing p x) s = .next s)) ∧
  (∀ (s : State) (p : HPort) (x : RxFrame) (d : Int), Arrives s p x → enumIs 0x04 1 x.frame = true →
    (upPort s ≠ some p ∨ ∀ vs, s.harn.probe = some ⟨vs⟩ → 8 ≤ vs.length) → exec (.enumEcho p x d) s = .next s) ∧
  (∀ (s : State) (l : BitVec 16), (upPort s = none → exec .harnessReprobe s = .next s ∧ exec .hopProbeStart s = .next s) ∧
    ((harnRuns s = false ∨ s.harn.probe.isSome = true ∨ s.harn.probeAt = some s.time.cycleCount ∨ (s.harn.probeDue = false ∧
      (ownAddr s = 0 ∨ s.time.cycleCount % 1024 ≠ ownAddr s % 1024))) → exec .hopProbeStart s = .next s) ∧
    (s.harn.probe = none → exec (.hopProbeDone l) s = .next s)) ∧
  (∀ (s : State) (x : RxFrame) (n : Nat), Arrives s .hbr x → isRoot s = true → s.harn.enum = some ⟨n, some .hbr⟩ → n < 0xFFFF →
    (enumIs 0x02 2 x.frame = true → getBits (payWord x.frame 1) 0 16 < 0xFFFE → AnswersNext (exec (.enumDone .hbr x) s) fun t =>
      fget t Fld.HARNESS_RANGE_BR_LO = n ∧ fget t Fld.HARNESS_RANGE_BR_HI = getBits (payWord x.frame 1) 0 16 ∧ t.harn.enum = none ∧
      bit t Fld.HARNESS_EVENT_ENUM_DONE = true ∧ bit t Fld.HARNESS_STATUS_ENUM_BUSY = false ∧ SameMemory s t ∧
      SameBits [wholeReg Reg.HARNESS_RANGE_BR, Fld.HARNESS_EVENT_ENUM_DONE, Fld.HARNESS_STATUS_ENUM_BUSY] s t) ∧
    (enumIs 0x05 1 x.frame = true → AnswersNext (exec (.enumRing .hbr x) s) fun t =>
      rd t Reg.HARNESS_RANGE_BR = 0xFFFF ∧ t.harn.enum = none ∧ bit t Fld.HARNESS_EVENT_ENUM_DONE = true ∧ SameMemory s t)) ∧
  (∀ (s : State) (p : HPort) (x : RxFrame), Arrives s p x → enumIs 0x03 1 x.frame = true → mayTransmit s p 3 = true →
    exec (.enumProbe p x) s = .next (nextSeq (Sent s p ⟨0, ownAddr s, 7, 0, 0xFF, s.harn.seq, 0, [4]⟩))) ∧
  (∀ (s : State) (p : HPort) (x : RxFrame) (d : Int) (vs : List Int), Arrives s p x → enumIs 0x04 1 x.frame = true → upPort s = some p →
    s.harn.probe = some ⟨vs⟩ → vs.length < 8 →
    exec (.enumEcho p x d) s = .next (setHarn s fun h => { h with probe := some ⟨vs ++ [d]⟩ })) ∧
  (∀ (s : State) (u : HPort), upPort s = some u → linkUp s u = true → s.harn.cut.get u.idx = false → mayTransmit s u 3 = true →
    let sent := fun (t : State) => t.harn.probe = some ⟨[]⟩ ∧ t.harn.probeDue = false ∧ t.harn.probeAt = some s.time.cycleCount ∧
      t = { s with harn := t.harn } ∧
      ∃ fs : List Frame, fs.length = 8 ∧ (∀ f ∈ fs, f.typ = 7 ∧ f.payload = [3]) ∧
        t.harn.tx = s.harn.tx ++ fs.map (sentFrame u)
    (AnswersNext (exec .harnessReprobe s) sent) ∧
    (harnRuns s = true → s.harn.probe = none → s.harn.probeAt ≠ some s.time.cycleCount →
      (s.harn.probeDue = true ∨ (ownAddr s ≠ 0 ∧ s.time.cycleCount % 1024 = ownAddr s % 1024)) → AnswersNext (exec .hopProbeStart s) sent)) ∧
  ∀ (s : State) (l : BitVec 16) (vs : List Int), s.harn.probe = some ⟨vs⟩ → AnswersNext (exec (.hopProbeDone l) s) fun t =>
    t.harn.probe = none ∧ fget t Fld.HARNESS_FWDLAT_FWDLAT = l.toNat ∧ SameMemory s t ∧
    (∀ m, probeMean vs = some m → fget t Fld.HARNESS_LINKDLY_LINKDLY = m % 2 ^ 24 ∧ bit t Fld.HARNESS_STATUS_DELAY_VALID = true ∧
      t.harn.badProbes = 0 ∧ SameBits [Fld.HARNESS_FWDLAT_FWDLAT, Fld.HARNESS_LINKDLY_LINKDLY, Fld.HARNESS_STATUS_DELAY_VALID] s t) ∧
    (probeMean vs = none → fget t Fld.HARNESS_LINKDLY_LINKDLY = fget s Fld.HARNESS_LINKDLY_LINKDLY ∧
      (3 ≤ s.harn.badProbes → t.harn.badProbes = 0 ∧ bit t Fld.HARNESS_EVENT_DELAY_BAD = true ∧ CorrectedReported s t 0x0807) ∧
      (s.harn.badProbes < 3 → t.harn.badProbes = s.harn.badProbes + 1 ∧ t.harn.probeDue = true))

/-- R458 and R463 to R473: GLOBAL_ARM, ARM_APPLY, DISARM, TEST_ENTER, TEST_EXIT, HIBERNATE_REQUEST, HIBERNATE_ENTERED and BOOT_COMPLETE. That arming and TEST_ENTER are refused during a hibernation entry (log entry 73) and the reason of an arming that fails later (log entry 164) are the model's. -/
def Obligations.ArmingFollowsItsKeysAndConditions : Prop :=
  (∀ (s : State) (v : Word), AnswersNext (exec (.globalArm v) s) fun t => SameMemory s t ∧ devState t = devState s ∧
    (s.power.armAt = none → getBits v 0 16 = 0xA55A → t = { s with power := { s.power with armAt := some s.tick } }) ∧
    (∀ k, s.power.armAt = some k → getBits v 0 16 = 0x5AA5 → s.tick < k + 1000 → t.power.armAt = none ∧
      (armReason s = none → bit t Fld.GLOBAL_STATE_ARM_PEND = true ∧ SameBits [Fld.GLOBAL_STATE_ARM_PEND] s t) ∧
      ∀ r, armReason s = some r → fget t Fld.GLOBAL_ARMSTAT_REASON = r ∧ bit t Fld.GLOBAL_EVENT_ARM_REF = true ∧
        CorrectedReported s t 0x0A20) ∧
    ((s.power.armAt = none ∧ getBits v 0 16 ≠ 0xA55A ∨
        ∃ k, s.power.armAt = some k ∧ ¬ (getBits v 0 16 = 0x5AA5 ∧ s.tick < k + 1000)) →
      t.power.armAt = none ∧ fget t Fld.GLOBAL_ARMSTAT_REASON = 6 ∧ bit t Fld.GLOBAL_EVENT_ARM_REF = true ∧ CorrectedReported s t 0x0A20)) ∧
  (∀ s : State, bit s Fld.GLOBAL_STATE_ARM_PEND = true → bit s Fld.SCHED_STATUS_RUN = true → AnswersNext (exec .armApply s) fun t =>
    SameMemory s t ∧ bit t Fld.GLOBAL_STATE_ARM_PEND = false ∧
    (armReason s = none → devState t = .armed ∧ fget t Fld.GLOBAL_STATE_PREV = (devState s).code ∧ fget t Fld.GLOBAL_ARMSTAT_REASON = 0 ∧
      bit t Fld.GLOBAL_EVENT_ARM_DONE = true ∧ bit t Fld.GLOBAL_EVENT_STATE_CHG = true ∧
      fget t Fld.GLOBAL_ARMSTAT_ARM_CNT = min (fget s Fld.GLOBAL_ARMSTAT_ARM_CNT + 1) 65535) ∧
    ∀ r, armReason s = some r → devState t = devState s ∧ fget t Fld.GLOBAL_ARMSTAT_REASON = r ∧ bit t Fld.GLOBAL_EVENT_ARM_REF = true) ∧
  (∀ s : State, (bit s Fld.GLOBAL_STATE_ARM_PEND = false ∨ bit s Fld.SCHED_STATUS_RUN = false) →
    AnswersNext (exec .armApply s) fun t => t = s) ∧
  (∀ s : State, AnswersNext (exec .disarm s) fun t => SameMemory s t ∧
    (devState s = .armed → devState t = .idle ∧ fget t Fld.GLOBAL_STATE_PREV = 4 ∧ ∀ p, PortLow t p) ∧
    (devState s ≠ .armed → devState t = devState s) ∧
    ((devState s = .idle ∨ devState s = .safe) → bit s Fld.GLOBAL_STATE_ARM_PEND = true → bit t Fld.GLOBAL_STATE_ARM_PEND = false ∧
      fget t Fld.GLOBAL_ARMSTAT_REASON = 8 ∧ bit t Fld.GLOBAL_EVENT_ARM_REF = true) ∧
    (devState s ≠ .armed → (bit s Fld.GLOBAL_STATE_ARM_PEND = false ∨ (devState s ≠ .idle ∧ devState s ≠ .safe)) →
      bit t Fld.GLOBAL_EVENT_CTRL_REF = true ∧ CorrectedReported s t 0x0A20)) ∧
  (∀ s : State, AnswersNext (exec .testEnter s) fun t => SameMemory s t ∧
    (devState s = .idle → bit s Fld.GLOBAL_STATE_HIB_PEND = false → devState t = .test ∧ fget t Fld.GLOBAL_STATE_PREV = 3 ∧ ∀ p, PortLow t p) ∧
    ((devState s ≠ .idle ∨ bit s Fld.GLOBAL_STATE_HIB_PEND = true) →
      devState t = devState s ∧ bit t Fld.GLOBAL_EVENT_CTRL_REF = true ∧ CorrectedReported s t 0x0A20)) ∧
  (∀ s : State, AnswersNext (exec .testExit s) fun t => SameMemory s t ∧
    (devState s = .test → devState t = .idle ∧ fget t Fld.GLOBAL_STATE_PREV = 6 ∧ t.test.tap = .idcode ∧
      bit t Fld.TEST_STATUS_DBG = false ∧ bit t Fld.FAULT_FWD_STAT_FROZEN = false ∧ ∀ p, PortLow t p) ∧
    (devState s ≠ .test → devState t = devState s ∧ bit t Fld.GLOBAL_EVENT_CTRL_REF = true ∧ CorrectedReported s t 0x0A20)) ∧
  (∀ s : State, AnswersNext (exec .hibernateRequest s) fun t => SameMemory s t ∧ devState t = devState s ∧
    (mayHibernate s = true → bit t Fld.GLOBAL_STATE_HIB_PEND = true ∧ t.power.hibAt = s.tick) ∧
    (mayHibernate s = false → bit t Fld.GLOBAL_EVENT_CTRL_REF = true ∧ CorrectedReported s t 0x0A20)) ∧
  (∀ s : State, devState s = .idle → bit s Fld.GLOBAL_STATE_HIB_PEND = true → hibSettled s = true → seqPhase s = .down →
    s.seq.reqOn = false → AnswersNext (exec .hibernateEntered s) fun t =>
      devState t = .hibernate ∧ t.power.hibAt = s.tick ∧ t.power.wakeEn = (rd s Reg.GLOBAL_WAKE_EN).toNat ∧
      t.power.alarm = (rd s Reg.GLOBAL_ALARM).toNat ∧ t.time.savedCount = s.time.cycleCount ∧ t.time.savedAt = s.tick ∧
      (s.trust.staging = none → t.nvm = s.nvm) ∧ (∀ p, PortLow t p)) ∧
  (∀ s : State, (devState s ≠ .idle ∨ bit s Fld.GLOBAL_STATE_HIB_PEND = false ∨ hibSettled s = false ∨ seqPhase s ≠ .down ∨
      s.seq.reqOn = true) → AnswersNext (exec .hibernateEntered s) fun t => t = s) ∧
  (∀ (s : State) (a : Bool), devState s = .boot → s.power.bootDone = true → AnswersNext (exec (.bootComplete a) s) fun t =>
    devState t = (if fatalValid s || s.power.bootFatal then .safe else .idle) ∧ fget t Fld.GLOBAL_STATE_PREV = 2 ∧
    bit t Fld.GLOBAL_STRAP_AUTOARM = a ∧ SameMemory s t ∧
    ((a = false ∨ bit s Fld.SCHED_STATUS_LOADED = false ∨ s.sched.autoarm = false ∨ 3 < s.sched.keyslot ∨ fatalValid s = true ∨
        s.power.bootFatal = true) → bit t Fld.GLOBAL_STATE_ARM_PEND = bit s Fld.GLOBAL_STATE_ARM_PEND) ∧
    (a = true → bit s Fld.SCHED_STATUS_LOADED = true → s.sched.autoarm = true → s.sched.keyslot ≤ 3 → fatalValid s = false →
      s.power.bootFatal = false → bit s Fld.SCHED_STATUS_MODIFIED = false → fget s Fld.HARNESS_ROLE_ROLE ≠ 2 → s.trust.inert = false →
      bit s Fld.GLOBAL_STATE_HIB_PEND = false → bit s Fld.SEQ_CFG_AUTOUP = false → bit s Fld.HARNESS_CFG_ROOT = false →
      bit t Fld.GLOBAL_STATE_ARM_PEND = true ∧ t.power.autoPend = true)) ∧
  ∀ (s : State) (a : Bool), devState s ≠ .boot → AnswersNext (exec (.bootComplete a) s) fun t => t = s

/-- R458 to R462, R474, R476, R477, R480 and R530: SOFT_RESET, POWER_ON, VKA_LOSS, RST_N_ASSERT, RESET_END and HIBERNATE_WAKE. What the Harness keeps while RST_N holds the device (log entry 98), RST_N in HIBERNATE (log entry 100) and what VKA_LOSS leaves (log entry 157) are the model's readings. -/
def Obligations.ResetKeepsOnlyWhatTheSpecKeeps : Prop :=
  (let places := fun (a : Nat) => a == Reg.GLOBAL_STATE || a == Reg.GLOBAL_RSTCAUSE || a == Reg.HOSTIF_STATUS || a == Reg.HARNESS_STATUS ||
    (decide (0xB000 ≤ a) && decide (a < 0xC000))
   let cleared := fun (s t : State) => devState t = .off ∧ t.engMem = [] ∧ (∀ p, PortLow t p) ∧ t.pending = s.pending ∧ t.tick = s.tick ∧
    rd t Reg.GLOBAL_RSTCAUSE = BitVec.ofNat 32 t.power.causes ∧
    (s.saddle.job = none → s.trust.staging = none → t.nvm = s.nvm)
   let held := fun (s t : State) => cleared s t ∧ (∀ a, keepAliveReg a = false → places a = false → rd t a = regReset a) ∧
    (∀ a, keepAliveReg a = true → places a = false → a ≠ Reg.BATT_STATUS 0 → a ≠ Reg.BATT_STATUS 1 → rd t a = rd s a) ∧
    (∀ b : Fin 2, bit t (Fld.BATT_STATUS_CHG_INH b) = false ∧
      ∀ k, k < 32 → k ≠ 7 → (rd t (Reg.BATT_STATUS b)).getLsbD k = (rd s (Reg.BATT_STATUS b)).getLsbD k) ∧
    (s.saddle.job = none → s.trust.staging = none → rd t Reg.REC_NEXT = rd s Reg.REC_NEXT ∧ rd t Reg.REC_SNAPSEQ = rd s Reg.REC_SNAPSEQ)
   (∀ s : State, stateRuns (devState s) = true → AnswersNext (exec .softReset s) fun t =>
      held s t ∧ t.power.causes = 16 ∧ t.power.heldFrom = devState s ∧ t.power.softAt = some s.tick) ∧
   (∀ s : State, stateRuns (devState s) = false → AnswersNext (exec .softReset s) fun t =>
      devState t = devState s ∧ bit t Fld.GLOBAL_EVENT_CTRL_REF = true ∧ CorrectedReported s t 0x0A20 ∧ SameMemory s t) ∧
   (∀ s : State, devState s = .off → s.power.causes.testBit 2 = false → AnswersNext (exec .powerOn s) fun t =>
      held s t ∧ t.power.causes = s.power.causes ||| 2 ∧ t.power.heldFrom = s.power.heldFrom ∧ t.power.holdVsup = true) ∧
   (∀ s : State, (devState s ≠ .off ∨ s.power.causes.testBit 2 = true) → AnswersNext (exec .powerOn s) fun t => t = s) ∧
   (∀ s : State, devState s ≠ .hibernate → AnswersNext (exec .rstNAssert s) fun t =>
      held s t ∧ t.power.causes = (if devState s = .off then s.power.causes else 0) ||| 8 ∧ t.power.holdRstn = true ∧ t.power.softAt = s.power.softAt) ∧
   (∀ s : State, devState s = .hibernate → AnswersNext (exec .rstNAssert s) fun t =>
      t = { s with power := { s.power with woke := s.power.woke ||| 32 } }) ∧
   ∀ s : State, AnswersNext (exec .vkaLoss s) fun t =>
      cleared s t ∧ t.power.causes = (if devState s = .off then s.power.causes else 0) ||| 1 ∧ t.power.heldFrom = .off ∧
      (∀ a, nvmReg a = false → places a = false → rd t a = regReset a) ∧
      rd t Reg.REC_FLOOR = BitVec.ofNat 32 t.trust.kept.floor ∧ t.trust.lifecycle = t.trust.kept.lifecycle ∧
      t.trust.fwStg = t.trust.kept.fwStg ∧ t.trust.stStg = t.trust.kept.stStg ∧ t.power.kaBad = [] ∧
      t.trust.keys = t.trust.kept.keys ∧
      (s.saddle.job = none → s.trust.staging = none → t.trust.kept = s.trust.kept ∧ rd t Reg.REC_NEXT = rd s Reg.REC_NEXT ∧
        rd t Reg.REC_SNAPSEQ = rd s Reg.REC_SNAPSEQ)) ∧
  (∀ (s : State) (addr : BitVec 3), devState s = .off → s.power.causes ≠ 0 → softOver s = true →
    AnswersNext (exec (.resetEnd addr) s) fun t =>
      t.resetTick = s.tick ∧ t.power.bootAt = s.tick ∧ t.power.bootDone = true ∧ t.power.softAt = none ∧ t.power.holdVsup = false ∧
      t.power.holdRstn = false ∧ t.tick = s.tick ∧
      (order1 s (imgOf s true false) = false → order1 s (imgOf s true true) = false →
        devState t = .boot ∧ fget t Fld.GLOBAL_STATE_PREV = 0 ∧ rd t Reg.GLOBAL_RSTCAUSE = BitVec.ofNat 32 s.power.causes ∧
        inRecovery t = true)) ∧
  (∀ (s : State) (addr : BitVec 3), (devState s ≠ .off ∨ s.power.causes = 0 ∨ softOver s = false) →
    AnswersNext (exec (.resetEnd addr) s) fun t => t = s) ∧
  (∀ s : State, devState s = .hibernate → s.power.woke ≠ 0 → AnswersNext (exec .hibernateWake s) fun t =>
    t.resetTick = s.tick ∧ t.power.bootAt = s.tick ∧ t.power.bootDone = true ∧ t.power.woke = 0 ∧ t.power.causes = 32 ∧ t.tick = s.tick) ∧
  ∀ s : State, (devState s ≠ .hibernate ∨ s.power.woke = 0) → AnswersNext (exec .hibernateWake s) fun t => t = s

/-- R169, R185 to R188, R379, R476 and R507: KA_TICK, KA_LATCH_SET, KA_LATCH_CLEAR, TW_ADDRESS_WAKE, HARNESS_ACTIVITY_WAKE, WAKE_PIN, VIO_UNDERVOLTAGE and VIO_ABOVE_THRESHOLD. That the first tick after PER is written is due at once and that hysteresis starts from OUT is the model's choice (log entry 135), and so are the event of the WAKE pin during a hibernation entry (log entry 104) and the threshold of the VIO detectors (log entry 165). -/
def Obligations.WakeSourcesAndSupplyDetectors : Prop :=
  (∀ (s : State) (volts : KaInputs), AnswersNext (exec (.kaTick volts) s) fun t =>
    let ball := fun (k : Fin 6) => if k = 0 then volts.batts.get 0 else if k = 1 then volts.batts.get 1
      else if k = 2 then volts.ports.get (Fin.ofNat 32 (fget s (Fld.KA_CFG_SEL 2))) else if k = 5 then volts.vsup
      else volts.feeds.get (Fin.ofNat 8 (fget s (Fld.KA_CFG_SEL k)))
    let level := fun (k : Fin 6) => if k = 2 ∧ ball k < 0 then -ball k else ball k
    let span : Fin 6 → Rat := fun k => if k = 2 then 1 / 10 else if k = 5 then 2 else 4 / 5
    let thr := fun (k : Fin 6) => (fget s (Fld.KA_CFG_THR k) : Rat) / 1024 * span k
    let hyst := fun (k : Fin 6) => [0, 1 / 160, 1 / 80, 1 / 40].getD (fget s (Fld.KA_CFG_HYST k)) 0 * span k
    let above := fun (k : Fin 6) => bit s (Fld.KA_CFG_POL k) = true ∨ k = 2 ∨ k = 5
    (fget s Fld.KA_TICK_PER = 0 → t = s) ∧
    (∀ d, s.power.kaDue = some d → s.tick < d / 32768 → t = s) ∧
    (fget s Fld.KA_TICK_PER ≠ 0 → (∀ d, s.power.kaDue = some d → d / 32768 ≤ s.tick) →
      SameBits [Fld.KA_STATUS_OUT] s t ∧
      t = { s with live := t.live, power := { s.power with kaRun := t.power.kaRun, kaDue := t.power.kaDue } } ∧
      t.power.kaDue = some (max (s.power.kaDue.getD 0) (s.tick * 32768) + fget s Fld.KA_TICK_PER * 1000000) ∧
      ∀ k : Fin 6, (bit s (Fld.KA_CFG_EN k) = false → fbit t Fld.KA_STATUS_OUT k = false) ∧
        (bit s (Fld.KA_CFG_EN k) = true → above k → thr k < level k → fbit t Fld.KA_STATUS_OUT k = true) ∧
        (bit s (Fld.KA_CFG_EN k) = true → above k → level k < thr k - hyst k → fbit t Fld.KA_STATUS_OUT k = false) ∧
        (bit s (Fld.KA_CFG_EN k) = true → ¬ above k → level k < thr k → fbit t Fld.KA_STATUS_OUT k = true) ∧
        (bit s (Fld.KA_CFG_EN k) = true → ¬ above k → thr k + hyst k < level k → fbit t Fld.KA_STATUS_OUT k = false) ∧
        (bit s (Fld.KA_CFG_EN k) = true → thr k - hyst k ≤ level k → level k ≤ thr k + hyst k →
          (above k → level k ≤ thr k) → (¬ above k → thr k ≤ level k) → fbit t Fld.KA_STATUS_OUT k = fbit s Fld.KA_STATUS_OUT k) ∧
        t.power.kaRun.get k = if fbit t Fld.KA_STATUS_OUT k then min (s.power.kaRun.get k + 1) 16 else 0)) ∧
  (∀ (s : State) (k : Fin 6), AnswersNext (exec (.kaLatchSet k) s) fun t =>
    (s.power.kaRun.get k < kaCnt s k → t = s) ∧
    (kaCnt s k ≤ s.power.kaRun.get k → fbit t Fld.KA_STATUS_LAT k = true ∧
      (∀ j, j < 6 → j ≠ k.val → fbit t Fld.KA_STATUS_LAT j = fbit s Fld.KA_STATUS_LAT j) ∧ SameBits [Fld.KA_STATUS_LAT] s t ∧
      t.power.woke = (if (devState s = .hibernate ∨ bit s Fld.GLOBAL_STATE_HIB_PEND = true) ∧ bit s (Fld.KA_CFG_WAKE k) = true
        then s.power.woke ||| 1 else s.power.woke))) ∧
  (∀ (s : State) (v : Word), AnswersNext (exec (.kaLatchClear v) s) fun t => SameBits [Fld.KA_STATUS_LAT] s t ∧
    t = { s with live := t.live, power := { s.power with kaRun := t.power.kaRun } } ∧
    ∀ k : Fin 6, fbit t Fld.KA_STATUS_LAT k = (fbit s Fld.KA_STATUS_LAT k && !v.getLsbD k) ∧
      t.power.kaRun.get k = if v.getLsbD k then 0 else s.power.kaRun.get k) ∧
  (∀ s : State, AnswersNext (exec .twAddressWake s) fun t =>
    t = { s with power := { s.power with woke := if wakeSourceOn s 0 then s.power.woke ||| 2 else s.power.woke } }) ∧
  (∀ s : State, AnswersNext (exec .harnessActivityWake s) fun t =>
    t = { s with power := { s.power with woke := if wakeSourceOn s 1 then s.power.woke ||| 4 else s.power.woke } }) ∧
  (∀ (s : State) (l : Bool), AnswersNext (exec (.wakePin l) s) fun t => t.power.wakePin = l ∧
    (l = false → t = { s with power := { s.power with wakePin := false } }) ∧
    (l = true → devState s ≠ .off → devState s ≠ .hibernate →
      bit t Fld.HOSTIF_EVENT_WAKE_PIN = true ∧ SameBits [Fld.HOSTIF_EVENT_WAKE_PIN] s t ∧
      t.power.woke = if wakeSourceOn s 2 then s.power.woke ||| 8 else s.power.woke) ∧
    (l = true → devState s = .hibernate →
      t = { s with power := { s.power with wakePin := true, woke := if wakeSourceOn s 2 then s.power.woke ||| 8 else s.power.woke } }) ∧
    (l = true → devState s = .off → bit s Fld.GLOBAL_STATE_HIB_PEND = false → t = { s with power := { s.power with wakePin := true } })) ∧
  (∀ (s : State) (b : Fin 4) (v : Rat) (held : Nat), stateRuns (devState s) = true → s.power.vioLow.get b = false → v < 1 → 2 ≤ held →
    AnswersNext (exec (.vioUndervoltage ⟨b, v, held⟩) s) fun t => t.power.vioLow.get b = true ∧ SameMemory s t ∧
      (b = 3 → devState t = devState s ∧ CorrectedReported s t 0x0708) ∧
      (b ≠ 3 → devState t = .safe ∧ bit t Fld.FAULT_EVENT_FATAL = true)) ∧
  (∀ (s : State) (b : Fin 4) (v : Rat) (held : Nat),
    (stateRuns (devState s) = false ∨ s.power.vioLow.get b = true ∨ 1 ≤ v ∨ held < 2) →
    AnswersNext (exec (.vioUndervoltage ⟨b, v, held⟩) s) fun t => t = s) ∧
  (∀ (s : State) (b : Fin 4) (v : Rat) (held : Nat), (v ≤ 21 / 20 ∨ held < 1000) →
    AnswersNext (exec (.vioAboveThreshold ⟨b, v, held⟩) s) fun t => t = s) ∧
  ∀ (s : State) (b : Fin 4) (v : Rat) (held : Nat), 21 / 20 < v → 1000 ≤ held →
   AnswersNext (exec (.vioAboveThreshold ⟨b, v, held⟩) s) fun t =>
    t.power.vioLow.get b = false ∧ (∀ c, c ≠ b → t.power.vioLow.get c = s.power.vioLow.get c) ∧
    t = { s with power := { s.power with vioLow := t.power.vioLow } }

/-- R481 to R487: TEST_OOS_WRITE, OOS_APPLY, PORT_ADC_CHECK, CMP_SWEEP_GO, CMP_SWEEP_STEP, PWM_CAPTURE_GO and PWM_CAPTURE_DONE. What a GO does while a sweep or a capture runs (log entry 75), a port under check (log entry 105), the search of a sweep (log entries 106 and 166), the edges that a capture expects (log entry 107) and 0x0104 once in a run (log entry 184) are the model's. -/
def Obligations.OnlineTestChecksJudgeAndReport : Prop :=
  (∀ (s : State) (v : Word), AnswersNext (exec (.testOosWrite v) s) fun t =>
    (oosAccepted s = true → rd t Reg.TEST_OOS = v ∧ SameBits [Fld.TEST_OOS_OOS] s t ∧
      t = { s with live := t.live, test := { s.test with oosPend := true, oosAt := s.tick } }) ∧ (oosAccepted s = false → t = s)) ∧
  (∀ s : State, AnswersNext (exec .oosApply s) fun t => SameMemory s t ∧
    ((s.test.oosPend = false ∨ (engineRuns s = false ∧ s.tick ≤ s.test.oosAt)) → t = s) ∧
    (s.test.oosPend = true → (engineRuns s = true ∨ s.test.oosAt < s.tick) → t.test.oosPend = false ∧ fget t Fld.TEST_OOS_ACT_ACT = fget s Fld.TEST_OOS_OOS ||| sweptMask s ∧
      ∀ p : Fin 32, portOos t p = true → PortLow t p)) ∧
  (∀ (s : State) (p : Fin 32) (c1 c2 : Int), AnswersNext (exec (.portAdcCheck p c1 c2) s) fun t => SameMemory s t ∧
    let good := (checkCode s p 0 16383 c1 - 8192).natAbs ≤ fget s Fld.TEST_CHK_CFG_ADCTOL ∧
      (checkCode s p (-8192) 8191 c2).natAbs ≤ fget s Fld.TEST_CHK_CFG_ADCTOL
    (checkMade s p = false → t = s) ∧
    (checkMade s p = true → t.test.adcAt.get p = some s.hk.startAt ∧ ∀ q, q ≠ p → t.test.adcAt.get q = s.test.adcAt.get q) ∧
    (checkMade s p = true → good → t.test.adcRun.get p = 0 ∧ t.test.adcTold.get p = false ∧ fbit t Fld.TEST_ADC_FAIL_FAIL p = false ∧
      SameBits [Fld.TEST_ADC_FAIL_FAIL] s t) ∧
    (checkMade s p = true → ¬ good → t.test.adcRun.get p = s.test.adcRun.get p + 1 ∧ fbit t Fld.TEST_ADC_FAIL_FAIL p = true ∧
      bit t Fld.TEST_EVENT_ADC_FAIL = true ∧
      ((fget s Fld.TEST_CHK_CFG_FAILN = 0 ∨ s.test.adcRun.get p + 1 < fget s Fld.TEST_CHK_CFG_FAILN ∨ s.test.adcTold.get p = true) →
        CorrectedReported s t 0x0103) ∧
      (fget s Fld.TEST_CHK_CFG_FAILN ≠ 0 → fget s Fld.TEST_CHK_CFG_FAILN ≤ s.test.adcRun.get p + 1 → s.test.adcTold.get p = false →
        bit t Fld.FAULT_EVENT_CONT = true ∧ t.test.adcTold.get p = true))) ∧
  (∀ (s : State) (v : Word), AnswersNext (exec (.cmpSweepGo v) s) fun t =>
    let p : Fin 32 := Fin.ofNat 32 (getBits v 0 5)
    SameMemory s t ∧ fget t Fld.TEST_CMP_CTRL_PORT = getBits v 0 5 ∧ fget t Fld.TEST_CMP_CTRL_LEVEL = getBits v 16 10 ∧
    (v.getLsbD 31 = false → t = { s with live := t.live } ∧ SameBits [Fld.TEST_CMP_CTRL_PORT, Fld.TEST_CMP_CTRL_LEVEL] s t) ∧
    (v.getLsbD 31 = true → sweepAccepted s p = true → t.test.sweep = some ⟨p, getBits v 16 10, 0, s.tick + 32, 0, 1023, []⟩ ∧
      bit t Fld.TEST_CMP_STAT_BUSY = true ∧ ∀ c : Fin 4, bit t (Fld.CMP_STATUS_OUT_HI p c) = false ∧ bit t (Fld.CMP_STATUS_OUT_LO p c) = false) ∧
    (v.getLsbD 31 = true → sweepAccepted s p = false → t.test = s.test ∧ bit t Fld.TEST_CMP_STAT_REFUSED = true)) ∧
  (∀ (s : State) (x : Rat), s.test.sweep = none → AnswersNext (exec (.cmpSweepStep x) s) fun t => t = s) ∧
  (∀ (s : State) (x : Rat) (w : SweepSt), s.test.sweep = some w → AnswersNext (exec (.cmpSweepStep x) s) fun t => SameMemory s t ∧
    let over' := w.step % 20 < 10
    let mid := if over' then (w.lo + w.hi) / 2 else (w.lo + w.hi + 1) / 2
    let on := if over' then (mid : Rat) < x else x < (mid : Rat)
    let b : Nat × Nat := if over' then (if on then (mid + 1, w.hi) else (w.lo, mid)) else if on then (w.lo, mid - 1) else (mid, w.hi)
    (s.tick < w.due → t = s) ∧
    (w.due ≤ s.tick → w.step ≠ 79 → t = { s with test := { s.test with sweep := t.test.sweep } } ∧ ∃ y, t.test.sweep = some y ∧
      y.port = w.port ∧ y.level = w.level ∧ y.step = w.step + 1 ∧ y.due = w.due + 32 ∧
      (w.step % 10 = 9 → y.lo = 0 ∧ y.hi = 1023 ∧ y.found = w.found ++ [b.1]) ∧
      (w.step % 10 ≠ 9 → y.lo = b.1 ∧ y.hi = b.2 ∧ y.found = w.found)) ∧
    (w.due ≤ s.tick → w.step = 79 → t.test.sweep = none ∧ bit t Fld.TEST_CMP_STAT_DONE = true ∧ bit t Fld.TEST_CMP_STAT_BUSY = false ∧
      bit t Fld.TEST_CMP_STAT_REFUSED = bit s Fld.TEST_CMP_STAT_REFUSED ∧
      bit t Fld.TEST_EVENT_CMP_DONE = true ∧
      ((w.found ++ [b.1]).all (sweepPass s w.level) = false → CorrectedReported s t 0x0105))) ∧
  (∀ (s : State) (v : Word), AnswersNext (exec (.pwmCaptureGo v) s) fun t => SameMemory s t ∧
    fget t Fld.TEST_PWM_CTRL_PORT = getBits v 0 5 ∧
    (v.getLsbD 31 = true → engineRuns s = true → s.test.capture = none →
      t.test.capture = some ⟨Fin.ofNat 32 (getBits v 0 5), false, 0, [], false⟩ ∧ bit t Fld.TEST_PWM_STAT_BUSY = true) ∧
    ((v.getLsbD 31 = false ∨ engineRuns s = false ∨ s.test.capture ≠ none) → t.test = s.test ∧ SameBits [Fld.TEST_PWM_CTRL_PORT] s t)) ∧
  (∀ (s : State) (l : List EdgeRec), s.test.capture = none → AnswersNext (exec (.pwmCaptureDone l) s) fun t => t = s) ∧
  (∀ (s : State) (l : List EdgeRec) (c : CaptureSt), s.test.capture = some c → captureRan s c = false →
    AnswersNext (exec (.pwmCaptureDone l) s) fun t => t = s) ∧
  ∀ (s : State) (l : List EdgeRec) (c : CaptureSt), s.test.capture = some c → captureRan s c = true →
    AnswersNext (exec (.pwmCaptureDone l) s) fun t =>
      let got := (l.take 16).map fun e => { e with pos := recordedPos e.pos }
      let pass := !c.aborted && capturePasses s got ((expectedEdges s c).take 16)
      SameMemory s t ∧ t.test.capture = none ∧ bit t Fld.TEST_EVENT_PWM_DONE = true ∧ bit t Fld.TEST_PWM_STAT_BUSY = false ∧
      bit t Fld.TEST_PWM_STAT_PASS = pass ∧ bit t Fld.TEST_PWM_STAT_OVF = decide (16 < l.length) ∧
      bit t Fld.TEST_PWM_STAT_ABORTED = c.aborted ∧ fget t Fld.TEST_PWM_STAT_COUNT = min l.length 16 ∧
      (pass = false → c.aborted = false → CorrectedReported s t 0x0106)

/-- R404 and R488 to R493: SRAM_SCRUB_WORD, NVM_SCRUB_WORD, TEST_HARN_WRITE, JTAG_INSTRUCTION, DBG_NONCE_NEW and DBG_UNLOCK. What a refresh shows (log entry 76), what lost keep-alive SRAM loses (log entry 77), reads outside the scrub and bulk staging SRAM (log entry 181), a cut link (log entry 108), a nonce and an unlock in one write (log entry 109) and the debugger's instructions (log entry 185) are the model's. -/
def Obligations.ScrubTapCutAndDebug : Prop :=
  (∀ (s : State) (k : SramKind) (e : EccRead) (n : Nat) (l : Bool), AnswersNext (exec (.sramScrubWord k e n l) s) fun t =>
    let due := bit s Fld.TEST_SCRUB_CFG_SRAM_EN = true ∧ s.test.sramAt ≤ s.tick ∧ (s.test.sramOpen = true ∨
      ∀ k, s.test.sramFrom = some k → k + 1000000 * fget s Fld.TEST_SCRUB_CFG_SPER ≤ s.tick)
    let word := e.addr / 8 * 8
    let off := devState s = .off ∨ devState s = .hibernate
    let mine := (∃ b, k = .keepAliveBatt b) ∨ k = .keepAliveRecorder ∨ k = .keepAliveHarness ∨ k = .keepAliveTime ∨ k = .keepAliveStaging
    (e.scrub = true → ¬ due → t = s) ∧
    (e.scrub = false → t.test.sramAt = s.test.sramAt ∧ t.test.sramOpen = s.test.sramOpen ∧
      fget t Fld.TEST_SCRUB_STAT_SRAM_PASS = fget s Fld.TEST_SCRUB_STAT_SRAM_PASS) ∧
    (e.scrub = true → due → t.test.sramAt = s.tick + 1 ∧ t.test.sramOpen = !l ∧
      t.test.sramFrom = (if s.test.sramOpen then s.test.sramFrom else some s.tick) ∧
      fget t Fld.TEST_SCRUB_STAT_SRAM_PASS = (if l then min (fget s Fld.TEST_SCRUB_STAT_SRAM_PASS + 1) 65535
        else fget s Fld.TEST_SCRUB_STAT_SRAM_PASS)) ∧
    ((e.scrub = false ∨ due) → SameMemory s t ∧
      (n = 0 → SameBits [Fld.TEST_SCRUB_STAT_SRAM_PASS] s t ∧
        (k = .engine → ∀ x, x ∈ t.test.badEng ↔ x ∈ s.test.badEng ∧ ¬ (x.2 = true ∧ x.1 = word))) ∧
      (n = 1 → CorrectedReported s t 0x0B01 ∧ t.test.badEng = s.test.badEng) ∧
      (2 ≤ n → (k = .engine ∨ k = .core) → bit t Fld.FAULT_EVENT_FATAL = true ∧
        (k = .engine → (word, false) ∈ t.test.badEng) ∧ (k = .core → (word, false) ∈ t.test.badCore) ∧
        (stateRuns (devState s) = true → devState t = .safe)) ∧
      (2 ≤ n → (∃ q i, k = .queuePool q i) → CorrectedReported s t 0x0B04) ∧
      (2 ≤ n → mine → ¬ off → (k = .keepAliveRecorder → s.nvmBad = []) → CorrectedReported s t 0x0B05) ∧
      (2 ≤ n → mine → off → k ∈ t.power.kaBad ∧ SameBits [Fld.TEST_SCRUB_STAT_SRAM_PASS] s t) ∧
      (2 ≤ n → k = .bulkStaging → SameBits [Fld.TEST_SCRUB_STAT_SRAM_PASS] s t))) ∧
  (∀ (s : State) (e : EccRead) (n : Nat) (l : Bool), AnswersNext (exec (.nvmScrubWord e n l) s) fun t => SameMemory s t ∧
    (e.scrub = true → (bit s Fld.TEST_SCRUB_CFG_NVM_EN = false ∨ s.tick < s.test.nvmAt) → t = s) ∧
    (e.scrub = true → bit s Fld.TEST_SCRUB_CFG_NVM_EN = true → s.test.nvmAt ≤ s.tick → t.test.nvmAt = s.tick + 10 ∧
      fget t Fld.TEST_SCRUB_STAT_NVM_PASS = (if l then min (fget s Fld.TEST_SCRUB_STAT_NVM_PASS + 1) 65535
        else fget s Fld.TEST_SCRUB_STAT_NVM_PASS)) ∧
    (e.scrub = true → bit s Fld.TEST_SCRUB_CFG_NVM_EN = true → s.test.nvmAt ≤ s.tick → n = 1 → bit s Fld.TEST_SCRUB_CFG_REFRESH = true →
      mayRefresh s (e.addr / 64 * 64) = true → e.addr / 64 * 64 ∈ t.saddle.refreshDue) ∧
    ((e.scrub = false ∨ (bit s Fld.TEST_SCRUB_CFG_NVM_EN = true ∧ s.test.nvmAt ≤ s.tick)) →
      (n = 0 → SameBits [Fld.TEST_SCRUB_STAT_NVM_PASS] s t ∧ t.nvmBad = s.nvmBad) ∧
      (n = 1 → CorrectedReported s t 0x0B06 ∧ t.nvmBad = s.nvmBad) ∧
      (2 ≤ n → CorrectedReported s t 0x0B07 ∧ ∀ w, w ∈ t.nvmBad ↔ w = e.addr / 8 * 8 ∨ w ∈ s.nvmBad))) ∧
  (∀ (s : State) (p : Path) (a : Nat), inRecovery s = false → 0x10000000 ≤ a → a < 0x10400000 →
    nvmFails s (a - 0x10000000) 4 = true → ∃ w u, hostRead p a s = some (w, u) ∧ bit u Fld.FAULT_EVENT_CORR = true ∧
      fbit u Fld.FAULT_CORR_BLK 10 = true ∧ u.free = s.free + 1 ∧ SameMemory s u) ∧
  (∀ (s : State) (v : Word), AnswersNext (exec (.testHarnWrite v) s) fun t => SameMemory s t ∧
    fget t Fld.TEST_HARN_OFF = getBits v 0 3 ∧ ∀ p : HPort, t.harn.cut.get p.idx = v.getLsbD p.idx.val ∧
      (v.getLsbD p.idx.val = true → s.harn.cut.get p.idx = false → linkUp t p = false)) ∧
  (∀ (s : State) (v : Word), AnswersNext (exec (.testHarnWrite v) s) NoCutWaits) ∧
  (∀ (s : State) (i : TapInstr), AnswersNext (exec (.jtagInstruction i) s) fun t =>
    let on := devState s ≠ .off ∧ devState s ≠ .hibernate
    let dbg := (i = .coreHalt ∨ i = .coreRun) ∧ on ∧ bit s Fld.TEST_STATUS_DBG = true
    t = { s with live := t.live, test := { s.test with tap := t.test.tap } } ∧ SameBits [Fld.FAULT_FWD_STAT_FROZEN] s t ∧
    t.test.tap = (if ¬ on then s.test.tap
      else if testInstr i = true ∧ ¬ (devState s = .test ∧ bit s Fld.TEST_JTAG_BSCAN_EN = true) then .bypass
      else if (i = .coreHalt ∨ i = .coreRun) ∧ ¬ dbg then .bypass else i) ∧
    bit t Fld.FAULT_FWD_STAT_FROZEN = (if dbg then decide (i = .coreHalt) else bit s Fld.FAULT_FWD_STAT_FROZEN)) ∧
  (∀ (s : State) (p : Path) (v : Word), hostReady s = true → inRecovery s = false → v.getLsbD 0 = false →
    AnswersNext (exec (.regWrite p (BitVec.ofNat 32 Reg.TEST_JTAG) v) s) fun t => bit t Fld.TEST_JTAG_BSCAN_EN = false ∧
      t.test.tap = (if testInstr s.test.tap then .bypass else s.test.tap) ∧ SameBits [Fld.TEST_JTAG_BSCAN_EN] s t) ∧
  (∀ s : State, AnswersNext (exec .dbgNonceNew s) fun t =>
    bit t Fld.TEST_STATUS_DNONCE = true ∧ t.free = s.free + 1 ∧ t = { s with live := t.live, free := t.free } ∧
    SameRegsOutside (fun a => a == Reg.TEST_STATUS || (List.range 4).any fun k => a == Reg.TEST_DNONCE k) s t) ∧
  ∀ (s u : State) (v : Word), (v.getLsbD 0 = false → u = s) → (v.getLsbD 0 = true → exec .dbgNonceNew s = .next u) →
    AnswersNext (exec (.dbgUnlock v) s) fun t => SameMemory s t ∧ bit t Fld.TEST_STATUS_DNONCE = false ∧
    (unlockAccepted u v = true → bit t Fld.TEST_STATUS_DBG = true ∧ t = { u with live := t.live }) ∧
    (unlockAccepted u v = false → bit t Fld.TEST_STATUS_DBG = bit s Fld.TEST_STATUS_DBG ∧
      t.test.dbgRefusals = s.test.dbgRefusals + 1 ∧ CorrectedReported s t 0x0C06 ∧
      bit t Fld.TEST_STATUS_DLOCKOUT = (bit s Fld.TEST_STATUS_DLOCKOUT || decide (s.test.dbgRefusals = 3)))

/-- The form of sparse data is the model's own; what an unlisted key reads as is the reset value (registers), the erased value (NVM) or 0 (engine memory). -/
def Obligations.ResetIsCanonical : Prop :=
  State.reset.canonical = true ∧ State.reset.pending = []

/-- Every command and the interface tick keep the canonical form of everything that is held sparsely. -/
def Obligations.EveryStepKeepsCanonicalForm : Prop :=
  ∀ s t : State, s.canonical = true → step s = .next t → t.canonical = true

/-- The order first in, first out, and the passage of time on an empty queue, are the model's (log entry 1). -/
def Obligations.CommandsLeaveTheirQueueAndTheClock : Prop :=
  (∀ (c : Instr) (s : State), AnswersNext (exec c s) fun t => t.pending = s.pending ∧ t.tick = s.tick ∧ s.free ≤ t.free) ∧
  (∀ (s t : State) (c : Instr) (l : List Instr), s.pending = c :: l → step s = .next t → t.pending = l ∧ t.tick = s.tick) ∧
  ∀ s t : State, s.pending = [] → step s = .next t → t.pending = [] ∧ t.tick = s.tick + 1
end

