-- ==== Sys2Proof/Laws/State.lean ====
section
/-! SUPPORT. Sys2Proof/Laws/State.lean: what each update of one part of the state leaves as it was and what it sets: one lemma per
update and field, each by unfolding, so that no proof unfolds a record update. -/

-- In the package as one text, proofs elaborated side by side ask for more threads than memory allows.
set_option Elab.async false

namespace Sys2Proof.Machine

variable (s : State)

/-! ### wr -/

@[simp] theorem wr_pending (a : Nat) (v : Word) : (wr s a v).pending = s.pending := rfl
@[simp] theorem wr_tick (a : Nat) (v : Word) : (wr s a v).tick = s.tick := rfl
@[simp] theorem wr_resetTick (a : Nat) (v : Word) : (wr s a v).resetTick = s.resetTick := rfl
@[simp] theorem wr_free (a : Nat) (v : Word) : (wr s a v).free = s.free := rfl
@[simp] theorem wr_live (a : Nat) (v : Word) : (wr s a v).live = storeSet regReset s.live a v := rfl
@[simp] theorem wr_repl (a : Nat) (v : Word) : (wr s a v).repl = s.repl := rfl
@[simp] theorem wr_captures (a : Nat) (v : Word) : (wr s a v).captures = s.captures := rfl
@[simp] theorem wr_engMem (a : Nat) (v : Word) : (wr s a v).engMem = s.engMem := rfl
@[simp] theorem wr_nvm (a : Nat) (v : Word) : (wr s a v).nvm = s.nvm := rfl
@[simp] theorem wr_time (a : Nat) (v : Word) : (wr s a v).time = s.time := rfl
@[simp] theorem wr_sched (a : Nat) (v : Word) : (wr s a v).sched = s.sched := rfl
@[simp] theorem wr_ports (a : Nat) (v : Word) : (wr s a v).ports = s.ports := rfl
@[simp] theorem wr_cmps (a : Nat) (v : Word) : (wr s a v).cmps = s.cmps := rfl
@[simp] theorem wr_loops (a : Nat) (v : Word) : (wr s a v).loops = s.loops := rfl
@[simp] theorem wr_capo (a : Nat) (v : Word) : (wr s a v).capo = s.capo := rfl
@[simp] theorem wr_feeds (a : Nat) (v : Word) : (wr s a v).feeds = s.feeds := rfl
@[simp] theorem wr_seq (a : Nat) (v : Word) : (wr s a v).seq = s.seq := rfl
@[simp] theorem wr_hk (a : Nat) (v : Word) : (wr s a v).hk = s.hk := rfl
@[simp] theorem wr_battEngine (a : Nat) (v : Word) : (wr s a v).battEngine = s.battEngine := rfl
@[simp] theorem wr_batts (a : Nat) (v : Word) : (wr s a v).batts = s.batts := rfl
@[simp] theorem wr_harn (a : Nat) (v : Word) : (wr s a v).harn = s.harn := rfl
@[simp] theorem wr_queues (a : Nat) (v : Word) : (wr s a v).queues = s.queues := rfl
@[simp] theorem wr_host (a : Nat) (v : Word) : (wr s a v).host = s.host := rfl
@[simp] theorem wr_fault (a : Nat) (v : Word) : (wr s a v).fault = s.fault := rfl
@[simp] theorem wr_saddle (a : Nat) (v : Word) : (wr s a v).saddle = s.saddle := rfl
@[simp] theorem wr_trust (a : Nat) (v : Word) : (wr s a v).trust = s.trust := rfl
@[simp] theorem wr_power (a : Nat) (v : Word) : (wr s a v).power = s.power := rfl
@[simp] theorem wr_test (a : Nat) (v : Word) : (wr s a v).test = s.test := rfl

/-! ### engSetByte -/

@[simp] theorem engSetByte_pending (o : Nat) (b : Byte) : (engSetByte s o b).pending = s.pending := rfl
@[simp] theorem engSetByte_tick (o : Nat) (b : Byte) : (engSetByte s o b).tick = s.tick := rfl
@[simp] theorem engSetByte_resetTick (o : Nat) (b : Byte) : (engSetByte s o b).resetTick = s.resetTick := rfl
@[simp] theorem engSetByte_free (o : Nat) (b : Byte) : (engSetByte s o b).free = s.free := rfl
@[simp] theorem engSetByte_live (o : Nat) (b : Byte) : (engSetByte s o b).live = s.live := rfl
@[simp] theorem engSetByte_repl (o : Nat) (b : Byte) : (engSetByte s o b).repl = s.repl := rfl
@[simp] theorem engSetByte_captures (o : Nat) (b : Byte) : (engSetByte s o b).captures = s.captures := rfl
@[simp] theorem engSetByte_engMem (o : Nat) (b : Byte) : (engSetByte s o b).engMem = storeSet engDefault s.engMem o b := rfl
@[simp] theorem engSetByte_nvm (o : Nat) (b : Byte) : (engSetByte s o b).nvm = s.nvm := rfl
@[simp] theorem engSetByte_time (o : Nat) (b : Byte) : (engSetByte s o b).time = s.time := rfl
@[simp] theorem engSetByte_sched (o : Nat) (b : Byte) : (engSetByte s o b).sched = s.sched := rfl
@[simp] theorem engSetByte_ports (o : Nat) (b : Byte) : (engSetByte s o b).ports = s.ports := rfl
@[simp] theorem engSetByte_cmps (o : Nat) (b : Byte) : (engSetByte s o b).cmps = s.cmps := rfl
@[simp] theorem engSetByte_loops (o : Nat) (b : Byte) : (engSetByte s o b).loops = s.loops := rfl
@[simp] theorem engSetByte_capo (o : Nat) (b : Byte) : (engSetByte s o b).capo = s.capo := rfl
@[simp] theorem engSetByte_feeds (o : Nat) (b : Byte) : (engSetByte s o b).feeds = s.feeds := rfl
@[simp] theorem engSetByte_seq (o : Nat) (b : Byte) : (engSetByte s o b).seq = s.seq := rfl
@[simp] theorem engSetByte_hk (o : Nat) (b : Byte) : (engSetByte s o b).hk = s.hk := rfl
@[simp] theorem engSetByte_battEngine (o : Nat) (b : Byte) : (engSetByte s o b).battEngine = s.battEngine := rfl
@[simp] theorem engSetByte_batts (o : Nat) (b : Byte) : (engSetByte s o b).batts = s.batts := rfl
@[simp] theorem engSetByte_harn (o : Nat) (b : Byte) : (engSetByte s o b).harn = s.harn := rfl
@[simp] theorem engSetByte_queues (o : Nat) (b : Byte) : (engSetByte s o b).queues = s.queues := rfl
@[simp] theorem engSetByte_host (o : Nat) (b : Byte) : (engSetByte s o b).host = s.host := rfl
@[simp] theorem engSetByte_fault (o : Nat) (b : Byte) : (engSetByte s o b).fault = s.fault := rfl
@[simp] theorem engSetByte_saddle (o : Nat) (b : Byte) : (engSetByte s o b).saddle = s.saddle := rfl
@[simp] theorem engSetByte_trust (o : Nat) (b : Byte) : (engSetByte s o b).trust = s.trust := rfl
@[simp] theorem engSetByte_power (o : Nat) (b : Byte) : (engSetByte s o b).power = s.power := rfl
@[simp] theorem engSetByte_test (o : Nat) (b : Byte) : (engSetByte s o b).test = s.test := rfl

/-! ### nvmSetByte -/

@[simp] theorem nvmSetByte_pending (o : Nat) (b : Byte) : (nvmSetByte s o b).pending = s.pending := rfl
@[simp] theorem nvmSetByte_tick (o : Nat) (b : Byte) : (nvmSetByte s o b).tick = s.tick := rfl
@[simp] theorem nvmSetByte_resetTick (o : Nat) (b : Byte) : (nvmSetByte s o b).resetTick = s.resetTick := rfl
@[simp] theorem nvmSetByte_free (o : Nat) (b : Byte) : (nvmSetByte s o b).free = s.free := rfl
@[simp] theorem nvmSetByte_live (o : Nat) (b : Byte) : (nvmSetByte s o b).live = s.live := rfl
@[simp] theorem nvmSetByte_repl (o : Nat) (b : Byte) : (nvmSetByte s o b).repl = s.repl := rfl
@[simp] theorem nvmSetByte_captures (o : Nat) (b : Byte) : (nvmSetByte s o b).captures = s.captures := rfl
@[simp] theorem nvmSetByte_engMem (o : Nat) (b : Byte) : (nvmSetByte s o b).engMem = s.engMem := rfl
@[simp] theorem nvmSetByte_nvm (o : Nat) (b : Byte) : (nvmSetByte s o b).nvm = storeSet nvmDefault s.nvm o b := rfl
@[simp] theorem nvmSetByte_time (o : Nat) (b : Byte) : (nvmSetByte s o b).time = s.time := rfl
@[simp] theorem nvmSetByte_sched (o : Nat) (b : Byte) : (nvmSetByte s o b).sched = s.sched := rfl
@[simp] theorem nvmSetByte_ports (o : Nat) (b : Byte) : (nvmSetByte s o b).ports = s.ports := rfl
@[simp] theorem nvmSetByte_cmps (o : Nat) (b : Byte) : (nvmSetByte s o b).cmps = s.cmps := rfl
@[simp] theorem nvmSetByte_loops (o : Nat) (b : Byte) : (nvmSetByte s o b).loops = s.loops := rfl
@[simp] theorem nvmSetByte_capo (o : Nat) (b : Byte) : (nvmSetByte s o b).capo = s.capo := rfl
@[simp] theorem nvmSetByte_feeds (o : Nat) (b : Byte) : (nvmSetByte s o b).feeds = s.feeds := rfl
@[simp] theorem nvmSetByte_seq (o : Nat) (b : Byte) : (nvmSetByte s o b).seq = s.seq := rfl
@[simp] theorem nvmSetByte_hk (o : Nat) (b : Byte) : (nvmSetByte s o b).hk = s.hk := rfl
@[simp] theorem nvmSetByte_battEngine (o : Nat) (b : Byte) : (nvmSetByte s o b).battEngine = s.battEngine := rfl
@[simp] theorem nvmSetByte_batts (o : Nat) (b : Byte) : (nvmSetByte s o b).batts = s.batts := rfl
@[simp] theorem nvmSetByte_harn (o : Nat) (b : Byte) : (nvmSetByte s o b).harn = s.harn := rfl
@[simp] theorem nvmSetByte_queues (o : Nat) (b : Byte) : (nvmSetByte s o b).queues = s.queues := rfl
@[simp] theorem nvmSetByte_host (o : Nat) (b : Byte) : (nvmSetByte s o b).host = s.host := rfl
@[simp] theorem nvmSetByte_fault (o : Nat) (b : Byte) : (nvmSetByte s o b).fault = s.fault := rfl
@[simp] theorem nvmSetByte_saddle (o : Nat) (b : Byte) : (nvmSetByte s o b).saddle = s.saddle := rfl
@[simp] theorem nvmSetByte_trust (o : Nat) (b : Byte) : (nvmSetByte s o b).trust = s.trust := rfl
@[simp] theorem nvmSetByte_power (o : Nat) (b : Byte) : (nvmSetByte s o b).power = s.power := rfl
@[simp] theorem nvmSetByte_test (o : Nat) (b : Byte) : (nvmSetByte s o b).test = s.test := rfl

/-! ### fput -/

@[simp] theorem fput_pending (f : Field) (v : Nat) : (fput s f v).pending = s.pending := rfl
@[simp] theorem fput_tick (f : Field) (v : Nat) : (fput s f v).tick = s.tick := rfl
@[simp] theorem fput_resetTick (f : Field) (v : Nat) : (fput s f v).resetTick = s.resetTick := rfl
@[simp] theorem fput_free (f : Field) (v : Nat) : (fput s f v).free = s.free := rfl
@[simp] theorem fput_repl (f : Field) (v : Nat) : (fput s f v).repl = s.repl := rfl
@[simp] theorem fput_captures (f : Field) (v : Nat) : (fput s f v).captures = s.captures := rfl
@[simp] theorem fput_engMem (f : Field) (v : Nat) : (fput s f v).engMem = s.engMem := rfl
@[simp] theorem fput_nvm (f : Field) (v : Nat) : (fput s f v).nvm = s.nvm := rfl
@[simp] theorem fput_time (f : Field) (v : Nat) : (fput s f v).time = s.time := rfl
@[simp] theorem fput_sched (f : Field) (v : Nat) : (fput s f v).sched = s.sched := rfl
@[simp] theorem fput_ports (f : Field) (v : Nat) : (fput s f v).ports = s.ports := rfl
@[simp] theorem fput_cmps (f : Field) (v : Nat) : (fput s f v).cmps = s.cmps := rfl
@[simp] theorem fput_loops (f : Field) (v : Nat) : (fput s f v).loops = s.loops := rfl
@[simp] theorem fput_capo (f : Field) (v : Nat) : (fput s f v).capo = s.capo := rfl
@[simp] theorem fput_feeds (f : Field) (v : Nat) : (fput s f v).feeds = s.feeds := rfl
@[simp] theorem fput_seq (f : Field) (v : Nat) : (fput s f v).seq = s.seq := rfl
@[simp] theorem fput_hk (f : Field) (v : Nat) : (fput s f v).hk = s.hk := rfl
@[simp] theorem fput_battEngine (f : Field) (v : Nat) : (fput s f v).battEngine = s.battEngine := rfl
@[simp] theorem fput_batts (f : Field) (v : Nat) : (fput s f v).batts = s.batts := rfl
@[simp] theorem fput_harn (f : Field) (v : Nat) : (fput s f v).harn = s.harn := rfl
@[simp] theorem fput_queues (f : Field) (v : Nat) : (fput s f v).queues = s.queues := rfl
@[simp] theorem fput_host (f : Field) (v : Nat) : (fput s f v).host = s.host := rfl
@[simp] theorem fput_fault (f : Field) (v : Nat) : (fput s f v).fault = s.fault := rfl
@[simp] theorem fput_saddle (f : Field) (v : Nat) : (fput s f v).saddle = s.saddle := rfl
@[simp] theorem fput_trust (f : Field) (v : Nat) : (fput s f v).trust = s.trust := rfl
@[simp] theorem fput_power (f : Field) (v : Nat) : (fput s f v).power = s.power := rfl
@[simp] theorem fput_test (f : Field) (v : Nat) : (fput s f v).test = s.test := rfl

/-! ### fputS -/

@[simp] theorem fputS_pending (f : Field) (v : Int) : (fputS s f v).pending = s.pending := rfl
@[simp] theorem fputS_tick (f : Field) (v : Int) : (fputS s f v).tick = s.tick := rfl
@[simp] theorem fputS_resetTick (f : Field) (v : Int) : (fputS s f v).resetTick = s.resetTick := rfl
@[simp] theorem fputS_free (f : Field) (v : Int) : (fputS s f v).free = s.free := rfl
@[simp] theorem fputS_repl (f : Field) (v : Int) : (fputS s f v).repl = s.repl := rfl
@[simp] theorem fputS_captures (f : Field) (v : Int) : (fputS s f v).captures = s.captures := rfl
@[simp] theorem fputS_engMem (f : Field) (v : Int) : (fputS s f v).engMem = s.engMem := rfl
@[simp] theorem fputS_nvm (f : Field) (v : Int) : (fputS s f v).nvm = s.nvm := rfl
@[simp] theorem fputS_time (f : Field) (v : Int) : (fputS s f v).time = s.time := rfl
@[simp] theorem fputS_sched (f : Field) (v : Int) : (fputS s f v).sched = s.sched := rfl
@[simp] theorem fputS_ports (f : Field) (v : Int) : (fputS s f v).ports = s.ports := rfl
@[simp] theorem fputS_cmps (f : Field) (v : Int) : (fputS s f v).cmps = s.cmps := rfl
@[simp] theorem fputS_loops (f : Field) (v : Int) : (fputS s f v).loops = s.loops := rfl
@[simp] theorem fputS_capo (f : Field) (v : Int) : (fputS s f v).capo = s.capo := rfl
@[simp] theorem fputS_feeds (f : Field) (v : Int) : (fputS s f v).feeds = s.feeds := rfl
@[simp] theorem fputS_seq (f : Field) (v : Int) : (fputS s f v).seq = s.seq := rfl
@[simp] theorem fputS_hk (f : Field) (v : Int) : (fputS s f v).hk = s.hk := rfl
@[simp] theorem fputS_battEngine (f : Field) (v : Int) : (fputS s f v).battEngine = s.battEngine := rfl
@[simp] theorem fputS_batts (f : Field) (v : Int) : (fputS s f v).batts = s.batts := rfl
@[simp] theorem fputS_harn (f : Field) (v : Int) : (fputS s f v).harn = s.harn := rfl
@[simp] theorem fputS_queues (f : Field) (v : Int) : (fputS s f v).queues = s.queues := rfl
@[simp] theorem fputS_host (f : Field) (v : Int) : (fputS s f v).host = s.host := rfl
@[simp] theorem fputS_fault (f : Field) (v : Int) : (fputS s f v).fault = s.fault := rfl
@[simp] theorem fputS_saddle (f : Field) (v : Int) : (fputS s f v).saddle = s.saddle := rfl
@[simp] theorem fputS_trust (f : Field) (v : Int) : (fputS s f v).trust = s.trust := rfl
@[simp] theorem fputS_power (f : Field) (v : Int) : (fputS s f v).power = s.power := rfl
@[simp] theorem fputS_test (f : Field) (v : Int) : (fputS s f v).test = s.test := rfl

/-! ### fputB -/

@[simp] theorem fputB_pending (f : Field) (b : Bool) : (fputB s f b).pending = s.pending := rfl
@[simp] theorem fputB_tick (f : Field) (b : Bool) : (fputB s f b).tick = s.tick := rfl
@[simp] theorem fputB_resetTick (f : Field) (b : Bool) : (fputB s f b).resetTick = s.resetTick := rfl
@[simp] theorem fputB_free (f : Field) (b : Bool) : (fputB s f b).free = s.free := rfl
@[simp] theorem fputB_repl (f : Field) (b : Bool) : (fputB s f b).repl = s.repl := rfl
@[simp] theorem fputB_captures (f : Field) (b : Bool) : (fputB s f b).captures = s.captures := rfl
@[simp] theorem fputB_engMem (f : Field) (b : Bool) : (fputB s f b).engMem = s.engMem := rfl
@[simp] theorem fputB_nvm (f : Field) (b : Bool) : (fputB s f b).nvm = s.nvm := rfl
@[simp] theorem fputB_time (f : Field) (b : Bool) : (fputB s f b).time = s.time := rfl
@[simp] theorem fputB_sched (f : Field) (b : Bool) : (fputB s f b).sched = s.sched := rfl
@[simp] theorem fputB_ports (f : Field) (b : Bool) : (fputB s f b).ports = s.ports := rfl
@[simp] theorem fputB_cmps (f : Field) (b : Bool) : (fputB s f b).cmps = s.cmps := rfl
@[simp] theorem fputB_loops (f : Field) (b : Bool) : (fputB s f b).loops = s.loops := rfl
@[simp] theorem fputB_capo (f : Field) (b : Bool) : (fputB s f b).capo = s.capo := rfl
@[simp] theorem fputB_feeds (f : Field) (b : Bool) : (fputB s f b).feeds = s.feeds := rfl
@[simp] theorem fputB_seq (f : Field) (b : Bool) : (fputB s f b).seq = s.seq := rfl
@[simp] theorem fputB_hk (f : Field) (b : Bool) : (fputB s f b).hk = s.hk := rfl
@[simp] theorem fputB_battEngine (f : Field) (b : Bool) : (fputB s f b).battEngine = s.battEngine := rfl
@[simp] theorem fputB_batts (f : Field) (b : Bool) : (fputB s f b).batts = s.batts := rfl
@[simp] theorem fputB_harn (f : Field) (b : Bool) : (fputB s f b).harn = s.harn := rfl
@[simp] theorem fputB_queues (f : Field) (b : Bool) : (fputB s f b).queues = s.queues := rfl
@[simp] theorem fputB_host (f : Field) (b : Bool) : (fputB s f b).host = s.host := rfl
@[simp] theorem fputB_fault (f : Field) (b : Bool) : (fputB s f b).fault = s.fault := rfl
@[simp] theorem fputB_saddle (f : Field) (b : Bool) : (fputB s f b).saddle = s.saddle := rfl
@[simp] theorem fputB_trust (f : Field) (b : Bool) : (fputB s f b).trust = s.trust := rfl
@[simp] theorem fputB_power (f : Field) (b : Bool) : (fputB s f b).power = s.power := rfl
@[simp] theorem fputB_test (f : Field) (b : Bool) : (fputB s f b).test = s.test := rfl

/-! ### raise -/

@[simp] theorem raise_pending (f : Field) : (raise s f).pending = s.pending := rfl
@[simp] theorem raise_tick (f : Field) : (raise s f).tick = s.tick := rfl
@[simp] theorem raise_resetTick (f : Field) : (raise s f).resetTick = s.resetTick := rfl
@[simp] theorem raise_free (f : Field) : (raise s f).free = s.free := rfl
@[simp] theorem raise_repl (f : Field) : (raise s f).repl = s.repl := rfl
@[simp] theorem raise_captures (f : Field) : (raise s f).captures = s.captures := rfl
@[simp] theorem raise_engMem (f : Field) : (raise s f).engMem = s.engMem := rfl
@[simp] theorem raise_nvm (f : Field) : (raise s f).nvm = s.nvm := rfl
@[simp] theorem raise_time (f : Field) : (raise s f).time = s.time := rfl
@[simp] theorem raise_sched (f : Field) : (raise s f).sched = s.sched := rfl
@[simp] theorem raise_ports (f : Field) : (raise s f).ports = s.ports := rfl
@[simp] theorem raise_cmps (f : Field) : (raise s f).cmps = s.cmps := rfl
@[simp] theorem raise_loops (f : Field) : (raise s f).loops = s.loops := rfl
@[simp] theorem raise_capo (f : Field) : (raise s f).capo = s.capo := rfl
@[simp] theorem raise_feeds (f : Field) : (raise s f).feeds = s.feeds := rfl
@[simp] theorem raise_seq (f : Field) : (raise s f).seq = s.seq := rfl
@[simp] theorem raise_hk (f : Field) : (raise s f).hk = s.hk := rfl
@[simp] theorem raise_battEngine (f : Field) : (raise s f).battEngine = s.battEngine := rfl
@[simp] theorem raise_batts (f : Field) : (raise s f).batts = s.batts := rfl
@[simp] theorem raise_harn (f : Field) : (raise s f).harn = s.harn := rfl
@[simp] theorem raise_queues (f : Field) : (raise s f).queues = s.queues := rfl
@[simp] theorem raise_host (f : Field) : (raise s f).host = s.host := rfl
@[simp] theorem raise_fault (f : Field) : (raise s f).fault = s.fault := rfl
@[simp] theorem raise_saddle (f : Field) : (raise s f).saddle = s.saddle := rfl
@[simp] theorem raise_trust (f : Field) : (raise s f).trust = s.trust := rfl
@[simp] theorem raise_power (f : Field) : (raise s f).power = s.power := rfl
@[simp] theorem raise_test (f : Field) : (raise s f).test = s.test := rfl

/-! ### inc -/

@[simp] theorem inc_pending (f : Field) : (inc s f).pending = s.pending := rfl
@[simp] theorem inc_tick (f : Field) : (inc s f).tick = s.tick := rfl
@[simp] theorem inc_resetTick (f : Field) : (inc s f).resetTick = s.resetTick := rfl
@[simp] theorem inc_free (f : Field) : (inc s f).free = s.free := rfl
@[simp] theorem inc_repl (f : Field) : (inc s f).repl = s.repl := rfl
@[simp] theorem inc_captures (f : Field) : (inc s f).captures = s.captures := rfl
@[simp] theorem inc_engMem (f : Field) : (inc s f).engMem = s.engMem := rfl
@[simp] theorem inc_nvm (f : Field) : (inc s f).nvm = s.nvm := rfl
@[simp] theorem inc_time (f : Field) : (inc s f).time = s.time := rfl
@[simp] theorem inc_sched (f : Field) : (inc s f).sched = s.sched := rfl
@[simp] theorem inc_ports (f : Field) : (inc s f).ports = s.ports := rfl
@[simp] theorem inc_cmps (f : Field) : (inc s f).cmps = s.cmps := rfl
@[simp] theorem inc_loops (f : Field) : (inc s f).loops = s.loops := rfl
@[simp] theorem inc_capo (f : Field) : (inc s f).capo = s.capo := rfl
@[simp] theorem inc_feeds (f : Field) : (inc s f).feeds = s.feeds := rfl
@[simp] theorem inc_seq (f : Field) : (inc s f).seq = s.seq := rfl
@[simp] theorem inc_hk (f : Field) : (inc s f).hk = s.hk := rfl
@[simp] theorem inc_battEngine (f : Field) : (inc s f).battEngine = s.battEngine := rfl
@[simp] theorem inc_batts (f : Field) : (inc s f).batts = s.batts := rfl
@[simp] theorem inc_harn (f : Field) : (inc s f).harn = s.harn := rfl
@[simp] theorem inc_queues (f : Field) : (inc s f).queues = s.queues := rfl
@[simp] theorem inc_host (f : Field) : (inc s f).host = s.host := rfl
@[simp] theorem inc_fault (f : Field) : (inc s f).fault = s.fault := rfl
@[simp] theorem inc_saddle (f : Field) : (inc s f).saddle = s.saddle := rfl
@[simp] theorem inc_trust (f : Field) : (inc s f).trust = s.trust := rfl
@[simp] theorem inc_power (f : Field) : (inc s f).power = s.power := rfl
@[simp] theorem inc_test (f : Field) : (inc s f).test = s.test := rfl

/-! ### fputBit -/

@[simp] theorem fputBit_pending (f : Field) (n : Nat) (b : Bool) : (fputBit s f n b).pending = s.pending := rfl
@[simp] theorem fputBit_tick (f : Field) (n : Nat) (b : Bool) : (fputBit s f n b).tick = s.tick := rfl
@[simp] theorem fputBit_resetTick (f : Field) (n : Nat) (b : Bool) : (fputBit s f n b).resetTick = s.resetTick := rfl
@[simp] theorem fputBit_free (f : Field) (n : Nat) (b : Bool) : (fputBit s f n b).free = s.free := rfl
@[simp] theorem fputBit_repl (f : Field) (n : Nat) (b : Bool) : (fputBit s f n b).repl = s.repl := rfl
@[simp] theorem fputBit_captures (f : Field) (n : Nat) (b : Bool) : (fputBit s f n b).captures = s.captures := rfl
@[simp] theorem fputBit_engMem (f : Field) (n : Nat) (b : Bool) : (fputBit s f n b).engMem = s.engMem := rfl
@[simp] theorem fputBit_nvm (f : Field) (n : Nat) (b : Bool) : (fputBit s f n b).nvm = s.nvm := rfl
@[simp] theorem fputBit_time (f : Field) (n : Nat) (b : Bool) : (fputBit s f n b).time = s.time := rfl
@[simp] theorem fputBit_sched (f : Field) (n : Nat) (b : Bool) : (fputBit s f n b).sched = s.sched := rfl
@[simp] theorem fputBit_ports (f : Field) (n : Nat) (b : Bool) : (fputBit s f n b).ports = s.ports := rfl
@[simp] theorem fputBit_cmps (f : Field) (n : Nat) (b : Bool) : (fputBit s f n b).cmps = s.cmps := rfl
@[simp] theorem fputBit_loops (f : Field) (n : Nat) (b : Bool) : (fputBit s f n b).loops = s.loops := rfl
@[simp] theorem fputBit_capo (f : Field) (n : Nat) (b : Bool) : (fputBit s f n b).capo = s.capo := rfl
@[simp] theorem fputBit_feeds (f : Field) (n : Nat) (b : Bool) : (fputBit s f n b).feeds = s.feeds := rfl
@[simp] theorem fputBit_seq (f : Field) (n : Nat) (b : Bool) : (fputBit s f n b).seq = s.seq := rfl
@[simp] theorem fputBit_hk (f : Field) (n : Nat) (b : Bool) : (fputBit s f n b).hk = s.hk := rfl
@[simp] theorem fputBit_battEngine (f : Field) (n : Nat) (b : Bool) : (fputBit s f n b).battEngine = s.battEngine := rfl
@[simp] theorem fputBit_batts (f : Field) (n : Nat) (b : Bool) : (fputBit s f n b).batts = s.batts := rfl
@[simp] theorem fputBit_harn (f : Field) (n : Nat) (b : Bool) : (fputBit s f n b).harn = s.harn := rfl
@[simp] theorem fputBit_queues (f : Field) (n : Nat) (b : Bool) : (fputBit s f n b).queues = s.queues := rfl
@[simp] theorem fputBit_host (f : Field) (n : Nat) (b : Bool) : (fputBit s f n b).host = s.host := rfl
@[simp] theorem fputBit_fault (f : Field) (n : Nat) (b : Bool) : (fputBit s f n b).fault = s.fault := rfl
@[simp] theorem fputBit_saddle (f : Field) (n : Nat) (b : Bool) : (fputBit s f n b).saddle = s.saddle := rfl
@[simp] theorem fputBit_trust (f : Field) (n : Nat) (b : Bool) : (fputBit s f n b).trust = s.trust := rfl
@[simp] theorem fputBit_power (f : Field) (n : Nat) (b : Bool) : (fputBit s f n b).power = s.power := rfl
@[simp] theorem fputBit_test (f : Field) (n : Nat) (b : Bool) : (fputBit s f n b).test = s.test := rfl

/-! ### setDev -/

@[simp] theorem setDev_pending (d : DevState) : (setDev s d).pending = s.pending := rfl
@[simp] theorem setDev_tick (d : DevState) : (setDev s d).tick = s.tick := rfl
@[simp] theorem setDev_resetTick (d : DevState) : (setDev s d).resetTick = s.resetTick := rfl
@[simp] theorem setDev_free (d : DevState) : (setDev s d).free = s.free := rfl
@[simp] theorem setDev_repl (d : DevState) : (setDev s d).repl = s.repl := rfl
@[simp] theorem setDev_captures (d : DevState) : (setDev s d).captures = s.captures := rfl
@[simp] theorem setDev_engMem (d : DevState) : (setDev s d).engMem = s.engMem := rfl
@[simp] theorem setDev_nvm (d : DevState) : (setDev s d).nvm = s.nvm := rfl
@[simp] theorem setDev_time (d : DevState) : (setDev s d).time = s.time := rfl
@[simp] theorem setDev_sched (d : DevState) : (setDev s d).sched = s.sched := rfl
@[simp] theorem setDev_ports (d : DevState) : (setDev s d).ports = s.ports := rfl
@[simp] theorem setDev_cmps (d : DevState) : (setDev s d).cmps = s.cmps := rfl
@[simp] theorem setDev_loops (d : DevState) : (setDev s d).loops = s.loops := rfl
@[simp] theorem setDev_capo (d : DevState) : (setDev s d).capo = s.capo := rfl
@[simp] theorem setDev_feeds (d : DevState) : (setDev s d).feeds = s.feeds := rfl
@[simp] theorem setDev_seq (d : DevState) : (setDev s d).seq = s.seq := rfl
@[simp] theorem setDev_hk (d : DevState) : (setDev s d).hk = s.hk := rfl
@[simp] theorem setDev_battEngine (d : DevState) : (setDev s d).battEngine = s.battEngine := rfl
@[simp] theorem setDev_batts (d : DevState) : (setDev s d).batts = s.batts := rfl
@[simp] theorem setDev_harn (d : DevState) : (setDev s d).harn = s.harn := rfl
@[simp] theorem setDev_queues (d : DevState) : (setDev s d).queues = s.queues := rfl
@[simp] theorem setDev_host (d : DevState) : (setDev s d).host = s.host := rfl
@[simp] theorem setDev_fault (d : DevState) : (setDev s d).fault = s.fault := rfl
@[simp] theorem setDev_saddle (d : DevState) : (setDev s d).saddle = s.saddle := rfl
@[simp] theorem setDev_trust (d : DevState) : (setDev s d).trust = s.trust := rfl
@[simp] theorem setDev_power (d : DevState) : (setDev s d).power = s.power := rfl
@[simp] theorem setDev_test (d : DevState) : (setDev s d).test = s.test := rfl

/-! ### wr64 -/

@[simp] theorem wr64_pending (lo hi v : Nat) : (wr64 s lo hi v).pending = s.pending := rfl
@[simp] theorem wr64_tick (lo hi v : Nat) : (wr64 s lo hi v).tick = s.tick := rfl
@[simp] theorem wr64_resetTick (lo hi v : Nat) : (wr64 s lo hi v).resetTick = s.resetTick := rfl
@[simp] theorem wr64_free (lo hi v : Nat) : (wr64 s lo hi v).free = s.free := rfl
@[simp] theorem wr64_repl (lo hi v : Nat) : (wr64 s lo hi v).repl = s.repl := rfl
@[simp] theorem wr64_captures (lo hi v : Nat) : (wr64 s lo hi v).captures = s.captures := rfl
@[simp] theorem wr64_engMem (lo hi v : Nat) : (wr64 s lo hi v).engMem = s.engMem := rfl
@[simp] theorem wr64_nvm (lo hi v : Nat) : (wr64 s lo hi v).nvm = s.nvm := rfl
@[simp] theorem wr64_time (lo hi v : Nat) : (wr64 s lo hi v).time = s.time := rfl
@[simp] theorem wr64_sched (lo hi v : Nat) : (wr64 s lo hi v).sched = s.sched := rfl
@[simp] theorem wr64_ports (lo hi v : Nat) : (wr64 s lo hi v).ports = s.ports := rfl
@[simp] theorem wr64_cmps (lo hi v : Nat) : (wr64 s lo hi v).cmps = s.cmps := rfl
@[simp] theorem wr64_loops (lo hi v : Nat) : (wr64 s lo hi v).loops = s.loops := rfl
@[simp] theorem wr64_capo (lo hi v : Nat) : (wr64 s lo hi v).capo = s.capo := rfl
@[simp] theorem wr64_feeds (lo hi v : Nat) : (wr64 s lo hi v).feeds = s.feeds := rfl
@[simp] theorem wr64_seq (lo hi v : Nat) : (wr64 s lo hi v).seq = s.seq := rfl
@[simp] theorem wr64_hk (lo hi v : Nat) : (wr64 s lo hi v).hk = s.hk := rfl
@[simp] theorem wr64_battEngine (lo hi v : Nat) : (wr64 s lo hi v).battEngine = s.battEngine := rfl
@[simp] theorem wr64_batts (lo hi v : Nat) : (wr64 s lo hi v).batts = s.batts := rfl
@[simp] theorem wr64_harn (lo hi v : Nat) : (wr64 s lo hi v).harn = s.harn := rfl
@[simp] theorem wr64_queues (lo hi v : Nat) : (wr64 s lo hi v).queues = s.queues := rfl
@[simp] theorem wr64_host (lo hi v : Nat) : (wr64 s lo hi v).host = s.host := rfl
@[simp] theorem wr64_fault (lo hi v : Nat) : (wr64 s lo hi v).fault = s.fault := rfl
@[simp] theorem wr64_saddle (lo hi v : Nat) : (wr64 s lo hi v).saddle = s.saddle := rfl
@[simp] theorem wr64_trust (lo hi v : Nat) : (wr64 s lo hi v).trust = s.trust := rfl
@[simp] theorem wr64_power (lo hi v : Nat) : (wr64 s lo hi v).power = s.power := rfl
@[simp] theorem wr64_test (lo hi v : Nat) : (wr64 s lo hi v).test = s.test := rfl

/-! ### setBatt -/

@[simp] theorem setBatt_pending (b : Fin 2) (f : BattSt → BattSt) : (setBatt s b f).pending = s.pending := rfl
@[simp] theorem setBatt_tick (b : Fin 2) (f : BattSt → BattSt) : (setBatt s b f).tick = s.tick := rfl
@[simp] theorem setBatt_resetTick (b : Fin 2) (f : BattSt → BattSt) : (setBatt s b f).resetTick = s.resetTick := rfl
@[simp] theorem setBatt_free (b : Fin 2) (f : BattSt → BattSt) : (setBatt s b f).free = s.free := rfl
@[simp] theorem setBatt_live (b : Fin 2) (f : BattSt → BattSt) : (setBatt s b f).live = s.live := rfl
@[simp] theorem setBatt_repl (b : Fin 2) (f : BattSt → BattSt) : (setBatt s b f).repl = s.repl := rfl
@[simp] theorem setBatt_captures (b : Fin 2) (f : BattSt → BattSt) : (setBatt s b f).captures = s.captures := rfl
@[simp] theorem setBatt_engMem (b : Fin 2) (f : BattSt → BattSt) : (setBatt s b f).engMem = s.engMem := rfl
@[simp] theorem setBatt_nvm (b : Fin 2) (f : BattSt → BattSt) : (setBatt s b f).nvm = s.nvm := rfl
@[simp] theorem setBatt_time (b : Fin 2) (f : BattSt → BattSt) : (setBatt s b f).time = s.time := rfl
@[simp] theorem setBatt_sched (b : Fin 2) (f : BattSt → BattSt) : (setBatt s b f).sched = s.sched := rfl
@[simp] theorem setBatt_ports (b : Fin 2) (f : BattSt → BattSt) : (setBatt s b f).ports = s.ports := rfl
@[simp] theorem setBatt_cmps (b : Fin 2) (f : BattSt → BattSt) : (setBatt s b f).cmps = s.cmps := rfl
@[simp] theorem setBatt_loops (b : Fin 2) (f : BattSt → BattSt) : (setBatt s b f).loops = s.loops := rfl
@[simp] theorem setBatt_capo (b : Fin 2) (f : BattSt → BattSt) : (setBatt s b f).capo = s.capo := rfl
@[simp] theorem setBatt_feeds (b : Fin 2) (f : BattSt → BattSt) : (setBatt s b f).feeds = s.feeds := rfl
@[simp] theorem setBatt_seq (b : Fin 2) (f : BattSt → BattSt) : (setBatt s b f).seq = s.seq := rfl
@[simp] theorem setBatt_hk (b : Fin 2) (f : BattSt → BattSt) : (setBatt s b f).hk = s.hk := rfl
@[simp] theorem setBatt_battEngine (b : Fin 2) (f : BattSt → BattSt) : (setBatt s b f).battEngine = s.battEngine := rfl
@[simp] theorem setBatt_batts (b : Fin 2) (f : BattSt → BattSt) : (setBatt s b f).batts = upd s.batts b f := rfl
@[simp] theorem setBatt_harn (b : Fin 2) (f : BattSt → BattSt) : (setBatt s b f).harn = s.harn := rfl
@[simp] theorem setBatt_queues (b : Fin 2) (f : BattSt → BattSt) : (setBatt s b f).queues = s.queues := rfl
@[simp] theorem setBatt_host (b : Fin 2) (f : BattSt → BattSt) : (setBatt s b f).host = s.host := rfl
@[simp] theorem setBatt_fault (b : Fin 2) (f : BattSt → BattSt) : (setBatt s b f).fault = s.fault := rfl
@[simp] theorem setBatt_saddle (b : Fin 2) (f : BattSt → BattSt) : (setBatt s b f).saddle = s.saddle := rfl
@[simp] theorem setBatt_trust (b : Fin 2) (f : BattSt → BattSt) : (setBatt s b f).trust = s.trust := rfl
@[simp] theorem setBatt_power (b : Fin 2) (f : BattSt → BattSt) : (setBatt s b f).power = s.power := rfl
@[simp] theorem setBatt_test (b : Fin 2) (f : BattSt → BattSt) : (setBatt s b f).test = s.test := rfl

/-! ### setCapo -/

@[simp] theorem setCapo_pending (f : CapoSt → CapoSt) : (setCapo s f).pending = s.pending := rfl
@[simp] theorem setCapo_tick (f : CapoSt → CapoSt) : (setCapo s f).tick = s.tick := rfl
@[simp] theorem setCapo_resetTick (f : CapoSt → CapoSt) : (setCapo s f).resetTick = s.resetTick := rfl
@[simp] theorem setCapo_free (f : CapoSt → CapoSt) : (setCapo s f).free = s.free := rfl
@[simp] theorem setCapo_live (f : CapoSt → CapoSt) : (setCapo s f).live = s.live := rfl
@[simp] theorem setCapo_repl (f : CapoSt → CapoSt) : (setCapo s f).repl = s.repl := rfl
@[simp] theorem setCapo_captures (f : CapoSt → CapoSt) : (setCapo s f).captures = s.captures := rfl
@[simp] theorem setCapo_engMem (f : CapoSt → CapoSt) : (setCapo s f).engMem = s.engMem := rfl
@[simp] theorem setCapo_nvm (f : CapoSt → CapoSt) : (setCapo s f).nvm = s.nvm := rfl
@[simp] theorem setCapo_time (f : CapoSt → CapoSt) : (setCapo s f).time = s.time := rfl
@[simp] theorem setCapo_sched (f : CapoSt → CapoSt) : (setCapo s f).sched = s.sched := rfl
@[simp] theorem setCapo_ports (f : CapoSt → CapoSt) : (setCapo s f).ports = s.ports := rfl
@[simp] theorem setCapo_cmps (f : CapoSt → CapoSt) : (setCapo s f).cmps = s.cmps := rfl
@[simp] theorem setCapo_loops (f : CapoSt → CapoSt) : (setCapo s f).loops = s.loops := rfl
@[simp] theorem setCapo_capo (f : CapoSt → CapoSt) : (setCapo s f).capo = f s.capo := rfl
@[simp] theorem setCapo_feeds (f : CapoSt → CapoSt) : (setCapo s f).feeds = s.feeds := rfl
@[simp] theorem setCapo_seq (f : CapoSt → CapoSt) : (setCapo s f).seq = s.seq := rfl
@[simp] theorem setCapo_hk (f : CapoSt → CapoSt) : (setCapo s f).hk = s.hk := rfl
@[simp] theorem setCapo_battEngine (f : CapoSt → CapoSt) : (setCapo s f).battEngine = s.battEngine := rfl
@[simp] theorem setCapo_batts (f : CapoSt → CapoSt) : (setCapo s f).batts = s.batts := rfl
@[simp] theorem setCapo_harn (f : CapoSt → CapoSt) : (setCapo s f).harn = s.harn := rfl
@[simp] theorem setCapo_queues (f : CapoSt → CapoSt) : (setCapo s f).queues = s.queues := rfl
@[simp] theorem setCapo_host (f : CapoSt → CapoSt) : (setCapo s f).host = s.host := rfl
@[simp] theorem setCapo_fault (f : CapoSt → CapoSt) : (setCapo s f).fault = s.fault := rfl
@[simp] theorem setCapo_saddle (f : CapoSt → CapoSt) : (setCapo s f).saddle = s.saddle := rfl
@[simp] theorem setCapo_trust (f : CapoSt → CapoSt) : (setCapo s f).trust = s.trust := rfl
@[simp] theorem setCapo_power (f : CapoSt → CapoSt) : (setCapo s f).power = s.power := rfl
@[simp] theorem setCapo_test (f : CapoSt → CapoSt) : (setCapo s f).test = s.test := rfl

/-! ### setCmp -/

@[simp] theorem setCmp_pending (p : Fin 32) (c : Fin 4) (f : CmpSt → CmpSt) : (setCmp s p c f).pending = s.pending := rfl
@[simp] theorem setCmp_tick (p : Fin 32) (c : Fin 4) (f : CmpSt → CmpSt) : (setCmp s p c f).tick = s.tick := rfl
@[simp] theorem setCmp_resetTick (p : Fin 32) (c : Fin 4) (f : CmpSt → CmpSt) : (setCmp s p c f).resetTick = s.resetTick := rfl
@[simp] theorem setCmp_free (p : Fin 32) (c : Fin 4) (f : CmpSt → CmpSt) : (setCmp s p c f).free = s.free := rfl
@[simp] theorem setCmp_live (p : Fin 32) (c : Fin 4) (f : CmpSt → CmpSt) : (setCmp s p c f).live = s.live := rfl
@[simp] theorem setCmp_repl (p : Fin 32) (c : Fin 4) (f : CmpSt → CmpSt) : (setCmp s p c f).repl = s.repl := rfl
@[simp] theorem setCmp_captures (p : Fin 32) (c : Fin 4) (f : CmpSt → CmpSt) : (setCmp s p c f).captures = s.captures := rfl
@[simp] theorem setCmp_engMem (p : Fin 32) (c : Fin 4) (f : CmpSt → CmpSt) : (setCmp s p c f).engMem = s.engMem := rfl
@[simp] theorem setCmp_nvm (p : Fin 32) (c : Fin 4) (f : CmpSt → CmpSt) : (setCmp s p c f).nvm = s.nvm := rfl
@[simp] theorem setCmp_time (p : Fin 32) (c : Fin 4) (f : CmpSt → CmpSt) : (setCmp s p c f).time = s.time := rfl
@[simp] theorem setCmp_sched (p : Fin 32) (c : Fin 4) (f : CmpSt → CmpSt) : (setCmp s p c f).sched = s.sched := rfl
@[simp] theorem setCmp_ports (p : Fin 32) (c : Fin 4) (f : CmpSt → CmpSt) : (setCmp s p c f).ports = s.ports := rfl
@[simp] theorem setCmp_cmps (p : Fin 32) (c : Fin 4) (f : CmpSt → CmpSt) : (setCmp s p c f).cmps = upd s.cmps p fun v => upd v c f := rfl
@[simp] theorem setCmp_loops (p : Fin 32) (c : Fin 4) (f : CmpSt → CmpSt) : (setCmp s p c f).loops = s.loops := rfl
@[simp] theorem setCmp_capo (p : Fin 32) (c : Fin 4) (f : CmpSt → CmpSt) : (setCmp s p c f).capo = s.capo := rfl
@[simp] theorem setCmp_feeds (p : Fin 32) (c : Fin 4) (f : CmpSt → CmpSt) : (setCmp s p c f).feeds = s.feeds := rfl
@[simp] theorem setCmp_seq (p : Fin 32) (c : Fin 4) (f : CmpSt → CmpSt) : (setCmp s p c f).seq = s.seq := rfl
@[simp] theorem setCmp_hk (p : Fin 32) (c : Fin 4) (f : CmpSt → CmpSt) : (setCmp s p c f).hk = s.hk := rfl
@[simp] theorem setCmp_battEngine (p : Fin 32) (c : Fin 4) (f : CmpSt → CmpSt) : (setCmp s p c f).battEngine = s.battEngine := rfl
@[simp] theorem setCmp_batts (p : Fin 32) (c : Fin 4) (f : CmpSt → CmpSt) : (setCmp s p c f).batts = s.batts := rfl
@[simp] theorem setCmp_harn (p : Fin 32) (c : Fin 4) (f : CmpSt → CmpSt) : (setCmp s p c f).harn = s.harn := rfl
@[simp] theorem setCmp_queues (p : Fin 32) (c : Fin 4) (f : CmpSt → CmpSt) : (setCmp s p c f).queues = s.queues := rfl
@[simp] theorem setCmp_host (p : Fin 32) (c : Fin 4) (f : CmpSt → CmpSt) : (setCmp s p c f).host = s.host := rfl
@[simp] theorem setCmp_fault (p : Fin 32) (c : Fin 4) (f : CmpSt → CmpSt) : (setCmp s p c f).fault = s.fault := rfl
@[simp] theorem setCmp_saddle (p : Fin 32) (c : Fin 4) (f : CmpSt → CmpSt) : (setCmp s p c f).saddle = s.saddle := rfl
@[simp] theorem setCmp_trust (p : Fin 32) (c : Fin 4) (f : CmpSt → CmpSt) : (setCmp s p c f).trust = s.trust := rfl
@[simp] theorem setCmp_power (p : Fin 32) (c : Fin 4) (f : CmpSt → CmpSt) : (setCmp s p c f).power = s.power := rfl
@[simp] theorem setCmp_test (p : Fin 32) (c : Fin 4) (f : CmpSt → CmpSt) : (setCmp s p c f).test = s.test := rfl

/-! ### setLoop -/

@[simp] theorem setLoop_pending (n : Fin 64) (f : LoopSt → LoopSt) : (setLoop s n f).pending = s.pending := rfl
@[simp] theorem setLoop_tick (n : Fin 64) (f : LoopSt → LoopSt) : (setLoop s n f).tick = s.tick := rfl
@[simp] theorem setLoop_resetTick (n : Fin 64) (f : LoopSt → LoopSt) : (setLoop s n f).resetTick = s.resetTick := rfl
@[simp] theorem setLoop_free (n : Fin 64) (f : LoopSt → LoopSt) : (setLoop s n f).free = s.free := rfl
@[simp] theorem setLoop_live (n : Fin 64) (f : LoopSt → LoopSt) : (setLoop s n f).live = s.live := rfl
@[simp] theorem setLoop_repl (n : Fin 64) (f : LoopSt → LoopSt) : (setLoop s n f).repl = s.repl := rfl
@[simp] theorem setLoop_captures (n : Fin 64) (f : LoopSt → LoopSt) : (setLoop s n f).captures = s.captures := rfl
@[simp] theorem setLoop_engMem (n : Fin 64) (f : LoopSt → LoopSt) : (setLoop s n f).engMem = s.engMem := rfl
@[simp] theorem setLoop_nvm (n : Fin 64) (f : LoopSt → LoopSt) : (setLoop s n f).nvm = s.nvm := rfl
@[simp] theorem setLoop_time (n : Fin 64) (f : LoopSt → LoopSt) : (setLoop s n f).time = s.time := rfl
@[simp] theorem setLoop_sched (n : Fin 64) (f : LoopSt → LoopSt) : (setLoop s n f).sched = s.sched := rfl
@[simp] theorem setLoop_ports (n : Fin 64) (f : LoopSt → LoopSt) : (setLoop s n f).ports = s.ports := rfl
@[simp] theorem setLoop_cmps (n : Fin 64) (f : LoopSt → LoopSt) : (setLoop s n f).cmps = s.cmps := rfl
@[simp] theorem setLoop_loops (n : Fin 64) (f : LoopSt → LoopSt) : (setLoop s n f).loops = upd s.loops n f := rfl
@[simp] theorem setLoop_capo (n : Fin 64) (f : LoopSt → LoopSt) : (setLoop s n f).capo = s.capo := rfl
@[simp] theorem setLoop_feeds (n : Fin 64) (f : LoopSt → LoopSt) : (setLoop s n f).feeds = s.feeds := rfl
@[simp] theorem setLoop_seq (n : Fin 64) (f : LoopSt → LoopSt) : (setLoop s n f).seq = s.seq := rfl
@[simp] theorem setLoop_hk (n : Fin 64) (f : LoopSt → LoopSt) : (setLoop s n f).hk = s.hk := rfl
@[simp] theorem setLoop_battEngine (n : Fin 64) (f : LoopSt → LoopSt) : (setLoop s n f).battEngine = s.battEngine := rfl
@[simp] theorem setLoop_batts (n : Fin 64) (f : LoopSt → LoopSt) : (setLoop s n f).batts = s.batts := rfl
@[simp] theorem setLoop_harn (n : Fin 64) (f : LoopSt → LoopSt) : (setLoop s n f).harn = s.harn := rfl
@[simp] theorem setLoop_queues (n : Fin 64) (f : LoopSt → LoopSt) : (setLoop s n f).queues = s.queues := rfl
@[simp] theorem setLoop_host (n : Fin 64) (f : LoopSt → LoopSt) : (setLoop s n f).host = s.host := rfl
@[simp] theorem setLoop_fault (n : Fin 64) (f : LoopSt → LoopSt) : (setLoop s n f).fault = s.fault := rfl
@[simp] theorem setLoop_saddle (n : Fin 64) (f : LoopSt → LoopSt) : (setLoop s n f).saddle = s.saddle := rfl
@[simp] theorem setLoop_trust (n : Fin 64) (f : LoopSt → LoopSt) : (setLoop s n f).trust = s.trust := rfl
@[simp] theorem setLoop_power (n : Fin 64) (f : LoopSt → LoopSt) : (setLoop s n f).power = s.power := rfl
@[simp] theorem setLoop_test (n : Fin 64) (f : LoopSt → LoopSt) : (setLoop s n f).test = s.test := rfl

/-! ### setFlt -/

@[simp] theorem setFlt_pending (f : FaultSt → FaultSt) : (setFlt s f).pending = s.pending := rfl
@[simp] theorem setFlt_tick (f : FaultSt → FaultSt) : (setFlt s f).tick = s.tick := rfl
@[simp] theorem setFlt_resetTick (f : FaultSt → FaultSt) : (setFlt s f).resetTick = s.resetTick := rfl
@[simp] theorem setFlt_free (f : FaultSt → FaultSt) : (setFlt s f).free = s.free := rfl
@[simp] theorem setFlt_live (f : FaultSt → FaultSt) : (setFlt s f).live = s.live := rfl
@[simp] theorem setFlt_repl (f : FaultSt → FaultSt) : (setFlt s f).repl = s.repl := rfl
@[simp] theorem setFlt_captures (f : FaultSt → FaultSt) : (setFlt s f).captures = s.captures := rfl
@[simp] theorem setFlt_engMem (f : FaultSt → FaultSt) : (setFlt s f).engMem = s.engMem := rfl
@[simp] theorem setFlt_nvm (f : FaultSt → FaultSt) : (setFlt s f).nvm = s.nvm := rfl
@[simp] theorem setFlt_time (f : FaultSt → FaultSt) : (setFlt s f).time = s.time := rfl
@[simp] theorem setFlt_sched (f : FaultSt → FaultSt) : (setFlt s f).sched = s.sched := rfl
@[simp] theorem setFlt_ports (f : FaultSt → FaultSt) : (setFlt s f).ports = s.ports := rfl
@[simp] theorem setFlt_cmps (f : FaultSt → FaultSt) : (setFlt s f).cmps = s.cmps := rfl
@[simp] theorem setFlt_loops (f : FaultSt → FaultSt) : (setFlt s f).loops = s.loops := rfl
@[simp] theorem setFlt_capo (f : FaultSt → FaultSt) : (setFlt s f).capo = s.capo := rfl
@[simp] theorem setFlt_feeds (f : FaultSt → FaultSt) : (setFlt s f).feeds = s.feeds := rfl
@[simp] theorem setFlt_seq (f : FaultSt → FaultSt) : (setFlt s f).seq = s.seq := rfl
@[simp] theorem setFlt_hk (f : FaultSt → FaultSt) : (setFlt s f).hk = s.hk := rfl
@[simp] theorem setFlt_battEngine (f : FaultSt → FaultSt) : (setFlt s f).battEngine = s.battEngine := rfl
@[simp] theorem setFlt_batts (f : FaultSt → FaultSt) : (setFlt s f).batts = s.batts := rfl
@[simp] theorem setFlt_harn (f : FaultSt → FaultSt) : (setFlt s f).harn = s.harn := rfl
@[simp] theorem setFlt_queues (f : FaultSt → FaultSt) : (setFlt s f).queues = s.queues := rfl
@[simp] theorem setFlt_host (f : FaultSt → FaultSt) : (setFlt s f).host = s.host := rfl
@[simp] theorem setFlt_fault (f : FaultSt → FaultSt) : (setFlt s f).fault = f s.fault := rfl
@[simp] theorem setFlt_saddle (f : FaultSt → FaultSt) : (setFlt s f).saddle = s.saddle := rfl
@[simp] theorem setFlt_trust (f : FaultSt → FaultSt) : (setFlt s f).trust = s.trust := rfl
@[simp] theorem setFlt_power (f : FaultSt → FaultSt) : (setFlt s f).power = s.power := rfl
@[simp] theorem setFlt_test (f : FaultSt → FaultSt) : (setFlt s f).test = s.test := rfl

/-! ### setFeed -/

@[simp] theorem setFeed_pending (h : Fin 8) (f : FeedSt → FeedSt) : (setFeed s h f).pending = s.pending := rfl
@[simp] theorem setFeed_tick (h : Fin 8) (f : FeedSt → FeedSt) : (setFeed s h f).tick = s.tick := rfl
@[simp] theorem setFeed_resetTick (h : Fin 8) (f : FeedSt → FeedSt) : (setFeed s h f).resetTick = s.resetTick := rfl
@[simp] theorem setFeed_free (h : Fin 8) (f : FeedSt → FeedSt) : (setFeed s h f).free = s.free := rfl
@[simp] theorem setFeed_live (h : Fin 8) (f : FeedSt → FeedSt) : (setFeed s h f).live = s.live := rfl
@[simp] theorem setFeed_repl (h : Fin 8) (f : FeedSt → FeedSt) : (setFeed s h f).repl = s.repl := rfl
@[simp] theorem setFeed_captures (h : Fin 8) (f : FeedSt → FeedSt) : (setFeed s h f).captures = s.captures := rfl
@[simp] theorem setFeed_engMem (h : Fin 8) (f : FeedSt → FeedSt) : (setFeed s h f).engMem = s.engMem := rfl
@[simp] theorem setFeed_nvm (h : Fin 8) (f : FeedSt → FeedSt) : (setFeed s h f).nvm = s.nvm := rfl
@[simp] theorem setFeed_time (h : Fin 8) (f : FeedSt → FeedSt) : (setFeed s h f).time = s.time := rfl
@[simp] theorem setFeed_sched (h : Fin 8) (f : FeedSt → FeedSt) : (setFeed s h f).sched = s.sched := rfl
@[simp] theorem setFeed_ports (h : Fin 8) (f : FeedSt → FeedSt) : (setFeed s h f).ports = s.ports := rfl
@[simp] theorem setFeed_cmps (h : Fin 8) (f : FeedSt → FeedSt) : (setFeed s h f).cmps = s.cmps := rfl
@[simp] theorem setFeed_loops (h : Fin 8) (f : FeedSt → FeedSt) : (setFeed s h f).loops = s.loops := rfl
@[simp] theorem setFeed_capo (h : Fin 8) (f : FeedSt → FeedSt) : (setFeed s h f).capo = s.capo := rfl
@[simp] theorem setFeed_feeds (h : Fin 8) (f : FeedSt → FeedSt) : (setFeed s h f).feeds = upd s.feeds h f := rfl
@[simp] theorem setFeed_seq (h : Fin 8) (f : FeedSt → FeedSt) : (setFeed s h f).seq = s.seq := rfl
@[simp] theorem setFeed_hk (h : Fin 8) (f : FeedSt → FeedSt) : (setFeed s h f).hk = s.hk := rfl
@[simp] theorem setFeed_battEngine (h : Fin 8) (f : FeedSt → FeedSt) : (setFeed s h f).battEngine = s.battEngine := rfl
@[simp] theorem setFeed_batts (h : Fin 8) (f : FeedSt → FeedSt) : (setFeed s h f).batts = s.batts := rfl
@[simp] theorem setFeed_harn (h : Fin 8) (f : FeedSt → FeedSt) : (setFeed s h f).harn = s.harn := rfl
@[simp] theorem setFeed_queues (h : Fin 8) (f : FeedSt → FeedSt) : (setFeed s h f).queues = s.queues := rfl
@[simp] theorem setFeed_host (h : Fin 8) (f : FeedSt → FeedSt) : (setFeed s h f).host = s.host := rfl
@[simp] theorem setFeed_fault (h : Fin 8) (f : FeedSt → FeedSt) : (setFeed s h f).fault = s.fault := rfl
@[simp] theorem setFeed_saddle (h : Fin 8) (f : FeedSt → FeedSt) : (setFeed s h f).saddle = s.saddle := rfl
@[simp] theorem setFeed_trust (h : Fin 8) (f : FeedSt → FeedSt) : (setFeed s h f).trust = s.trust := rfl
@[simp] theorem setFeed_power (h : Fin 8) (f : FeedSt → FeedSt) : (setFeed s h f).power = s.power := rfl
@[simp] theorem setFeed_test (h : Fin 8) (f : FeedSt → FeedSt) : (setFeed s h f).test = s.test := rfl

/-! ### setHarn -/

@[simp] theorem setHarn_pending (f : HarnSt → HarnSt) : (setHarn s f).pending = s.pending := rfl
@[simp] theorem setHarn_tick (f : HarnSt → HarnSt) : (setHarn s f).tick = s.tick := rfl
@[simp] theorem setHarn_resetTick (f : HarnSt → HarnSt) : (setHarn s f).resetTick = s.resetTick := rfl
@[simp] theorem setHarn_free (f : HarnSt → HarnSt) : (setHarn s f).free = s.free := rfl
@[simp] theorem setHarn_live (f : HarnSt → HarnSt) : (setHarn s f).live = s.live := rfl
@[simp] theorem setHarn_repl (f : HarnSt → HarnSt) : (setHarn s f).repl = s.repl := rfl
@[simp] theorem setHarn_captures (f : HarnSt → HarnSt) : (setHarn s f).captures = s.captures := rfl
@[simp] theorem setHarn_engMem (f : HarnSt → HarnSt) : (setHarn s f).engMem = s.engMem := rfl
@[simp] theorem setHarn_nvm (f : HarnSt → HarnSt) : (setHarn s f).nvm = s.nvm := rfl
@[simp] theorem setHarn_time (f : HarnSt → HarnSt) : (setHarn s f).time = s.time := rfl
@[simp] theorem setHarn_sched (f : HarnSt → HarnSt) : (setHarn s f).sched = s.sched := rfl
@[simp] theorem setHarn_ports (f : HarnSt → HarnSt) : (setHarn s f).ports = s.ports := rfl
@[simp] theorem setHarn_cmps (f : HarnSt → HarnSt) : (setHarn s f).cmps = s.cmps := rfl
@[simp] theorem setHarn_loops (f : HarnSt → HarnSt) : (setHarn s f).loops = s.loops := rfl
@[simp] theorem setHarn_capo (f : HarnSt → HarnSt) : (setHarn s f).capo = s.capo := rfl
@[simp] theorem setHarn_feeds (f : HarnSt → HarnSt) : (setHarn s f).feeds = s.feeds := rfl
@[simp] theorem setHarn_seq (f : HarnSt → HarnSt) : (setHarn s f).seq = s.seq := rfl
@[simp] theorem setHarn_hk (f : HarnSt → HarnSt) : (setHarn s f).hk = s.hk := rfl
@[simp] theorem setHarn_battEngine (f : HarnSt → HarnSt) : (setHarn s f).battEngine = s.battEngine := rfl
@[simp] theorem setHarn_batts (f : HarnSt → HarnSt) : (setHarn s f).batts = s.batts := rfl
@[simp] theorem setHarn_harn (f : HarnSt → HarnSt) : (setHarn s f).harn = f s.harn := rfl
@[simp] theorem setHarn_queues (f : HarnSt → HarnSt) : (setHarn s f).queues = s.queues := rfl
@[simp] theorem setHarn_host (f : HarnSt → HarnSt) : (setHarn s f).host = s.host := rfl
@[simp] theorem setHarn_fault (f : HarnSt → HarnSt) : (setHarn s f).fault = s.fault := rfl
@[simp] theorem setHarn_saddle (f : HarnSt → HarnSt) : (setHarn s f).saddle = s.saddle := rfl
@[simp] theorem setHarn_trust (f : HarnSt → HarnSt) : (setHarn s f).trust = s.trust := rfl
@[simp] theorem setHarn_power (f : HarnSt → HarnSt) : (setHarn s f).power = s.power := rfl
@[simp] theorem setHarn_test (f : HarnSt → HarnSt) : (setHarn s f).test = s.test := rfl

/-! ### setHk -/

@[simp] theorem setHk_pending (f : HkSt → HkSt) : (setHk s f).pending = s.pending := rfl
@[simp] theorem setHk_tick (f : HkSt → HkSt) : (setHk s f).tick = s.tick := rfl
@[simp] theorem setHk_resetTick (f : HkSt → HkSt) : (setHk s f).resetTick = s.resetTick := rfl
@[simp] theorem setHk_free (f : HkSt → HkSt) : (setHk s f).free = s.free := rfl
@[simp] theorem setHk_live (f : HkSt → HkSt) : (setHk s f).live = s.live := rfl
@[simp] theorem setHk_repl (f : HkSt → HkSt) : (setHk s f).repl = s.repl := rfl
@[simp] theorem setHk_captures (f : HkSt → HkSt) : (setHk s f).captures = s.captures := rfl
@[simp] theorem setHk_engMem (f : HkSt → HkSt) : (setHk s f).engMem = s.engMem := rfl
@[simp] theorem setHk_nvm (f : HkSt → HkSt) : (setHk s f).nvm = s.nvm := rfl
@[simp] theorem setHk_time (f : HkSt → HkSt) : (setHk s f).time = s.time := rfl
@[simp] theorem setHk_sched (f : HkSt → HkSt) : (setHk s f).sched = s.sched := rfl
@[simp] theorem setHk_ports (f : HkSt → HkSt) : (setHk s f).ports = s.ports := rfl
@[simp] theorem setHk_cmps (f : HkSt → HkSt) : (setHk s f).cmps = s.cmps := rfl
@[simp] theorem setHk_loops (f : HkSt → HkSt) : (setHk s f).loops = s.loops := rfl
@[simp] theorem setHk_capo (f : HkSt → HkSt) : (setHk s f).capo = s.capo := rfl
@[simp] theorem setHk_feeds (f : HkSt → HkSt) : (setHk s f).feeds = s.feeds := rfl
@[simp] theorem setHk_seq (f : HkSt → HkSt) : (setHk s f).seq = s.seq := rfl
@[simp] theorem setHk_hk (f : HkSt → HkSt) : (setHk s f).hk = f s.hk := rfl
@[simp] theorem setHk_battEngine (f : HkSt → HkSt) : (setHk s f).battEngine = s.battEngine := rfl
@[simp] theorem setHk_batts (f : HkSt → HkSt) : (setHk s f).batts = s.batts := rfl
@[simp] theorem setHk_harn (f : HkSt → HkSt) : (setHk s f).harn = s.harn := rfl
@[simp] theorem setHk_queues (f : HkSt → HkSt) : (setHk s f).queues = s.queues := rfl
@[simp] theorem setHk_host (f : HkSt → HkSt) : (setHk s f).host = s.host := rfl
@[simp] theorem setHk_fault (f : HkSt → HkSt) : (setHk s f).fault = s.fault := rfl
@[simp] theorem setHk_saddle (f : HkSt → HkSt) : (setHk s f).saddle = s.saddle := rfl
@[simp] theorem setHk_trust (f : HkSt → HkSt) : (setHk s f).trust = s.trust := rfl
@[simp] theorem setHk_power (f : HkSt → HkSt) : (setHk s f).power = s.power := rfl
@[simp] theorem setHk_test (f : HkSt → HkSt) : (setHk s f).test = s.test := rfl

/-! ### setHost -/

@[simp] theorem setHost_pending (f : HostSt → HostSt) : (setHost s f).pending = s.pending := rfl
@[simp] theorem setHost_tick (f : HostSt → HostSt) : (setHost s f).tick = s.tick := rfl
@[simp] theorem setHost_resetTick (f : HostSt → HostSt) : (setHost s f).resetTick = s.resetTick := rfl
@[simp] theorem setHost_free (f : HostSt → HostSt) : (setHost s f).free = s.free := rfl
@[simp] theorem setHost_live (f : HostSt → HostSt) : (setHost s f).live = s.live := rfl
@[simp] theorem setHost_repl (f : HostSt → HostSt) : (setHost s f).repl = s.repl := rfl
@[simp] theorem setHost_captures (f : HostSt → HostSt) : (setHost s f).captures = s.captures := rfl
@[simp] theorem setHost_engMem (f : HostSt → HostSt) : (setHost s f).engMem = s.engMem := rfl
@[simp] theorem setHost_nvm (f : HostSt → HostSt) : (setHost s f).nvm = s.nvm := rfl
@[simp] theorem setHost_time (f : HostSt → HostSt) : (setHost s f).time = s.time := rfl
@[simp] theorem setHost_sched (f : HostSt → HostSt) : (setHost s f).sched = s.sched := rfl
@[simp] theorem setHost_ports (f : HostSt → HostSt) : (setHost s f).ports = s.ports := rfl
@[simp] theorem setHost_cmps (f : HostSt → HostSt) : (setHost s f).cmps = s.cmps := rfl
@[simp] theorem setHost_loops (f : HostSt → HostSt) : (setHost s f).loops = s.loops := rfl
@[simp] theorem setHost_capo (f : HostSt → HostSt) : (setHost s f).capo = s.capo := rfl
@[simp] theorem setHost_feeds (f : HostSt → HostSt) : (setHost s f).feeds = s.feeds := rfl
@[simp] theorem setHost_seq (f : HostSt → HostSt) : (setHost s f).seq = s.seq := rfl
@[simp] theorem setHost_hk (f : HostSt → HostSt) : (setHost s f).hk = s.hk := rfl
@[simp] theorem setHost_battEngine (f : HostSt → HostSt) : (setHost s f).battEngine = s.battEngine := rfl
@[simp] theorem setHost_batts (f : HostSt → HostSt) : (setHost s f).batts = s.batts := rfl
@[simp] theorem setHost_harn (f : HostSt → HostSt) : (setHost s f).harn = s.harn := rfl
@[simp] theorem setHost_queues (f : HostSt → HostSt) : (setHost s f).queues = s.queues := rfl
@[simp] theorem setHost_host (f : HostSt → HostSt) : (setHost s f).host = f s.host := rfl
@[simp] theorem setHost_fault (f : HostSt → HostSt) : (setHost s f).fault = s.fault := rfl
@[simp] theorem setHost_saddle (f : HostSt → HostSt) : (setHost s f).saddle = s.saddle := rfl
@[simp] theorem setHost_trust (f : HostSt → HostSt) : (setHost s f).trust = s.trust := rfl
@[simp] theorem setHost_power (f : HostSt → HostSt) : (setHost s f).power = s.power := rfl
@[simp] theorem setHost_test (f : HostSt → HostSt) : (setHost s f).test = s.test := rfl

/-! ### setGate -/

@[simp] theorem setGate_pending (p : Fin 32) (g : Gate) (f : GateSt → GateSt) : (setGate s p g f).pending = s.pending := rfl
@[simp] theorem setGate_tick (p : Fin 32) (g : Gate) (f : GateSt → GateSt) : (setGate s p g f).tick = s.tick := rfl
@[simp] theorem setGate_resetTick (p : Fin 32) (g : Gate) (f : GateSt → GateSt) : (setGate s p g f).resetTick = s.resetTick := rfl
@[simp] theorem setGate_free (p : Fin 32) (g : Gate) (f : GateSt → GateSt) : (setGate s p g f).free = s.free := rfl
@[simp] theorem setGate_live (p : Fin 32) (g : Gate) (f : GateSt → GateSt) : (setGate s p g f).live = s.live := rfl
@[simp] theorem setGate_repl (p : Fin 32) (g : Gate) (f : GateSt → GateSt) : (setGate s p g f).repl = s.repl := rfl
@[simp] theorem setGate_captures (p : Fin 32) (g : Gate) (f : GateSt → GateSt) : (setGate s p g f).captures = s.captures := rfl
@[simp] theorem setGate_engMem (p : Fin 32) (g : Gate) (f : GateSt → GateSt) : (setGate s p g f).engMem = s.engMem := rfl
@[simp] theorem setGate_nvm (p : Fin 32) (g : Gate) (f : GateSt → GateSt) : (setGate s p g f).nvm = s.nvm := rfl
@[simp] theorem setGate_time (p : Fin 32) (g : Gate) (f : GateSt → GateSt) : (setGate s p g f).time = s.time := rfl
@[simp] theorem setGate_sched (p : Fin 32) (g : Gate) (f : GateSt → GateSt) : (setGate s p g f).sched = s.sched := rfl
@[simp] theorem setGate_ports (p : Fin 32) (g : Gate) (f : GateSt → GateSt) : (setGate s p g f).ports = upd s.ports p fun x => { x with gates := upd x.gates g.idx f } := rfl
@[simp] theorem setGate_cmps (p : Fin 32) (g : Gate) (f : GateSt → GateSt) : (setGate s p g f).cmps = s.cmps := rfl
@[simp] theorem setGate_loops (p : Fin 32) (g : Gate) (f : GateSt → GateSt) : (setGate s p g f).loops = s.loops := rfl
@[simp] theorem setGate_capo (p : Fin 32) (g : Gate) (f : GateSt → GateSt) : (setGate s p g f).capo = s.capo := rfl
@[simp] theorem setGate_feeds (p : Fin 32) (g : Gate) (f : GateSt → GateSt) : (setGate s p g f).feeds = s.feeds := rfl
@[simp] theorem setGate_seq (p : Fin 32) (g : Gate) (f : GateSt → GateSt) : (setGate s p g f).seq = s.seq := rfl
@[simp] theorem setGate_hk (p : Fin 32) (g : Gate) (f : GateSt → GateSt) : (setGate s p g f).hk = s.hk := rfl
@[simp] theorem setGate_battEngine (p : Fin 32) (g : Gate) (f : GateSt → GateSt) : (setGate s p g f).battEngine = s.battEngine := rfl
@[simp] theorem setGate_batts (p : Fin 32) (g : Gate) (f : GateSt → GateSt) : (setGate s p g f).batts = s.batts := rfl
@[simp] theorem setGate_harn (p : Fin 32) (g : Gate) (f : GateSt → GateSt) : (setGate s p g f).harn = s.harn := rfl
@[simp] theorem setGate_queues (p : Fin 32) (g : Gate) (f : GateSt → GateSt) : (setGate s p g f).queues = s.queues := rfl
@[simp] theorem setGate_host (p : Fin 32) (g : Gate) (f : GateSt → GateSt) : (setGate s p g f).host = s.host := rfl
@[simp] theorem setGate_fault (p : Fin 32) (g : Gate) (f : GateSt → GateSt) : (setGate s p g f).fault = s.fault := rfl
@[simp] theorem setGate_saddle (p : Fin 32) (g : Gate) (f : GateSt → GateSt) : (setGate s p g f).saddle = s.saddle := rfl
@[simp] theorem setGate_trust (p : Fin 32) (g : Gate) (f : GateSt → GateSt) : (setGate s p g f).trust = s.trust := rfl
@[simp] theorem setGate_power (p : Fin 32) (g : Gate) (f : GateSt → GateSt) : (setGate s p g f).power = s.power := rfl
@[simp] theorem setGate_test (p : Fin 32) (g : Gate) (f : GateSt → GateSt) : (setGate s p g f).test = s.test := rfl

/-! ### setPower -/

@[simp] theorem setPower_pending (f : PowerSt → PowerSt) : (setPower s f).pending = s.pending := rfl
@[simp] theorem setPower_tick (f : PowerSt → PowerSt) : (setPower s f).tick = s.tick := rfl
@[simp] theorem setPower_resetTick (f : PowerSt → PowerSt) : (setPower s f).resetTick = s.resetTick := rfl
@[simp] theorem setPower_free (f : PowerSt → PowerSt) : (setPower s f).free = s.free := rfl
@[simp] theorem setPower_live (f : PowerSt → PowerSt) : (setPower s f).live = s.live := rfl
@[simp] theorem setPower_repl (f : PowerSt → PowerSt) : (setPower s f).repl = s.repl := rfl
@[simp] theorem setPower_captures (f : PowerSt → PowerSt) : (setPower s f).captures = s.captures := rfl
@[simp] theorem setPower_engMem (f : PowerSt → PowerSt) : (setPower s f).engMem = s.engMem := rfl
@[simp] theorem setPower_nvm (f : PowerSt → PowerSt) : (setPower s f).nvm = s.nvm := rfl
@[simp] theorem setPower_time (f : PowerSt → PowerSt) : (setPower s f).time = s.time := rfl
@[simp] theorem setPower_sched (f : PowerSt → PowerSt) : (setPower s f).sched = s.sched := rfl
@[simp] theorem setPower_ports (f : PowerSt → PowerSt) : (setPower s f).ports = s.ports := rfl
@[simp] theorem setPower_cmps (f : PowerSt → PowerSt) : (setPower s f).cmps = s.cmps := rfl
@[simp] theorem setPower_loops (f : PowerSt → PowerSt) : (setPower s f).loops = s.loops := rfl
@[simp] theorem setPower_capo (f : PowerSt → PowerSt) : (setPower s f).capo = s.capo := rfl
@[simp] theorem setPower_feeds (f : PowerSt → PowerSt) : (setPower s f).feeds = s.feeds := rfl
@[simp] theorem setPower_seq (f : PowerSt → PowerSt) : (setPower s f).seq = s.seq := rfl
@[simp] theorem setPower_hk (f : PowerSt → PowerSt) : (setPower s f).hk = s.hk := rfl
@[simp] theorem setPower_battEngine (f : PowerSt → PowerSt) : (setPower s f).battEngine = s.battEngine := rfl
@[simp] theorem setPower_batts (f : PowerSt → PowerSt) : (setPower s f).batts = s.batts := rfl
@[simp] theorem setPower_harn (f : PowerSt → PowerSt) : (setPower s f).harn = s.harn := rfl
@[simp] theorem setPower_queues (f : PowerSt → PowerSt) : (setPower s f).queues = s.queues := rfl
@[simp] theorem setPower_host (f : PowerSt → PowerSt) : (setPower s f).host = s.host := rfl
@[simp] theorem setPower_fault (f : PowerSt → PowerSt) : (setPower s f).fault = s.fault := rfl
@[simp] theorem setPower_saddle (f : PowerSt → PowerSt) : (setPower s f).saddle = s.saddle := rfl
@[simp] theorem setPower_trust (f : PowerSt → PowerSt) : (setPower s f).trust = s.trust := rfl
@[simp] theorem setPower_power (f : PowerSt → PowerSt) : (setPower s f).power = f s.power := rfl
@[simp] theorem setPower_test (f : PowerSt → PowerSt) : (setPower s f).test = s.test := rfl

/-! ### setQueue -/

@[simp] theorem setQueue_pending (q : Fin 64) (f : QueueSt → QueueSt) : (setQueue s q f).pending = s.pending := rfl
@[simp] theorem setQueue_tick (q : Fin 64) (f : QueueSt → QueueSt) : (setQueue s q f).tick = s.tick := rfl
@[simp] theorem setQueue_resetTick (q : Fin 64) (f : QueueSt → QueueSt) : (setQueue s q f).resetTick = s.resetTick := rfl
@[simp] theorem setQueue_free (q : Fin 64) (f : QueueSt → QueueSt) : (setQueue s q f).free = s.free := rfl
@[simp] theorem setQueue_live (q : Fin 64) (f : QueueSt → QueueSt) : (setQueue s q f).live = s.live := rfl
@[simp] theorem setQueue_repl (q : Fin 64) (f : QueueSt → QueueSt) : (setQueue s q f).repl = s.repl := rfl
@[simp] theorem setQueue_captures (q : Fin 64) (f : QueueSt → QueueSt) : (setQueue s q f).captures = s.captures := rfl
@[simp] theorem setQueue_engMem (q : Fin 64) (f : QueueSt → QueueSt) : (setQueue s q f).engMem = s.engMem := rfl
@[simp] theorem setQueue_nvm (q : Fin 64) (f : QueueSt → QueueSt) : (setQueue s q f).nvm = s.nvm := rfl
@[simp] theorem setQueue_time (q : Fin 64) (f : QueueSt → QueueSt) : (setQueue s q f).time = s.time := rfl
@[simp] theorem setQueue_sched (q : Fin 64) (f : QueueSt → QueueSt) : (setQueue s q f).sched = s.sched := rfl
@[simp] theorem setQueue_ports (q : Fin 64) (f : QueueSt → QueueSt) : (setQueue s q f).ports = s.ports := rfl
@[simp] theorem setQueue_cmps (q : Fin 64) (f : QueueSt → QueueSt) : (setQueue s q f).cmps = s.cmps := rfl
@[simp] theorem setQueue_loops (q : Fin 64) (f : QueueSt → QueueSt) : (setQueue s q f).loops = s.loops := rfl
@[simp] theorem setQueue_capo (q : Fin 64) (f : QueueSt → QueueSt) : (setQueue s q f).capo = s.capo := rfl
@[simp] theorem setQueue_feeds (q : Fin 64) (f : QueueSt → QueueSt) : (setQueue s q f).feeds = s.feeds := rfl
@[simp] theorem setQueue_seq (q : Fin 64) (f : QueueSt → QueueSt) : (setQueue s q f).seq = s.seq := rfl
@[simp] theorem setQueue_hk (q : Fin 64) (f : QueueSt → QueueSt) : (setQueue s q f).hk = s.hk := rfl
@[simp] theorem setQueue_battEngine (q : Fin 64) (f : QueueSt → QueueSt) : (setQueue s q f).battEngine = s.battEngine := rfl
@[simp] theorem setQueue_batts (q : Fin 64) (f : QueueSt → QueueSt) : (setQueue s q f).batts = s.batts := rfl
@[simp] theorem setQueue_harn (q : Fin 64) (f : QueueSt → QueueSt) : (setQueue s q f).harn = s.harn := rfl
@[simp] theorem setQueue_queues (q : Fin 64) (f : QueueSt → QueueSt) : (setQueue s q f).queues = upd s.queues q f := rfl
@[simp] theorem setQueue_host (q : Fin 64) (f : QueueSt → QueueSt) : (setQueue s q f).host = s.host := rfl
@[simp] theorem setQueue_fault (q : Fin 64) (f : QueueSt → QueueSt) : (setQueue s q f).fault = s.fault := rfl
@[simp] theorem setQueue_saddle (q : Fin 64) (f : QueueSt → QueueSt) : (setQueue s q f).saddle = s.saddle := rfl
@[simp] theorem setQueue_trust (q : Fin 64) (f : QueueSt → QueueSt) : (setQueue s q f).trust = s.trust := rfl
@[simp] theorem setQueue_power (q : Fin 64) (f : QueueSt → QueueSt) : (setQueue s q f).power = s.power := rfl
@[simp] theorem setQueue_test (q : Fin 64) (f : QueueSt → QueueSt) : (setQueue s q f).test = s.test := rfl

/-! ### setRec -/

@[simp] theorem setRec_pending (f : RecSt → RecSt) : (setRec s f).pending = s.pending := rfl
@[simp] theorem setRec_tick (f : RecSt → RecSt) : (setRec s f).tick = s.tick := rfl
@[simp] theorem setRec_resetTick (f : RecSt → RecSt) : (setRec s f).resetTick = s.resetTick := rfl
@[simp] theorem setRec_free (f : RecSt → RecSt) : (setRec s f).free = s.free := rfl
@[simp] theorem setRec_live (f : RecSt → RecSt) : (setRec s f).live = s.live := rfl
@[simp] theorem setRec_repl (f : RecSt → RecSt) : (setRec s f).repl = s.repl := rfl
@[simp] theorem setRec_captures (f : RecSt → RecSt) : (setRec s f).captures = s.captures := rfl
@[simp] theorem setRec_engMem (f : RecSt → RecSt) : (setRec s f).engMem = s.engMem := rfl
@[simp] theorem setRec_nvm (f : RecSt → RecSt) : (setRec s f).nvm = s.nvm := rfl
@[simp] theorem setRec_time (f : RecSt → RecSt) : (setRec s f).time = s.time := rfl
@[simp] theorem setRec_sched (f : RecSt → RecSt) : (setRec s f).sched = s.sched := rfl
@[simp] theorem setRec_ports (f : RecSt → RecSt) : (setRec s f).ports = s.ports := rfl
@[simp] theorem setRec_cmps (f : RecSt → RecSt) : (setRec s f).cmps = s.cmps := rfl
@[simp] theorem setRec_loops (f : RecSt → RecSt) : (setRec s f).loops = s.loops := rfl
@[simp] theorem setRec_capo (f : RecSt → RecSt) : (setRec s f).capo = s.capo := rfl
@[simp] theorem setRec_feeds (f : RecSt → RecSt) : (setRec s f).feeds = s.feeds := rfl
@[simp] theorem setRec_seq (f : RecSt → RecSt) : (setRec s f).seq = s.seq := rfl
@[simp] theorem setRec_hk (f : RecSt → RecSt) : (setRec s f).hk = s.hk := rfl
@[simp] theorem setRec_battEngine (f : RecSt → RecSt) : (setRec s f).battEngine = s.battEngine := rfl
@[simp] theorem setRec_batts (f : RecSt → RecSt) : (setRec s f).batts = s.batts := rfl
@[simp] theorem setRec_harn (f : RecSt → RecSt) : (setRec s f).harn = s.harn := rfl
@[simp] theorem setRec_queues (f : RecSt → RecSt) : (setRec s f).queues = s.queues := rfl
@[simp] theorem setRec_host (f : RecSt → RecSt) : (setRec s f).host = s.host := rfl
@[simp] theorem setRec_fault (f : RecSt → RecSt) : (setRec s f).fault = s.fault := rfl
@[simp] theorem setRec_saddle (f : RecSt → RecSt) : (setRec s f).saddle = f s.saddle := rfl
@[simp] theorem setRec_trust (f : RecSt → RecSt) : (setRec s f).trust = s.trust := rfl
@[simp] theorem setRec_power (f : RecSt → RecSt) : (setRec s f).power = s.power := rfl
@[simp] theorem setRec_test (f : RecSt → RecSt) : (setRec s f).test = s.test := rfl

/-! ### setSched -/

@[simp] theorem setSched_pending (f : SchedSt → SchedSt) : (setSched s f).pending = s.pending := rfl
@[simp] theorem setSched_tick (f : SchedSt → SchedSt) : (setSched s f).tick = s.tick := rfl
@[simp] theorem setSched_resetTick (f : SchedSt → SchedSt) : (setSched s f).resetTick = s.resetTick := rfl
@[simp] theorem setSched_free (f : SchedSt → SchedSt) : (setSched s f).free = s.free := rfl
@[simp] theorem setSched_live (f : SchedSt → SchedSt) : (setSched s f).live = s.live := rfl
@[simp] theorem setSched_repl (f : SchedSt → SchedSt) : (setSched s f).repl = s.repl := rfl
@[simp] theorem setSched_captures (f : SchedSt → SchedSt) : (setSched s f).captures = s.captures := rfl
@[simp] theorem setSched_engMem (f : SchedSt → SchedSt) : (setSched s f).engMem = s.engMem := rfl
@[simp] theorem setSched_nvm (f : SchedSt → SchedSt) : (setSched s f).nvm = s.nvm := rfl
@[simp] theorem setSched_time (f : SchedSt → SchedSt) : (setSched s f).time = s.time := rfl
@[simp] theorem setSched_sched (f : SchedSt → SchedSt) : (setSched s f).sched = f s.sched := rfl
@[simp] theorem setSched_ports (f : SchedSt → SchedSt) : (setSched s f).ports = s.ports := rfl
@[simp] theorem setSched_cmps (f : SchedSt → SchedSt) : (setSched s f).cmps = s.cmps := rfl
@[simp] theorem setSched_loops (f : SchedSt → SchedSt) : (setSched s f).loops = s.loops := rfl
@[simp] theorem setSched_capo (f : SchedSt → SchedSt) : (setSched s f).capo = s.capo := rfl
@[simp] theorem setSched_feeds (f : SchedSt → SchedSt) : (setSched s f).feeds = s.feeds := rfl
@[simp] theorem setSched_seq (f : SchedSt → SchedSt) : (setSched s f).seq = s.seq := rfl
@[simp] theorem setSched_hk (f : SchedSt → SchedSt) : (setSched s f).hk = s.hk := rfl
@[simp] theorem setSched_battEngine (f : SchedSt → SchedSt) : (setSched s f).battEngine = s.battEngine := rfl
@[simp] theorem setSched_batts (f : SchedSt → SchedSt) : (setSched s f).batts = s.batts := rfl
@[simp] theorem setSched_harn (f : SchedSt → SchedSt) : (setSched s f).harn = s.harn := rfl
@[simp] theorem setSched_queues (f : SchedSt → SchedSt) : (setSched s f).queues = s.queues := rfl
@[simp] theorem setSched_host (f : SchedSt → SchedSt) : (setSched s f).host = s.host := rfl
@[simp] theorem setSched_fault (f : SchedSt → SchedSt) : (setSched s f).fault = s.fault := rfl
@[simp] theorem setSched_saddle (f : SchedSt → SchedSt) : (setSched s f).saddle = s.saddle := rfl
@[simp] theorem setSched_trust (f : SchedSt → SchedSt) : (setSched s f).trust = s.trust := rfl
@[simp] theorem setSched_power (f : SchedSt → SchedSt) : (setSched s f).power = s.power := rfl
@[simp] theorem setSched_test (f : SchedSt → SchedSt) : (setSched s f).test = s.test := rfl

/-! ### setSeq -/

@[simp] theorem setSeq_pending (f : SeqSt → SeqSt) : (setSeq s f).pending = s.pending := rfl
@[simp] theorem setSeq_tick (f : SeqSt → SeqSt) : (setSeq s f).tick = s.tick := rfl
@[simp] theorem setSeq_resetTick (f : SeqSt → SeqSt) : (setSeq s f).resetTick = s.resetTick := rfl
@[simp] theorem setSeq_free (f : SeqSt → SeqSt) : (setSeq s f).free = s.free := rfl
@[simp] theorem setSeq_live (f : SeqSt → SeqSt) : (setSeq s f).live = s.live := rfl
@[simp] theorem setSeq_repl (f : SeqSt → SeqSt) : (setSeq s f).repl = s.repl := rfl
@[simp] theorem setSeq_captures (f : SeqSt → SeqSt) : (setSeq s f).captures = s.captures := rfl
@[simp] theorem setSeq_engMem (f : SeqSt → SeqSt) : (setSeq s f).engMem = s.engMem := rfl
@[simp] theorem setSeq_nvm (f : SeqSt → SeqSt) : (setSeq s f).nvm = s.nvm := rfl
@[simp] theorem setSeq_time (f : SeqSt → SeqSt) : (setSeq s f).time = s.time := rfl
@[simp] theorem setSeq_sched (f : SeqSt → SeqSt) : (setSeq s f).sched = s.sched := rfl
@[simp] theorem setSeq_ports (f : SeqSt → SeqSt) : (setSeq s f).ports = s.ports := rfl
@[simp] theorem setSeq_cmps (f : SeqSt → SeqSt) : (setSeq s f).cmps = s.cmps := rfl
@[simp] theorem setSeq_loops (f : SeqSt → SeqSt) : (setSeq s f).loops = s.loops := rfl
@[simp] theorem setSeq_capo (f : SeqSt → SeqSt) : (setSeq s f).capo = s.capo := rfl
@[simp] theorem setSeq_feeds (f : SeqSt → SeqSt) : (setSeq s f).feeds = s.feeds := rfl
@[simp] theorem setSeq_seq (f : SeqSt → SeqSt) : (setSeq s f).seq = f s.seq := rfl
@[simp] theorem setSeq_hk (f : SeqSt → SeqSt) : (setSeq s f).hk = s.hk := rfl
@[simp] theorem setSeq_battEngine (f : SeqSt → SeqSt) : (setSeq s f).battEngine = s.battEngine := rfl
@[simp] theorem setSeq_batts (f : SeqSt → SeqSt) : (setSeq s f).batts = s.batts := rfl
@[simp] theorem setSeq_harn (f : SeqSt → SeqSt) : (setSeq s f).harn = s.harn := rfl
@[simp] theorem setSeq_queues (f : SeqSt → SeqSt) : (setSeq s f).queues = s.queues := rfl
@[simp] theorem setSeq_host (f : SeqSt → SeqSt) : (setSeq s f).host = s.host := rfl
@[simp] theorem setSeq_fault (f : SeqSt → SeqSt) : (setSeq s f).fault = s.fault := rfl
@[simp] theorem setSeq_saddle (f : SeqSt → SeqSt) : (setSeq s f).saddle = s.saddle := rfl
@[simp] theorem setSeq_trust (f : SeqSt → SeqSt) : (setSeq s f).trust = s.trust := rfl
@[simp] theorem setSeq_power (f : SeqSt → SeqSt) : (setSeq s f).power = s.power := rfl
@[simp] theorem setSeq_test (f : SeqSt → SeqSt) : (setSeq s f).test = s.test := rfl

/-! ### setTest -/

@[simp] theorem setTest_pending (f : TestSt → TestSt) : (setTest s f).pending = s.pending := rfl
@[simp] theorem setTest_tick (f : TestSt → TestSt) : (setTest s f).tick = s.tick := rfl
@[simp] theorem setTest_resetTick (f : TestSt → TestSt) : (setTest s f).resetTick = s.resetTick := rfl
@[simp] theorem setTest_free (f : TestSt → TestSt) : (setTest s f).free = s.free := rfl
@[simp] theorem setTest_live (f : TestSt → TestSt) : (setTest s f).live = s.live := rfl
@[simp] theorem setTest_repl (f : TestSt → TestSt) : (setTest s f).repl = s.repl := rfl
@[simp] theorem setTest_captures (f : TestSt → TestSt) : (setTest s f).captures = s.captures := rfl
@[simp] theorem setTest_engMem (f : TestSt → TestSt) : (setTest s f).engMem = s.engMem := rfl
@[simp] theorem setTest_nvm (f : TestSt → TestSt) : (setTest s f).nvm = s.nvm := rfl
@[simp] theorem setTest_time (f : TestSt → TestSt) : (setTest s f).time = s.time := rfl
@[simp] theorem setTest_sched (f : TestSt → TestSt) : (setTest s f).sched = s.sched := rfl
@[simp] theorem setTest_ports (f : TestSt → TestSt) : (setTest s f).ports = s.ports := rfl
@[simp] theorem setTest_cmps (f : TestSt → TestSt) : (setTest s f).cmps = s.cmps := rfl
@[simp] theorem setTest_loops (f : TestSt → TestSt) : (setTest s f).loops = s.loops := rfl
@[simp] theorem setTest_capo (f : TestSt → TestSt) : (setTest s f).capo = s.capo := rfl
@[simp] theorem setTest_feeds (f : TestSt → TestSt) : (setTest s f).feeds = s.feeds := rfl
@[simp] theorem setTest_seq (f : TestSt → TestSt) : (setTest s f).seq = s.seq := rfl
@[simp] theorem setTest_hk (f : TestSt → TestSt) : (setTest s f).hk = s.hk := rfl
@[simp] theorem setTest_battEngine (f : TestSt → TestSt) : (setTest s f).battEngine = s.battEngine := rfl
@[simp] theorem setTest_batts (f : TestSt → TestSt) : (setTest s f).batts = s.batts := rfl
@[simp] theorem setTest_harn (f : TestSt → TestSt) : (setTest s f).harn = s.harn := rfl
@[simp] theorem setTest_queues (f : TestSt → TestSt) : (setTest s f).queues = s.queues := rfl
@[simp] theorem setTest_host (f : TestSt → TestSt) : (setTest s f).host = s.host := rfl
@[simp] theorem setTest_fault (f : TestSt → TestSt) : (setTest s f).fault = s.fault := rfl
@[simp] theorem setTest_saddle (f : TestSt → TestSt) : (setTest s f).saddle = s.saddle := rfl
@[simp] theorem setTest_trust (f : TestSt → TestSt) : (setTest s f).trust = s.trust := rfl
@[simp] theorem setTest_power (f : TestSt → TestSt) : (setTest s f).power = s.power := rfl
@[simp] theorem setTest_test (f : TestSt → TestSt) : (setTest s f).test = f s.test := rfl

/-! ### setTime -/

@[simp] theorem setTime_pending (f : TimeSt → TimeSt) : (setTime s f).pending = s.pending := rfl
@[simp] theorem setTime_tick (f : TimeSt → TimeSt) : (setTime s f).tick = s.tick := rfl
@[simp] theorem setTime_resetTick (f : TimeSt → TimeSt) : (setTime s f).resetTick = s.resetTick := rfl
@[simp] theorem setTime_free (f : TimeSt → TimeSt) : (setTime s f).free = s.free := rfl
@[simp] theorem setTime_live (f : TimeSt → TimeSt) : (setTime s f).live = s.live := rfl
@[simp] theorem setTime_repl (f : TimeSt → TimeSt) : (setTime s f).repl = s.repl := rfl
@[simp] theorem setTime_captures (f : TimeSt → TimeSt) : (setTime s f).captures = s.captures := rfl
@[simp] theorem setTime_engMem (f : TimeSt → TimeSt) : (setTime s f).engMem = s.engMem := rfl
@[simp] theorem setTime_nvm (f : TimeSt → TimeSt) : (setTime s f).nvm = s.nvm := rfl
@[simp] theorem setTime_time (f : TimeSt → TimeSt) : (setTime s f).time = f s.time := rfl
@[simp] theorem setTime_sched (f : TimeSt → TimeSt) : (setTime s f).sched = s.sched := rfl
@[simp] theorem setTime_ports (f : TimeSt → TimeSt) : (setTime s f).ports = s.ports := rfl
@[simp] theorem setTime_cmps (f : TimeSt → TimeSt) : (setTime s f).cmps = s.cmps := rfl
@[simp] theorem setTime_loops (f : TimeSt → TimeSt) : (setTime s f).loops = s.loops := rfl
@[simp] theorem setTime_capo (f : TimeSt → TimeSt) : (setTime s f).capo = s.capo := rfl
@[simp] theorem setTime_feeds (f : TimeSt → TimeSt) : (setTime s f).feeds = s.feeds := rfl
@[simp] theorem setTime_seq (f : TimeSt → TimeSt) : (setTime s f).seq = s.seq := rfl
@[simp] theorem setTime_hk (f : TimeSt → TimeSt) : (setTime s f).hk = s.hk := rfl
@[simp] theorem setTime_battEngine (f : TimeSt → TimeSt) : (setTime s f).battEngine = s.battEngine := rfl
@[simp] theorem setTime_batts (f : TimeSt → TimeSt) : (setTime s f).batts = s.batts := rfl
@[simp] theorem setTime_harn (f : TimeSt → TimeSt) : (setTime s f).harn = s.harn := rfl
@[simp] theorem setTime_queues (f : TimeSt → TimeSt) : (setTime s f).queues = s.queues := rfl
@[simp] theorem setTime_host (f : TimeSt → TimeSt) : (setTime s f).host = s.host := rfl
@[simp] theorem setTime_fault (f : TimeSt → TimeSt) : (setTime s f).fault = s.fault := rfl
@[simp] theorem setTime_saddle (f : TimeSt → TimeSt) : (setTime s f).saddle = s.saddle := rfl
@[simp] theorem setTime_trust (f : TimeSt → TimeSt) : (setTime s f).trust = s.trust := rfl
@[simp] theorem setTime_power (f : TimeSt → TimeSt) : (setTime s f).power = s.power := rfl
@[simp] theorem setTime_test (f : TimeSt → TimeSt) : (setTime s f).test = s.test := rfl

/-! ### setTrust -/

@[simp] theorem setTrust_pending (f : TrustSt → TrustSt) : (setTrust s f).pending = s.pending := rfl
@[simp] theorem setTrust_tick (f : TrustSt → TrustSt) : (setTrust s f).tick = s.tick := rfl
@[simp] theorem setTrust_resetTick (f : TrustSt → TrustSt) : (setTrust s f).resetTick = s.resetTick := rfl
@[simp] theorem setTrust_free (f : TrustSt → TrustSt) : (setTrust s f).free = s.free := rfl
@[simp] theorem setTrust_live (f : TrustSt → TrustSt) : (setTrust s f).live = s.live := rfl
@[simp] theorem setTrust_repl (f : TrustSt → TrustSt) : (setTrust s f).repl = s.repl := rfl
@[simp] theorem setTrust_captures (f : TrustSt → TrustSt) : (setTrust s f).captures = s.captures := rfl
@[simp] theorem setTrust_engMem (f : TrustSt → TrustSt) : (setTrust s f).engMem = s.engMem := rfl
@[simp] theorem setTrust_nvm (f : TrustSt → TrustSt) : (setTrust s f).nvm = s.nvm := rfl
@[simp] theorem setTrust_time (f : TrustSt → TrustSt) : (setTrust s f).time = s.time := rfl
@[simp] theorem setTrust_sched (f : TrustSt → TrustSt) : (setTrust s f).sched = s.sched := rfl
@[simp] theorem setTrust_ports (f : TrustSt → TrustSt) : (setTrust s f).ports = s.ports := rfl
@[simp] theorem setTrust_cmps (f : TrustSt → TrustSt) : (setTrust s f).cmps = s.cmps := rfl
@[simp] theorem setTrust_loops (f : TrustSt → TrustSt) : (setTrust s f).loops = s.loops := rfl
@[simp] theorem setTrust_capo (f : TrustSt → TrustSt) : (setTrust s f).capo = s.capo := rfl
@[simp] theorem setTrust_feeds (f : TrustSt → TrustSt) : (setTrust s f).feeds = s.feeds := rfl
@[simp] theorem setTrust_seq (f : TrustSt → TrustSt) : (setTrust s f).seq = s.seq := rfl
@[simp] theorem setTrust_hk (f : TrustSt → TrustSt) : (setTrust s f).hk = s.hk := rfl
@[simp] theorem setTrust_battEngine (f : TrustSt → TrustSt) : (setTrust s f).battEngine = s.battEngine := rfl
@[simp] theorem setTrust_batts (f : TrustSt → TrustSt) : (setTrust s f).batts = s.batts := rfl
@[simp] theorem setTrust_harn (f : TrustSt → TrustSt) : (setTrust s f).harn = s.harn := rfl
@[simp] theorem setTrust_queues (f : TrustSt → TrustSt) : (setTrust s f).queues = s.queues := rfl
@[simp] theorem setTrust_host (f : TrustSt → TrustSt) : (setTrust s f).host = s.host := rfl
@[simp] theorem setTrust_fault (f : TrustSt → TrustSt) : (setTrust s f).fault = s.fault := rfl
@[simp] theorem setTrust_saddle (f : TrustSt → TrustSt) : (setTrust s f).saddle = s.saddle := rfl
@[simp] theorem setTrust_trust (f : TrustSt → TrustSt) : (setTrust s f).trust = f s.trust := rfl
@[simp] theorem setTrust_power (f : TrustSt → TrustSt) : (setTrust s f).power = s.power := rfl
@[simp] theorem setTrust_test (f : TrustSt → TrustSt) : (setTrust s f).test = s.test := rfl

/-! ### ledgerAdd -/

@[simp] theorem ledgerAdd_pending (off k : Nat) : (ledgerAdd s off k).pending = s.pending := rfl
@[simp] theorem ledgerAdd_tick (off k : Nat) : (ledgerAdd s off k).tick = s.tick := rfl
@[simp] theorem ledgerAdd_resetTick (off k : Nat) : (ledgerAdd s off k).resetTick = s.resetTick := rfl
@[simp] theorem ledgerAdd_free (off k : Nat) : (ledgerAdd s off k).free = s.free := rfl
@[simp] theorem ledgerAdd_live (off k : Nat) : (ledgerAdd s off k).live = s.live := rfl
@[simp] theorem ledgerAdd_repl (off k : Nat) : (ledgerAdd s off k).repl = s.repl := rfl
@[simp] theorem ledgerAdd_captures (off k : Nat) : (ledgerAdd s off k).captures = s.captures := rfl
@[simp] theorem ledgerAdd_engMem (off k : Nat) : (ledgerAdd s off k).engMem = s.engMem := rfl
@[simp] theorem ledgerAdd_nvm (off k : Nat) : (ledgerAdd s off k).nvm = s.nvm := rfl
@[simp] theorem ledgerAdd_time (off k : Nat) : (ledgerAdd s off k).time = s.time := rfl
@[simp] theorem ledgerAdd_sched (off k : Nat) : (ledgerAdd s off k).sched = s.sched := rfl
@[simp] theorem ledgerAdd_ports (off k : Nat) : (ledgerAdd s off k).ports = s.ports := rfl
@[simp] theorem ledgerAdd_cmps (off k : Nat) : (ledgerAdd s off k).cmps = s.cmps := rfl
@[simp] theorem ledgerAdd_loops (off k : Nat) : (ledgerAdd s off k).loops = s.loops := rfl
@[simp] theorem ledgerAdd_capo (off k : Nat) : (ledgerAdd s off k).capo = s.capo := rfl
@[simp] theorem ledgerAdd_feeds (off k : Nat) : (ledgerAdd s off k).feeds = s.feeds := rfl
@[simp] theorem ledgerAdd_seq (off k : Nat) : (ledgerAdd s off k).seq = s.seq := rfl
@[simp] theorem ledgerAdd_hk (off k : Nat) : (ledgerAdd s off k).hk = s.hk := rfl
@[simp] theorem ledgerAdd_battEngine (off k : Nat) : (ledgerAdd s off k).battEngine = s.battEngine := rfl
@[simp] theorem ledgerAdd_batts (off k : Nat) : (ledgerAdd s off k).batts = s.batts := rfl
@[simp] theorem ledgerAdd_harn (off k : Nat) : (ledgerAdd s off k).harn = s.harn := rfl
@[simp] theorem ledgerAdd_queues (off k : Nat) : (ledgerAdd s off k).queues = s.queues := rfl
@[simp] theorem ledgerAdd_host (off k : Nat) : (ledgerAdd s off k).host = s.host := rfl
@[simp] theorem ledgerAdd_fault (off k : Nat) : (ledgerAdd s off k).fault = s.fault := rfl
@[simp] theorem ledgerAdd_trust (off k : Nat) : (ledgerAdd s off k).trust = s.trust := rfl
@[simp] theorem ledgerAdd_power (off k : Nat) : (ledgerAdd s off k).power = s.power := rfl
@[simp] theorem ledgerAdd_test (off k : Nat) : (ledgerAdd s off k).test = s.test := rfl

/-! ### State.idle -/

@[simp] theorem State.idle_pending : (s.idle).pending = s.pending := rfl
@[simp] theorem State.idle_tick : (s.idle).tick = s.tick + 1 := rfl
@[simp] theorem State.idle_resetTick : (s.idle).resetTick = s.resetTick := rfl
@[simp] theorem State.idle_free : (s.idle).free = s.free := rfl
@[simp] theorem State.idle_live : (s.idle).live = s.live := rfl
@[simp] theorem State.idle_repl : (s.idle).repl = s.repl := rfl
@[simp] theorem State.idle_captures : (s.idle).captures = s.captures := rfl
@[simp] theorem State.idle_engMem : (s.idle).engMem = s.engMem := rfl
@[simp] theorem State.idle_nvm : (s.idle).nvm = s.nvm := rfl
@[simp] theorem State.idle_time : (s.idle).time = s.time := rfl
@[simp] theorem State.idle_sched : (s.idle).sched = s.sched := rfl
@[simp] theorem State.idle_ports : (s.idle).ports = s.ports := rfl
@[simp] theorem State.idle_cmps : (s.idle).cmps = s.cmps := rfl
@[simp] theorem State.idle_loops : (s.idle).loops = s.loops := rfl
@[simp] theorem State.idle_capo : (s.idle).capo = s.capo := rfl
@[simp] theorem State.idle_feeds : (s.idle).feeds = s.feeds := rfl
@[simp] theorem State.idle_seq : (s.idle).seq = s.seq := rfl
@[simp] theorem State.idle_hk : (s.idle).hk = s.hk := rfl
@[simp] theorem State.idle_battEngine : (s.idle).battEngine = s.battEngine := rfl
@[simp] theorem State.idle_batts : (s.idle).batts = s.batts := rfl
@[simp] theorem State.idle_harn : (s.idle).harn = s.harn := rfl
@[simp] theorem State.idle_queues : (s.idle).queues = s.queues := rfl
@[simp] theorem State.idle_host : (s.idle).host = s.host := rfl
@[simp] theorem State.idle_fault : (s.idle).fault = s.fault := rfl
@[simp] theorem State.idle_saddle : (s.idle).saddle = s.saddle := rfl
@[simp] theorem State.idle_trust : (s.idle).trust = s.trust := rfl
@[simp] theorem State.idle_power : (s.idle).power = s.power := rfl
@[simp] theorem State.idle_test : (s.idle).test = s.test := rfl

/-! ### State.push -/

@[simp] theorem State.push_pending (c : Instr) : (s.push c).pending = c :: s.pending := rfl
@[simp] theorem State.push_tick (c : Instr) : (s.push c).tick = s.tick := rfl
@[simp] theorem State.push_resetTick (c : Instr) : (s.push c).resetTick = s.resetTick := rfl
@[simp] theorem State.push_free (c : Instr) : (s.push c).free = s.free := rfl
@[simp] theorem State.push_live (c : Instr) : (s.push c).live = s.live := rfl
@[simp] theorem State.push_repl (c : Instr) : (s.push c).repl = s.repl := rfl
@[simp] theorem State.push_captures (c : Instr) : (s.push c).captures = s.captures := rfl
@[simp] theorem State.push_engMem (c : Instr) : (s.push c).engMem = s.engMem := rfl
@[simp] theorem State.push_nvm (c : Instr) : (s.push c).nvm = s.nvm := rfl
@[simp] theorem State.push_time (c : Instr) : (s.push c).time = s.time := rfl
@[simp] theorem State.push_sched (c : Instr) : (s.push c).sched = s.sched := rfl
@[simp] theorem State.push_ports (c : Instr) : (s.push c).ports = s.ports := rfl
@[simp] theorem State.push_cmps (c : Instr) : (s.push c).cmps = s.cmps := rfl
@[simp] theorem State.push_loops (c : Instr) : (s.push c).loops = s.loops := rfl
@[simp] theorem State.push_capo (c : Instr) : (s.push c).capo = s.capo := rfl
@[simp] theorem State.push_feeds (c : Instr) : (s.push c).feeds = s.feeds := rfl
@[simp] theorem State.push_seq (c : Instr) : (s.push c).seq = s.seq := rfl
@[simp] theorem State.push_hk (c : Instr) : (s.push c).hk = s.hk := rfl
@[simp] theorem State.push_battEngine (c : Instr) : (s.push c).battEngine = s.battEngine := rfl
@[simp] theorem State.push_batts (c : Instr) : (s.push c).batts = s.batts := rfl
@[simp] theorem State.push_harn (c : Instr) : (s.push c).harn = s.harn := rfl
@[simp] theorem State.push_queues (c : Instr) : (s.push c).queues = s.queues := rfl
@[simp] theorem State.push_host (c : Instr) : (s.push c).host = s.host := rfl
@[simp] theorem State.push_fault (c : Instr) : (s.push c).fault = s.fault := rfl
@[simp] theorem State.push_saddle (c : Instr) : (s.push c).saddle = s.saddle := rfl
@[simp] theorem State.push_trust (c : Instr) : (s.push c).trust = s.trust := rfl
@[simp] theorem State.push_power (c : Instr) : (s.push c).power = s.power := rfl
@[simp] theorem State.push_test (c : Instr) : (s.push c).test = s.test := rfl

end Sys2Proof.Machine
end

