-- ==== Sys2Proof/Laws/Reads.lean ====
section
/-! SUPPORT. Sys2Proof/Laws/Reads.lean: an update of a part of the state that holds no register leaves every register as it reads, and
an update that holds no memory leaves every byte; one lemma per update and way of reading, each by unfolding. -/

-- In the package as one text, proofs elaborated side by side ask for more threads than memory allows.
set_option Elab.async false

namespace Sys2Proof.Machine

variable (s : State)

/-! ### wr -/

@[simp] theorem engByte_wr (a' : Nat) (v : Word) (o : Nat) : engByte (wr s a' v) o = engByte s o := rfl
@[simp] theorem nvmByte_wr (a' : Nat) (v : Word) (o : Nat) : nvmByte (wr s a' v) o = nvmByte s o := rfl

/-! ### engSetByte -/

@[simp] theorem rd_engSetByte (o' : Nat) (b : Byte) (a : Nat) : rd (engSetByte s o' b) a = rd s a := rfl
@[simp] theorem fget_engSetByte (o' : Nat) (b : Byte) (g : Field) : fget (engSetByte s o' b) g = fget s g := rfl
@[simp] theorem bit_engSetByte (o' : Nat) (b : Byte) (g : Field) : bit (engSetByte s o' b) g = bit s g := rfl
@[simp] theorem fbit_engSetByte (o' : Nat) (b : Byte) (g : Field) (n : Nat) : fbit (engSetByte s o' b) g n = fbit s g n := rfl
@[simp] theorem fgetS_engSetByte (o' : Nat) (b : Byte) (g : Field) : fgetS (engSetByte s o' b) g = fgetS s g := rfl
@[simp] theorem devState_engSetByte (o' : Nat) (b : Byte) : devState (engSetByte s o' b) = devState s := rfl
@[simp] theorem nvmByte_engSetByte (o' : Nat) (b : Byte) (o : Nat) : nvmByte (engSetByte s o' b) o = nvmByte s o := rfl

/-! ### nvmSetByte -/

@[simp] theorem rd_nvmSetByte (o' : Nat) (b : Byte) (a : Nat) : rd (nvmSetByte s o' b) a = rd s a := rfl
@[simp] theorem fget_nvmSetByte (o' : Nat) (b : Byte) (g : Field) : fget (nvmSetByte s o' b) g = fget s g := rfl
@[simp] theorem bit_nvmSetByte (o' : Nat) (b : Byte) (g : Field) : bit (nvmSetByte s o' b) g = bit s g := rfl
@[simp] theorem fbit_nvmSetByte (o' : Nat) (b : Byte) (g : Field) (n : Nat) : fbit (nvmSetByte s o' b) g n = fbit s g n := rfl
@[simp] theorem fgetS_nvmSetByte (o' : Nat) (b : Byte) (g : Field) : fgetS (nvmSetByte s o' b) g = fgetS s g := rfl
@[simp] theorem devState_nvmSetByte (o' : Nat) (b : Byte) : devState (nvmSetByte s o' b) = devState s := rfl
@[simp] theorem engByte_nvmSetByte (o' : Nat) (b : Byte) (o : Nat) : engByte (nvmSetByte s o' b) o = engByte s o := rfl

/-! ### fput -/

@[simp] theorem engByte_fput (f : Field) (v : Nat) (o : Nat) : engByte (fput s f v) o = engByte s o := rfl
@[simp] theorem nvmByte_fput (f : Field) (v : Nat) (o : Nat) : nvmByte (fput s f v) o = nvmByte s o := rfl

/-! ### fputS -/

@[simp] theorem engByte_fputS (f : Field) (v : Int) (o : Nat) : engByte (fputS s f v) o = engByte s o := rfl
@[simp] theorem nvmByte_fputS (f : Field) (v : Int) (o : Nat) : nvmByte (fputS s f v) o = nvmByte s o := rfl

/-! ### fputB -/

@[simp] theorem engByte_fputB (f : Field) (b : Bool) (o : Nat) : engByte (fputB s f b) o = engByte s o := rfl
@[simp] theorem nvmByte_fputB (f : Field) (b : Bool) (o : Nat) : nvmByte (fputB s f b) o = nvmByte s o := rfl

/-! ### raise -/

@[simp] theorem engByte_raise (f : Field) (o : Nat) : engByte (raise s f) o = engByte s o := rfl
@[simp] theorem nvmByte_raise (f : Field) (o : Nat) : nvmByte (raise s f) o = nvmByte s o := rfl

/-! ### inc -/

@[simp] theorem engByte_inc (f : Field) (o : Nat) : engByte (inc s f) o = engByte s o := rfl
@[simp] theorem nvmByte_inc (f : Field) (o : Nat) : nvmByte (inc s f) o = nvmByte s o := rfl

/-! ### fputBit -/

@[simp] theorem engByte_fputBit (f : Field) (n' : Nat) (b : Bool) (o : Nat) : engByte (fputBit s f n' b) o = engByte s o := rfl
@[simp] theorem nvmByte_fputBit (f : Field) (n' : Nat) (b : Bool) (o : Nat) : nvmByte (fputBit s f n' b) o = nvmByte s o := rfl

/-! ### setDev -/

@[simp] theorem engByte_setDev (d : DevState) (o : Nat) : engByte (setDev s d) o = engByte s o := rfl
@[simp] theorem nvmByte_setDev (d : DevState) (o : Nat) : nvmByte (setDev s d) o = nvmByte s o := rfl

/-! ### wr64 -/

@[simp] theorem engByte_wr64 (lo hi v : Nat) (o : Nat) : engByte (wr64 s lo hi v) o = engByte s o := rfl
@[simp] theorem nvmByte_wr64 (lo hi v : Nat) (o : Nat) : nvmByte (wr64 s lo hi v) o = nvmByte s o := rfl

/-! ### setBatt -/

@[simp] theorem rd_setBatt (b : Fin 2) (f : BattSt → BattSt) (a : Nat) : rd (setBatt s b f) a = rd s a := rfl
@[simp] theorem fget_setBatt (b : Fin 2) (f : BattSt → BattSt) (g : Field) : fget (setBatt s b f) g = fget s g := rfl
@[simp] theorem bit_setBatt (b : Fin 2) (f : BattSt → BattSt) (g : Field) : bit (setBatt s b f) g = bit s g := rfl
@[simp] theorem fbit_setBatt (b : Fin 2) (f : BattSt → BattSt) (g : Field) (n : Nat) : fbit (setBatt s b f) g n = fbit s g n := rfl
@[simp] theorem fgetS_setBatt (b : Fin 2) (f : BattSt → BattSt) (g : Field) : fgetS (setBatt s b f) g = fgetS s g := rfl
@[simp] theorem devState_setBatt (b : Fin 2) (f : BattSt → BattSt) : devState (setBatt s b f) = devState s := rfl
@[simp] theorem engByte_setBatt (b : Fin 2) (f : BattSt → BattSt) (o : Nat) : engByte (setBatt s b f) o = engByte s o := rfl
@[simp] theorem nvmByte_setBatt (b : Fin 2) (f : BattSt → BattSt) (o : Nat) : nvmByte (setBatt s b f) o = nvmByte s o := rfl

/-! ### setCapo -/

@[simp] theorem rd_setCapo (f : CapoSt → CapoSt) (a : Nat) : rd (setCapo s f) a = rd s a := rfl
@[simp] theorem fget_setCapo (f : CapoSt → CapoSt) (g : Field) : fget (setCapo s f) g = fget s g := rfl
@[simp] theorem bit_setCapo (f : CapoSt → CapoSt) (g : Field) : bit (setCapo s f) g = bit s g := rfl
@[simp] theorem fbit_setCapo (f : CapoSt → CapoSt) (g : Field) (n : Nat) : fbit (setCapo s f) g n = fbit s g n := rfl
@[simp] theorem fgetS_setCapo (f : CapoSt → CapoSt) (g : Field) : fgetS (setCapo s f) g = fgetS s g := rfl
@[simp] theorem devState_setCapo (f : CapoSt → CapoSt) : devState (setCapo s f) = devState s := rfl
@[simp] theorem engByte_setCapo (f : CapoSt → CapoSt) (o : Nat) : engByte (setCapo s f) o = engByte s o := rfl
@[simp] theorem nvmByte_setCapo (f : CapoSt → CapoSt) (o : Nat) : nvmByte (setCapo s f) o = nvmByte s o := rfl

/-! ### setCmp -/

@[simp] theorem rd_setCmp (p : Fin 32) (c : Fin 4) (f : CmpSt → CmpSt) (a : Nat) : rd (setCmp s p c f) a = rd s a := rfl
@[simp] theorem fget_setCmp (p : Fin 32) (c : Fin 4) (f : CmpSt → CmpSt) (g : Field) : fget (setCmp s p c f) g = fget s g := rfl
@[simp] theorem bit_setCmp (p : Fin 32) (c : Fin 4) (f : CmpSt → CmpSt) (g : Field) : bit (setCmp s p c f) g = bit s g := rfl
@[simp] theorem fbit_setCmp (p : Fin 32) (c : Fin 4) (f : CmpSt → CmpSt) (g : Field) (n : Nat) : fbit (setCmp s p c f) g n = fbit s g n := rfl
@[simp] theorem fgetS_setCmp (p : Fin 32) (c : Fin 4) (f : CmpSt → CmpSt) (g : Field) : fgetS (setCmp s p c f) g = fgetS s g := rfl
@[simp] theorem devState_setCmp (p : Fin 32) (c : Fin 4) (f : CmpSt → CmpSt) : devState (setCmp s p c f) = devState s := rfl
@[simp] theorem engByte_setCmp (p : Fin 32) (c : Fin 4) (f : CmpSt → CmpSt) (o : Nat) : engByte (setCmp s p c f) o = engByte s o := rfl
@[simp] theorem nvmByte_setCmp (p : Fin 32) (c : Fin 4) (f : CmpSt → CmpSt) (o : Nat) : nvmByte (setCmp s p c f) o = nvmByte s o := rfl

/-! ### setLoop -/

@[simp] theorem rd_setLoop (n' : Fin 64) (f : LoopSt → LoopSt) (a : Nat) : rd (setLoop s n' f) a = rd s a := rfl
@[simp] theorem fget_setLoop (n' : Fin 64) (f : LoopSt → LoopSt) (g : Field) : fget (setLoop s n' f) g = fget s g := rfl
@[simp] theorem bit_setLoop (n' : Fin 64) (f : LoopSt → LoopSt) (g : Field) : bit (setLoop s n' f) g = bit s g := rfl
@[simp] theorem fbit_setLoop (n' : Fin 64) (f : LoopSt → LoopSt) (g : Field) (n : Nat) : fbit (setLoop s n' f) g n = fbit s g n := rfl
@[simp] theorem fgetS_setLoop (n' : Fin 64) (f : LoopSt → LoopSt) (g : Field) : fgetS (setLoop s n' f) g = fgetS s g := rfl
@[simp] theorem devState_setLoop (n' : Fin 64) (f : LoopSt → LoopSt) : devState (setLoop s n' f) = devState s := rfl
@[simp] theorem engByte_setLoop (n' : Fin 64) (f : LoopSt → LoopSt) (o : Nat) : engByte (setLoop s n' f) o = engByte s o := rfl
@[simp] theorem nvmByte_setLoop (n' : Fin 64) (f : LoopSt → LoopSt) (o : Nat) : nvmByte (setLoop s n' f) o = nvmByte s o := rfl

/-! ### setFlt -/

@[simp] theorem rd_setFlt (f : FaultSt → FaultSt) (a : Nat) : rd (setFlt s f) a = rd s a := rfl
@[simp] theorem fget_setFlt (f : FaultSt → FaultSt) (g : Field) : fget (setFlt s f) g = fget s g := rfl
@[simp] theorem bit_setFlt (f : FaultSt → FaultSt) (g : Field) : bit (setFlt s f) g = bit s g := rfl
@[simp] theorem fbit_setFlt (f : FaultSt → FaultSt) (g : Field) (n : Nat) : fbit (setFlt s f) g n = fbit s g n := rfl
@[simp] theorem fgetS_setFlt (f : FaultSt → FaultSt) (g : Field) : fgetS (setFlt s f) g = fgetS s g := rfl
@[simp] theorem devState_setFlt (f : FaultSt → FaultSt) : devState (setFlt s f) = devState s := rfl
@[simp] theorem engByte_setFlt (f : FaultSt → FaultSt) (o : Nat) : engByte (setFlt s f) o = engByte s o := rfl
@[simp] theorem nvmByte_setFlt (f : FaultSt → FaultSt) (o : Nat) : nvmByte (setFlt s f) o = nvmByte s o := rfl

/-! ### setFeed -/

@[simp] theorem rd_setFeed (h : Fin 8) (f : FeedSt → FeedSt) (a : Nat) : rd (setFeed s h f) a = rd s a := rfl
@[simp] theorem fget_setFeed (h : Fin 8) (f : FeedSt → FeedSt) (g : Field) : fget (setFeed s h f) g = fget s g := rfl
@[simp] theorem bit_setFeed (h : Fin 8) (f : FeedSt → FeedSt) (g : Field) : bit (setFeed s h f) g = bit s g := rfl
@[simp] theorem fbit_setFeed (h : Fin 8) (f : FeedSt → FeedSt) (g : Field) (n : Nat) : fbit (setFeed s h f) g n = fbit s g n := rfl
@[simp] theorem fgetS_setFeed (h : Fin 8) (f : FeedSt → FeedSt) (g : Field) : fgetS (setFeed s h f) g = fgetS s g := rfl
@[simp] theorem devState_setFeed (h : Fin 8) (f : FeedSt → FeedSt) : devState (setFeed s h f) = devState s := rfl
@[simp] theorem engByte_setFeed (h : Fin 8) (f : FeedSt → FeedSt) (o : Nat) : engByte (setFeed s h f) o = engByte s o := rfl
@[simp] theorem nvmByte_setFeed (h : Fin 8) (f : FeedSt → FeedSt) (o : Nat) : nvmByte (setFeed s h f) o = nvmByte s o := rfl

/-! ### setHarn -/

@[simp] theorem rd_setHarn (f : HarnSt → HarnSt) (a : Nat) : rd (setHarn s f) a = rd s a := rfl
@[simp] theorem fget_setHarn (f : HarnSt → HarnSt) (g : Field) : fget (setHarn s f) g = fget s g := rfl
@[simp] theorem bit_setHarn (f : HarnSt → HarnSt) (g : Field) : bit (setHarn s f) g = bit s g := rfl
@[simp] theorem fbit_setHarn (f : HarnSt → HarnSt) (g : Field) (n : Nat) : fbit (setHarn s f) g n = fbit s g n := rfl
@[simp] theorem fgetS_setHarn (f : HarnSt → HarnSt) (g : Field) : fgetS (setHarn s f) g = fgetS s g := rfl
@[simp] theorem devState_setHarn (f : HarnSt → HarnSt) : devState (setHarn s f) = devState s := rfl
@[simp] theorem engByte_setHarn (f : HarnSt → HarnSt) (o : Nat) : engByte (setHarn s f) o = engByte s o := rfl
@[simp] theorem nvmByte_setHarn (f : HarnSt → HarnSt) (o : Nat) : nvmByte (setHarn s f) o = nvmByte s o := rfl

/-! ### setHk -/

@[simp] theorem rd_setHk (f : HkSt → HkSt) (a : Nat) : rd (setHk s f) a = rd s a := rfl
@[simp] theorem fget_setHk (f : HkSt → HkSt) (g : Field) : fget (setHk s f) g = fget s g := rfl
@[simp] theorem bit_setHk (f : HkSt → HkSt) (g : Field) : bit (setHk s f) g = bit s g := rfl
@[simp] theorem fbit_setHk (f : HkSt → HkSt) (g : Field) (n : Nat) : fbit (setHk s f) g n = fbit s g n := rfl
@[simp] theorem fgetS_setHk (f : HkSt → HkSt) (g : Field) : fgetS (setHk s f) g = fgetS s g := rfl
@[simp] theorem devState_setHk (f : HkSt → HkSt) : devState (setHk s f) = devState s := rfl
@[simp] theorem engByte_setHk (f : HkSt → HkSt) (o : Nat) : engByte (setHk s f) o = engByte s o := rfl
@[simp] theorem nvmByte_setHk (f : HkSt → HkSt) (o : Nat) : nvmByte (setHk s f) o = nvmByte s o := rfl

/-! ### setHost -/

@[simp] theorem rd_setHost (f : HostSt → HostSt) (a : Nat) : rd (setHost s f) a = rd s a := rfl
@[simp] theorem fget_setHost (f : HostSt → HostSt) (g : Field) : fget (setHost s f) g = fget s g := rfl
@[simp] theorem bit_setHost (f : HostSt → HostSt) (g : Field) : bit (setHost s f) g = bit s g := rfl
@[simp] theorem fbit_setHost (f : HostSt → HostSt) (g : Field) (n : Nat) : fbit (setHost s f) g n = fbit s g n := rfl
@[simp] theorem fgetS_setHost (f : HostSt → HostSt) (g : Field) : fgetS (setHost s f) g = fgetS s g := rfl
@[simp] theorem devState_setHost (f : HostSt → HostSt) : devState (setHost s f) = devState s := rfl
@[simp] theorem engByte_setHost (f : HostSt → HostSt) (o : Nat) : engByte (setHost s f) o = engByte s o := rfl
@[simp] theorem nvmByte_setHost (f : HostSt → HostSt) (o : Nat) : nvmByte (setHost s f) o = nvmByte s o := rfl

/-! ### setGate -/

@[simp] theorem rd_setGate (p : Fin 32) (g' : Gate) (f : GateSt → GateSt) (a : Nat) : rd (setGate s p g' f) a = rd s a := rfl
@[simp] theorem fget_setGate (p : Fin 32) (g' : Gate) (f : GateSt → GateSt) (g : Field) : fget (setGate s p g' f) g = fget s g := rfl
@[simp] theorem bit_setGate (p : Fin 32) (g' : Gate) (f : GateSt → GateSt) (g : Field) : bit (setGate s p g' f) g = bit s g := rfl
@[simp] theorem fbit_setGate (p : Fin 32) (g' : Gate) (f : GateSt → GateSt) (g : Field) (n : Nat) : fbit (setGate s p g' f) g n = fbit s g n := rfl
@[simp] theorem fgetS_setGate (p : Fin 32) (g' : Gate) (f : GateSt → GateSt) (g : Field) : fgetS (setGate s p g' f) g = fgetS s g := rfl
@[simp] theorem devState_setGate (p : Fin 32) (g' : Gate) (f : GateSt → GateSt) : devState (setGate s p g' f) = devState s := rfl
@[simp] theorem engByte_setGate (p : Fin 32) (g' : Gate) (f : GateSt → GateSt) (o : Nat) : engByte (setGate s p g' f) o = engByte s o := rfl
@[simp] theorem nvmByte_setGate (p : Fin 32) (g' : Gate) (f : GateSt → GateSt) (o : Nat) : nvmByte (setGate s p g' f) o = nvmByte s o := rfl

/-! ### setPower -/

@[simp] theorem rd_setPower (f : PowerSt → PowerSt) (a : Nat) : rd (setPower s f) a = rd s a := rfl
@[simp] theorem fget_setPower (f : PowerSt → PowerSt) (g : Field) : fget (setPower s f) g = fget s g := rfl
@[simp] theorem bit_setPower (f : PowerSt → PowerSt) (g : Field) : bit (setPower s f) g = bit s g := rfl
@[simp] theorem fbit_setPower (f : PowerSt → PowerSt) (g : Field) (n : Nat) : fbit (setPower s f) g n = fbit s g n := rfl
@[simp] theorem fgetS_setPower (f : PowerSt → PowerSt) (g : Field) : fgetS (setPower s f) g = fgetS s g := rfl
@[simp] theorem devState_setPower (f : PowerSt → PowerSt) : devState (setPower s f) = devState s := rfl
@[simp] theorem engByte_setPower (f : PowerSt → PowerSt) (o : Nat) : engByte (setPower s f) o = engByte s o := rfl
@[simp] theorem nvmByte_setPower (f : PowerSt → PowerSt) (o : Nat) : nvmByte (setPower s f) o = nvmByte s o := rfl

/-! ### setQueue -/

@[simp] theorem rd_setQueue (q : Fin 64) (f : QueueSt → QueueSt) (a : Nat) : rd (setQueue s q f) a = rd s a := rfl
@[simp] theorem fget_setQueue (q : Fin 64) (f : QueueSt → QueueSt) (g : Field) : fget (setQueue s q f) g = fget s g := rfl
@[simp] theorem bit_setQueue (q : Fin 64) (f : QueueSt → QueueSt) (g : Field) : bit (setQueue s q f) g = bit s g := rfl
@[simp] theorem fbit_setQueue (q : Fin 64) (f : QueueSt → QueueSt) (g : Field) (n : Nat) : fbit (setQueue s q f) g n = fbit s g n := rfl
@[simp] theorem fgetS_setQueue (q : Fin 64) (f : QueueSt → QueueSt) (g : Field) : fgetS (setQueue s q f) g = fgetS s g := rfl
@[simp] theorem devState_setQueue (q : Fin 64) (f : QueueSt → QueueSt) : devState (setQueue s q f) = devState s := rfl
@[simp] theorem engByte_setQueue (q : Fin 64) (f : QueueSt → QueueSt) (o : Nat) : engByte (setQueue s q f) o = engByte s o := rfl
@[simp] theorem nvmByte_setQueue (q : Fin 64) (f : QueueSt → QueueSt) (o : Nat) : nvmByte (setQueue s q f) o = nvmByte s o := rfl

/-! ### setRec -/

@[simp] theorem rd_setRec (f : RecSt → RecSt) (a : Nat) : rd (setRec s f) a = rd s a := rfl
@[simp] theorem fget_setRec (f : RecSt → RecSt) (g : Field) : fget (setRec s f) g = fget s g := rfl
@[simp] theorem bit_setRec (f : RecSt → RecSt) (g : Field) : bit (setRec s f) g = bit s g := rfl
@[simp] theorem fbit_setRec (f : RecSt → RecSt) (g : Field) (n : Nat) : fbit (setRec s f) g n = fbit s g n := rfl
@[simp] theorem fgetS_setRec (f : RecSt → RecSt) (g : Field) : fgetS (setRec s f) g = fgetS s g := rfl
@[simp] theorem devState_setRec (f : RecSt → RecSt) : devState (setRec s f) = devState s := rfl
@[simp] theorem engByte_setRec (f : RecSt → RecSt) (o : Nat) : engByte (setRec s f) o = engByte s o := rfl
@[simp] theorem nvmByte_setRec (f : RecSt → RecSt) (o : Nat) : nvmByte (setRec s f) o = nvmByte s o := rfl

/-! ### setSched -/

@[simp] theorem rd_setSched (f : SchedSt → SchedSt) (a : Nat) : rd (setSched s f) a = rd s a := rfl
@[simp] theorem fget_setSched (f : SchedSt → SchedSt) (g : Field) : fget (setSched s f) g = fget s g := rfl
@[simp] theorem bit_setSched (f : SchedSt → SchedSt) (g : Field) : bit (setSched s f) g = bit s g := rfl
@[simp] theorem fbit_setSched (f : SchedSt → SchedSt) (g : Field) (n : Nat) : fbit (setSched s f) g n = fbit s g n := rfl
@[simp] theorem fgetS_setSched (f : SchedSt → SchedSt) (g : Field) : fgetS (setSched s f) g = fgetS s g := rfl
@[simp] theorem devState_setSched (f : SchedSt → SchedSt) : devState (setSched s f) = devState s := rfl
@[simp] theorem engByte_setSched (f : SchedSt → SchedSt) (o : Nat) : engByte (setSched s f) o = engByte s o := rfl
@[simp] theorem nvmByte_setSched (f : SchedSt → SchedSt) (o : Nat) : nvmByte (setSched s f) o = nvmByte s o := rfl

/-! ### setSeq -/

@[simp] theorem rd_setSeq (f : SeqSt → SeqSt) (a : Nat) : rd (setSeq s f) a = rd s a := rfl
@[simp] theorem fget_setSeq (f : SeqSt → SeqSt) (g : Field) : fget (setSeq s f) g = fget s g := rfl
@[simp] theorem bit_setSeq (f : SeqSt → SeqSt) (g : Field) : bit (setSeq s f) g = bit s g := rfl
@[simp] theorem fbit_setSeq (f : SeqSt → SeqSt) (g : Field) (n : Nat) : fbit (setSeq s f) g n = fbit s g n := rfl
@[simp] theorem fgetS_setSeq (f : SeqSt → SeqSt) (g : Field) : fgetS (setSeq s f) g = fgetS s g := rfl
@[simp] theorem devState_setSeq (f : SeqSt → SeqSt) : devState (setSeq s f) = devState s := rfl
@[simp] theorem engByte_setSeq (f : SeqSt → SeqSt) (o : Nat) : engByte (setSeq s f) o = engByte s o := rfl
@[simp] theorem nvmByte_setSeq (f : SeqSt → SeqSt) (o : Nat) : nvmByte (setSeq s f) o = nvmByte s o := rfl

/-! ### setTest -/

@[simp] theorem rd_setTest (f : TestSt → TestSt) (a : Nat) : rd (setTest s f) a = rd s a := rfl
@[simp] theorem fget_setTest (f : TestSt → TestSt) (g : Field) : fget (setTest s f) g = fget s g := rfl
@[simp] theorem bit_setTest (f : TestSt → TestSt) (g : Field) : bit (setTest s f) g = bit s g := rfl
@[simp] theorem fbit_setTest (f : TestSt → TestSt) (g : Field) (n : Nat) : fbit (setTest s f) g n = fbit s g n := rfl
@[simp] theorem fgetS_setTest (f : TestSt → TestSt) (g : Field) : fgetS (setTest s f) g = fgetS s g := rfl
@[simp] theorem devState_setTest (f : TestSt → TestSt) : devState (setTest s f) = devState s := rfl
@[simp] theorem engByte_setTest (f : TestSt → TestSt) (o : Nat) : engByte (setTest s f) o = engByte s o := rfl
@[simp] theorem nvmByte_setTest (f : TestSt → TestSt) (o : Nat) : nvmByte (setTest s f) o = nvmByte s o := rfl

/-! ### setTime -/

@[simp] theorem rd_setTime (f : TimeSt → TimeSt) (a : Nat) : rd (setTime s f) a = rd s a := rfl
@[simp] theorem fget_setTime (f : TimeSt → TimeSt) (g : Field) : fget (setTime s f) g = fget s g := rfl
@[simp] theorem bit_setTime (f : TimeSt → TimeSt) (g : Field) : bit (setTime s f) g = bit s g := rfl
@[simp] theorem fbit_setTime (f : TimeSt → TimeSt) (g : Field) (n : Nat) : fbit (setTime s f) g n = fbit s g n := rfl
@[simp] theorem fgetS_setTime (f : TimeSt → TimeSt) (g : Field) : fgetS (setTime s f) g = fgetS s g := rfl
@[simp] theorem devState_setTime (f : TimeSt → TimeSt) : devState (setTime s f) = devState s := rfl
@[simp] theorem engByte_setTime (f : TimeSt → TimeSt) (o : Nat) : engByte (setTime s f) o = engByte s o := rfl
@[simp] theorem nvmByte_setTime (f : TimeSt → TimeSt) (o : Nat) : nvmByte (setTime s f) o = nvmByte s o := rfl

/-! ### setTrust -/

@[simp] theorem rd_setTrust (f : TrustSt → TrustSt) (a : Nat) : rd (setTrust s f) a = rd s a := rfl
@[simp] theorem fget_setTrust (f : TrustSt → TrustSt) (g : Field) : fget (setTrust s f) g = fget s g := rfl
@[simp] theorem bit_setTrust (f : TrustSt → TrustSt) (g : Field) : bit (setTrust s f) g = bit s g := rfl
@[simp] theorem fbit_setTrust (f : TrustSt → TrustSt) (g : Field) (n : Nat) : fbit (setTrust s f) g n = fbit s g n := rfl
@[simp] theorem fgetS_setTrust (f : TrustSt → TrustSt) (g : Field) : fgetS (setTrust s f) g = fgetS s g := rfl
@[simp] theorem devState_setTrust (f : TrustSt → TrustSt) : devState (setTrust s f) = devState s := rfl
@[simp] theorem engByte_setTrust (f : TrustSt → TrustSt) (o : Nat) : engByte (setTrust s f) o = engByte s o := rfl
@[simp] theorem nvmByte_setTrust (f : TrustSt → TrustSt) (o : Nat) : nvmByte (setTrust s f) o = nvmByte s o := rfl

/-! ### ledgerAdd -/

@[simp] theorem rd_ledgerAdd (off k : Nat) (a : Nat) : rd (ledgerAdd s off k) a = rd s a := rfl
@[simp] theorem fget_ledgerAdd (off k : Nat) (g : Field) : fget (ledgerAdd s off k) g = fget s g := rfl
@[simp] theorem bit_ledgerAdd (off k : Nat) (g : Field) : bit (ledgerAdd s off k) g = bit s g := rfl
@[simp] theorem fbit_ledgerAdd (off k : Nat) (g : Field) (n : Nat) : fbit (ledgerAdd s off k) g n = fbit s g n := rfl
@[simp] theorem fgetS_ledgerAdd (off k : Nat) (g : Field) : fgetS (ledgerAdd s off k) g = fgetS s g := rfl
@[simp] theorem devState_ledgerAdd (off k : Nat) : devState (ledgerAdd s off k) = devState s := rfl
@[simp] theorem engByte_ledgerAdd (off k : Nat) (o : Nat) : engByte (ledgerAdd s off k) o = engByte s o := rfl
@[simp] theorem nvmByte_ledgerAdd (off k : Nat) (o : Nat) : nvmByte (ledgerAdd s off k) o = nvmByte s o := rfl

/-! ### State.idle -/

@[simp] theorem rd_idle (a : Nat) : rd (s.idle) a = rd s a := rfl
@[simp] theorem fget_idle (g : Field) : fget (s.idle) g = fget s g := rfl
@[simp] theorem bit_idle (g : Field) : bit (s.idle) g = bit s g := rfl
@[simp] theorem fbit_idle (g : Field) (n : Nat) : fbit (s.idle) g n = fbit s g n := rfl
@[simp] theorem fgetS_idle (g : Field) : fgetS (s.idle) g = fgetS s g := rfl
@[simp] theorem devState_idle : devState (s.idle) = devState s := rfl
@[simp] theorem engByte_idle (o : Nat) : engByte (s.idle) o = engByte s o := rfl
@[simp] theorem nvmByte_idle (o : Nat) : nvmByte (s.idle) o = nvmByte s o := rfl

/-! ### State.push -/

@[simp] theorem rd_push (c : Instr) (a : Nat) : rd (s.push c) a = rd s a := rfl
@[simp] theorem fget_push (c : Instr) (g : Field) : fget (s.push c) g = fget s g := rfl
@[simp] theorem bit_push (c : Instr) (g : Field) : bit (s.push c) g = bit s g := rfl
@[simp] theorem fbit_push (c : Instr) (g : Field) (n : Nat) : fbit (s.push c) g n = fbit s g n := rfl
@[simp] theorem fgetS_push (c : Instr) (g : Field) : fgetS (s.push c) g = fgetS s g := rfl
@[simp] theorem devState_push (c : Instr) : devState (s.push c) = devState s := rfl
@[simp] theorem engByte_push (c : Instr) (o : Nat) : engByte (s.push c) o = engByte s o := rfl
@[simp] theorem nvmByte_push (c : Instr) (o : Nat) : nvmByte (s.push c) o = nvmByte s o := rfl

end Sys2Proof.Machine
end

