-- ==== Sys2Proof/Laws/Store.lean ====
section
/-! SUPPORT. Sys2Proof/Laws/Store.lean: the laws of a sparse store: what a key reads as after a write, that every operation keeps
the canonical form, and that two canonical stores that read alike are equal. -/

-- In the package as one text, proofs elaborated side by side ask for more threads than memory allows.
set_option Elab.async false

namespace Sys2Proof.Machine

variable {α : Type}

/-- A key reads its default once it is erased. -/
@[simp] theorem storeGet_storeErase_self (d : Nat → α) (m : List (Nat × α)) (a : Nat) : storeGet d (storeErase m a) a = d a := by
  induction m with
  | nil => rfl
  | cons e m ih => obtain ⟨k, v⟩ := e; by_cases h : k = a <;> simp [storeErase, storeGet, h, ih]

/-- Erasing one key leaves every other. -/
theorem storeGet_storeErase_of_ne (d : Nat → α) (m : List (Nat × α)) {a b : Nat} (h : b ≠ a) :
    storeGet d (storeErase m a) b = storeGet d m b := by
  induction m with
  | nil => rfl
  | cons e m ih =>
    obtain ⟨k, v⟩ := e
    by_cases hk : k = a
    · have hb : ¬ k = b := fun x => h (x.symm.trans hk)
      rw [storeErase, if_pos hk, ih, storeGet, if_neg hb]
    · simp [storeErase, storeGet, hk, ih]

/-- An erased key is not listed. -/
theorem not_mem_storeErase (m : List (Nat × α)) (a : Nat) : ∀ e ∈ storeErase m a, e.1 ≠ a := by
  induction m with
  | nil => simp [storeErase]
  | cons e m ih =>
    obtain ⟨k, v⟩ := e
    by_cases hk : k = a
    · simpa [storeErase, hk] using ih
    · intro e he
      simp only [storeErase, hk, if_false, List.mem_cons] at he
      rcases he with rfl | he
      · exact hk
      · exact ih e he

/-- Erasing only removes entries. -/
theorem mem_of_mem_storeErase (m : List (Nat × α)) (a : Nat) : ∀ e ∈ storeErase m a, e ∈ m := by
  induction m with
  | nil => simp [storeErase]
  | cons e m ih =>
    obtain ⟨k, v⟩ := e
    intro x hx
    by_cases hk : k = a
    · simp only [storeErase, hk, if_true] at hx; exact List.mem_cons_of_mem _ (ih x hx)
    · simp only [storeErase, hk, if_false, List.mem_cons] at hx ⊢; exact hx.imp_right (ih x)

/-- A key just inserted, and listed nowhere else, reads as inserted. -/
theorem storeGet_storeInsert_self (d : Nat → α) (m : List (Nat × α)) (a : Nat) (v : α) (h : ∀ e ∈ m, e.1 ≠ a) :
    storeGet d (storeInsert a v m) a = v := by
  induction m with
  | nil => simp [storeInsert, storeGet]
  | cons e m ih =>
    obtain ⟨k, w⟩ := e
    have hk : k ≠ a := h (k, w) List.mem_cons_self
    by_cases hl : a < k
    · simp [storeInsert, storeGet, hl]
    · simp [storeInsert, storeGet, hl, hk, ih fun x hx => h x (List.mem_cons_of_mem _ hx)]

/-- Inserting one key leaves every other. -/
theorem storeGet_storeInsert_of_ne (d : Nat → α) (m : List (Nat × α)) {a b : Nat} (v : α) (h : b ≠ a) :
    storeGet d (storeInsert a v m) b = storeGet d m b := by
  induction m with
  | nil => simp [storeInsert, storeGet, Ne.symm h]
  | cons e m ih =>
    obtain ⟨k, w⟩ := e
    by_cases hl : a < k
    · simp [storeInsert, storeGet, hl, Ne.symm h]
    · simp [storeInsert, storeGet, hl, ih]

/-- What an insertion lists. -/
theorem mem_storeInsert (m : List (Nat × α)) (a : Nat) (v : α) : ∀ e ∈ storeInsert a v m, e = (a, v) ∨ e ∈ m := by
  induction m with
  | nil => simp [storeInsert]
  | cons e m ih =>
    obtain ⟨k, w⟩ := e
    intro x hx
    by_cases hl : a < k
    · simpa [storeInsert, hl] using hx
    · simp only [storeInsert, hl, if_false, List.mem_cons] at hx ⊢
      rcases hx with rfl | hx
      · exact .inr (.inl rfl)
      · exact (ih x hx).imp_right .inr

variable [DecidableEq α]

/-- A write is read back. -/
@[simp] theorem storeGet_storeSet_self (d : Nat → α) (m : List (Nat × α)) (a : Nat) (v : α) : storeGet d (storeSet d m a v) a = v := by
  by_cases h : v = d a
  · simp [storeSet, h]
  · simp [storeSet, h, storeGet_storeInsert_self _ _ _ _ (not_mem_storeErase m a)]

/-- A write leaves every other key. -/
theorem storeGet_storeSet_of_ne (d : Nat → α) (m : List (Nat × α)) {a b : Nat} (v : α) (h : b ≠ a) :
    storeGet d (storeSet d m a v) b = storeGet d m b := by
  by_cases hv : v = d a
  · simp [storeSet, hv, storeGet_storeErase_of_ne d m h]
  · simp [storeSet, hv, storeGet_storeInsert_of_ne d _ v h, storeGet_storeErase_of_ne d m h]

/-- The canonical form of a store that lists something, part by part. -/
theorem storeWf_cons (d : Nat → α) (k : Nat) (v : α) (m : List (Nat × α)) :
    storeWf d ((k, v) :: m) = true ↔ v ≠ d k ∧ (∀ e ∈ m, k < e.1) ∧ storeWf d m = true := by
  simp [storeWf, and_assoc]

/-- Erasing keeps the canonical form. -/
theorem storeWf_storeErase (d : Nat → α) (m : List (Nat × α)) (a : Nat) (h : storeWf d m = true) : storeWf d (storeErase m a) = true := by
  induction m with
  | nil => rfl
  | cons e m ih =>
    obtain ⟨k, v⟩ := e
    obtain ⟨h1, h2, h3⟩ := (storeWf_cons d k v m).1 h
    by_cases hk : k = a
    · simpa [storeErase, hk] using ih h3
    · simp only [storeErase, hk, if_false]
      exact (storeWf_cons ..).2 ⟨h1, fun e he => h2 e (mem_of_mem_storeErase m a e he), ih h3⟩

/-- Inserting a key that is not listed, with a value that is not its default, keeps the canonical form. -/
theorem storeWf_storeInsert (d : Nat → α) (m : List (Nat × α)) (a : Nat) (v : α) (hv : v ≠ d a) (hm : ∀ e ∈ m, e.1 ≠ a)
    (h : storeWf d m = true) : storeWf d (storeInsert a v m) = true := by
  induction m with
  | nil => simp [storeInsert, storeWf, hv]
  | cons e m ih =>
    obtain ⟨k, w⟩ := e
    obtain ⟨h1, h2, h3⟩ := (storeWf_cons d k w m).1 h
    by_cases hl : a < k
    · simp only [storeInsert, hl, if_true]
      refine (storeWf_cons ..).2 ⟨hv, ?_, h⟩
      rintro e (_ | ⟨_, he⟩)
      · exact hl
      · exact Nat.lt_trans hl (h2 e he)
    · have hk : k ≠ a := hm (k, w) List.mem_cons_self
      simp only [storeInsert, hl, if_false]
      refine (storeWf_cons ..).2 ⟨h1, fun e he => ?_, ih (fun e he => hm e (List.mem_cons_of_mem _ he)) h3⟩
      rcases mem_storeInsert m a v e he with rfl | he
      · omega
      · exact h2 e he

/-- A write keeps the canonical form. -/
theorem storeWf_storeSet (d : Nat → α) (m : List (Nat × α)) (a : Nat) (v : α) (h : storeWf d m = true) :
    storeWf d (storeSet d m a v) = true := by
  by_cases hv : v = d a
  · simpa [storeSet, hv] using storeWf_storeErase d m a h
  · simpa [storeSet, hv] using storeWf_storeInsert d _ a v hv (not_mem_storeErase m a) (storeWf_storeErase d m a h)

/-- Dropping entries keeps the canonical form. -/
theorem storeWf_filter (d : Nat → α) (p : Nat × α → Bool) (m : List (Nat × α)) (h : storeWf d m = true) :
    storeWf d (m.filter p) = true := by
  induction m with
  | nil => rfl
  | cons e m ih =>
    obtain ⟨k, v⟩ := e
    obtain ⟨h1, h2, h3⟩ := (storeWf_cons d k v m).1 h
    by_cases hp : p (k, v) = true
    · rw [List.filter_cons_of_pos hp]
      exact (storeWf_cons ..).2 ⟨h1, fun e he => h2 e (List.mem_filter.1 he).1, ih h3⟩
    · rw [List.filter_cons_of_neg hp]; exact ih h3

omit [DecidableEq α] in
/-- A key below every listed one reads its default. -/
theorem storeGet_of_lt (d : Nat → α) (m : List (Nat × α)) (a : Nat) (h : ∀ e ∈ m, a < e.1) : storeGet d m a = d a := by
  induction m with
  | nil => rfl
  | cons e m ih =>
    obtain ⟨k, v⟩ := e
    have hk : k ≠ a := Nat.ne_of_gt (h (k, v) List.mem_cons_self)
    simp [storeGet, hk, ih fun x hx => h x (List.mem_cons_of_mem _ hx)]

/-- Two canonical stores that read alike are the same data. -/
theorem storeWf_ext (d : Nat → α) (m n : List (Nat × α)) (hm : storeWf d m = true) (hn : storeWf d n = true)
    (h : ∀ a, storeGet d m a = storeGet d n a) : m = n := by
  induction m generalizing n with
  | nil =>
    cases n with
    | nil => rfl
    | cons e n =>
      obtain ⟨k, v⟩ := e
      exact absurd ((h k).trans (by simp [storeGet])).symm ((storeWf_cons ..).1 hn).1
  | cons e m ih =>
    obtain ⟨k, v⟩ := e
    obtain ⟨h1, h2, h3⟩ := (storeWf_cons ..).1 hm
    cases n with
    | nil => exact absurd ((h k).symm.trans (by simp [storeGet])).symm h1
    | cons e n =>
      obtain ⟨j, w⟩ := e
      obtain ⟨g1, g2, g3⟩ := (storeWf_cons ..).1 hn
      have hkj : k = j := by
        rcases Nat.lt_trichotomy k j with l | l | l
        · have h0 := h k
          rw [storeGet_of_lt d ((j, w) :: n) k (by rintro e (_ | ⟨_, he⟩); exact l; exact Nat.lt_trans l (g2 e he))] at h0
          exact absurd (by simpa [storeGet] using h0) h1
        · exact l
        · have h0 := h j
          rw [storeGet_of_lt d ((k, v) :: m) j (by rintro e (_ | ⟨_, he⟩); exact l; exact Nat.lt_trans l (h2 e he))] at h0
          exact absurd (by simpa [storeGet] using h0.symm) g1
      subst hkj
      have hv : v = w := by simpa [storeGet] using h k
      subst hv
      refine congrArg _ (ih n h3 g3 fun a => ?_)
      by_cases ha : k = a
      · subst ha; rw [storeGet_of_lt d m k h2, storeGet_of_lt d n k g2]
      · simpa [storeGet, ha] using h a

end Sys2Proof.Machine
end

