-- ==== Sys2Proof/Laws/Regs.lean ====
section
/-! SUPPORT. Sys2Proof/Laws/Regs.lean: the laws of the fields of a word and of the registers: a write is read back, every other
register and every other bit is as it was (R9, R14, R15). -/

-- In the package as one text, proofs elaborated side by side ask for more threads than memory allows.
set_option Elab.async false

namespace Sys2Proof.Machine

/-! ### Fields of a word -/

/-- Bit `k` of a word with a field replaced. -/
theorem getLsbD_setBits (w : Word) (lo n v k : Nat) (hk : k < 32) :
    (setBits w lo n v).getLsbD k = if lo ≤ k ∧ k < lo + n then v.testBit (k - lo) else w.getLsbD k := by
  have h2 : k - lo < 32 := by omega
  simp only [setBits, BitVec.getLsbD_or, BitVec.getLsbD_and, BitVec.getLsbD_not, BitVec.getLsbD_shiftLeft, BitVec.getLsbD_ofNat,
    Nat.testBit_two_pow_sub_one, hk, h2, decide_true, Bool.true_and]
  by_cases h : lo ≤ k
  · have e : ¬ k < lo := by omega
    have i : k - lo < n ↔ k < lo + n := by omega
    by_cases h1 : k < lo + n <;> simp [h, h1, e, i]
  · have e : k < lo := by omega
    simp [h, e]

/-- Bit `i` of a field of a word. -/
theorem testBit_getBits (w : Word) (lo n i : Nat) : (getBits w lo n).testBit i = (decide (i < n) && w.getLsbD (lo + i)) := by
  simp [getBits, Nat.testBit_mod_two_pow, ← BitVec.testBit_toNat, Nat.testBit_shiftRight]

/-- A field lies within its width. -/
theorem getBits_lt (w : Word) (lo n : Nat) : getBits w lo n < 2 ^ n := Nat.mod_lt _ (Nat.two_pow_pos n)

/-- A field that lies in the word reads as it was written, modulo its width. -/
theorem getBits_setBits (w : Word) (lo n v : Nat) (h : lo + n ≤ 32) : getBits (setBits w lo n v) lo n = v % 2 ^ n := by
  apply Nat.eq_of_testBit_eq
  intro i
  rw [testBit_getBits, Nat.testBit_mod_two_pow]
  by_cases hi : i < n
  · rw [getLsbD_setBits _ _ _ _ _ (by omega), if_pos ⟨by omega, by omega⟩]; simp [hi]
  · simp [hi]

/-- A field that shares no bit with the one written reads as before. -/
theorem getBits_setBits_of_disjoint (w : Word) (lo n v lo' n' : Nat) (h : lo' + n' ≤ lo ∨ lo + n ≤ lo') :
    getBits (setBits w lo n v) lo' n' = getBits w lo' n' := by
  apply Nat.eq_of_testBit_eq
  intro i
  rw [testBit_getBits, testBit_getBits]
  by_cases hi : i < n'
  · by_cases h32 : lo' + i < 32
    · rw [getLsbD_setBits _ _ _ _ _ h32, if_neg (by omega)]
    · simp [BitVec.getLsbD_of_ge, not_lt.1 h32]
  · simp [hi]

/-! ### Registers -/

/-- A register written is read back. -/
@[simp] theorem rd_wr_self (s : State) (a : Nat) (v : Word) : rd (wr s a v) a = v := storeGet_storeSet_self ..

/-- Every other register is as it was. -/
theorem rd_wr_of_ne (s : State) {a b : Nat} (v : Word) (h : b ≠ a) : rd (wr s a v) b = rd s b := storeGet_storeSet_of_ne _ _ _ h

/-- A register after a write. -/
theorem rd_wr (s : State) (a b : Nat) (v : Word) : rd (wr s a v) b = if b = a then v else rd s b := by
  by_cases h : b = a
  · simp [h]
  · simp [h, rd_wr_of_ne s v h]

/-- The register of a field that is written. -/
theorem rd_fput (s : State) (f : Field) (v b : Nat) :
    rd (fput s f v) b = if b = f.addr then setBits (rd s f.addr) f.lo f.width v else rd s b := rd_wr ..

/-- A field in another register leaves a register. -/
theorem rd_fput_of_ne (s : State) {f : Field} (v : Nat) {b : Nat} (h : b ≠ f.addr) : rd (fput s f v) b = rd s b := rd_wr_of_ne _ _ h

/-- A field within its register reads as it was written, modulo its width. -/
theorem fget_fput_self (s : State) (f : Field) (v : Nat) (h : f.lo + f.width ≤ 32) : fget (fput s f v) f = v % 2 ^ f.width := by
  simp [fget, fput, getBits_setBits _ _ _ _ h]

/-- A field of another register, or of other bits of the register, reads as before. -/
theorem fget_fput_of_ne (s : State) (f g : Field) (v : Nat)
    (h : g.addr ≠ f.addr ∨ g.lo + g.width ≤ f.lo ∨ f.lo + f.width ≤ g.lo) : fget (fput s f v) g = fget s g := by
  by_cases ha : g.addr = f.addr
  · have hd := h.resolve_left (absurd ha)
    rw [fget, rd_fput, if_pos ha, getBits_setBits_of_disjoint _ _ _ _ _ _ hd, ← ha, fget]
  · rw [fget, rd_fput_of_ne s v ha, fget]

/-- A field lies within its width. -/
theorem fget_lt (s : State) (f : Field) : fget s f < 2 ^ f.width := getBits_lt ..

/-- Bit `n` of a number from which a set bit `m` is taken. -/
theorem testBit_sub_two_pow (v m n : Nat) (h : v.testBit m = true) :
    (v - 2 ^ m).testBit n = if n = m then false else v.testBit n := by
  have hr : v % 2 ^ m < 2 ^ m := Nat.mod_lt _ (Nat.two_pow_pos m)
  have hv : v = 2 ^ m * (v / 2 ^ m) + v % 2 ^ m := (Nat.div_add_mod v _).symm
  have hodd : v / 2 ^ m % 2 = 1 := by simpa [Nat.testBit_eq_decide_div_mod_eq] using h
  obtain ⟨c, hc⟩ : ∃ c, v / 2 ^ m = 2 * c + 1 := ⟨v / 2 ^ m / 2, by omega⟩
  have hs : v - 2 ^ m = 2 ^ m * (2 * c) + v % 2 ^ m := by
    have : 2 ^ m * (2 * c + 1) = 2 ^ m * (2 * c) + 2 ^ m := by ring
    rw [hc, this] at hv
    omega
  rw [hs, Nat.testBit_two_pow_mul_add _ hr]
  conv_rhs => rw [hv, hc, Nat.testBit_two_pow_mul_add _ hr]
  by_cases hn : n = m
  · simp [hn, Nat.testBit_zero]
  · by_cases hl : n < m
    · simp [hl, hn]
    · obtain ⟨k, hk⟩ : ∃ k, n - m = k + 1 := ⟨n - m - 1, by omega⟩
      have : (2 * c + 1) / 2 = c := by omega
      simp [hl, hn, hk, Nat.testBit_succ, this]

/-- Bit `n` of a field read after bit `m` of it is set or cleared. -/
theorem fbit_fputBit (s : State) (f : Field) (m n : Nat) (b : Bool) (h : f.lo + f.width ≤ 32) (hm : m < f.width) :
    fbit (fputBit s f m b) f n = if n = m then b else fbit s f n := by
  have hl := fget_lt s f
  have hout : ¬ n < f.width → (fget s f).testBit n = false := fun hn =>
    Nat.testBit_lt_two_pow (lt_of_lt_of_le hl (Nat.pow_le_pow_right (by decide) (not_lt.1 hn)))
  rw [fbit, fputBit, fget_fput_self _ _ _ h, Nat.testBit_mod_two_pow, fbit]
  by_cases hn : n < f.width
  · cases b with
    | true =>
      by_cases hnm : n = m
      · simp [hm, hnm]
      · simp [hn, hnm, Ne.symm hnm]
    | false =>
      by_cases hb : (fget s f).testBit m = true
      · simp [hn, hb, testBit_sub_two_pow _ _ _ hb]
      · by_cases hnm : n = m <;> simp_all
  · have hnm : n ≠ m := fun e => hn (e ▸ hm)
    simp [hn, hnm, hout hn]

/-! ### One-bit fields -/

/-- An event bit raised reads 1. -/
theorem bit_raise_self (s : State) (f : Field) (h : f.lo + f.width ≤ 32) (hw : f.width = 1) : bit (raise s f) f = true := by
  simp [bit, raise, fget_fput_self _ _ _ h, hw]

/-- A one-bit field reads the truth value it was made to hold. -/
theorem bit_fputB_self (s : State) (f : Field) (b : Bool) (h : f.lo + f.width ≤ 32) (hw : f.width = 1) : bit (fputB s f b) f = b := by
  cases b <;> simp [bit, fputB, fget_fput_self _ _ _ h, hw]

/-- A count after one more, saturating. -/
theorem fget_inc_self (s : State) (f : Field) (h : f.lo + f.width ≤ 32) : fget (inc s f) f = min (fget s f + 1) (2 ^ f.width - 1) := by
  rw [inc, fget_fput_self _ _ _ h, Nat.mod_eq_of_lt]
  have := Nat.two_pow_pos f.width
  omega

/-- A bit of another field is as before. -/
theorem bit_fput_of_ne (s : State) (f g : Field) (v : Nat)
    (h : g.addr ≠ f.addr ∨ g.lo + g.width ≤ f.lo ∨ f.lo + f.width ≤ g.lo) : bit (fput s f v) g = bit s g := by
  rw [bit, fget_fput_of_ne s f g v h, bit]

/-- A bit of a multi-bit field elsewhere is as before. -/
theorem fbit_fput_of_ne (s : State) (f g : Field) (v n : Nat)
    (h : g.addr ≠ f.addr ∨ g.lo + g.width ≤ f.lo ∨ f.lo + f.width ≤ g.lo) : fbit (fput s f v) g n = fbit s g n := by
  rw [fbit, fget_fput_of_ne s f g v h, fbit]

/-- A write of one field leaves every bit outside it. -/
theorem getLsbD_rd_fput (s : State) (f : Field) (v a k : Nat) (hk : k < 32) (h : f.addr = a → k < f.lo ∨ f.lo + f.width ≤ k) :
    (rd (fput s f v) a).getLsbD k = (rd s a).getLsbD k := by
  by_cases ha : a = f.addr
  · subst ha
    rw [rd_fput, if_pos rfl, getLsbD_setBits _ _ _ _ _ hk, if_neg]
    have := h rfl
    omega
  · rw [rd_fput_of_ne s v ha]

end Sys2Proof.Machine
end

