-- ==== Sys2Proof/Laws/Memory.lean ====
section
/-! SUPPORT. Sys2Proof/Laws/Memory.lean: the laws of the two byte memories (R12, R92, R407, R408): what a byte reads as after a
write, an erase or a spoilt program; that every memory operation keeps the canonical form; byte strings in registers. -/

-- In the package as one text, proofs elaborated side by side ask for more threads than memory allows.
set_option Elab.async false

namespace Sys2Proof.Machine

/-! ### One byte -/

/-- A byte of engine memory after a write. -/
theorem engByte_engSetByte (s : State) (o p : Nat) (b : Byte) : engByte (engSetByte s o b) p = if p = o then b else engByte s p := by
  by_cases h : p = o
  · simp [engByte, h]
  · simp [engByte, h, storeGet_storeSet_of_ne _ _ _ h]

/-- A byte of NVM after a program. -/
theorem nvmByte_nvmSetByte (s : State) (o p : Nat) (b : Byte) : nvmByte (nvmSetByte s o b) p = if p = o then b else nvmByte s p := by
  by_cases h : p = o
  · simp [nvmByte, h]
  · simp [nvmByte, h, storeGet_storeSet_of_ne _ _ _ h]

/-- A register after a write of engine memory. -/
theorem live_engSetBytes (bs : List Byte) : ∀ (s : State) (o : Nat), (engSetBytes s o bs).live = s.live := by
  induction bs with
  | nil => intro s o; rfl
  | cons b bs ih => intro s o; rw [engSetBytes, ih]; rfl

/-- A register after a program of NVM. -/
theorem live_nvmSetBytes (bs : List Byte) : ∀ (s : State) (o : Nat), (nvmSetBytes s o bs).live = s.live := by
  induction bs with
  | nil => intro s o; rfl
  | cons b bs ih => intro s o; rw [nvmSetBytes, ih]; rfl

/-! ### Byte strings -/

/-- A byte of NVM after a byte string is programmed. -/
theorem nvmByte_nvmSetBytes (bs : List Byte) : ∀ (s : State) (o p : Nat),
    nvmByte (nvmSetBytes s o bs) p = if o ≤ p ∧ p < o + bs.length then bs.getD (p - o) 0 else nvmByte s p := by
  induction bs with
  | nil => intro s o p; rw [if_neg (by simp)]; rfl
  | cons b bs ih =>
    intro s o p
    rw [nvmSetBytes, ih, nvmByte_nvmSetByte]
    by_cases h : p = o
    · subst h; simp
    · by_cases h2 : o + 1 ≤ p ∧ p < o + 1 + bs.length
      · obtain ⟨k, hk⟩ : ∃ k, p - o = k + 1 := ⟨p - o - 1, by omega⟩
        have : p - (o + 1) = k := by omega
        rw [if_pos h2, if_pos (by simp; omega), hk, this]; simp
      · rw [if_neg h2, if_neg h, if_neg (by simp; omega)]

/-- A byte of engine memory after a byte string is written. -/
theorem engByte_engSetBytes (bs : List Byte) : ∀ (s : State) (o p : Nat),
    engByte (engSetBytes s o bs) p = if o ≤ p ∧ p < o + bs.length then bs.getD (p - o) 0 else engByte s p := by
  induction bs with
  | nil => intro s o p; rw [if_neg (by simp)]; rfl
  | cons b bs ih =>
    intro s o p
    rw [engSetBytes, ih, engByte_engSetByte]
    by_cases h : p = o
    · subst h; simp
    · by_cases h2 : o + 1 ≤ p ∧ p < o + 1 + bs.length
      · obtain ⟨k, hk⟩ : ∃ k, p - o = k + 1 := ⟨p - o - 1, by omega⟩
        have : p - (o + 1) = k := by omega
        rw [if_pos h2, if_pos (by simp; omega), hk, this]; simp
      · rw [if_neg h2, if_neg h, if_neg (by simp; omega)]

/-- What a key reads as after entries are dropped. -/
theorem storeGet_filter {α : Type} [DecidableEq α] (d : Nat → α) (p : Nat → Bool) (m : List (Nat × α)) (a : Nat)
    (h : storeWf d m = true) : storeGet d (m.filter fun e => p e.1) a = if p a then storeGet d m a else d a := by
  induction m with
  | nil => simp [storeGet]
  | cons e m ih =>
    obtain ⟨k, v⟩ := e
    obtain ⟨h1, h2, h3⟩ := (storeWf_cons d k v m).1 h
    have ih := ih h3
    by_cases hk : k = a
    · subst hk
      by_cases hp : p k = true
      · rw [List.filter_cons_of_pos (by simpa using hp)]; simp [storeGet, hp]
      · rw [List.filter_cons_of_neg (by simpa using hp), ih]; simp [hp]
    · by_cases hp : p k = true
      · rw [List.filter_cons_of_pos (by simpa using hp)]; simp [storeGet, hk, ih]
      · rw [List.filter_cons_of_neg (by simpa using hp)]; simp [storeGet, hk, ih]

/-- A byte of NVM after an erase (R408). -/
theorem nvmByte_nvmErase (s : State) (o n p : Nat) (h : storeWf nvmDefault s.nvm = true) :
    nvmByte (nvmErase s o n) p = if o ≤ p ∧ p < o + n then 0xFF else nvmByte s p := by
  have := storeGet_filter nvmDefault (fun k => decide (k < o) || decide (o + n ≤ k)) s.nvm p h
  rw [nvmByte, nvmErase, this]
  by_cases hp : o ≤ p ∧ p < o + n
  · rw [if_pos hp, if_neg (by simp; omega)]; rfl
  · rw [if_neg hp, if_pos (by simp; omega)]; rfl

/-! ### The canonical form -/

/-- A write of a byte of engine memory keeps the canonical form of both memories. -/
theorem wf_engSetByte (s : State) (o : Nat) (b : Byte) (h : Memory.wf s = true) : Memory.wf (engSetByte s o b) = true := by
  simp only [Memory.wf, Bool.and_eq_true] at h ⊢
  exact ⟨storeWf_storeSet _ _ _ _ h.1, h.2⟩

/-- A program of a byte of NVM keeps the canonical form of both memories. -/
theorem wf_nvmSetByte (s : State) (o : Nat) (b : Byte) (h : Memory.wf s = true) : Memory.wf (nvmSetByte s o b) = true := by
  simp only [Memory.wf, Bool.and_eq_true] at h ⊢
  exact ⟨h.1, storeWf_storeSet _ _ _ _ h.2⟩

/-- A write of a byte string to engine memory keeps the canonical form. -/
theorem wf_engSetBytes (bs : List Byte) : ∀ (s : State) (o : Nat), Memory.wf s = true → Memory.wf (engSetBytes s o bs) = true := by
  induction bs with
  | nil => intro s o h; exact h
  | cons b bs ih => intro s o h; exact ih _ _ (wf_engSetByte s o b h)

/-- A program of a byte string into NVM keeps the canonical form. -/
theorem wf_nvmSetBytes (bs : List Byte) : ∀ (s : State) (o : Nat), Memory.wf s = true → Memory.wf (nvmSetBytes s o bs) = true := by
  induction bs with
  | nil => intro s o h; exact h
  | cons b bs ih => intro s o h; exact ih _ _ (wf_nvmSetByte s o b h)

/-- A write of a word to engine memory keeps the canonical form. -/
theorem wf_engSetWord (s : State) (o : Nat) (w : Word) (h : Memory.wf s = true) : Memory.wf (engSetWord s o w) = true :=
  wf_engSetBytes _ _ _ h

/-- An erase keeps the canonical form. -/
theorem wf_nvmErase (s : State) (o n : Nat) (h : Memory.wf s = true) : Memory.wf (nvmErase s o n) = true := by
  simp only [Memory.wf, Bool.and_eq_true] at h ⊢
  exact ⟨h.1, storeWf_filter _ _ _ h.2⟩

/-- A program found bad keeps the canonical form. -/
theorem wf_nvmSpoil (s : State) (o n : Nat) (h : Memory.wf s = true) : Memory.wf (nvmSpoil s o n) = true := wf_nvmSetBytes _ s o h

/-- An area of engine memory cleared keeps the canonical form. -/
theorem wf_clearEngine (s : State) (lo hi : Nat) (h : Memory.wf s = true) : Memory.wf (clearEngine s lo hi) = true := by
  simp only [Memory.wf, Bool.and_eq_true] at h ⊢
  exact ⟨storeWf_filter _ _ _ h.1, h.2⟩

/-- The tables of an image loaded keep the canonical form. -/
theorem wf_loadTables (s : State) (m : Img) (h : Memory.wf s = true) : Memory.wf (loadTables s m) = true := by
  have h1 : Memory.wf { s with engMem := s.engMem.filter fun c => !(decide (0x70000 ≤ c.1 ∧ c.1 < 0x78000)) } = true := by
    simp only [Memory.wf, Bool.and_eq_true] at h ⊢
    exact ⟨storeWf_filter _ _ _ h.1, h.2⟩
  unfold loadTables
  split
  · exact h1
  · exact wf_engSetBytes _ _ _ h1

/-- Memory after reset is in canonical form. -/
theorem wf_reset : Memory.wf State.reset = true := rfl

/-- Two states whose memories are canonical and read alike hold the same memories. -/
theorem memory_ext (s t : State) (hs : Memory.wf s = true) (ht : Memory.wf t = true) (he : ∀ o, engByte s o = engByte t o)
    (hn : ∀ o, nvmByte s o = nvmByte t o) : s.engMem = t.engMem ∧ s.nvm = t.nvm := by
  simp only [Memory.wf, Bool.and_eq_true] at hs ht
  exact ⟨storeWf_ext _ _ _ hs.1 ht.1 he, storeWf_ext _ _ _ hs.2 ht.2 hn⟩

/-! ### The canonical form of everything sparse -/

/-- What `State.canonical` says, part by part. -/
theorem canonical_iff (s : State) : s.canonical = true ↔ storeWf engDefault s.engMem = true ∧ storeWf nvmDefault s.nvm = true ∧
    storeWf regReset s.live = true ∧ storeWf regReset s.repl = true ∧ storeWf (fun _ => (0 : Word)) s.captures = true := by
  simp [State.canonical, Memory.wf, and_assoc]

/-- A register write keeps the canonical form. -/
@[simp] theorem canonical_wr (s : State) (a : Nat) (v : Word) (h : s.canonical = true) : (wr s a v).canonical = true := by
  rw [canonical_iff] at h ⊢
  exact ⟨h.1, h.2.1, storeWf_storeSet _ _ _ _ h.2.2.1, h.2.2.2⟩

/-- A field write keeps the canonical form. -/
@[simp] theorem canonical_fput (s : State) (f : Field) (v : Nat) (h : s.canonical = true) : (fput s f v).canonical = true := canonical_wr _ _ _ h

/-- A state that lists the same registers, captures and memory is canonical too. -/
theorem canonical_of_same (s t : State) (h : s.canonical = true) (hl : t.live = s.live) (hr : t.repl = s.repl) (hc : t.captures = s.captures)
    (he : t.engMem = s.engMem) (hn : t.nvm = s.nvm) : t.canonical = true := by
  rw [canonical_iff] at h ⊢
  rw [hl, hr, hc, he, hn]
  exact h

/-- A program of a byte string into NVM keeps the canonical form of everything. -/
@[simp] theorem canonical_nvmSetBytes (bs : List Byte) : ∀ (s : State) (o : Nat), s.canonical = true → (nvmSetBytes s o bs).canonical = true := by
  induction bs with
  | nil => intro s o h; exact h
  | cons b bs ih =>
    intro s o h
    refine ih _ _ ?_
    rw [canonical_iff] at h ⊢
    exact ⟨h.1, storeWf_storeSet _ _ _ _ h.2.1, h.2.2⟩

/-- A write of a byte string to engine memory keeps the canonical form of everything. -/
@[simp] theorem canonical_engSetBytes (bs : List Byte) : ∀ (s : State) (o : Nat), s.canonical = true → (engSetBytes s o bs).canonical = true := by
  induction bs with
  | nil => intro s o h; exact h
  | cons b bs ih =>
    intro s o h
    refine ih _ _ ?_
    rw [canonical_iff] at h ⊢
    exact ⟨storeWf_storeSet _ _ _ _ h.1, h.2⟩

/-- An erase keeps the canonical form of everything. -/
@[simp] theorem canonical_nvmErase (s : State) (o n : Nat) (h : s.canonical = true) : (nvmErase s o n).canonical = true := by
  rw [canonical_iff] at h ⊢
  exact ⟨h.1, storeWf_filter _ _ _ h.2.1, h.2.2⟩

/-- A fold of steps that each keep a property keeps it. -/
theorem foldl_keeps {α : Type} (P : State → Prop) (f : State → α → State) (hf : ∀ s x, P s → P (f s x)) :
    ∀ (l : List α) (s : State), P s → P (l.foldl f s) := by
  intro l
  induction l with
  | nil => intro s h; exact h
  | cons x l ih => intro s h; exact ih _ (hf s x h)

/-- A byte string in registers keeps the canonical form. -/
@[simp] theorem canonical_putRegBytes (s : State) (a : Nat) (bs : List Byte) (h : s.canonical = true) : (putRegBytes s a bs).canonical = true :=
  foldl_keeps (fun t => t.canonical = true) _ (fun _ _ ht => canonical_wr _ _ _ ht) _ _ h

/-! ### Byte strings in registers -/

/-- Every register but those of the string is as it was. -/
theorem rd_putRegBytes_of_ne (s : State) (a : Nat) (bs : List Byte) (b : Nat) (h : ∀ k, k < (bs.length + 3) / 4 → b ≠ a + 4 * k) :
    rd (putRegBytes s a bs) b = rd s b := by
  have : ∀ (l : List Nat) (t : State), (∀ k ∈ l, b ≠ a + 4 * k) → rd (l.foldl (fun s k => wr s (a + 4 * k)
      (BitVec.ofNat 32 (ofLeBytes ((bs.drop (4 * k)).take 4)))) t) b = rd t b := by
    intro l
    induction l with
    | nil => intro t _; rfl
    | cons k l ih =>
      intro t hl
      rw [List.foldl_cons, ih _ fun j hj => hl j (List.mem_cons_of_mem _ hj), rd_wr_of_ne _ _ (hl k List.mem_cons_self)]
  exact this _ s fun k hk => h k (List.mem_range.1 hk)

/-- Each register of a byte string holds its four bytes. -/
theorem rd_putRegBytes (s : State) (a : Nat) (bs : List Byte) (k : Nat) (h : k < (bs.length + 3) / 4) :
    rd (putRegBytes s a bs) (a + 4 * k) = BitVec.ofNat 32 (ofLeBytes ((bs.drop (4 * k)).take 4)) := by
  have : ∀ (n : Nat), k < n → rd ((List.range n).foldl (fun s k => wr s (a + 4 * k)
      (BitVec.ofNat 32 (ofLeBytes ((bs.drop (4 * k)).take 4)))) s) (a + 4 * k) = BitVec.ofNat 32 (ofLeBytes ((bs.drop (4 * k)).take 4)) := by
    intro n
    induction n with
    | zero => intro hk; omega
    | succ n ih =>
      intro hk
      rw [List.range_succ, List.foldl_append, List.foldl_cons, List.foldl_nil, rd_wr]
      by_cases hn : k = n
      · simp [hn]
      · rw [if_neg (by omega), ih (by omega)]
  exact this _ h

/-- A byte string in registers depends on those registers only. -/
theorem regBytes_congr (s t : State) (a n : Nat) (h : ∀ k, k < n → rd t (a + 4 * k) = rd s (a + 4 * k)) : regBytes t a n = regBytes s a n := by
  rw [regBytes, regBytes, List.flatMap_def, List.flatMap_def]
  exact congrArg _ (List.map_congr_left fun k hk => by rw [h k (List.mem_range.1 hk)])

/-- A byte string put into registers changes registers only. -/
theorem putRegBytes_only (s : State) (a : Nat) (bs : List Byte) : putRegBytes s a bs = { s with live := (putRegBytes s a bs).live } :=
  foldl_keeps (fun t => t = { s with live := t.live }) _ (fun t _ h => by rw [h]; rfl) _ _ rfl

/-- Bytes as a number and back. -/
theorem leBytes_ofLeBytes (bs : List Byte) : leBytes bs.length (ofLeBytes bs) = bs := by
  induction bs with
  | nil => rfl
  | cons b bs ih =>
    have hb := b.isLt
    rw [leBytes, List.length_cons, List.range_succ_eq_map, List.map_cons, List.map_map]
    congr 1
    · apply BitVec.eq_of_toNat_eq
      simp only [ofLeBytes, Nat.mul_zero, Nat.shiftRight_zero, BitVec.toNat_ofNat]
      omega
    · conv_rhs => rw [← ih, leBytes]
      refine List.map_congr_left fun k _ => ?_
      have : ofLeBytes (b :: bs) >>> (8 * (k + 1)) = ofLeBytes bs >>> (8 * k) := by
        have e : 8 * (k + 1) = 8 + 8 * k := by ring
        rw [e, Nat.shiftRight_add, ofLeBytes]
        congr 1
        rw [Nat.shiftRight_eq_div_pow]
        omega
      simp [Function.comp, this]

/-- A number made of so many bytes is small. -/
theorem ofLeBytes_lt (bs : List Byte) : ofLeBytes bs < 256 ^ bs.length := by
  induction bs with
  | nil => simp [ofLeBytes]
  | cons b bs ih =>
    have hb := b.isLt
    rw [ofLeBytes, List.length_cons, Nat.pow_succ]
    omega

/-- A byte string of whole words, put into registers, is read back. -/
theorem regBytes_putRegBytes (s : State) (a n : Nat) (bs : List Byte) (h : bs.length = 4 * n) : regBytes (putRegBytes s a bs) a n = bs := by
  have key : ∀ k, k ≤ n → (List.range k).flatMap (fun k => leBytes 4 (rd (putRegBytes s a bs) (a + 4 * k)).toNat) = bs.take (4 * k) := by
    intro k
    induction k with
    | zero => intro _; simp
    | succ k ih =>
      intro hk
      have hlen : ((bs.drop (4 * k)).take 4).length = 4 := by simp; omega
      have hlt := ofLeBytes_lt ((bs.drop (4 * k)).take 4)
      rw [hlen] at hlt
      have hrd := rd_putRegBytes s a bs k (by omega)
      rw [List.range_succ, List.flatMap_append, ih (by omega), List.flatMap_cons, List.flatMap_nil, List.append_nil, hrd,
        BitVec.toNat_ofNat, Nat.mod_eq_of_lt (by simpa using hlt)]
      have hb := leBytes_ofLeBytes ((bs.drop (4 * k)).take 4)
      rw [hlen] at hb
      rw [hb, show 4 * (k + 1) = 4 * k + 4 by ring, List.take_add]
  have := key n le_rfl
  rwa [← h, List.take_length] at this

end Sys2Proof.Machine
end

