-- ==== Sys2Proof/Laws/Reports.lean ====
section
/-! SUPPORT. Sys2Proof/Laws/Reports.lean: what a record, a lost record and a corrected fault can change (R386, R413, R414): registers
of FAULT and REC, the recorder and the fault block; and that a corrected fault is counted, flagged and raised. -/

-- In the package as one text, proofs elaborated side by side ask for more threads than memory allows.
set_option Elab.async false

namespace Sys2Proof.Machine

/-! ### Frames of registers -/

theorem SameRegsOutside.refl (p : Nat → Bool) (s : State) : SameRegsOutside p s s := fun _ _ => rfl

theorem SameRegsOutside.trans {p : Nat → Bool} {s t u : State} (h : SameRegsOutside p s t) (g : SameRegsOutside p t u) :
    SameRegsOutside p s u := fun a ha => (g a ha).trans (h a ha)

/-- A register that the frame names is written. -/
theorem SameRegsOutside.wr {p : Nat → Bool} {s t : State} (h : SameRegsOutside p s t) (a : Nat) (v : Word) (ha : p a = true) :
    SameRegsOutside p s (wr t a v) := fun b hb => by
  rw [rd_wr_of_ne _ _ (fun e => by rw [e, ha] at hb; exact absurd hb (by decide)), h b hb]

/-- A field of a register that the frame names is written. -/
theorem SameRegsOutside.fput {p : Nat → Bool} {s t : State} (h : SameRegsOutside p s t) (f : Field) (v : Nat) (hf : p f.addr = true) :
    SameRegsOutside p s (fput t f v) := h.wr _ _ hf

/-- The other ways of writing a field. -/
theorem SameRegsOutside.raise {p : Nat → Bool} {s t : State} (h : SameRegsOutside p s t) (f : Field) (hf : p f.addr = true) :
    SameRegsOutside p s (raise t f) := h.fput f 1 hf

theorem SameRegsOutside.inc {p : Nat → Bool} {s t : State} (h : SameRegsOutside p s t) (f : Field) (hf : p f.addr = true) :
    SameRegsOutside p s (inc t f) := h.fput f _ hf

theorem SameRegsOutside.fputB {p : Nat → Bool} {s t : State} (h : SameRegsOutside p s t) (f : Field) (b : Bool) (hf : p f.addr = true) :
    SameRegsOutside p s (fputB t f b) := h.fput f _ hf

theorem SameRegsOutside.fputBit {p : Nat → Bool} {s t : State} (h : SameRegsOutside p s t) (f : Field) (n : Nat) (b : Bool)
    (hf : p f.addr = true) : SameRegsOutside p s (fputBit t f n b) := h.fput f _ hf

theorem SameRegsOutside.wr64 {p : Nat → Bool} {s t : State} (h : SameRegsOutside p s t) (lo hi v : Nat) (hl : p lo = true)
    (hh : p hi = true) : SameRegsOutside p s (wr64 t lo hi v) := (h.wr lo _ hl).wr hi _ hh

/-- What registers read is all that the frame speaks of. -/
theorem SameRegsOutside.of_live {p : Nat → Bool} {s t u : State} (h : SameRegsOutside p s t) (e : u.live = t.live) :
    SameRegsOutside p s u := fun a ha => by rw [← h a ha, rd, rd, e]

/-- An equation that unfolding shows, kept as a rewrite step: so used, a long chain of updates is not unfolded again. -/
theorem byUnfolding {α : Type} {a b : α} (h : a = b) : a = b := h

/-- A property of either branch is one of the whole. -/
theorem ite_eq_of {α β : Type} (f : α → β) (c : Prop) [Decidable c] (x y : α) (z : β) (hx : f x = z) (hy : f y = z) :
    f (if c then x else y) = z := by split <;> assumption

/-! ### What a report can change beside registers -/

/-- What neither a record nor a corrected fault changes: everything but registers, the recorder and the fault block. -/
def recFrame (s : State) : State := { s with live := [], saddle := RecSt.reset, fault := FaultSt.reset }

/-- The frame spelt out. -/
theorem only_of_recFrame {s t : State} (h : recFrame t = recFrame s) :
    t = { s with live := t.live, saddle := t.saddle, fault := t.fault } := by
  cases s; cases t
  simp only [recFrame, State.mk.injEq] at h
  simp only [State.mk.injEq]
  tauto

@[simp] theorem recFrame_wr (s : State) (a : Nat) (v : Word) : recFrame (wr s a v) = recFrame s := byUnfolding rfl
@[simp] theorem recFrame_fput (s : State) (f : Field) (v : Nat) : recFrame (fput s f v) = recFrame s := byUnfolding rfl
@[simp] theorem recFrame_fputB (s : State) (f : Field) (b : Bool) : recFrame (fputB s f b) = recFrame s := byUnfolding rfl
@[simp] theorem recFrame_fputBit (s : State) (f : Field) (n : Nat) (b : Bool) : recFrame (fputBit s f n b) = recFrame s := byUnfolding rfl
@[simp] theorem recFrame_raise (s : State) (f : Field) : recFrame (raise s f) = recFrame s := byUnfolding rfl
@[simp] theorem recFrame_inc (s : State) (f : Field) : recFrame (inc s f) = recFrame s := byUnfolding rfl
@[simp] theorem recFrame_wr64 (s : State) (lo hi v : Nat) : recFrame (wr64 s lo hi v) = recFrame s := byUnfolding rfl
@[simp] theorem recFrame_setRec (s : State) (f : RecSt → RecSt) : recFrame (setRec s f) = recFrame s := byUnfolding rfl
@[simp] theorem recFrame_setFlt (s : State) (f : FaultSt → FaultSt) : recFrame (setFlt s f) = recFrame s := byUnfolding rfl
@[simp] theorem recFrame_ledgerAdd (s : State) (o n : Nat) : recFrame (ledgerAdd s o n) = recFrame s := byUnfolding rfl
@[simp] theorem recFrame_syncPending (s : State) : recFrame (syncPending s) = recFrame s := byUnfolding rfl

@[simp] theorem recFrame_countFault (s : State) (c cl k i ts : Nat) : recFrame (countFault s c cl k i ts) = recFrame s := by
  unfold countFault
  extract_lets b s1 s2 s3 s4 s5
  have h4 : recFrame s4 = recFrame s := by simp [s4, s3, s2, s1]
  rw [recFrame_ledgerAdd]
  exact ite_eq_of recFrame _ _ _ _ (by rw [recFrame_fputBit, h4]) h4

@[simp] theorem recFrame_recordLost (s : State) : recFrame (recordLost s) = recFrame s := by
  unfold recordLost
  extract_lets s1
  have h1 : recFrame s1 = recFrame s := by simp [s1]
  refine ite_eq_of recFrame _ _ _ _ h1 ?_
  rw [recFrame_countFault, ← h1]
  rfl

@[simp] theorem recFrame_pushRecord (s : State) (ty sv c ts : Nat) (p : List Byte) : recFrame (pushRecord s ty sv c ts p) = recFrame s := by
  unfold pushRecord
  extract_lets r q
  split
  · rw [recFrame_syncPending]; rfl
  · split
    · split
      · rw [recFrame_recordLost]; rfl
      · rw [recFrame_recordLost]
    · rw [recFrame_recordLost]

@[simp] theorem recFrame_noteRec (s : State) (c : Nat) : recFrame (noteRec s c) = recFrame s :=
  ite_eq_of recFrame _ _ _ _ rfl rfl

@[simp] theorem recFrame_correctedRecord (s : State) (c k i ts : Nat) : recFrame (correctedRecord s c k i ts) = recFrame s :=
  ite_eq_of recFrame _ _ _ _ rfl (by rw [recFrame_pushRecord, recFrame_noteRec])

@[simp] theorem recFrame_reportCorrected (s : State) (c ts : Nat) : recFrame (reportCorrected s c ts) = recFrame s := by
  rw [reportCorrected, recFrame_correctedRecord, recFrame_countFault]

/-- Everything that a record can change. -/
theorem pushRecord_only (s : State) (ty sv c ts : Nat) (p : List Byte) : let t := pushRecord s ty sv c ts p
    t = { s with live := t.live, saddle := t.saddle, fault := t.fault } := only_of_recFrame (recFrame_pushRecord s ty sv c ts p)

/-- Everything that a corrected fault can change. -/
theorem reportCorrected_only (s : State) (c ts : Nat) : let t := reportCorrected s c ts
    t = { s with live := t.live, saddle := t.saddle, fault := t.fault } := only_of_recFrame (recFrame_reportCorrected s c ts)

/-- A record leaves both memories. -/
theorem sameMemory_of_recFrame {s t : State} (h : recFrame t = recFrame s) : SameMemory s t := by
  rw [only_of_recFrame h]
  exact ⟨fun _ => rfl, fun _ => rfl⟩

/-! ### What a report can change in registers -/

/-- Counting a fault of one of the thirteen blocks writes registers of FAULT only. -/
theorem regs_countFault (s : State) (c cl k i ts : Nat) (hc : c / 256 ≤ 13) : SameRegsOutside faultOrRec s (countFault s c cl k i ts) := by
  have hb : ∀ n, n ≤ 12 → faultOrRec (Reg.FAULT_BCNT n) = true := by decide
  unfold countFault
  extract_lets b s1 s2 s3 s4 s5
  have h1 : SameRegsOutside faultOrRec s s1 := (SameRegsOutside.refl _ s).inc _ (hb _ (by omega))
  have h2 : SameRegsOutside faultOrRec s s2 := (((h1.fput Fld.FAULT_LAST_CODE c (by decide)).fput Fld.FAULT_LAST_CLASS cl
    (by decide)).fput Fld.FAULT_LAST_KIND k (by decide)).fput Fld.FAULT_LAST_INDEX i (by decide)
  have h3 : SameRegsOutside faultOrRec s s3 := h2.wr64 _ _ _ (by decide) (by decide)
  have h4 : SameRegsOutside faultOrRec s s4 := h3.raise _ (by split <;> decide)
  have h5 : SameRegsOutside faultOrRec s s5 := by
    by_cases hc : cl = 0
    · simp only [s5, if_pos hc]; exact h4.fputBit _ _ _ (by decide)
    · simp only [s5, if_neg hc]; exact h4
  exact h5.of_live rfl

/-- The pending count is a register of REC. -/
theorem regs_syncPending (s : State) : SameRegsOutside faultOrRec s (syncPending s) :=
  SameRegsOutside.fput (t := { s with saddle := { s.saddle with full := s.saddle.full && decide (128 ≤ s.saddle.pending.length) } })
    (fun _ _ => rfl) _ _ (by decide)

/-- A lost record writes registers of FAULT and REC only. -/
theorem regs_recordLost (s : State) : SameRegsOutside faultOrRec s (recordLost s) := by
  unfold recordLost
  extract_lets s1
  have h1 : SameRegsOutside faultOrRec s s1 := ((SameRegsOutside.refl _ s).inc _ (by decide)).raise _ (by decide)
  split
  · exact h1
  · have h2 : SameRegsOutside faultOrRec s { s1 with saddle := { s1.saddle with full := true } } := h1.of_live rfl
    exact h2.trans (regs_countFault _ _ _ _ _ _ (by decide))

/-- A record writes registers of FAULT and REC only. -/
theorem regs_pushRecord (s : State) (ty sv c ts : Nat) (p : List Byte) : SameRegsOutside faultOrRec s (pushRecord s ty sv c ts p) := by
  unfold pushRecord
  extract_lets r q
  have h (x : RecSt) : SameRegsOutside faultOrRec s { s with saddle := x } := fun _ _ => rfl
  split
  · exact (h _).trans (regs_syncPending _)
  · split
    · split
      · exact (h _).trans (regs_recordLost _)
      · exact regs_recordLost s
    · exact regs_recordLost s

/-- Noting a record writes no register. -/
theorem noteRec_live (s : State) (c : Nat) : (noteRec s c).live = s.live := by unfold noteRec; split <;> rfl

/-- The record of a corrected fault writes registers of FAULT and REC only. -/
theorem regs_correctedRecord (s : State) (c k i ts : Nat) : SameRegsOutside faultOrRec s (correctedRecord s c k i ts) := by
  unfold correctedRecord
  extract_lets last held
  split
  · exact SameRegsOutside.refl _ s
  · exact ((SameRegsOutside.refl _ s).of_live (noteRec_live s c)).trans (regs_pushRecord _ _ _ _ _ _)

/-- A corrected fault writes registers of FAULT and REC only (R386, R413). -/
theorem regs_reportCorrected (s : State) (c ts : Nat) (hc : c / 256 ≤ 13) : SameRegsOutside faultOrRec s (reportCorrected s c ts) :=
  (regs_countFault s c 0 0 0 ts hc).trans (regs_correctedRecord _ _ _ _ _)

/-! ### A corrected fault is counted, flagged and raised (R386) -/

/-- A field whose register lies in neither block reads after a corrected fault as before. -/
theorem fget_reportCorrected (s : State) (c ts : Nat) (f : Field) (hc : c / 256 ≤ 13) (hf : faultOrRec f.addr = false) :
    fget (reportCorrected s c ts) f = fget s f := by rw [fget, regs_reportCorrected s c ts hc _ hf, fget]

/-- So does a bit. -/
theorem bit_reportCorrected (s : State) (c ts : Nat) (f : Field) (hc : c / 256 ≤ 13) (hf : faultOrRec f.addr = false) :
    bit (reportCorrected s c ts) f = bit s f := by rw [bit, fget_reportCorrected s c ts f hc hf, bit]

/-- The device state is as before (R385: a corrected fault changes no state). -/
theorem devState_reportCorrected (s : State) (c ts : Nat) (hc : c / 256 ≤ 13) : devState (reportCorrected s c ts) = devState s := by
  rw [devState, fget_reportCorrected s c ts _ hc (by decide), devState]

/-! ### A corrected fault is counted, flagged and raised (R386) -/

/-- Counting a corrected fault of block `b` counts it, sets its bit of FAULT_CORR and raises its event. -/
theorem countFault_counts (s : State) (c k i ts : Nat) (h13 : c / 256 ≤ 13) :
    CorrectedReported s (countFault s c 0 k i ts) c := by
  unfold countFault
  extract_lets b s1 s2 s3 s4 s5
  have hs5 : s5 = fputBit s4 Fld.FAULT_CORR_BLK (b - 1) true := if_pos rfl
  have e1 : fget s1 (Fld.FAULT_BCNT_COUNT (b - 1)) = min (fget s (Fld.FAULT_BCNT_COUNT (b - 1)) + 1) (2 ^ 32 - 1) :=
    fget_inc_self s _ (by simp)
  have far : ∀ f : Field, f.addr < 0x3100 → (Fld.FAULT_BCNT_COUNT (b - 1)).addr ≠ f.addr ∨ (Fld.FAULT_BCNT_COUNT (b - 1)).lo +
      (Fld.FAULT_BCNT_COUNT (b - 1)).width ≤ f.lo ∨ f.lo + f.width ≤ (Fld.FAULT_BCNT_COUNT (b - 1)).lo := fun f hf => by
    left; simp only [Reg.FAULT_BCNT]; omega
  have e2 : fget s2 (Fld.FAULT_BCNT_COUNT (b - 1)) = fget s1 (Fld.FAULT_BCNT_COUNT (b - 1)) := by
    simp only [s2]
    rw [fget_fput_of_ne _ _ _ _ (far _ (by decide)), fget_fput_of_ne _ _ _ _ (far _ (by decide)),
      fget_fput_of_ne _ _ _ _ (far _ (by decide)), fget_fput_of_ne _ _ _ _ (far _ (by decide))]
  have e3 : fget s3 (Fld.FAULT_BCNT_COUNT (b - 1)) = fget s2 (Fld.FAULT_BCNT_COUNT (b - 1)) := by
    simp only [s3, wr64, fget]
    rw [rd_wr_of_ne, rd_wr_of_ne] <;> simp only [Reg.FAULT_BCNT, Reg.FAULT_LAST_TS_LO, Reg.FAULT_LAST_TS_HI] <;> omega
  have e4 : fget s4 (Fld.FAULT_BCNT_COUNT (b - 1)) = fget s3 (Fld.FAULT_BCNT_COUNT (b - 1)) :=
    fget_fput_of_ne _ _ _ _ (far _ (by decide))
  have e5 : fget s5 (Fld.FAULT_BCNT_COUNT (b - 1)) = fget s4 (Fld.FAULT_BCNT_COUNT (b - 1)) := by
    rw [hs5]; exact fget_fput_of_ne _ _ _ _ (far _ (by decide))
  refine ⟨?_, ?_, ?_⟩
  · rw [fget_ledgerAdd, e5, e4, e3, e2, e1]
  · rw [fbit_ledgerAdd, hs5, fbit_fputBit _ _ _ _ _ (by decide) (by simp only [b]; omega), if_pos rfl]
  · rw [bit_ledgerAdd, hs5, fputBit, bit_fput_of_ne _ _ _ _ (by decide)]
    exact bit_raise_self s3 Fld.FAULT_EVENT_CORR (by decide) rfl

/-- What a state keeps of a corrected fault of code `c` when a record is lost after it: its count (that of block 0x0D apart), its
bit and the event. -/
def keepsReport (s t : State) (c : Nat) : Prop :=
  fget t (Fld.FAULT_BCNT_COUNT (c / 256 - 1)) = fget s (Fld.FAULT_BCNT_COUNT (c / 256 - 1)) ∧
  (fbit s Fld.FAULT_CORR_BLK (c / 256 - 1) = true → fbit t Fld.FAULT_CORR_BLK (c / 256 - 1) = true) ∧
  (bit s Fld.FAULT_EVENT_CORR = true → bit t Fld.FAULT_EVENT_CORR = true)

/-- Nothing that is not of these three registers takes a report back. -/
theorem keepsReport_of_rd (s t : State) (c : Nat) (h1 : rd t (Reg.FAULT_BCNT (c / 256 - 1)) = rd s (Reg.FAULT_BCNT (c / 256 - 1)))
    (h2 : rd t Reg.FAULT_CORR = rd s Reg.FAULT_CORR) (h3 : rd t Reg.FAULT_EVENT = rd s Reg.FAULT_EVENT) : keepsReport s t c := by
  refine ⟨?_, ?_, ?_⟩
  · rw [fget, fget, h1]
  · rw [fbit, fbit, fget, fget, h2]; exact id
  · rw [bit, bit, fget, fget, h3]; exact id

theorem keepsReport.trans {s t u : State} {c : Nat} (h : keepsReport s t c) (g : keepsReport t u c) : keepsReport s u c :=
  ⟨g.1.trans h.1, fun x => g.2.1 (h.2.1 x), fun x => g.2.2 (h.2.2 x)⟩

/-- What lies in the recorder or in the fault block takes no report back. -/
theorem keepsReport_saddle (s : State) (x : RecSt) (c : Nat) : keepsReport s { s with saddle := x } c :=
  keepsReport_of_rd _ _ _ rfl rfl rfl

theorem keepsReport_noteRec (s : State) (n c : Nat) : keepsReport s (noteRec s n) c := by
  have h : ∀ a, rd (noteRec s n) a = rd s a := fun a => by rw [rd, rd, noteRec_live]
  exact keepsReport_of_rd _ _ _ (h _) (h _) (h _)

/-- Counting a fault writes the count of its own block, and else only registers below the counts. -/
theorem regs_countFault_block (s : State) (c cl k i ts : Nat) :
    SameRegsOutside (fun a => a == Reg.FAULT_BCNT (c / 256 - 1) || decide (a < 0x3100)) s (countFault s c cl k i ts) := by
  have hp : ∀ a, a < 0x3100 → (fun a => a == Reg.FAULT_BCNT (c / 256 - 1) || decide (a < 0x3100)) a = true := fun a ha => by simp [ha]
  unfold countFault
  extract_lets b s1 s2 s3 s4 s5
  have h1 : SameRegsOutside (fun a => a == Reg.FAULT_BCNT (c / 256 - 1) || decide (a < 0x3100)) s s1 :=
    (SameRegsOutside.refl _ s).inc _ (by simp [b])
  have h2 : SameRegsOutside (fun a => a == Reg.FAULT_BCNT (c / 256 - 1) || decide (a < 0x3100)) s s2 :=
    (((h1.fput _ _ (hp _ (by decide))).fput _ _ (hp _ (by decide))).fput _ _ (hp _ (by decide))).fput _ _ (hp _ (by decide))
  have h3 : SameRegsOutside (fun a => a == Reg.FAULT_BCNT (c / 256 - 1) || decide (a < 0x3100)) s s3 :=
    h2.wr64 _ _ _ (hp _ (by decide)) (hp _ (by decide))
  have h4 : SameRegsOutside (fun a => a == Reg.FAULT_BCNT (c / 256 - 1) || decide (a < 0x3100)) s s4 :=
    h3.raise _ (hp _ (by split <;> decide))
  have h5 : SameRegsOutside (fun a => a == Reg.FAULT_BCNT (c / 256 - 1) || decide (a < 0x3100)) s s5 := by
    by_cases hc : cl = 0
    · simp only [s5, if_pos hc]; exact h4.fputBit _ _ _ (hp _ (by decide))
    · simp only [s5, if_neg hc]; exact h4
  exact h5.of_live (ledgerAdd_live ..)

/-- Counting a corrected fault of another block takes no report back. -/
theorem keepsReport_countFault (s : State) (c c' ts : Nat) (h : c / 256 - 1 ≠ c' / 256 - 1) (h13 : c' / 256 ≤ 13) :
    keepsReport s (countFault s c' 0 0 0 ts) c := by
  refine ⟨?_, ?_, fun _ => (countFault_counts s c' 0 0 ts h13).2.2⟩
  · rw [fget, fget, regs_countFault_block]
    simp only [Reg.FAULT_BCNT, Bool.or_eq_false_iff, beq_eq_false_iff_ne, ne_eq, decide_eq_false_iff_not]
    omega
  · intro hx
    unfold countFault
    extract_lets b s1 s2 s3 s4 s5
    have hs5 : s5 = fputBit s4 Fld.FAULT_CORR_BLK (b - 1) true := if_pos rfl
    rw [fbit_ledgerAdd, hs5, fbit_fputBit _ _ _ _ _ (by decide) (by simp only [b]; omega), if_neg h]
    have far : ∀ f : Field, f.addr ≠ Reg.FAULT_CORR → Fld.FAULT_CORR_BLK.addr ≠ f.addr ∨ Fld.FAULT_CORR_BLK.lo +
        Fld.FAULT_CORR_BLK.width ≤ f.lo ∨ f.lo + f.width ≤ Fld.FAULT_CORR_BLK.lo := fun f hf => .inl (Ne.symm hf)
    have e4 : fbit s4 Fld.FAULT_CORR_BLK (c / 256 - 1) = fbit s3 Fld.FAULT_CORR_BLK (c / 256 - 1) :=
      fbit_fput_of_ne _ _ _ _ _ (far _ (by decide))
    have e3 : fbit s3 Fld.FAULT_CORR_BLK (c / 256 - 1) = fbit s2 Fld.FAULT_CORR_BLK (c / 256 - 1) := by
      simp only [s3, wr64, fbit, fget]
      rw [rd_wr_of_ne _ _ (by decide), rd_wr_of_ne _ _ (by decide)]
    have e2 : fbit s2 Fld.FAULT_CORR_BLK (c / 256 - 1) = fbit s1 Fld.FAULT_CORR_BLK (c / 256 - 1) := by
      simp only [s2]
      rw [fbit_fput_of_ne _ _ _ _ _ (far _ (by decide)), fbit_fput_of_ne _ _ _ _ _ (far _ (by decide)),
        fbit_fput_of_ne _ _ _ _ _ (far _ (by decide)), fbit_fput_of_ne _ _ _ _ _ (far _ (by decide))]
    have e1 : fbit s1 Fld.FAULT_CORR_BLK (c / 256 - 1) = fbit s Fld.FAULT_CORR_BLK (c / 256 - 1) :=
      fbit_fput_of_ne _ _ _ _ _ (far _ (by simp only [Reg.FAULT_BCNT, Reg.FAULT_CORR]; omega))
    rw [e4, e3, e2, e1, hx]

/-- A lost record takes back no report of a block but 0x0D. -/
theorem keepsReport_recordLost (s : State) (c : Nat) (hc : c / 256 - 1 < 12) : keepsReport s (recordLost s) c := by
  unfold recordLost
  extract_lets s1
  have hr : ∀ a, a < 0xB000 → rd s1 a = rd s a := fun a ha => by
    simp only [s1, raise, inc]
    rw [rd_fput_of_ne, rd_fput_of_ne] <;> simp only [Reg.REC_CNT, Reg.REC_EVENT] <;> omega
  have h1 : keepsReport s s1 c := keepsReport_of_rd _ _ _ (hr _ (by simp only [Reg.FAULT_BCNT]; omega)) (hr _ (by decide)) (hr _ (by decide))
  split
  · exact h1
  · exact (h1.trans (keepsReport_saddle s1 _ c)).trans (keepsReport_countFault _ c 0x0D01 _ (by omega) (by decide))

/-- A record takes back no report of a block but 0x0D. -/
theorem keepsReport_pushRecord (s : State) (ty sv cd ts : Nat) (p : List Byte) (c : Nat) (hc : c / 256 - 1 < 12) :
    keepsReport s (pushRecord s ty sv cd ts p) c := by
  unfold pushRecord
  extract_lets r q
  split
  · have hp : ∀ u : State, keepsReport u (syncPending u) c := fun u => by
      have hr : ∀ a, a ≠ Reg.REC_STATUS → rd (syncPending u) a = rd u a := fun a ha => by
        rw [syncPending, rd_fput_of_ne _ _ ha]; rfl
      exact keepsReport_of_rd _ _ _ (hr _ (by simp only [Reg.FAULT_BCNT, Reg.REC_STATUS]; omega)) (hr _ (by decide)) (hr _ (by decide))
    exact (keepsReport_saddle s _ c).trans (hp _)
  · split
    · split
      · exact (keepsReport_saddle s _ c).trans (keepsReport_recordLost _ c hc)
      · exact keepsReport_recordLost s c hc
    · exact keepsReport_recordLost s c hc

/-- A corrected fault of a block below 0x0D is counted once, flagged and raised, whatever becomes of its record (R386, R413). -/
theorem reportCorrected_counts (s : State) (c ts : Nat) (hc : c / 256 - 1 < 12) :
    CorrectedReported s (reportCorrected s c ts) c := by
  obtain ⟨h1, h2, h3⟩ := countFault_counts s c 0 0 ts (by omega)
  have hk : keepsReport (countFault s c 0 0 0 ts) (reportCorrected s c ts) c := by
    rw [reportCorrected]
    generalize countFault s c 0 0 0 ts = u
    unfold correctedRecord
    extract_lets last held
    split
    · exact keepsReport_of_rd _ _ _ rfl rfl rfl
    · exact (keepsReport_noteRec u c c).trans (keepsReport_pushRecord _ _ _ _ _ _ c hc)
  exact ⟨hk.1.trans h1, hk.2.1 h2, hk.2.2 h3⟩

end Sys2Proof.Machine
end

