-- ==== Sys2Proof/Laws/States.lean ====
section
/-! SUPPORT. Sys2Proof/Laws/States.lean: what the shared operations of feeds, sequencer, ports and faults, and a change of the device
state (R458), can change: registers, ports, feeds, sequencer, Harness outputs, recorder, fault block and online test; all else stays. -/

-- In the package as one text, proofs elaborated side by side ask for more threads than memory allows.
set_option Elab.async false

namespace Sys2Proof.Machine

/-- What neither a change of the device state nor a reported fault changes. -/
def stateFrame (s : State) : State := { s with
  live := [], ports := State.reset.ports, feeds := State.reset.feeds, seq := SeqSt.reset, harn := HarnSt.reset, fault := FaultSt.reset,
  saddle := RecSt.reset, test := TestSt.reset, power := { s.power with bootFatal := false }
  capo := { s.capo with sumNow := State.reset.capo.sumNow, cntNow := State.reset.capo.cntNow } }

/-- What a power state keeps when only the mark of a fatal fault in BOOT may have changed. -/
theorem power_of_bootFatal {p q : PowerSt} (h : { q with bootFatal := false } = { p with bootFatal := false }) :
    q = { p with bootFatal := q.bootFatal } := by
  cases p; cases q
  simp only [PowerSt.mk.injEq] at h ⊢
  tauto

/-- What the Capo data keep when only the sums of the round in progress may have changed. -/
theorem capo_of_sums {c d : CapoSt} {x : Vector Rat 32} {y : Vector Nat 32}
    (h : { d with sumNow := x, cntNow := y } = { c with sumNow := x, cntNow := y }) : d = { c with sumNow := d.sumNow, cntNow := d.cntNow } := by
  cases c; cases d
  simp only [CapoSt.mk.injEq] at h ⊢
  tauto

/-- The frame spelt out. -/
theorem only_of_stateFrame {s t : State} (h : stateFrame t = stateFrame s) :
    t = { s with live := t.live, ports := t.ports, feeds := t.feeds, seq := t.seq, harn := t.harn, fault := t.fault,
                 saddle := t.saddle, test := t.test, power := { s.power with bootFatal := t.power.bootFatal }
                 capo := { s.capo with sumNow := t.capo.sumNow, cntNow := t.capo.cntNow } } := by
  have hp := power_of_bootFatal (congrArg State.power h)
  have hc : t.capo = { s.capo with sumNow := t.capo.sumNow, cntNow := t.capo.cntNow } :=
    capo_of_sums (x := State.reset.capo.sumNow) (y := State.reset.capo.cntNow) (congrArg State.capo h)
  cases s; cases t
  simp only [stateFrame, State.mk.injEq] at h ⊢
  tauto

/-- A change of the device state and a fault leave both memories. -/
theorem sameMemory_of_stateFrame {s t : State} (h : stateFrame t = stateFrame s) : SameMemory s t := by
  rw [only_of_stateFrame h]
  exact ⟨fun _ => rfl, fun _ => rfl⟩

/-- The smaller frame lies in the larger one. -/
theorem stateFrame_of_recFrame {s t : State} (h : recFrame t = recFrame s) : stateFrame t = stateFrame s := by
  rw [only_of_recFrame h]; rfl

/-- A fold of steps that keep a frame keeps it. -/
theorem frame_foldl {α β : Type} (F : State → β) (f : State → α → State) (h : ∀ s x, F (f s x) = F s) (l : List α) (s : State) :
    F (l.foldl f s) = F s := foldl_keeps (fun t => F t = F s) f (fun t x ht => (h t x).trans ht) l s rfl

/-! ### Updates -/

@[simp] theorem stateFrame_wr (s : State) (a : Nat) (v : Word) : stateFrame (wr s a v) = stateFrame s := byUnfolding rfl
@[simp] theorem stateFrame_fput (s : State) (f : Field) (v : Nat) : stateFrame (fput s f v) = stateFrame s := byUnfolding rfl
@[simp] theorem stateFrame_fputS (s : State) (f : Field) (v : Int) : stateFrame (fputS s f v) = stateFrame s := byUnfolding rfl
@[simp] theorem stateFrame_fputB (s : State) (f : Field) (b : Bool) : stateFrame (fputB s f b) = stateFrame s := byUnfolding rfl
@[simp] theorem stateFrame_fputBit (s : State) (f : Field) (n : Nat) (b : Bool) : stateFrame (fputBit s f n b) = stateFrame s := byUnfolding rfl
@[simp] theorem stateFrame_raise (s : State) (f : Field) : stateFrame (raise s f) = stateFrame s := byUnfolding rfl
@[simp] theorem stateFrame_inc (s : State) (f : Field) : stateFrame (inc s f) = stateFrame s := byUnfolding rfl
@[simp] theorem stateFrame_wr64 (s : State) (lo hi v : Nat) : stateFrame (wr64 s lo hi v) = stateFrame s := byUnfolding rfl
@[simp] theorem stateFrame_setDev (s : State) (d : DevState) : stateFrame (setDev s d) = stateFrame s := byUnfolding rfl
@[simp] theorem stateFrame_setRec (s : State) (f : RecSt → RecSt) : stateFrame (setRec s f) = stateFrame s := byUnfolding rfl
@[simp] theorem stateFrame_setFlt (s : State) (f : FaultSt → FaultSt) : stateFrame (setFlt s f) = stateFrame s := byUnfolding rfl
@[simp] theorem stateFrame_setFeed (s : State) (h : Fin 8) (f : FeedSt → FeedSt) : stateFrame (setFeed s h f) = stateFrame s := byUnfolding rfl
@[simp] theorem stateFrame_setSeq (s : State) (f : SeqSt → SeqSt) : stateFrame (setSeq s f) = stateFrame s := byUnfolding rfl
@[simp] theorem stateFrame_setHarn (s : State) (f : HarnSt → HarnSt) : stateFrame (setHarn s f) = stateFrame s := byUnfolding rfl
@[simp] theorem stateFrame_setTest (s : State) (f : TestSt → TestSt) : stateFrame (setTest s f) = stateFrame s := byUnfolding rfl
@[simp] theorem stateFrame_ledgerAdd (s : State) (o n : Nat) : stateFrame (ledgerAdd s o n) = stateFrame s := byUnfolding rfl
@[simp] theorem stateFrame_putPhase (s : State) (p : SeqPhase) : stateFrame (putPhase s p) = stateFrame s := byUnfolding rfl
@[simp] theorem stateFrame_putCur (s : State) (r : Option (Fin 16)) : stateFrame (putCur s r) = stateFrame s := byUnfolding rfl
@[simp] theorem stateFrame_setRail (s : State) (r : Fin 16) (f : RailSt → RailSt) : stateFrame (setRail s r f) = stateFrame s := byUnfolding rfl
@[simp] theorem stateFrame_leaveSum (s : State) (p : Fin 32) : stateFrame (leaveSum s p) = stateFrame s := byUnfolding rfl
@[simp] theorem stateFrame_bootFatal (s : State) (b : Bool) :
    stateFrame { s with power := { s.power with bootFatal := b } } = stateFrame s := byUnfolding rfl
@[simp] theorem stateFrame_putFeedState (s : State) (h : Fin 8) (t : FeedState) : stateFrame (putFeedState s h t) = stateFrame s := byUnfolding rfl
@[simp] theorem stateFrame_enterDwell (s : State) : stateFrame (enterDwell s) = stateFrame s := byUnfolding rfl
@[simp] theorem stateFrame_nextSeq (s : State) : stateFrame (nextSeq s) = stateFrame s := byUnfolding rfl
@[simp] theorem stateFrame_syncAlive (s : State) : stateFrame (syncAlive s) = stateFrame s := byUnfolding rfl
@[simp] theorem stateFrame_makeEntry (s : State) (e c cl k i ts : Nat) : stateFrame (makeEntry s e c cl k i ts) = stateFrame s := by
  simp [makeEntry]

/-! ### Records and corrected faults -/

@[simp] theorem stateFrame_countFault (s : State) (c cl k i ts : Nat) : stateFrame (countFault s c cl k i ts) = stateFrame s :=
  stateFrame_of_recFrame (recFrame_countFault ..)

@[simp] theorem stateFrame_recordLost (s : State) : stateFrame (recordLost s) = stateFrame s := stateFrame_of_recFrame (recFrame_recordLost s)

@[simp] theorem stateFrame_pushRecord (s : State) (ty sv c ts : Nat) (p : List Byte) :
    stateFrame (pushRecord s ty sv c ts p) = stateFrame s := stateFrame_of_recFrame (recFrame_pushRecord ..)

@[simp] theorem stateFrame_reportCorrected (s : State) (c ts : Nat) : stateFrame (reportCorrected s c ts) = stateFrame s :=
  stateFrame_of_recFrame (recFrame_reportCorrected ..)

/-! ### Feeds (R229 to R244) -/

@[simp] theorem stateFrame_refreshSuspension (s : State) : stateFrame (refreshSuspension s) = stateFrame s :=
  frame_foldl stateFrame _ (fun t f => by
    extract_lets was now s1
    exact ite_eq_of stateFrame _ _ _ _ (by simp [s1]) (by simp [s1])) _ _

@[simp] theorem stateFrame_feedOut (s : State) (f : Fin 8) (g pc : Bool) : stateFrame (feedOut s f g pc) = stateFrame s := by
  unfold feedOut
  extract_lets wasG was s1 s2 s3 s4
  have h2 : stateFrame s2 = stateFrame s := by simp [s2, s1]
  have h3 : stateFrame s3 = stateFrame s := ite_eq_of stateFrame _ _ _ _ (by simp [h2]) h2
  have h4 : stateFrame s4 = stateFrame s := ite_eq_of stateFrame _ _ _ _ (by simp [h3]) h3
  rw [stateFrame_refreshSuspension, h4]

@[simp] theorem stateFrame_feedOn (s : State) (f : Fin 8) : stateFrame (feedOn s f) = stateFrame s := by simp [feedOn]

@[simp] theorem stateFrame_feedClose (s : State) (f : Fin 8) : stateFrame (feedClose s f) = stateFrame s := by
  unfold feedClose
  split <;> simp

@[simp] theorem stateFrame_feedQualify (s : State) (f : Fin 8) (w : Bool) : stateFrame (feedQualify s f w) = stateFrame s := by
  unfold feedQualify
  extract_lets s1
  have h1 : stateFrame s1 = stateFrame s := by simp [s1]
  split
  · split <;> simp [h1]
  · exact h1

@[simp] theorem stateFrame_feedRunLoss (s : State) (f : Fin 8) : stateFrame (feedRunLoss s f) = stateFrame s := by
  unfold feedRunLoss
  extract_lets s1
  have h1 : stateFrame s1 = stateFrame s := by simp [s1]
  split
  · exact h1
  · exact h1
  · rw [stateFrame_putFeedState, h1]

@[simp] theorem stateFrame_feedFault (s : State) (f : Fin 8) : stateFrame (feedFault s f) = stateFrame s := by simp [feedFault]

@[simp] theorem stateFrame_refreshFeed (s : State) (f : Fin 8) : stateFrame (refreshFeed s f) = stateFrame s := by
  unfold refreshFeed
  split
  · exact ite_eq_of stateFrame _ _ _ _ (by simp) rfl
  · split <;> simp
  · rfl
  · split <;> simp

@[simp] theorem stateFrame_refreshFeeds (s : State) : stateFrame (refreshFeeds s) = stateFrame s :=
  frame_foldl stateFrame _ stateFrame_refreshFeed _ _

/-! ### The sequencer (R251 to R270) -/

@[simp] theorem stateFrame_showRail (s : State) (r : Fin 16) : stateFrame (showRail s r) = stateFrame s := by simp [showRail]

@[simp] theorem stateFrame_restartRail (s : State) (r : Fin 16) : stateFrame (restartRail s r) = stateFrame s := by
  unfold restartRail
  exact ite_eq_of stateFrame _ _ _ _ (by simp) (by simp)

@[simp] theorem stateFrame_putRail (s : State) (r : Fin 16) (t : RailState) : stateFrame (putRail s r t) = stateFrame s := by
  unfold putRail
  extract_lets en lo s1 s2 s3
  have h2 : stateFrame s2 = stateFrame s := by simp [s2, s1]
  have h3 : stateFrame s3 = stateFrame s := ite_eq_of stateFrame _ _ _ _ (by simp [h2]) h2
  simp [h3]

@[simp] theorem stateFrame_seqRecord (s : State) (n : Nat) : stateFrame (seqRecord s n) = stateFrame s := stateFrame_pushRecord ..

@[simp] theorem stateFrame_powerUpDone (s : State) : stateFrame (powerUpDone s) = stateFrame s := by simp [powerUpDone]

@[simp] theorem stateFrame_takeUp (s : State) (n : Nat) : stateFrame (takeUp s n) = stateFrame s := by
  unfold takeUp
  extract_lets later s0
  have h0 : stateFrame s0 = stateFrame s := by simp [s0]
  split <;> simp [h0]

@[simp] theorem stateFrame_applySeqCfg (s : State) : stateFrame (applySeqCfg s) = stateFrame s := by
  unfold applySeqCfg
  extract_lets s1 s2
  have h1 : stateFrame s1 = stateFrame s := frame_foldl stateFrame _ (fun _ _ => by split <;> simp) _ _
  have h2 : stateFrame s2 = stateFrame s1 := frame_foldl stateFrame _ (fun t r => by simp) _ _
  simp [h2, h1]

@[simp] theorem stateFrame_powerDownDone (s : State) : stateFrame (powerDownDone s) = stateFrame s := by
  unfold powerDownDone
  extract_lets s1 s2 s3 s4
  have h3 : stateFrame s3 = stateFrame s := by simp [s3, s2, s1]
  have h4 : stateFrame s4 = stateFrame s := ite_eq_of stateFrame _ _ _ _ (by simp [h3]) h3
  exact ite_eq_of stateFrame _ _ _ _ (by simp [h4]) h4

@[simp] theorem stateFrame_takeDown (s : State) (n : Nat) : stateFrame (takeDown s n) = stateFrame s := by
  unfold takeDown
  extract_lets earlier
  split <;> simp

@[simp] theorem stateFrame_beginUp (s : State) : stateFrame (beginUp s) = stateFrame s := by simp [beginUp]

@[simp] theorem stateFrame_beginDown (s : State) : stateFrame (beginDown s) = stateFrame s := by simp [beginDown]

@[simp] theorem stateFrame_seqOn (s : State) : stateFrame (seqOn s) = stateFrame s := by
  unfold seqOn
  split <;> simp

@[simp] theorem stateFrame_seqOff (s : State) : stateFrame (seqOff s) = stateFrame s := by
  unfold seqOff
  extract_lets s1
  split
  · rfl
  · exact ite_eq_of stateFrame _ _ _ _ (by simp [s1]) (by simp [s1])
  · rw [stateFrame_beginDown]
    exact frame_foldl stateFrame _ (fun t r => by split <;> simp) _ _
  · simp
  · simp

@[simp] theorem stateFrame_requestOn (s : State) : stateFrame (requestOn s) = stateFrame s := byUnfolding rfl
@[simp] theorem stateFrame_requestOff (s : State) : stateFrame (requestOff s) = stateFrame s := byUnfolding rfl

/-! ### Ports and the summary of the fault block (R117 to R119, R406) -/

@[simp] theorem stateFrame_abortCapture (s : State) (p : Fin 32) : stateFrame (abortCapture s p) = stateFrame s := by
  unfold abortCapture
  split
  · split <;> rfl
  · rfl

@[simp] theorem stateFrame_setPorts (s : State) (v : Vector PortSt 32) : stateFrame { s with ports := v } = stateFrame s := byUnfolding rfl

@[simp] theorem stateFrame_refreshPort (cs fs : List (Nat × Nat)) (s : State) (p : Fin 32) :
    stateFrame (refreshPort cs fs s p) = stateFrame s := by
  unfold refreshPort
  extract_lets cov pt en was settle inert pt' s1 s2
  have h2 : stateFrame s2 = stateFrame s := by simp only [s2, s1, stateFrame_fput, stateFrame_fputB, stateFrame_setPorts]
  exact ite_eq_of stateFrame _ _ _ _ (by simp [h2]) h2

@[simp] theorem stateFrame_refreshPorts (s : State) : stateFrame (refreshPorts s) = stateFrame s :=
  frame_foldl stateFrame _ (stateFrame_refreshPort _ _) _ _

@[simp] theorem stateFrame_refreshFaultStatus (s : State) : stateFrame (refreshFaultStatus s) = stateFrame s := by simp [refreshFaultStatus]

/-! ### Harness outputs (R325 to R343) -/

@[simp] theorem stateFrame_sendOn (s : State) (p : HPort) (k : Nat) (q : Option HPort) (f : Frame) :
    stateFrame (sendOn s p k q f) = stateFrame s := by
  unfold sendOn
  split
  · rfl
  · split <;> rfl

@[simp] theorem stateFrame_reverseCopy (s : State) (q : Option HPort) (f : Frame) : stateFrame (reverseCopy s q f) = stateFrame s := by
  unfold reverseCopy
  split <;> simp

@[simp] theorem stateFrame_sendDown (s : State) (q : Option HPort) (f : Frame) : stateFrame (sendDown s q f) = stateFrame s := by
  unfold sendDown
  rw [stateFrame_reverseCopy]
  exact frame_foldl stateFrame _ (fun _ _ => stateFrame_sendOn ..) _ _

@[simp] theorem stateFrame_sendOwn (s : State) (k : Nat) (f : Frame) : stateFrame (sendOwn s k f) = stateFrame s := by
  unfold sendOwn
  split
  · rfl
  · extract_lets outs s1
    have h1 : stateFrame s1 = stateFrame s := frame_foldl stateFrame _ (fun _ _ => stateFrame_sendOn ..) _ _
    exact ite_eq_of stateFrame _ _ _ _ h1 (by simp [h1])

@[simp] theorem stateFrame_sendFirst (s : State) (f : Frame) : stateFrame (sendFirst s f) = stateFrame s := by simp [sendFirst]

@[simp] theorem stateFrame_putEvt (s : State) (u : Bool) (f : Frame) : stateFrame (putEvt s u f) = stateFrame s := by
  unfold putEvt
  split
  · rw [stateFrame_setHarn, stateFrame_nextSeq]
    exact ite_eq_of stateFrame _ _ _ _ (by simp) (by simp)
  · split
    · split <;> simp
    · rfl

@[simp] theorem stateFrame_sendEvt (s : State) (c cl ts : Nat) : stateFrame (sendEvt s c cl ts) = stateFrame s :=
  ite_eq_of stateFrame _ _ _ _ (stateFrame_putEvt ..) rfl

/-! ### The device state and faults (R386 to R390, R458) -/

@[simp] theorem stateFrame_endFreeze (s : State) : stateFrame (endFreeze s) = stateFrame s := byUnfolding rfl

@[simp] theorem stateFrame_abandonArm (s : State) (r : Nat) : stateFrame (abandonArm s r) = stateFrame s := by
  unfold abandonArm
  split <;> simp

@[simp] theorem stateFrame_changeState (s : State) (d : DevState) : stateFrame (changeState s d) = stateFrame s := by
  unfold changeState
  extract_lets old s1 s1a s1t s2 s3 s4 s5
  have h1 : stateFrame s1 = stateFrame s := by simp [s1]
  have h1a : stateFrame s1a = stateFrame s := ite_eq_of stateFrame _ _ _ _ (by simp [h1]) h1
  have h1t : stateFrame s1t = stateFrame s := by
    simp only [s1t]
    exact ite_eq_of stateFrame _ _ _ _ (by rw [stateFrame_fput, stateFrame_fput, stateFrame_setTest, h1a]) h1a
  have h4 : stateFrame s4 = stateFrame s := by simp [s4, s3, s2, h1t]
  have h5 : stateFrame s5 = stateFrame s := ite_eq_of stateFrame _ _ _ _ (by simp [h4]) h4
  simp [h5]

@[simp] theorem stateFrame_askSnapshot (c cl ts : Nat) (q : Nat × Nat) (s : State) (k : Nat) :
    stateFrame (askSnapshot c cl ts q s k) = stateFrame s := by
  unfold askSnapshot
  split
  · simp
  · rfl

@[simp] theorem stateFrame_faultRecord (s : State) (c cl k i ts sl n : Nat) : stateFrame (faultRecord s c cl k i ts sl n) = stateFrame s :=
  stateFrame_pushRecord ..

@[simp] theorem stateFrame_enterSafe (s : State) : stateFrame (enterSafe s) = stateFrame s := by
  unfold enterSafe
  split <;> simp

@[simp] theorem stateFrame_react (s : State) (c cl k i ts n : Nat) : stateFrame (react s c cl k i ts n) = stateFrame s := by
  unfold react
  extract_lets cs s1 s2 s3
  have h2 : stateFrame s2 = stateFrame s :=
    (frame_foldl stateFrame _ (fun t x => stateFrame_askSnapshot c cl ts (k, i) t x) _ _).trans (by simp [s1])
  have h3 : stateFrame s3 = stateFrame s := by simp [s3, h2]
  exact ite_eq_of stateFrame _ _ _ _ (by simp [h3]) h3

@[simp] theorem stateFrame_register (s : State) (c cl k i ts : Nat) : stateFrame (register s c cl k i ts) = stateFrame s := by
  unfold register
  split
  · simp
  · split
    · extract_lets s1 s2
      have h2 : stateFrame s2 = stateFrame s := ite_eq_of stateFrame _ _ _ _ (by simp [s1]) (by simp [s1])
      simp [h2]
    · simp [reportFull]

@[simp] theorem stateFrame_report (s : State) (c cl k i ts : Nat) : stateFrame (report s c cl k i ts) = stateFrame s := by
  unfold report
  extract_lets k' i' s1
  have h1 : stateFrame s1 = stateFrame s := by simp [s1]
  split
  · simp
  · simp [h1]

/-- Everything that a change of the device state can change. -/
theorem changeState_only (s : State) (d : DevState) : let t := changeState s d
    t = { s with live := t.live, ports := t.ports, feeds := t.feeds, seq := t.seq, harn := t.harn, fault := t.fault,
                 saddle := t.saddle, test := t.test, power := { s.power with bootFatal := t.power.bootFatal }
                 capo := { s.capo with sumNow := t.capo.sumNow, cntNow := t.capo.cntNow } } :=
  only_of_stateFrame (stateFrame_changeState s d)

/-- Everything that a reported fault can change. -/
theorem report_only (s : State) (c cl k i ts : Nat) : let t := report s c cl k i ts
    t = { s with live := t.live, ports := t.ports, feeds := t.feeds, seq := t.seq, harn := t.harn, fault := t.fault,
                 saddle := t.saddle, test := t.test, power := { s.power with bootFatal := t.power.bootFatal }
                 capo := { s.capo with sumNow := t.capo.sumNow, cntNow := t.capo.cntNow } } :=
  only_of_stateFrame (stateFrame_report s c cl k i ts)

end Sys2Proof.Machine
end

