-- ==== Sys2Proof/Laws/Canonical.lean ====
section
/-! SUPPORT. Sys2Proof/Laws/Canonical.lean: the updates and the shared operations of records, feeds, sequencer, ports, Harness and faults
keep the canonical form of everything that is held sparsely. -/

-- In the package as one text, proofs elaborated side by side ask for more threads than memory allows.
set_option Elab.async false

namespace Sys2Proof.Machine

/-- A property that both branches have. -/
theorem canonical_ite {c : Prop} [Decidable c] {x y : State} (hx : x.canonical = true) (hy : y.canonical = true) :
    (if c then x else y).canonical = true := by split <;> assumption

/-- A fold of steps that each keep the canonical form keeps it. -/
theorem canonical_foldl {α : Type} (f : State → α → State) (hf : ∀ s x, s.canonical = true → (f s x).canonical = true) (l : List α)
    (s : State) (h : s.canonical = true) : (l.foldl f s).canonical = true := foldl_keeps (fun t => t.canonical = true) f hf l s h

/-! ### Updates -/


@[simp] theorem canonical_setRec (s : State) (f : RecSt → RecSt) : (setRec s f).canonical = s.canonical := byUnfolding rfl
@[simp] theorem canonical_setFlt (s : State) (f : FaultSt → FaultSt) : (setFlt s f).canonical = s.canonical := byUnfolding rfl
@[simp] theorem canonical_setFeed (s : State) (h : Fin 8) (f : FeedSt → FeedSt) : (setFeed s h f).canonical = s.canonical := byUnfolding rfl
@[simp] theorem canonical_setSeq (s : State) (f : SeqSt → SeqSt) : (setSeq s f).canonical = s.canonical := byUnfolding rfl
@[simp] theorem canonical_setHarn (s : State) (f : HarnSt → HarnSt) : (setHarn s f).canonical = s.canonical := byUnfolding rfl
@[simp] theorem canonical_setTest (s : State) (f : TestSt → TestSt) : (setTest s f).canonical = s.canonical := byUnfolding rfl
@[simp] theorem canonical_ledgerAdd (s : State) (o n : Nat) : (ledgerAdd s o n).canonical = s.canonical := byUnfolding rfl
@[simp] theorem canonical_nextSeq (s : State) : (nextSeq s).canonical = s.canonical := byUnfolding rfl
@[simp] theorem canonical_syncAlive (s : State) : (syncAlive s).canonical = s.canonical := byUnfolding rfl
@[simp] theorem canonical_setBatt (s : State) (b : Fin 2) (f : BattSt → BattSt) : (setBatt s b f).canonical = s.canonical := byUnfolding rfl
@[simp] theorem canonical_setCapo (s : State) (f : CapoSt → CapoSt) : (setCapo s f).canonical = s.canonical := byUnfolding rfl
@[simp] theorem canonical_setCmp (s : State) (p : Fin 32) (c : Fin 4) (f : CmpSt → CmpSt) : (setCmp s p c f).canonical = s.canonical := byUnfolding rfl
@[simp] theorem canonical_setLoop (s : State) (n : Fin 64) (f : LoopSt → LoopSt) : (setLoop s n f).canonical = s.canonical := byUnfolding rfl
@[simp] theorem canonical_setHk (s : State) (f : HkSt → HkSt) : (setHk s f).canonical = s.canonical := byUnfolding rfl
@[simp] theorem canonical_setHost (s : State) (f : HostSt → HostSt) : (setHost s f).canonical = s.canonical := byUnfolding rfl
@[simp] theorem canonical_setGate (s : State) (p : Fin 32) (g : Gate) (f : GateSt → GateSt) : (setGate s p g f).canonical = s.canonical := byUnfolding rfl
@[simp] theorem canonical_setPower (s : State) (f : PowerSt → PowerSt) : (setPower s f).canonical = s.canonical := byUnfolding rfl
@[simp] theorem canonical_setQueue (s : State) (q : Fin 64) (f : QueueSt → QueueSt) : (setQueue s q f).canonical = s.canonical := byUnfolding rfl
@[simp] theorem canonical_setSched (s : State) (f : SchedSt → SchedSt) : (setSched s f).canonical = s.canonical := byUnfolding rfl
@[simp] theorem canonical_setTime (s : State) (f : TimeSt → TimeSt) : (setTime s f).canonical = s.canonical := byUnfolding rfl
@[simp] theorem canonical_setTrust (s : State) (f : TrustSt → TrustSt) : (setTrust s f).canonical = s.canonical := byUnfolding rfl
@[simp] theorem canonical_withTest (s : State) (x : TestSt) : ({ s with test := x }).canonical = s.canonical := byUnfolding rfl
@[simp] theorem canonical_withPorts (s : State) (x : Vector PortSt 32) : ({ s with ports := x }).canonical = s.canonical := byUnfolding rfl
@[simp] theorem canonical_withSaddle (s : State) (x : RecSt) : ({ s with saddle := x }).canonical = s.canonical := byUnfolding rfl
@[simp] theorem canonical_withFault (s : State) (x : FaultSt) : ({ s with fault := x }).canonical = s.canonical := byUnfolding rfl
@[simp] theorem canonical_withFree (s : State) (n : Nat) : ({ s with free := n }).canonical = s.canonical := byUnfolding rfl
@[simp] theorem canonical_withPending (s : State) (l : List Instr) : ({ s with pending := l }).canonical = s.canonical := byUnfolding rfl
@[simp] theorem canonical_withPower (s : State) (x : PowerSt) : ({ s with power := x }).canonical = s.canonical := byUnfolding rfl
@[simp] theorem canonical_leaveSum (s : State) (p : Fin 32) : (leaveSum s p).canonical = s.canonical := byUnfolding rfl
@[simp] theorem canonical_idle (s : State) : (s.idle).canonical = s.canonical := byUnfolding rfl
@[simp] theorem canonical_fputS (s : State) (f : Field) (v : Int) (h : s.canonical = true) : (fputS s f v).canonical = true := canonical_fput _ _ _ h
@[simp] theorem canonical_fputB (s : State) (f : Field) (b : Bool) (h : s.canonical = true) : (fputB s f b).canonical = true := canonical_fput _ _ _ h
@[simp] theorem canonical_fputBit (s : State) (f : Field) (n : Nat) (b : Bool) (h : s.canonical = true) : (fputBit s f n b).canonical = true := canonical_fput _ _ _ h
@[simp] theorem canonical_raise (s : State) (f : Field) (h : s.canonical = true) : (raise s f).canonical = true := canonical_fput _ _ _ h
@[simp] theorem canonical_inc (s : State) (f : Field) (h : s.canonical = true) : (inc s f).canonical = true := canonical_fput _ _ _ h
@[simp] theorem canonical_wr64 (s : State) (lo hi v : Nat) (h : s.canonical = true) : (wr64 s lo hi v).canonical = true := canonical_wr _ _ _ (canonical_wr _ _ _ h)
@[simp] theorem canonical_setDev (s : State) (d : DevState) (h : s.canonical = true) : (setDev s d).canonical = true := canonical_fput _ _ _ h
@[simp] theorem canonical_putPhase (s : State) (p : SeqPhase) (h : s.canonical = true) : (putPhase s p).canonical = true := canonical_fput _ _ _ h
@[simp] theorem canonical_putCur (s : State) (r : Option (Fin 16)) (h : s.canonical = true) : (putCur s r).canonical = true := canonical_fput _ _ _ h
@[simp] theorem canonical_enterDwell (s : State) (h : s.canonical = true) : (enterDwell s).canonical = true := canonical_fput _ _ _ h

/-! ### Records and faults -/

@[simp] theorem canonical_syncPending (s : State) (h : s.canonical = true) : (syncPending s).canonical = true := by simp (maxDischargeDepth := 40) [syncPending, h]

@[simp] theorem canonical_countFault (s : State) (c cl k i ts : Nat) (h : s.canonical = true) :
    (countFault s c cl k i ts).canonical = true := by
  unfold countFault
  extract_lets b s1 s2 s3 s4 s5
  have h4 : s4.canonical = true := by simp (maxDischargeDepth := 40) [s4, s3, s2, s1, h]
  rw [canonical_ledgerAdd]
  exact canonical_ite (by simp (maxDischargeDepth := 40) [h4]) h4

@[simp] theorem canonical_recordLost (s : State) (h : s.canonical = true) : (recordLost s).canonical = true := by
  unfold recordLost
  extract_lets s1
  have h1 : s1.canonical = true := by simp (maxDischargeDepth := 40) [s1, h]
  exact canonical_ite h1 (by simp (maxDischargeDepth := 40) [h1])

@[simp] theorem canonical_pushRecord (s : State) (ty sv c ts : Nat) (p : List Byte) (h : s.canonical = true) :
    (pushRecord s ty sv c ts p).canonical = true := by
  unfold pushRecord
  extract_lets r q
  split
  · simp (maxDischargeDepth := 40) [h]
  · split
    · split <;> simp (maxDischargeDepth := 40) [h]
    · simp (maxDischargeDepth := 40) [h]

@[simp] theorem canonical_noteRec (s : State) (c : Nat) (h : s.canonical = true) : (noteRec s c).canonical = true :=
  canonical_ite h h

@[simp] theorem canonical_reportCorrected (s : State) (c ts : Nat) (h : s.canonical = true) : (reportCorrected s c ts).canonical = true := by
  rw [reportCorrected]
  have h0 : (countFault s c 0 0 0 ts).canonical = true := by simp (maxDischargeDepth := 40) [h]
  generalize countFault s c 0 0 0 ts = u at h0
  unfold correctedRecord
  extract_lets last held
  exact canonical_ite h0 (canonical_pushRecord _ _ _ _ _ _ (canonical_noteRec _ _ h0))

/-! ### Feeds -/

@[simp] theorem canonical_putFeedState (s : State) (f : Fin 8) (t : FeedState) (h : s.canonical = true) :
    (putFeedState s f t).canonical = true := by simp (maxDischargeDepth := 40) [putFeedState, h]

@[simp] theorem canonical_refreshSuspension (s : State) (h : s.canonical = true) : (refreshSuspension s).canonical = true :=
  canonical_foldl _ (fun t f ht => by
    extract_lets was now s1
    have h1 : s1.canonical = true := by simp (maxDischargeDepth := 40) [s1, ht]
    exact canonical_ite (by simp (maxDischargeDepth := 40) [h1]) h1) _ _ h

@[simp] theorem canonical_feedOut (s : State) (f : Fin 8) (g pc : Bool) (h : s.canonical = true) : (feedOut s f g pc).canonical = true := by
  unfold feedOut
  extract_lets wasG was s1 s2 s3 s4
  have h2 : s2.canonical = true := by simp (maxDischargeDepth := 40) [s2, s1, h]
  have h3 : s3.canonical = true := canonical_ite (by simp (maxDischargeDepth := 40) [h2]) h2
  have h4 : s4.canonical = true := canonical_ite (by simp (maxDischargeDepth := 40) [h3]) h3
  simp (maxDischargeDepth := 40) [h4]

@[simp] theorem canonical_feedOn (s : State) (f : Fin 8) (h : s.canonical = true) : (feedOn s f).canonical = true := by simp (maxDischargeDepth := 40) [feedOn, h]

@[simp] theorem canonical_feedClose (s : State) (f : Fin 8) (h : s.canonical = true) : (feedClose s f).canonical = true := by
  unfold feedClose
  split <;> simp (maxDischargeDepth := 40) [h]

@[simp] theorem canonical_feedQualify (s : State) (f : Fin 8) (w : Bool) (h : s.canonical = true) : (feedQualify s f w).canonical = true := by
  unfold feedQualify
  extract_lets s1
  have h1 : s1.canonical = true := by simp (maxDischargeDepth := 40) [s1, h]
  split
  · split <;> simp (maxDischargeDepth := 40) [h1]
  · exact h1

@[simp] theorem canonical_feedRunLoss (s : State) (f : Fin 8) (h : s.canonical = true) : (feedRunLoss s f).canonical = true := by
  unfold feedRunLoss
  extract_lets s1
  have h1 : s1.canonical = true := by simp (maxDischargeDepth := 40) [s1, h]
  split <;> simp (maxDischargeDepth := 40) [h1]

@[simp] theorem canonical_feedFault (s : State) (f : Fin 8) (h : s.canonical = true) : (feedFault s f).canonical = true := by
  simp (maxDischargeDepth := 40) [feedFault, h]

@[simp] theorem canonical_refreshFeed (s : State) (f : Fin 8) (h : s.canonical = true) : (refreshFeed s f).canonical = true := by
  unfold refreshFeed
  split
  · exact canonical_ite (canonical_feedRunLoss _ _ h) h
  · split <;> simp (maxDischargeDepth := 40) [h]
  · exact h
  · split <;> simp (maxDischargeDepth := 40) [h]

@[simp] theorem canonical_refreshFeeds (s : State) (h : s.canonical = true) : (refreshFeeds s).canonical = true :=
  canonical_foldl _ canonical_refreshFeed _ _ h

/-! ### The sequencer -/

@[simp] theorem canonical_setRail (s : State) (r : Fin 16) (f : RailSt → RailSt) : (setRail s r f).canonical = s.canonical := byUnfolding rfl

@[simp] theorem canonical_showRail (s : State) (r : Fin 16) (h : s.canonical = true) : (showRail s r).canonical = true := by
  simp (maxDischargeDepth := 40) [showRail, h]

@[simp] theorem canonical_restartRail (s : State) (r : Fin 16) (h : s.canonical = true) : (restartRail s r).canonical = true :=
  canonical_ite h h

@[simp] theorem canonical_putRail (s : State) (r : Fin 16) (t : RailState) (h : s.canonical = true) : (putRail s r t).canonical = true := by
  unfold putRail
  extract_lets en lo s1 s2 s3
  have h2 : s2.canonical = true := by simp (maxDischargeDepth := 40) [s2, s1, h]
  have h3 : s3.canonical = true := canonical_ite (by simp (maxDischargeDepth := 40) [h2]) h2
  simp (maxDischargeDepth := 40) [h3]

@[simp] theorem canonical_seqRecord (s : State) (n : Nat) (h : s.canonical = true) : (seqRecord s n).canonical = true :=
  canonical_pushRecord _ _ _ _ _ _ h

@[simp] theorem canonical_powerUpDone (s : State) (h : s.canonical = true) : (powerUpDone s).canonical = true := by simp (maxDischargeDepth := 40) [powerUpDone, h]

@[simp] theorem canonical_takeUp (s : State) (n : Nat) (h : s.canonical = true) : (takeUp s n).canonical = true := by
  unfold takeUp
  extract_lets later s0
  have h0 : s0.canonical = true := by simp (maxDischargeDepth := 40) [s0, h]
  split <;> simp (maxDischargeDepth := 40) [h0]

@[simp] theorem canonical_applySeqCfg (s : State) (h : s.canonical = true) : (applySeqCfg s).canonical = true := by
  unfold applySeqCfg
  extract_lets s1 s2
  have h1 : s1.canonical = true := canonical_foldl _ (fun _ _ ht => canonical_ite (canonical_wr _ _ _ ht) ht) _ _ h
  have h2 : s2.canonical = true := canonical_foldl _ (fun t r ht => by simp (maxDischargeDepth := 40) [ht]) _ _ h1
  simp (maxDischargeDepth := 40) [h2]

@[simp] theorem canonical_powerDownDone (s : State) (h : s.canonical = true) : (powerDownDone s).canonical = true := by
  unfold powerDownDone
  extract_lets s1 s2 s3 s4
  have h3 : s3.canonical = true := by simp (maxDischargeDepth := 40) [s3, s2, s1, h]
  have h4 : s4.canonical = true := canonical_ite (by simp (maxDischargeDepth := 40) [h3]) h3
  exact canonical_ite (by simp (maxDischargeDepth := 40) [h4]) h4

@[simp] theorem canonical_takeDown (s : State) (n : Nat) (h : s.canonical = true) : (takeDown s n).canonical = true := by
  unfold takeDown
  extract_lets earlier
  split <;> simp (maxDischargeDepth := 40) [h]

@[simp] theorem canonical_beginUp (s : State) (h : s.canonical = true) : (beginUp s).canonical = true := by simp (maxDischargeDepth := 40) [beginUp, h]

@[simp] theorem canonical_beginDown (s : State) (h : s.canonical = true) : (beginDown s).canonical = true := by simp (maxDischargeDepth := 40) [beginDown, h]

@[simp] theorem canonical_seqOn (s : State) (h : s.canonical = true) : (seqOn s).canonical = true := by
  unfold seqOn
  split <;> simp (maxDischargeDepth := 40) [h]

@[simp] theorem canonical_seqOff (s : State) (h : s.canonical = true) : (seqOff s).canonical = true := by
  unfold seqOff
  extract_lets s1
  split
  · exact h
  · have h1 : s1.canonical = true := by simp (maxDischargeDepth := 40) [s1, h]
    exact canonical_ite (by simp (maxDischargeDepth := 40) [h1]) h1
  · exact canonical_beginDown _ (canonical_foldl _ (fun t r ht => by split <;> simp (maxDischargeDepth := 40) [ht]) _ _ h)
  · simp (maxDischargeDepth := 40) [h]
  · simp (maxDischargeDepth := 40) [h]

@[simp] theorem canonical_requestOn (s : State) : (requestOn s).canonical = s.canonical := byUnfolding rfl
@[simp] theorem canonical_requestOff (s : State) : (requestOff s).canonical = s.canonical := byUnfolding rfl

@[simp] theorem canonical_seqTick (s : State) (h : s.canonical = true) : (seqTick s).canonical = true := by
  unfold seqTick
  extract_lets s1
  have h1 : s1.canonical = true := by simp [s1, h]
  split
  · exact h1
  · split
    · split <;> simp [h1]
    · split <;> simp [h1]

@[simp] theorem canonical_seqEnd (s : State) (h : s.canonical = true) : (seqEnd s).canonical = true :=
  canonical_ite (canonical_ite (canonical_seqOff _ h) h) h

@[simp] theorem canonical_ticked (s : State) (h : s.canonical = true) : (s.ticked).canonical = true :=
  canonical_seqTick _ ((canonical_idle _).trans (canonical_seqEnd s h))

/-! ### Ports and the summary of the fault block -/

@[simp] theorem canonical_abortCapture (s : State) (p : Fin 32) (h : s.canonical = true) : (abortCapture s p).canonical = true := by
  unfold abortCapture
  split
  · split <;> simp (maxDischargeDepth := 40) [h]
  · exact h

@[simp] theorem canonical_refreshPort (cs fs : List (Nat × Nat)) (s : State) (p : Fin 32) (h : s.canonical = true) :
    (refreshPort cs fs s p).canonical = true := by
  unfold refreshPort
  extract_lets cov pt en was settle inert pt' s1 s2
  have h1 : s1.canonical = true := canonical_fputB _ _ _ h
  have h2 : s2.canonical = true := canonical_fput _ _ _ h1
  exact canonical_ite (by simp (maxDischargeDepth := 40) [h2]) h2

@[simp] theorem canonical_refreshPorts (s : State) (h : s.canonical = true) : (refreshPorts s).canonical = true :=
  canonical_foldl _ (canonical_refreshPort _ _) _ _ h

@[simp] theorem canonical_refreshFaultStatus (s : State) (h : s.canonical = true) : (refreshFaultStatus s).canonical = true := by
  simp (maxDischargeDepth := 40) [refreshFaultStatus, h]

/-! ### Harness outputs -/

@[simp] theorem canonical_sendOn (s : State) (p : HPort) (k : Nat) (q : Option HPort) (f : Frame) :
    (sendOn s p k q f).canonical = s.canonical := by
  unfold sendOn
  split
  · rfl
  · split <;> rfl

@[simp] theorem canonical_reverseCopy (s : State) (q : Option HPort) (f : Frame) : (reverseCopy s q f).canonical = s.canonical := by
  unfold reverseCopy
  split <;> simp

@[simp] theorem canonical_sendDown (s : State) (q : Option HPort) (f : Frame) : (sendDown s q f).canonical = s.canonical := by
  unfold sendDown
  rw [canonical_reverseCopy]
  exact frame_foldl (fun t => t.canonical) _ (fun _ _ => canonical_sendOn ..) _ _

@[simp] theorem canonical_sendOwn (s : State) (k : Nat) (f : Frame) : (sendOwn s k f).canonical = s.canonical := by
  unfold sendOwn
  split
  · rfl
  · extract_lets outs s1
    have h1 : s1.canonical = s.canonical := frame_foldl (fun t => t.canonical) _ (fun _ _ => canonical_sendOn ..) _ _
    exact ite_eq_of State.canonical _ _ _ _ h1 (by simp [h1])

@[simp] theorem canonical_sendFirst (s : State) (f : Frame) : (sendFirst s f).canonical = s.canonical := by simp [sendFirst]

@[simp] theorem canonical_putEvt (s : State) (u : Bool) (f : Frame) : (putEvt s u f).canonical = s.canonical := by
  unfold putEvt
  split
  · rw [canonical_setHarn, canonical_nextSeq]
    exact ite_eq_of State.canonical _ _ _ _ (by simp) (by simp)
  · split
    · split <;> simp
    · rfl

@[simp] theorem canonical_sendEvt (s : State) (c cl ts : Nat) : (sendEvt s c cl ts).canonical = s.canonical :=
  ite_eq_of State.canonical _ _ _ _ (canonical_putEvt ..) rfl

/-! ### The device state and faults -/

@[simp] theorem canonical_endFreeze (s : State) (h : s.canonical = true) : (endFreeze s).canonical = true := canonical_fput _ _ _ h

@[simp] theorem canonical_syncSnaps (s : State) (h : s.canonical = true) : (syncSnaps s).canonical = true := canonical_fput _ _ _ h

@[simp] theorem canonical_abandonArm (s : State) (r : Nat) (h : s.canonical = true) : (abandonArm s r).canonical = true := by
  unfold abandonArm
  split <;> simp (maxDischargeDepth := 40) [h]

@[simp] theorem canonical_changeState (s : State) (d : DevState) (h : s.canonical = true) : (changeState s d).canonical = true := by
  unfold changeState
  extract_lets old s1 s1a s1t s2 s3 s4 s5
  have h1 : s1.canonical = true := by simp (maxDischargeDepth := 40) [s1, h]
  have h1a : s1a.canonical = true := canonical_ite (by simp [h1]) h1
  have h1t : s1t.canonical = true := canonical_ite (canonical_fput _ _ _ (canonical_fput _ _ _ ((canonical_setTest s1a _).trans h1a))) h1a
  have h4 : s4.canonical = true := by simp (maxDischargeDepth := 40) [s4, s3, s2, h1t]
  have h5 : s5.canonical = true := canonical_ite (by simp (maxDischargeDepth := 40) [h4]) h4
  simp (maxDischargeDepth := 40) [h5]

@[simp] theorem canonical_askSnapshot (c cl ts : Nat) (q : Nat × Nat) (s : State) (k : Nat) (h : s.canonical = true) :
    (askSnapshot c cl ts q s k).canonical = true := by
  unfold askSnapshot
  split <;> simp (maxDischargeDepth := 40) [h]

@[simp] theorem canonical_makeEntry (s : State) (e c cl k i ts : Nat) (h : s.canonical = true) :
    (makeEntry s e c cl k i ts).canonical = true := by simp (maxDischargeDepth := 40) [makeEntry, h]

@[simp] theorem canonical_faultRecord (s : State) (c cl k i ts sl n : Nat) (h : s.canonical = true) :
    (faultRecord s c cl k i ts sl n).canonical = true := canonical_pushRecord _ _ _ _ _ _ h

@[simp] theorem canonical_enterSafe (s : State) (h : s.canonical = true) : (enterSafe s).canonical = true := by
  unfold enterSafe
  split <;> simp (maxDischargeDepth := 40) [h]

@[simp] theorem canonical_react (s : State) (c cl k i ts n : Nat) (h : s.canonical = true) : (react s c cl k i ts n).canonical = true := by
  unfold react
  extract_lets cs s1 s2 s3
  have h1 : s1.canonical = true := by simp (maxDischargeDepth := 40) [s1, h]
  have h2 : s2.canonical = true := canonical_foldl _ (fun t x ht => canonical_askSnapshot c cl ts (k, i) t x ht) _ _ h1
  have h3 : s3.canonical = true := by simp (maxDischargeDepth := 40) [s3, h2]
  exact canonical_ite (by simp (maxDischargeDepth := 40) [h3]) h3

@[simp] theorem canonical_register (s : State) (c cl k i ts : Nat) (h : s.canonical = true) : (register s c cl k i ts).canonical = true := by
  unfold register
  split
  · simp (maxDischargeDepth := 40) [h]
  · split
    · extract_lets s1 s2
      have h1 : s1.canonical = true := by simp (maxDischargeDepth := 40) [s1, h]
      have h2 : s2.canonical = true := canonical_ite (by simp (maxDischargeDepth := 40) [h1]) h1
      simp (maxDischargeDepth := 40) [h2]
    · simp (maxDischargeDepth := 40) [reportFull, h]

@[simp] theorem canonical_report (s : State) (c cl k i ts : Nat) (h : s.canonical = true) : (report s c cl k i ts).canonical = true := by
  unfold report
  extract_lets k' i' s1
  have h1 : s1.canonical = true := by simp (maxDischargeDepth := 40) [s1, h]
  split <;> simp (maxDischargeDepth := 40) [h, h1]

end Sys2Proof.Machine
end

