-- ==== Sys2Proof/Laws/Crypto.lean ====
section
/-! SUPPORT. Sys2Proof/Laws/Crypto.lean: the lengths of digests and tokens, and that a token written to the key-token registers is
the token that a key operation reads (R453). -/

-- In the package as one text, proofs elaborated side by side ask for more threads than memory allows.
set_option Elab.async false

namespace Sys2Proof.Machine

/-- A round keeps the number of working words. -/
theorem length_shaRound {w : Nat} (f : ShaFns w) (v : List (BitVec w)) (x : BitVec w × BitVec w) : (shaRound f v x).length = v.length := by
  unfold shaRound
  split <;> simp

/-- A block keeps the number of hash words. -/
theorem length_shaBlock {w : Nat} (f : ShaFns w) (ks h b : List (BitVec w)) : (shaBlock f ks h b).length = h.length := by
  have : ∀ (l : List (BitVec w × BitVec w)) (v : List (BitVec w)), (l.foldl (shaRound f) v).length = v.length := by
    intro l
    induction l with
    | nil => intro v; rfl
    | cons x l ih => intro v; rw [List.foldl_cons, ih, length_shaRound]
  simp [shaBlock, this]

/-- SHA-2 gives as many words as it starts from. -/
theorem length_sha2 {w : Nat} (wb : Nat) (f : ShaFns w) (ks h0 : List (BitVec w)) (m : List Byte) :
    (sha2 wb f ks h0 m).length = h0.length := by
  have : ∀ (g : Nat → List (BitVec w)) (l : List Nat) (v : List (BitVec w)),
      (l.foldl (fun h i => shaBlock f ks h (g i)) v).length = v.length := by
    intro g l
    induction l with
    | nil => intro v; rfl
    | cons x l ih => intro v; rw [List.foldl_cons, ih, length_shaBlock]
  exact this _ _ _

/-- SHA-256 gives 32 bytes. -/
theorem length_sha256 (m : List Byte) : (sha256 m).length = 32 := by
  have : ∀ x : BitVec 32, (beBytes 4 x.toNat).length = 4 := fun x => by simp [beBytes, leBytes]
  simp [sha256, List.length_flatMap, this, length_sha2]

/-- HMAC-SHA-256 gives 32 bytes. -/
theorem length_hmacSha256 (k m : List Byte) : (hmacSha256 k m).length = 32 := length_sha256 _

/-- With a key nonce and a clear key, the token of R453 written to the token registers is valid. -/
theorem keyToken_putRegBytes (s : State) (op slot : Nat) (hn : s.trust.knonce = true) (hk : s.trust.clearKey.isEmpty = false) :
    keyToken (putRegBytes s (Reg.TRUST_TOKEN 0) (hmacSha256 s.trust.clearKey (keyMessage s op slot))) op slot = true := by
  have hlen := length_hmacSha256 s.trust.clearKey (keyMessage s op slot)
  have hk2 : ∀ (l : List Byte), (putRegBytes s (Reg.TRUST_TOKEN 0) l).trust = s.trust := fun l => by rw [putRegBytes_only]
  have hm : keyMessage (putRegBytes s (Reg.TRUST_TOKEN 0) (hmacSha256 s.trust.clearKey (keyMessage s op slot))) op slot = keyMessage s op slot := by
    refine congrArg (· ++ [BitVec.ofNat 8 op, BitVec.ofNat 8 slot] ++ deviceIdBytes) (regBytes_congr _ _ _ _ fun k hk4 => ?_)
    refine rd_putRegBytes_of_ne _ _ _ _ fun j hj => ?_
    rw [hlen] at hj
    simp only [Reg.TRUST_KNONCE, Reg.TRUST_TOKEN]
    omega
  simp only [keyToken, tokenFits, hk2, hm, hn, hk, regBytes_putRegBytes _ _ 8 _ hlen]
  simp

end Sys2Proof.Machine
end

