-- ==== Sys2Proof/Laws/Pipeline.lean ====
section
/-! SUPPORT. Sys2Proof/Laws/Pipeline.lean: what the words of the engine receive of a value in the pipeline (R80). -/

-- In the package as one text, proofs elaborated side by side ask for more threads than memory allows.
set_option Elab.async false

namespace Sys2Proof.Machine

/-- A settled value is received at every fret. -/
@[simp] theorem Piped.get_now {α : Type} (v : α) (k : Nat) : (Piped.now v).get k = v := by
  simp [Piped.get, Piped.now, Piped.results]

/-- Searching for what holds at `t`, and then at a later `k`: the results that were not due at `t` come first. -/
theorem find_due {α : Type} (l : List (Nat × α)) (t k : Nat) (h : t ≤ k) :
    (l.find? fun e => decide (e.1 ≤ k)) =
      ((l.takeWhile fun e => decide (t < e.1)).find? fun e => decide (e.1 ≤ k)).or (l.find? fun e => decide (e.1 ≤ t)) := by
  induction l with
  | nil => rfl
  | cons x xs ih =>
    by_cases hx : t < x.1
    · by_cases hk : x.1 ≤ k
      · simp [hx, hk]
      · have : ¬ x.1 ≤ t := by omega
        simp [hx, hk, this, ih]
    · have h1 : x.1 ≤ t := by omega
      have h2 : x.1 ≤ k := by omega
      simp [hx, h1, h2]

/-- All that a write into the pipeline does: from its fret on, words receive the new result once it is usable, and before that
what they received without it (R80). -/
theorem Piped.get_put {α : Type} (p : Piped α) (t lat : Nat) (v : α) (k : Nat) (h : t ≤ k) :
    (p.put t lat v).get k = if t + lat ≤ k then v else p.get k := by
  by_cases hk : t + lat ≤ k
  · simp [Piped.get, Piped.put, Piped.results, hk]
  · rw [if_neg hk]
    unfold Piped.get
    rw [find_due p.results t k h]
    simp only [Piped.put, Piped.results, List.find?_cons, hk, decide_false]
    rw [Piped.get]
    simp only [Piped.results]
    generalize ((List.takeWhile _ _).find? _) = a
    cases a <;> rfl

end Sys2Proof.Machine
end

