-- ==== Sys2Proof/Laws/Ports.lean ====
section
/-! SUPPORT. Sys2Proof/Laws/Ports.lean: what bringing the ports up to date writes, and that it makes the gate outputs of every port low
that is out of service, or while the device is not ARMED or in the inert interval (R117, R451, R481). -/

-- In the package as one text, proofs elaborated side by side ask for more threads than memory allows.
set_option Elab.async false

namespace Sys2Proof.Machine

/-- The registers that `refreshPorts` writes: those of the ports, and the state of a capture that it cuts. -/
def portReg (a : Nat) : Bool := (decide (0x10000 ≤ a) && decide (a < 0x18000)) || a == Reg.TEST_PWM_STAT

/-- Bringing one port up to date writes registers of that port, and the state of a capture that it cuts. -/
theorem regs_refreshPort (cs fs : List (Nat × Nat)) (s : State) (p : Fin 32) : SameRegsOutside portReg s (refreshPort cs fs s p) := by
  have hp : ∀ q : Fin 32, portReg (Reg.PORT_STATUS q) = true ∧ portReg (Reg.PORT_EVENT q) = true := by decide
  have ha : ∀ t : State, SameRegsOutside portReg t (abortCapture t p) := fun t => by
    unfold abortCapture
    split
    · split
      · have h (x : TestSt) : SameRegsOutside portReg t { t with test := x } := fun _ _ => rfl
        exact (h _).fput _ _ (by decide)
      · exact SameRegsOutside.refl _ t
    · exact SameRegsOutside.refl _ t
  unfold refreshPort
  extract_lets cov pt en was settle inert pt' s1 s2
  have h0 (x : Vector PortSt 32) : SameRegsOutside portReg s { s with ports := x } := fun _ _ => rfl
  have h1 : SameRegsOutside portReg s s1 := (h0 _).fputB _ _ (hp p).1
  have h2 : SameRegsOutside portReg s s2 := h1.fput _ _ (hp p).1
  split
  · exact (h2.raise _ (hp p).2).trans (ha _)
  · exact h2

/-- A register that no port has reads as before. -/
theorem regs_refreshPorts (s : State) : SameRegsOutside portReg s (refreshPorts s) := by
  unfold refreshPorts
  extract_lets cs fs
  exact foldl_keeps (fun t => SameRegsOutside portReg s t) _ (fun t x h => h.trans (regs_refreshPort cs fs t x)) _ _
    (SameRegsOutside.refl _ s)

/-- A cut capture is none of the ports' data. -/
theorem abortCapture_ports (s : State) (p : Fin 32) : (abortCapture s p).ports = s.ports := by
  unfold abortCapture
  split
  · split <;> rfl
  · rfl

/-- The sum that a port leaves is none of the ports' data. -/
theorem leaveSum_ports (s : State) (p : Fin 32) : (leaveSum s p).ports = s.ports := byUnfolding rfl

/-- Bringing a port up to date leaves every other. -/
theorem refreshPort_ports_of_ne (cs fs : List (Nat × Nat)) (s : State) (p q : Fin 32) (h : q ≠ p) :
    (refreshPort cs fs s p).ports.get q = s.ports.get q := by
  have hv : ∀ v : PortSt, (s.ports.set p v).get q = s.ports.get q := fun v => by
    have : q.val ≠ p.val := fun e => h (Fin.ext e)
    simp [Vector.get_eq_getElem, Ne.symm this]
  unfold refreshPort
  extract_lets cov pt en was settle inert pt' s1 s2
  have h2 : s2.ports = s.ports.set p pt' := by simp only [s2, s1, fput_ports, fputB_ports]
  split
  · rw [leaveSum_ports, abortCapture_ports, raise_ports, h2, hv]
  · rw [h2, hv]

/-- All four gate outputs are low after `gatesLow`. -/
theorem gatesLow_high (t : Nat) (g : Vector GateSt 4) (k : Fin 4) : ((gatesLow t g).get k).high = false := by
  simp [gatesLow, Vector.get_eq_getElem]

/-- An inert port is low once it is brought up to date. -/
theorem refreshPort_low (cs fs : List (Nat × Nat)) (s : State) (p : Fin 32) (h : ∀ cov, inertNow s cov p = true) :
    PortLow (refreshPort cs fs s p) p := by
  intro g
  unfold refreshPort
  extract_lets cov pt en was settle inert pt' s1 s2
  have hi : inert = true := by simp only [inert, h, Bool.true_or]
  have h2 : s2.ports = s.ports.set p pt' := by simp only [s2, s1, fput_ports, fputB_ports]
  have hg : ((pt'.gates).get g).high = false := by
    have : pt'.gates = gatesLow (64 * s.time.base) pt.gates := by simp only [pt', hi, if_true]
    rw [this, gatesLow_high]
  have hv : (s.ports.set p pt').get p = pt' := by simp [Vector.get_eq_getElem]
  split
  · rw [leaveSum_ports, abortCapture_ports, raise_ports, h2, hv, hg]
  · rw [h2, hv, hg]

/-- Why a port is inert whatever covers it: the device is not ARMED, the port is out of service, or it is the inert interval. -/
def surelyInert (s : State) (p : Fin 32) : Prop := devState s ≠ .armed ∨ portOos s p = true ∨ s.trust.inert = true

theorem inertNow_of_surelyInert (s : State) (p : Fin 32) (h : surelyInert s p) (cov : Bool) : inertNow s cov p = true := by
  unfold inertNow
  rcases h with h | h | h <;> simp [h]

/-- Nothing that is not of the ports makes a port active. -/
theorem surelyInert_congr {s t : State} (h : SameRegsOutside portReg s t) (hf : stateFrame t = stateFrame s) (p : Fin 32)
    (hs : surelyInert s p) : surelyInert t p := by
  have e1 : devState t = devState s := by rw [devState, devState, fget, fget, h _ (by decide)]
  have e2 : portOos t p = portOos s p := by rw [portOos, portOos, fget, fget, h _ (by decide)]
  have e3 : (stateFrame t).trust = (stateFrame s).trust := by rw [hf]
  replace e3 : t.trust = s.trust := e3
  rw [surelyInert, e1, e2, e3]
  exact hs

/-- Every port that is surely inert is low once the ports are brought up to date (R117). -/
theorem refreshPorts_low (s : State) (p : Fin 32) (h : surelyInert s p) : PortLow (refreshPorts s) p := by
  unfold refreshPorts
  extract_lets cs fs
  have key : ∀ (l : List (Fin 32)) (t : State), surelyInert t p → (p ∈ l ∨ PortLow t p) → PortLow (l.foldl (refreshPort cs fs) t) p := by
    intro l
    induction l with
    | nil => intro t _ ht; exact ht.resolve_left (by simp)
    | cons q l ih =>
      intro t hi ht
      refine ih _ (surelyInert_congr (regs_refreshPort cs fs t q) (stateFrame_refreshPort cs fs t q) p hi) ?_
      by_cases hq : p = q
      · subst hq
        exact .inr (refreshPort_low cs fs t p (inertNow_of_surelyInert t p hi))
      · rcases ht with hm | hl
        · rcases List.mem_cons.1 hm with e | hm
          · exact absurd e hq
          · exact .inl hm
        · refine .inr fun g => ?_
          rw [refreshPort_ports_of_ne cs fs t q p hq]
          exact hl g
  exact key _ s h (.inl (List.mem_finRange p))

/-- The summary of the fault block is a register of FAULT. -/
theorem regs_refreshFaultStatus (s : State) : SameRegsOutside faultOrRec s (refreshFaultStatus s) := by
  unfold refreshFaultStatus
  extract_lets v n s1 s2 s3
  have h1 : SameRegsOutside faultOrRec s s1 := (SameRegsOutside.refl _ s).fputB _ _ (by decide)
  have h2 : SameRegsOutside faultOrRec s s2 := h1.fputB _ _ (by decide)
  have h3 : SameRegsOutside faultOrRec s s3 := h2.fput _ _ (by decide)
  exact h3.fput _ _ (by decide)

end Sys2Proof.Machine
end

