-- ==== Sys2Proof/WellFormed.lean ====
section
/-! DEFINITION. Sys2Proof/WellFormed.lean: which terms of Instr are commands that the outside can send: an operand whose type
is wider than its field in the spec lies within it. -/

namespace Sys2Proof

/-- A fret of a round: a round has at most 4096 frets (R31). -/
def fretOk (f : Nat) : Bool := decide (f < 4096)

/-- A step of a round, counted in 1/64 fret (R110). -/
def stepOk (t : Nat) : Bool := decide (t < 64 * 4096)

/-- An address of the address map (R9, R12). -/
def addrOk (a : Nat) : Bool := decide (a < 2 ^ 32)

/-- The wrong bits of one 64-bit word that a scrub can meet (R404, R488). -/
def errsOk (n : Nat) : Bool := decide (n ≤ 64)

/-- The delay of a TUNING's SOF after its round boundary, in units of 2^−8 ns (R336). -/
def subOk (n : Nat) : Bool := decide (n < 2 ^ 32)

/-- The bytes of one transfer of a host port (R353: LEN is 16 bits; a write carries no more than it announces). -/
def bytesOk (d : List Byte) : Bool := decide (d.length < 2 ^ 17)

/-- Edges of a captured carrier (R487). -/
def edgesOk (l : List EdgeRec) : Bool := decide (l.length < 2 ^ 16) && l.all fun e => decide (e.pos < 2 ^ 24)

/-- A word that the scrub reads (R488): a place in the queue pool lies within it (R371). -/
def sramOk : SramKind → Bool
  | .queuePool _ place => decide (place < 131072)
  | _ => true

/-- Whether a term is a command that the outside can send. -/
def Instr.wellFormed : Instr → Bool
  | .roundBoundary _ _ => true
  | .cycleBoundary => true
  | .angleWrap => true
  | .holdExpire => true
  | .mainsQualified => true
  | .mainsSample _ _ _ _ fret => fretOk fret
  | .mainsSampleReady => true
  | .tuningMiss => true
  | .xtalFail => true
  | .lfxtalFail => true
  | .timeFleetWrite _ => true
  | .fleetAngleApply => true
  | .tsLoCapture _ addr => addrOk addr
  | .replicaRefresh => true
  | .nop _ fret => fretOk fret
  | .sample _ fret => fretOk fret
  | .adcConvDone p _ _ => fretOk p.fret
  | .read _ fret => fretOk fret
  | .meas _ fret => fretOk fret
  | .passE _ fret => fretOk fret
  | .passP _ fret => fretOk fret
  | .passI _ fret => fretOk fret
  | .passD _ fret => fretOk fret
  | .passSum _ fret => fretOk fret
  | .region _ fret => fretOk fret
  | .commit _ fret => fretOk fret
  | .thresh _ fret => fretOk fret
  | .target _ fret => fretOk fret
  | .pll _ fret => fretOk fret
  | .capoTerm _ fret => fretOk fret
  | .capoPower _ fret => fretOk fret
  | .capoCap _ fret => fretOk fret
  | .capoAlloc _ fret => fretOk fret
  | .capoWrite _ fret => fretOk fret
  | .capoCtrim _ fret => fretOk fret
  | .capoHoldup _ fret => fretOk fret
  | .shareAcc _ fret => fretOk fret
  | .sharePtrim _ fret => fretOk fret
  | .shareApply _ fret => fretOk fret
  | .qpush _ fret => fretOk fret
  | .engineStart => true
  | .engineMemWrite _ _ => true
  | .schedSwapGo => true
  | .bankExchange => true
  | .schedVsel _ => true
  | .variantSwitch => true
  | .qdropClr => true
  | .loopShadowWrite _ _ _ => true
  | .carrierStart _ t => stepOk t
  | .updatePoint _ t => stepOk t
  | .pwmEdge _ _ => true
  | .deadTimeTurnOn _ _ => true
  | .enSettleEnd _ fret => fretOk fret
  | .drvFltInput _ _ fret => fretOk fret
  | .driverFault _ fret => fretOk fret
  | .portCntClr _ => true
  | .cmpCrossing _ _ _ _ fret => fretOk fret
  | .cmpLatchSet _ _ _ fret => fretOk fret
  | .cmpBlankEnd _ _ fret => fretOk fret
  | .cmpLatchWrite _ _ _ => true
  | .cmpLatchClearApply _ _ => true
  | .cmpThrWrite _ _ _ => true
  | .cmpThrShadowApply _ _ => true
  | .cmpCntClr _ _ => true
  | .kaTick _ => true
  | .kaLatchSet _ => true
  | .kaLatchClear _ => true
  | .loopModeWrite _ _ => true
  | .loopUmanWrite _ _ => true
  | .loopModeApply _ => true
  | .loopCntClr _ => true
  | .inputLossBegin fret => fretOk fret
  | .inputLossEnd => true
  | .holdupSwitch => true
  | .holdupReturn => true
  | .halfCycleBoundary _ => true
  | .budgetDecreaseApply => true
  | .budgetStale => true
  | .budgetEmit => true
  | .trimClr => true
  | .trimClrApply => true
  | .capoCntClr => true
  | .btxCommit => true
  | .hostcapWrite _ => true
  | .hostcapApply => true
  | .feedCmdWrite _ => true
  | .feedVsWindowChange _ _ _ => true
  | .feedInsdlyExpire _ => true
  | .feedRatioHeld _ => true
  | .feedPovlExpire _ => true
  | .feedPctoExpire _ => true
  | .feedOcTrip _ => true
  | .feedRetryExpire _ => true
  | .feedRholdExpire _ => true
  | .feedRevBlock _ => true
  | .feedFwdUnblock _ => true
  | .feedDischargeEnd _ => true
  | .feedShortCheckResume _ => true
  | .feedShortDetect _ => true
  | .feedMonitorConv _ _ _ => true
  | .feedCntClr _ => true
  | .seqUp _ => true
  | .seqDown _ => true
  | .seqDwellEnd => true
  | .seqDlyExpire _ => true
  | .seqRailGood _ => true
  | .seqRiseTimeout _ => true
  | .seqRailOver _ => true
  | .seqDndlyExpire _ => true
  | .seqRailFallen _ => true
  | .seqFallTimeout _ => true
  | .seqRailCollapse _ _ => true
  | .seqCntClr => true
  | .battConvDone _ _ => true
  | .battStep _ => true
  | .battRestPoint _ => true
  | .battUnanchored _ => true
  | .battDisagree _ => true
  | .battSnap _ => true
  | .battSavepExpire _ => true
  | .battRestore _ => true
  | .hkRoundStart _ => true
  | .hkEvaluate => true
  | .hkPublish => true
  | .throttleApply _ => true
  | .hkCntClr => true
  | .harnessLinkUp _ => true
  | .harnessLinkDown _ => true
  | .frameForward _ _ => true
  | .cmdRead _ _ => true
  | .cmdWrite _ _ => true
  | .cmdReport _ _ => true
  | .cmdActivate _ _ => true
  | .rspFrame _ _ => true
  | .evtFrame _ _ => true
  | .nakFrame _ _ => true
  | .tuningFrame _ _ sof _ => fretOk sof.fret && subOk sof.sub
  | .budgetFrame _ _ => true
  | .imgFrame _ _ => true
  | .enumAssign _ _ => true
  | .enumDone _ _ => true
  | .enumProbe _ _ => true
  | .enumEcho _ _ _ => true
  | .enumRing _ _ => true
  | .roleFrame _ _ => true
  | .pauseReceived _ => true
  | .resumeReceived _ => true
  | .harnessGuardOpen _ => true
  | .harnessGuardClose _ => true
  | .tuningEmit sub => subOk sub
  | .harnessEnum => true
  | .hopProbeStart => true
  | .hopProbeDone _ => true
  | .harnessReprobe => true
  | .harnessTxGo => true
  | .harnessCntClr => true
  | .rootepochWrite _ => true
  | .bulkWrite _ data _ _ => bytesOk data
  | .bulkRead _ _ => true
  | .bulkQwrite _ data _ _ => bytesOk data
  | .bulkQread _ _ => true
  | .bulkStatus => true
  | .bulkClrstat => true
  | .bulkAbort => true
  | .bulkWaitTimeout => true
  | .queueEntryVisible _ => true
  | .queueSpaceFreed _ => true
  | .queuePop _ _ => true
  | .twWrite bytes _ => bytesOk bytes
  | .twRead _ _ => true
  | .twStretchTimeout => true
  | .twSmbTimeout => true
  | .twReset => true
  | .twcGo _ => true
  | .twcStart _ => true
  | .twcDone _ data _ => bytesOk data
  | .hostifCntClr => true
  | .queueWmWrite _ _ => true
  | .queueFlush _ => true
  | .queueFlushApply _ => true
  | .queueDropClr _ => true
  | .wakePin _ => true
  | .rstNAssert => true
  | .regWrite _ _ _ => true
  | .faultClr _ => true
  | .faultClearApply _ _ => true
  | .aliveToggle => true
  | .hwdAns _ => true
  | .hwdCloseExpire => true
  | .hwdCheckin _ => true
  | .hwdEnable => true
  | .hwdLock => true
  | .hwdKey _ => true
  | .fwdExpire _ _ => true
  | .faultCntClr => true
  | .recBlockWriteStart => true
  | .recBlockWriteDone _ => true
  | .recFreeze => true
  | .recThaw => true
  | .recCommit => true
  | .recNonceNew => true
  | .recNote => true
  | .recCntClr => true
  | .recClear _ => true
  | .recScrubErase _ => true
  | .snapshotCapture => true
  | .ledgerCommitDue => true
  | .brownout => true
  | .recWallTick => true
  | .stgPiece _ => true
  | .stgEraseDone => true
  | .stgPageDone _ => true
  | .trustActivate => true
  | .activationDue => true
  | .fwPauseEnd => true
  | .structLoadDone => true
  | .structProgramStart => true
  | .trustReport => true
  | .reportDone => true
  | .trustCancelFw => true
  | .trustCancelSt => true
  | .trustNonceNew => true
  | .keyWriteOem _ => true
  | .keyRevoke _ => true
  | .keyWriteClear => true
  | .keyLifecycleProd _ => true
  | .powerOn => true
  | .vkaLoss => true
  | .softReset => true
  | .resetEnd _ => true
  | .bootComplete _ => true
  | .globalArm _ => true
  | .armApply => true
  | .disarm => true
  | .testEnter => true
  | .testExit => true
  | .hibernateRequest => true
  | .hibernateEntered => true
  | .hibernateWake => true
  | .twAddressWake => true
  | .harnessActivityWake => true
  | .vioUndervoltage _ => true
  | .testOosWrite _ => true
  | .oosApply => true
  | .portAdcCheck _ _ _ => true
  | .cmpSweepGo _ => true
  | .cmpSweepStep _ => true
  | .pwmCaptureGo _ => true
  | .pwmCaptureDone edges => edgesOk edges
  | .sramScrubWord kind ecc errs _ => sramOk kind && addrOk ecc.addr && errsOk errs
  | .nvmScrubWord ecc errs _ => addrOk ecc.addr && errsOk errs
  | .testHarnWrite _ => true
  | .jtagInstruction _ => true
  | .dbgNonceNew => true
  | .dbgUnlock _ => true
  | .vioAboveThreshold _ => true
  | .feedVlpresInactive _ => true

end Sys2Proof
end

