-- ==== Sys2Proof/Tests/Slice0.lean ====
section
/-! SUPPORT. Sys2Proof/Tests/Slice0.lean: the well-formedness checks refuse what they should, small results worked out in the
spec or by hand from its rules, and for every statement with hypotheses a state and operands that meet them. -/

-- In the package as one text, proofs elaborated side by side ask for more threads than memory allows.
set_option Elab.async false

open Sys2Proof Sys2Proof.Machine

/-! ### Well-formedness: for each check a term that it refuses, and one at the edge that it accepts -/

theorem test_wf_fret : (Instr.nop ⟨0, 0, 0⟩ 4096).wellFormed = false ∧ (Instr.nop ⟨0, 0, 0⟩ 4095).wellFormed = true := by decide
theorem test_wf_step : (Instr.carrierStart 0 262144).wellFormed = false ∧ (Instr.carrierStart 31 262143).wellFormed = true := by decide
theorem test_wf_addr :
    (Instr.tsLoCapture .core (2 ^ 32)).wellFormed = false ∧ (Instr.tsLoCapture .core (2 ^ 32 - 1)).wellFormed = true := by decide
theorem test_wf_errs : (Instr.nvmScrubWord ⟨0, true⟩ 65 true).wellFormed = false ∧
    (Instr.nvmScrubWord ⟨0, true⟩ 64 true).wellFormed = true := by decide
theorem test_wf_sub : (Instr.tuningEmit (2 ^ 32)).wellFormed = false ∧ (Instr.tuningEmit 0).wellFormed = true := by decide
theorem test_wf_bytes : bytesOk (List.replicate (2 ^ 17) 0) = false ∧ bytesOk [0x12] = true := by
  refine ⟨?_, by decide⟩
  rw [bytesOk, List.length_replicate]
  decide
theorem test_wf_edges : (Instr.pwmCaptureDone [⟨2 ^ 24, .a, true⟩]).wellFormed = false ∧
    (Instr.pwmCaptureDone [⟨2 ^ 24 - 1, .a, true⟩]).wellFormed = true := by decide
theorem test_wf_sram : (Instr.sramScrubWord (.queuePool 0 131072) ⟨0, true⟩ 0 false).wellFormed = false ∧
    (Instr.sramScrubWord (.queuePool 0 131071) ⟨0, true⟩ 0 false).wellFormed = true := by decide

/-! ### Encodings and arithmetic, from the spec's worked examples -/

/-- Chapter 00, "locating registers". -/
theorem test_register_addresses :
    Reg.PORT_CFG 17 = 0x14400 ∧ Reg.LOOP_CFG 33 = 0x1C200 := by decide

/-- Chapter 04: 0.75 is M = 98,304 with E = 0, and M = 49,152 with E = 1. -/
theorem test_value_word_encodings :
    vwVal (vwPack 98304 0) = 3 / 4 ∧ vwVal (vwPack 49152 1) = 3 / 4 := by decide +kernel

/-- Chapter 04, the PFC loop, step 3: e normalised. -/
theorem test_pfc_error :
    vwRound 0 (passSum [Term.ofVw (vwPack 81920 (-1)), (Term.ofVw (vwPack 78720 (-1))).neg]) =
      (vwPack 102400 (-6), false) := by decide +kernel

/-- The same, step 4: P. -/
theorem test_pfc_proportional :
    vwRound 0 (passSum [Term.prod (vwPack 98304 1) (vwPack 102400 (-6))]) = (vwPack 76800 (-5), false) := by decide +kernel

/-- The same, step 5: MI moves by 1,228,800. -/
theorem test_pfc_integral :
    838860800 + toMi 0 (vwVal (vwPack 98304 (-4)) * vwVal (vwPack 102400 (-6))) = 840089600 := by decide +kernel

/-- The same, step 6: D. -/
theorem test_pfc_derivative :
    vwRound 0 (passSum [Term.prod (vwPack 114688 0) (vwPack (-65536) (-9)), Term.prod (vwPack 65536 (-1)) (vwPack (-122880) (-6)),
      (Term.prod (vwPack 65536 (-1)) (vwPack (-102400) (-6))).neg]) = (vwPack (-98304) (-9), false) := by decide +kernel

/-- The same, step 7: u. -/
theorem test_pfc_sum :
    vwRound 0 (passSum [Term.ofVw (vwPack 76800 (-5)), Term.ofMi 840089600 0, Term.ofVw (vwPack (-98304) (-9))]) =
      (vwPack 106966 (-1), false) := by decide +kernel

/-- The same, step 8: q, and the steps that R111 gives at P = 32,000. -/
theorem test_pfc_commit :
    commitValue 0 (vwVal (vwPack 106966 (-1))) = (0x00687580, false) ∧ qSteps 0x00687580 32000 = 13057 := by decide +kernel

/-- The same, "region change": the preset of I. -/
theorem test_pfc_preset :
    toMi 0 (passSum [⟨(876265472 : Rat) / 2 ^ 31, -18⟩, (Term.prod (vwPack 65536 2) (vwPack 102400 (-6))).neg,
      (Term.ofVw (vwPack (-98304) (-9))).neg]) = 826982400 := by decide +kernel

/-- Chapter 05: a limit of u = 0.8 is HI = 922; a duty of 1 or more is clipped to 0xFFFFFF (R158). -/
theorem test_commit_comparator_limit :
    commitValue 5 (4 / 5) = (922, false) ∧ commitValue 0 1 = (16777215, true) := by decide +kernel

/-- Chapter 03: q = 0x66_6666 at P = 32,000 is 12,800 steps, q = 0x18_0000 at P = 64,000 is 6,000 steps. -/
theorem test_duty_and_shift_steps : qSteps 0x666666 32000 = 12800 ∧ qSteps 0x180000 64000 = 6000 := by decide

/-- Chapter 10, "mute pattern of a hot course": course 3 at level 3 is muted in rounds 2, 7 and 12, at level 2 in 4 and 12. -/
theorem test_mute_pattern :
    ((List.range 16).filter fun r => mutePattern r 3 3) = [2, 7, 12] ∧
    ((List.range 16).filter fun r => mutePattern r 3 2) = [4, 12] := by decide

/-- Chapter 13, "a token and four windows": the four answers to Q = 0x01 with K = 0x5A3C, and the next question. -/
theorem test_watchdog_answers :
    (List.range 4).map (fun i => answerByte 1 i 0x5A3C) = [0x81, 0x0E, 0x82, 0x0D] ∧ nextQuestion 1 = 2 := by decide +kernel

/-- The standard check value of CRC-32 (R61): "123456789" gives 0xCBF43926. -/
theorem test_crc32 : crc32 [0x31, 0x32, 0x33, 0x34, 0x35, 0x36, 0x37, 0x38, 0x39] = 0xCBF43926 := by decide +kernel

/-- The standard check value of the CRC-16 of R359: "123456789" gives 0x29B1. -/
theorem test_crc16 : crc16 [0x31, 0x32, 0x33, 0x34, 0x35, 0x36, 0x37, 0x38, 0x39] = 0x29B1 := by decide +kernel

/-- FIPS 180-4: the first four bytes of SHA-256 of "abc". -/
theorem test_sha256 : (sha256 [0x61, 0x62, 0x63]).take 4 = [0xBA, 0x78, 0x16, 0xBF] := by decide +kernel

/-- R363: six data bytes from pointer 0x003E land at 0x003E, 0x003F and then 0x0000 to 0x0003. -/
theorem test_two_wire_page :
    [0x3E, 0x3F, 0, 1, 2].map pageNext = [0x3F, 0, 1, 2, 3] := by decide

/-- Chapter 01, the 50 Hz FAST image: one third of a turn is first reached at fret 1,666,667, fret 42 of round 13,333. -/
theorem test_angle_third_of_a_turn :
    let s := setTime State.reset fun t => { t with round := 13333, cfg := { t.cfg with rlen := 125, n := 5000000 } }
    angleAt s 41 < 0x55555555 ∧ 0x55555555 ≤ angleAt s 42 := by decide +kernel

/-! ### One step on a small state -/

/-- The effect of a command, when it answers a next state. -/
def testNext (i : Instr) (s : State) : Option State :=
  match exec i s with
  | .next t => some t
  | _ => none

/-- A device in ARMED with its engine running. -/
def testArmed : State := setDev (fput State.reset Fld.SCHED_STATUS_RUN 1) .armed

/-- R50: a written target of the fleet angle waits for the round boundary. -/
theorem test_fleet_write :
    (testNext (.timeFleetWrite 0x40000000) State.reset).map (fun s => (s.time.fleetPend, s.time.fleetStep)) = some (true, 0) := by
  decide +kernel

/-- R79: NOP changes nothing. -/
theorem test_nop : testNext (.nop ⟨5, 3, 1⟩ 17) testArmed = some testArmed := by decide +kernel

/-- R14: a write to an RO register has no effect. -/
theorem test_write_read_only :
    (testNext (.regWrite .bulk (BitVec.ofNat 32 Reg.SCHED_ROUNDS) 0xFFFFFFFF) testArmed).map (fun s => rd s Reg.SCHED_ROUNDS) =
      some 0 := by decide +kernel

/-- R14, R18: HOSTIF_WINBASE takes its base; the reserved bits [12:0] stay 0 (chapter 00, "locating registers"). -/
theorem test_write_window_base :
    (testNext (.regWrite .twoWire (BitVec.ofNat 32 Reg.HOSTIF_WINBASE) 0x0001DFFF) testArmed).map (fun s => rd s Reg.HOSTIF_WINBASE) =
      some 0x0001C000 := by decide +kernel

/-- R14: a 1 clears a W1C bit, a 0 leaves it. -/
theorem test_write_one_clears :
    (testNext (.regWrite .bulk (BitVec.ofNat 32 Reg.TIME_EVENT) 0x1) (wr testArmed Reg.TIME_EVENT 0x5)).map
      (fun s => rd s Reg.TIME_EVENT) = some 0x4 := by decide +kernel

/-- R465: a first write of GLOBAL_ARM with another key than 0xA55A arms nothing and gives reason 0x06. -/
theorem test_arm_wrong_key :
    (testNext (.globalArm 0x00001234) (setDev State.reset .idle)).map
      (fun s => (bit s Fld.GLOBAL_STATE_ARM_PEND, fget s Fld.GLOBAL_ARMSTAT_REASON)) = some (false, 6) := by
  decide +kernel

/-- Chapter 03, PORT_CTRL: CNT_CLR clears PORT_CNT. -/
theorem test_port_counter_clear :
    (testNext (.portCntClr 31) (wr testArmed (Reg.PORT_CNT 31) 0x00070003)).map (fun s => rd s (Reg.PORT_CNT 31)) = some 0 := by
  decide +kernel

/-- The same leaves the counters of another port. -/
theorem test_port_counter_other :
    (testNext (.portCntClr 30) (wr testArmed (Reg.PORT_CNT 31) 0x00070003)).map (fun s => rd s (Reg.PORT_CNT 31)) =
      some 0x00070003 := by decide +kernel
-- StepRunsFrontCommand
theorem test_wit_step : (State.reset.push .qdropClr).pending = .qdropClr :: [] ∧ State.reset.pending = [] ∧
    State.reset.seq.reqOn = false ∧ State.reset.seq.reqOff = false ∧ (requestOff (setDev State.reset .idle)).seq.reqOff = true ∧
    State.reset.seq.offNow = false ∧ railRising (requestOff (setDev State.reset .idle)) = false ∧
    (let s := fput (setSeq (setDev State.reset .idle) fun x => { x with offNow := true }) (Fld.SEQ_RSTAT_STATE 0) 1
     let u := seqOff { s with seq := { s.seq with offNow := false } }
     seqPowered s = true ∧ s.seq.offNow = true ∧ s.pending = [] ∧ u.seq.reqOn = false ∧ u.seq.reqOff = false) ∧
    (let s := requestOff (fput (fput (setDev State.reset .idle) Fld.SEQ_STATUS_PHASE 2) (Fld.SEQ_RSTAT_STATE 0) 3)
     seqPowered s = true ∧ s.seq.offNow = false ∧ s.seq.reqOff = true ∧ railRising s = true) ∧
    seqPowered (requestOff (setDev State.reset .idle)) = true ∧ (requestOn (setDev State.reset .idle)).seq.reqOn = true ∧
    (requestOn (setDev State.reset .idle)).seq.reqOff = false ∧ seqPowered (requestOn (setDev State.reset .idle)) = true := by decide

-- CycleCountIncrementsAtAngleWrap
theorem test_wit_wrap :
    State.reset.time.fleetBase = 0 ∧ State.reset.time.fleetStep = 0 ∧ 0 < State.reset.time.cfg.n ∧ State.reset.time.round = 0 ∧
    State.reset.time.round * State.reset.time.cfg.rlen + 1 < State.reset.time.cfg.n ∧ angleAt State.reset 0 < angleAt State.reset 1 := by decide +kernel

-- TimebaseSamplesAndFleetWrites
theorem test_wit_time_samples :
    (let s := setTime State.reset fun t => { t with convDue := true }
     s.time.convDue = true ∧ mainsDelay s = 20) ∧
    State.reset.time.convDue = false ∧ State.reset.time.fleetPend = false ∧ State.reset.time.condNow = false ∧
    (setTime State.reset fun t => { t with fleetPend := true }).time.fleetPend = true ∧
    (let s := setTime State.reset fun t => { t with condNow := true, retCount := 8 }
     s.time.condNow = true ∧ s.time.cfg.ret ≤ s.time.retCount) := by decide

-- EngineFrequencyMovesAtMostTwoPercent
theorem test_wit_frequency :
    State.reset.time.take = false ∧ State.reset.time.exemptAt ≠ some State.reset.tick ∧
    (((profileKHz State.reset.time.cfg.profile).1 * 1000 : Nat) : Rat) / (State.reset.time.cfg.n : Rat) ≤ State.reset.time.freq ∧
    State.reset.time.freq ≤ (((profileKHz State.reset.time.cfg.profile).2 * 1000 : Nat) : Rat) / (State.reset.time.cfg.n : Rat) := by
  decide +kernel
theorem test_wit_hold_expire :
    (let s := setTime (fput State.reset Fld.TIME_STATUS_STATE 4) fun t => { t with holdCount := 16 }
     fget s Fld.TIME_STATUS_STATE = 4 ∧ max s.time.cfg.hold 1 ≤ s.time.holdCount) := by decide
theorem test_wit_take_image :
    (let s := setTime State.reset fun t => { t with take := true }
     fget s Fld.TIME_STATUS_STATE = 0 ∧ s.time.take = true) := by decide

-- SharedAngleOfEveryFret
theorem test_wit_shared_angle :
    (let s := setTime State.reset fun t => { t with round := 3, fleetBase := 34897 }
     3 * s.time.cfg.rlen + 5 = s.time.round * s.time.cfg.rlen + 5 ∧ 3 * s.time.cfg.rlen + 5 < s.time.cfg.n ∧ 34897 < 2 ^ 32 ∧
     s.time.fleetBase % 2 ^ 32 = 34897 ∧ s.time.fleetStep = 0 ∧ fleetAt s 5 = 34897) := by decide +kernel

-- TimestampCapturesArePerPath
theorem test_wit_ts_lo : isTsLo Reg.TIME_TS_LO = true ∧ Reg.TIME_TS_LO < 2 ^ 32 := by decide

-- TimebaseLossesAndCrystals
theorem test_wit_tuning_miss :
    (let s := setTime (fput State.reset Fld.HARNESS_ROLE_ROLE 1) fun t => { t with cfg := { t.cfg with src := 2 }, tunMissed := 2 }
     s.time.cfg.src = 2 ∧ isRoot s = false ∧ 2 ≤ s.time.tunMissed ∧ s.time.tunLost = false ∧ hasTarget s = false ∧
     s.time.cfg.fb = false) ∧
    (let s := fput (fput (fput (setTime State.reset fun t => { t with cfg := { t.cfg with src := 2, fb := true }, tunMissed := 2 })
        Fld.TIME_STATUS_STATE 3) Fld.TIME_STATUS_SRC_ACT 2) Fld.TIME_STATUS_MAINS_QUAL 1
     hasTarget s = true ∧ srcAct s = 2 ∧ s.time.cfg.fb = true ∧ bit s Fld.TIME_STATUS_MAINS_QUAL = true) ∧
    State.reset.time.cfg.src ≠ 2 := by decide
theorem test_wit_xtal : devState (setDev State.reset .idle) = .idle ∧ devState (setDev State.reset .safe) = .safe := by decide

-- GridPllEvaluatesOncePerRound
theorem test_wit_pll :
    (let s := fput State.reset Fld.SCHED_STATUS_RUN 1
     engineRuns s = true ∧ selfRejected s 0x18 ⟨0, 0, 0⟩ = false ∧ s.time.pllDone = false) := by decide

-- RoundBoundaryAdvancesTheRound
theorem test_wit_round : engineRuns (fput State.reset Fld.SCHED_STATUS_RUN 1) = true ∧ engineRuns State.reset = false := by decide

-- EngineMemoryWritesFollowTheState
theorem test_wit_engmem :
    (0x00370004 : BitVec 32).toNat = 0x300000 + 0x70004 ∧ 0x70004 % 4 = 0 ∧ (0x70000 ≤ 0x70004 ∧ 0x70004 < 0x78000) ∧
    devState (setDev State.reset .idle) = .idle ∧ bit State.reset Fld.GLOBAL_STATE_ARM_PEND = false ∧
    bit (fput State.reset Fld.GLOBAL_STATE_ARM_PEND 1) Fld.GLOBAL_STATE_ARM_PEND = true ∧ (0x1000 : BitVec 32).toNat < 0x300000 ∧ (0x00360000 : BitVec 32).toNat = 0x300000 + 0x60000 ∧
    devState (setDev State.reset .armed) = .armed := by decide

-- BankSwapsExchangeTogether
theorem test_wit_swap :
    bit (fput State.reset Fld.SCHED_STATUS_LOADED 1) Fld.SCHED_STATUS_LOADED = true ∧
    (setSched State.reset fun x => { x with swapReq := true }).sched.swapReq = true ∧
    State.reset.sched.swapReq = false := by decide

-- VariantRequestsAndSwitch
theorem test_wit_vsel :
    getBits 0x56530001 16 16 = 0x5653 ∧ getBits 0x12340001 16 16 ≠ 0x5653 ∧
    variantRefused (fput State.reset Fld.SCHED_STATUS_VAVAIL 3) 1 = false ∧ variantRefused State.reset 1 = true := by decide
theorem test_wit_variant_switch :
    (let s := setSched (fput (fput (fput (fput State.reset Fld.SCHED_STATUS_VAVAIL 3) Fld.SCHED_STATUS_VPEND 1)
       Fld.SCHED_STATUS_RUN 1) Fld.SCHED_STATUS_VREQ 1) fun x => { x with vselBoundaries := 2 }
     bit s Fld.SCHED_STATUS_VPEND = true ∧ engineRuns s = true ∧ s.time.round = 0 ∧ 2 ≤ s.sched.vselBoundaries ∧
     variantRefused s (fget s Fld.SCHED_STATUS_VREQ) = false ∧
     variantRefused (fput s Fld.SCHED_STATUS_VAVAIL 1) (fget (fput s Fld.SCHED_STATUS_VAVAIL 1) Fld.SCHED_STATUS_VREQ) = true) ∧
    bit State.reset Fld.SCHED_STATUS_VPEND = false := by decide

-- EngineStartsAtFretZero
theorem test_wit_engine_start :
    (let s := setSched (setDev State.reset .idle) fun x => { x with startDue := true }
     s.sched.startDue = true ∧ s.trust.inert = false ∧ s.time.take = false ∧ s.time.round = 0 ∧ devState s = .idle) ∧ State.reset.sched.startDue = false := by decide

-- NopAndMeasurementWords
theorem test_wit_read :
    (let s := fput (fput State.reset Fld.SCHED_STATUS_RUN 1) (Fld.LOOP_CFG_USED 3) 1
     laneActs s 0x02 ⟨3, 5, 1⟩ = true ∧ (⟨3, 5, 1⟩ : LaneFields).argBits 13 1 = 0 ∧ ctxLoop s (3 : BitVec 7).toNat = some (3 : Fin 64).val ∧
     laneActs s 0x02 ⟨0, 5, 0x2000⟩ = true ∧ (⟨0, 5, 0x2000⟩ : LaneFields).argBits 13 1 = 1 ∧
     laneActs s 0x03 ⟨3, 0, 0x104⟩ = true ∧ laneActs State.reset 0x01 ⟨0, 5, 1⟩ = false) ∧
    (let s := setSched (fput State.reset Fld.SCHED_STATUS_RUN 1) fun x => { x with groups := [[]] }
     ctxLoop s (64 : BitVec 7).toNat = none ∧ laneActs s 0x02 ⟨64, 5, 1⟩ = true ∧ laneActs s 0x03 ⟨64, 0, 0x104⟩ = true) := by decide
theorem test_wit_sample :
    (let s := fput State.reset Fld.SCHED_STATUS_RUN 1
     laneActs s 0x01 ⟨0, 5, 1⟩ = true ∧ (s.ports.get (5 : BitVec 5).toFin).strobe = none) ∧
    (let s := fput { State.reset with ports := upd State.reset.ports 5 fun x => { x with strobe := some 0 } } Fld.SCHED_STATUS_RUN 1
     laneActs s 0x01 ⟨0, 5, 1⟩ = true ∧ (s.ports.get (5 : BitVec 5).toFin).strobe = some 0 ∧ absFret s 19 < 0 + adcSpacing s ∧
     0 + adcSpacing s ≤ absFret s 20) := by decide

-- LedgerTemperatureBins
theorem test_wit_temp_bins :
    tempBin (degC (-30) - 1) = 0 ∧ tempBin (degC (-30)) = 1 ∧ tempBin (degC 110 - 1) = 14 ∧ tempBin (degC 110) = 15 := by decide

-- LoopPassesDeliverTheirResults
theorem test_wit_passes :
    (let s := fput (fput State.reset Fld.SCHED_STATUS_RUN 1) (Fld.LOOP_CFG_USED 3) 1
     laneActs s 0x08 ⟨3, 0, 0⟩ = true ∧ laneActs s 0x09 ⟨3, 0, 0⟩ = true ∧ laneActs s 0x0B ⟨3, 0, 1⟩ = true ∧
     laneActs s 0x0B ⟨3, 0, 0⟩ = true ∧ laneActs s 0x0A ⟨3, 0, 0⟩ = true ∧ laneActs s 0x0C ⟨3, 0, 0⟩ = true ∧
     laneActs s 0x0A ⟨3, 0, 1⟩ = true ∧ laneActs s 0x0C ⟨3, 0, 1⟩ = true ∧ ctxLoop s (3 : BitVec 7).toNat = some (3 : Fin 64).val ∧
     (⟨3, 0, 1⟩ : LaneFields).argBits 0 1 = 1 ∧ (⟨3, 0, 0⟩ : LaneFields).argBits 0 1 = 0 ∧ bit s (Fld.LOOP_CFG_DMODE 3) = false) ∧
    (let s := setSched (fput State.reset Fld.SCHED_STATUS_RUN 1) fun x => { x with groups := [[]] }
     ctxLoop s (64 : BitVec 7).toNat = none ∧ laneActs s 0x08 ⟨64, 0, 0⟩ = true ∧ laneActs s 0x09 ⟨64, 0, 0⟩ = true ∧
     laneActs s 0x0A ⟨64, 0, 0⟩ = true ∧ laneActs s 0x0B ⟨64, 0, 0⟩ = true ∧ laneActs s 0x0C ⟨64, 0, 0⟩ = true) := by
  decide +kernel

-- LoopOutputsReachTheirTargets
theorem test_wit_outputs :
    (let s := fput (fput (fput (fput State.reset Fld.SCHED_STATUS_RUN 1) (Fld.LOOP_CFG_USED 3) 1) (Fld.LOOP_SRC_GS 3) 1) (Fld.PORT_CFG_TOPO 5) 1
     laneActs s 0x10 ⟨3, 5, 0⟩ = true ∧ laneActs s 0x10 ⟨3, 5, 8⟩ = true ∧ laneActs s 0x12 ⟨3, 0, 7⟩ = true ∧
     laneActs s 0x12 ⟨3, 0, 127⟩ = true ∧ laneActs s 0x11 ⟨0, 5, 1⟩ = true ∧ laneActs s 0x11 ⟨0, 5, 0⟩ = true ∧
     laneActs s 0x0D ⟨3, 0, 0⟩ = true ∧ ctxLoop s (3 : BitVec 7).toNat = some (3 : Fin 64).val ∧ bit s (Fld.LOOP_SRC_GS 3) = true ∧
     (⟨3, 5, 0⟩ : LaneFields).argBits 0 4 = (0 : Fin 5).val ∧ (⟨3, 5, 8⟩ : LaneFields).argBits 0 4 = 5 + (3 : Fin 4).val ∧
     (⟨3, 0, 7⟩ : LaneFields).argBits 0 8 = (7 : Fin 64).val ∧ (⟨3, 0, 127⟩ : LaneFields).argBits 0 8 = 64 + (63 : Fin 64).val ∧
     (⟨0, 5, 1⟩ : LaneFields).argBits 0 1 = 1 ∧ (⟨0, 5, 0⟩ : LaneFields).argBits 0 1 = 0) ∧
    (let s := fput (setSched (fput State.reset Fld.SCHED_STATUS_RUN 1) fun x => { x with groups := [[]] }) (Fld.PORT_CFG_TOPO 5) 1
     ctxLoop s (64 : BitVec 7).toNat = none ∧ laneActs s 0x10 ⟨64, 5, 0⟩ = true ∧ laneActs s 0x12 ⟨64, 0, 7⟩ = true ∧
     laneActs s 0x0D ⟨64, 0, 0⟩ = true) ∧ bit State.reset (Fld.LOOP_SRC_GS 3) = false := by decide

-- LoopHostWritesAndModes
theorem test_wit_loop_host :
    vwReserved 0x1FFFF = false ∧ vwReserved 0x1000000 = true ∧ (24 : Fin 64).val = 24 ∧ (State.reset.loops.get 3).modePend = false ∧
    (State.reset.loops.get 3).umanPend = false ∧ ((setLoop State.reset 3 fun l => { l with umanPend := true }).loops.get 3).umanPend = true ∧
    ((setLoop State.reset 3 fun l => { l with modePend := true }).loops.get 3).modePend = true ∧
    swapPending State.reset 3 = false ∧ (23 : Fin 64).val < 24 ∧
    swapPending (fput State.reset Fld.SCHED_SWAP_PEND_HI_PEND_HI 1) 32 = true := by decide

-- ConversionsDeliverClippedCodes
theorem test_wit_adc :
    (let s := { State.reset with ports := upd State.reset.ports 5 fun x => { x with conv := some 2, strobe := some 0 } }
     (s.ports.get 5).conv = some 2 ∧ (s.ports.get 5).strobe = some 0 ∧ 0 + adcSpacing s ≤ absFret s 20 ∧
     rd s (Reg.PORT_TRIM 5) = 0 ∧ adcOver s 2 20000 0 = true ∧ adcOver s 2 9000 0 = false ∧
     s.time.cfg.profile ≠ 1 ∧ absFret s 19 < 0 + adcSpacing s ∧ (s.ports.get 6).conv = none) := by decide

-- GatePairsAreNeverBothOn
theorem test_wit_pairs : PairsApart State.reset := by
  intro q h; cases h <;> revert q <;> decide

-- GateEdgesAndDeadTime
theorem test_wit_edges :
    (let s := { fput (fput State.reset (Fld.PORT_CFG_TOPO 5) 1) (Fld.PORT_ONTIME_A_ONTIME 5) 4000 with
        ports := upd State.reset.ports 5 fun x => { x with
          active := true, carrier := true, carPer := 8000, carLen := 8000
          gates := (upd (upd x.gates 0 fun g => { g with high := true, onAt := 160, cmd := true }) 1 fun g => { g with rise := some 4160 }) } }
     edgeAhead s 5 .a = some 4000 ∧ 4000 < (s.ports.get 5).carLen ∧ (gateOf s 5 .a).cmd = true ∧ (gateOf s 5 .an).cmd = false ∧
     (gateOf (settleGates s 5 4000) 5 .a).high = true ∧ (gateOf (settleGates s 5 4000) 5 .a).onAt + minPulse s ≤ 4000 ∧
     edgeAhead s 5 .an = some 0 ∧ (gateOf s 5 .an).rise = some 4160 ∧ (gateOf s 5 .b).rise = none ∧ edgeAhead s 6 .a = none ∧
     (gateOf (settleGates s 5 4160) 5 .a).high = true) ∧
    (let s := { fput (fput State.reset (Fld.PORT_CFG_TOPO 5) 1) (Fld.PORT_ONTIME_A_ONTIME 5) 100 with
        ports := upd State.reset.ports 5 fun x => { x with
          active := true, carrier := true, carPer := 8000, carLen := 8000
          gates := upd x.gates 0 fun g => { g with high := true, onAt := 20, cmd := true } } }
     edgeAhead s 5 .a = some 100 ∧ (gateOf (settleGates s 5 100) 5 .a).high = true ∧
     100 < (gateOf (settleGates s 5 100) 5 .a).onAt + minPulse s) ∧
    (let s := { State.reset with ports := upd State.reset.ports 5 fun x => { x with
          gates := upd (upd x.gates 0 fun g => { g with high := true, rise := some 9 }) 2 fun g => { g with rise := some 9 } } }
     (gateOf s 5 .a).rise = some 9 ∧ (gateOf (settleGates s 5 9) 5 .an).high = false ∧ (gateOf (settleGates s 5 9) 5 .a).high = true ∧
     (gateOf s 5 .b).rise = some 9 ∧ (gateOf (settleGates s 5 9) 5 .bn).high = false ∧ (gateOf (settleGates s 5 9) 5 .b).high = false) := by
  decide +kernel

-- CarriersAndUpdatePoints
theorem test_wit_carrier :
    (let s := fput (fput (fput State.reset Fld.SCHED_STATUS_RUN 1) (Fld.PORT_CFG_ENABLE 5) 1) (Fld.PORT_CARRIER_RATIO 5) 2
     engineRuns s = true ∧ portUsed s 5 = true ∧ portUsed s 6 = false ∧ carrierDue s 5 0 = true ∧ carrierDue s 5 1 = false ∧ (s.ports.get 5).active = false ∧
     inertNow s (portCovered s 5) 5 = true ∧ mayStart s 5 0 = false ∧ engineRuns State.reset = false ∧
     (let s' := { fput s Fld.GLOBAL_STATE_STATE 4 with sched := { s.sched with names := s.sched.names.set 0 0x20 } }
      engineRuns s' = true ∧ portUsed s' 5 = true ∧ carrierDue s' 5 0 = true ∧ mayStart s' 5 (64 * s'.time.base + 0) = true)) ∧
    (let s := fput (fput { State.reset with ports := upd State.reset.ports 5 fun x => { x with carrier := true, carPer := 8000 } }
        Fld.SCHED_STATUS_RUN 1) (Fld.PORT_CFG_UPD 5) 1
     engineRuns s = true ∧ (s.ports.get 5).carrier = true ∧ isFree s 5 = false ∧ fget s (Fld.PORT_CFG_UPD 5) = 1 ∧
     64 * s.time.base + 4000 = (s.ports.get 5).carStart + (s.ports.get 5).carPer / 2 ∧
     64 * s.time.base + 0 = (s.ports.get 5).carStart ∧ fget (fput s (Fld.PORT_CFG_UPD 5) 2) (Fld.PORT_CFG_UPD 5) = 2) := by decide +kernel
theorem test_wit_port_low : PortLow State.reset 5 := by unfold PortLow; decide

-- DriverEnableAndDriverFault
theorem test_wit_driver :
    (let s := fput (fput (fput { State.reset with ports := upd State.reset.ports 5 fun x => { x with fltHigh := true } }
        (Fld.PORT_DRV_FLT_USE 5) 1) (Fld.PORT_DRV_FLT_POL 5) 1) (Fld.PORT_STATUS_EN 5) 1
     bit s (Fld.PORT_DRV_FLT_USE 5) = true ∧ fget s (Fld.PORT_DRV_FLT_SCOPE 5) = 0 ∧ accepting s 5 = true ∧
     fltPasses s 5 (absFret s 0) = true ∧ matchingEntry s 0x0101 1 5 = none ∧ (s.ports.get 5).fltHigh ≠ false ∧
     (let u := { fput s (Fld.PORT_STATUS_EN 5) 0 with ports := upd s.ports 5 fun x => { x with acceptAt := some 0 } }
      (u.ports.get 5).acceptAt = some (absFret u 0) ∧ bit u (Fld.PORT_STATUS_FLT 5) = false)) ∧
    bit State.reset (Fld.PORT_DRV_FLT_USE 5) = false ∧
    (let s := fput { State.reset with ports := upd State.reset.ports 5 fun x => { x with settle := some 0 } } (Fld.PORT_STATUS_EN 5) 1
     (s.ports.get 5).settle = some 0 ∧ 0 ≤ s.tick ∧ bit s (Fld.PORT_STATUS_EN 5) = true ∧ (State.reset.ports.get 5).settle = none ∧
     (∀ (c : Fin 4) (h : Bool), filterPasses s 5 c h (absFret s 0) = false)) := by decide +kernel

-- ComparatorCrossingsAndLatches
theorem test_wit_cmp :
    (let s := { fput (fput (fput State.reset Fld.SCHED_STATUS_RUN 1) (Fld.CMP_CFG_ENABLE 5 2) 1) (Fld.CMP_CFG_HI_EN 5 2) 1 with
        cmps := upd State.reset.cmps 5 fun v => upd v 2 fun x => { x with hi := ⟨true, [(0, true)]⟩ } }
     let u := settleGates s 5 (64 * absFret s 20)
     filterPasses u 5 2 true (absFret s 20) = true ∧ filterPasses (settleGates s 5 (64 * absFret s 1)) 5 2 true (absFret s 1) = false ∧
     bit s (latFld 5 2 true) = false ∧ latchAccepted s 5 2 (absFret s 20) = true ∧
     fget s (Fld.CMP_CFG_ACTION 5 2) = 0 ∧ blankEnd (cmpOf s 5 2) ≤ absFret s 20 ∧
     matchingEntry s 0x0124 1 5 = none ∧
     (let s' := fput (fput s (Fld.CMP_CFG_ACTION 5 2) 2) (Fld.PORT_STATUS_EN 5) 1
      filterPasses (settleGates s' 5 (64 * absFret s' 20)) 5 2 true (absFret s' 20) = true ∧
      bit s' (latFld 5 2 true) = false ∧ latchAccepted s' 5 2 (absFret s' 20) = true ∧ fget s' (Fld.CMP_CFG_ACTION 5 2) = 2 ∧
      fget (fput s' (Fld.CMP_CFG_ACTION 5 2) 1) (Fld.CMP_CFG_ACTION 5 2) = 1 ∧
      latchAccepted (fput s' (Fld.PORT_STATUS_EN 5) 0) 5 2 (absFret s' 20) = false ∧
      bit (fput s' (latFld 5 2 true) 1) (latFld 5 2 true) = true)) ∧
    sideOf (cmpOf State.reset 5 2) true = ⟨false, []⟩ ∧ (cmpOf State.reset 5 2).blanks = [] ∧
    (cmpOf State.reset 5 2).filtFrom ≤ absFret State.reset 0 + 1 ∧
    (sideOf (cmpOf (senseCmp (setCmp State.reset 5 2 fun x => { x with level := 1 }) 5 2 1) 5 2) true).on = true ∧
    absFret State.reset 3 < blankEnd (cmpOf (setCmp State.reset 5 2 fun x => { x with blanks := [(0, 9)] }) 5 2) := by decide +kernel

-- ComparatorHostWritesWaitForTheirBoundary
theorem test_wit_thr :
    (cmpOf (setCmp State.reset 5 2 fun x => { x with thrPend := some (7, some 9) }) 5 2).thrPend = some (7, some 9) ∧
    (cmpOf State.reset 5 2).thrPend = none ∧
    fget State.reset (Fld.CMP_CFG_ACTION 5 2) = 0 ∧ bit State.reset (Fld.CMP_CFG_CLR 5 2) = false ∧
    fget (fput State.reset (Fld.CMP_CFG_ACTION 5 2) 1) (Fld.CMP_CFG_ACTION 5 2) ≠ 0 ∧
    bit (fput State.reset (Fld.CMP_STATUS_HI_OWNED 5 2) 1) (Fld.CMP_STATUS_HI_OWNED 5 2) = true := by decide

-- SharingAndCapSteps
theorem test_wit_capo_words :
    (let s := fput (fput (fput (fput (fput State.reset (Fld.CAPO_PORT_SLOOP 3) 5) Fld.SCHED_STATUS_RUN 1) (Fld.CAPO_TERM_SIG_EN 2) 1) (Fld.CAPO_LIM_CFG_EN 17) 1) Fld.CAPO_CFG_FLEET 1
     capoActs s ⟨0, 0, 2⟩ 2 = true ∧ capoActs s ⟨0, 0, 0x20⟩ 0 = true ∧ (⟨0, 0, 0x20⟩ : LaneFields).argBits 4 6 = (2 : Fin 24).val ∧
     bit s (Fld.CAPO_TERM_SIG_EN 2) = true ∧ capoActs s ⟨0, 0, 1⟩ 1 = true ∧ capoActs s ⟨0, 0, 0x14⟩ 4 = true ∧
     (17 : Fin 64).val / 16 = (⟨0, 0, 0x14⟩ : LaneFields).argBits 4 6 ∧ bit s (Fld.CAPO_LIM_CFG_EN 17) = true ∧
     capoActs s ⟨0, 0, 0x13⟩ 3 = true ∧ (⟨0, 0, 0x13⟩ : LaneFields).argBits 4 6 ≠ 0 ∧ capoActs s ⟨0, 0, 3⟩ 3 = true ∧
     (⟨0, 0, 3⟩ : LaneFields).argBits 4 6 = 0 ∧ capoActs s ⟨0, 0, 5⟩ 5 = true ∧
     bit s (Fld.CAPO_COURSE_SHARE 0) = false ∧ capoActs s ⟨0, 0, 6⟩ 6 = true ∧ laneActs s 0x1A ⟨0, 3, 0⟩ = true ∧
     laneActs s 0x1A ⟨0, 3, 1⟩ = true ∧ laneActs s 0x1A ⟨0, 3, 2⟩ = true ∧ bit s (Fld.CAPO_COURSE_BAL (courseOf s 3)) = false ∧
     fget s (Fld.CAPO_PORT_SLOOP 3) = (5 : Fin 64).val ∧ courseOf s 3 = (0 : Fin 32).val ∧ capoActs s ⟨0, 0, 2⟩ 0 = false ∧
     laneActs State.reset 0x1A ⟨0, 3, 0⟩ = false) ∧
    (let s := setCapo (fput (fput (fput (fput State.reset (Fld.CAPO_COURSE_SHARE 0) 1) (Fld.CAPO_COURSE_SHARE 1) 1)
        (Fld.CAPO_COURSE_BAL 0) 1) (Fld.PORT_STATUS_STATE 3) 3) fun c => { c with cntLast := Vector.replicate 32 2 }
     (bit s (Fld.CAPO_COURSE_SHARE 0) && fget s (Fld.CAPO_COURSE_OBUS 0) == fget s (Fld.CAPO_COURSE_OBUS 0) &&
       decide (1 ≤ s.capo.cntLast.get 0)) = true ∧
     2 ≤ ((List.finRange 32).filter fun (d : Fin 32) => bit s (Fld.CAPO_COURSE_SHARE d) &&
       fget s (Fld.CAPO_COURSE_OBUS d) == fget s (Fld.CAPO_COURSE_OBUS 0) && decide (1 ≤ s.capo.cntLast.get d)).length ∧
     (bit s (Fld.CAPO_COURSE_BAL 0) && fget s (Fld.PORT_STATUS_STATE 3) == 3 && decide (2 ≤ s.capo.cntLast.get 0)) = true) ∧
    max (absR 1) 0 ≠ 0 := by decide +kernel

-- BudgetsAndHoldUp
theorem test_wit_budgets :
    (let s := fput (fput (fput (fput (fput (setCapo State.reset fun c => { c with budget := some 1, raise := true, boundarySeen := true, emitStamp := some 2, trimClr := true, hostPend := true, outside := 16, inside := 100, switchDue := some 0 })
        Fld.CAPO_CFG_FLEET 1) Fld.CAPO_STATUS_AGE 2) Fld.TIME_STATUS_MAINS_LOCK 1) Fld.TIME_STATUS_MAINS_QUAL 1) Fld.CAPO_BTX_COUNT 3
     s.capo.budget = some 1 ∧ s.capo.raise = true ∧ bit s Fld.CAPO_CFG_FLEET = true ∧ 2 ≤ fget s Fld.CAPO_STATUS_AGE ∧
     bit s Fld.CAPO_STATUS_BSTALE = false ∧ fget s Fld.CAPO_BTX_COUNT ≠ 0 ∧ fget s Fld.CAPO_BTX_COUNT ≤ 224 ∧
     bit s Fld.CAPO_STATUS_INPUT_LOSS = false ∧ lossN s ≤ s.capo.outside ∧ bit s Fld.CAPO_CFG_INSRC = false ∧
     bit s Fld.TIME_STATUS_MAINS_QUAL = true ∧ s.capo.emitStamp = some 2 ∧
     isRoot (fput s Fld.HARNESS_ROLE_ROLE 0) = true ∧ isRoot (fput s Fld.HARNESS_ROLE_ROLE 1) = false ∧
     (let u := setTime s fun t => { t with base := 5 }
      u.capo.switchDue = some 0 ∧ 0 < u.time.base)) ∧
    (let s := fput (fput (fput (setCapo State.reset fun c => { c with inside := 65535, budget := some 1, emitStamp := some 2, emitTable := [(0xFFFE, 7)] }) Fld.CAPO_STATUS_INPUT_LOSS 1)
        Fld.TIME_STATUS_MAINS_LOCK 1) Fld.CAPO_STATUS_HOLDUP 1
     bit s Fld.CAPO_STATUS_INPUT_LOSS = true ∧ fget s Fld.CAPO_HCFG_RETW ≤ s.capo.inside ∧ bit s Fld.TIME_STATUS_MAINS_LOCK = true ∧
     bit s Fld.CAPO_STATUS_HOLDUP = true ∧ s.capo.budget = some 1 ∧ s.capo.raise = false ∧
     (let u := fput (fput s Fld.CAPO_CFG_FLEET 1) Fld.HARNESS_ADDR_ADDR 0xFFFE
      (u.capo.emitTable.find? fun e => e.1 == ownAddr u) = some (0xFFFE, 7) ∧ bit u Fld.CAPO_CFG_FLEET = true)) := by decide

-- FeedsInsertAndPrecharge
theorem test_wit_feeds :
    (let s := fput (fput (fput (putFeedState { State.reset with tick := 100 } 3 .qualify) (Fld.FEED_VSWIN_UV 3) 100) (Fld.FEED_VSWIN_OV 3) 900)
        (Fld.FEED_TIME_VSF 3) 5
     let u := feedSense s 3 (some (1 / 2)) none none 10 0
     feedState s 3 = .qualify ∧ (s.feeds.get 3).waived = false ∧ windowNow u 3 = true ∧ bit s (Fld.FEED_STATUS_VSWIN 3) = false ∧
     windowNow (feedSense s 3 (some 0) none none 10 0) 3 = false ∧ (s.feeds.get 3).win.raw = false ∧
     (fget s (Fld.FEED_VSWIN_UV 3) : Rat) / 1280 + hystVolt (fget s (Fld.FEED_VSWIN_HYST 3)) < 1 / 2 ∧
     1 / 2 < (fget s (Fld.FEED_VSWIN_OV 3) : Rat) / 1280 - hystVolt (fget s (Fld.FEED_VSWIN_HYST 3)) ∧
     (s.feeds.get 3).vsAt + fget s (Fld.FEED_TIME_VSF 3) ≤ s.tick ∧ fget s (Fld.FEED_TIME_VSF 3) ≤ 10) ∧
    (let s := fput (fput (putFeedState { State.reset with tick := 100 } 3 .on) (Fld.FEED_VSWIN_UV 3) 100) (Fld.FEED_STATUS_VSWIN 3) 1
     windowNow (feedSense s 3 (some 0) none none 10 0) 3 ≠ bit s (Fld.FEED_STATUS_VSWIN 3) ∧ feedState s 3 = .on) ∧
    feedState (putFeedState State.reset 3 .insert) 3 = .insert ∧ ((putFeedState State.reset 3 .insert).feeds.get 3).due ≤ 0 ∧
    feedState State.reset 3 = .off ∧ feedState State.reset 3 ≠ .insert ∧
    (let s := setDev (fput State.reset (Fld.FEED_CFG_EN 3) 1) .idle
     bit s (Fld.FEED_CFG_EN 3) = true ∧ bit s (Fld.FEED_STATUS_SHBLK 3) = false ∧ devState s = .idle ∧
     bit s Fld.GLOBAL_STATE_HIB_PEND = false ∧ feedState s 3 = .off) ∧
    (let s := setFeed { putFeedState State.reset 3 .precharge with tick := 16 } 3 fun x => { x with due := 20, ratio := ⟨true, 0, false⟩ }
     let u := feedSense s 3 (some 0) (some 1) none 0 0
     feedState s 3 = .precharge ∧ bit s (Fld.FEED_STATUS_G 3) = false ∧ (u.feeds.get 3).ratio.raw = true ∧
     max (u.feeds.get 3).ratio.since (u.feeds.get 3).pcAt + 16 ≤ s.tick ∧ s.tick ≤ (u.feeds.get 3).due) ∧
    (let s := fput (putFeedState State.reset 3 .precharge) (Fld.FEED_STATUS_G 3) 1
     feedState s 3 = .precharge ∧ bit s (Fld.FEED_STATUS_G 3) = true ∧ (s.feeds.get 3).due ≤ s.tick) ∧
    (let s := setFeed (fput (putFeedState { State.reset with tick := 1000 } 3 .on) (Fld.FEED_CFG_IDEAL 3) 1) 3 fun x =>
        { x with holdDue := some 0, rev := ⟨true, 0, false⟩ }
     feedState s 3 = .on ∧ (s.feeds.get 3).holdDue = some 0 ∧ 0 ≤ s.tick ∧ bit s (Fld.FEED_CFG_IDEAL 3) = true ∧
     revNow (feedSense s 3 (some 0) (some 1) none 0 0) 3 = true) ∧
    (let s := setFeed (putFeedState { State.reset with tick := 1000000 } 3 .blocked) 3 fun x => { x with fwd := ⟨true, 0, false⟩ }
     feedState s 3 = .blocked ∧ fwdNow (feedSense s 3 (some 1) (some 0) none 0 0) 3 = true) ∧
    feedState (putFeedState State.reset 3 .retryWait) 3 = .retryWait ∧ ((putFeedState State.reset 3 .retryWait).feeds.get 3).due ≤ 0 ∧
    (let s := setFeed (putFeedState { State.reset with tick := 100000000 } 3 .discharge) 3 fun x => { x with fell := some 0 }
     feedState s 3 = .discharge ∧ (s.feeds.get 3).fell = some 0 ∧ 0 + 1000 * fget s (Fld.FEED_SHORT_DDLY 3) ≤ s.tick ∧
     (s.feeds.get 3).lossAt < s.tick ∧ feedPermitted s 3 = false) := by decide +kernel

-- FeedsProtect
theorem test_wit_feed_protect :
    (let s := putFeedState State.reset 3 .precharge
     feedState s 3 = .precharge ∧ bit s (Fld.FEED_STATUS_G 3) = false ∧ (s.feeds.get 3).due ≤ s.tick) ∧
    (let s := setFeed (fput (putFeedState { State.reset with tick := 9 } 3 .on) (Fld.FEED_RETRY_RETRY 3) 2) 3 fun x => { x with oc := ⟨true, 0, false⟩ }
     feedState s 3 = .on ∧ retryCount s 3 + 1 ≤ fget s (Fld.FEED_RETRY_RETRY 3) ∧
     ocNow (feedSense s 3 none none (some 1) 0 0) 3 = true ∧
     ocNow (feedSense s 3 none none (some 0) 0 0) 3 = false ∧
     (let s' := fput s (Fld.FEED_RETRY_RETRY 3) 0
      fget s' (Fld.FEED_RETRY_RETRY 3) < retryCount s' 3 + 1 ∧
      ocNow (feedSense s' 3 none none (some 1) 0 0) 3 = true) ∧
     (let s' := setFeed (putFeedState s 3 .discharge) 3 fun x => { x with fell := some 9 }
      feedState s' 3 = .discharge ∧ (s'.feeds.get 3).fell = some s'.tick ∧
      ocNow (feedSense s' 3 none none (some 1) 0 0) 3 = true)) ∧
    (let s := fput (fput { State.reset with tick := 13 } (Fld.FEED_CFG_EN 3) 1) (Fld.FEED_CFG_SHCHK 3) 1
     shortApplies s 3 = true ∧ (fget s (Fld.FEED_SHORT_SHTH 3) : Rat) / 1280 < 1 ∧ bit s (Fld.FEED_CFG_EN 3) = true ∧
     (s.tick - s.resetTick) % 32 = 4 * (3 : Fin 8).val + (1 : Fin 3).val ∧ shortApplies State.reset 3 = false) ∧
    (let s := setFeed { State.reset with tick := 100000000 } 3 fun x => { x with resume := some 0, vlp := ⟨true, 0, false⟩ }
     (s.feeds.get 3).resume = some 0 ∧ 0 ≤ s.tick ∧ groupHigh s 3 = false ∧ (s.feeds.get 3).vlp.raw = true ∧
     (s.feeds.get 3).vlAt + ddly s 3 ≤ s.tick ∧ ddly s 3 ≤ 100000000) := by decide +kernel

-- SequencerRequestsAndRails
theorem test_wit_seq :
    seqPowered (setDev State.reset .idle) = true ∧ seqPowered State.reset = false ∧
    (1 : Word).getLsbD 0 = true ∧ (1 : Word).getLsbD 1 = false ∧ (3 : Word).getLsbD 0 = true ∧ (3 : Word).getLsbD 1 = true ∧
    (2 : Word).getLsbD 0 = false ∧ (2 : Word).getLsbD 1 = true ∧
    seqPhase (putPhase State.reset .dwell) = .dwell ∧ (∀ r : Fin 16, bit State.reset (Fld.SEQ_RCFG_EN r) = false) ∧
    (let s := { putPhase State.reset .dwell with tick := 65536000 }
     s.seq.downAt + 1000 * fget s Fld.SEQ_CFG_MINOFF ≤ s.tick ∧ seqPhase s = .dwell ∧
     bit (fput s (Fld.SEQ_RCFG_EN 0) 1) (Fld.SEQ_RCFG_EN 0) = true ∧ railState (fput s (Fld.SEQ_RCFG_EN 0) 1) 0 ≠ .fault) ∧
    railState (putRail State.reset 5 .wait) 5 = .wait ∧ State.reset.seq.due ≤ State.reset.tick ∧
    (let s := setSeq (fput (fput (putRail (fput { setDev State.reset .idle with tick := 100000 } (Fld.SEQ_RTHR_LO 5) 100) 5 .rising) (Fld.SEQ_RCFG_EN 5) 1) (Fld.SEQ_RTHR_HI 5) 900)
        fun x => { x with due := 200000 }
     let u := senseRail s 5 (1 / 2) false 100000
     railOn s 5 = true ∧ railState s 5 = .rising ∧ s.tick < s.seq.due ∧ railNative s 5 = true ∧ goodNow u 5 = true ∧
     holdsLo (railState s 5) = true ∧ (railOf s 5).good.raw = false ∧
     (railOf s 5).told + (fget s (Fld.SEQ_ROFF_GF 5) - 1) ≤ s.tick ∧ fget s (Fld.SEQ_ROFF_GF 5) - 1 ≤ 100000 ∧
     (fget s (Fld.SEQ_RTHR_LO 5) : Rat) / 1280 + hystVolt (fget s (Fld.SEQ_RCFG_HYST 5)) < 1 / 2 ∧
     1 / 2 < (fget s (Fld.SEQ_RTHR_HI 5) : Rat) / 1280 - hystVolt (fget s (Fld.SEQ_RCFG_HYST 5)) ∧
     overNow (senseRail s 5 (4 / 5) true 100000) 5 = true ∧
     (let v := setRail (putRail s 5 .good) 5 fun x => { x with wasGood := true }
      railOn v 5 = true ∧ railState v 5 = .good ∧ (railOf (senseRail v 5 (4 / 5) false 100000) 5).wasGood = true ∧
      goodNow (senseRail v 5 (4 / 5) false 100000) 5 = false) ∧
     (let v := fput (fput (putRail s 5 .falling) (Fld.SEQ_ROFF_OFF 5) 100) (Fld.SEQ_ROFF_GF 5) 1
      railOn v 5 = true ∧ railState v 5 = .falling ∧ fallenNow (senseRail v 5 0 false 10) 5 = true ∧ v.tick < v.seq.due ∧
      bit v Fld.SEQ_STATUS_CFG_PEND = false)) ∧
    railState (putRail State.reset 5 .rising) 5 = .rising ∧
    railState (putRail State.reset 5 .predown) 5 = .predown ∧ railState (putRail State.reset 5 .falling) 5 = .falling := by decide +kernel

-- BatteryStepFiltersAndAccounts
theorem test_wit_batt_step :
    (let s := setBatt { fput (fput (setDev State.reset .idle) (Fld.BATT_CFG_EN 1) 1) (Fld.BATT_STATUS_VALID 1) 1 with tick := 10000 } 1
        fun x => { x with samples := List.replicate 10 (0, 100) }
     battRuns s = true ∧ s.tick % 10000 = 0 ∧ (battOf s 1).stepAt ≠ some s.tick ∧ (battOf s 1).closing = none ∧
     bit s (Fld.BATT_CFG_EN 1) = true ∧ battValid s 1 = true ∧ battAbsent s 1 = false ∧ s.tick % 1000 = 0 ∧
     (battOf s 1).convAt ≠ some s.tick ∧
     (battOf s 1).swapped = false ∧ (battOf s 1).restoreDue = false ∧ (battOf s 1).coldDue = false ∧ (battOf s 1).snapDue = false ∧
     (battOf (setBatt s 1 fun x => { x with closing := some true }) 1).closing = some true) ∧
    bit State.reset (Fld.BATT_CFG_EN 1) = false ∧ battRuns State.reset = false := by decide

-- BatteryAnchorsAgesAndSnapshots
theorem test_wit_batt_rest :
    (let s := setBatt (fput State.reset (Fld.BATT_STATUS_VALID 1) 1) 1 fun x => { x with rest := some 5, restDue := 5, valid := true, gap := some 90000000000 }
     (battOf s 1).rest = some 5 ∧ battValid s 1 = true ∧ (battOf s 1).valid = true ∧ (battOf s 1).restDue ≤ 5 ∧
     restPointDue s 1 = true ∧
     (let u := setBatt s 1 fun x => { x with rest := none }
      (battOf u 1).gap = some 90000000000 ∧ 1000000 * fget u (Fld.BATT_DTIME_DTIME 1) ≤ 90000000000 ∧ restPointDue u 1 = false ∧
      battValid u 1 = true)) ∧
    (let s := setBatt (putBattState State.reset 1 .anchored) 1 fun x => { x with age := 300000000 }
     battState s 1 = .anchored ∧ ((fget s (Fld.BATT_TIMING_AMAX 1) * 3600 : Nat) : Rat) ≤ (battOf s 1).age ∧ restPointDue s 1 = false) ∧
    (let s := fput { State.reset with tick := 60000000 } (Fld.BATT_TIMING_SAVEP 1) 1
     60000000 * fget s (Fld.BATT_TIMING_SAVEP 1) ≠ 0 ∧ (battOf s 1).saveAt + 60000000 * fget s (Fld.BATT_TIMING_SAVEP 1) ≤ s.tick) ∧
    (let s := setBatt { fput (setDev State.reset .idle) (Fld.BATT_CFG_EN 1) 1 with tick := 10000 } 1 fun x => { x with restoreDue := true }
     battRuns s = true ∧ s.tick % 10000 = 0 ∧ (battOf s 1).stepAt ≠ some s.tick ∧ (battOf s 1).closing = none ∧
     battAbsent s 1 = false ∧ (battOf s 1).swapped = false ∧ (battOf s 1).restoreDue = true ∧
     bit (fput s (Fld.BATT_CFG_EN 1) 0) (Fld.BATT_CFG_EN 1) = false) := by decide +kernel

-- HousekeepingRoundJudgesTemperatures
theorem test_wit_hk :
    (hkRuns State.reset = true ∧ State.reset.hk.phase = .idle ∧ State.reset.hk.nextAt ≤ State.reset.tick) ∧
    (let s := setHk { State.reset with tick := 40 } fun h => { h with phase := .converting }
     hkRuns s = true ∧ s.hk.phase = .converting ∧ s.hk.startAt + 40 ≤ s.tick ∧ vget 0 s.hk.codes 8 < 16) ∧
    (let s := setHk { State.reset with tick := 41 } fun h => { h with phase := .evaluated }
     hkRuns s = true ∧ s.hk.phase = .evaluated ∧ s.hk.startAt + 41 ≤ s.tick) := by decide

-- ThrottleActsEverySixteenRounds
theorem test_wit_throttle : fget State.reset Fld.SCHED_ROUNDS_ROUNDS % 16 = 0 ∧
    fget (fput State.reset Fld.SCHED_ROUNDS_ROUNDS 17) Fld.SCHED_ROUNDS_ROUNDS % 16 ≠ 0 ∧ portUsed (fput State.reset (Fld.PORT_CFG_ENABLE 5) 1) 5 = true := by decide

-- QueuesKeepWholeRecords
theorem test_wit_qpush :
    (let s := fput (fput State.reset Fld.SCHED_STATUS_RUN 1) (Fld.HOSTIF_Q_CFG_PROD 7) 1
     let l : LaneFields := ⟨7, 0, 0x2200⟩
     laneActs s 0x20 l = true ∧ l.ctx.toNat = (7 : Fin 64).val ∧ l.argBits 13 1 = 1 ∧ 2 ≤ engineFree s 7 ∧ l.argBits 8 5 = 2 ∧
     engineFree State.reset 7 < 2) ∧
    (let s := { fput State.reset Fld.SCHED_STATUS_RUN 1 with sched := { State.reset.sched with openRecs := [⟨7, 1, false, none⟩] } }
     let l : LaneFields := ⟨7, 0, 0⟩
     laneActs s 0x20 l = true ∧ l.argBits 13 1 = 0 ∧ openRec s 7 = some ⟨7, 1, false, none⟩ ∧ openRec State.reset 7 = none ∧
     openRec { s with sched := { s.sched with openRecs := [⟨7, 2, true, none⟩] } } 7 = some ⟨7, 2, true, none⟩ ∧
     laneActs State.reset 0x20 l = false) := by decide

-- QueueReadersAndWatermarks
theorem test_wit_queues :
    (let s := setQueue (fput State.reset (Fld.HOSTIF_Q_CFG_PROD 7) 1) 7 fun _ => ⟨[5, 6], 1, 1, true⟩
     (queueOf s 7).vis < (queueOf s 7).entries.length ∧ s.host.bulk = none ∧ s.host.tw = none ∧ s.host.coreRead = none ∧ mayPop s .bulk 7 = true ∧
     openRec s 7 = none ∧ (queueOf s 8).unfreed = 0 ∧ (queueOf s 8).flush = false ∧ (queueOf s 8).entries.length ≤ (queueOf s 8).vis ∧
     (queueOf s 7).entries = 5 :: [6] ∧ (queueOf s 7).vis = 0 + 1 ∧ (queueOf s 7).unfreed = 0 + 1 ∧ (queueOf s 7).flush = true ∧
     mayPop State.reset .bulk 7 = false) ∧
    (let s := setHost (setQueue (fput (fput State.reset (Fld.HOSTIF_Q_CFG_PROD 7) 1) (Fld.HOSTIF_Q_CFG_CONS 7) 1) 7 fun _ => ⟨[5], 0, 0, false⟩)
        fun h => { h with coreRead := some 7 }
     s.host.bulk = none ∧ s.host.tw = none ∧ s.host.coreRead = some 7 ∧ mayPop s .core 7 = true ∧ (queueOf s 7).entries = 5 :: [] ∧
     (queueOf s 7).vis = 0) ∧
    (let s := fput State.reset (Fld.HOSTIF_Q_CFG_PROD 7) 1
     mayPop s .bulk 7 = true ∧ (queueOf s 7).vis = 0 ∧ getBits (0x00040004 : Word) 0 13 ≤ getBits (0x00040004 : Word) 16 13 ∧
     getBits (0x00040008 : Word) 16 13 < getBits (0x00040008 : Word) 0 13 ∧ getBits (0x00040008 : Word) 0 13 ≤ queueDepth s 7 - 2) := by decide

-- UnassignedAddressesReadZero
theorem test_wit_unassigned :
    (let s := setDev State.reset .idle
     hostReady s = true ∧ inRecovery s = false ∧ ((0x0E000 : BitVec 32).toNat % 4 = 0) ∧ regRow? (0x0E000 : BitVec 32).toNat = none ∧
     imageOnly (0x0E000 : BitVec 32).toNat = false ∧ ¬ (0x20000 ≤ (0x0E000 : BitVec 32).toNat ∧ (0x0E000 : BitVec 32).toNat < 0x30000)) ∧
    imageOnly (BitVec.ofNat 32 Reg.PLL_KP).toNat = true := by decide +kernel

-- MapWritesFollowAccessCodes
theorem test_wit_map :
    (let s := setDev State.reset .idle
     hostReady s = true ∧ inRecovery s = false ∧ hostReady State.reset = false ∧
     (∀ a ∈ [Reg.HOSTIF_FILL, Reg.TIME_EVENT, Reg.FAULT_HWD_CLOSE, Reg.GLOBAL_EVENT, Reg.TIME_STATUS],
       a % 4 = 0 ∧ (regRow? a).isSome = true ∧ imageOnly a = false ∧ ownEffect a = false)) := by decide +kernel
theorem test_wit_map_refused :
    (let s := setDev State.reset .idle
     let u := fput s Fld.FAULT_HWD_CTRL_EN 1
     (regRow? Reg.FAULT_HWD_CLOSE).map (plainRefused s) = some false ∧ (regRow? Reg.FAULT_HWD_CLOSE).map (plainRefused u) = some true ∧
     (regRow? (Reg.CMP_CTRL 31 3)).map (fun r => r.fields.any fun f => f.2.2 == .wo) = some true ∧
     (hostRead .bulk (Reg.CMP_CTRL 31 3) s).isSome = true) := by decide +kernel

-- BulkTransactionsCarryWholeWords
theorem test_wit_bulk_read :
    (let s := setDev State.reset .idle
     let h : BulkHead := ⟨0x11, 0x10000005, 7⟩
     hostReady s = true ∧ inRecovery s = false ∧ s.host.bulk = none ∧ s.nvmBad = [] ∧ h.len.toNat % 8192 % 4096 = 7 % 4096 ∧ h.len.toNat < 8192 ∧
     0x10000000 ≤ h.addr.toNat ∧ h.addr.toNat + 7 ≤ 0x10400000 ∧ bit s Fld.HOSTIF_BULK_CFG_CRCREQ = false) ∧
    bulkFree (setDev State.reset .hibernate) = false ∧ bulkFree (setDev State.reset .boot) = true ∧ hostReady (setDev State.reset .boot) = false := by decide
theorem test_wit_bulk_write :
    (let s := setDev State.reset .idle
     let h : BulkHead := ⟨0x10, BitVec.ofNat 32 Reg.HOSTIF_FILL, 4⟩
     let r := bulkRun s true h [1, 2, 3, 4] 0 11
     (hostWrite .bulk h.addr.toNat 0x04030201 (setHost s fun x => { x with bulk := some r, bulkOut := [], bulkStatus := statusByte s })).host.bulk
       = some r ∧ hostReady s = true ∧ bulkFree s = true ∧ h.addr.toNat % 4 = 0 ∧ (regionEnd h.addr.toNat).2 = true ∧ crc16 (headBytes h ++ [1, 2, 3, 4]) ≠ 0) := by decide +kernel
theorem test_wit_bulk_wait :
    (let r : BulkRun := ⟨false, false, false, 0x20000, 1, false, [], [], 0, 1, 0, 0, false, false, [], some 0, false, false, false, false, false, 0⟩
     let s := { setHost (setDev State.reset .idle) (fun h => { h with bulk := some r }) with tick := 5000 }
     s.host.bulk = some r ∧ r.wait = some 0 ∧ 0 + 10 * fget s Fld.HOSTIF_BULK_CFG_TMO ≤ s.tick ∧ r.want = r.pos + 1 ∧ r.len = r.pos + 1 ∧
     r.addr + r.pos < (regionEnd r.addr).1 ∧ (regionEnd r.addr).2 = true) := by decide

-- TwoWireTargetAndController
theorem test_wit_two_wire :
    (let s := fput (setDev State.reset .idle) Fld.HOSTIF_WINBASE_BASE 0x8000
     hostReady s = true ∧ inRecovery s = false ∧ s.host.tw = none ∧ bit s Fld.HOSTIF_TW_CFG_PEC = false ∧ 0x10000000 ≤ winBase s ∧
     winBase s + 0x2000 ≤ 0x10400000 ∧ s.nvmBad = []) ∧
    (let r : TwRun := ⟨false, false, 1, 0, 0, false, false, [], [], some 0⟩
     let s := { setHost (setDev State.reset .idle) (fun h => { h with tw := some r }) with tick := 5000000 }
     s.host.tw = some r ∧ r.wait = some 0 ∧ 0 + 40 * fget s Fld.HOSTIF_TW_CFG_STRETCH ≤ s.tick ∧ r.left = 1) ∧
    (let s := fput (setDev State.reset .idle) Fld.HOSTIF_TW_CFG_SMBTO 1
     bit s Fld.HOSTIF_TW_CFG_SMBTO = true ∧ stretching s = false ∧ s.host.tw = none) ∧
    (bit State.reset Fld.HOSTIF_TWC_STAT_BUSY = false ∧ (0x80000100 : Word).getLsbD 31 = true ∧ getBits (0x80000100 : Word) 8 6 ≠ 0) ∧
    (let s := fput State.reset Fld.HOSTIF_TWC_STAT_BUSY 1
     bit s Fld.HOSTIF_TWC_STAT_BUSY = true ∧ s.host.twcOn = false ∧ s.host.tw = none ∧
     fget s Fld.HOSTIF_TWC_CTRL_RETRY ≤ fget s Fld.HOSTIF_TWC_STAT_TRIES ∧
     fget s Fld.HOSTIF_TWC_STAT_TRIES < fget (fput s Fld.HOSTIF_TWC_CTRL_RETRY 2) Fld.HOSTIF_TWC_CTRL_RETRY) ∧
    (let s := setHost State.reset fun h => { h with twcOn := true }
     s.host.twcOn = true ∧ bit s Fld.HOSTIF_TWC_CTRL_PEC = false ∧ ([] : List Byte).length = fget s Fld.HOSTIF_TWC_CTRL_RLEN) ∧
    (let s := fput (fput (setHost State.reset fun h => { h with twcOn := true, twcSent := [0x90, 1, 0x91] }) Fld.HOSTIF_TWC_CTRL_PEC 1)
        Fld.HOSTIF_TWC_CTRL_RLEN 1
     s.host.twcOn = true ∧ bit s Fld.HOSTIF_TWC_CTRL_PEC = true ∧ ([5] : List Byte).length = fget s Fld.HOSTIF_TWC_CTRL_RLEN ∧
     crc8Pec (s.host.twcSent ++ [5]) ≠ 0) ∧
    (let s := fput (setDev State.reset .idle) Fld.HOSTIF_TW_CFG_PEC 1
     hostReady s = true ∧ s.host.tw = none ∧ bit s Fld.HOSTIF_TW_CFG_PEC = true ∧
     crc8Pec (twAddrByte s false :: ([0, 0x40, 1, 0] : List Byte).dropLast) ≠ ([0, 0x40, 1, 0] : List Byte).getLastD 0) := by decide +kernel

-- StandingEntriesClearWhenTheirCauseIsGone
theorem test_wit_clear :
    (let s := setFlt (fput (fput (fput State.reset (Fld.FAULT_ENTRY_CODE_VALID 9) 1) (Fld.FAULT_ENTRY_CODE_CODE 9) 0x0105)
        (Fld.FAULT_ENTRY_CODE_KIND 9) 1) fun f => { f with candidates := [(9, 0)] }
     (9 : Nat) < 64 ∧ s.fault.candidates = [(9, 0)] ∧ entryValid s 9 = true ∧ engineScope s 9 = true ∧ entryGone s 9 = true ∧
     engineScope s 9 ≠ false) ∧
    (let s := { setFlt (fput (fput State.reset (Fld.FAULT_ENTRY_CODE_VALID 9) 1) (Fld.FAULT_ENTRY_CODE_CODE 9) 0x0309)
        (fun f => { f with candidates := [(9, 0)], aliveDue := some 0 }) with tick := 5, power := { State.reset.power with xtalBad := true } }
     engineScope s 9 = false ∧ 0 < s.tick ∧ entryGone s 9 = false ∧ s.fault.aliveDue = some 0 ∧ 0 ≤ s.tick ∧
     bit s Fld.FAULT_FWD_STAT_FROZEN = false ∧ s.trust.pause = none ∧ devState (setDev s .armed) = .armed) ∧
    (matchingEntry State.reset 0x0105 1 3 = none ∧ freeEntry State.reset = some 0 ∧ State.reset.fault.aliveDue = none ∧
     bit (fput State.reset Fld.FAULT_FWD_STAT_FROZEN 1) Fld.FAULT_FWD_STAT_FROZEN = true) := by decide

-- HostWatchdogJudgesEveryService
theorem test_wit_hwd :
    (bit State.reset Fld.FAULT_HWD_CTRL_EN = false ∧
     (let s := fput (fput State.reset Fld.FAULT_HWD_CFG_SEED 7) Fld.FAULT_HWD_CLOSE_CLOSE 100
      fget s Fld.FAULT_HWD_OPEN_OPEN < fget s Fld.FAULT_HWD_CLOSE_CLOSE ∧ fget s Fld.FAULT_HWD_CFG_SEED ≠ 0)) ∧
    (let s := fput (fput (fput (setDev State.reset .armed) Fld.FAULT_HWD_CTRL_EN 1) Fld.FAULT_HWD_CLOSE_CLOSE 100) Fld.FAULT_HWD_Q_Q 7
     let w : Word := (answerByte 7 0 (rd s Reg.FAULT_HWD_TOKKEY)).setWidth 32
     hwdStopped s = false ∧ hwdLate s = false ∧ getBits w 8 2 = fget s Fld.FAULT_HWD_Q_NEXT ∧
     wordByte w 0 = answerByte (BitVec.ofNat 8 (fget s Fld.FAULT_HWD_Q_Q)) (getBits w 8 2) (rd s Reg.FAULT_HWD_TOKKEY) ∧
     getBits (0x300 : Word) 8 2 ≠ fget s Fld.FAULT_HWD_Q_NEXT ∧ slotErrors s = 0 ∧ s.tick ≤ s.fault.slotTick ∧
     (let u := { fput s Fld.FAULT_HWD_CFG_SLOT_EN 1 with tick := 5 }
      slotErrors (fput u Fld.FAULT_HWD_EXP_EXP 2) ≠ 0 ∧ hwdStopped u = false ∧ hwdLate u = false ∧ u.fault.slotTick < u.tick)) ∧
    (hwdStopped State.reset = true ∧ bit (fput State.reset Fld.FAULT_HWD_CTRL_HWD_LOCK 1) Fld.FAULT_HWD_CTRL_HWD_LOCK = true ∧
     getBits (0 : Word) 0 16 ≠ 0x4F55) ∧
    (let s := { fput (fput (fput (setDev State.reset .armed) Fld.FAULT_HWD_CTRL_EN 1) Fld.FAULT_HWD_CLOSE_CLOSE 100)
        Fld.FAULT_HWD_CFG_FAILTH 1 with tick := 100 }
     hwdStopped s = false ∧ s.fault.hwdRef + fget s Fld.FAULT_HWD_CLOSE_CLOSE ≤ s.tick ∧ devState s = .armed ∧
     fget s Fld.FAULT_HWD_STAT_FAILCNT + 1 = fget s Fld.FAULT_HWD_CFG_FAILTH) ∧
    (let s := setFlt State.reset fun f => { f with keyAt := some 0 }
     s.fault.keyAt = some 0 ∧ s.tick < 0 + 32 ∧ bit s Fld.FAULT_HWD_CTRL_HWD_LOCK = false ∧ State.reset.fault.keyAt = none) := by decide +kernel

-- RecorderWritesWholeBlocks
theorem test_wit_recorder :
    (let r : Record := ⟨8, 0, 0, 0, 0, List.replicate 36 0⟩
     let s := setRec (fput (setHk (setDev State.reset .idle) fun h => { h with nvmInh := false }) Fld.HK_STATUS_NVM_INH 0) fun x => { x with pending := [r] }
     s.saddle.job = none ∧ nvmAllowed s = true ∧ recordsFlow s = true ∧ s.saddle.retry = none ∧ s.saddle.pending = r :: [] ∧
     s.saddle.pending.length < 128 ∧
     (setRec s fun x => { x with job := some (.record r 5 false), snapErase := 1 }).saddle.job = some (.record r 5 false) ∧
     (let u := fput (setRec s fun x => { x with snapErase := 1, pending := [], scrub := (3, 2) }) Fld.REC_STATUS_SCRUB 1
      u.saddle.snapErase = 0 + 1 ∧ blockWaits u = false ∧ bit u Fld.REC_STATUS_SCRUB = true ∧ u.saddle.scrubAt ≤ u.tick ∧ bit u Fld.REC_STATUS_FROZEN = false ∧
      u.saddle.scrub = (3, 2) ∧ startSaddlebag u = none ∧ startSnapshot u = none ∧ u.saddle.commitRun = none ∧
      (setRec u fun x => { x with commitDue := some 2 }).saddle.commitDue = some 2 ∧ bit u Fld.REC_STATUS_SNAPCLR = false ∧
      u.saddle.snapRun = none ∧ recordWaits u ⟨(1, 3), 3, 0, 0x105, 1, 0, 1, some 4, List.replicate 992 0⟩ = false) ∧
     (let u := fput (setRec s fun x => { x with pending := [], refreshDue := [0x200040] }) Fld.REC_STATUS_HU_READY 1
      u.saddle.job = none ∧ nvmAllowed u = true ∧ blockWaits u = false ∧ eraseWaits u = false ∧ stagingWaits u = false ∧
      u.saddle.refreshDue = 0x200040 :: [] ∧ mayRefresh u 0x200040 = true ∧
      mayRefresh (fput u Fld.REC_STATUS_HU_READY 0) 0x200040 = false) ∧
     blockWaits s = true ∧ bit (fput s Fld.REC_CFG_WVERIFY 1) Fld.REC_CFG_WVERIFY = true) ∧
    (let s := fput (fput (setHk (setDev State.reset .armed) fun h => { h with nvmInh := false }) Fld.HK_STATUS_NVM_INH 0) Fld.REC_STATUS_HU_READY 1
     devState s ≠ .off ∧ devState s ≠ .hibernate ∧ bit s Fld.REC_STATUS_HU_READY = true ∧ nvmAllowed s = true ∧ s.saddle.job = none ∧
     s.trust.staging = none) := by decide

-- RecorderControlsAndClear
theorem test_wit_rec_control :
    devState (setDev State.reset .test) = .test ∧ State.reset.saddle.commitDue = none ∧ State.reset.saddle.commitRun = none ∧
    bit State.reset Fld.TRUST_STATUS_RECOVERY = false ∧ State.reset.saddle.job = none ∧
    bit (fput State.reset Fld.TRUST_STATUS_RECOVERY 1) Fld.TRUST_STATUS_RECOVERY = true ∧
    (let s := { State.reset with tick := 6000000000 }
     s.saddle.commitAt + fget s Fld.REC_CFG_COMMIT * 60000000 ≤ s.tick) ∧
    State.reset.tick < State.reset.saddle.commitAt + fget State.reset Fld.REC_CFG_COMMIT * 60000000 ∧
    (setRec State.reset fun x => { x with commitDue := some 2 }).saddle.commitDue.isSome = true ∧
    devState (setDev State.reset .hibernate) = .hibernate ∧
    devState State.reset ≠ .hibernate ∧ bit State.reset Fld.GLOBAL_STATE_HIB_PEND = false ∧ clearAccepted State.reset 0 = false := by decide +kernel

-- StagingFillsOnlyTheStagedSlot
theorem test_wit_staging :
    (0x80000001 : Word).getLsbD 31 = true ∧ getBits (0x80000001 : Word) 0 8 = 1 ∧
    (let x : Staging := ⟨false, 8, 8, 5, 1, List.replicate 8 3, 0, false⟩
     let s := setTrust (fput (setHk State.reset fun h => { h with nvmInh := false }) Fld.HK_STATUS_NVM_INH 0) fun t => { t with staging := some x, stStg := 2 }
     s.trust.staging = some x ∧ nextPage x = some (List.replicate 8 3) ∧ stagedState s x.fw = 2 ∧ stagingMayWrite s x = true ∧
     stagedState (setTrust s fun t => { t with stStg := 1 }) x.fw = 1 ∧ pieceRow s 8 8 [] = 9 ∧ pieceRow s 8 9 [] = 1 + 5) := by decide +kernel

-- ActivationsActAtTheirCycle
theorem test_wit_activation :
    (let s := fput State.reset Fld.TRUST_ACT_CFG_KIND 1
     fget s Fld.TRUST_ACT_CFG_KIND = 1 ∧ requestRefused s true 0 0 = some 1) ∧
    (let s := setTrust State.reset fun t => { t with actFw := some 0, actSt := some 0, fwStg := 3, stStg := 3 }
     s.time.round = 0 ∧ s.trust.pause = none ∧ s.trust.actFw = some 0 ∧ 0 ≤ replicaCycle s ∧ devState s ≠ .test ∧ s.trust.fwStg = 3) ∧
    (let s := setTrust State.reset fun t => { t with actSt := some 0, stStg := 3 }
     s.trust.actFw = none ∧ s.trust.actSt = some 0 ∧ s.trust.stStg = 3 ∧ s.trust.inert = false ∧
     pendingAct s false = some 0 ∧ stagedState (setTrust s fun t => { t with stStg := 2 }) false ≠ 3 ∧
     fget s Fld.TRUST_ACT_CFG_KIND ≠ 1 ∧ fget s Fld.TRUST_ACT_CFG_KIND ≠ 2) ∧
    (let s := setTrust State.reset fun t => { t with pause := some (0, true) }
     s.trust.pause = some (0, true) ∧ s.harn.held = [] ∧ s.harn.heldRsp = [] ∧ s.host.bulk = none ∧ s.host.tw = none ∧ firmwareCheck s ≠ none) := by decide +kernel
theorem test_wit_request :
    (let s := nvmSetBytes (setTrust State.reset fun t => { t with fwStg := 3, stored := t.stored.set 1 256 }) 0xC0010 [7, 0, 0, 0, 0, 0, 0, 0]
     requestRefused s true 5 7 = none) := by decide +kernel

-- StructureImagesChangeBetweenCycles
theorem test_wit_structure :
    (let s := setTrust State.reset fun t => { t with inert := true }
     s.trust.inert = true ∧ s.trust.loaded = none ∧ s.time.round = 0 ∧ s.time.take = false ∧
     (setTrust s fun t => { t with loaded := some true }).trust.loaded = some true) ∧ State.reset.trust.inert = false := by decide
theorem test_wit_structure_rejected :
    (let s := setTrust State.reset fun t => { t with inert := true }
     (loadStructure s (stagedImg s false) true).2 ≠ none) := by decide +kernel

-- ReportsAndKeyOperations
theorem test_wit_reports :
    State.reset.trust.report = none ∧
    (let s := setTrust State.reset fun t => { t with report := some ⟨[], none⟩ }
     s.trust.report = some ⟨[], none⟩ ∧ s.trust.pause = none ∧ s.trust.report ≠ none ∧
     (setTrust s fun t => { t with report := some ⟨[], some (1, 2, 3)⟩ }).trust.report = some ⟨[], some (1, 2, 3)⟩) ∧
    (let s := setDev State.reset .idle
     devState s = .idle ∧ s.trust.keys.get 2 = [] ∧ s.trust.clearKey = [] ∧ s.trust.lifecycle = 1 ∧ keyToken s 4 2 = false) := by decide +kernel
theorem test_wit_key_token :
    (let s := setTrust (setDev State.reset .idle) fun t => { t with knonce := true, clearKey := [1, 2, 3], keys := t.keys.set 2 [1] }
     let s2 := putRegBytes s (Reg.TRUST_TOKEN 0) (hmacSha256 s.trust.clearKey (keyMessage s 2 2))
     let s4 := putRegBytes s (Reg.TRUST_TOKEN 0) (hmacSha256 s.trust.clearKey (keyMessage s 4 2))
     s2.trust.keys.get 2 ≠ [] ∧ devState s2 = .idle ∧ keyToken s2 2 2 = true ∧
     s4.trust.lifecycle = 1 ∧ devState s4 = .idle ∧ keyToken s4 4 2 = true) := by
  intro s s2 s4
  have h : ∀ m, (putRegBytes s (Reg.TRUST_TOKEN 0) m).trust = s.trust := fun m => by rw [putRegBytes_only]
  have hd : ∀ m : List Byte, m.length = 32 → devState (putRegBytes s (Reg.TRUST_TOKEN 0) m) = .idle := fun m hm => by
    have : rd (putRegBytes s (Reg.TRUST_TOKEN 0) m) Reg.GLOBAL_STATE = rd s Reg.GLOBAL_STATE :=
      rd_putRegBytes_of_ne _ _ _ _ fun k hk => by simp only [Reg.GLOBAL_STATE, Reg.TRUST_TOKEN]; omega
    rw [devState, fget, this]
    decide
  refine ⟨?_, hd _ (length_hmacSha256 _ _), keyToken_putRegBytes s 2 2 rfl rfl, ?_, hd _ (length_hmacSha256 _ _),
    keyToken_putRegBytes s 4 2 rfl rfl⟩
  · rw [h]; decide
  · rw [h]; rfl

-- LinksPausesAndTheHostFrame
theorem test_wit_links :
    (let s := fput (fput (setDev State.reset .idle) Fld.HARNESS_ROLE_ROLE 0) Fld.HARNESS_CFG_ROOT 1
     linksRun s = true ∧ linkUp s .hdn = false ∧ s.harn.cut.get HPort.hdn.idx = false ∧ upPort s ≠ some .hdn ∧
     (setTest s fun x => { x with cutPend := upd x.cutPend 1 fun _ => true }).test.cutPend.get HPort.hdn.idx = true ∧
     fbit (fput s Fld.TEST_HARN_OFF 2) Fld.TEST_HARN_OFF 1 = true ∧ s.harn.waiting = [] ∧ NoCutWaits s ∧
     bit s Fld.HARNESS_CFG_AUTOENUM = false ∧ bit (fput s Fld.HARNESS_CFG_AUTOENUM 1) Fld.HARNESS_CFG_AUTOENUM = true ∧ bit s Fld.HARNESS_TXSTAT_BUSY = false ∧
     isRoot s = true ∧ txRefused s (txFrame s) = false) ∧
    (let s := fput (fput (setDev State.reset .idle) Fld.HARNESS_STATUS_LINK_DN 1) Fld.HARNESS_ROLE_ROLE 1
     linkUp s .hdn = true ∧ s.harn.enum = none ∧ harnConsumes s = true ∧ upPort s ≠ some .hdn ∧ linksRun s = true ∧ isRoot s = false ∧
     bit s Fld.HARNESS_STATUS_RINGMODE = false ∧ bit (fput s Fld.HARNESS_TXSTAT_BUSY 1) Fld.HARNESS_TXSTAT_BUSY = true ∧
     (let v := fput (fput (fput s Fld.HARNESS_STATUS_LINK_UP 1) Fld.HARNESS_ADDR_ADDR 5) (wholeReg (Reg.HARNESS_TXBUF 0)) 0x90000
      let w := setHarn (fput v (wholeReg (Reg.HARNESS_TXBUF 1)) 0x1000000) fun h => { h with guard := upd h.guard 0 fun _ => true }
      upPort w = some .hup ∧ outOpen w .hup = true ∧ txRefused w (txFrame w) = false ∧ harnRuns w = true ∧ (txFrame w).dest = 9 ∧
      rangePort w 9 = none ∧ mayTransmit w .hup 5 = false)) := by unfold NoCutWaits; decide
theorem test_wit_forward :
    (let s := fput (fput (fput (setDev State.reset .idle) Fld.HARNESS_STATUS_LINK_DN 1) Fld.HARNESS_STATUS_LINK_UP 1) Fld.HARNESS_ROLE_ROLE 1
     let f : Frame := ⟨9, 7, 2, 0, 0xFF, 1, 0, []⟩
     Arrives s .hdn (received f) ∧ secondRoot s .hdn f = false ∧ routeOf s .hdn f = ⟨false, [.hup], false⟩ ∧
     (received f).frame = f ∧ bothWays s = false ∧ outOpen s .hdn = true ∧
     linkUp s .hup = true ∧ s.harn.cut.get HPort.hup.idx = false ∧ mayTransmit s .hup (framePrio f) = true ∧
     (let g : RxFrame := { received f with codeBad := true }
      g.good = false ∧ g.aborted = false ∧ enumKnown g.frame = false ∧ g.frame.typ ≠ 3 ∧ (routeOf s .hdn g.frame).here = false) ∧
     (let v := fput (fput s Fld.HARNESS_ADDR_ADDR 5) Fld.HARNESS_ADDR_ROOTA 1
      let g : Frame := ⟨7, 1, 2, 0, 0xFF, 1, 0, []⟩
      Arrives v .hup (received g) ∧ secondRoot v .hup g = false ∧ routeOf v .hup g = ⟨false, [], true⟩ ∧ SendsUp v .hup g.src) ∧
     SendsUp s .hup 9 ∧ mayTransmit s .hup 5 = true ∧ s.harn.waiting = []) := by
  unfold Arrives SendsUp; decide +kernel

-- CommandFramesAreExecutedAndAnswered
theorem test_wit_cmd :
    (let s := fput (fput (fput (setDev State.reset .idle) Fld.HARNESS_STATUS_LINK_UP 1) Fld.HARNESS_ROLE_ROLE 1) Fld.HARNESS_ADDR_ADDR 5
     let x : RxFrame := received ⟨5, 9, 1, 0, 1, 1, 0, [0x00030101, 0x10000000]⟩
     ForThisDevice s .hup x ∧ x.frame.dest ≠ 0xFFFF ∧ stateRuns (devState s) = true ∧ inRecovery s = false ∧ s.trust.pause = none ∧
     SendsUp s .hup x.frame.src ∧ cmdOp x.frame = 1 ∧ cmdWordsOk x.frame = true ∧ 0x10000000 ≤ cmdAddr x.frame ∧
     cmdAddr x.frame + 4 * cmdCount x.frame ≤ 0x10400000 ∧
     (let y : RxFrame := received ⟨5, 9, 1, 0, 1, 1, 0, [0x00030201, 0x103FFFFC]⟩
      Arrives s .hup y ∧ y.frame.typ = 1 ∧ y.frame.dest ≠ 0xFFFF ∧ routeOf s .hup y.frame = ⟨true, [], false⟩ ∧ cmdNoRoom y.frame = true ∧
      y.frame.src ≠ 0 ∧ cmdOp y.frame = 1) ∧
     (let y : RxFrame := received ⟨5, 9, 1, 3, 1, 1, 0, [0x00030101, 0x10000000]⟩
      Arrives s .hup y ∧ routeOf s .hup y.frame = ⟨true, [], false⟩ ∧ cmdNoRoom y.frame = false ∧ (roleRefused s y.frame).isSome = true)) := by
  unfold ForThisDevice SendsUp Arrives; decide +kernel
theorem test_wit_cmd_write :
    (let s := fput (fput (fput (fput (setDev State.reset .idle) Fld.HARNESS_STATUS_LINK_UP 1) Fld.HARNESS_ROLE_ROLE 1)
       Fld.HARNESS_ADDR_ADDR 5) Fld.HARNESS_CFG_CMDWR 1
     let x : RxFrame := received ⟨5, 9, 1, 0, 1, 1, 0, [0x00030102, BitVec.ofNat 32 Reg.HOSTIF_FILL, 77]⟩
     ForThisDevice s .hup x ∧ cmdOp x.frame = 2 ∧ cmdWordsOk x.frame = true ∧ cmdNoRoom x.frame = false ∧ cmdCount x.frame = 1 ∧
     SendsUp (hostWrite .harness (cmdAddr x.frame) (payWord x.frame 2) s) .hup x.frame.src ∧
     NoCutWaits s ∧ NoCutWaits (hostWrite .harness (cmdAddr x.frame) (payWord x.frame 2) s)) := by
  unfold ForThisDevice SendsUp Arrives NoCutWaits; decide +kernel
theorem test_wit_cmd_cut :
    (let s := fput (fput (fput (fput (setDev State.reset .test) Fld.HARNESS_STATUS_LINK_UP 1) Fld.HARNESS_ROLE_ROLE 1)
       Fld.HARNESS_ADDR_ADDR 5) Fld.HARNESS_CFG_CMDWR 1
     let f : Frame := ⟨5, 9, 1, 0, 1, 1, 0, [0x00030102, BitVec.ofNat 32 Reg.TEST_HARN, 3]⟩
     let w := hostWrite .harness (cmdAddr f) (payWord f 2) s
     NoCutWaits s ∧ w.test.cutPend.get HPort.hdn.idx = true ∧ fbit w Fld.TEST_HARN_OFF HPort.hdn.idx = true ∧ rspWaits w = false ∧
     SendsUp w .hup 9) := by
  unfold SendsUp NoCutWaits; decide +kernel
theorem test_wit_cmd_trust :
    (let s := fput (fput (fput (setDev State.reset .idle) Fld.HARNESS_STATUS_LINK_UP 1) Fld.HARNESS_ROLE_ROLE 1) Fld.HARNESS_ADDR_ADDR 5
     let x : RxFrame := received ⟨5, 9, 1, 0, 1, 1, 0, [0x00030003, 0, 0, 0, 0, 0, 0, 0, 0]⟩
     let y : RxFrame := received ⟨5, 9, 1, 0, 1, 1, 0, [0x00030004, 1, 0, 0, 0, 0]⟩
     let z : RxFrame := received ⟨5, 9, 5, 0, 1, 1, 0, [1, 0, 0]⟩
     ForThisDevice s .hup x ∧ cmdOp x.frame = 3 ∧ cmdCount x.frame = 0 ∧ x.frame.payload.length = 9 ∧ ForThisDevice s .hup y ∧
     cmdOp y.frame = 4 ∧ activateOk y.frame = true ∧ ForThisDevice s .hup z ∧ hostReady s = true ∧
     (judgePiece s 4 0 [0, 0, 0, 0]).2.nak = some 3 ∧ (judgePiece s 4 8 [0, 0, 0, 0]).2.nak = none) := by
  unfold ForThisDevice Arrives; decide +kernel
theorem test_wit_rx :
    (let s := fput (fput (fput (fput (setDev State.reset .idle) Fld.HARNESS_STATUS_LINK_UP 1) Fld.HARNESS_ROLE_ROLE 1)
       Fld.HARNESS_ADDR_ADDR 5) (Fld.HOSTIF_Q_CFG_PROD 0) 2
     let s1 := fput s Fld.HARNESS_CFG_RXQ 0
     let x : RxFrame := received ⟨5, 9, 2, 0, 1, 1, 0, [8]⟩
     rspOk x.frame = true ∧ rspOk { x.frame with payload := [] } = false ∧ nakOk { x.frame with typ := 9 } = false ∧
     nakOk { x.frame with payload := [3, 0, 0, 0] } = true ∧ SendsUp s1 .hup 9 ∧ ForThisDevice s1 .hup x ∧ fget s1 Fld.HARNESS_CFG_RXQ = (0 : Fin 64).val ∧ x.frame.payload.length + 3 ≤ queueFree s1 0 ∧
     isRoot s1 = false ∧ queueFree (fput s1 (Fld.HOSTIF_Q_CFG_PROD 0) 0) 0 < x.frame.payload.length + 3 ∧
     64 ≤ fget (fput s1 Fld.HARNESS_CFG_RXQ 127) Fld.HARNESS_CFG_RXQ ∧
     (let v := fput (fput s1 Fld.HARNESS_ROLE_ROLE 0) Fld.HARNESS_STATUS_LINK_DN 1
      let y : RxFrame := received ⟨5, 9, 6, 0, 0, 1, 0, [0x0806, 1, 0]⟩
      ForThisDevice v .hdn y ∧ isRoot v = true ∧ evtOk y.frame = true ∧ getBits (payWord y.frame 0) 0 16 = 0x0806 ∧
      bit (fput v Fld.HARNESS_CFG_RING 1) Fld.HARNESS_CFG_RING = true ∧ bit v Fld.HARNESS_STATUS_RINGBRK = false)) := by
  unfold ForThisDevice SendsUp Arrives; decide +kernel

-- TuningBudgetsAndRolesReachTheDevice
theorem test_wit_tuning :
    (let s := fput (fput (fput (setDev State.reset .idle) Fld.HARNESS_STATUS_LINK_UP 1) Fld.HARNESS_ROLE_ROLE 1) Fld.HARNESS_ADDR_ADDR 5
     let x : RxFrame := received ⟨0xFFFF, 9, 3, 0, 0xFF, 1, 0, [1, 2, 3, 4, 5]⟩
     let s1 := fput s Fld.HARNESS_STATUS_LINK_DN 1
     NoCutWaits s ∧ NoCutWaits s1 ∧ ForThisDevice s .hup x ∧ isRoot s = false ∧ tuningOk x.frame = true ∧ Arrives s1 .hup x ∧ secondRoot s1 .hup x.frame = false ∧
     tuningOk (received ⟨0xFFFF, 9, 3, 0, 0xFF, 1, 0, [1, 2, 3, 4]⟩).frame = false ∧
     routeOf s1 .hup x.frame = ⟨true, [.hdn], false⟩ ∧ linkUp s1 .hdn = true ∧ s1.harn.cut.get HPort.hdn.idx = false) := by
  unfold ForThisDevice Arrives NoCutWaits; decide +kernel
theorem test_wit_tuning_root :
    (let s := setHarn (fput (fput (fput (setDev State.reset .idle) Fld.HARNESS_ROLE_ROLE 0) Fld.HARNESS_STATUS_LINK_DN 1) Fld.HARNESS_CFG_ROOT 1) fun h => { h with tuneDue := true }
     isRoot s = true ∧ s.harn.tuneDue = true ∧ harnRuns s = true ∧ downPorts s = [.hdn] ∧ bit s Fld.HARNESS_STATUS_RINGBRK = false ∧
     s.harn.cut.get HPort.hdn.idx = false ∧ NoCutWaits s ∧ Arrives s .hdn (received ⟨0xFFFF, 9, 3, 0, 0xFF, 1, 0, [1, 2, 3, 4, 5]⟩) ∧
     (received ⟨0xFFFF, 9, 3, 0, 0xFF, 1, 0, [1, 2, 3, 4, 5]⟩).frame.typ = 3) := by
  unfold Arrives NoCutWaits; decide +kernel
theorem test_wit_role_budget :
    (let s0 := fput (fput (fput (setDev State.reset .idle) Fld.HARNESS_STATUS_LINK_UP 1) Fld.HARNESS_ROLE_ROLE 1) Fld.HARNESS_ADDR_ADDR 5
     let s := setCapo (fput (fput s0 Fld.HARNESS_ADDR_ROOTA 9) Fld.CAPO_CFG_FLEET 1) fun c => { c with stampFree := true }
     let x : RxFrame := received ⟨5, 9, 8, 3, 0xFF, 1, 0, [2]⟩
     let y : RxFrame := received ⟨0xFFFF, 9, 4, 0, 0xFF, 1, 0, [7, 5, 1]⟩
     ForThisDevice s .hup x ∧ x.frame.src = fget s Fld.HARNESS_ADDR_ROOTA ∧ epochOk (fget s Fld.HARNESS_ROLE_EPOCH) x.frame.epoch = true ∧
     SendsUp s .hup x.frame.src ∧ ForThisDevice s .hup y ∧ ownRole s ≠ 2 ∧ findBudget (ownAddr s) [5, 1] = some (5, 1) ∧
     bit s Fld.CAPO_CFG_FLEET = true ∧ vwVal 0x3F000 < 0 ∧ bit s0 Fld.CAPO_CFG_FLEET = false ∧
     (received ⟨5, 9, 8, 3, 0xFF, 1, 0, [4]⟩).frame.payload.length = 1 ∧ (payWord (received ⟨5, 9, 8, 3, 0xFF, 1, 0, [4]⟩).frame 0).toNat = 4 ∧
     0 ≤ vwVal 1 ∧ vwReserved 1 = false ∧ getBits (5 : Word) 16 16 = 0 ∧ findBudget (ownAddr s) [6, 1] = none) := by
  unfold ForThisDevice SendsUp Arrives; decide +kernel

-- EnumerationAssignsAddresses
theorem test_wit_enum :
    (let s := fput (fput (setDev State.reset .idle) Fld.HARNESS_STATUS_LINK_UP 1) Fld.HARNESS_ROLE_ROLE 1
     let x : RxFrame := received ⟨0, 9, 7, 0, 0xFF, 1, 0, [1, 5, 9]⟩
     let y : RxFrame := received ⟨0, 9, 7, 0, 0xFF, 1, 0, [3]⟩
     let z : RxFrame := received ⟨0, 9, 7, 0, 0xFF, 1, 0, [4]⟩
     Arrives s .hup x ∧ enumIs 0x01 3 x.frame = true ∧ bit s Fld.HARNESS_CFG_ROOT = false ∧ linkUp s .hdn = false ∧ linkUp s .hbr = false ∧
     s.harn.paused.get HPort.hup.idx = false ∧ Arrives s .hup y ∧ enumIs 0x03 1 y.frame = true ∧ mayTransmit s .hup 3 = true ∧
     fget (fput s Fld.HARNESS_STATUS_UPPORT 1) Fld.HARNESS_STATUS_UPPORT ≠ upCode .hup ∧ Arrives s .hup z ∧ enumIs 0x04 1 z.frame = true ∧ upPort s = some .hup ∧ enumIs 0x05 1 z.frame = false ∧
     Arrives (fput s Fld.HARNESS_CFG_ROOT 1) .hup x ∧ harnRuns s = true ∧ s.harn.probe = none ∧ s.harn.probeAt ≠ some s.time.cycleCount ∧
     (setHarn s fun h => { h with probeDue := true }).harn.probeDue = true) := by
  unfold Arrives; decide +kernel
theorem test_wit_enum_root :
    (let s := setHarn (fput (fput (fput (setDev State.reset .idle) Fld.HARNESS_ROLE_ROLE 0) Fld.HARNESS_STATUS_LINK_BR 1) Fld.HARNESS_CFG_ROOT 1)
       fun h => { h with enum := some ⟨6, some .hbr⟩, probe := some ⟨[]⟩ }
     let x : RxFrame := received ⟨0, 9, 7, 0, 0xFF, 1, 0, [2, 8]⟩
     let y : RxFrame := received ⟨0, 9, 7, 0, 0xFF, 1, 0, [5]⟩
     Arrives s .hbr x ∧ isRoot s = true ∧ s.harn.enum = some ⟨6, some .hbr⟩ ∧ enumIs 0x02 2 x.frame = true ∧ Arrives s .hbr y ∧
     enumIs 0x05 1 y.frame = true ∧ s.harn.probe = some ⟨[]⟩ ∧ probeMean [] = none ∧ probeMean (List.replicate 8 16) = some 16 ∧
     (let v := fput s Fld.HARNESS_STATUS_LINK_DN 1
      bit v Fld.HARNESS_CFG_ROOT = true ∧ outOpen v .hdn = true ∧ mayTransmit v .hdn 3 = true ∧ fget v Fld.HARNESS_CFG_ROOT_ADDR < 0xFFFE)) := by
  unfold Arrives; decide +kernel

-- ArmingFollowsItsKeysAndConditions
theorem test_wit_arming :
    (let s := setPower State.reset fun p => { p with armAt := some 0 }
     State.reset.power.armAt = none ∧ s.power.armAt = some 0 ∧ s.tick < 0 + 1000 ∧ armReason s = some 1) ∧
    (let s := fput (setDev State.reset .idle) Fld.SCHED_STATUS_LOADED 1
     let s' := fput (fput s Fld.GLOBAL_STATE_ARM_PEND 1) Fld.SCHED_STATUS_RUN 1
     armReason s = none ∧ bit s' Fld.GLOBAL_STATE_ARM_PEND = true ∧ bit s' Fld.SCHED_STATUS_RUN = true ∧ armReason s' = none ∧
     devState s' = .idle ∧ bit s Fld.GLOBAL_STATE_HIB_PEND = false) ∧
    (let s := setDev State.reset .armed
     devState s = .armed ∧ bit s Fld.GLOBAL_STATE_ARM_PEND = false ∧ devState s ≠ .test ∧ devState s ≠ .idle) ∧
    (let s := fput (setDev State.reset .idle) Fld.GLOBAL_STATE_HIB_PEND 1
     devState s = .idle ∧ bit s Fld.GLOBAL_STATE_HIB_PEND = true ∧ hibSettled s = true ∧ seqPhase s = .down ∧
     s.seq.reqOn = false ∧ s.trust.staging = none ∧ mayHibernate s = false) ∧
    (let s := fput (setDev State.reset .idle) Fld.GLOBAL_WAKE_EN_PIN 1
     mayHibernate s = true) ∧
    (let s := setSched (fput (setPower State.reset fun p => { p with bootDone := true }) Fld.SCHED_STATUS_LOADED 1) fun x =>
       { x with autoarm := true, keyslot := 3 }
     devState s = .boot ∧ s.power.bootDone = true ∧ bit s Fld.SCHED_STATUS_LOADED = true ∧ s.sched.autoarm = true ∧
     s.sched.keyslot ≤ 3 ∧ s.power.bootFatal = false ∧ bit s Fld.SCHED_STATUS_MODIFIED = false ∧
     fget s Fld.HARNESS_ROLE_ROLE ≠ 2 ∧ s.trust.inert = false ∧ bit s Fld.GLOBAL_STATE_HIB_PEND = false ∧
     bit s Fld.SEQ_CFG_AUTOUP = false ∧ bit s Fld.HARNESS_CFG_ROOT = false ∧ fatalValid s = false ∧
     fatalValid (fput (fput s (Fld.FAULT_ENTRY_CODE_VALID 0) 1) (Fld.FAULT_ENTRY_CODE_CLASS 0) 2) = true) := by decide +kernel

-- ResetKeepsOnlyWhatTheSpecKeeps
theorem test_wit_resets :
    stateRuns (devState (setDev State.reset .armed)) = true ∧ stateRuns (devState State.reset) = false ∧
    (let s := setPower (setDev State.reset .off) fun p => { p with causes := 2 }
     devState s = .off ∧ s.power.causes.testBit 2 = false ∧ s.power.causes ≠ 0 ∧ softOver s = true ∧
     order1 s (imgOf s true false) = false ∧ order1 s (imgOf s true true) = false) ∧
    devState State.reset ≠ .off ∧ devState State.reset ≠ .hibernate ∧ State.reset.saddle.job = none ∧
    State.reset.trust.staging = none ∧
    (let s := setPower (setDev State.reset .hibernate) fun p => { p with woke := 1 }
     devState s = .hibernate ∧ s.power.woke ≠ 0) := by decide +kernel

-- WakeSourcesAndSupplyDetectors
theorem test_wit_wake :
    (let s := setPower (fput (fput State.reset (Fld.KA_CFG_CNT 2) 3) Fld.KA_TICK_PER 5) fun p => { p with kaRun := Vector.replicate 6 3 }
     fget s Fld.KA_TICK_PER ≠ 0 ∧ s.power.kaDue = none ∧ kaTickDue s = true ∧
     kaTickDue (setPower s fun p => { p with kaDue := some (32768 * 5) }) = false ∧ kaCnt s 2 ≤ s.power.kaRun.get 2 ∧ State.reset.power.kaRun.get 2 < kaCnt State.reset 2) ∧
    (let s := setPower (setDev State.reset .hibernate) fun p => { p with wakeEn := 7 }
     wakeSourceOn s 0 = true ∧ wakeSourceOn s 1 = true ∧ wakeSourceOn s 2 = true ∧ devState s = .hibernate) ∧
    (let s := setDev State.reset .idle
     stateRuns (devState s) = true ∧ s.power.vioLow.get 3 = false ∧ bit s Fld.GLOBAL_STATE_HIB_PEND = false) ∧
    (setPower State.reset fun p => { p with vioLow := Vector.replicate 4 true }).power.vioLow.get 3 = true := by decide

-- OnlineTestChecksJudgeAndReport
theorem test_wit_online :
    (let s := fput (fput (setDev State.reset .idle) Fld.SCHED_STATUS_RUN 1) Fld.TEST_ADC_EN_EN 1
     let s1 := setTest (setSched s fun x => { x with sinceSwitch := 2 }) fun t => { t with oosPend := true, adcAt := Vector.replicate 32 none }
     (s1.test.oosPend = true ∧ engineRuns s1 = true) ∧ State.reset.tick ≤ State.reset.test.oosAt ∧ engineRuns State.reset = false ∧
     oosAccepted s = true ∧ oosAccepted State.reset = false ∧ s1.test.oosPend = true ∧ checkMade s1 0 = true ∧ checkMade State.reset 0 = false ∧
     engineRuns s = true ∧ s.test.capture = none ∧ s.test.sweep = none ∧ sweepAccepted s 3 = false) ∧
    (let s := setDev State.reset .test
     sweepAccepted s 3 = true ∧ (0x80000003 : Word).getLsbD 31 = true) ∧
    (let w : SweepSt := ⟨3, 512, 79, 0, 0, 1, [512, 512, 512, 512, 512, 512, 512]⟩
     let s := setTest State.reset fun t => { t with sweep := some w }
     s.test.sweep = some w ∧ w.due ≤ s.tick ∧ (w.found ++ [0]).all (sweepPass s w.level) = false) ∧
    (let c : CaptureSt := ⟨0, true, 0, [], false⟩
     let s := setTest State.reset fun t => { t with capture := some c }
     s.test.capture = some c ∧ captureRan s c = true ∧
     captureRan (fput s (Fld.PORT_CFG_ENABLE 0) 1) { c with started := false } = false ∧ capturePasses s [] [] = true ∧ capturePasses s [⟨8, .a, true⟩] [] = false) := by
  decide +kernel

-- ScrubTapCutAndDebug
theorem test_wit_scrub :
    (let s := fput (fput (setDev State.reset .idle) Fld.TEST_SCRUB_CFG_SRAM_EN 1) Fld.TEST_SCRUB_CFG_NVM_EN 1
     bit s Fld.TEST_SCRUB_CFG_SRAM_EN = true ∧ bit s Fld.TEST_SCRUB_CFG_NVM_EN = true ∧ sramDue s = true ∧ s.test.nvmAt ≤ s.tick ∧ stateRuns (devState s) = true ∧
     bit State.reset Fld.TEST_SCRUB_CFG_SRAM_EN = bit State.reset Fld.TEST_SCRUB_CFG_NVM_EN) ∧
    (let s := fput (fput (setHk (setDev State.reset .idle) fun h => { h with nvmInh := false }) Fld.HK_STATUS_NVM_INH 0) Fld.TEST_SCRUB_CFG_REFRESH 1
     bit s Fld.TEST_SCRUB_CFG_REFRESH = true ∧ mayRefresh (fput s Fld.REC_STATUS_HU_READY 1) (0x1234 / 64 * 64) = true ∧
     nvmFails { s with nvmBad := [0x1230] } 0x1234 4 = true ∧ hostReady s = true ∧ inRecovery s = false ∧ s.nvmBad = [] ∧
     devState (setDev s .hibernate) = .hibernate ∧ bit (fput s Fld.TEST_STATUS_DBG 1) Fld.TEST_STATUS_DBG = true ∧ testInstr .extest = true ∧
     (2 : Word).getLsbD 0 = false) ∧
    State.reset.harn.cut.get HPort.hup.idx = false ∧ (1 : Word).getLsbD HPort.hup.idx.val = true ∧
    unlockAccepted State.reset 0 = false := by decide +kernel
theorem test_wit_nonce : exec .dbgNonceNew State.reset = .next (debugNonce State.reset) := rfl

-- EveryStepKeepsCanonicalForm
theorem test_wit_canonical : State.reset.canonical = true := by decide +kernel

-- CommandsLeaveTheirQueueAndTheClock
theorem test_wit_queue :
    (State.reset.push .cycleBoundary).pending = [.cycleBoundary] ∧ State.reset.pending = [] := by decide
end

section
set_option Elab.async false
namespace Sys2Proof.Machine

/-! ### The step on an empty queue (log entries 1 and 151) -/

/-- The requests of the sequencer ended, as every tick ends them. -/
def endRequests (s : State) : State := setSeq s fun x => { x with reqOn := false, reqOff := false }

/-- Requests that do not stand are ended already. -/
theorem endRequests_of_none {s : State} (hon : s.seq.reqOn = false) (hoff : s.seq.reqOff = false) : endRequests s = s := by
  have hq : { s.seq with reqOn := false, reqOff := false } = s.seq := by
    revert hon hoff
    cases s.seq
    rintro rfl rfl
    rfl
  rw [endRequests, setSeq, hq]

/-- A tick in which no request stands only ends the requests. -/
theorem seqTick_of_no_request {s : State} (hon : s.seq.reqOn = false) (hoff : s.seq.reqOff = false) : seqTick s = endRequests s := by
  unfold seqTick endRequests
  rw [hoff, hon]
  exact ite_self _

/-- An off request acts as the tick begins, while no rail is rising (R254). -/
theorem seqTick_off {s : State} (hp : seqPowered s = true) (hoff : s.seq.reqOff = true) (hr : railRising s = false) :
    seqTick s = seqOff (endRequests s) := by
  simp [seqTick, endRequests, hp, hoff, hr]

/-- While a rail is rising an off request waits for the end of the tick (R270). -/
theorem seqTick_off_of_rising {s : State} (hp : seqPowered s = true) (hoff : s.seq.reqOff = true) (hr : railRising s = true) :
    seqTick s = setSeq (endRequests s) fun x => { x with offNow := true } := by
  simp [seqTick, endRequests, hp, hoff, hr]

/-- An on request acts as the tick begins, where no off request stands (R254). -/
theorem seqTick_on {s : State} (hp : seqPowered s = true) (hon : s.seq.reqOn = true) (hoff : s.seq.reqOff = false) :
    seqTick s = seqOn (endRequests s) := by
  simp [seqTick, endRequests, hp, hoff, hon]

/-- Nothing waits for the end of a tick without a deferred off request. -/
theorem seqEnd_of_not_offNow {s : State} (h : s.seq.offNow = false) : seqEnd s = s := by rw [seqEnd, h]; rfl

/-- A deferred off request acts as its tick ends, while the rails are monitored (R270). -/
theorem seqEnd_of_offNow {s : State} (hp : seqPowered s = true) (h : s.seq.offNow = true) :
    seqEnd s = seqOff (setSeq s fun x => { x with offNow := false }) := by
  simp [seqEnd, h, hp]

/-- A step takes the front command of the queue. -/
theorem step_of_pending_cons {s : State} {c : Instr} {cs : List Instr} (h : s.pending = c :: cs) :
    step s = exec c { s with pending := cs } := by rw [step, h]

/-- A step on an empty queue is one interface tick. -/
theorem step_of_pending_nil {s : State} (h : s.pending = []) : step s = .next (seqTick (seqEnd s).idle) := by
  rw [step, h, State.ticked]

/-- Settles O1, from the cases of a tick of the sequencer. -/
theorem stepRunsFrontCommand : Obligations.StepRunsFrontCommand := by
  unfold Obligations.StepRunsFrontCommand
  refine ⟨fun s c cs h => step_of_pending_cons h, fun s h hon hoff hnow => ?_, fun s h hp hnow => ⟨?_, ?_, ?_⟩,
    fun s h hp hnow => ?_⟩
  · rw [step_of_pending_nil h, seqEnd_of_not_offNow hnow, seqTick_of_no_request (s := s.idle) hon hoff,
      endRequests_of_none (s := s.idle) hon hoff, State.idle]
  · intro hoff hr
    rw [step_of_pending_nil h, seqEnd_of_not_offNow hnow, seqTick_off (s := s.idle) hp hoff hr]; rfl
  · intro hoff hr
    rw [step_of_pending_nil h, seqEnd_of_not_offNow hnow, seqTick_off_of_rising (s := s.idle) hp hoff hr]; rfl
  · intro hon hoff
    rw [step_of_pending_nil h, seqEnd_of_not_offNow hnow, seqTick_on (s := s.idle) hp hon hoff]; rfl
  · intro u hon hoff
    rw [step_of_pending_nil h, seqEnd_of_offNow hp hnow]
    exact congrArg _ (seqTick_of_no_request (s := u.idle) hon hoff)

end Sys2Proof.Machine
end

section
set_option Elab.async false
namespace Sys2Proof.Machine

/-! ### Bits of the registers -/

theorem SameBits.refl (fs : List Field) (s : State) : SameBits fs s s := fun _ _ _ _ => rfl

theorem SameBits.trans {fs : List Field} {s t u : State} (h : SameBits fs s t) (g : SameBits fs t u) : SameBits fs s u :=
  fun a k hk hf => (g a k hk hf).trans (h a k hk hf)

/-- More fields may change. -/
theorem SameBits.mono {fs gs : List Field} {s t : State} (h : SameBits fs s t) (hs : fs ⊆ gs) : SameBits gs s t :=
  fun a k hk hf => h a k hk fun f hm => hf f (hs hm)

/-- A listed field is written. -/
theorem SameBits.fput {fs : List Field} {s t : State} (h : SameBits fs s t) (f : Field) (v : Nat) (hf : f ∈ fs) :
    SameBits fs s (fput t f v) := fun a k hk ho => by
  rw [getLsbD_rd_fput t f v a k hk (ho f hf), h a k hk ho]

/-- A bit of a listed field is raised. -/
theorem SameBits.raise {fs : List Field} {s t : State} (h : SameBits fs s t) (f : Field) (hf : f ∈ fs) : SameBits fs s (raise t f) :=
  h.fput f 1 hf

/-- A register that is listed whole is written. -/
theorem SameBits.wr {fs : List Field} {s t : State} (h : SameBits fs s t) (a : Nat) (v : Word) (hf : wholeReg a ∈ fs) :
    SameBits fs s (wr t a v) := fun b k hk ho => by
  have hb : b ≠ a := fun e => by
    have := ho _ hf e.symm
    simp only [wholeReg] at this
    omega
  rw [rd_wr_of_ne _ _ hb, h b k hk ho]

/-- What registers read is all that the frame speaks of. -/
theorem SameBits.of_live {fs : List Field} {s t u : State} (h : SameBits fs s t) (e : u.live = t.live) : SameBits fs s u :=
  fun a k hk ho => by rw [← h a k hk ho, rd, rd, e]

/-! ### What the host ports report (R11, R12, R350) -/

/-- A state that has the block's count in common begins the same report. -/
theorem CorrectedReported.of_rd {s u t : State} {c : Nat} (g : CorrectedReported u t c)
    (h : rd u (Reg.FAULT_BCNT (c / 256 - 1)) = rd s (Reg.FAULT_BCNT (c / 256 - 1))) : CorrectedReported s t c := by
  obtain ⟨hn, hb, he⟩ := g
  exact ⟨by rw [hn, fget, fget, h], hb, he⟩

/-- `t` is `s` after an event of the host interface and the corrected fault that reports it. -/
structure EventReported (f : Field) (c : Nat) (s t : State) : Prop where
  counted : CorrectedReported s t c
  raised : bit t f = true
  regs : SameRegsOutside (fun a => faultOrRec a || a == Reg.HOSTIF_EVENT) s t
  frame : recFrame t = recFrame s

/-- An event bit raised and its fault reported. -/
theorem eventReported_raise (s : State) (f : Field) (c ts : Nat) (ha : f.addr = Reg.HOSTIF_EVENT) (hl : f.lo + f.width ≤ 32)
    (hw : f.width = 1) (hc : c / 256 - 1 < 12) : EventReported f c s (reportCorrected (raise s f) c ts) where
  counted := (reportCorrected_counts _ c ts hc).of_rd (rd_fput_of_ne _ _ (by rw [ha]; simp only [Reg.FAULT_BCNT, Reg.HOSTIF_EVENT]; omega))
  raised := (bit_reportCorrected _ c ts f (by omega) (by rw [ha]; decide)).trans (bit_raise_self s f hl hw)
  regs := ((SameRegsOutside.refl _ s).raise f (by rw [ha]; decide)).trans fun a h =>
    regs_reportCorrected _ c ts (by omega) a ((Bool.or_eq_false_iff.1 h).1)
  frame := (recFrame_reportCorrected ..).trans (recFrame_raise s f)

theorem refusedWrite_reported (s : State) : EventReported Fld.HOSTIF_EVENT_REFUSED 0x0902 s (refusedWrite s) :=
  eventReported_raise s _ _ _ rfl (by decide) rfl (by decide)

theorem unassigned_reported (s : State) : EventReported Fld.HOSTIF_EVENT_UNASSIGNED 0x0901 s (unassigned s) :=
  eventReported_raise s _ _ _ rfl (by decide) rfl (by decide)

theorem partialWord_reported (s : State) : EventReported Fld.HOSTIF_EVENT_PARTIAL 0x0906 s (partialWord s) :=
  eventReported_raise s _ _ _ rfl (by decide) rfl (by decide)

/-- A reported event leaves both memories. -/
theorem EventReported.sameMemory {f : Field} {c : Nat} {s t : State} (h : EventReported f c s t) : SameMemory s t :=
  sameMemory_of_recFrame h.frame

/-- A reported event leaves the queues. -/
theorem EventReported.queues {f : Field} {c : Nat} {s t : State} (h : EventReported f c s t) : t.queues = s.queues :=
  (congrArg State.queues h.frame :)

/-- A register outside the blocks of the report and the event register reads as before. -/
theorem EventReported.rd_eq {f : Field} {c : Nat} {s t : State} (h : EventReported f c s t) {a : Nat} (ha : faultOrRec a = false)
    (he : a ≠ Reg.HOSTIF_EVENT) : rd t a = rd s a := h.regs a (by simp [ha, he])

/-! ### Registers that a report can write -/

/-- The registers of FAULT that the report of a corrected fault writes, and the block REC: a part of `faultOrRec` (R386, R413). -/
def reportWrites (a : Nat) : Bool :=
  decide (0x3004 ≤ a ∧ a < 0x3020) || decide (0x3104 ≤ a ∧ a < 0x3138) || decide (0xB000 ≤ a ∧ a < 0xC000)

/-- Counting a corrected fault of one of the thirteen blocks writes these registers only. -/
theorem countFault_reportWrites (s : State) (c k i ts : Nat) (hc : c / 256 ≤ 13) :
    SameRegsOutside reportWrites s (countFault s c 0 k i ts) := by
  have hb : reportWrites (Reg.FAULT_BCNT (c / 256 - 1)) = true := by
    simp only [reportWrites, Reg.FAULT_BCNT, Bool.or_eq_true, decide_eq_true_eq]
    omega
  unfold countFault
  extract_lets b s1 s2 s3 s4 s5
  have h1 : SameRegsOutside reportWrites s s1 := (SameRegsOutside.refl _ s).inc _ hb
  have h2 : SameRegsOutside reportWrites s s2 := (((h1.fput Fld.FAULT_LAST_CODE c (by decide)).fput Fld.FAULT_LAST_CLASS 0
    (by decide)).fput Fld.FAULT_LAST_KIND k (by decide)).fput Fld.FAULT_LAST_INDEX i (by decide)
  have h3 : SameRegsOutside reportWrites s s3 := h2.wr64 _ _ _ (by decide) (by decide)
  have h5 : SameRegsOutside reportWrites s s5 := (h3.raise Fld.FAULT_EVENT_CORR (by decide)).fputBit Fld.FAULT_CORR_BLK _ _ (by decide)
  exact h5.of_live (ledgerAdd_live ..)

/-- A lost record writes these registers only. -/
theorem recordLost_reportWrites (s : State) : SameRegsOutside reportWrites s (recordLost s) := by
  unfold recordLost
  extract_lets s1
  have h1 : SameRegsOutside reportWrites s s1 := ((SameRegsOutside.refl _ s).inc _ (by decide)).raise _ (by decide)
  split
  · exact h1
  · exact (h1.of_live (u := { s1 with saddle := { s1.saddle with full := true } }) rfl).trans
      (countFault_reportWrites _ _ _ _ _ (by decide))

/-- A record writes these registers only. -/
theorem pushRecord_reportWrites (s : State) (ty sv c ts : Nat) (p : List Byte) :
    SameRegsOutside reportWrites s (pushRecord s ty sv c ts p) := by
  have hrec (x : RecSt) : SameRegsOutside reportWrites s { s with saddle := x } := fun _ _ => rfl
  unfold pushRecord
  extract_lets r q
  split
  · exact ((hrec _).of_live rfl).fput Fld.REC_STATUS_PEND _ (by decide)
  · split
    · split
      · exact (hrec _).trans (recordLost_reportWrites _)
      · exact recordLost_reportWrites s
    · exact recordLost_reportWrites s

/-- The report of a corrected fault writes these registers only. -/
theorem reportCorrected_reportWrites (s : State) (c ts : Nat) (hc : c / 256 ≤ 13) :
    SameRegsOutside reportWrites s (reportCorrected s c ts) := by
  refine (countFault_reportWrites s c 0 0 ts hc).trans ?_
  rw [reportCorrected]
  generalize countFault s c 0 0 0 ts = u
  unfold correctedRecord
  extract_lets last held
  split
  · exact SameRegsOutside.refl _ u
  · exact ((SameRegsOutside.refl _ u).of_live (noteRec_live u c)).trans (pushRecord_reportWrites _ _ _ _ _ _)

end Sys2Proof.Machine
end

section
set_option Elab.async false
namespace Sys2Proof.Machine

/-! ### The register table -/

/-- The largest offset that lies on an index of the dimensions. -/
def lastIndex : List (Nat × Nat) → Nat
  | [] => 0
  | (s, c) :: ds => s * (c - 1) + lastIndex ds

/-- No index lies beyond the last one. -/
theorem le_lastIndex_of_onIndex : ∀ (ds : List (Nat × Nat)) (o : Nat), onIndex ds o = true → o ≤ lastIndex ds
  | [], o, h => by simp only [onIndex, beq_iff_eq] at h; simp [h]
  | (s, c) :: ds, o, h => by
    simp only [onIndex, Bool.and_eq_true, decide_eq_true_eq] at h
    obtain ⟨hq, hr⟩ := h
    calc o = s * (o / s) + o % s := (Nat.div_add_mod o s).symm
      _ ≤ s * (c - 1) + lastIndex ds := Nat.add_le_add (Nat.mul_le_mul_left s (by omega)) (le_lastIndex_of_onIndex ds _ hr)

/-- The row of an address is a row of the table, and the address lies on one of its indices. -/
theorem mem_of_regRow? {a : Nat} {r : RegRow} (h : regRow? a = some r) : r ∈ regRows ∧ r.base ≤ a ∧ onIndex r.dims (a - r.base) = true := by
  have hp := List.find?_some h
  simp only [Bool.and_eq_true, decide_eq_true_eq] at hp
  exact ⟨List.mem_of_find?_eq_some h, hp⟩

/-- Every row ends below the queue windows. -/
theorem regRows_below : regRows.all (fun r => decide (r.base + lastIndex r.dims < 0x20000)) = true := by decide +kernel

/-- An assigned register lies below the queue windows (R10). -/
theorem lt_of_regRow? {a : Nat} {r : RegRow} (h : regRow? a = some r) : a < 0x20000 := by
  obtain ⟨hm, hb, hi⟩ := mem_of_regRow? h
  have hl := List.all_eq_true.1 regRows_below r hm
  have ho := le_lastIndex_of_onIndex _ _ hi
  simp only [decide_eq_true_eq] at hl
  omega

/-- Two fields, or their bits in a word, apart from each other. -/
def bitsApart (f g : Nat × Nat × Access) : Bool := decide (f.1 + f.2.1 ≤ g.1) || decide (g.1 + g.2.1 ≤ f.1)

/-- The fields of a row lie in the word, and no two share a bit. -/
def fieldsFit : List (Nat × Nat × Access) → Bool
  | [] => true
  | f :: fs => decide (f.1 + f.2.1 ≤ 32) && fs.all (bitsApart f) && fieldsFit fs

theorem regRows_fit : regRows.all (fun r => fieldsFit r.fields) = true := by decide +kernel

/-- The fields of every row fit (R9). -/
theorem fieldsFit_of_regRow? {a : Nat} {r : RegRow} (h : regRow? a = some r) : fieldsFit r.fields = true :=
  List.all_eq_true.1 regRows_fit r (mem_of_regRow? h).1

/-- A field whose write can be refused (R16). -/
def refusable (f : Nat × Nat × Access) : Bool := f.2.2 == .rwl || f.2.2 == .rwi

theorem regRows_refusable : regRows.all (fun r => !(r.fields.any refusable) ||
    (r.dims.isEmpty && !reportWrites r.base && r.base != Reg.HOSTIF_EVENT)) = true := by decide +kernel

/-- A register that can refuse a write is none of those that the report of the refusal writes. -/
theorem not_reportWrites_of_refusable {a : Nat} {r : RegRow} (h : regRow? a = some r) (hf : r.fields.any refusable = true) :
    reportWrites a = false ∧ a ≠ Reg.HOSTIF_EVENT := by
  obtain ⟨hm, hb, hi⟩ := mem_of_regRow? h
  have hr := List.all_eq_true.1 regRows_refusable r hm
  simp only [hf, Bool.not_true, Bool.false_or, Bool.and_eq_true, List.isEmpty_iff, Bool.not_eq_true', bne_iff_ne] at hr
  obtain ⟨⟨hd, hw⟩, he⟩ := hr
  rw [hd] at hi
  have ha : a = r.base := by simp only [onIndex, beq_iff_eq] at hi; omega
  exact ha ▸ ⟨hw, he⟩

/-! ### One field of a written word (R14) -/

/-- A field depends on its bits only. -/
theorem getBits_congr {w w' : Word} {lo n : Nat} (h : ∀ k, lo ≤ k → k < lo + n → k < 32 → w'.getLsbD k = w.getLsbD k) :
    getBits w' lo n = getBits w lo n := by
  apply Nat.eq_of_testBit_eq
  intro i
  rw [testBit_getBits, testBit_getBits]
  by_cases hi : i < n
  · by_cases h32 : lo + i < 32
    · rw [h (lo + i) (by omega) (by omega) h32]
    · simp [BitVec.getLsbD_of_ge, not_lt.1 h32]
  · simp [hi]

/-- A write of a field leaves every bit outside it. -/
theorem getLsbD_writeField_of_outside (locked idle : Bool) (v w : Word) (f : Nat × Nat × Access) (k : Nat) (hk : k < 32)
    (ho : k < f.1 ∨ f.1 + f.2.1 ≤ k) : (writeField locked idle v w f).getLsbD k = w.getLsbD k := by
  have hs (u : Word) (x : Nat) : (setBits u f.1 f.2.1 x).getLsbD k = u.getLsbD k := by
    rw [getLsbD_setBits _ _ _ _ _ hk, if_neg (by omega)]
  unfold writeField
  extract_lets x
  split
  · rfl
  · exact hs ..
  · exact hs ..
  · have h0 : (0 : Word).getLsbD k = false := by simp
    simp only [BitVec.getLsbD_and, BitVec.getLsbD_not, hs, h0, hk, decide_true, Bool.not_false, Bool.and_true]
  · split
    · rfl
    · exact hs ..
  · split
    · exact hs ..
    · rfl

/-- Bit `i` of a number from which the bits of another are taken. -/
theorem testBit_sub_and (a b i : Nat) : (a - (a &&& b)).testBit i = (a.testBit i && !b.testBit i) := by
  induction i generalizing a b with
  | zero =>
    have hm : (a &&& b) % 2 = a % 2 &&& b % 2 := Nat.and_mod_two_pow (n := 1)
    have hle : a &&& b ≤ a := Nat.and_le_left
    generalize a &&& b = c at hm hle
    simp only [Nat.testBit_zero]
    rcases Nat.mod_two_eq_zero_or_one a with ha | ha <;> rcases Nat.mod_two_eq_zero_or_one b with hb | hb <;>
      simp only [ha, hb] at hm ⊢ <;> simp at hm ⊢ <;> omega
  | succ i ih =>
    have hd : (a &&& b) / 2 = a / 2 &&& b / 2 := Nat.and_div_two
    have hm : (a &&& b) % 2 = a % 2 &&& b % 2 := Nat.and_mod_two_pow (n := 1)
    have hle : a / 2 &&& b / 2 ≤ a / 2 := Nat.and_le_left
    have hl2 : a % 2 &&& b % 2 ≤ a % 2 := Nat.and_le_left
    have hs : (a - (a &&& b)) / 2 = a / 2 - (a / 2 &&& b / 2) := by
      generalize a &&& b = c at *
      omega
    rw [Nat.testBit_succ, Nat.testBit_succ, Nat.testBit_succ, hs, ih]

/-- A written field holds what its access code says. -/
theorem getBits_writeField (locked idle : Bool) (v w : Word) (f : Nat × Nat × Access) (hf : f.1 + f.2.1 ≤ 32) :
    getBits (writeField locked idle v w f) f.1 f.2.1 =
      afterWrite locked idle (getBits w f.1 f.2.1) (getBits v f.1 f.2.1) f.2.2 := by
  have hs : getBits (setBits w f.1 f.2.1 (getBits v f.1 f.2.1)) f.1 f.2.1 = getBits v f.1 f.2.1 := by
    rw [getBits_setBits _ _ _ _ hf, Nat.mod_eq_of_lt (getBits_lt ..)]
  obtain ⟨lo, n, acc⟩ := f
  unfold writeField afterWrite
  cases acc with
  | ro => rfl
  | rw => exact hs
  | wo => exact hs
  | w1c =>
    apply Nat.eq_of_testBit_eq
    intro i
    rw [testBit_sub_and, testBit_getBits, testBit_getBits, testBit_getBits]
    by_cases hi : i < n
    · have h32 : lo + i < 32 := by simp only at hf; omega
      simp only [BitVec.getLsbD_and, BitVec.getLsbD_not, getLsbD_setBits _ _ _ _ _ h32, testBit_getBits, hi, h32, decide_true,
        Bool.true_and, Nat.le_add_right, Nat.add_lt_add_left hi, and_self, if_true, Nat.add_sub_cancel_left]
    · simp [hi]
  | rwl => cases locked <;> [exact hs; rfl]
  | rwi => cases idle <;> [rfl; exact hs]

/-- A write of fields leaves every bit outside them. -/
theorem getLsbD_writeFields_of_outside (locked idle : Bool) (v : Word) (k : Nat) (hk : k < 32) :
    ∀ (fs : List (Nat × Nat × Access)) (w : Word), (∀ f ∈ fs, k < f.1 ∨ f.1 + f.2.1 ≤ k) →
      (fs.foldl (writeField locked idle v) w).getLsbD k = w.getLsbD k
  | [], _, _ => rfl
  | f :: fs, w, h => by
    rw [List.foldl_cons, getLsbD_writeFields_of_outside locked idle v k hk fs _ fun g hg => h g (List.mem_cons_of_mem _ hg),
      getLsbD_writeField_of_outside _ _ _ _ _ _ hk (h f List.mem_cons_self)]

/-- After a write of fields that fit, each holds what its access code says (R14). -/
theorem getBits_writeFields (locked idle : Bool) (v : Word) : ∀ (fs : List (Nat × Nat × Access)) (w : Word), fieldsFit fs = true →
    ∀ f ∈ fs, getBits (fs.foldl (writeField locked idle v) w) f.1 f.2.1 =
      afterWrite locked idle (getBits w f.1 f.2.1) (getBits v f.1 f.2.1) f.2.2
  | [], _, _, _, hm => absurd hm List.not_mem_nil
  | g :: fs, w, h, f, hm => by
    simp only [fieldsFit, Bool.and_eq_true, decide_eq_true_eq, List.all_eq_true, bitsApart, Bool.or_eq_true] at h
    obtain ⟨⟨hg, hapart⟩, hfs⟩ := h
    rw [List.foldl_cons]
    rcases List.mem_cons.1 hm with rfl | hf
    · rw [← getBits_writeField locked idle v w f hg]
      refine getBits_congr fun k hlo hhi hk => getLsbD_writeFields_of_outside _ _ _ k hk fs _ fun x hx => ?_
      have := hapart x hx
      omega
    · rw [getBits_writeFields locked idle v fs _ hfs f hf]
      congr 1
      refine getBits_congr fun k hlo hhi hk => getLsbD_writeField_of_outside _ _ _ _ _ _ hk ?_
      have := hapart f hf
      omega

/-! ### A register without behaviour of its own (R14 to R18) -/

/-- The register after a write by its access codes. -/
def plainWritten (s : State) (r : RegRow) (a : Nat) (v : Word) : State :=
  wr s a (r.fields.foldl (writeField (hwdLocked s) (devState s == .idle) (ignoreReserved a (rd s a) v)) (rd s a))

theorem writePlain_of_taken {s : State} {r : RegRow} (a : Nat) (v : Word) (h : plainRefused s r = false) :
    writePlain r a v s = plainWritten s r a v := by
  unfold writePlain
  rw [h]
  rfl

theorem writePlain_of_refused {s : State} {r : RegRow} (a : Nat) (v : Word) (h : plainRefused s r = true) :
    writePlain r a v s = refusedWrite (plainWritten s r a v) := by
  unfold writePlain
  rw [h]
  rfl

/-- A write by the access codes leaves every bit outside the fields. -/
theorem sameBits_plainWritten (s : State) (r : RegRow) (a : Nat) (v : Word) :
    SameBits (r.fields.map fun f => ⟨a, f.1, f.2.1⟩) s (plainWritten s r a v) := fun b k hk ho => by
  by_cases hb : b = a
  · subst hb
    rw [plainWritten, rd_wr_self]
    exact getLsbD_writeFields_of_outside _ _ _ k hk _ _ fun f hf => ho _ (List.mem_map_of_mem hf) rfl
  · rw [plainWritten, rd_wr_of_ne _ _ hb]

/-- A refused write has a field that can be refused. -/
theorem refusable_of_plainRefused {s : State} {r : RegRow} (h : plainRefused s r = true) : r.fields.any refusable = true := by
  obtain ⟨f, hf, hr⟩ := List.any_eq_true.1 h
  refine List.any_eq_true.2 ⟨f, hf, ?_⟩
  obtain ⟨lo, n, acc⟩ := f
  cases acc with
  | rwl | rwi => rfl
  | ro | rw | w1c | wo => exact Bool.noConfusion hr

end Sys2Proof.Machine
end

section
set_option Elab.async false
namespace Sys2Proof.Machine

/-! ### Writes and reads of the map (R10 to R18) -/

/-- A command that answers the next state `t`. -/
theorem answersNext_next {t : State} {P : State → Prop} (h : P t) : AnswersNext (.next t) P := ⟨t, rfl, h⟩

/-- REG_WRITE writes the word of the map that holds its address. -/
theorem exec_regWrite (p : Path) (a : BitVec 32) (v : Word) (s : State) :
    exec (.regWrite p a v) s = .next (hostWrite p (a.toNat / 4 * 4) v s) := rfl

/-- Every block is served outside recovery (R440). -/
theorem blockServed_of_not_recovery {s : State} (h : inRecovery s = false) (a : Nat) : blockServed s a = true := by
  rw [blockServed, h]
  rfl

/-- A write while the ports do not serve has no effect (R349). -/
theorem hostWrite_of_not_ready {s : State} (p : Path) (a : Nat) (v : Word) (h : hostReady s = false) : hostWrite p a v s = s := by
  rw [hostWrite, h]
  rfl

/-- What a served write does, by the place of its address. -/
theorem hostWrite_of_served {s : State} (p : Path) (a : Nat) (v : Word) (hr : hostReady s = true) (hs : blockServed s a = true) :
    hostWrite p a v s =
      if 0x20000 ≤ a ∧ a < 0x30000 then refusedWrite s
      else if 0x300000 ≤ a ∧ a < 0x380000 then writeEngine (a - 0x300000) v s
      else if 0x10000000 ≤ a ∧ a < 0x10400000 then refusedWrite s
      else if imageOnly a then s
      else match regRow? a with | none => unassigned s | some r => writeReg p r a v s := by
  rw [hostWrite, hr, hs]
  rfl

/-- An image-only word lies among the registers and is aligned (R524). -/
theorem imageOnly_iff (a : Nat) : imageOnly a = true ↔ a = 0x1200 ∨ a = 0x1204 ∨ a = 0x1208 := by
  simp only [imageOnly, Bool.or_eq_true, beq_iff_eq, or_assoc]

/-- A write of an image-only word has no effect (R524). -/
theorem hostWrite_imageOnly {s : State} (p : Path) {a : Nat} (v : Word) (h : imageOnly a = true) : hostWrite p a v s = s := by
  have ha := (imageOnly_iff a).1 h
  unfold hostWrite
  rw [if_neg (show ¬ (0x20000 ≤ a ∧ a < 0x30000) by omega), if_neg (show ¬ (0x300000 ≤ a ∧ a < 0x380000) by omega),
    if_neg (show ¬ (0x10000000 ≤ a ∧ a < 0x10400000) by omega), if_pos h]
  exact ite_self _

/-- A write to a queue window or the NVM window is refused (R12, R374). -/
theorem hostWrite_window {s : State} (p : Path) {a : Nat} (v : Word) (hr : hostReady s = true) (hi : inRecovery s = false)
    (ha : (0x20000 ≤ a ∧ a < 0x30000) ∨ (0x10000000 ≤ a ∧ a < 0x10400000)) : hostWrite p a v s = refusedWrite s := by
  rw [hostWrite_of_served p a v hr (blockServed_of_not_recovery hi a)]
  rcases ha with ha | ha
  · rw [if_pos ha]
  · rw [if_neg (by omega), if_neg (by omega), if_pos ha]

/-- A write of an unassigned address is logged (R11). -/
theorem hostWrite_unassigned {s : State} (p : Path) {a : Nat} (v : Word) (hr : hostReady s = true) (hi : inRecovery s = false)
    (hrow : regRow? a = none) (him : imageOnly a = false) (hq : ¬ (0x20000 ≤ a ∧ a < 0x30000)) (he : ¬ (0x300000 ≤ a ∧ a < 0x380000))
    (hn : ¬ (0x10000000 ≤ a ∧ a < 0x10400000)) : hostWrite p a v s = unassigned s := by
  rw [hostWrite_of_served p a v hr (blockServed_of_not_recovery hi a), if_neg hq, if_neg he, if_neg hn,
    if_neg (by rw [him]; exact Bool.false_ne_true), hrow]

/-- A write of a register reaches it. -/
theorem hostWrite_register {s : State} (p : Path) {a : Nat} (v : Word) {r : RegRow} (hr : hostReady s = true)
    (hi : inRecovery s = false) (hrow : regRow? a = some r) (him : imageOnly a = false) : hostWrite p a v s = writeReg p r a v s := by
  have ha := lt_of_regRow? hrow
  rw [hostWrite_of_served p a v hr (blockServed_of_not_recovery hi a), if_neg (by omega), if_neg (by omega), if_neg (by omega),
    if_neg (by rw [him]; exact Bool.false_ne_true), hrow]

/-- A read of an unassigned address returns 0 and is logged (R11). -/
theorem hostRead_unassigned {s : State} (p : Path) {a : Nat} (hi : inRecovery s = false) (hrow : regRow? a = none)
    (him : imageOnly a = false) (hq : ¬ (0x20000 ≤ a ∧ a < 0x30000)) (he : ¬ (0x300000 ≤ a ∧ a < 0x380000))
    (hn : ¬ (0x10000000 ≤ a ∧ a < 0x10400000)) : hostRead p a s = some (0, unassigned s) := by
  unfold hostRead
  rw [blockServed_of_not_recovery hi a, if_neg (by decide), if_neg hq, if_neg he, if_neg hn,
    if_neg (by rw [him]; exact Bool.false_ne_true), hrow]

/-- A read of an image-only word returns 0 (R524). -/
theorem hostRead_imageOnly {s : State} (p : Path) {a : Nat} (h : imageOnly a = true) : hostRead p a s = some (0, s) := by
  have ha := (imageOnly_iff a).1 h
  unfold hostRead
  rw [if_neg (show ¬ (0x20000 ≤ a ∧ a < 0x30000) by omega), if_neg (show ¬ (0x300000 ≤ a ∧ a < 0x380000) by omega),
    if_neg (show ¬ (0x10000000 ≤ a ∧ a < 0x10400000) by omega), if_pos h]
  exact ite_self _

/-- Settles O37: an unassigned address is logged by `unassigned`, an image-only word by nothing. -/
theorem unassignedAddressesReadZero : Obligations.UnassignedAddressesReadZero := by
  unfold Obligations.UnassignedAddressesReadZero
  refine ⟨fun s p a hr hi h4 hrow him hq he hn => ?_, fun s p a hi him => ⟨hostRead_imageOnly p him, fun v => ?_⟩⟩
  · have hu := unassigned_reported s
    refine ⟨unassigned s, hostRead_unassigned p hi hrow him hq he hn, hu.counted, hu.raised, fun b hb hne => hu.rd_eq hb hne,
      hu.sameMemory, ?_, fun v => ?_⟩
    · obtain h := only_of_recFrame hu.frame
      rw [h]
    · rw [exec_regWrite, Nat.div_mul_cancel (Nat.dvd_of_mod_eq_zero h4), hostWrite_unassigned p v hr hi hrow him hq he hn]
  · have ha := (imageOnly_iff _).1 him
    rw [exec_regWrite, Nat.div_mul_cancel (by omega), hostWrite_imageOnly p v him]

/-! ### Registers without a rule of their own -/

/-- In GLOBAL to HOSTIF a register outside `ownEffect` is written by its access codes. -/
theorem writeLow_of_not_ownEffect (r : RegRow) {a : Nat} (v : Word) (s : State) (ha : a < 0x6000) (h : ownEffect a = false) :
    writeLow r a v s = writePlain r a v s := by
  simp only [ownEffect, List.contains_eq_mem, List.mem_cons, List.not_mem_nil, or_false, Bool.or_eq_false_iff, decide_eq_false_iff_not,
    not_or] at h
  obtain ⟨⟨⟨⟨⟨hlow, -⟩, hqueue⟩, -⟩, -⟩, -⟩ := h
  unfold writeLow
  simp only [hlow, if_false]
  clear hlow
  rw [if_neg (by omega), if_neg (by omega)]

/-- In SEQ to TEST a register outside `ownEffect` is written by its access codes. -/
theorem writeHigh_of_not_ownEffect (b : Bool) (r : RegRow) {a : Nat} (v : Word) (s : State) (h : ownEffect a = false) :
    writeHigh b r a v s = writePlain r a v s := by
  simp only [ownEffect, List.contains_eq_mem, List.mem_cons, List.not_mem_nil, or_false, Bool.or_eq_false_iff, decide_eq_false_iff_not,
    not_or] at h
  obtain ⟨⟨⟨⟨⟨-, hhigh⟩, -⟩, hfeed⟩, -⟩, -⟩ := h
  unfold writeHigh
  simp only [hhigh, hfeed, if_false]

/-- In a port block a register outside `ownEffect` is written by its access codes. -/
theorem writePortBlock_of_not_ownEffect (r : RegRow) (p : Fin 32) {a : Nat} (v : Word) (s : State) (hlo : 0x10000 ≤ a)
    (hhi : a < 0x18000) (h : ownEffect a = false) : writePortBlock r p (a % 0x400) a v s = writePlain r a v s := by
  simp only [ownEffect, Bool.or_eq_false_iff, decide_eq_false_iff_not] at h
  obtain ⟨⟨-, hport⟩, -⟩ := h
  unfold writePortBlock
  rw [if_neg (by omega)]
  split
  · extract_lets c
    split
    · omega
    · omega
    · omega
    · rfl
  · rfl

/-- In a loop context a register outside `ownEffect` is written by its access codes. -/
theorem writeLoopBlock_of_not_ownEffect (r : RegRow) (n : Fin 64) {a : Nat} (v : Word) (s : State) (hlo : 0x18000 ≤ a)
    (h : ownEffect a = false) : writeLoopBlock r n (a % 0x200) a v s = writePlain r a v s := by
  simp only [ownEffect, Bool.or_eq_false_iff, decide_eq_false_iff_not] at h
  obtain ⟨-, hloop⟩ := h
  unfold writeLoopBlock
  rw [if_neg (by omega), if_neg (by omega), if_neg (by omega), if_neg (by omega)]

/-- A register outside `ownEffect` is written by its access codes (R14). -/
theorem writeReg_of_not_ownEffect (p : Path) (r : RegRow) {a : Nat} (v : Word) (s : State) (h : ownEffect a = false) :
    writeReg p r a v s = writePlain r a v s := by
  unfold writeReg
  split
  · exact writeLow_of_not_ownEffect r v s ‹_› h
  · split
    · exact writeHigh_of_not_ownEffect _ r v s h
    · split
      · exact writePortBlock_of_not_ownEffect r _ v s (by omega) ‹_› h
      · exact writeLoopBlock_of_not_ownEffect r _ v s (by omega) h

end Sys2Proof.Machine
end

section
set_option Elab.async false
namespace Sys2Proof.Machine

/-! ### Write-only fields read 0 (R14) -/

/-- Bit `k` of a word as a host reads it: 0 in a write-only field. -/
theorem getLsbD_hideWo (r : RegRow) (w : Word) (k : Nat) (hk : k < 32) : (hideWo r w).getLsbD k =
    (w.getLsbD k && !(r.fields.any fun f => f.2.2 == .wo && decide (f.1 ≤ k ∧ k < f.1 + f.2.1))) := by
  unfold hideWo
  induction r.fields generalizing w with
  | nil => simp
  | cons f fs ih =>
    rw [List.foldl_cons, ih, List.any_cons]
    obtain ⟨lo, n, acc⟩ := f
    cases acc with
    | wo =>
      rw [getLsbD_setBits _ _ _ _ _ hk]
      by_cases h : lo ≤ k ∧ k < lo + n
      · simp [h]
      · simp [h]
    | ro | rw | w1c | rwl | rwi => rfl

/-- A write-only field is hidden from a read. -/
theorem getBits_hideWo (r : RegRow) (w : Word) {f : Nat × Nat × Access} (hf : f ∈ r.fields) (hw : f.2.2 = .wo) :
    getBits (hideWo r w) f.1 f.2.1 = 0 := by
  apply Nat.eq_of_testBit_eq
  intro i
  rw [testBit_getBits, Nat.zero_testBit]
  by_cases hi : i < f.2.1
  · by_cases hk : f.1 + i < 32
    · have hany : r.fields.any (fun g => g.2.2 == .wo && decide (g.1 ≤ f.1 + i ∧ f.1 + i < g.1 + g.2.1)) = true :=
        List.any_eq_true.2 ⟨f, hf, by simp [hw, hi]⟩
      rw [getLsbD_hideWo r w _ hk, hany]
      simp
    · simp [BitVec.getLsbD_of_ge, not_lt.1 hk]
  · simp [hi]

/-- Where the halves of timestamps lie that a read captures, from address to address (R58, R406). -/
def tsRanges : List (Nat × Nat) := [(0x1048, 0x104C), (0x3014, 0x3018), (0x3088, 0x308C), (0x3200, 0x3600)]

theorem regRows_writeOnly : regRows.all (fun r => !(r.fields.any fun f => f.2.2 == .wo) ||
    tsRanges.all fun i => decide (r.base + lastIndex r.dims < i.1 ∨ i.2 < r.base)) = true := by decide +kernel

/-- No half of a timestamp has a write-only field. -/
theorem not_tsLo_of_writeOnly {a : Nat} {r : RegRow} (hrow : regRow? a = some r) {f : Nat × Nat × Access} (hf : f ∈ r.fields)
    (hw : f.2.2 = .wo) : isTsLo a = false ∧ (4 ≤ a → isTsLo (a - 4) = false) := by
  obtain ⟨hm, hb, hi⟩ := mem_of_regRow? hrow
  have ho := le_lastIndex_of_onIndex _ _ hi
  have hany : r.fields.any (fun f => f.2.2 == .wo) = true := List.any_eq_true.2 ⟨f, hf, by rw [hw]; rfl⟩
  have hr := List.all_eq_true.1 regRows_writeOnly r hm
  simp only [hany, Bool.not_true, Bool.false_or, tsRanges, List.all_cons, List.all_nil, Bool.and_true, Bool.and_eq_true,
    decide_eq_true_eq] at hr
  simp only [isTsLo, Reg.TIME_TS_LO, Reg.FAULT_LAST_TS_LO, Reg.FAULT_FWD_TS_LO, Bool.or_eq_false_iff, beq_eq_false_iff_ne, Bool.and_eq_false_iff, decide_eq_false_iff_not]
  omega

/-- What a read of a register answers: nothing of a block that is not served, 0 for an image-only word, else its value. -/
theorem hostRead_register {s u : State} {p : Path} {a : Nat} {r : RegRow} {x : Word} (hrow : regRow? a = some r)
    (h : hostRead p a s = some (x, u)) : x = 0 ∨ x = (readReg s p r a).1 := by
  have ha := lt_of_regRow? hrow
  unfold hostRead at h
  split at h
  · exact .inl (by injection h with h; injection h with hx; exact hx.symm)
  · rw [if_neg (by omega), if_neg (by omega), if_neg (by omega)] at h
    split at h
    · exact .inl (by injection h with h; injection h with hx; exact hx.symm)
    · rw [hrow] at h
      simp only [Option.some.injEq] at h
      exact .inr (by rw [h])

/-- A register with a write-only field reads with that field hidden. -/
theorem readReg_of_writeOnly {s : State} {p : Path} {a : Nat} {r : RegRow} (hrow : regRow? a = some r) {f : Nat × Nat × Access}
    (hf : f ∈ r.fields) (hw : f.2.2 = .wo) : (readReg s p r a).1 = hideWo r (regValue s a).1 := by
  obtain ⟨h1, h2⟩ := not_tsLo_of_writeOnly hrow hf hw
  unfold readReg
  rw [if_neg (by rw [h1]; exact Bool.false_ne_true), if_neg]
  simp only [Bool.and_eq_true, decide_eq_true_eq, not_and]
  intro h4
  rw [h2 h4]
  exact Bool.false_ne_true

/-! ### REG_WRITE of a register without a rule of its own -/

/-- Each field of the register holds what its access code says (R14). -/
theorem getBits_plainWritten (s : State) {a : Nat} (v : Word) {r : RegRow} (hrow : regRow? a = some r) : ∀ f ∈ r.fields,
    getBits (rd (plainWritten s r a v) a) f.1 f.2.1 = afterWrite (hwdLocked s) (devState s == .idle)
      (getBits (rd s a) f.1 f.2.1) (getBits (ignoreReserved a (rd s a) v) f.1 f.2.1) f.2.2 := by
  rw [plainWritten, rd_wr_self]
  exact getBits_writeFields _ _ _ _ _ (fieldsFit_of_regRow? hrow)

/-- What REG_WRITE of a register without a rule of its own leaves behind, taken or refused. -/
theorem writePlain_obeys_access {s : State} {a : Nat} (v : Word) {r : RegRow} (hrow : regRow? a = some r) :
    let t := writePlain r a v s
    (∀ f ∈ r.fields, getBits (rd t a) f.1 f.2.1 = afterWrite (hwdLocked s) (devState s == .idle) (getBits (rd s a) f.1 f.2.1)
      (getBits (ignoreReserved a (rd s a) v) f.1 f.2.1) f.2.2) ∧
    (∀ b, b ≠ a → faultOrRec b = false → b ≠ Reg.HOSTIF_EVENT → rd t b = rd s b) ∧ t.queues = s.queues ∧ SameMemory s t ∧
    (plainRefused s r = false → SameBits (r.fields.map fun f => ⟨a, f.1, f.2.1⟩) s t ∧ t = { s with live := t.live }) ∧
    (plainRefused s r = true → CorrectedReported s t 0x0902 ∧ bit t Fld.HOSTIF_EVENT_REFUSED = true) := by
  have hfields := getBits_plainWritten s v hrow
  have hother : ∀ b, b ≠ a → rd (plainWritten s r a v) b = rd s b := fun b hb => rd_wr_of_ne _ _ hb
  cases href : plainRefused s r with
  | false =>
    rw [writePlain_of_taken a v href]
    exact ⟨hfields, fun b hb _ _ => hother b hb, rfl, ⟨fun _ => rfl, fun _ => rfl⟩,
      fun _ => ⟨sameBits_plainWritten s r a v, rfl⟩, fun h => absurd h Bool.false_ne_true⟩
  | true =>
    rw [writePlain_of_refused a v href]
    obtain ⟨hw, hne⟩ := not_reportWrites_of_refusable hrow (refusable_of_plainRefused href)
    have hrep := refusedWrite_reported (plainWritten s r a v)
    have ha : rd (refusedWrite (plainWritten s r a v)) a = rd (plainWritten s r a v) a :=
      (reportCorrected_reportWrites _ 0x0902 _ (by decide) a hw).trans (rd_fput_of_ne _ _ hne)
    refine ⟨fun f hf => by rw [ha, hfields f hf], fun b hb hfr hev => (hrep.rd_eq hfr hev).trans (hother b hb), hrep.queues,
      hrep.sameMemory, fun h => absurd h.symm Bool.false_ne_true, fun _ => ⟨hrep.counted.of_rd (hother _ fun e => ?_), hrep.raised⟩⟩
    rw [← e] at hw
    exact absurd hw (by decide)

/-- Settles O38, from the access codes of a plain register, the hidden write-only fields and the refused windows. -/
theorem mapWritesFollowAccessCodes : Obligations.MapWritesFollowAccessCodes := by
  unfold Obligations.MapWritesFollowAccessCodes
  refine ⟨fun s p a v r hr hi h4 hrow him hown => ?_, fun s u p a r x hrow hread f hf hw => ?_, fun s p a v hr hi ha => ?_,
    fun s p a v hr => ?_, fun s => ?_⟩
  · rw [exec_regWrite, Nat.div_mul_cancel (Nat.dvd_of_mod_eq_zero h4), hostWrite_register p v hr hi hrow him,
      writeReg_of_not_ownEffect p r v s hown]
    exact answersNext_next (writePlain_obeys_access v hrow)
  · rcases hostRead_register hrow hread with rfl | rfl
    · simp [getBits]
    · rw [readReg_of_writeOnly hrow hf hw, getBits_hideWo r _ hf hw]
  · rw [exec_regWrite, hostWrite_window p v hr hi (by omega)]
    have hrep := refusedWrite_reported s
    exact answersNext_next ⟨hrep.counted, hrep.raised, hrep.queues, hrep.sameMemory, fun b hb he => hrep.rd_eq hb he⟩
  · rw [exec_regWrite, hostWrite_of_not_ready p _ v hr]
  · exact answersNext_next ⟨rd_wr_self .., (SameBits.refl _ s).wr _ _ (by simp), rfl⟩

end Sys2Proof.Machine
end

section
set_option Elab.async false
namespace Sys2Proof.Machine

/-! ### Fields outside a frame of bits -/

/-- No field of the list shares a bit with `g`. -/
def apartFrom (fs : List Field) (g : Field) : Bool :=
  fs.all fun f => decide (g.addr ≠ f.addr ∨ g.lo + g.width ≤ f.lo ∨ f.lo + f.width ≤ g.lo)

/-- A field that shares no bit with the frame reads as before. -/
theorem SameBits.fget_eq {fs : List Field} {s t : State} (h : SameBits fs s t) {g : Field} (hg : apartFrom fs g = true) :
    fget t g = fget s g :=
  getBits_congr fun k hlo hhi hk => h g.addr k hk fun f hf ha => by
    have := of_decide_eq_true (List.all_eq_true.1 hg f hf)
    omega

/-- So does a bit. -/
theorem SameBits.bit_eq {fs : List Field} {s t : State} (h : SameBits fs s t) {g : Field} (hg : apartFrom fs g = true) :
    bit t g = bit s g := by rw [bit, h.fget_eq hg, bit]

/-! ### Host writes of engine memory (R12, R77, R92) -/

/-- A byte of engine memory after a word is written. -/
theorem engByte_engSetWord (s : State) (o p : Nat) (w : Word) :
    engByte (engSetWord s o w) p = if o ≤ p ∧ p < o + 4 then wordByte w (p - o) else engByte s p := by
  rw [engSetWord, engByte_engSetBytes]
  by_cases h : o ≤ p ∧ p < o + 4
  · have hk : p - o < 4 := by omega
    simp [h, hk]
  · rw [if_neg (by simpa using h), if_neg h]

/-- What a host write of engine memory leaves: everything but registers, engine memory and the marks of its words. -/
def engFrame (s : State) : State := { s with live := [], engMem := [], test := { s.test with badEng := [] } }

/-- The frame spelt out. -/
theorem only_of_engFrame {s t : State} (h : engFrame t = engFrame s) :
    t = { s with live := t.live, engMem := t.engMem, test := { s.test with badEng := t.test.badEng } } := by
  have htest : t.test = { s.test with badEng := t.test.badEng } := by
    have hb : { t.test with badEng := [] } = { s.test with badEng := [] } := congrArg State.test h
    revert hb
    cases t.test
    cases s.test
    simp only [TestSt.mk.injEq]
    tauto
  cases s; cases t
  simp only [engFrame, State.mk.injEq] at h ⊢
  tauto

theorem engFrame_fput (s : State) (f : Field) (v : Nat) : engFrame (fput s f v) = engFrame s := byUnfolding rfl

theorem engFrame_raise (s : State) (f : Field) : engFrame (raise s f) = engFrame s := byUnfolding rfl

theorem engFrame_rewriteEngine (s : State) (p : Nat → Bool) : engFrame (rewriteEngine s p) = engFrame s := byUnfolding rfl

theorem engFrame_engSetBytes (bs : List Byte) : ∀ (s : State) (o : Nat), engFrame (engSetBytes s o bs) = engFrame s := by
  induction bs with
  | nil => intro s o; rfl
  | cons b bs ih => intro s o; exact ih (engSetByte s o b) (o + 1)

theorem engFrame_abandonArm (s : State) (n : Nat) : engFrame (abandonArm s n) = engFrame s :=
  ite_eq_of engFrame _ _ _ _ (by rw [engFrame_raise, engFrame_fput, engFrame_fput]) rfl

/-- Abandoning an arming leaves engine memory. -/
theorem abandonArm_engMem (s : State) (n : Nat) : (abandonArm s n).engMem = s.engMem :=
  ite_eq_of State.engMem _ _ _ _ rfl rfl

/-- Without a pending arming nothing is abandoned. -/
theorem abandonArm_of_not_pend {s : State} (n : Nat) (h : bit s Fld.GLOBAL_STATE_ARM_PEND = false) : abandonArm s n = s := by
  rw [abandonArm, h]
  rfl

/-- A pending arming is abandoned with its reason and event (R467). -/
theorem abandonArm_of_pend {s : State} (n : Nat) (hn : n < 256) (h : bit s Fld.GLOBAL_STATE_ARM_PEND = true) :
    let t := abandonArm s n
    bit t Fld.GLOBAL_STATE_ARM_PEND = false ∧ fget t Fld.GLOBAL_ARMSTAT_REASON = n ∧ bit t Fld.GLOBAL_EVENT_ARM_REF = true := by
  rw [abandonArm, if_pos h]
  refine ⟨?_, ?_, bit_raise_self _ _ (by decide) rfl⟩
  · rw [raise, bit_fput_of_ne _ _ _ _ (by decide), bit_fput_of_ne _ _ _ _ (by decide)]
    exact bit_fputB_self s Fld.GLOBAL_STATE_ARM_PEND false (by decide) rfl
  · rw [raise, fget_fput_of_ne _ _ _ _ (by decide), fget_fput_self _ _ _ (by decide), Nat.mod_eq_of_lt (by simpa using hn)]

/-- An arming abandoned changes three fields. -/
theorem sameBits_abandonArm (s : State) (n : Nat) :
    SameBits [Fld.GLOBAL_STATE_ARM_PEND, Fld.GLOBAL_ARMSTAT_REASON, Fld.GLOBAL_EVENT_ARM_REF] s (abandonArm s n) := by
  unfold abandonArm
  split
  · exact (((SameBits.refl _ s).fput _ _ (by simp)).fput _ _ (by simp)).raise _ (by simp)
  · exact SameBits.refl _ s

/-- The state after the word at offset `o` has landed, before the write is flagged (R77, R404, R467). -/
def engineLanded (o : Nat) (v : Word) (s : State) : State :=
  rewriteEngine (engSetWord (abandonArm s 0x03) o v) fun a => a == o / 8 * 8

/-- A write to open engine memory lands and is flagged (R77). -/
theorem writeEngine_of_open {s : State} {o : Nat} (v : Word) (h : engineOpen s o = true) : writeEngine o v s =
    raise (raise (engineLanded o v s) Fld.SCHED_STATUS_MODIFIED) Fld.SCHED_EVENT_MODIFIED := if_pos h

/-- A write to engine memory that is not open is refused (R12). -/
theorem writeEngine_of_closed {s : State} {o : Nat} (v : Word) (h : engineOpen s o = false) : writeEngine o v s = refusedWrite s := by
  rw [writeEngine, h]
  rfl

/-- Registers after the word has landed are those after the arming is abandoned. -/
theorem engineLanded_live (o : Nat) (v : Word) (s : State) : (engineLanded o v s).live = (abandonArm s 0x03).live :=
  live_engSetBytes ..

theorem engFrame_engineLanded (o : Nat) (v : Word) (s : State) : engFrame (engineLanded o v s) = engFrame s := by
  rw [engineLanded, engFrame_rewriteEngine, engSetWord, engFrame_engSetBytes, engFrame_abandonArm]

theorem engineLanded_engMem (o : Nat) (v : Word) (s : State) :
    (engineLanded o v s).engMem = (engSetWord (abandonArm s 0x03) o v).engMem := rfl

/-- The bytes of engine memory after the word has landed. -/
theorem engByte_engineLanded (o : Nat) (v : Word) (s : State) (b : Nat) :
    engByte (engineLanded o v s) b = if o ≤ b ∧ b < o + 4 then wordByte v (b - o) else engByte s b := by
  have habandon : engByte (abandonArm s 0x03) b = engByte s b := by rw [engByte, engByte, abandonArm_engMem]
  rw [← habandon, ← engByte_engSetWord, engByte, engineLanded_engMem, engByte]

/-- Registers after an accepted write, from those after the arming is abandoned. -/
theorem writeEngine_regs {s : State} {o : Nat} (v : Word) (h : engineOpen s o = true) : let t := writeEngine o v s
    bit t Fld.SCHED_STATUS_MODIFIED = true ∧ bit t Fld.SCHED_EVENT_MODIFIED = true ∧
    SameBits [Fld.SCHED_STATUS_MODIFIED, Fld.SCHED_EVENT_MODIFIED] (abandonArm s 0x03) t := by
  rw [writeEngine_of_open v h]
  refine ⟨?_, bit_raise_self _ _ (by decide) rfl, ?_⟩
  · exact (bit_fput_of_ne _ _ _ _ (by decide)).trans (bit_raise_self _ _ (by decide) rfl)
  · exact (((SameBits.refl _ _).of_live (engineLanded_live o v s)).raise _ (by simp)).raise _ (by simp)

theorem engFrame_writeEngine {s : State} {o : Nat} (v : Word) (h : engineOpen s o = true) :
    engFrame (writeEngine o v s) = engFrame s := by
  rw [writeEngine_of_open v h, engFrame_raise, engFrame_raise, engFrame_engineLanded]

/-- The bytes of engine memory after an accepted write (R9, R77). -/
theorem engByte_writeEngine {s : State} {o : Nat} (v : Word) (h : engineOpen s o = true) (b : Nat) :
    engByte (writeEngine o v s) b = if o ≤ b ∧ b < o + 4 then wordByte v (b - o) else engByte s b := by
  rw [← engByte_engineLanded, writeEngine_of_open v h, engByte, raise_engMem, raise_engMem, engByte]

/-! ### ENGINE_MEM_WRITE -/

/-- ENGINE_MEM_WRITE inside engine memory writes the word that holds its address. -/
theorem exec_engineMemWrite_inside {a : BitVec 32} {o : Nat} (v : Word) (s : State) (ha : a.toNat = 0x300000 + o) (ho : o < 0x80000) :
    exec (.engineMemWrite a v) s = .next (writeEngine (o / 4 * 4) v s) := by
  have : exec (.engineMemWrite a v) s = execEngineMemWrite a v s := rfl
  rw [this, execEngineMemWrite, ha, if_pos (by omega), Nat.add_sub_cancel_left]

/-- ENGINE_MEM_WRITE outside engine memory changes nothing. -/
theorem exec_engineMemWrite_outside {a : BitVec 32} (v : Word) (s : State) (ha : a.toNat < 0x300000 ∨ 0x380000 ≤ a.toNat) :
    exec (.engineMemWrite a v) s = .next s := by
  have : exec (.engineMemWrite a v) s = execEngineMemWrite a v s := rfl
  rw [this, execEngineMemWrite]
  exact if_neg (by omega)

/-- Engine memory is open to the host in its program and table areas, in IDLE and TEST (R12, R77). -/
theorem engineOpen_iff (s : State) (o : Nat) : engineOpen s o = true ↔
    (devState s = .idle ∨ devState s = .test) ∧ (o < 0x60000 ∨ (0x70000 ≤ o ∧ o < 0x78000)) := by
  simp only [engineOpen, Bool.and_eq_true, Bool.or_eq_true, beq_iff_eq, decide_eq_true_eq]

/-- Settles O10: an accepted write lands and is flagged, every other one is refused. -/
theorem engineMemoryWritesFollowTheState : Obligations.EngineMemoryWritesFollowTheState := by
  unfold Obligations.EngineMemoryWritesFollowTheState
  refine ⟨fun s a v o ha h4 harea hdev => ?_, fun s a v ha => exec_engineMemWrite_outside v s ha, fun s a v o ha ho hcl => ?_⟩
  · have hopen : engineOpen s o = true := (engineOpen_iff s o).2 ⟨hdev, harea⟩
    rw [exec_engineMemWrite_inside v s ha (by omega), Nat.div_mul_cancel (Nat.dvd_of_mod_eq_zero h4)]
    have hbyte := engByte_writeEngine v hopen
    have honly := only_of_engFrame (engFrame_writeEngine v hopen)
    obtain ⟨hstatus, hevent, hbits⟩ := writeEngine_regs v hopen
    generalize writeEngine o v s = t at hbyte honly hstatus hevent hbits ⊢
    refine answersNext_next ⟨fun k hk => ?_, fun b hb => ?_, fun b => ?_, hstatus, hevent, fun hp => ?_, fun hp => ?_, ?_, honly⟩
    · rw [hbyte, if_pos (by omega), Nat.add_sub_cancel_left]
    · rw [hbyte, if_neg (by omega)]
    · rw [honly]
      rfl
    · exact abandonArm_of_not_pend 3 hp ▸ hbits
    · obtain ⟨hpend, hreason, href⟩ := abandonArm_of_pend 3 (by decide) hp
      exact ⟨(hbits.bit_eq (by decide)).trans hpend, (hbits.fget_eq (by decide)).trans hreason, (hbits.bit_eq (by decide)).trans href⟩
    · exact ((sameBits_abandonArm s 3).mono (by simp)).trans (hbits.mono (by simp))
  · have hclosed : engineOpen s (o / 4 * 4) = false := by
      rw [Bool.eq_false_iff, ne_eq, engineOpen_iff]
      rintro ⟨hd, harea⟩
      rcases hcl with ⟨hi, ht⟩ | hcl
      · exact hd.elim hi ht
      · omega
    rw [exec_engineMemWrite_inside v s ha ho, writeEngine_of_closed v hclosed]
    have hrep := refusedWrite_reported s
    exact answersNext_next ⟨hrep.sameMemory, hrep.raised, hrep.counted, hrep.regs⟩

end Sys2Proof.Machine
end

section
set_option Elab.async false
namespace Sys2Proof.Machine

/-! ### What a map write leaves of the host ports: shared operations -/

/-- What a change of the device state and a fault leave: the host ports among it. -/
theorem host_of_stateFrame {s t : State} (h : stateFrame t = stateFrame s) : t.host = s.host := (congrArg State.host h :)

/-- A fold of steps that leave the host ports leaves them. -/
theorem foldl_host {α : Type} (f : State → α → State) (h : ∀ s x, (f s x).host = s.host) (l : List α) (s : State) :
    (l.foldl f s).host = s.host := frame_foldl State.host f h l s

/-- Both branches leave the host ports. -/
theorem ite_host {c : Prop} [Decidable c] {x y : State} {h : HostSt} (hx : x.host = h) (hy : y.host = h) :
    (if c then x else y).host = h := ite_eq_of State.host c x y h hx hy

section
variable (s : State)

@[simp] theorem reportCorrected_host (c ts : Nat) : (reportCorrected s c ts).host = s.host :=
  host_of_stateFrame (stateFrame_reportCorrected ..)
@[simp] theorem report_host (c cl k i ts : Nat) : (report s c cl k i ts).host = s.host := host_of_stateFrame (stateFrame_report ..)
@[simp] theorem pushRecord_host (ty sv c ts : Nat) (p : List Byte) : (pushRecord s ty sv c ts p).host = s.host :=
  host_of_stateFrame (stateFrame_pushRecord ..)
@[simp] theorem recordLost_host : (recordLost s).host = s.host := host_of_stateFrame (stateFrame_recordLost s)
@[simp] theorem changeState_host (d : DevState) : (changeState s d).host = s.host := host_of_stateFrame (stateFrame_changeState ..)
@[simp] theorem abandonArm_host (n : Nat) : (abandonArm s n).host = s.host := host_of_stateFrame (stateFrame_abandonArm ..)
@[simp] theorem endFreeze_host : (endFreeze s).host = s.host := host_of_stateFrame (stateFrame_endFreeze s)
@[simp] theorem refreshFeeds_host : (refreshFeeds s).host = s.host := host_of_stateFrame (stateFrame_refreshFeeds s)
@[simp] theorem feedRunLoss_host (f : Fin 8) : (feedRunLoss s f).host = s.host := host_of_stateFrame (stateFrame_feedRunLoss ..)
@[simp] theorem requestOn_host : (requestOn s).host = s.host := host_of_stateFrame (stateFrame_requestOn s)
@[simp] theorem requestOff_host : (requestOff s).host = s.host := host_of_stateFrame (stateFrame_requestOff s)
@[simp] theorem sendOn_host (p : HPort) (k : Nat) (q : Option HPort) (f : Frame) : (sendOn s p k q f).host = s.host :=
  host_of_stateFrame (stateFrame_sendOn ..)
@[simp] theorem sendOwn_host (k : Nat) (f : Frame) : (sendOwn s k f).host = s.host := host_of_stateFrame (stateFrame_sendOwn ..)
@[simp] theorem nextSeq_host : (nextSeq s).host = s.host := host_of_stateFrame (stateFrame_nextSeq s)
@[simp] theorem putEvt_host (u : Bool) (f : Frame) : (putEvt s u f).host = s.host := host_of_stateFrame (stateFrame_putEvt ..)
@[simp] theorem syncPending_host : (syncPending s).host = s.host := rfl
@[simp] theorem syncSnaps_host : (syncSnaps s).host = s.host := rfl
@[simp] theorem rewriteEngine_host (p : Nat → Bool) : (rewriteEngine s p).host = s.host := rfl
@[simp] theorem drawBytes_host (n : Nat) : (drawBytes s n).2.host = s.host := rfl
@[simp] theorem engSetBytes_host (o : Nat) (bs : List Byte) : (engSetBytes s o bs).host = s.host :=
  (congrArg State.host (engFrame_engSetBytes bs s o) :)
@[simp] theorem engSetWord_host (o : Nat) (w : Word) : (engSetWord s o w).host = s.host := engSetBytes_host ..
@[simp] theorem putRegBytes_host (a : Nat) (bs : List Byte) : (putRegBytes s a bs).host = s.host := by
  rw [putRegBytes_only]
@[simp] theorem programTrust_host : (programTrust s).host = s.host := ite_host rfl rfl
@[simp] theorem refusedWrite_host : (refusedWrite s).host = s.host := by simp [refusedWrite]
@[simp] theorem unassigned_host : (unassigned s).host = s.host := by simp [unassigned]
@[simp] theorem partialWord_host : (partialWord s).host = s.host := by simp [partialWord]

/-- A command bit of a control register, whose command leaves the host ports. -/
theorem whenBit_host (v : Word) (k : Nat) (f : State → State) (h : ∀ s, (f s).host = s.host) : (whenBit v k f s).host = s.host :=
  ite_host (h s) rfl

/-! ### GLOBAL, SCHED and FAULT -/

@[simp] theorem armRefused_host (n : Nat) : (armRefused s n).host = s.host := by simp [armRefused]

@[simp] theorem ctrlRefused_host : (ctrlRefused s).host = s.host := by simp [ctrlRefused]

@[simp] theorem judgeArm_host (b : Bool) : (judgeArm s b).host = s.host := by
  unfold judgeArm
  split <;> simp

@[simp] theorem writeGlobalArm_host (v : Word) : (writeGlobalArm v s).host = s.host := by
  unfold writeGlobalArm
  extract_lets k
  split
  · exact ite_host (by simp) (by simp)
  · next s1 _ _ _ => exact ite_host (by simp [s1]) (by simp [s1])

@[simp] theorem doDisarm_host : (doDisarm s).host = s.host :=
  ite_host (by simp) (ite_host (by simp) (by simp))

@[simp] theorem doTestEnter_host : (doTestEnter s).host = s.host := ite_host (by simp) (by simp)

@[simp] theorem doTestExit_host : (doTestExit s).host = s.host := ite_host (by simp) (by simp)

@[simp] theorem askCommit_host (n : Nat) : (askCommit n s).host = s.host := ite_host rfl (by simp)

@[simp] theorem doHibernate_host : (doHibernate s).host = s.host := by
  unfold doHibernate
  extract_lets s1 s2
  have h2 : s2.host = s.host := by simp [s2, s1]
  exact ite_host (ite_host (by simp [h2]) h2) (by simp)

@[simp] theorem requestVariant_host (v : Word) : (requestVariant v s).host = s.host :=
  ite_host rfl (ite_host (by simp [refuseVariant]) (by simp))

@[simp] theorem requestSwap_host : (requestSwap s).host = s.host :=
  ite_host rfl (foldl_host _ (fun _ _ =>
    ite_host rfl (ite_host (by simp) (by simp))) _ _)

@[simp] theorem clearFaultCnt_host : (clearFaultCnt s).host = s.host := by
  rw [clearFaultCnt, wr_host]
  exact foldl_host _ (fun _ _ => wr_host ..) _ _

@[simp] theorem hwdEnable_host : (hwdEnable s).host = s.host :=
  ite_host rfl (ite_host (by simp) (by simp [setReference]))

@[simp] theorem writeHwdCtrl_host (v : Word) : (writeHwdCtrl v s).host = s.host := by
  unfold writeHwdCtrl
  extract_lets s1
  have h1 : s1.host = s.host := ite_host (by simp) rfl
  exact ite_host (by simp [h1]) h1

@[simp] theorem keyRefused_host : (keyRefused s).host = s.host := by simp [keyRefused]

@[simp] theorem writeHwdKey_host (v : Word) : (writeHwdKey v s).host = s.host := by
  refine ite_host (by simp) ?_
  split
  · exact ite_host (by simp) (by simp)
  · exact ite_host (by simp) (by simp)

@[simp] theorem hwdFail_host (n e : Nat) : (hwdFail s n e).host = s.host := by
  unfold hwdFail
  extract_lets old new th escalates s1 s2 s3 s4
  have h4 : s4.host = s.host := by simp [s4, s3, s2, s1, hwdRecord, setReference, clearSlots]
  exact ite_host (by simp [h4]) h4

@[simp] theorem hwdService_host : (hwdService s).host = s.host :=
  ite_host (by simp) (ite_host (by simp) (by simp [hwdGood, setReference, clearSlots]))

@[simp] theorem writeHwdAns_host (v : Word) : (writeHwdAns v s).host = s.host :=
  ite_host rfl (ite_host (by simp) (ite_host (by simp) (by simp)))

@[simp] theorem writeHwdCheckin_host (v : Word) : (writeHwdCheckin v s).host = s.host :=
  ite_host rfl (ite_host (by simp) rfl)

@[simp] theorem writeTokKey_host (v : Word) : (writeTokKey v s).host = s.host := ite_host (by simp) (by simp)

end

end Sys2Proof.Machine
end

section
set_option Elab.async false
namespace Sys2Proof.Machine

/-! ### What a map write leaves of the host ports: the blocks -/

section
variable (s : State)

/-! ### HARNESS -/

@[simp] theorem sendEnum_host (p : HPort) (n : Nat) (ws : List Word) : (sendEnum s p n ws).host = s.host := by simp [sendEnum]

@[simp] theorem startProbe_host : (startProbe s).host = s.host := by
  unfold startProbe
  split
  · rfl
  · exact foldl_host _ (fun _ _ => sendEnum_host ..) _ _

@[simp] theorem putRange_host (p : HPort) (lo hi : Nat) : (putRange s p lo hi).host = s.host := ite_host (by simp) (by simp)

@[simp] theorem setUpPort_host (n : Nat) : (setUpPort s n).host = s.host := ite_host rfl (by simp)

@[simp] theorem enumEnd_host (n : Nat) : (enumEnd s n).host = s.host := by
  unfold enumEnd
  extract_lets s1
  have h1 : s1.host = s.host := by simp [s1]
  split
  · simp [h1]
  · next s2 _ _ => exact ite_host (by simp [s2, h1]) (by simp [s2, h1])

@[simp] theorem enumLoop_host (n : Nat) (ps : List HPort) : (enumLoop s n ps).host = s.host := by
  induction ps generalizing s with
  | nil => simp [enumLoop]
  | cons p ps ih =>
    rw [enumLoop]
    exact ite_host (by simp) (by simp [ih, emptyRange])

@[simp] theorem takeAddress_host (a r : Nat) : (takeAddress s a r).host = s.host := by
  unfold takeAddress
  extract_lets changed s1 s2 s3
  have h3 : s3.host = s.host := ite_host (by simp [s2, s1]) (by simp [s2, s1])
  simp [h3]

@[simp] theorem startEnum_host : (startEnum s).host = s.host := ite_host (by simp) rfl

@[simp] theorem syncTx_host : (syncTx s).host = s.host := ite_host (by simp) rfl

@[simp] theorem syncPause_host (p : HPort) : (syncPause s p).host = s.host := ite_host (by simp) (ite_host (by simp) rfl)

@[simp] theorem harnTxGo_host : (harnTxGo s).host = s.host := ite_host rfl (ite_host (by simp) (by simp))

@[simp] theorem clearHarnCnt_host : (clearHarnCnt s).host = s.host := by
  rw [clearHarnCnt, wr_host]
  exact foldl_host _ (fun _ _ => wr_host ..) _ _

@[simp] theorem writeHarnCtrl_host (v : Word) : (writeHarnCtrl v s).host = s.host := by
  have hw : writeHarnCtrl v s =
      whenBit v 3 harnReprobe (whenBit v 2 clearHarnCnt (whenBit v 1 harnTxGo (whenBit v 0 startEnum s))) := rfl
  rw [hw, whenBit_host _ v 3 harnReprobe startProbe_host, whenBit_host _ v 2 _ clearHarnCnt_host, whenBit_host _ v 1 _ harnTxGo_host,
    whenBit_host _ v 0 _ startEnum_host]

@[simp] theorem writeRootEpoch_host (v : Word) : (writeRootEpoch v s).host = s.host :=
  ite_host (ite_host (by simp) (by simp)) rfl

@[simp] theorem clearPort_host (p : HPort) : (clearPort s p).host = s.host := by
  unfold clearPort
  extract_lets s1
  rw [syncTx_host, foldl_host _ (fun _ _ => syncPause_host ..)]
  rfl

@[simp] theorem putLink_host (p : HPort) (b : Bool) : (putLink s p b).host = s.host := by cases p <;> rfl

@[simp] theorem ringBreak_host : (ringBreak s).host = s.host := ite_host (by simp) rfl

@[simp] theorem ringSwap_host : (ringSwap s).host = s.host := by
  unfold ringSwap
  split
  · rfl
  · exact ite_host (by simp) rfl

@[simp] theorem enumAnswer_host (p : HPort) (l : Option Nat) : (enumAnswer p l s).host = s.host := by
  unfold enumAnswer
  split
  · refine ite_host ?_ rfl
    split <;> simp [emptyRange]
  · rfl

@[simp] theorem linkDown_host (p : HPort) : (linkDown p s).host = s.host := by
  unfold linkDown
  refine ite_host rfl ?_
  extract_lets s1 s2 s3 s4
  have h2 : s2.host = s.host := ite_host (by simp [s1]) (by simp [s1])
  have h3 : s3.host = s.host := ite_host (by simp [h2]) h2
  have h4 : s4.host = s.host := ite_host (by simp [h3]) h3
  simp [h4]

@[simp] theorem cutPort_host (p : HPort) : (cutPort s p).host = s.host :=
  ite_host (by simp) (ite_host (by simp) rfl)

@[simp] theorem applyCut_host (ps : List HPort) : (applyCut ps s).host = s.host := foldl_host _ (fun _ _ => by simp) _ _

/-! ### Queues, sequencer, feeds and Capo -/

@[simp] theorem judgeWmf_host (q : Fin 64) : (judgeWmf s q).host = s.host := by
  unfold judgeWmf
  extract_lets hi fill was now s1 s2
  have h2 : s2.host = s.host := ite_host (by simp [s1]) (by simp [s1])
  simp [h2]

@[simp] theorem writeQueueWm_host (q : Fin 64) (v : Word) : (writeQueueWm q v s).host = s.host := by
  unfold writeQueueWm
  extract_lets hi lo bad s1
  have h1 : s1.host = s.host := ite_host rfl (by simp)
  simp [h1]

@[simp] theorem writeQueueCtrl_host (q : Fin 64) (v : Word) : (writeQueueCtrl q v s).host = s.host := by
  rw [writeQueueCtrl, whenBit_host _ v 1 (clearQueueDrop q) fun _ => rfl, whenBit_host _ v 0 (requestFlush q) fun _ => rfl]

@[simp] theorem writeSeqCmd_host (v : Word) : (writeSeqCmd v s).host = s.host :=
  ite_host (by simp) (ite_host rfl (ite_host (by simp) (ite_host (by simp) rfl)))

@[simp] theorem writeFeedCmd_host (v : Word) : (writeFeedCmd v s).host = s.host := by
  rw [writeFeedCmd, refreshFeeds_host, fput_host]
  exact foldl_host _ (fun _ _ => ite_host (by simp) rfl) _ _

@[simp] theorem writeBattCtrl_host (b : Fin 2) (v : Word) : (writeBattCtrl b v s).host = s.host := by
  rw [writeBattCtrl, whenBit_host _ v 1 (requestRestore b) fun _ => rfl, whenBit_host _ v 0 (requestSnap b) fun _ => rfl]

@[simp] theorem writeCapoCtrl_host (v : Word) : (writeCapoCtrl v s).host = s.host := by
  rw [writeCapoCtrl, whenBit_host _ v 2 commitBudget fun _ => rfl, whenBit_host _ v 1 clearCapoCnt fun _ => rfl,
    whenBit_host _ v 0 requestTrimClear fun _ => rfl]

@[simp] theorem writeHostCap_host (v : Word) : (writeHostCap v s).host = s.host := ite_host rfl (by simp)

@[simp] theorem writeKaLatch_host (v : Word) : (writeKaLatch v s).host = s.host := by
  unfold writeKaLatch
  extract_lets s1
  have h1 : s1.host = s.host := foldl_host _ (fun _ _ => ite_host (by simp) rfl) _ _
  simp [h1]

/-! ### REC -/

@[simp] theorem recFreeze_host : (recFreeze s).host = s.host := ite_host (ite_host (by simp) (by simp)) rfl

@[simp] theorem recNonceNew_host : (recNonceNew s).host = s.host := by
  unfold recNonceNew
  extract_lets d
  rw [fput_host, putRegBytes_host, drawBytes_host]

@[simp] theorem recNote_host : (recNote s).host = s.host := by simp [recNote]

@[simp] theorem writeRecCtrl_host (v : Word) : (writeRecCtrl v s).host = s.host := by
  have hw : writeRecCtrl v s = whenBit v 5 recCntClr (whenBit v 4 recNote (whenBit v 3 recNonceNew
      (whenBit v 2 (askCommit 2) (whenBit v 1 recThaw (whenBit v 0 recFreeze s))))) := rfl
  rw [hw, whenBit_host _ v 5 recCntClr fun _ => rfl, whenBit_host _ v 4 _ recNote_host, whenBit_host _ v 3 _ recNonceNew_host,
    whenBit_host _ v 2 _ fun t => askCommit_host t 2, whenBit_host _ v 1 recThaw endFreeze_host, whenBit_host _ v 0 _ recFreeze_host]

@[simp] theorem writeRecWall_host (v : Word) : (writeRecWall v s).host = s.host := rfl

@[simp] theorem clearSaddlebag_host (n : List Byte) : (clearSaddlebag s n).host = s.host := by
  unfold clearSaddlebag
  extract_lets m s1 s2
  have h2 : s2.host = s.host := by simp [s2, s1]
  exact ite_host (by simp [h2]) (by simp [h2])

@[simp] theorem clearRefused_host : (clearRefused s).host = s.host := by
  unfold clearRefused
  extract_lets n s1
  rw [reportCorrected_host]
  exact ite_host (by simp [s1]) (by simp [s1])

@[simp] theorem writeRecClear_host (v : Word) : (writeRecClear v s).host = s.host := by
  unfold writeRecClear
  extract_lets nonce s0 s1 s2
  have h0 : s0.host = s.host := by simp [s0]
  have h2 : s2.host = s.host := ite_host (by simp [s1, h0]) (by simp [s1, h0])
  exact ite_host (ite_host (by simp [clearSnapshots, h2]) h2) (by simp [h0])

/-! ### TRUST -/

@[simp] theorem putStaged_host (b : Bool) (n : Nat) : (putStaged s b n).host = s.host := by
  rw [putStaged, programTrust_host]
  exact ite_host (by simp) (by simp)

@[simp] theorem putAct_host (b : Bool) (c : Option Nat) : (putAct s b c).host = s.host := by
  unfold putAct
  extract_lets s1
  have h1 : s1.host = s.host := ite_host (by simp) (by simp)
  split <;> simp [h1]

@[simp] theorem endActivation_host (b : Bool) (r i v c : Nat) : (endActivation s b r i v c).host = s.host := by
  simp [endActivation, putActRes]

@[simp] theorem cancelAct_host (b : Bool) : (cancelAct s b).host = s.host := by
  unfold cancelAct
  split <;> simp

@[simp] theorem hostReport_host : (hostReport s).host = s.host := ite_host rfl (by simp [requestReport])

@[simp] theorem hostActivate_host : (hostActivate s).host = s.host := by
  unfold hostActivate
  extract_lets c k r
  have hr : r.1.host = s.host := by
    simp only [r, requestActivation]
    split <;> simp
  refine ite_host ?_ rfl
  split <;> simp [putActRes, hr]

@[simp] theorem trustNonceNew_host : (trustNonceNew s).host = s.host := by
  unfold trustNonceNew
  extract_lets d
  rw [setTrust_host, putRegBytes_host, drawBytes_host]

@[simp] theorem writeTrustCtrl_host (v : Word) : (writeTrustCtrl v s).host = s.host := by
  have hw : writeTrustCtrl v s = whenBit v 4 trustNonceNew (whenBit v 3 (fun t => cancelAct t false)
      (whenBit v 2 (fun t => cancelAct t true) (whenBit v 1 hostActivate (whenBit v 0 hostReport s)))) := rfl
  rw [hw, whenBit_host _ v 4 _ trustNonceNew_host, whenBit_host _ v 3 _ fun t => cancelAct_host t false,
    whenBit_host _ v 2 _ fun t => cancelAct_host t true, whenBit_host _ v 1 _ hostActivate_host, whenBit_host _ v 0 _ hostReport_host]

@[simp] theorem abandonStaging_host : (abandonStaging s).host = s.host := by
  unfold abandonStaging
  split <;> simp

@[simp] theorem newStaging_host (n : Nat) (d : List Byte) : (newStaging s n d).host = s.host := by
  simp [newStaging, showNext, putStored]

@[simp] theorem judgePiece_host (o n : Nat) (d : List Byte) : (judgePiece s o n d).1.host = s.host :=
  ite_host (by simp) (ite_host (by simp [showNext]) rfl)

@[simp] theorem writeStgCtrl_host (v : Word) : (writeStgCtrl v s).host = s.host := ite_host (by simp) rfl

@[simp] theorem consumeKnonce_host : (consumeKnonce s).host = s.host := by simp [consumeKnonce]

@[simp] theorem keyOpRefused_host : (keyOpRefused s).host = s.host := by simp [keyOpRefused]

@[simp] theorem syncTrust_host : (syncTrust s).host = s.host := by
  unfold syncTrust
  extract_lets t s1 s2 present s3
  rw [wr_host, fputB_host, fput_host, fput_host, fput_host, fput_host, fputB_host, fputB_host, fput_host]

@[simp] theorem keyOpDone_host : (keyOpDone s).host = s.host := by
  rw [keyOpDone, raise_host, programTrust_host, syncTrust_host, putRegBytes_host]

@[simp] theorem keyWriteOem_host (k : Fin 4) : (keyWriteOem k s).host = s.host := ite_host (by simp) (by simp)

@[simp] theorem keyRevoke_host (k : Fin 4) : (keyRevoke k s).host = s.host := ite_host (by simp) (by simp)

@[simp] theorem keyWriteClear_host : (keyWriteClear s).host = s.host := ite_host (by simp) (by simp)

@[simp] theorem keyLifecycle_host (k : Nat) : (keyLifecycle k s).host = s.host := ite_host (by simp) (by simp)

@[simp] theorem writeKeyCmd_host (v : Word) : (writeKeyCmd v s).host = s.host :=
  ite_host (by simp) (ite_host (by simp) (ite_host (by simp) (ite_host (by simp) (ite_host (by simp) (by simp)))))

/-! ### TEST -/

@[simp] theorem writeOos_host (v : Word) : (writeOos v s).host = s.host := ite_host (by simp) rfl

@[simp] theorem startSweep_host (p : Fin 32) (n : Nat) : (startSweep s p n).host = s.host := by
  unfold startSweep
  extract_lets s1 s2
  have h1 : s1.host = s.host := by
    simp only [s1]
    split
    · exact ite_host (by simp) rfl
    · rfl
  rw [quietPort, foldl_host _ (fun _ _ => by simp)]
  simp [s2, h1]

@[simp] theorem writeCmpCtrl_host (v : Word) : (writeCmpCtrl v s).host = s.host :=
  ite_host (by simp) (ite_host (by simp) (by simp))

@[simp] theorem writePwmCtrl_host (v : Word) : (writePwmCtrl v s).host = s.host := ite_host (by simp) (by simp)

@[simp] theorem writeTestHarn_host (v : Word) (b : Bool) : (writeTestHarn v b s).host = s.host := ite_host (by simp) (by simp)

@[simp] theorem debugNonce_host : (debugNonce s).host = s.host := by
  unfold debugNonce
  extract_lets d
  rw [fput_host, putRegBytes_host, drawBytes_host]

@[simp] theorem debugUnlock_host (v : Word) : (debugUnlock v s).host = s.host := by
  unfold debugUnlock
  extract_lets ok s1 n s2 s3
  have h1 : s1.host = s.host := by simp [s1]
  have h3 : s3.host = s.host := ite_host (by simp [s2, h1]) (by simp [s2, h1])
  exact ite_host (by simp [h1]) (by simp [h3])

@[simp] theorem writeDbgCtrl_host (v : Word) : (writeDbgCtrl v s).host = s.host := by
  unfold writeDbgCtrl
  extract_lets s1
  have h1 : s1.host = s.host := ite_host (by simp) rfl
  exact ite_host (by simp [h1]) h1

@[simp] theorem leaveBscan_host : (leaveBscan s).host = s.host := ite_host (by simp) rfl

/-! ### Ports, comparators and loops -/

@[simp] theorem writeCmpThr_host (p : Fin 32) (c : Fin 4) (v : Word) : (writeCmpThr p c v s).host = s.host :=
  ite_host (by simp) (by simp)

@[simp] theorem writeCmpLatch_host (p : Fin 32) (c : Fin 4) (v : Word) : (writeCmpLatch p c v s).host = s.host :=
  ite_host (by simp) rfl

@[simp] theorem writeLoopMode_host (n : Fin 64) (v : Word) : (writeLoopMode n v s).host = s.host := by simp [writeLoopMode]

@[simp] theorem writeLoopUman_host (n : Fin 64) (v : Word) : (writeLoopUman n v s).host = s.host := ite_host rfl (by simp)

@[simp] theorem writeLoopShadow_host (n w : Fin 64) (v : Word) : (writeLoopShadow n w v s).host = s.host :=
  ite_host (by simp) (ite_host rfl (by simp))

@[simp] theorem writeEngine_host (o : Nat) (v : Word) : (writeEngine o v s).host = s.host := ite_host (by simp) (by simp)

@[simp] theorem writePlain_host (r : RegRow) (a : Nat) (v : Word) : (writePlain r a v s).host = s.host :=
  ite_host (by simp) (by simp)

end

end Sys2Proof.Machine
end

section
set_option Elab.async false
namespace Sys2Proof.Machine

/-! ### What a map write leaves of the two-wire transfer (R363, R366, R380) -/

section
variable (s : State)

/-- Registers of SEQ to TEST leave the host ports. -/
theorem writeHigh_host (b : Bool) (r : RegRow) (a : Nat) (v : Word) : (writeHigh b r a v s).host = s.host := by
  have hbit (f : State → State) (h : ∀ t, (f t).host = t.host) : (whenBit v 0 f s).host = s.host := whenBit_host s v 0 f h
  unfold writeHigh
  refine ite_host (by simp) <| ite_host (hbit clearSeqCnt fun _ => rfl) <| ite_host (by simp) <|
    ite_host (hbit (clearFeedCnt _) fun _ => wr_host ..) <| ite_host (by simp) <| ite_host (by simp) <|
    ite_host (hbit clearHkCnt fun _ => rfl) <| ite_host (by rw [restartKa, setPower_host, writePlain_host]) ?_
  exact ite_host (by simp) <| ite_host (by simp) <| ite_host (by simp) <| ite_host (by simp) <| ite_host (by simp) <| ite_host (by simp) <|
    ite_host (by simp) <| ite_host (by simp) <| ite_host (by simp) <| ite_host (by simp) <| ite_host (by simp) <| ite_host (by simp) <|
    ite_host (by simp) <| ite_host (by simp) <| ite_host (by simp) (by simp)

/-- A port block leaves the host ports. -/
theorem writePortBlock_host (r : RegRow) (p : Fin 32) (o a : Nat) (v : Word) : (writePortBlock r p o a v s).host = s.host := by
  unfold writePortBlock
  refine ite_host (whenBit_host s v 0 (clearPortCnt p) fun _ => rfl) (ite_host ?_ (by simp))
  split
  · simp
  · simp
  · exact whenBit_host s v 0 (clearCmpCnt p _) fun _ => rfl
  · simp

/-- A loop context leaves the host ports. -/
theorem writeLoopBlock_host (r : RegRow) (n : Fin 64) (o a : Nat) (v : Word) : (writeLoopBlock r n o a v s).host = s.host :=
  ite_host (by simp) (ite_host (by simp) (ite_host (whenBit_host s v 0 (clearLoopCnt n) fun _ => rfl)
    (ite_host (by simp) (by simp))))

/-- What everything outside the keep-alive domain loses includes the host ports (R460). -/
theorem clearVolatile_host (ka : Bool) : (clearVolatile s ka).host = HostSt.reset := by
  unfold clearVolatile
  extract_lets s0 z1 z2 z3 z4 s1 s2 s3
  have h3 : s3.host = HostSt.reset := by
    simp only [s3]
    rw [foldl_host freeBatt fun t b => ite_host (by simp [clearBattFault]) rfl]
    rfl
  exact ite_host (by simp [h3]) (by simp [h3])

/-- After a reset has begun the host ports are as after reset (R380). -/
theorem beginReset_host (n : Nat) (ka : Bool) : (beginReset s n ka).host = HostSt.reset := by
  unfold beginReset
  extract_lets first from_ s1 s2 causes
  have h1 : s1.host = HostSt.reset := by rw [setDev_host, clearVolatile_host]
  have h2 : s2.host = HostSt.reset := ite_host (by simp [keepLinks, h1]) h1
  simp [h2]

end

/-- The two-wire transfer of `s` has ended in `t`, or its pointer stands. -/
def EndsOrKeepsPtr (s t : State) : Prop := t.host.tw = none ∨ t.host.twPtr = s.host.twPtr

theorem EndsOrKeepsPtr.of_host {s t : State} (h : t.host = s.host) : EndsOrKeepsPtr s t := .inr (by rw [h])

theorem EndsOrKeepsPtr.ite {s x y : State} {c : Prop} [Decidable c] (hx : EndsOrKeepsPtr s x) (hy : EndsOrKeepsPtr s y) :
    EndsOrKeepsPtr s (if c then x else y) := by split <;> assumption

section
variable (s : State)

/-- Both two-wire transfers ended, before a partial word is reported (R366). -/
def twEnded : State := fput (setHost s fun h => { h with tw := none, twcOn := false }) Fld.HOSTIF_TWC_STAT_BUSY 0

/-- An interface reset reports a partial word, if there is one, after the end of the transfers (R350, R366). -/
theorem twReset_of_cut {s : State} {r : TwRun} (h : s.host.tw = some r) (hc : r.cut = true) : twReset s = partialWord (twEnded s) := by
  rw [twReset, h]
  exact if_pos hc

theorem twReset_of_not_cut {s : State} (h : ∀ r, s.host.tw = some r → r.cut = false) : twReset s = twEnded s := by
  unfold twReset
  split
  · next r hr => exact if_neg (by rw [h r hr]; exact Bool.false_ne_true)
  · rfl

theorem twReset_eq : twReset s = twEnded s ∨ twReset s = partialWord (twEnded s) := by
  by_cases h : ∀ r, s.host.tw = some r → r.cut = false
  · exact .inl (twReset_of_not_cut h)
  · simp only [not_forall, Bool.not_eq_false] at h
    obtain ⟨r, hr, hc⟩ := h
    exact .inr (twReset_of_cut hr hc)

theorem twReset_tw : (twReset s).host.tw = none := by
  rcases twReset_eq s with h | h
  · rw [h]; rfl
  · rw [h, partialWord_host]; rfl

theorem writeHostCtrl_endsOrKeepsPtr (v : Word) : EndsOrKeepsPtr s (writeHostCtrl v s) := by
  have h0 : (whenBit v 0 clearHostCnt s).host = s.host := whenBit_host s v 0 clearHostCnt fun _ => rfl
  exact .ite (.inl (twReset_tw _)) (.of_host h0)

theorem writeTwcCtrl_endsOrKeepsPtr (v : Word) : EndsOrKeepsPtr s (writeTwcCtrl v s) := .ite (.inr rfl) (.inr rfl)

theorem writeGlobalCtrl_endsOrKeepsPtr (v : Word) : EndsOrKeepsPtr s (writeGlobalCtrl v s) := by
  refine .ite (.of_host (by simp)) ?_
  split
  · exact .of_host (by simp)
  · exact .of_host (by simp)
  · exact .of_host (by simp)
  · exact .of_host (by simp)
  · exact .ite (.inl (by rw [setPower_host, beginReset_host]; rfl)) (.of_host (by simp))
  · exact .of_host (by simp)

/-- Registers of GLOBAL to HOSTIF: a reset, of the device or of the interface, ends the transfer. -/
theorem writeLow_endsOrKeepsPtr (r : RegRow) (a : Nat) (v : Word) : EndsOrKeepsPtr s (writeLow r a v s) := by
  have hbit (f : State → State) (h : ∀ t, (f t).host = t.host) : EndsOrKeepsPtr s (whenBit v 0 f s) := .of_host (whenBit_host s v 0 f h)
  exact .ite (.of_host (by simp)) <| .ite (writeGlobalCtrl_endsOrKeepsPtr s v) <| .ite (.of_host rfl) <|
    .ite (hbit clearQdrop fun _ => rfl) <| .ite (.of_host (by simp)) <| .ite (hbit requestSwap requestSwap_host) <|
    .ite (.of_host rfl) <| .ite (hbit clearFaultCnt clearFaultCnt_host) <| .ite (.of_host (by simp)) <| .ite (.of_host (by simp)) <|
    .ite (.of_host (by simp)) <| .ite (.of_host (by simp)) <| .ite (.of_host (by simp)) <| .ite (.of_host (by simp)) <|
    .ite (.of_host (by simp)) <| .ite (writeTwcCtrl_endsOrKeepsPtr s v) <| .ite (writeHostCtrl_endsOrKeepsPtr s v) <|
    .ite (.of_host (by simp)) <| .ite (.of_host (by simp)) (.of_host (by simp))

/-- A write of a map word ends the two-wire transfer or leaves its pointer. -/
theorem hostWrite_endsOrKeepsPtr (p : Path) (a : Nat) (v : Word) : EndsOrKeepsPtr s (hostWrite p a v s) := by
  refine .ite (.of_host rfl) <| .ite (.of_host (by simp)) <| .ite (.of_host (by simp)) <| .ite (.of_host (by simp)) <|
    .ite (.of_host rfl) ?_
  split
  · exact .of_host (by simp)
  · next r _ =>
    exact .ite (writeLow_endsOrKeepsPtr s r a v) <| .ite (.of_host (writeHigh_host ..)) <| .ite (.of_host (writePortBlock_host ..))
      (.of_host (writeLoopBlock_host ..))

end

end Sys2Proof.Machine
end

section
set_option Elab.async false
namespace Sys2Proof.Machine

/-! ### Registers and memory that a report leaves -/

/-- No field of the list lies in the register. -/
def offRegister (fs : List Field) (a : Nat) : Bool := fs.all fun f => f.addr != a

/-- A register in which no field of the frame lies reads as before. -/
theorem SameBits.rd_eq {fs : List Field} {s t : State} (h : SameBits fs s t) {a : Nat} (ha : offRegister fs a = true) :
    rd t a = rd s a :=
  BitVec.eq_of_getLsbD_eq fun k hk => h a k hk fun f hf he => absurd he (bne_iff_ne.1 (List.all_eq_true.1 ha f hf))

/-- A count in a listed field. -/
theorem SameBits.inc {fs : List Field} {s t : State} (h : SameBits fs s t) (f : Field) (hf : f ∈ fs) : SameBits fs s (inc t f) :=
  h.fput f _ hf

theorem SameMemory.trans {s t u : State} (h : SameMemory s t) (g : SameMemory t u) : SameMemory s u :=
  ⟨fun o => (g.1 o).trans (h.1 o), fun o => (g.2 o).trans (h.2 o)⟩

/-- A written field leaves both memories. -/
theorem SameMemory.fput {s t : State} (h : SameMemory s t) (f : Field) (v : Nat) : SameMemory s (fput t f v) :=
  ⟨fun o => (engByte_fput t f v o).trans (h.1 o), fun o => (nvmByte_fput t f v o).trans (h.2 o)⟩

theorem SameMemory.refl (s : State) : SameMemory s s := ⟨fun _ => rfl, fun _ => rfl⟩

/-- The report of a corrected fault leaves both memories. -/
theorem sameMemory_reportCorrected (s : State) (c ts : Nat) : SameMemory s (reportCorrected s c ts) :=
  sameMemory_of_recFrame (recFrame_reportCorrected ..)

/-- A fault reported after a change of other registers than its block's count. -/
theorem correctedReported_after {fs : List Field} {s u : State} (h : SameBits fs s u) (c ts : Nat) (hc : c / 256 - 1 < 12)
    (hf : offRegister fs (Reg.FAULT_BCNT (c / 256 - 1)) = true) : CorrectedReported s (reportCorrected u c ts) c :=
  (reportCorrected_counts u c ts hc).of_rd (h.rd_eq hf)

/-! ### Commands of the two-wire target that do nothing (R362, R365, R366) -/

/-- TW_READ and TW_WRITE change nothing while the port does not serve or a transfer is open. -/
theorem twCommands_of_busy {s : State} (p : Option (BitVec 16)) (n : Nat) (bs : List Byte) (stop : Bool)
    (h : hostReady s = false ∨ s.host.tw.isSome = true) : exec (.twRead p n) s = .next s ∧ exec (.twWrite bs stop) s = .next s := by
  have hc : (!hostReady s || s.host.tw.isSome) = true := by
    rcases h with h | h
    · rw [h]; rfl
    · rw [h, Bool.or_true]
  exact ⟨if_pos hc, if_pos hc⟩

/-- TW_STRETCH_TIMEOUT changes nothing before STRETCH has passed (R365). -/
theorem twStretchTimeout_of_early {s : State}
    (h : ∀ r k, s.host.tw = some r → r.wait = some k → s.tick < k + 40 * fget s Fld.HOSTIF_TW_CFG_STRETCH) :
    exec .twStretchTimeout s = .next s := by
  change execTwStretchTimeout s = _
  unfold execTwStretchTimeout
  split
  · rfl
  · next r hr =>
    split
    · rfl
    · next k hk => exact if_pos (h r k hr hk)

/-- TW_SMB_TIMEOUT changes nothing where no bus timeout is watched (R366). -/
theorem twSmbTimeout_of_off {s : State} (h : hostReady s = false ∨ bit s Fld.HOSTIF_TW_CFG_SMBTO = false ∨ stretching s = true) :
    exec .twSmbTimeout s = .next s := by
  refine if_neg ?_
  rcases h with h | h | h <;> simp [h]

/-! ### The end of the transfers (R350, R366) -/

/-- The bus timeout of a port that watches it. -/
theorem exec_twSmbTimeout_of_on {s : State} (hr : hostReady s = true) (hs : bit s Fld.HOSTIF_TW_CFG_SMBTO = true)
    (hn : stretching s = false) :
    exec .twSmbTimeout s = .next (let u := raise (twErr (twReset s)) Fld.HOSTIF_EVENT_SMB_TMO; reportCorrected u 0x0908 (stampI u)) := by
  refine if_pos ?_
  rw [hr, hs, hn]
  rfl

/-- The end of the transfers writes BUSY only. -/
theorem sameBits_twEnded (s : State) : SameBits [Fld.HOSTIF_TWC_STAT_BUSY] s (twEnded s) :=
  ((SameBits.refl _ s).of_live (u := setHost s _) rfl).fput _ 0 (by decide)

/-- An interface reset ends both transfers (R366). -/
theorem twReset_ends (s : State) : let t := twReset s
    t.host.tw = none ∧ t.host.twcOn = false ∧ bit t Fld.HOSTIF_TWC_STAT_BUSY = false ∧ SameMemory s t := by
  have hb : bit (twEnded s) Fld.HOSTIF_TWC_STAT_BUSY = false := by rw [bit, twEnded, fget_fput_self _ _ _ (by decide)]; rfl
  have hm : SameMemory s (twEnded s) := ⟨fun _ => rfl, fun _ => rfl⟩
  dsimp only
  rcases twReset_eq s with h | h
  · rw [h]
    exact ⟨rfl, rfl, hb, hm⟩
  · rw [h]
    have hp := partialWord_reported (twEnded s)
    refine ⟨by rw [partialWord_host]; rfl, by rw [partialWord_host]; rfl, ?_, hm.trans hp.sameMemory⟩
    rw [bit, fget, hp.rd_eq (by decide) (by decide)]
    exact hb

/-- The discarded partial word is reported (R350). -/
theorem twReset_partial {s : State} {r : TwRun} (h : s.host.tw = some r) (hc : r.cut = true) :
    bit (twReset s) Fld.HOSTIF_EVENT_PARTIAL = true ∧ CorrectedReported s (twReset s) 0x0906 := by
  rw [twReset_of_cut h hc]
  have hp := partialWord_reported (twEnded s)
  exact ⟨hp.raised, hp.counted.of_rd ((sameBits_twEnded s).rd_eq (by decide))⟩

/-- TW_RESET (R366). -/
theorem exec_twReset (s : State) : AnswersNext (exec .twReset s) fun t =>
    t.host.tw = none ∧ t.host.twcOn = false ∧ bit t Fld.HOSTIF_TWC_STAT_BUSY = false ∧ SameMemory s t ∧
    ((∀ r, s.host.tw = some r → r.cut = false) → SameBits [Fld.HOSTIF_TWC_STAT_BUSY] s t) ∧
    (∀ r, s.host.tw = some r → r.cut = true → bit t Fld.HOSTIF_EVENT_PARTIAL = true ∧ CorrectedReported s t 0x0906) := by
  obtain ⟨htw, hon, hbusy, hmem⟩ := twReset_ends s
  refine answersNext_next ⟨htw, hon, hbusy, hmem, fun h => ?_, fun r hr hc => twReset_partial hr hc⟩
  rw [twReset_of_not_cut h]
  exact sameBits_twEnded s

/-- TW_SMB_TIMEOUT ends the transfers and is reported (R366). -/
theorem exec_twSmbTimeout {s : State} (hr : hostReady s = true) (hs : bit s Fld.HOSTIF_TW_CFG_SMBTO = true) (hn : stretching s = false) :
    AnswersNext (exec .twSmbTimeout s) fun t =>
      t.host.tw = none ∧ t.host.twcOn = false ∧ bit t Fld.HOSTIF_TWC_STAT_BUSY = false ∧ bit t Fld.HOSTIF_EVENT_SMB_TMO = true ∧
      SameMemory s t ∧ ((∀ r, s.host.tw = some r → r.cut = false) → CorrectedReported s t 0x0908) ∧
      (∀ r, s.host.tw = some r → r.cut = true → bit t Fld.HOSTIF_EVENT_PARTIAL = true) := by
  rw [exec_twSmbTimeout_of_on hr hs hn]
  obtain ⟨htw, hon, hbusy, hmem⟩ := twReset_ends s
  extract_lets u
  have hu : SameBits [Fld.HOSTIF_CNT_TW_ERR, Fld.HOSTIF_EVENT_SMB_TMO] (twReset s) u :=
    ((SameBits.refl _ _).inc _ (by decide)).raise _ (by decide)
  have hmu : SameMemory (twReset s) u := ⟨fun _ => rfl, fun _ => rfl⟩
  have hbit (g : Field) (hg : faultOrRec g.addr = false) : bit (reportCorrected u 0x0908 (stampI u)) g = bit u g :=
    bit_reportCorrected _ _ _ _ (by decide) hg
  refine answersNext_next ⟨?_, ?_, ?_, ?_, (hmem.trans hmu).trans (sameMemory_reportCorrected ..), fun h => ?_, fun r h hc => ?_⟩
  · rw [reportCorrected_host]; exact htw
  · rw [reportCorrected_host]; exact hon
  · rw [hbit _ (by decide), hu.bit_eq (by decide), hbusy]
  · rw [hbit _ (by decide)]
    exact bit_raise_self _ _ (by decide) rfl
  · rw [twReset_of_not_cut h] at hu
    exact correctedReported_after (((sameBits_twEnded s).mono (List.subset_append_left ..)).trans (hu.mono (List.subset_append_right ..))) _ _
      (by decide) (by decide)
  · rw [hbit _ (by decide), hu.bit_eq (by decide)]
    exact (twReset_partial h hc).1

/-! ### A packet error code that does not match (R367) -/

/-- A write whose last byte is not its code is an error, whatever pointer it has brought. -/
theorem twPecWrite_of_bad {s : State} {bs : List Byte} (hne : bs ≠ []) (hlen : bs.length ≤ 67)
    (hcode : crc8Pec (twAddrByte s false :: bs.dropLast) ≠ bs.getLastD 0) :
    ∃ p, twPecWrite s bs = pecError (setHost s fun h => { h with twPtr := p }) := by
  have hc : ¬ (bs.isEmpty || decide (64 < (bs.dropLast.drop 2).length)) = true := by
    simp only [Bool.or_eq_true, List.isEmpty_iff, decide_eq_true_eq, List.length_drop, List.length_dropLast]
    rintro (h | h)
    · exact hne h
    · omega
  unfold twPecWrite
  extract_lets body s1 data s2
  have hs1 : ∃ p, s1 = setHost s fun h => { h with twPtr := p } := by
    clear_value body
    simp only [s1]
    split
    · exact ⟨_, rfl⟩
    · exact ⟨s.host.twPtr, rfl⟩
  obtain ⟨p, hp⟩ := hs1
  exact ⟨p, by rw [if_neg hc, if_neg hcode, hp]⟩

/-- What a code that does not match leaves (R367). -/
theorem pecError_effects (s : State) : let t := pecError s
    bit t Fld.HOSTIF_EVENT_PEC_ERR = true ∧ CorrectedReported s t 0x0907 ∧ SameMemory s t ∧ t.host = s.host ∧
    fget t Fld.HOSTIF_CNT_TW_ERR = min (fget s Fld.HOSTIF_CNT_TW_ERR + 1) (2 ^ 16 - 1) ∧
    ∀ a, faultOrRec a = false → [Reg.HOSTIF_EVENT, Reg.HOSTIF_CNT].contains a = false → rd t a = rd s a := by
  intro t
  have h1 : SameBits [Fld.HOSTIF_EVENT_PEC_ERR] s (raise s Fld.HOSTIF_EVENT_PEC_ERR) := (SameBits.refl _ s).raise _ (by decide)
  have hu : SameBits [Fld.HOSTIF_EVENT_PEC_ERR, Fld.HOSTIF_CNT_TW_ERR] s (twErr (raise s Fld.HOSTIF_EVENT_PEC_ERR)) :=
    ((SameBits.refl _ s).raise _ (by decide)).inc _ (by decide)
  have hm : SameMemory s (twErr (raise s Fld.HOSTIF_EVENT_PEC_ERR)) := ⟨fun _ => rfl, fun _ => rfl⟩
  refine ⟨?_, correctedReported_after hu _ _ (by decide) (by decide), hm.trans (sameMemory_reportCorrected ..), reportCorrected_host .., ?_, ?_⟩
  · exact (bit_reportCorrected _ _ _ _ (by decide) (by decide)).trans ((bit_fput_of_ne _ _ _ _ (by decide)).trans
      (bit_raise_self _ _ (by decide) rfl))
  · refine (fget_reportCorrected _ _ _ _ (by decide) (by decide)).trans ((fget_inc_self _ _ (by decide)).trans ?_)
    rw [h1.fget_eq (by decide)]
  · intro a hf ha
    refine (regs_reportCorrected _ _ _ (by decide) a hf).trans (hu.rd_eq ?_)
    simp only [List.contains_cons, List.contains_nil, Bool.or_eq_false_iff, beq_eq_false_iff_ne] at ha
    simp [offRegister, Ne.symm ha.1, Ne.symm ha.2.1]

/-- TW_WRITE with PEC whose last byte is not its code (R367). -/
theorem exec_twWrite_of_bad {s : State} {bs : List Byte} (hr : hostReady s = true) (htw : s.host.tw = none)
    (hpec : bit s Fld.HOSTIF_TW_CFG_PEC = true) (hne : bs ≠ []) (hlen : bs.length ≤ 67)
    (hcode : crc8Pec (twAddrByte s false :: bs.dropLast) ≠ bs.getLastD 0) : AnswersNext (exec (.twWrite bs true) s) fun t =>
      bit t Fld.HOSTIF_EVENT_PEC_ERR = true ∧ CorrectedReported s t 0x0907 ∧ SameMemory s t ∧ t.host = { s.host with twPtr := t.host.twPtr } ∧
      fget t Fld.HOSTIF_CNT_TW_ERR = min (fget s Fld.HOSTIF_CNT_TW_ERR + 1) (2 ^ 16 - 1) ∧
      ∀ a, faultOrRec a = false → [Reg.HOSTIF_EVENT, Reg.HOSTIF_CNT].contains a = false → rd t a = rd s a := by
  have he : exec (.twWrite bs true) s = .next (twPecWrite s bs) := by
    change execTwWrite bs true s = _
    unfold execTwWrite
    rw [hr, htw, hpec, if_neg (by decide), if_pos rfl]
    rfl
  obtain ⟨p, hp⟩ := twPecWrite_of_bad hne hlen hcode
  rw [he, hp]
  obtain ⟨hev, hrep, hmem, hhost, hcnt, hregs⟩ := pecError_effects (setHost s fun h => { h with twPtr := p })
  refine answersNext_next ⟨hev, hrep, hmem, ?_, hcnt, hregs⟩
  rw [hhost]
  rfl

end Sys2Proof.Machine
end

section
set_option Elab.async false
namespace Sys2Proof.Machine

/-! ### The two-wire controller starts (R369, R370) -/

/-- What HOSTIF_TWC_CTRL holds after a write of `w` (R369): its five fields, and every other bit of `old`. -/
def twcCtrlWord (old w : Word) : Word :=
  setBits (setBits (setBits (setBits (setBits old 0 7 (getBits w 0 7)) 8 6 (getBits w 8 6)) 16 6 (getBits w 16 6)) 22 1 (getBits w 22 1))
    24 3 (getBits w 24 3)

/-- The address and the lengths are the written ones. -/
theorem twcCtrlWord_fields (old w : Word) : getBits (twcCtrlWord old w) 0 7 = getBits w 0 7 ∧
    getBits (twcCtrlWord old w) 8 6 = getBits w 8 6 ∧ getBits (twcCtrlWord old w) 16 6 = getBits w 16 6 := by
  have put (x : Word) (lo n : Nat) (h : lo + n ≤ 32) : getBits (setBits x lo n (getBits w lo n)) lo n = getBits w lo n := by
    rw [getBits_setBits _ _ _ _ h, Nat.mod_eq_of_lt (getBits_lt ..)]
  refine ⟨?_, ?_, ?_⟩
  · rw [twcCtrlWord, getBits_setBits_of_disjoint _ _ _ _ _ _ (by decide), getBits_setBits_of_disjoint _ _ _ _ _ _ (by decide),
      getBits_setBits_of_disjoint _ _ _ _ _ _ (by decide), getBits_setBits_of_disjoint _ _ _ _ _ _ (by decide), put _ _ _ (by decide)]
  · rw [twcCtrlWord, getBits_setBits_of_disjoint _ _ _ _ _ _ (by decide), getBits_setBits_of_disjoint _ _ _ _ _ _ (by decide),
      getBits_setBits_of_disjoint _ _ _ _ _ _ (by decide), put _ _ _ (by decide)]
  · rw [twcCtrlWord, getBits_setBits_of_disjoint _ _ _ _ _ _ (by decide), getBits_setBits_of_disjoint _ _ _ _ _ _ (by decide),
      put _ _ _ (by decide)]

/-- Lengths of at most 32 are no reserved encoding (R18). -/
theorem ignoreReserved_twcCtrl (old : Word) {v : Word} (hw : getBits v 8 6 ≤ 32) (hr : getBits v 16 6 ≤ 32) :
    ignoreReserved Reg.HOSTIF_TWC_CTRL old v = v := by
  unfold ignoreReserved
  rw [if_neg (by decide), if_neg (by decide), if_neg (by decide), if_neg (by decide), if_pos rfl, if_neg (by omega), if_neg (by omega)]

/-- The state after the fields of HOSTIF_TWC_CTRL are written. -/
def twcCtrlPut (v : Word) (s : State) : State :=
  wr s Reg.HOSTIF_TWC_CTRL (twcCtrlWord (rd s Reg.HOSTIF_TWC_CTRL) (ignoreReserved Reg.HOSTIF_TWC_CTRL (rd s Reg.HOSTIF_TWC_CTRL) v))

/-- The write of the fields leaves every other register. -/
theorem sameBits_twcCtrlPut (v : Word) (s : State) : SameBits [wholeReg Reg.HOSTIF_TWC_CTRL] s (twcCtrlPut v s) :=
  (SameBits.refl _ s).wr _ _ (by decide)

/-- TWC_GO writes HOSTIF_TWC_CTRL. -/
theorem exec_twcGo (v : Word) (s : State) : exec (.twcGo v) s = .next (writeTwcCtrl v s) := rfl

/-- TWC_GO that starts nothing writes the fields only: a transfer runs, or GO is not written (R369). -/
theorem exec_twcGo_of_off {s : State} {v : Word} (h : bit s Fld.HOSTIF_TWC_STAT_BUSY = true ∨ v.getLsbD 31 = false) :
    AnswersNext (exec (.twcGo v) s) fun t => SameBits [wholeReg Reg.HOSTIF_TWC_CTRL] s t ∧ t = { s with live := t.live } := by
  have he : writeTwcCtrl v s = twcCtrlPut v s := by
    refine if_neg ?_
    change ¬ (v.getLsbD 31 && !bit (twcCtrlPut v s) Fld.HOSTIF_TWC_STAT_BUSY && _) = true
    rw [(sameBits_twcCtrlPut v s).bit_eq (by decide)]
    rcases h with h | h
    · rw [h, Bool.not_true, Bool.and_false, Bool.false_and]
      exact Bool.false_ne_true
    · rw [h, Bool.false_and, Bool.false_and]
      exact Bool.false_ne_true
  rw [exec_twcGo, he]
  exact answersNext_next ⟨sameBits_twcCtrlPut v s, rfl⟩

/-- TWC_GO with a length, while no transfer runs (R369). -/
theorem exec_twcGo_of_on {s : State} {v : Word} (hb : bit s Fld.HOSTIF_TWC_STAT_BUSY = false) (hgo : v.getLsbD 31 = true)
    (hw : getBits v 8 6 ≤ 32) (hr : getBits v 16 6 ≤ 32) (hlen : getBits v 8 6 ≠ 0 ∨ getBits v 16 6 ≠ 0) :
    AnswersNext (exec (.twcGo v) s) fun t =>
      bit t Fld.HOSTIF_TWC_STAT_BUSY = true ∧ rd t Reg.HOSTIF_TWC_STAT = 1 ∧ t.host.twcOn = false ∧
      fget t Fld.HOSTIF_TWC_CTRL_TADDR = getBits v 0 7 ∧ fget t Fld.HOSTIF_TWC_CTRL_WLEN = getBits v 8 6 ∧
      fget t Fld.HOSTIF_TWC_CTRL_RLEN = getBits v 16 6 ∧ SameBits [wholeReg Reg.HOSTIF_TWC_STAT, wholeReg Reg.HOSTIF_TWC_CTRL] s t ∧
      t = { s with live := t.live, host := t.host } := by
  let u := twcCtrlPut v s
  obtain ⟨hta, hwl, hrl⟩ := twcCtrlWord_fields (rd s Reg.HOSTIF_TWC_CTRL) v
  have hctrl : rd u Reg.HOSTIF_TWC_CTRL = twcCtrlWord (rd s Reg.HOSTIF_TWC_CTRL) v := by
    rw [← ignoreReserved_twcCtrl (rd s Reg.HOSTIF_TWC_CTRL) hw hr]
    exact rd_wr_self ..
  have he : writeTwcCtrl v s = setHost (wr u Reg.HOSTIF_TWC_STAT 1) fun h => { h with twcOn := false } := by
    refine if_pos ?_
    change (v.getLsbD 31 && !bit u Fld.HOSTIF_TWC_STAT_BUSY &&
      (fget u Fld.HOSTIF_TWC_CTRL_WLEN != 0 || fget u Fld.HOSTIF_TWC_CTRL_RLEN != 0)) = true
    rw [(sameBits_twcCtrlPut v s).bit_eq (by decide), hgo, hb, fget, fget, hctrl, hwl, hrl]
    simpa using hlen
  have hstat : rd (wr u Reg.HOSTIF_TWC_STAT 1) Reg.HOSTIF_TWC_STAT = 1 := rd_wr_self ..
  have hkeep (g : Field) (hg : g.addr = Reg.HOSTIF_TWC_CTRL) :
      fget (wr u Reg.HOSTIF_TWC_STAT 1) g = getBits (twcCtrlWord (rd s Reg.HOSTIF_TWC_CTRL) v) g.lo g.width := by
    rw [fget, rd_wr_of_ne _ _ (by rw [hg]; decide), hg, hctrl]
  rw [exec_twcGo, he]
  refine answersNext_next ⟨?_, hstat, rfl, (hkeep _ rfl).trans hta, (hkeep _ rfl).trans hwl, (hkeep _ rfl).trans hrl, ?_, rfl⟩
  · change (getBits (rd (wr u Reg.HOSTIF_TWC_STAT 1) Reg.HOSTIF_TWC_STAT) 0 1 != 0) = true
    rw [hstat]
    decide
  · exact (((sameBits_twcCtrlPut v s).mono (by decide)).wr _ _ (by decide)).of_live (t := wr u Reg.HOSTIF_TWC_STAT 1) rfl

/-- TWC_START changes nothing without a transfer to start, or while one runs (R370). -/
theorem exec_twcStart_of_off {s : State} (b : Option Bool)
    (h : bit s Fld.HOSTIF_TWC_STAT_BUSY = false ∨ s.host.twcOn = true ∨ s.host.tw.isSome = true) : exec (.twcStart b) s = .next s := by
  refine if_neg ?_
  rcases h with h | h | h
  · simp [h]
  · simp [h]
  · simp [Option.isSome_iff_ne_none.1 h]

/-- TWC_START of a standing request starts it (R370). -/
theorem exec_twcStart_none {s : State} (hb : bit s Fld.HOSTIF_TWC_STAT_BUSY = true) (hon : s.host.twcOn = false)
    (htw : s.host.tw = none) :
    exec (.twcStart none) s = .next (setHost s fun x => { x with twcOn := true, twcSent := twcFrame s }) :=
  if_pos (by rw [hb, hon, htw]; rfl)

/-- TWC_START of a standing request that loses the arbitration (R370). -/
theorem exec_twcStart_some {s : State} (b : Bool) (hb : bit s Fld.HOSTIF_TWC_STAT_BUSY = true) (hon : s.host.twcOn = false)
    (htw : s.host.tw = none) : exec (.twcStart (some b)) s = .next (twcLost s b) := if_pos (by rw [hb, hon, htw]; rfl)

/-! ### A controller transfer that ends without success (R369, R370, R383) -/

/-- What the end without success writes. -/
abbrev twcFailFields : List Field := [Fld.HOSTIF_TWC_STAT_BUSY, Fld.HOSTIF_EVENT_TWC_FAIL, Fld.HOSTIF_CNT_TW_ERR]

theorem sameBits_twcFail (s : State) : SameBits twcFailFields s (twcFail s) :=
  (((((SameBits.refl _ s).fput _ 0 (by decide)).of_live (u := setHost (fput s Fld.HOSTIF_TWC_STAT_BUSY 0) _) rfl).raise _ (by decide)).inc _
    (by decide))

/-- The transfer is over, with its event and its count. -/
theorem twcFail_effects (s : State) : let t := twcFail s
    bit t Fld.HOSTIF_TWC_STAT_BUSY = false ∧ bit t Fld.HOSTIF_EVENT_TWC_FAIL = true ∧ t.host = { s.host with twcOn := false } ∧
    fget t Fld.HOSTIF_CNT_TW_ERR = min (fget s Fld.HOSTIF_CNT_TW_ERR + 1) (2 ^ 16 - 1) ∧ SameMemory s t := by
  refine ⟨?_, ?_, rfl, ?_, fun _ => rfl, fun _ => rfl⟩
  · rw [twcFail, twErr, inc, bit_fput_of_ne _ _ _ _ (by decide), raise, bit_fput_of_ne _ _ _ _ (by decide), bit, fget_setHost,
      fget_fput_self _ _ _ (by decide)]
    rfl
  · rw [twcFail, twErr, inc, bit_fput_of_ne _ _ _ _ (by decide)]
    exact bit_raise_self _ _ (by decide) rfl
  · rw [twcFail, twErr, fget_inc_self _ _ (by decide), raise, fget_fput_of_ne _ _ _ _ (by decide), fget_setHost,
      fget_fput_of_ne _ _ _ _ (by decide)]

/-- A lost arbitration is tried again, or ends the transfer (R370). -/
theorem twcLost_effects {s : State} (b : Bool) (hb : bit s Fld.HOSTIF_TWC_STAT_BUSY = true) : let t := twcLost s b
    SameMemory s t ∧
    (fget s Fld.HOSTIF_TWC_STAT_TRIES < fget s Fld.HOSTIF_TWC_CTRL_RETRY →
      fget t Fld.HOSTIF_TWC_STAT_TRIES = fget s Fld.HOSTIF_TWC_STAT_TRIES + 1 ∧ bit t Fld.HOSTIF_TWC_STAT_BUSY = true ∧
      SameBits [Fld.HOSTIF_TWC_STAT_TRIES, Fld.HOSTIF_TWC_STAT_AS_TARGET] s t) ∧
    (fget s Fld.HOSTIF_TWC_CTRL_RETRY ≤ fget s Fld.HOSTIF_TWC_STAT_TRIES →
      bit t Fld.HOSTIF_TWC_STAT_ARB_LOST = true ∧ bit t Fld.HOSTIF_TWC_STAT_BUSY = false ∧ bit t Fld.HOSTIF_EVENT_TWC_FAIL = true ∧
      CorrectedReported s t 0x0909) := by
  unfold twcLost
  extract_lets s1 s2 t
  have h1 : SameBits [Fld.HOSTIF_TWC_STAT_AS_TARGET] s s1 := by
    simp only [s1]
    split
    · exact (SameBits.refl _ s).fput _ _ (by decide)
    · exact .refl _ s
  have hm1 : SameMemory s s1 := by
    simp only [s1]
    split
    · exact ⟨fun _ => rfl, fun _ => rfl⟩
    · exact ⟨fun _ => rfl, fun _ => rfl⟩
  have htries : fget s1 Fld.HOSTIF_TWC_STAT_TRIES = fget s Fld.HOSTIF_TWC_STAT_TRIES := h1.fget_eq (by decide)
  have hretry : fget s1 Fld.HOSTIF_TWC_CTRL_RETRY = fget s Fld.HOSTIF_TWC_CTRL_RETRY := h1.fget_eq (by decide)
  by_cases hlt : fget s Fld.HOSTIF_TWC_STAT_TRIES < fget s Fld.HOSTIF_TWC_CTRL_RETRY
  · have ht : t = inc s1 Fld.HOSTIF_TWC_STAT_TRIES := if_pos (by rw [htries, hretry]; exact hlt)
    have hu : SameBits [Fld.HOSTIF_TWC_STAT_TRIES, Fld.HOSTIF_TWC_STAT_AS_TARGET] s (inc s1 Fld.HOSTIF_TWC_STAT_TRIES) :=
      (h1.mono (by decide)).inc _ (by decide)
    rw [ht]
    refine ⟨hm1.trans ⟨fun _ => rfl, fun _ => rfl⟩, fun _ => ⟨?_, ?_, hu⟩, fun h => absurd hlt (Nat.not_lt.2 h)⟩
    · have : fget s Fld.HOSTIF_TWC_CTRL_RETRY < 2 ^ 3 := fget_lt s _
      rw [fget_inc_self _ _ (by decide), htries]
      exact min_eq_left (by change _ ≤ 2 ^ 3 - 1; omega)
    · rw [hu.bit_eq (by decide), hb]
  · have ht : t = reportCorrected s2 0x0909 (stampI s2) := if_neg (by rw [htries, hretry]; exact hlt)
    have h2 : SameBits (Fld.HOSTIF_TWC_STAT_AS_TARGET :: Fld.HOSTIF_TWC_STAT_ARB_LOST :: twcFailFields) s s2 :=
      ((h1.mono (by decide)).fput _ _ (by decide)).trans ((sameBits_twcFail _).mono (by decide))
    obtain ⟨hbusy, hfail, -, -, hm2⟩ := twcFail_effects (fput s1 Fld.HOSTIF_TWC_STAT_ARB_LOST 1)
    have hbit (g : Field) (hg : faultOrRec g.addr = false) : bit (reportCorrected s2 0x0909 (stampI s2)) g = bit s2 g :=
      bit_reportCorrected _ _ _ _ (by decide) hg
    have hm : SameMemory s s2 := hm1.trans ⟨hm2.1, hm2.2⟩
    rw [ht]
    refine ⟨hm.trans (sameMemory_reportCorrected ..), fun h => absurd h hlt, fun _ => ⟨?_, ?_, ?_,
      correctedReported_after h2 _ _ (by decide) (by decide)⟩⟩
    · rw [hbit _ (by decide), (sameBits_twcFail _).bit_eq (by decide), bit, fget_fput_self _ _ _ (by decide)]
      rfl
    · rw [hbit _ (by decide), hbusy]
    · rw [hbit _ (by decide), hfail]

end Sys2Proof.Machine
end

section
set_option Elab.async false
namespace Sys2Proof.Machine

/-! ### A controller transfer is over (R369) -/

/-- TWC_DONE changes nothing while no transfer runs. -/
theorem exec_twcDone_of_off {s : State} (k : Option Nat) (d : List Byte) (c : Byte) (h : s.host.twcOn = false) :
    exec (.twcDone k d c) s = .next s := if_pos (by rw [h]; rfl)

/-- TWC_DONE of a running transfer, by a NACK. -/
theorem exec_twcDone_some {s : State} (k : Nat) (d : List Byte) (c : Byte) (h : s.host.twcOn = true) :
    exec (.twcDone (some k) d c) s =
      .next (twcFail (setHost (fput s Fld.HOSTIF_TWC_STAT_NACK 1) fun h => { h with twcSent := h.twcSent.take k })) :=
  if_neg (by rw [h]; decide)

/-- TWC_DONE of a running transfer, every byte acknowledged. -/
theorem exec_twcDone_none {s : State} (d : List Byte) (c : Byte) (h : s.host.twcOn = true) :
    exec (.twcDone none d c) s = .next (twcOk s d c) := if_neg (by rw [h]; decide)

/-- A transfer that ends by a NACK (R369). -/
theorem exec_twcDone_nack {s : State} (k : Nat) (d : List Byte) (c : Byte) (h : s.host.twcOn = true) :
    AnswersNext (exec (.twcDone (some k) d c) s) fun t =>
      t.host.twcSent = s.host.twcSent.take k ∧
      bit t Fld.HOSTIF_TWC_STAT_NACK = true ∧ bit t Fld.HOSTIF_TWC_STAT_BUSY = false ∧ bit t Fld.HOSTIF_EVENT_TWC_FAIL = true ∧
      t.host.twcOn = false ∧ fget t Fld.HOSTIF_CNT_TW_ERR = min (fget s Fld.HOSTIF_CNT_TW_ERR + 1) (2 ^ 16 - 1) ∧ SameMemory s t := by
  rw [exec_twcDone_some _ _ _ h]
  let u := setHost (fput s Fld.HOSTIF_TWC_STAT_NACK 1) fun h => { h with twcSent := h.twcSent.take k }
  obtain ⟨hbusy, hfail, hhost, hcnt, hmem⟩ := twcFail_effects u
  have hu : SameBits [Fld.HOSTIF_TWC_STAT_NACK] s u := ((SameBits.refl _ s).fput _ 1 (by decide)).of_live rfl
  refine answersNext_next ⟨by rw [hhost]; rfl, ?_, hbusy, hfail, by rw [hhost], ?_, hmem.1, hmem.2⟩
  · rw [(sameBits_twcFail u).bit_eq (by decide), bit, fget_setHost, fget_fput_self _ _ _ (by decide)]
    rfl
  · rw [hcnt, hu.fget_eq (by decide)]

/-! ### The bytes that a read has brought (R369) -/

/-- The buffer and the count of the bytes read. -/
def twcTaken (s : State) (d : List Byte) : State :=
  fput (putRegBytes s (Reg.HOSTIF_TWC_BUF 0) (bytesPut (twcBuf s) 0 d)) Fld.HOSTIF_TWC_STAT_RCOUNT d.length

theorem length_twcBuf (s : State) : (twcBuf s).length = 32 := by simp [twcBuf, regBytes, leBytes]

/-- The bytes read, then what the buffer held behind them. -/
theorem bytesPut_twcBuf (s : State) (d : List Byte) : bytesPut (twcBuf s) 0 d = d ++ (twcBuf s).drop d.length := by
  rw [bytesPut, List.take_zero, List.nil_append, Nat.zero_add]

/-- Registers below the buffer keep all but the count. -/
theorem rd_putTwcBuf (s : State) (bs : List Byte) {a : Nat} (ha : a < 0x5080) :
    rd (putRegBytes s (Reg.HOSTIF_TWC_BUF 0) bs) a = rd s a :=
  rd_putRegBytes_of_ne _ _ _ _ fun k _ => by simp only [Reg.HOSTIF_TWC_BUF]; omega

theorem rd_twcTaken (s : State) (d : List Byte) {a : Nat} (ha : a < 0x5080) (hs : a ≠ Reg.HOSTIF_TWC_STAT) :
    rd (twcTaken s d) a = rd s a := (rd_fput_of_ne _ _ hs).trans (rd_putTwcBuf _ _ ha)

/-- Fields outside the buffer leave it. -/
theorem twcBuf_congr {fs : List Field} {s t : State} (h : SameBits fs s t) (hf : ∀ f ∈ fs, f.addr < 0x5080 := by decide) :
    twcBuf t = twcBuf s :=
  regBytes_congr _ _ _ _ fun k _ => h.rd_eq (List.all_eq_true.2 fun f hm => bne_iff_ne.2 <| by
    have := hf f hm
    simp only [Reg.HOSTIF_TWC_BUF]
    omega)

/-- The buffer begins with the bytes read. -/
theorem twcBuf_twcTaken (s : State) {d : List Byte} (hd : d.length ≤ 32) : twcBuf (twcTaken s d) = d ++ (twcBuf s).drop d.length := by
  have h : SameBits [Fld.HOSTIF_TWC_STAT_RCOUNT] (putRegBytes s (Reg.HOSTIF_TWC_BUF 0) (bytesPut (twcBuf s) 0 d)) (twcTaken s d) :=
    (SameBits.refl _ _).fput _ _ (by decide)
  rw [twcBuf_congr h, bytesPut_twcBuf, twcBuf, regBytes_putRegBytes]
  rw [List.length_append, List.length_drop, length_twcBuf]
  omega

theorem sameMemory_twcTaken (s : State) (d : List Byte) : SameMemory s (twcTaken s d) := by
  have h : SameMemory s (putRegBytes s (Reg.HOSTIF_TWC_BUF 0) (bytesPut (twcBuf s) 0 d)) := by
    rw [putRegBytes_only]
    exact ⟨fun _ => rfl, fun _ => rfl⟩
  exact h.trans ⟨fun _ => rfl, fun _ => rfl⟩

/-- A read ends whose code does not match (R369; log entry 79). -/
def pecFailed (s : State) : State :=
  let u := raise (twcFail (fput s Fld.HOSTIF_TWC_STAT_PEC_ERR 1)) Fld.HOSTIF_EVENT_PEC_ERR
  reportCorrected u 0x0907 (stampI u)

/-- A transfer ends with success (R369). -/
def twcDone (s : State) : State :=
  raise (setHost (fput (fput s Fld.HOSTIF_TWC_STAT_BUSY 0) Fld.HOSTIF_TWC_STAT_OK 1) fun h => { h with twcOn := false })
    Fld.HOSTIF_EVENT_TWC_DONE

/-- A code that does not match leaves its marks, and ends the transfer. -/
theorem pecFailed_effects (s : State) : let t := pecFailed s
    bit t Fld.HOSTIF_TWC_STAT_PEC_ERR = true ∧ bit t Fld.HOSTIF_TWC_STAT_BUSY = false ∧ bit t Fld.HOSTIF_EVENT_TWC_FAIL = true ∧
    bit t Fld.HOSTIF_EVENT_PEC_ERR = true ∧ t.host.twcOn = false ∧ CorrectedReported s t 0x0907 ∧ SameMemory s t := by
  unfold pecFailed
  extract_lets u t
  let f := fput s Fld.HOSTIF_TWC_STAT_PEC_ERR 1
  obtain ⟨hbusy, hfail, hhost, -, hmf⟩ := twcFail_effects f
  have hf : SameBits [Fld.HOSTIF_TWC_STAT_PEC_ERR] s f := (SameBits.refl _ _).fput _ _ (by decide)
  have hu : SameBits [Fld.HOSTIF_EVENT_PEC_ERR] (twcFail f) u := (SameBits.refl _ _).raise _ (by decide)
  have hall : SameBits (Fld.HOSTIF_TWC_STAT_PEC_ERR :: Fld.HOSTIF_EVENT_PEC_ERR :: twcFailFields) s u :=
    ((hf.mono (by decide)).trans ((sameBits_twcFail f).mono (by decide))).trans (hu.mono (by decide))
  have hbit (g : Field) (hg : faultOrRec g.addr = false) : bit t g = bit u g := bit_reportCorrected _ _ _ _ (by decide) hg
  have hm : SameMemory s u := (((SameMemory.refl s).fput _ _).trans hmf).fput _ _
  refine ⟨?_, ?_, ?_, ?_, ?_, correctedReported_after hall _ _ (by decide) (by decide), hm.trans (sameMemory_reportCorrected ..)⟩
  · rw [hbit _ (by decide), hu.bit_eq (by decide), (sameBits_twcFail f).bit_eq (by decide), bit, fget_fput_self _ _ _ (by decide)]
    rfl
  · rw [hbit _ (by decide), hu.bit_eq (by decide), hbusy]
  · rw [hbit _ (by decide), hu.bit_eq (by decide), hfail]
  · rw [hbit _ (by decide)]
    exact bit_raise_self _ _ (by decide) rfl
  · rw [reportCorrected_host, raise_host, hhost]

/-- A success leaves its marks and every register beside. -/
theorem twcDone_effects (s : State) : let t := twcDone s
    bit t Fld.HOSTIF_TWC_STAT_OK = true ∧ bit t Fld.HOSTIF_TWC_STAT_BUSY = false ∧ bit t Fld.HOSTIF_EVENT_TWC_DONE = true ∧
    t.host.twcOn = false ∧ SameMemory s t ∧
    SameBits [Fld.HOSTIF_TWC_STAT_BUSY, Fld.HOSTIF_TWC_STAT_OK, Fld.HOSTIF_EVENT_TWC_DONE] s t := by
  intro t
  let b := fput s Fld.HOSTIF_TWC_STAT_BUSY 0
  let o := fput b Fld.HOSTIF_TWC_STAT_OK 1
  have hb : SameBits [Fld.HOSTIF_TWC_STAT_BUSY] s b := (SameBits.refl _ _).fput _ _ (by decide)
  have ho : SameBits [Fld.HOSTIF_TWC_STAT_OK] b o := (SameBits.refl _ _).fput _ _ (by decide)
  have ht : SameBits [Fld.HOSTIF_EVENT_TWC_DONE] o t := ((SameBits.refl _ o).of_live (u := setHost o _) rfl).raise _ (by decide)
  refine ⟨?_, ?_, bit_raise_self _ _ (by decide) rfl, rfl, ⟨fun _ => rfl, fun _ => rfl⟩,
    ((hb.mono (by decide)).trans (ho.mono (by decide))).trans (ht.mono (by decide))⟩
  · rw [ht.bit_eq (by decide), bit, fget_fput_self _ _ _ (by decide)]
    rfl
  · rw [ht.bit_eq (by decide), ho.bit_eq (by decide), bit, fget_fput_self _ _ _ (by decide)]
    rfl

/-- A read of `RLEN` bytes needs no filler and loses none. -/
theorem twcRead_eq {d : List Byte} {n : Nat} (h : d.length = n) : (d ++ List.replicate (n - d.length) (0xFF : Byte)).take n = d := by
  rw [h, Nat.sub_self, List.replicate_zero, List.append_nil, ← h, List.take_length]

/-- What the end of a transfer does once its bytes are in the buffer (R369). -/
theorem twcOk_eq {s : State} {d : List Byte} (c : Byte) (hlen : d.length = fget s Fld.HOSTIF_TWC_CTRL_RLEN) :
    twcOk s d c =
      if d.length != 0 && bit s Fld.HOSTIF_TWC_CTRL_PEC && crc8Pec (s.host.twcSent ++ d) != c then
        pecFailed (twcTaken s d)
      else twcDone (twcTaken s d) := by
  unfold twcOk
  dsimp only
  rw [twcRead_eq hlen, ← hlen]
  rfl

/-- TWC_DONE of a read whose code does not match (R369; log entry 79). -/
theorem exec_twcDone_of_bad {s : State} {d : List Byte} {c : Byte} (hon : s.host.twcOn = true)
    (hpec : bit s Fld.HOSTIF_TWC_CTRL_PEC = true) (hlen : d.length = fget s Fld.HOSTIF_TWC_CTRL_RLEN) (hne : d ≠ [])
    (hc : crc8Pec (s.host.twcSent ++ d) ≠ c) : AnswersNext (exec (.twcDone none d c) s) fun t =>
      bit t Fld.HOSTIF_TWC_STAT_PEC_ERR = true ∧ bit t Fld.HOSTIF_TWC_STAT_BUSY = false ∧ bit t Fld.HOSTIF_EVENT_TWC_FAIL = true ∧
      bit t Fld.HOSTIF_EVENT_PEC_ERR = true ∧ t.host.twcOn = false ∧ CorrectedReported s t 0x0907 ∧ SameMemory s t := by
  rw [exec_twcDone_none _ _ hon, twcOk_eq c hlen, if_pos (by rw [hpec]; simp [hne, hc])]
  obtain ⟨hpecerr, hbusy, hfail, hev, hoff, hrep, hmem⟩ := pecFailed_effects (twcTaken s d)
  exact answersNext_next ⟨hpecerr, hbusy, hfail, hev, hoff, hrep.of_rd (rd_twcTaken s d (by decide) (by decide)),
    (sameMemory_twcTaken s d).trans hmem⟩

/-- TWC_DONE of a transfer that was acknowledged to its end (R369). -/
theorem exec_twcDone_of_good {s : State} {d : List Byte} {c : Byte} (hon : s.host.twcOn = true)
    (h : bit s Fld.HOSTIF_TWC_CTRL_PEC = false ∨ d = [] ∨ crc8Pec (s.host.twcSent ++ d) = c)
    (hlen : d.length = fget s Fld.HOSTIF_TWC_CTRL_RLEN) (hle : d.length ≤ 32) : AnswersNext (exec (.twcDone none d c) s) fun t =>
      (twcBuf t).take d.length = d ∧ (twcBuf t).drop d.length = (twcBuf s).drop d.length ∧
      fget t Fld.HOSTIF_TWC_STAT_RCOUNT = d.length ∧ bit t Fld.HOSTIF_TWC_STAT_OK = true ∧ bit t Fld.HOSTIF_TWC_STAT_BUSY = false ∧
      bit t Fld.HOSTIF_EVENT_TWC_DONE = true ∧ t.host.twcOn = false ∧ SameMemory s t := by
  rw [exec_twcDone_none _ _ hon, twcOk_eq c hlen, if_neg (by rcases h with h | h | h <;> simp [h])]
  obtain ⟨hok, hbusy, hev, hoff, hmem, hsame⟩ := twcDone_effects (twcTaken s d)
  have hbuf : twcBuf (twcDone (twcTaken s d)) = d ++ (twcBuf s).drop d.length := (twcBuf_congr hsame).trans (twcBuf_twcTaken s hle)
  refine answersNext_next ⟨?_, ?_, ?_, hok, hbusy, hev, hoff, (sameMemory_twcTaken s d).trans hmem⟩
  · rw [hbuf, List.take_left]
  · rw [hbuf, List.drop_left]
  · rw [hsame.fget_eq (by decide), twcTaken, fget_fput_self _ _ _ (by decide)]
    exact Nat.mod_eq_of_lt (by change _ < 2 ^ 6; omega)

end Sys2Proof.Machine
end

section
set_option Elab.async false
namespace Sys2Proof.Machine

/-! ### Words of the NVM window (R9, R364, R407) -/

/-- A byte of a word is the byte at its place. -/
theorem wordByte_leWord (f : Nat → Byte) (o : Nat) {k : Nat} (hk : k < 4) : wordByte (leWord f o) k = f (o + k) := by
  refine BitVec.eq_of_getLsbD_eq fun i hi => ?_
  rw [wordByte, BitVec.getLsbD_setWidth, BitVec.getLsbD_ushiftRight]
  simp only [leWord, BitVec.getLsbD_append]
  interval_cases k
  · simp [hi]
  · simp [hi, show ¬ 8 + i < 8 by omega]
  · simp [hi, show ¬ 16 + i < 8 by omega, show ¬ 16 + i - 8 < 8 by omega, show 16 + i - 8 - 8 = i by omega]
  · simp [hi, show ¬ 24 + i < 8 by omega, show ¬ 24 + i - 8 < 8 by omega, show ¬ 24 + i - 8 - 8 < 8 by omega,
      show 24 + i - 8 - 8 - 8 = i by omega]

/-- A word of the window while no NVM word is known bad. -/
theorem hostRead_nvm {s : State} (p : Path) {a : Nat} (hi : inRecovery s = false) (hb : s.nvmBad = []) (ha : 0x10000000 ≤ a)
    (ha' : a < 0x10400000) : hostRead p a s = some (leWord (nvmWindow s) (a - 0x10000000), s) := by
  unfold hostRead
  rw [blockServed_of_not_recovery hi a, if_neg (by decide), if_neg (by omega), if_neg (by omega), if_pos ⟨ha, ha'⟩, readNvm, nvmFails, hb]
  rfl

/-! ### A two-wire read of the window (R364) -/

/-- The pointer moved. -/
def atPtr (s : State) (p : Nat) : State := setHost s fun h => { h with twPtr := p }

/-- A read transfer that reads NVM through the window, without packet error codes; no word is waited for and none is bad. -/
structure WindowRead (s : State) (r : TwRun) : Prop where
  ready : hostReady s = true
  outside : inRecovery s = false
  noPec : bit s Fld.HOSTIF_TW_CFG_PEC = false
  noBad : s.nvmBad = []
  low : 0x10000000 ≤ r.base
  high : r.base + 0x2000 ≤ 0x10400000
  aligned : r.base % 4 = 0
  ptrLow : 0xE000 ≤ s.host.twPtr
  ptrHigh : s.host.twPtr ≤ 0xFFFF
  noWait : r.wait = none
  fits : r.left ≠ 0 → r.past = false ∧ s.host.twPtr + r.left ≤ 0x10000
  held : r.haveWord = true → r.word = leWord (nvmWindow s) (twMap r.base s.host.twPtr / 4 * 4 - 0x10000000)

/-- The map address of the next byte. -/
theorem WindowRead.twMap_eq {s : State} {r : TwRun} (h : WindowRead s r) : twMap r.base s.host.twPtr = r.base + (s.host.twPtr - 0xE000) :=
  if_neg (Nat.not_lt.2 h.ptrLow)

/-- The byte at the pointer, of a word that begins at its aligned address. -/
theorem WindowRead.wordByte_eq {s : State} {r : TwRun} (h : WindowRead s r) {w : Word}
    (hw : w = leWord (nvmWindow s) (twMap r.base s.host.twPtr / 4 * 4 - 0x10000000)) :
    wordByte w (twMap r.base s.host.twPtr % 4) = nvmWindow s (r.base - 0x10000000 + (s.host.twPtr - 0xE000)) := by
  have hlow := h.low
  rw [hw, wordByte_leWord _ _ (Nat.mod_lt _ (by decide)), h.twMap_eq]
  exact congrArg _ (by omega)

@[simp] theorem twSend_fst (s : State) (r : TwRun) (b : Byte) : (twSend s r b).1 = atPtr s (min (s.host.twPtr + 1) 0xFFFF) := byUnfolding rfl
@[simp] theorem twSend_left (s : State) (r : TwRun) (b : Byte) : (twSend s r b).2.left = r.left - 1 := byUnfolding rfl
@[simp] theorem twSend_base (s : State) (r : TwRun) (b : Byte) : (twSend s r b).2.base = r.base := byUnfolding rfl
@[simp] theorem twSend_word (s : State) (r : TwRun) (b : Byte) : (twSend s r b).2.word = r.word := byUnfolding rfl
@[simp] theorem twSend_wait (s : State) (r : TwRun) (b : Byte) : (twSend s r b).2.wait = r.wait := byUnfolding rfl
@[simp] theorem twSend_out (s : State) (r : TwRun) (b : Byte) : (twSend s r b).2.out = r.out ++ [b] := byUnfolding rfl
@[simp] theorem twSend_past (s : State) (r : TwRun) (b : Byte) : (twSend s r b).2.past = (r.past || s.host.twPtr == 0xFFFF) := byUnfolding rfl
@[simp] theorem twSend_haveWord (s : State) (r : TwRun) (b : Byte) :
    (twSend s r b).2.haveWord = (r.haveWord && twMap r.base s.host.twPtr % 4 != 3) := byUnfolding rfl

@[simp] theorem atPtr_twPtr (s : State) (p : Nat) : (atPtr s p).host.twPtr = p := byUnfolding rfl
@[simp] theorem hostReady_atPtr (s : State) (p : Nat) : hostReady (atPtr s p) = hostReady s := byUnfolding rfl
@[simp] theorem inRecovery_atPtr (s : State) (p : Nat) : inRecovery (atPtr s p) = inRecovery s := byUnfolding rfl
@[simp] theorem bit_atPtr (s : State) (p : Nat) (f : Field) : bit (atPtr s p) f = bit s f := byUnfolding rfl
@[simp] theorem nvmBad_atPtr (s : State) (p : Nat) : (atPtr s p).nvmBad = s.nvmBad := byUnfolding rfl
@[simp] theorem nvmWindow_atPtr (s : State) (p : Nat) : nvmWindow (atPtr s p) = nvmWindow s := byUnfolding rfl
@[simp] theorem atPtr_atPtr (s : State) (p q : Nat) : atPtr (atPtr s p) q = atPtr s q := byUnfolding rfl

/-- A pointer that stands. -/
theorem atPtr_self (s : State) : atPtr s s.host.twPtr = s := byUnfolding rfl

/-- The byte behind one that does not end its word lies in the same word. -/
theorem sameWord {b p : Nat} (hb : b % 4 = 0) (hl : 0xE000 ≤ p) (hh : p ≤ 0xFFFF) (h : (b + (p - 0xE000)) % 4 ≠ 3) :
    (b + (min (p + 1) 0xFFFF - 0xE000)) / 4 = (b + (p - 0xE000)) / 4 := by omega

/-- A byte sent leaves a read of the window, with the pointer behind it. -/
theorem WindowRead.twSend {s : State} {r : TwRun} (h : WindowRead s r) (hl : r.left ≠ 0) (b : Byte)
    (hw : r.word = leWord (nvmWindow s) (twMap r.base s.host.twPtr / 4 * 4 - 0x10000000)) :
    WindowRead (atPtr s (min (s.host.twPtr + 1) 0xFFFF)) (twSend s r b).2 := by
  obtain ⟨hpast, hfit⟩ := h.fits hl
  obtain ⟨hready, hout, hpec, hbad, hlow, hhigh, halign, hplow, hphigh, hwait, -, -⟩ := h
  constructor
  case fits =>
    intro hn
    simp only [twSend_left, twSend_past, atPtr_twPtr, hpast, Bool.false_or, beq_eq_false_iff_ne] at hn ⊢
    omega
  case held =>
    intro hh
    simp only [twSend_haveWord, Bool.and_eq_true, bne_iff_ne, ne_eq] at hh
    obtain ⟨-, hm⟩ := hh
    simp only [twSend_word, twSend_base, atPtr_twPtr, nvmWindow_atPtr, hw]
    rw [twMap, if_neg (by omega)] at hm ⊢
    rw [twMap, if_neg (by omega), sameWord halign hplow hphigh hm]
  case ptrLow => rw [atPtr_twPtr]; omega
  case ptrHigh => rw [atPtr_twPtr]; exact Nat.min_le_right ..
  all_goals simpa only [hostReady_atPtr, inRecovery_atPtr, bit_atPtr, nvmBad_atPtr, twSend_base, twSend_wait]

/-- A byte of the word in transfer is sent. -/
theorem twGo_of_held {s : State} {r : TwRun} (n : Nat) (hl : r.left ≠ 0) (hpec : bit s Fld.HOSTIF_TW_CFG_PEC = false)
    (hp : r.past = false) (hw : r.haveWord = true) : twGo (n + 1) s r = twGo n (atPtr s (min (s.host.twPtr + 1) 0xFFFF))
      (twSend s r (wordByte r.word (twMap r.base s.host.twPtr % 4))).2 := by
  rw [twGo, if_neg hl, if_neg (by rw [hpec, Bool.false_and]; exact Bool.false_ne_true), if_neg (by rw [hp]; exact Bool.false_ne_true)]
  dsimp only
  rw [if_pos hw, twSend_fst]

/-- A run that has the word `w` in transfer. -/
def withWord (r : TwRun) (w : Word) : TwRun := { r with word := w, haveWord := true, wait := none }

@[simp] theorem withWord_left (r : TwRun) (w : Word) : (withWord r w).left = r.left := byUnfolding rfl
@[simp] theorem withWord_base (r : TwRun) (w : Word) : (withWord r w).base = r.base := byUnfolding rfl
@[simp] theorem withWord_past (r : TwRun) (w : Word) : (withWord r w).past = r.past := byUnfolding rfl
@[simp] theorem withWord_out (r : TwRun) (w : Word) : (withWord r w).out = r.out := byUnfolding rfl
@[simp] theorem withWord_word (r : TwRun) (w : Word) : (withWord r w).word = w := byUnfolding rfl
@[simp] theorem withWord_haveWord (r : TwRun) (w : Word) : (withWord r w).haveWord = true := byUnfolding rfl
@[simp] theorem withWord_wait (r : TwRun) (w : Word) : (withWord r w).wait = none := byUnfolding rfl

/-- A word that is read is in transfer before its first byte is sent. -/
theorem twGo_of_fetched {s : State} {r : TwRun} (n : Nat) {w : Word} (hl : r.left ≠ 0) (hpec : bit s Fld.HOSTIF_TW_CFG_PEC = false)
    (hp : r.past = false) (hw : r.haveWord = false) (hready : hostReady s = true)
    (hread : hostRead .twoWire (twMap r.base s.host.twPtr / 4 * 4) s = some (w, s)) :
    twGo (n + 1) s r = twGo (n + 1) s (withWord r w) := by
  rw [twGo_of_held (r := withWord r w) n (by rwa [withWord_left]) hpec (by rwa [withWord_past]) (withWord_haveWord ..), twGo, if_neg hl,
    if_neg (by rw [hpec, Bool.false_and]; exact Bool.false_ne_true), if_neg (by rw [hp]; exact Bool.false_ne_true)]
  dsimp only
  rw [if_neg (by rw [hw]; exact Bool.false_ne_true), if_pos hready, hread]
  rfl

/-- The word of the window in transfer leaves a read of the window. -/
theorem WindowRead.withWord {s : State} {r : TwRun} (h : WindowRead s r) :
    WindowRead s (withWord r (leWord (nvmWindow s) (twMap r.base s.host.twPtr / 4 * 4 - 0x10000000))) := by
  obtain ⟨hready, hout, hpec, hbad, hlow, hhigh, halign, hplow, hphigh, hwait, hfits, -⟩ := h
  constructor
  case held => intro _; rw [withWord_word, withWord_base]
  case low => rwa [withWord_base]
  case high => rwa [withWord_base]
  case aligned => rwa [withWord_base]
  case noWait => rw [withWord_wait]
  case fits => rwa [withWord_left, withWord_past]
  all_goals assumption

/-- One byte of a read of the window, its word in transfer. -/
theorem WindowRead.twGo_held {s : State} {r : TwRun} (h : WindowRead s r) (n : Nat) (hl : r.left ≠ 0) (hw : r.haveWord = true) :
    ∃ r', twGo (n + 1) s r = twGo n (atPtr s (min (s.host.twPtr + 1) 0xFFFF)) r' ∧
      WindowRead (atPtr s (min (s.host.twPtr + 1) 0xFFFF)) r' ∧ r'.left = r.left - 1 ∧ r'.base = r.base ∧
      r'.out = r.out ++ [nvmWindow s (r.base - 0x10000000 + (s.host.twPtr - 0xE000))] :=
  ⟨_, twGo_of_held n hl h.noPec (h.fits hl).1 hw, h.twSend hl _ (h.held hw), twSend_left .., twSend_base ..,
    by rw [twSend_out, h.wordByte_eq (h.held hw)]⟩

/-- One byte of a read of the window. -/
theorem WindowRead.twGo_succ {s : State} {r : TwRun} (h : WindowRead s r) (n : Nat) (hl : r.left ≠ 0) :
    ∃ r', twGo (n + 1) s r = twGo n (atPtr s (min (s.host.twPtr + 1) 0xFFFF)) r' ∧
      WindowRead (atPtr s (min (s.host.twPtr + 1) 0xFFFF)) r' ∧ r'.left = r.left - 1 ∧ r'.base = r.base ∧
      r'.out = r.out ++ [nvmWindow s (r.base - 0x10000000 + (s.host.twPtr - 0xE000))] := by
  by_cases hw : r.haveWord = true
  · exact h.twGo_held n hl hw
  · have hlow := h.low
    have hhigh := h.high
    have hptr := h.ptrHigh
    have hmap := h.twMap_eq
    rw [twGo_of_fetched n hl h.noPec (h.fits hl).1 (Bool.eq_false_iff.2 hw) h.ready
      (hostRead_nvm _ h.outside h.noBad (by omega) (by omega))]
    have hgo := h.withWord.twGo_held n (by rwa [withWord_left]) (withWord_haveWord ..)
    rwa [withWord_left, withWord_base, withWord_out] at hgo

/-- The byte after the first lies one further in the window. -/
theorem windowPlace_succ {p m k : Nat} (hl : 0xE000 ≤ p) (hf : p + (m + 1) ≤ 0x10000) (hk : k < m) :
    min (p + 1) 0xFFFF - 0xE000 + k = p - 0xE000 + (k + 1) := by omega

/-- The values of `f` from 0 on, the first apart. -/
theorem cons_map_range {α : Type} {f g : Nat → α} {m : Nat} {x : α} (h0 : x = f 0) (h : ∀ k, k < m → g k = f (k + 1)) :
    x :: (List.range m).map g = (List.range (m + 1)).map f := by
  rw [List.range_succ_eq_map, List.map_cons, List.map_map, ← h0]
  exact congrArg _ (List.map_congr_left fun k hk => h k (List.mem_range.1 hk))

/-- All bytes of a read of the window: they are the bytes behind the pointer (R364). -/
theorem WindowRead.twGo_all : ∀ (m : Nat) {s : State} {r : TwRun}, WindowRead s r → r.left = m →
    ∃ r', twGo (m + 1) s r = (atPtr s (min (s.host.twPtr + m) 0xFFFF), r') ∧ r'.wait = none ∧
      r'.out = r.out ++ (List.range m).map fun k => nvmWindow s (r.base - 0x10000000 + (s.host.twPtr - 0xE000) + k)
  | 0, s, r, h, hl => by
    refine ⟨r, ?_, h.noWait, (List.append_nil _).symm⟩
    rw [twGo, if_pos hl, Nat.add_zero, min_eq_left h.ptrHigh, atPtr_self]
  | m + 1, s, r, h, hl => by
    have hne : r.left ≠ 0 := by omega
    obtain ⟨r1, hgo, h1, hleft, hbase, hout⟩ := h.twGo_succ (m + 1) hne
    obtain ⟨r2, hgo2, hwait, hout2⟩ := h1.twGo_all m (by omega)
    have hfit := (h.fits hne).2
    have hlow := h.ptrLow
    refine ⟨r2, ?_, hwait, ?_⟩
    · rw [hgo, hgo2, atPtr_twPtr, atPtr_atPtr, show min (min (s.host.twPtr + 1) 0xFFFF + m) 0xFFFF = min (s.host.twPtr + (m + 1)) 0xFFFF by omega]
    · have hrest (x k : Nat) (hk : k < m) : x + (min (s.host.twPtr + 1) 0xFFFF - 0xE000) + k = x + (s.host.twPtr - 0xE000) + (k + 1) := by
        rw [Nat.add_assoc, Nat.add_assoc, windowPlace_succ hlow (hl ▸ hfit) hk]
      rw [hout2, hout, hbase, List.append_assoc, List.singleton_append, nvmWindow_atPtr, atPtr_twPtr]
      exact congrArg _ (cons_map_range (congrArg (nvmWindow s) (Nat.add_zero _).symm) fun k hk => congrArg (nvmWindow s) (hrest _ k hk))

/-- TW_READ of a pointer in the window (R364). -/
theorem exec_twRead_window {s : State} {p : BitVec 16} {n : Nat} (hr : hostReady s = true) (hi : inRecovery s = false)
    (htw : s.host.tw = none) (hpec : bit s Fld.HOSTIF_TW_CFG_PEC = false) (hp : 0xE000 ≤ p.toNat) (hn : p.toNat + n ≤ 0x10000)
    (hlow : 0x10000000 ≤ winBase s) (hhigh : winBase s + 0x2000 ≤ 0x10400000) (hbad : s.nvmBad = []) :
    exec (.twRead (some p) n) s = .next (setHost s fun x => { x with
      tw := none
      twPtr := min (p.toNat + n) 0xFFFF
      twOut := (List.range n).map fun k => nvmWindow s (winBase s - 0x10000000 + (p.toNat - 0xE000) + k) }) := by
  let r : TwRun := ⟨false, false, n, winBase s, 0, false, false, [], (twAddrByte s false :: beBytes 2 p.toNat) ++ [twAddrByte s true], none⟩
  let u : State := setHost (atPtr s p.toNat) fun h => { h with tw := some r }
  have he : exec (.twRead (some p) n) s = .next (twRead u r) := by
    refine if_neg ?_
    rw [hr, htw]
    decide
  have hw : WindowRead u r := ⟨hr, hi, hpec, hbad, hlow, hhigh, by change winBase s % 4 = 0; rw [winBase]; omega, hp,
    by change p.toNat ≤ 0xFFFF; omega, rfl, fun _ => ⟨rfl, hn⟩, fun h => absurd h Bool.false_ne_true⟩
  obtain ⟨r', hgo, hwait, hout⟩ := hw.twGo_all n rfl
  have hread : twRead u r = setHost (atPtr u (min (p.toNat + n) 0xFFFF)) fun h => { h with
      tw := if r'.wait.isSome then some r' else none, twOut := r'.out } := by
    rw [twRead, show r.left = n from rfl, hgo]
    rfl
  rw [he, hread, hwait, hout]
  rfl

/-! ### Filler in place of a word that is waited for (R365, R375) -/

/-- Filler of a queue word writes its event only, and leaves the host ports. -/
theorem fillerRead_effects (s : State) (a : Nat) : let t := fillerRead s a
    (0x20000 ≤ a → a < 0x30000 → bit t Fld.HOSTIF_EVENT_Q_FILL = true) ∧ SameBits [Fld.HOSTIF_EVENT_Q_FILL] s t ∧
    t.host = s.host ∧ t = { s with live := t.live } := by
  unfold fillerRead
  split
  · exact ⟨fun _ _ => bit_raise_self _ _ (by decide) rfl, (SameBits.refl _ s).raise _ (by decide), rfl, rfl⟩
  · next h => exact ⟨fun h1 h2 => absurd ⟨h1, h2⟩ h, .refl _ s, rfl, rfl⟩

/-- The last byte of a word in transfer ends a read without packet error codes. -/
theorem twRead_last {s : State} {r : TwRun} (hl : r.left = 1) (hp : r.past = false) (hw : r.haveWord = true) (hwait : r.wait = none)
    (hpec : bit s Fld.HOSTIF_TW_CFG_PEC = false) : twRead s r = setHost s fun h => { h with
      tw := none, twPtr := min (h.twPtr + 1) 0xFFFF, twOut := r.out ++ [wordByte r.word (twMap r.base s.host.twPtr % 4)] } := by
  rw [twRead, hl, twGo_of_held 1 (by omega) hpec hp hw, twGo, if_pos (by rw [twSend_left]; omega)]
  dsimp only
  rw [twSend_wait, twSend_out, hwait]
  rfl

/-- TW_STRETCH_TIMEOUT of a read of one byte (R365). -/
theorem exec_twStretchTimeout {s : State} {r : TwRun} {k : Nat} (htw : s.host.tw = some r) (hwait : r.wait = some k)
    (hlate : k + 40 * fget s Fld.HOSTIF_TW_CFG_STRETCH ≤ s.tick) (hl : r.left = 1) (hp : r.past = false)
    (hpec : bit s Fld.HOSTIF_TW_CFG_PEC = false) : AnswersNext (exec .twStretchTimeout s) fun t =>
      t.host.tw = none ∧ t.host.twOut = r.out ++ [wordByte (rd s Reg.HOSTIF_FILL) (twMap r.base s.host.twPtr % 4)] ∧
      (0x20000 ≤ twMap r.base s.host.twPtr → twMap r.base s.host.twPtr < 0x30000 → bit t Fld.HOSTIF_EVENT_Q_FILL = true) ∧
      SameBits [Fld.HOSTIF_EVENT_Q_FILL] s t ∧ t = { s with live := t.live, host := t.host } := by
  let u := fillerRead s (twMap r.base s.host.twPtr)
  obtain ⟨hfill, hsame, hhost, honly⟩ := fillerRead_effects s (twMap r.base s.host.twPtr)
  have he : exec .twStretchTimeout s =
      .next (twRead u { r with word := rd s Reg.HOSTIF_FILL, haveWord := true, wait := none }) := by
    change execTwStretchTimeout s = _
    unfold execTwStretchTimeout
    rw [htw]
    dsimp only
    rw [hwait]
    exact if_neg (Nat.not_lt.2 hlate)
  have hread := twRead_last (s := u) (r := { r with word := rd s Reg.HOSTIF_FILL, haveWord := true, wait := none }) hl hp rfl rfl
    (by rw [hsame.bit_eq (by decide), hpec])
  rw [he, hread]
  refine answersNext_next ⟨rfl, ?_, hfill, hsame.of_live rfl, ?_⟩
  · change r.out ++ [wordByte (rd s Reg.HOSTIF_FILL) (twMap r.base u.host.twPtr % 4)] = _
    rw [hhost]
  · rw [show u = { s with live := u.live } from honly]
    rfl

end Sys2Proof.Machine
end

section
set_option Elab.async false
namespace Sys2Proof.Machine

/-! ### A word written over the two-wire port (R350, R363) -/

/-- Four bytes, the least significant first, as a word. -/
theorem ofNat_ofLeBytes (b0 b1 b2 b3 : Byte) : BitVec.ofNat 32 (ofLeBytes [b0, b1, b2, b3]) = b3 ++ b2 ++ b1 ++ b0 := by
  refine BitVec.eq_of_toNat_eq ?_
  have h0 := b0.isLt
  have h1 := b1.isLt
  have h2 := b2.isLt
  have h3 := b3.isLt
  rw [BitVec.toNat_append, ← Nat.shiftLeft_add_eq_or_of_lt h0, BitVec.toNat_append, ← Nat.shiftLeft_add_eq_or_of_lt h1,
    BitVec.toNat_append, ← Nat.shiftLeft_add_eq_or_of_lt h2, BitVec.toNat_ofNat]
  simp only [ofLeBytes, Nat.shiftLeft_eq]
  omega

/-- The two bytes of a pointer, and the pointer that they give back. -/
theorem beBytes_two (n : Nat) : beBytes 2 n = [BitVec.ofNat 8 (n / 256), BitVec.ofNat 8 n] := by
  simp [beBytes, leBytes, List.range_succ, Nat.shiftRight_eq_div_pow]

theorem pointer_of_bytes (p : BitVec 16) :
    (BitVec.ofNat 8 (p.toNat / 256)).toNat * 256 + (BitVec.ofNat 8 p.toNat).toNat = p.toNat := by
  have := p.isLt
  rw [BitVec.toNat_ofNat, BitVec.toNat_ofNat]
  omega

/-- Within an aligned word the pointer goes up by one (R363). -/
theorem pageNext_in_word {p i : Nat} (hp : p % 4 = 0) (hi : i < 3) : pageNext (p + i) = p + (i + 1) := by
  rw [pageNext]
  omega

/-- The byte of its word that a pointer selects. -/
theorem twMap_mod {base p i : Nat} (hb : base % 4 = 0) (hp : p % 4 = 0) (hi : i < 4) : twMap base (p + i) % 4 = i := by
  rw [twMap]
  split <;> omega

/-- The address of the word. -/
theorem twMap_last {base p : Nat} (hp : p % 4 = 0) : twMap base (p + 3) - 3 = twMap base p := by
  rw [twMap, twMap]
  split
  · rw [if_pos (by omega)]; omega
  · rw [if_neg (by omega)]; omega

/-- A byte that does not end its word is kept (R350). -/
theorem twStore_byte {base : Nat} {buf : List Byte} {b : Byte} {bs : List Byte} {s : State} (hr : twRuns true s = true)
    (h : twMap base s.host.twPtr % 4 ≠ 3) : twStore true base buf (b :: bs) s =
      twStore true base (wordSoFar buf (twMap base s.host.twPtr) b) bs (atPtr s (pageNext s.host.twPtr)) := by
  rw [twStore, if_neg (by rw [hr]; decide)]
  dsimp only
  rw [if_neg h]
  rfl

/-- The byte that ends a whole word writes it (R350). -/
theorem twStore_end {base : Nat} {buf : List Byte} {b : Byte} {s : State} (hr : twRuns true s = true)
    (h : twMap base s.host.twPtr % 4 = 3) (hw : (wordSoFar buf (twMap base s.host.twPtr) b).length = 4) :
    twStore true base buf [b] s = hostWrite .twoWire (twMap base s.host.twPtr - 3)
      (BitVec.ofNat 32 (ofLeBytes (wordSoFar buf (twMap base s.host.twPtr) b))) (atPtr s (pageNext s.host.twPtr)) := by
  rw [twStore, if_neg (by rw [hr]; decide)]
  dsimp only
  rw [if_pos h, if_pos hw, twStore]
  rfl

theorem wordSoFar_first {a : Nat} (buf : List Byte) (b : Byte) (h : a % 4 = 0) : wordSoFar buf a b = [b] := if_pos h

theorem wordSoFar_next {a : Nat} (c : Byte) (buf : List Byte) (b : Byte) (h : a % 4 ≠ 0) :
    wordSoFar (c :: buf) a b = c :: buf ++ [b] := (if_neg h).trans (if_neg Bool.false_ne_true)

/-- The pointer moved leaves a transfer running. -/
theorem twRuns_atPtr (live : Bool) (s : State) (p : Nat) : twRuns live (atPtr s p) = twRuns live s := byUnfolding rfl

/-- Four bytes at an aligned pointer are a write of their word (R350, R363). -/
theorem twStore_word {base p : Nat} {s : State} (b0 b1 b2 b3 : Byte) (hr : twRuns true s = true) (hb : base % 4 = 0) (hp : p % 4 = 0)
    (hs : s.host.twPtr = p) : twStore true base [] [b0, b1, b2, b3] s =
      hostWrite .twoWire (twMap base p) (b3 ++ b2 ++ b1 ++ b0) (atPtr s (p / 64 * 64 + (p + 4) % 64)) := by
  have hm0 : twMap base p % 4 = 0 := twMap_mod (i := 0) hb hp (by decide)
  have hm1 := twMap_mod (i := 1) hb hp (by decide)
  have hm2 := twMap_mod (i := 2) hb hp (by decide)
  have hm3 := twMap_mod (i := 3) hb hp (by decide)
  have hw : wordSoFar [b0, b1, b2] (twMap base (p + 3)) b3 = [b0, b1, b2, b3] := wordSoFar_next _ _ _ (by omega)
  have hn0 : pageNext p = p + 1 := pageNext_in_word (i := 0) hp (by decide)
  have hn1 : pageNext (p + 1) = p + 2 := pageNext_in_word hp (by decide)
  have hn2 : pageNext (p + 2) = p + 3 := pageNext_in_word hp (by decide)
  have hn3 : pageNext (p + 3) = p / 64 * 64 + (p + 4) % 64 := by
    rw [pageNext]
    omega
  rw [twStore_byte hr (by rw [hs, hm0]; decide), hs, wordSoFar_first _ _ hm0, hn0,
    twStore_byte (by rw [twRuns_atPtr, hr]) (by rw [atPtr_twPtr, hm1]; decide), atPtr_twPtr, atPtr_atPtr, hn1,
    wordSoFar_next _ _ _ (by omega), twStore_byte (by rw [twRuns_atPtr, hr]) (by rw [atPtr_twPtr, hm2]; decide), atPtr_twPtr, atPtr_atPtr,
    hn2, List.cons_append, List.nil_append, wordSoFar_next _ _ _ (by omega), List.cons_append,
    List.cons_append, List.nil_append, twStore_end (by rw [twRuns_atPtr, hr]) (by rw [atPtr_twPtr]; exact hm3)
      (by rw [atPtr_twPtr, hw]; rfl), atPtr_twPtr, atPtr_atPtr, hw, twMap_last hp, ofNat_ofLeBytes, hn3]

/-- A transfer that is over, or whose pointer begins a word, ends at STOP without a partial word (R350, R363). -/
theorem twPlainWrite_of_whole {s t : State} {hi lo : Byte} {data : List Byte}
    (ht : twStore true (winBase s) [] data (setHost (twHold s false) fun h => { h with twPtr := hi.toNat * 256 + lo.toNat }) = t)
    (h : t.host.tw = none ∨ t.host.twPtr % 4 = 0) : twPlainWrite s hi lo data true = setHost t fun x => { x with tw := none } := by
  unfold twPlainWrite
  dsimp only
  rw [ht]
  by_cases hn : t.host.tw = none
  · rw [if_pos (by rw [hn]; rfl), setHost, ← hn]
  · have hopen : twOpenWord t data = false := by
      rw [twOpenWord, h.resolve_left hn]
      exact Bool.and_false _
    rw [if_neg (by rwa [Option.isNone_iff_eq_none])]
    split
    · rfl
    · rw [if_neg (by decide), hopen]
      rfl

/-- TW_WRITE of the four bytes of an aligned word (R363). -/
theorem exec_twWrite_word {s : State} {p : BitVec 16} (b0 b1 b2 b3 : Byte) (hr : hostReady s = true) (htw : s.host.tw = none)
    (hpec : bit s Fld.HOSTIF_TW_CFG_PEC = false) (hp : p.toNat % 4 = 0) :
    exec (.twWrite (beBytes 2 p.toNat ++ [b0, b1, b2, b3]) true) s =
      .next (setHost (hostWrite .twoWire (twMap (winBase s) p.toNat) (b3 ++ b2 ++ b1 ++ b0)
        (setHost (twHold s false) fun x => { x with twPtr := p.toNat / 64 * 64 + (p.toNat + 4) % 64 })) fun x => { x with tw := none }) := by
  have hbase : winBase s % 4 = 0 := by rw [winBase]; omega
  have he : exec (.twWrite (beBytes 2 p.toNat ++ [b0, b1, b2, b3]) true) s =
      .next (twPlainWrite s (BitVec.ofNat 8 (p.toNat / 256)) (BitVec.ofNat 8 p.toNat) [b0, b1, b2, b3] true) := by
    rw [beBytes_two]
    refine (if_neg ?_).trans (if_neg ?_)
    · rw [hr, htw]
      decide
    · rw [hpec]
      decide
  have hruns : twRuns true (atPtr (twHold s false) p.toNat) = true := by
    rw [twRuns_atPtr, twRuns, show hostReady (twHold s false) = hostReady s from rfl, hr]
    rfl
  have hstore := twStore_word (s := atPtr (twHold s false) p.toNat) b0 b1 b2 b3 hruns hbase hp (atPtr_twPtr ..)
  rw [atPtr_atPtr] at hstore
  have hend := twPlainWrite_of_whole (hi := BitVec.ofNat 8 (p.toNat / 256)) (lo := BitVec.ofNat 8 p.toNat)
    (by rw [pointer_of_bytes]; exact hstore) <| (hostWrite_endsOrKeepsPtr _ _ _ _).imp_right fun h => by
      rw [h, atPtr_twPtr]
      omega
  rw [he, hend]
  rfl

/-! ### The obligation -/

/-- Settles O40: each of the sixteen clauses is a lemma about its command. -/
theorem twoWireTargetAndController : Obligations.TwoWireTargetAndController := by
  unfold Obligations.TwoWireTargetAndController
  refine ⟨fun s p n bs stop h => twCommands_of_busy p n bs stop h,
    fun s p n hr hi htw hpec hp hn hlow hhigh hbad => exec_twRead_window hr hi htw hpec hp hn hlow hhigh hbad,
    fun s p b0 b1 b2 b3 hr htw hpec hp => exec_twWrite_word b0 b1 b2 b3 hr htw hpec hp,
    fun s bs hr htw hpec hne hlen hcode => exec_twWrite_of_bad hr htw hpec hne hlen hcode,
    fun s => ⟨twStretchTimeout_of_early, twSmbTimeout_of_off⟩,
    fun s r k htw hwait hlate hl hp hpec => exec_twStretchTimeout htw hwait hlate hl hp hpec,
    fun s hr hs hn => exec_twSmbTimeout hr hs hn,
    exec_twReset,
    fun s v hb hgo hw hr hlen => exec_twcGo_of_on hb hgo hw hr hlen,
    fun s v h => exec_twcGo_of_off h,
    fun s b h => exec_twcStart_of_off b h,
    fun s hb hon htw => ⟨exec_twcStart_none hb hon htw, fun b => ?_⟩,
    fun s k d c h => exec_twcDone_of_off k d c h,
    fun s k d c h => exec_twcDone_nack k d c h,
    fun s d c hon hpec hlen hne hc => exec_twcDone_of_bad hon hpec hlen hne hc,
    fun s d c hon h hlen hle => exec_twcDone_of_good hon h hlen hle⟩
  rw [exec_twcStart_some b hb hon htw]
  exact answersNext_next (twcLost_effects b hb)

end Sys2Proof.Machine
end

section
set_option Elab.async false
namespace Sys2Proof.Machine

/-! ### The angles of a fret (R27, R42, R50) -/

/-- Without a change over the cycle the fleet angle is the one at its start (R50). -/
theorem fleetAt_of_steady {s : State} (f : Nat) (h : s.time.fleetStep = 0) : fleetAt s f = s.time.fleetBase % 2 ^ 32 := by
  rw [fleetAt, h, Int.zero_mul, Int.zero_ediv, Int.add_zero]
  omega

theorem fleetAt_lt (s : State) (f : Nat) : fleetAt s f < 2 ^ 32 := by
  unfold fleetAt
  extract_lets k
  omega

/-- The part of the shared angle that the frets of the cycle make stays below a turn. -/
theorem cycleAngle_lt {k n : Nat} (h : k < n) : k * 2 ^ 32 / n < 2 ^ 32 := by
  rw [Nat.div_lt_iff_lt_mul (by omega), Nat.mul_comm]
  exact Nat.mul_lt_mul_of_pos_left h (by decide)

/-- With the fleet angle at 0 the shared angle is the frets' part alone. -/
theorem angleAt_of_fleet_zero {s : State} {f : Nat} (hb : s.time.fleetBase = 0) (hs : s.time.fleetStep = 0)
    (h : s.time.round * s.time.cfg.rlen + f < s.time.cfg.n) :
    angleAt s f = (s.time.round * s.time.cfg.rlen + f) * 2 ^ 32 / s.time.cfg.n := by
  rw [angleAt, fleetAt_of_steady f hs, hb]
  exact Nat.mod_eq_of_lt (cycleAngle_lt h)

/-- How far the shared angle has come from the fleet angle: the frets' part (R27). -/
theorem angleAt_sub_fleet {s : State} {f k : Nat} (hk : k = s.time.round * s.time.cfg.rlen + f) (hn : k < s.time.cfg.n) :
    (angleAt s f + (2 ^ 32 - fleetAt s f)) % 2 ^ 32 = k * 2 ^ 32 / s.time.cfg.n := by
  have hlt := cycleAngle_lt hn
  have hf := fleetAt_lt s f
  rw [angleAt, ← hk]
  generalize k * 2 ^ 32 / s.time.cfg.n = c at hlt ⊢
  omega

/-- The frets' part has reached `d` from the rounded-up fret of `d` on. -/
theorem le_cycleAngle_iff {d k n : Nat} (hn : 0 < n) : d ≤ k * 2 ^ 32 / n ↔ (d * n + (2 ^ 32 - 1)) / 2 ^ 32 ≤ k := by
  rw [Nat.le_div_iff_mul_le hn]
  omega

/-- Settles O2. -/
theorem cycleCountIncrementsAtAngleWrap : Obligations.CycleCountIncrementsAtAngleWrap := by
  unfold Obligations.CycleCountIncrementsAtAngleWrap
  refine ⟨fun s => answersNext_next ⟨rfl, rfl⟩, fun s hb hs hn => ⟨fun hr => ?_, fun f k hfk hk => ?_⟩⟩
  · rw [angleAt_of_fleet_zero hb hs (by rw [hr]; omega), hr]
    simp
  · rw [angleAt_of_fleet_zero hb hs (by omega), angleAt_of_fleet_zero hb hs hk]
    exact Nat.div_le_div_right (Nat.mul_le_mul_right _ (by omega))

/-- Settles O5: with φ taken away both angles are parts of the turn that the frets make. -/
theorem sharedAngleOfEveryFret : Obligations.SharedAngleOfEveryFret := by
  unfold Obligations.SharedAngleOfEveryFret
  refine ⟨fun s f k hk _ => by rw [angleAt, ← hk], fun s f k φ θ hk hn _ _ hb hs => ?_⟩
  have hφ : fleetAt s f = φ := (fleetAt_of_steady f hs).trans hb
  refine ⟨hφ, ?_⟩
  rw [← hφ, angleAt_sub_fleet hk hn]
  exact le_cycleAngle_iff (by omega)

end Sys2Proof.Machine
end

section
set_option Elab.async false
namespace Sys2Proof.Machine

/-! ### Mains samples, fleet writes and the mains qualification (R35, R37, R50) -/

/-- A whole register, read as a field. -/
theorem fget_wholeReg (s : State) (a : Nat) : fget s (wholeReg a) = (rd s a).toNat := by
  simp [fget, getBits, wholeReg, Nat.mod_eq_of_lt (rd s a).isLt]

/-- A conversion put into the pipeline is delivered after its delay (R80). -/
theorem delivers_put {α : Type} (p : Piped α) (t lat : Nat) (v : α) : Delivers p (p.put t lat v) t lat v :=
  fun k h => Piped.get_put p t lat v k h

/-- MAINS_SAMPLE_READY makes the conversion in progress usable (R35). -/
theorem exec_mainsSampleReady_of_due {s : State} (h : s.time.convDue = true) : exec .mainsSampleReady s =
    .next (setTime s fun t => { t with usable := t.usable.put t.conv.fret (mainsDelay s) t.conv, convDue := false }) := if_pos h

theorem exec_mainsSampleReady_of_not_due {s : State} (h : s.time.convDue = false) : exec .mainsSampleReady s = .next s :=
  if_neg (by rw [h]; decide)

/-- The state in which a waiting fleet angle has been taken (R50). -/
def fleetTaken (s : State) : State :=
  fputB (fput (setTime s fun t => { t with fleetPend := false, fleetTarget := fget s Fld.TIME_FLEET_FLEET })
    Fld.TIME_FLEET_EFF_FLEET_EFF (fleetAt s 0)) Fld.TIME_STATUS_FLEET_SLEW (fleetAt s 0 != fget s Fld.TIME_FLEET_FLEET)

theorem exec_fleetAngleApply_of_pend {s : State} (h : s.time.fleetPend = true) : exec .fleetAngleApply s = .next (fleetTaken s) :=
  if_pos h

theorem exec_fleetAngleApply_of_not_pend {s : State} (h : s.time.fleetPend = false) : exec .fleetAngleApply s = .next s :=
  if_neg (by rw [h]; decide)

/-- TIME_FLEET_EFF shows the effective angle. -/
theorem fleetEff_fleetTaken (s : State) : (rd (fleetTaken s) Reg.TIME_FLEET_EFF).toNat = fleetAt s 0 := by
  rw [← fget_wholeReg, fleetTaken, fputB, fget_fput_of_ne _ _ _ _ (by decide)]
  exact (fget_fput_self _ _ _ (by decide)).trans (Nat.mod_eq_of_lt (fleetAt_lt s 0))

/-- MAINS_QUALIFIED acts while its conditions hold and have held long enough (R37). -/
theorem exec_mainsQualified_of_held {s : State} (hc : s.time.condNow = true) (hr : s.time.cfg.ret ≤ s.time.retCount) :
    exec .mainsQualified s = .next (fput s Fld.TIME_STATUS_MAINS_QUAL 1) := if_pos ⟨hc, hr⟩

theorem exec_mainsQualified_of_not_held {s : State} (h : s.time.condNow = false ∨ s.time.retCount < s.time.cfg.ret) :
    exec .mainsQualified s = .next s := if_neg <| by
  rcases h with h | h
  · rw [h]; rintro ⟨h, _⟩; cases h
  · exact fun hc => absurd hc.2 (by omega)

/-- Settles O3: each clause is the answer of its command. -/
theorem timebaseSamplesAndFleetWrites : Obligations.TimebaseSamplesAndFleetWrites := by
  unfold Obligations.TimebaseSamplesAndFleetWrites
  refine ⟨fun s a b c n f => answersNext_next ⟨rfl, rfl, rfl, rfl, rfl⟩, fun s h => ?_, fun s h => ?_, fun s v => ?_,
    fun s h => ?_, fun s h => ?_, fun s hc hr => ?_, fun s h => ?_⟩
  · rw [exec_mainsSampleReady_of_due h]
    exact answersNext_next ⟨delivers_put _ _ _ _, rfl⟩
  · rw [exec_mainsSampleReady_of_not_due h]
    exact answersNext_next rfl
  · exact answersNext_next ⟨rd_wr_self s Reg.TIME_FLEET v, rfl, (SameBits.refl _ s).wr Reg.TIME_FLEET v (by decide), rfl⟩
  · rw [exec_fleetAngleApply_of_pend h]
    exact answersNext_next ⟨fget_wholeReg s Reg.TIME_FLEET, fleetEff_fleetTaken s,
      (bit_fputB_self _ _ _ (by decide) rfl).trans (by rw [← fget_wholeReg s Reg.TIME_FLEET]; rfl),
      (((SameBits.refl _ s).of_live rfl).fput _ _ (by decide)).fput _ _ (by decide), rfl⟩
  · rw [exec_fleetAngleApply_of_not_pend h]
    exact answersNext_next rfl
  · rw [exec_mainsQualified_of_held hc hr]
    exact answersNext_next ⟨bit_raise_self s _ (by decide) rfl, (SameBits.refl _ s).fput _ _ (by decide), rfl⟩
  · rw [exec_mainsQualified_of_not_held h]
    exact answersNext_next rfl

end Sys2Proof.Machine
end

section
set_option Elab.async false
namespace Sys2Proof.Machine

/-! ### Updates of registers alone -/

/-- `t` is `s` with registers written that `p` names, and nothing else. -/
structure WritesRegs (p : Nat → Bool) (s t : State) : Prop where
  regs : SameRegsOutside p s t
  only : t = { s with live := t.live }

section
variable {p : Nat → Bool} {s t u : State}

theorem WritesRegs.refl (p : Nat → Bool) (s : State) : WritesRegs p s s := ⟨SameRegsOutside.refl p s, rfl⟩

theorem WritesRegs.trans (h : WritesRegs p s t) (g : WritesRegs p t u) : WritesRegs p s u :=
  ⟨h.regs.trans g.regs, by rw [g.only, h.only]⟩

theorem WritesRegs.mono {q : Nat → Bool} (h : WritesRegs p s t) (hq : ∀ a, p a = true → q a = true) : WritesRegs q s t :=
  ⟨fun a ha => h.regs a (Bool.eq_false_iff.2 fun hp => by rw [hq a hp] at ha; cases ha), h.only⟩

theorem WritesRegs.wr (h : WritesRegs p s t) (a : Nat) (v : Word) (ha : p a = true) : WritesRegs p s (wr t a v) :=
  ⟨h.regs.wr a v ha, by rw [h.only]; rfl⟩

theorem WritesRegs.fput (h : WritesRegs p s t) (f : Field) (v : Nat) (hf : p f.addr = true) : WritesRegs p s (fput t f v) :=
  h.wr _ _ hf

theorem WritesRegs.wr64 (h : WritesRegs p s t) (lo hi v : Nat) (hl : p lo = true) (hh : p hi = true) :
    WritesRegs p s (wr64 t lo hi v) := (h.wr lo _ hl).wr hi _ hh

/-- A replica and snapshots put beside the registers. -/
theorem WritesRegs.withReplica (h : WritesRegs p s t) {m : List (Nat × Word)} (hu : u = { t with repl := m }) (g : SnapReq → SnapReq) :
    setRec u (fun x => { x with asked := x.asked.map g }) =
      { s with live := t.live, repl := u.repl, saddle := { s.saddle with asked := s.saddle.asked.map g } } := by
  rw [hu, h.only]
  rfl

/-- A fold of steps that write such registers writes such registers. -/
theorem writesRegs_foldl {α : Type} {f : State → α → State} (h : ∀ t x, WritesRegs p t (f t x)) (l : List α) (s : State) :
    WritesRegs p s (l.foldl f s) := foldl_keeps (WritesRegs p s) f (fun t x ht => ht.trans (h t x)) l s (.refl p s)

end

/-- A 64-bit number written to a pair of registers is read back. -/
theorem rd64_wr64 (s : State) {lo hi v : Nat} (hne : lo ≠ hi) (hv : v < 2 ^ 64) : rd64 (wr64 s lo hi v) lo hi = v := by
  rw [rd64, wr64, rd_wr_self, rd_wr_of_ne _ _ hne, rd_wr_self, BitVec.toNat_ofNat, BitVec.toNat_ofNat]
  omega

/-! ### Captures of a path (R58) -/

/-- The place of a capture tells its path and its register. -/
theorem capturePlace_inj {p q : Path} {a b : Nat} (ha : a < 2 ^ 32) (hb : b < 2 ^ 32)
    (h : p.idx * 2 ^ 32 + a = q.idx * 2 ^ 32 + b) : (p, a) = (q, b) := by
  have hi : p.idx = q.idx := by omega
  have hp : p = q := by
    revert hi
    cases p <;> cases q <;> decide
  rw [hp, show a = b by omega]

/-- A capture is read back on its path. -/
theorem capturedHi_captureTs_self (s : State) (path : Path) (a : Nat) : capturedHi (captureTs path a s) path a = hostSees s (a + 4) :=
  storeGet_storeSet_self ..

/-- Every other capture stays. -/
theorem capturedHi_captureTs_of_ne (s : State) {path p : Path} {a b : Nat} (ha : a < 2 ^ 32) (hb : b < 2 ^ 32) (h : (p, b) ≠ (path, a)) :
    capturedHi (captureTs path a s) p b = capturedHi s p b :=
  storeGet_storeSet_of_ne _ _ _ fun e => h (capturePlace_inj hb ha e)

theorem exec_tsLoCapture_of_tsLo {s : State} (path : Path) {a : Nat} (h : isTsLo a = true) :
    exec (.tsLoCapture path a) s = .next (captureTs path a s) := if_pos h

/-! ### The replica (R52, R57) -/

/-- What a store keeps of the keys that `p` names when it drops all others. -/
theorem storeGet_filter_of_kept {α : Type} (d : Nat → α) (p : Nat → Bool) (m : List (Nat × α)) {a : Nat} (h : p a = true) :
    storeGet d (m.filter fun e => p e.1) a = storeGet d m a := by
  induction m with
  | nil => rfl
  | cons e m ih =>
    obtain ⟨k, v⟩ := e
    by_cases hp : p k = true
    · rw [List.filter_cons_of_pos (by simpa using hp), storeGet, storeGet, ih]
    · have hk : k ≠ a := fun e => hp (e ▸ h)
      rw [List.filter_cons_of_neg (by simpa using hp), storeGet, if_neg hk, ih]

/-- The replicated registers behind those of TIME. -/
def isEngineReplica (a : Nat) : Bool := isReplica a && decide (0x1054 < a)

theorem writesRegs_timeRegs (s : State) : WritesRegs isReplica s (timeRegs s) := by
  unfold timeRegs
  extract_lets e al s1 s2 s3 s4 s5 s6 s7
  have h4 : WritesRegs isReplica s s4 := ((((WritesRegs.refl _ s).fput Fld.TIME_FREQ_FREQ _ (by decide)).fput Fld.TIME_GFREQ_GFREQ _
    (by decide)).fput Fld.TIME_GAMPL_GAMPL _ (by decide)).fput Fld.TIME_GANGLE_GANGLE _ (by decide)
  have h6 : WritesRegs isReplica s s6 := ((h4.fput Fld.TIME_ANGLE_ANGLE _ (by decide)).fput Fld.TIME_FLEET_EFF_FLEET_EFF _
    (by decide)).fput Fld.TIME_PERR_PERR _ (by decide)
  exact (h6.fput Fld.TIME_STATUS_ALIGNED _ (by decide)).wr64 _ _ _ (by decide) (by decide)

theorem stampE_lt (s : State) (f : Nat) : stampE s f < 2 ^ 64 := by
  have ha : angleAt s f < 2 ^ 32 := Nat.mod_lt _ (by decide)
  rw [stampE]
  omega

theorem stampI_lt (s : State) : stampI s < 2 ^ 64 := by
  have hl := (rdRepl s Reg.TIME_TS_LO).isLt
  have hh := (rdRepl s Reg.TIME_TS_HI).isLt
  rw [stampI]
  omega

/-- The timestamp registers then hold the stamp of this moment. -/
theorem rd64_timeRegs (s : State) : rd64 (timeRegs s) Reg.TIME_TS_LO Reg.TIME_TS_HI = stampE s 0 :=
  rd64_wr64 _ (by decide) (stampE_lt s 0)

theorem writesRegs_selectorRegs (s : State) : WritesRegs isEngineReplica s (selectorRegs s) := by
  have hp : ∀ h : Fin 4, isEngineReplica (Reg.CAPO_HSEL_OUT h) = true := by decide
  exact writesRegs_foldl (fun t h => (WritesRegs.refl _ t).wr _ _ (hp h)) _ _

/-- Showing a comparator writes its CMP_STATUS. -/
theorem writesRegs_showCmp (s : State) (p : Fin 32) (c : Fin 4) (k : Nat) :
    WritesRegs (· == Reg.CMP_STATUS p c) s (showCmp s p c k) := by
  have ho (b : Bool) : (outFld p c b).addr == Reg.CMP_STATUS p c := by cases b <;> exact beq_self_eq_true _
  have hl (b : Bool) : (latFld p c b).addr == Reg.CMP_STATUS p c := by cases b <;> exact beq_self_eq_true _
  unfold showCmp
  extract_lets s1 s2
  have h2 : WritesRegs (· == Reg.CMP_STATUS p c) s s2 := (((WritesRegs.refl _ s).fput _ _ (ho true)).fput _ _ (ho false)).fput
    (Fld.CMP_STATUS_BLANKED p c) _ (beq_self_eq_true _)
  split
  · exact h2
  · exact (h2.fput _ _ (hl true)).fput _ _ (hl false)

theorem writesRegs_cmpRegs (s : State) : WritesRegs isEngineReplica s (cmpRegs s) := by
  have hp : ∀ (p : Fin 32) (c : Fin 4), isEngineReplica (Reg.CMP_STATUS p c) = true := by decide +kernel
  have hc : ∀ (t : State) (p : Fin 32) (c : Fin 4) (k : Nat), WritesRegs isEngineReplica t (showCmp t p c k) := fun t p c k =>
    (writesRegs_showCmp t p c k).mono fun a ha => by rw [eq_of_beq ha]; exact hp p c
  exact writesRegs_foldl (fun t p => writesRegs_foldl (fun u c => hc u p c _) _ t) _ _

/-- The registers brought up to date, before the timestamp is held back. -/
def regsRefreshed (s : State) : State := cmpRegs (selectorRegs (timeRegs s))

theorem writesRegs_regsRefreshed (s : State) : WritesRegs isReplica s (regsRefreshed s) := by
  have hp : ∀ a, isEngineReplica a = true → isReplica a = true := fun a h => (Bool.and_eq_true _ _ ▸ h).1
  exact ((writesRegs_timeRegs s).trans ((writesRegs_selectorRegs _).mono hp)).trans ((writesRegs_cmpRegs _).mono hp)

/-- Selectors and comparators leave the timestamp. -/
theorem rd64_regsRefreshed (s : State) : rd64 (regsRefreshed s) Reg.TIME_TS_LO Reg.TIME_TS_HI = stampE s 0 := by
  have h : SameRegsOutside isEngineReplica (timeRegs s) (regsRefreshed s) := (writesRegs_selectorRegs _).regs.trans (writesRegs_cmpRegs _).regs
  rw [← rd64_timeRegs, rd64, rd64, h _ (by decide), h _ (by decide)]

/-- The registers that a refresh copies (R52). -/
def regsHeldBack (s : State) : State :=
  if stampE s 0 < stampI s then wr64 (regsRefreshed s) Reg.TIME_TS_LO Reg.TIME_TS_HI (stampI s) else regsRefreshed s

theorem refreshReplica_eq (s : State) :
    refreshReplica s = { regsHeldBack s with repl := (regsHeldBack s).live.filter fun e => isReplica e.1 } := by
  unfold refreshReplica regsHeldBack regsRefreshed
  rfl

theorem writesRegs_regsHeldBack (s : State) : WritesRegs isReplica s (regsHeldBack s) := by
  unfold regsHeldBack
  split
  · exact (writesRegs_regsRefreshed s).wr64 _ _ _ (by decide) (by decide)
  · exact writesRegs_regsRefreshed s

/-- The copied timestamp is never less than the one before (R52). -/
theorem stampI_le_rd64_regsHeldBack (s : State) : stampI s ≤ rd64 (regsHeldBack s) Reg.TIME_TS_LO Reg.TIME_TS_HI := by
  unfold regsHeldBack
  split
  · rw [rd64_wr64 _ (by decide) (stampI_lt s)]
  · rw [rd64_regsRefreshed]
    omega

theorem rdRepl_refreshReplica (s : State) {a : Nat} (h : isReplica a = true) : rdRepl (refreshReplica s) a = rd (regsHeldBack s) a := by
  rw [refreshReplica_eq]
  exact storeGet_filter_of_kept _ isReplica _ h

theorem stampI_refreshReplica (s : State) : stampI (refreshReplica s) = rd64 (regsHeldBack s) Reg.TIME_TS_LO Reg.TIME_TS_HI := by
  rw [stampI, rdRepl_refreshReplica s (by decide), rdRepl_refreshReplica s (by decide), rd64]

/-- A snapshot asked for takes its content from the refreshed replica, unless it has one (R422). -/
def snapHeld (s : State) (r : SnapReq) : SnapReq :=
  if r.got.isSome then r else { r with
    got := some (((List.range 8).filter fun m => (memberPort s r.course m).isSome).length, snapshotBody s r.course) }

theorem got_snapHeld (s : State) (r : SnapReq) : (snapHeld s r).got.isSome = true := by
  unfold snapHeld
  split
  · assumption
  · rfl

/-- The state after REPLICA_REFRESH. -/
def replicaRefreshed (s : State) : State :=
  setRec (refreshReplica s) fun x => { x with asked := x.asked.map (snapHeld (refreshReplica s)) }

theorem exec_replicaRefresh (s : State) : exec .replicaRefresh s = .next (replicaRefreshed s) := by
  change execReplicaRefresh s = _
  unfold execReplicaRefresh replicaRefreshed
  generalize refreshReplica s = t
  rfl

/-- REPLICA_REFRESH changes replicated registers, the replica and the snapshots asked for. -/
theorem replicaRefreshed_eq (s : State) : replicaRefreshed s = { s with
    live := (regsHeldBack s).live, repl := (refreshReplica s).repl
    saddle := { s.saddle with asked := s.saddle.asked.map (snapHeld (refreshReplica s)) } } := by
  unfold replicaRefreshed
  exact (writesRegs_regsHeldBack s).withReplica (refreshReplica_eq s) _

/-- A state whose parts beside registers, replica and snapshots asked for are those of `s` is told by these three. -/
theorem eq_of_replicaRefreshed {s t : State} {l r : List (Nat × Word)} {a : List SnapReq}
    (h : t = { s with live := l, repl := r, saddle := { s.saddle with asked := a } }) :
    t.live = l ∧ t.repl = r ∧ t.saddle.asked = a ∧
      t = { s with live := t.live, repl := t.repl, saddle := { s.saddle with asked := t.saddle.asked } } := by
  subst h
  exact ⟨rfl, rfl, rfl, rfl⟩

/-- What REPLICA_REFRESH leaves (R52, R57, R422). -/
theorem replicaRefreshed_effects (s : State) : let t := replicaRefreshed s
    (∀ a, isReplica a = true → rdRepl t a = rd t a) ∧ stampI s ≤ stampI t ∧ (∀ r ∈ t.saddle.asked, r.got.isSome = true) ∧
    t.saddle.asked.length = s.saddle.asked.length ∧ SameRegsOutside isReplica s t ∧
    t = { s with live := t.live, repl := t.repl, saddle := { s.saddle with asked := t.saddle.asked } } := by
  obtain ⟨hlive, hrepl, hasked, honly⟩ := eq_of_replicaRefreshed (replicaRefreshed_eq s)
  have hrd (a : Nat) : rd (replicaRefreshed s) a = rd (regsHeldBack s) a := by rw [rd, rd, hlive]
  have hcopy (a : Nat) : rdRepl (replicaRefreshed s) a = rdRepl (refreshReplica s) a := by rw [rdRepl, rdRepl, hrepl]
  have hstamp : stampI (replicaRefreshed s) = stampI (refreshReplica s) := by rw [stampI, stampI, hcopy, hcopy]
  refine ⟨fun a ha => ?_, ?_, fun r hr => ?_, ?_, fun a ha => ?_, honly⟩
  · rw [hcopy, hrd, rdRepl_refreshReplica s ha]
  · rw [hstamp, stampI_refreshReplica]
    exact stampI_le_rd64_regsHeldBack s
  · rw [hasked] at hr
    obtain ⟨q, _, rfl⟩ := List.mem_map.1 hr
    exact got_snapHeld _ q
  · rw [hasked, List.length_map]
  · rw [hrd, (writesRegs_regsHeldBack s).regs a ha]

/-- Settles O6, from the places of captures and the refreshed registers. -/
theorem timestampCapturesArePerPath : Obligations.TimestampCapturesArePerPath := by
  unfold Obligations.TimestampCapturesArePerPath
  refine ⟨fun s path a h ha => ?_, fun s => ?_⟩
  · rw [exec_tsLoCapture_of_tsLo path h]
    exact answersNext_next ⟨capturedHi_captureTs_self s path a, fun p b hb hne => capturedHi_captureTs_of_ne s ha hb hne, rfl⟩
  · rw [exec_replicaRefresh]
    exact answersNext_next (replicaRefreshed_effects s)

end Sys2Proof.Machine
end

section
set_option Elab.async false
namespace Sys2Proof.Machine

/-! ### What follows a fault beside a change of the device state -/

/-- Registers that a fault and its reaction write beside those of GLOBAL: of FAULT, REC, the feeds and the ports, and TEST_STATUS. -/
def reactReg (a : Nat) : Bool := faultOrRec a || decide (0x7000 ≤ a ∧ a < 0x8000) || portReg a || a == Reg.TEST_STATUS

/-- Those of them that are not FAULT_EVENT. -/
def sideReg (a : Nat) : Bool := reactReg a && a != Reg.FAULT_EVENT

/-- `t` is `s` after operations that follow a fault: GLOBAL and the supplies stay, and a fatal fault that is reported stays reported. -/
structure Reacts (s t : State) : Prop where
  regs : SameRegsOutside reactReg s t
  fatal : bit s Fld.FAULT_EVENT_FATAL = true → bit t Fld.FAULT_EVENT_FATAL = true
  power : t.power = s.power

section
variable {s t u : State}

theorem Reacts.refl (s : State) : Reacts s s := ⟨SameRegsOutside.refl _ s, id, rfl⟩

theorem Reacts.trans (h : Reacts s t) (g : Reacts t u) : Reacts s u :=
  ⟨h.regs.trans g.regs, fun e => g.fatal (h.fatal e), g.power.trans h.power⟩

/-- What lies beside registers and supplies is not spoken of. -/
theorem Reacts.of_live (h : Reacts s t) (hl : u.live = t.live) (hp : u.power = t.power) : Reacts s u :=
  ⟨h.regs.of_live hl, fun e => by rw [bit, fget, rd, hl]; exact h.fatal e, hp.trans h.power⟩

theorem Reacts.wr (h : Reacts s t) (a : Nat) (v : Word) (ha : sideReg a = true) : Reacts s (wr t a v) := by
  obtain ⟨hr, he⟩ := Bool.and_eq_true _ _ ▸ ha
  refine ⟨h.regs.wr a v hr, fun e => ?_, h.power⟩
  rw [bit, fget, rd_wr_of_ne _ _ (bne_iff_ne.1 he).symm]
  exact h.fatal e

theorem Reacts.fput (h : Reacts s t) (f : Field) (v : Nat) (hf : sideReg f.addr = true) : Reacts s (fput t f v) := h.wr _ _ hf

theorem Reacts.fputB (h : Reacts s t) (f : Field) (b : Bool) (hf : sideReg f.addr = true) : Reacts s (fputB t f b) := h.fput f _ hf

theorem Reacts.fputBit (h : Reacts s t) (f : Field) (n : Nat) (b : Bool) (hf : sideReg f.addr = true) : Reacts s (fputBit t f n b) :=
  h.fput f _ hf

theorem Reacts.inc (h : Reacts s t) (f : Field) (hf : sideReg f.addr = true) : Reacts s (inc t f) := h.fput f _ hf

/-- An event beside those of FAULT_EVENT. -/
theorem Reacts.event (h : Reacts s t) (f : Field) (hf : sideReg f.addr = true) : Reacts s (Machine.raise t f) := h.fput f _ hf

theorem Reacts.setFeed (h : Reacts s t) (f : Fin 8) (g : FeedSt → FeedSt) : Reacts s (setFeed t f g) := h.of_live rfl rfl

theorem Reacts.setTest (h : Reacts s t) (g : TestSt → TestSt) : Reacts s (setTest t g) := h.of_live rfl rfl

theorem Reacts.saddle (h : Reacts s t) (x : RecSt) : Reacts s { t with saddle := x } := h.of_live rfl rfl

theorem Reacts.syncPending (h : Reacts s t) : Reacts s (syncPending t) := (h.saddle _).fput Fld.REC_STATUS_PEND _ (by decide)

theorem Reacts.syncSnaps (h : Reacts s t) : Reacts s (syncSnaps t) := h.fput Fld.REC_STATUS_SPEND _ (by decide)

theorem Reacts.endFreeze (h : Reacts s t) : Reacts s (endFreeze t) := (h.saddle _).fput Fld.REC_STATUS_FROZEN 0 (by decide)

theorem Reacts.syncAlive (h : Reacts s t) : Reacts s (syncAlive t) := h.of_live rfl rfl

theorem Reacts.ledgerAdd (h : Reacts s t) (o n : Nat) : Reacts s (ledgerAdd t o n) := h.of_live rfl rfl

theorem Reacts.requestOff (h : Reacts s t) : Reacts s (requestOff t) := h.of_live rfl rfl

theorem Reacts.wr64 (h : Reacts s t) (lo hi v : Nat) (hl : sideReg lo = true) (hh : sideReg hi = true) : Reacts s (wr64 t lo hi v) :=
  (h.wr lo _ hl).wr hi _ hh

/-- An event of FAULT_EVENT is raised: the fatal one, or one beside it. -/
theorem Reacts.raise (h : Reacts s t) (f : Field) (hf : reactReg f.addr = true)
    (hb : f = Fld.FAULT_EVENT_FATAL ∨ Fld.FAULT_EVENT_FATAL.addr ≠ f.addr ∨ 3 ≤ f.lo ∨ f.lo + f.width ≤ 2) : Reacts s (raise t f) := by
  refine ⟨h.regs.raise f hf, fun e => ?_, h.power⟩
  rcases hb with rfl | hb
  · exact bit_raise_self _ _ (by decide) rfl
  · rw [Machine.raise, bit_fput_of_ne _ _ _ _ hb]
    exact h.fatal e

/-- A fold of such operations is one. -/
theorem reacts_foldl {α : Type} {f : State → α → State} (h : ∀ t x, Reacts t (f t x)) (l : List α) (s : State) : Reacts s (l.foldl f s) :=
  foldl_keeps (Reacts s) f (fun t x ht => ht.trans (h t x)) l s (.refl s)

/-- The device state is in GLOBAL. -/
theorem Reacts.devState_eq (h : Reacts s t) : devState t = devState s := by rw [devState, devState, fget, fget, h.regs _ (by decide)]

end

/-! ### Counts, records and corrected faults -/

/-- The count of a block is a register of FAULT. -/
theorem sideReg_bcnt {b : Nat} (h : b ≤ 12) : sideReg (Reg.FAULT_BCNT b) = true := by
  revert b
  decide

theorem reacts_countFault (s : State) (c cl k i ts : Nat) (hc : c / 256 ≤ 13) : Reacts s (countFault s c cl k i ts) := by
  unfold countFault
  extract_lets b s1 s2 s3 s4 s5
  have h1 : Reacts s s1 := (Reacts.refl s).inc _ (sideReg_bcnt (by omega))
  have h2 : Reacts s s2 := (((h1.fput Fld.FAULT_LAST_CODE c (by decide)).fput Fld.FAULT_LAST_CLASS cl (by decide)).fput
    Fld.FAULT_LAST_KIND k (by decide)).fput Fld.FAULT_LAST_INDEX i (by decide)
  have h4 : Reacts s s4 := (h2.wr64 _ _ _ (by decide) (by decide)).raise _ (by split <;> decide) (by split <;> decide)
  have h5 : Reacts s s5 := by
    simp only [s5]
    split
    · exact h4.fputBit Fld.FAULT_CORR_BLK _ _ (by decide)
    · exact h4
  exact h5.ledgerAdd _ _

/-- Counting a fatal fault raises its event (R386). -/
theorem fatal_countFault (s : State) (c k i ts : Nat) : bit (countFault s c 2 k i ts) Fld.FAULT_EVENT_FATAL = true := by
  unfold countFault
  extract_lets b s1 s2 s3 s4 s5
  rw [bit_ledgerAdd]
  exact bit_raise_self s3 Fld.FAULT_EVENT_FATAL (by decide) rfl

theorem reacts_recordLost (s : State) : Reacts s (recordLost s) := by
  unfold recordLost
  extract_lets s1
  have h1 : Reacts s s1 := ((Reacts.refl s).inc Fld.REC_CNT_LOST (by decide)).event Fld.REC_EVENT_LOST (by decide)
  split
  · exact h1
  · exact (h1.saddle { s1.saddle with full := true }).trans
      (reacts_countFault _ _ _ _ _ _ (by decide))

theorem reacts_pushRecord (s : State) (ty sv c ts : Nat) (p : List Byte) : Reacts s (pushRecord s ty sv c ts p) := by
  have hrec := (Reacts.refl s).saddle
  unfold pushRecord
  extract_lets r q
  split
  · exact (hrec _).syncPending
  · split
    · split
      · exact (hrec _).trans (reacts_recordLost _)
      · exact reacts_recordLost s
    · exact reacts_recordLost s

theorem reacts_reportCorrected (s : State) (c ts : Nat) (hc : c / 256 ≤ 13) : Reacts s (reportCorrected s c ts) := by
  refine (reacts_countFault s c 0 0 0 ts hc).trans ?_
  rw [reportCorrected]
  generalize countFault s c 0 0 0 ts = u
  have hn : Reacts u (noteRec u c) := (Reacts.refl u).of_live (noteRec_live u c) (by unfold noteRec; split <;> rfl)
  unfold correctedRecord
  extract_lets last held
  split
  · exact Reacts.refl u
  · exact hn.trans (reacts_pushRecord _ _ _ _ _ _)

/-! ### Entries, snapshots and frames -/

theorem reacts_askSnapshot (c cl ts : Nat) (q : Nat × Nat) (s : State) (k : Nat) : Reacts s (askSnapshot c cl ts q s k) := by
  unfold askSnapshot
  split
  · exact ((Reacts.refl s).event Fld.REC_EVENT_SNAP_LOST (by decide)).trans (reacts_reportCorrected _ _ _ (by decide))
  · exact ((Reacts.refl s).saddle _).syncSnaps

/-- What is sent over the Harness writes no register, and does not reach the supplies. -/
def sendLeaves (s : State) : List (Nat × Word) × PowerSt := (s.live, s.power)

theorem sendLeaves_sendOn (s : State) (p : HPort) (k : Nat) (q : Option HPort) (f : Frame) : sendLeaves (sendOn s p k q f) = sendLeaves s :=
  ite_eq_of sendLeaves _ _ _ _ rfl (ite_eq_of sendLeaves _ _ _ _ rfl rfl)

theorem sendLeaves_sendOwn (s : State) (k : Nat) (f : Frame) : sendLeaves (sendOwn s k f) = sendLeaves s := by
  unfold sendOwn
  split
  · rfl
  · extract_lets outs s1
    have h1 : sendLeaves s1 = sendLeaves s := frame_foldl sendLeaves _ (fun _ _ => sendLeaves_sendOn ..) _ _
    exact ite_eq_of sendLeaves _ _ _ _ h1 (ite_eq_of sendLeaves _ _ _ _ ((sendLeaves_sendOn ..).trans h1) h1)

theorem sendLeaves_setHarn (s : State) (g : HarnSt → HarnSt) : sendLeaves (setHarn s g) = sendLeaves s := rfl

theorem sendLeaves_nextSeq (s : State) : sendLeaves (nextSeq s) = sendLeaves s := rfl

theorem sendLeaves_sendFirst (s : State) (f : Frame) : sendLeaves (sendFirst s f) = sendLeaves s := sendLeaves_sendOwn s 3 f

theorem sendLeaves_sendEvt (s : State) (c cl ts : Nat) : sendLeaves (sendEvt s c cl ts) = sendLeaves s := by
  have hput (u : Bool) (f : Frame) : sendLeaves (putEvt s u f) = sendLeaves s := by
    unfold putEvt
    split
    · rw [sendLeaves_setHarn, sendLeaves_nextSeq]
      split
      · exact sendLeaves_sendFirst s f
      · exact sendLeaves_sendOwn s 3 f
    · split
      · split
        · rw [sendLeaves_nextSeq, sendLeaves_sendFirst, sendLeaves_setHarn]
        · rw [sendLeaves_nextSeq, sendLeaves_setHarn]
      · rfl
  exact ite_eq_of sendLeaves _ _ _ _ (hput _ _) rfl

theorem reacts_sendEvt (s : State) (c cl ts : Nat) : Reacts s (sendEvt s c cl ts) :=
  (Reacts.refl s).of_live (congrArg Prod.fst (sendLeaves_sendEvt s c cl ts)) (congrArg Prod.snd (sendLeaves_sendEvt s c cl ts))

/-- The registers of the 64 entries are registers of FAULT. -/
theorem sideReg_entry {e : Nat} (h : e < 64) : sideReg (Reg.FAULT_ENTRY_CODE e) = true ∧ sideReg (Reg.FAULT_ENTRY_CNT e) = true ∧
    sideReg (Reg.FAULT_ENTRY_TS_LO e) = true ∧ sideReg (Reg.FAULT_ENTRY_TS_HI e) = true := by
  revert e
  decide

theorem reacts_makeEntry (s : State) {e : Nat} (c cl k i ts : Nat) (he : e < 64) : Reacts s (makeEntry s e c cl k i ts) := by
  obtain ⟨hcode, hcnt, hlo, hhi⟩ := sideReg_entry he
  exact (((Reacts.refl s).wr _ _ hcode).wr _ _ hcnt).wr64 _ _ _ hlo hhi

theorem matchingEntry_lt {s : State} {c k i e : Nat} (h : matchingEntry s c k i = some e) : e < 64 :=
  List.mem_range.1 (List.mem_filter.1 (List.mem_of_find?_eq_some h)).1

theorem freeEntry_lt {s : State} {e : Nat} (h : freeEntry s = some e) : e < 64 := List.mem_range.1 (List.mem_of_find?_eq_some h)

/-! ### Feeds, ports and the summary -/

/-- The registers of the feeds. -/
theorem sideReg_feed : ∀ f : Fin 8, sideReg (Reg.FEED_STATUS f) = true ∧ sideReg (Reg.FEED_EVENT f) = true := by decide

theorem reacts_refreshSuspension (s : State) : Reacts s (refreshSuspension s) :=
  reacts_foldl (fun t f => by
    extract_lets was now s1
    have h1 : Reacts t s1 := (Reacts.refl t).fputB _ _ (sideReg_feed f).1
    split
    · exact h1.setFeed _ _
    · exact h1) _ _

theorem reacts_feedOut (s : State) (f : Fin 8) (g pc : Bool) : Reacts s (feedOut s f g pc) := by
  unfold feedOut
  extract_lets wasG was s1 s2 s3 s4
  have h2 : Reacts s s2 := ((((Reacts.refl s).fputB (Fld.FEED_STATUS_G f) g (sideReg_feed f).1).fputB (Fld.FEED_STATUS_PC f) pc
    (sideReg_feed f).1).fputBit Fld.FEED_SUMMARY_G f g (by decide)).fputBit Fld.FEED_SUMMARY_PC f pc (by decide)
  have h3 : Reacts s s3 := by
    simp only [s3]
    split
    · exact h2.event (Fld.FEED_EVENT_OPENED f) (sideReg_feed f).2
    · exact h2
  have h4 : Reacts s s4 := by
    simp only [s4]
    split
    · exact h3.setFeed _ _
    · exact h3
  exact h4.trans (reacts_refreshSuspension s4)

theorem Reacts.putFeedState {s t : State} (h : Reacts s t) (f : Fin 8) (x : FeedState) : Reacts s (putFeedState t f x) :=
  (h.fput (Fld.FEED_STATUS_STATE f) x.code (sideReg_feed f).1).fputBit Fld.FEED_SUMMARY_FAULT f (x == .fault) (by decide)

theorem reacts_feedClose (s : State) (f : Fin 8) : Reacts s (feedClose s f) := by
  unfold feedClose
  split
  · exact ((reacts_feedOut s f false true).putFeedState f .precharge).setFeed f _
  · exact (((reacts_feedOut s f true false).putFeedState f .on).event (Fld.FEED_EVENT_CLOSED f) (sideReg_feed f).2).setFeed f _

theorem reacts_feedQualify (s : State) (f : Fin 8) (w : Bool) : Reacts s (feedQualify s f w) := by
  unfold feedQualify
  extract_lets s1
  have h1 : Reacts s s1 := ((reacts_feedOut s f false false).putFeedState f .qualify).setFeed f _
  split
  · split
    · exact h1.trans (reacts_feedClose s1 f)
    · exact (h1.putFeedState f .insert).setFeed f _
  · exact h1

theorem reacts_feedRunLoss (s : State) (f : Fin 8) : Reacts s (feedRunLoss s f) := by
  unfold feedRunLoss
  extract_lets s1
  have h1 : Reacts s s1 := (reacts_feedOut s f false false).setFeed f _
  split
  · exact h1
  · exact h1
  · exact h1.putFeedState f .discharge

theorem reacts_refreshFeeds (s : State) : Reacts s (refreshFeeds s) :=
  reacts_foldl (fun t f => by
    unfold refreshFeed
    split
    · split
      · exact reacts_feedRunLoss t f
      · exact Reacts.refl t
    · split
      · exact reacts_feedQualify t f false
      · exact Reacts.refl t
    · exact Reacts.refl t
    · split
      · exact Reacts.refl t
      · exact reacts_feedRunLoss t f) _ _

/-- Registers of the ports alone, and the supplies left. -/
theorem reacts_of_portReg {s t : State} (h : SameRegsOutside portReg s t) (hp : t.power = s.power) : Reacts s t where
  regs := fun a ha => h a (by simp only [reactReg, Bool.or_eq_false_iff] at ha; exact ha.1.2)
  fatal := fun e => by rw [bit, fget, h _ (by decide)]; exact e
  power := hp

/-- Bringing the ports up to date leaves the supplies. -/
theorem refreshPorts_power (s : State) : (refreshPorts s).power = s.power := by
  have ha (t : State) (p : Fin 32) : (abortCapture t p).power = t.power := by
    unfold abortCapture
    split
    · split <;> rfl
    · rfl
  exact frame_foldl State.power _ (fun t p => by
    unfold refreshPort
    extract_lets cov pt en was settle inert pt' s1 s2
    exact ite_eq_of State.power _ _ _ _ (ha _ p) rfl) _ _

theorem reacts_refreshPorts (s : State) : Reacts s (refreshPorts s) := reacts_of_portReg (regs_refreshPorts s) (refreshPorts_power s)

theorem reacts_refreshFaultStatus (s : State) : Reacts s (refreshFaultStatus s) :=
  ((((Reacts.refl s).fputB Fld.FAULT_STATUS_SAFE _ (by decide)).fputB Fld.FAULT_STATUS_FULL _ (by decide)).fput Fld.FAULT_STATUS_NCONT _
    (by decide)).fput Fld.FAULT_STATUS_NFATAL _ (by decide)

/-- FAULT_STATUS.SAFE shows the device state (R406). -/
theorem safe_refreshFaultStatus (s : State) : bit (refreshFaultStatus s) Fld.FAULT_STATUS_SAFE = (devState s == .safe) := by
  unfold refreshFaultStatus
  extract_lets v n s1 s2 s3
  rw [bit_fput_of_ne _ _ _ _ (by decide)]
  simp only [s3, s2, fputB]
  rw [bit_fput_of_ne _ _ _ _ (by decide), bit_fput_of_ne _ _ _ _ (by decide)]
  exact bit_fputB_self s _ _ (by decide) rfl

/-! ### The entry into SAFE (R389, R458, R463) -/

/-- The registers of GLOBAL that a change of the device state itself writes (R458). -/
def stateEntered (s : State) (d : DevState) : State :=
  raise (setDev (fput s Fld.GLOBAL_STATE_PREV (devState s).code) d) Fld.GLOBAL_EVENT_STATE_CHG

theorem devState_of_code (s : State) (d : DevState) (h : fget s Fld.GLOBAL_STATE_STATE = d.code) : devState s = d := by
  rw [devState, h]
  cases d <;> rfl

theorem stateEntered_effects (s : State) (d : DevState) : let t := stateEntered s d
    devState t = d ∧ fget t Fld.GLOBAL_STATE_PREV = (devState s).code ∧ bit t Fld.GLOBAL_EVENT_STATE_CHG = true := by
  have hcode (d : DevState) : d.code % 2 ^ 3 = d.code := by cases d <;> rfl
  refine ⟨devState_of_code _ d ?_, ?_, bit_raise_self _ _ (by decide) rfl⟩
  · rw [stateEntered, raise, fget_fput_of_ne _ _ _ _ (by decide)]
    exact (fget_fput_self _ _ _ (by decide)).trans (hcode d)
  · rw [stateEntered, raise, fget_fput_of_ne _ _ _ _ (by decide), setDev, fget_fput_of_ne _ _ _ _ (by decide)]
    exact (fget_fput_self _ _ _ (by decide)).trans (hcode _)

/-- What else a change of the device state does beside an entry into TEST. -/
theorem reacts_changeState (s : State) {d : DevState} (hd : d ≠ .test) : Reacts (stateEntered s d) (changeState s d) := by
  unfold changeState
  extract_lets old s1 s1a s1t s2 s3 s4 s5
  have ha : s1a = stateEntered s d := if_neg (by simpa using hd)
  have ht : Reacts (stateEntered s d) s1t := by
    simp only [s1t, ha]
    split
    · exact (((Reacts.refl (stateEntered s d)).setTest _).fput
        Fld.TEST_STATUS_DBG 0 (by decide)).fput Fld.FAULT_FWD_STAT_FROZEN 0 (by decide)
    · exact Reacts.refl _
  have h2 : Reacts (stateEntered s d) s2 := ht.endFreeze
  have h4 : Reacts (stateEntered s d) s4 := (h2.trans (reacts_pushRecord ..)).syncAlive
  have h5 : Reacts (stateEntered s d) s5 := by
    simp only [s5]
    split
    · exact h4.requestOff
    · exact h4
  exact ((h5.trans (reacts_refreshFeeds s5)).trans (reacts_refreshPorts _)).trans (reacts_refreshFaultStatus _)

/-- Registers that a fault and all its reaction write: those of GLOBAL besides. -/
def reportReg (a : Nat) : Bool := decide (a < 0x1000) || reactReg a

theorem reportReg_of_reactReg {s t : State} (h : SameRegsOutside reactReg s t) : SameRegsOutside reportReg s t := fun a ha => h a (by
  simp only [reportReg, Bool.or_eq_false_iff] at ha
  exact ha.2)

/-- `t` is `s` after a fatal fault that has been counted: SAFE from the running states (R389), no change of state in the others, the mark of
a fatal fault in BOOT (R463). -/
structure FatalReacted (s t : State) : Prop where
  regs : SameRegsOutside reportReg s t
  fatal : bit s Fld.FAULT_EVENT_FATAL = true → bit t Fld.FAULT_EVENT_FATAL = true
  running : devState s = .idle ∨ devState s = .armed ∨ devState s = .test → devState t = .safe ∧
    fget t Fld.GLOBAL_STATE_PREV = (devState s).code ∧ bit t Fld.GLOBAL_EVENT_STATE_CHG = true
  resting : devState s = .boot ∨ devState s = .safe ∨ devState s = .hibernate ∨ devState s = .off → devState t = devState s ∧
    fget t Fld.GLOBAL_STATE_PREV = fget s Fld.GLOBAL_STATE_PREV ∧ bit t Fld.GLOBAL_EVENT_STATE_CHG = bit s Fld.GLOBAL_EVENT_STATE_CHG
  boot : devState s = .boot → t.power.bootFatal = true

section
variable {s t u : State}

/-- Registers of GLOBAL read as before what follows a fault. -/
theorem Reacts.global_eq (h : Reacts s t) : devState t = devState s ∧ fget t Fld.GLOBAL_STATE_PREV = fget s Fld.GLOBAL_STATE_PREV ∧
    bit t Fld.GLOBAL_EVENT_STATE_CHG = bit s Fld.GLOBAL_EVENT_STATE_CHG := by
  refine ⟨h.devState_eq, ?_, ?_⟩
  · rw [fget, fget, h.regs _ (by decide)]
  · rw [bit, bit, fget, fget, h.regs _ (by decide)]

/-- The reaction after such operations. -/
theorem FatalReacted.of_reacts (h : FatalReacted t u) (g : Reacts s t) : FatalReacted s u := by
  obtain ⟨hd, hp, hc⟩ := g.global_eq
  refine ⟨(reportReg_of_reactReg g.regs).trans h.regs, fun e => h.fatal (g.fatal e), fun hr => ?_, fun hr => ?_, fun hb => ?_⟩
  · rw [← hd] at hr ⊢
    exact h.running hr
  · rw [← hd] at hr ⊢
    rw [← hp, ← hc]
    exact h.resting hr
  · exact h.boot (hd.trans hb)

/-- Such operations after the reaction. -/
theorem FatalReacted.reacts (h : FatalReacted s t) (g : Reacts t u) : FatalReacted s u := by
  obtain ⟨hd, hp, hc⟩ := g.global_eq
  refine ⟨h.regs.trans (reportReg_of_reactReg g.regs), fun e => g.fatal (h.fatal e), fun hr => ?_, fun hr => ?_, fun hb => ?_⟩
  · rw [hd, hp, hc]
    exact h.running hr
  · rw [hd, hp, hc]
    exact h.resting hr
  · rw [g.power]
    exact h.boot hb

/-- Two fatal faults: the second finds SAFE, or the state that the first has left. -/
theorem FatalReacted.trans (h : FatalReacted s t) (g : FatalReacted t u) : FatalReacted s u := by
  refine ⟨h.regs.trans g.regs, fun e => g.fatal (h.fatal e), fun hr => ?_, fun hr => ?_, fun hb => ?_⟩
  · obtain ⟨hd, hp, hc⟩ := h.running hr
    obtain ⟨hd', hp', hc'⟩ := g.resting (.inr (.inl hd))
    exact ⟨hd'.trans hd, hp'.trans hp, hc'.trans hc⟩
  · obtain ⟨hd, hp, hc⟩ := h.resting hr
    obtain ⟨hd', hp', hc'⟩ := g.resting (by rwa [hd])
    exact ⟨hd'.trans hd, hp'.trans hp, hc'.trans hc⟩
  · exact g.boot ((h.resting (.inl hb)).1.trans hb)

/-- A state that neither reacts nor is BOOT. -/
theorem FatalReacted.of_still (hr : devState s = .safe ∨ devState s = .hibernate ∨ devState s = .off) : FatalReacted s s := by
  refine ⟨SameRegsOutside.refl _ s, id, fun h => ?_, fun _ => ⟨rfl, rfl, rfl⟩, fun h => ?_⟩
  · rcases h with h | h | h <;> rw [h] at hr <;> simp at hr
  · rw [h] at hr
    simp at hr

end

/-- The registers of GLOBAL that an abandoned arming writes leave FAULT_EVENT, the device state, PREV and STATE_CHG. -/
theorem abandonArm_leaves (s : State) (n : Nat) : let t := abandonArm s n
    SameRegsOutside reportReg s t ∧ bit t Fld.FAULT_EVENT_FATAL = bit s Fld.FAULT_EVENT_FATAL ∧ devState t = devState s ∧
    fget t Fld.GLOBAL_STATE_PREV = fget s Fld.GLOBAL_STATE_PREV ∧ bit t Fld.GLOBAL_EVENT_STATE_CHG = bit s Fld.GLOBAL_EVENT_STATE_CHG := by
  have h := sameBits_abandonArm s n
  refine ⟨?_, h.bit_eq (by decide), ?_, h.fget_eq (by decide), h.bit_eq (by decide)⟩
  · unfold abandonArm
    split
    · exact (((SameRegsOutside.refl _ s).fput _ _ (by decide)).fput _ _ (by decide)).raise _ (by decide)
    · exact SameRegsOutside.refl _ s
  · rw [devState, h.fget_eq (by decide), devState]

/-- The state before SAFE is entered: the request of HIBERNATE and the arming abandoned (R467, R469). -/
def safeReady (s : State) : State := abandonArm (fput s Fld.GLOBAL_STATE_HIB_PEND 0) 0x04

/-- SAFE entered from a running state. -/
theorem fatalReacted_safeReady {s : State} (hr : devState s = .idle ∨ devState s = .armed ∨ devState s = .test) :
    FatalReacted s (changeState (safeReady s) .safe) := by
  obtain ⟨hregs, hfatal, hdev, -, -⟩ := abandonArm_leaves (fput s Fld.GLOBAL_STATE_HIB_PEND 0) 0x04
  have hh : devState (fput s Fld.GLOBAL_STATE_HIB_PEND 0) = devState s := by
    rw [devState, fget_fput_of_ne _ _ _ _ (by decide), devState]
  obtain ⟨hd, hp, hc⟩ := stateEntered_effects (safeReady s) .safe
  have hg := reacts_changeState (safeReady s) (d := .safe) (by decide)
  obtain ⟨hd', hp', hc'⟩ := hg.global_eq
  have hent : SameRegsOutside reportReg s (stateEntered (safeReady s) .safe) :=
    (((((SameRegsOutside.refl _ s).fput Fld.GLOBAL_STATE_HIB_PEND 0 (by decide)).trans hregs).fput Fld.GLOBAL_STATE_PREV _
      (by decide)).fput Fld.GLOBAL_STATE_STATE _ (by decide)).raise Fld.GLOBAL_EVENT_STATE_CHG (by decide)
  refine ⟨hent.trans (reportReg_of_reactReg hg.regs), fun e => hg.fatal ?_, fun _ => ⟨hd'.trans hd, ?_, hc'.trans hc⟩, fun h => ?_, fun h => ?_⟩
  · rw [stateEntered, raise, bit_fput_of_ne _ _ _ _ (by decide), setDev, bit_fput_of_ne _ _ _ _ (by decide),
      bit_fput_of_ne _ _ _ _ (by decide), safeReady, hfatal, bit_fput_of_ne _ _ _ _ (by decide)]
    exact e
  · rw [hp', hp, safeReady, hdev, hh]
  · rcases hr with hr | hr | hr <;> rw [hr] at h <;> simp at h
  · rcases hr with hr | hr | hr <;> rw [hr] at h <;> simp at h

theorem fatalReacted_enterSafe (s : State) : FatalReacted s (enterSafe s) := by
  unfold enterSafe
  split
  · next h => exact fatalReacted_safeReady (.inl h)
  · next h => exact fatalReacted_safeReady (.inr (.inl h))
  · next h => exact fatalReacted_safeReady (.inr (.inr h))
  · next h =>
    obtain ⟨hregs, hfatal, hdev, hprev, hchg⟩ := abandonArm_leaves s 0x04
    refine ⟨hregs, fun e => hfatal.trans e, fun hr => ?_, fun _ => ⟨hdev, hprev, hchg⟩, fun hb => ?_⟩
    · rw [h] at hr
      simp at hr
    · rw [h] at hb
      cases hb
  · next h =>
    refine ⟨fun _ _ => rfl, id, fun hr => ?_, fun _ => ⟨rfl, rfl, rfl⟩, fun _ => rfl⟩
    rw [h] at hr
    simp at hr
  · next h1 h2 h3 h4 h5 =>
    refine FatalReacted.of_still ?_
    cases hd : devState s <;> simp_all

/-! ### A fatal fault reported (R386 to R390) -/

theorem fatalReacted_react (s : State) (c k i ts n : Nat) : FatalReacted s (react s c 2 k i ts n) := by
  unfold react
  extract_lets cs s1 s2 s3
  have h1 : Reacts s s1 := reacts_pushRecord ..
  have h2 : Reacts s s2 := h1.trans (reacts_foldl (reacts_askSnapshot c 2 ts (k, i)) _ _)
  exact (fatalReacted_enterSafe s3).of_reacts (h2.trans (reacts_sendEvt ..))

theorem fatalReacted_register (s : State) (c k i ts : Nat) : FatalReacted s (register s c 2 k i ts) := by
  unfold register
  split
  · next e he => exact (fatalReacted_react _ c k i ts _).of_reacts ((Reacts.refl s).inc _ (sideReg_entry (matchingEntry_lt he)).2.1)
  · split
    · next e he =>
      extract_lets s1 s2
      have h1 : Reacts s s1 := reacts_makeEntry s c 2 k i ts (freeEntry_lt he)
      have h2 : Reacts s s2 := by
        simp only [s2]
        split
        · exact h1.raise Fld.FAULT_EVENT_FULL (by decide) (by decide)
        · exact h1
      exact (fatalReacted_react _ c k i ts 0).of_reacts h2
    · exact (fatalReacted_react s c k i ts 0).trans
        ((fatalReacted_react _ 0x0A10 0 0 ts 0).of_reacts (reacts_countFault _ _ _ _ _ _ (by decide)))

/-- What the report of a fatal fault leaves: the reaction, its event, and FAULT_STATUS.SAFE by the state that it leads to. -/
theorem report_fatal (s : State) (c ts : Nat) (hc : c / 256 ≤ 13) : let t := report s c 2 0 0 ts
    FatalReacted s t ∧ bit t Fld.FAULT_EVENT_FATAL = true ∧ bit t Fld.FAULT_STATUS_SAFE = (devState t == .safe) := by
  have he : report s c 2 0 0 ts = refreshFaultStatus (refreshPorts (register (countFault s c 2 0 0 ts) c 2 0 0 ts)) := if_neg (by decide)
  have hreg := fatalReacted_register (countFault s c 2 0 0 ts) c 0 0 ts
  rw [he]
  generalize register (countFault s c 2 0 0 ts) c 2 0 0 ts = u at hreg
  have hfin := reacts_refreshFaultStatus (refreshPorts u)
  have hall := hreg.reacts ((reacts_refreshPorts u).trans hfin)
  refine ⟨hall.of_reacts (reacts_countFault s c 2 0 0 ts hc), hall.fatal (fatal_countFault s c 0 0 ts), ?_⟩
  rw [safe_refreshFaultStatus, hfin.devState_eq]

end Sys2Proof.Machine
end

section
set_option Elab.async false
namespace Sys2Proof.Machine

/-! ### What the parts of a round boundary leave of the round itself (R28, R83) -/

/-- The place in the local cycle, the rotation groups with their phases, and both memories. -/
def roundView (s : State) : (Nat × Nat × TimeCfg) × (Vector Nat 16 × List (List Nat)) × List (Nat × Byte) × List (Nat × Byte) :=
  ((s.time.round, s.time.base, s.time.cfg), (s.sched.phase, s.sched.groups), s.engMem, s.nvm)

/-- The registers outside the block SCHED. -/
def offSched (a : Nat) : Bool := !decide (0x2000 ≤ a ∧ a < 0x3000)

theorem offSched_of_le {a : Nat} (h : 0x3000 ≤ a) : offSched a = true := by
  simp only [offSched, Bool.not_eq_true', decide_eq_false_iff_not]
  omega

/-- `t` is `s` after operations that leave the round and the registers of SCHED. -/
structure RoundStep (s t : State) : Prop where
  regs : SameRegsOutside offSched s t
  view : roundView t = roundView s

section
variable {s t u : State}

theorem RoundStep.refl (s : State) : RoundStep s s := ⟨SameRegsOutside.refl _ s, rfl⟩

theorem RoundStep.trans (h : RoundStep s t) (g : RoundStep t u) : RoundStep s u := ⟨h.regs.trans g.regs, g.view.trans h.view⟩

theorem RoundStep.of_live (h : RoundStep s t) (hl : u.live = t.live) (hv : roundView u = roundView t) : RoundStep s u :=
  ⟨h.regs.of_live hl, hv.trans h.view⟩

theorem RoundStep.fput (h : RoundStep s t) (f : Field) (v : Nat) (hf : 0x3000 ≤ f.addr) : RoundStep s (fput t f v) :=
  ⟨h.regs.fput f v (offSched_of_le hf), h.view⟩

theorem RoundStep.fputB (h : RoundStep s t) (f : Field) (b : Bool) (hf : 0x3000 ≤ f.addr) : RoundStep s (fputB t f b) := h.fput f _ hf

theorem RoundStep.raise (h : RoundStep s t) (f : Field) (hf : 0x3000 ≤ f.addr) : RoundStep s (raise t f) := h.fput f 1 hf

theorem RoundStep.inc (h : RoundStep s t) (f : Field) (hf : 0x3000 ≤ f.addr) : RoundStep s (inc t f) := h.fput f _ hf

theorem RoundStep.setHk (h : RoundStep s t) (g : HkSt → HkSt) : RoundStep s (setHk t g) := h.of_live rfl rfl

theorem RoundStep.setCapo (h : RoundStep s t) (g : CapoSt → CapoSt) : RoundStep s (setCapo t g) := h.of_live rfl rfl

theorem RoundStep.setCmp (h : RoundStep s t) (p : Fin 32) (c : Fin 4) (g : CmpSt → CmpSt) : RoundStep s (setCmp t p c g) := h.of_live rfl rfl

theorem RoundStep.setLoop (h : RoundStep s t) (n : Fin 64) (g : LoopSt → LoopSt) : RoundStep s (setLoop t n g) := h.of_live rfl rfl

theorem RoundStep.setBatt (h : RoundStep s t) (b : Fin 2) (g : BattSt → BattSt) : RoundStep s (setBatt t b g) := h.of_live rfl rfl

theorem RoundStep.setGate (h : RoundStep s t) (p : Fin 32) (g : Gate) (f : GateSt → GateSt) : RoundStep s (setGate t p g f) :=
  h.of_live rfl rfl

theorem RoundStep.ports (h : RoundStep s t) (v : Vector PortSt 32) : RoundStep s { t with ports := v } := h.of_live rfl rfl

/-- The shared operations of faults and ports leave the round, where they leave the block SCHED. -/
theorem roundStep_of_stateFrame (h : stateFrame t = stateFrame s) (hr : SameRegsOutside offSched s t) : RoundStep s t :=
  ⟨hr, (congrArg roundView h :)⟩

/-- A fold of such operations is one. -/
theorem roundStep_foldl {α : Type} {f : State → α → State} (h : ∀ t x, RoundStep t (f t x)) (l : List α) (s : State) :
    RoundStep s (l.foldl f s) := foldl_keeps (RoundStep s) f (fun t x ht => ht.trans (h t x)) l s (.refl s)

/-- Either branch of a choice. -/
theorem RoundStep.ite {c : Prop} [Decidable c] (ht : RoundStep s t) (hu : RoundStep s u) : RoundStep s (if c then t else u) := by
  split
  · exact ht
  · exact hu

/-- The block SCHED stays where its registers do. -/
theorem RoundStep.rd_sched (h : RoundStep s t) : rd t Reg.SCHED_ROUNDS = rd s Reg.SCHED_ROUNDS := h.regs _ (by decide)

theorem RoundStep.engineRuns_eq (h : RoundStep s t) : engineRuns t = engineRuns s := by
  rw [engineRuns, bit, fget, h.regs _ (by decide)]
  rfl

end

/-! ### Edges of the gate outputs and zero-crossing windows at a boundary (R109, R125, R126) -/

/-- The registers of a port and of its comparators. -/
theorem le_portAddr (b : Nat) {i : Nat} (h : 0x3000 ≤ b) : 0x3000 ≤ b + 0x400 * i := by omega

theorem le_cmpAddr (b : Nat) {i j : Nat} (h : 0x3000 ≤ b) : 0x3000 ≤ b + 0x400 * i + 0x40 * j := by omega

theorem roundStep_edgeMade (s : State) (p : Fin 32) (g : Gate) (k : Nat) (rise : Bool) : RoundStep s (edgeMade s p g k rise) := by
  have he : RoundStep s (expectEdge s p g k rise) := by
    unfold expectEdge
    extract_lets pt
    split
    · split
      · exact (RoundStep.refl s).of_live rfl rfl
      · exact .refl s
    · exact .refl s
  exact he.trans (roundStep_foldl (fun t c => by
    extract_lets b
    exact RoundStep.ite (((RoundStep.refl t).setCmp p c _).fput _ _ (le_cmpAddr 0x10110 (by decide))) (.refl t)) _ _)

theorem roundStep_settleGates (s : State) (p : Fin 32) (k : Nat) : RoundStep s (settleGates s p k) :=
  roundStep_foldl (fun t g => by
    unfold settleGate
    split
    · exact (((RoundStep.refl t).setGate p g _).trans (roundStep_edgeMade _ p g _ false)).ite (.refl t)
    · exact .refl t) _ _

theorem roundStep_commandOn (p : Fin 32) (g : Gate) (k : Nat) (s : State) : RoundStep s (commandOn p g k s) := by
  unfold commandOn
  extract_lets s0 o early offT s1 s2 s3
  have h0 : RoundStep s s0 := roundStep_settleGates s p k
  have h2 : RoundStep s s2 := (h0.setGate p g.compl _).setGate p g _
  have h3 : RoundStep s s3 := (h2.raise _ (le_portAddr 0x10024 (by decide))).ite h2
  exact h0.ite ((h3.trans (roundStep_edgeMade s3 p g.compl k false)).ite h3)

theorem roundStep_zcRound (s : State) (p : Fin 32) : RoundStep s (zcRound s p) := by
  unfold zcRound
  extract_lets thp w pos neg win was s1 s2 t0 held s3 g
  have ha := le_portAddr 0x10020 (i := p) (by decide)
  have h1 : RoundStep s s1 := (RoundStep.refl s).fputB _ _ ha
  have h2 : RoundStep s s2 := h1.ite (h1.fputB _ _ ha)
  have h3 : RoundStep s s3 := h2.ports _
  refine RoundStep.ite (RoundStep.ite (RoundStep.ite h3 (RoundStep.ite (h3.trans (roundStep_commandOn ..)) ?_))
    (RoundStep.ite h2 (RoundStep.ite (h2.trans (roundStep_commandOn ..)) h2))) (.refl s)
  exact (h3.setGate p g _).trans (roundStep_edgeMade ..)

theorem roundStep_refreshPorts (s : State) : RoundStep s (refreshPorts s) :=
  roundStep_of_stateFrame (stateFrame_refreshPorts s) fun a ha => regs_refreshPorts s a (by
    simp only [offSched, Bool.not_eq_false', decide_eq_true_eq] at ha
    simp only [portReg, Bool.or_eq_false_iff, Bool.and_eq_false_iff, decide_eq_false_iff_not, beq_eq_false_iff_ne,
      Reg.TEST_PWM_STAT]
    omega)

theorem roundStep_portsRound (s : State) : RoundStep s (portsRound s) := by
  have hf (t : State) (p : Fin 32) : RoundStep t (roundFlags t p) :=
    ((RoundStep.refl t).ports _).fput _ _ (le_portAddr 0x10020 (by decide))
  exact (roundStep_foldl (fun t p => (hf t p).trans (roundStep_zcRound _ p)) _ s).trans (roundStep_refreshPorts _)

/-! ### Levels, sharing, gain regions and batteries at a boundary -/

theorem roundStep_levelsApply (s : State) : RoundStep s (levelsApply s) := ((RoundStep.refl s).setHk _).ite (.refl s)

theorem roundStep_trimRefs (s : State) : RoundStep s (trimRefs s) := by
  unfold trimRefs
  split
  · exact .refl s
  · exact (RoundStep.refl s).setHk _

theorem roundStep_regionRound (s : State) (n : Fin 64) : RoundStep s (regionRound s n) := by
  have hn (b : Nat) (h : 0x3000 ≤ b) : 0x3000 ≤ b + 0x200 * n.val := by omega
  unfold regionRound
  split
  · exact .refl s
  · exact ((RoundStep.refl s).setLoop n _).ite (((((RoundStep.refl s).setLoop n _).fput _ _ (hn 0x18010 (by decide))).inc _
      (hn 0x18020 (by decide))).raise _ (hn 0x18014 (by decide)))

theorem roundStep_battRound (s : State) : RoundStep s (battRound s) := by
  unfold battRound
  exact RoundStep.ite (roundStep_foldl (fun t b => (RoundStep.refl t).setBatt b _) _ s) (.refl s)

theorem roundStep_shareRound (s : State) : RoundStep s (shareRound s) := by
  unfold shareRound
  extract_lets ports sums cnts
  exact (RoundStep.refl s).setCapo _

theorem roundStep_capoRound (s : State) : RoundStep s (capoRound s) := by
  unfold capoRound
  extract_lets s1
  exact (roundStep_shareRound s).setCapo _

theorem roundStep_levelsArrive (s : State) : RoundStep s (levelsArrive s) := by
  unfold levelsArrive
  exact (RoundStep.refl s).setHk _

theorem roundStep_muteRound (s : State) : RoundStep s (muteRound s) := by
  unfold muteRound
  extract_lets r m
  exact (RoundStep.refl s).setHk _

/-- Everything at a round boundary behind the schedule. -/
def roundRest (s : State) : State :=
  battRound (trimRefs (portsRound (muteRound (levelsApply ((List.finRange 64).foldl regionRound (capoRound (levelsArrive s)))))))

theorem roundStep_roundRest (s : State) : RoundStep s (roundRest s) := by
  have h1 : RoundStep s (capoRound (levelsArrive s)) := (roundStep_levelsArrive s).trans (roundStep_capoRound _)
  have h2 := h1.trans (roundStep_foldl roundStep_regionRound (List.finRange 64) _)
  exact ((((h2.trans (roundStep_levelsApply _)).trans (roundStep_muteRound _)).trans (roundStep_portsRound _)).trans (roundStep_trimRefs _)).trans
    (roundStep_battRound _)

/-! ### The clock monitor, and the round that begins (R28, R43, R83, R96) -/

theorem roundStep_report_fatal (s : State) (c ts : Nat) (hc : c / 256 ≤ 13) : RoundStep s (report s c 2 0 0 ts) := by
  refine roundStep_of_stateFrame (stateFrame_report ..) fun a ha => (report_fatal s c ts hc).1.regs a ?_
  simp only [offSched, Bool.not_eq_false', decide_eq_true_eq] at ha
  simp only [reportReg, reactReg, faultOrRec, portReg, Bool.or_eq_false_iff, Bool.and_eq_false_iff, decide_eq_false_iff_not,
    beq_eq_false_iff_ne, Reg.TEST_PWM_STAT, Reg.TEST_STATUS]
  omega

theorem roundStep_clockMonitor (k : Nat) (b : Bool) (s : State) : RoundStep s (clockMonitor k b s) := by
  unfold clockMonitor
  extract_lets exempt lim bad s0 s1
  have h0 : RoundStep s s0 := (RoundStep.refl s).of_live rfl rfl
  have h1 : RoundStep s s1 := (h0.trans (roundStep_report_fatal s0 _ _ (by decide))).ite h0
  exact (RoundStep.refl s).ite (h1.ite (h1.trans (roundStep_report_fatal s1 _ _ (by decide))))

/-- The round has begun: its place, its schedule and the boundaries since a variant request (R28, R83, R89). -/
def roundBegun (s : State) : State := vselRound (roundSchedule (nextRound s))

theorem exec_roundBoundary (k : Nat) (b : Bool) (s : State) :
    exec (.roundBoundary k b) s = .next (roundRest (roundBegun (clockMonitor k b s))) := rfl

/-- The place of the round that begins. -/
theorem roundBegun_place (s : State) : let t := roundBegun s
    t.time.round = (if s.time.round + 1 < s.time.cfg.rpc then s.time.round + 1 else 0) ∧ t.time.base = s.time.base + s.time.cfg.rlen ∧
    t.engMem = s.engMem ∧ t.nvm = s.nvm := by
  have hv : ∀ u : State, (vselRound u).time = u.time ∧ (vselRound u).engMem = u.engMem ∧ (vselRound u).nvm = u.nvm := fun u =>
    ⟨rfl, rfl, rfl⟩
  have h : ∀ u : State, (roundSchedule u).time = u.time ∧ (roundSchedule u).engMem = u.engMem ∧ (roundSchedule u).nvm = u.nvm := fun u => by
    unfold roundSchedule
    split
    · extract_lets ph s1
      simp [s1]
    · exact ⟨rfl, rfl, rfl⟩
  obtain ⟨ht, he, hn⟩ := h (nextRound s)
  obtain ⟨ht', he', hn'⟩ := hv (roundSchedule (nextRound s))
  dsimp only [roundBegun]
  rw [ht', he', hn', ht, he, hn]
  exact ⟨rfl, rfl, rfl, rfl⟩

/-- While the engine runs, the counter and the phases advance (R83, R96). -/
theorem roundBegun_of_runs {s : State} (h : engineRuns s = true) : let t := roundBegun s
    rd t Reg.SCHED_ROUNDS = rd s Reg.SCHED_ROUNDS + 1 ∧ ∀ g : Fin 16, t.sched.phase.get g =
      (if s.sched.phase.get g + 1 < (s.sched.groups[g.val]?.getD []).length then s.sched.phase.get g + 1 else 0) := by
  have hs : roundSchedule (nextRound s) = _ := if_pos h
  refine ⟨?_, fun g => ?_⟩
  · rw [roundBegun, hs]
    exact rd_wr_self _ _ _
  · rw [roundBegun, hs]
    exact Vector.getElem_ofFn _

/-- While it does not run, neither does. -/
theorem roundBegun_of_stopped {s : State} (h : engineRuns s = false) : let t := roundBegun s
    rd t Reg.SCHED_ROUNDS = rd s Reg.SCHED_ROUNDS ∧ t.sched.phase = s.sched.phase := by
  have hs : roundSchedule (nextRound s) = nextRound s := if_neg (by rw [show engineRuns (nextRound s) = engineRuns s from rfl, h]; decide)
  rw [roundBegun, hs]
  exact ⟨rfl, rfl⟩

/-- What a view of the round tells. -/
theorem of_roundView {s t : State} (h : roundView t = roundView s) : t.time.round = s.time.round ∧ t.time.base = s.time.base ∧
    t.time.cfg = s.time.cfg ∧ t.sched.phase = s.sched.phase ∧ t.sched.groups = s.sched.groups ∧ t.engMem = s.engMem ∧ t.nvm = s.nvm := by
  simpa [roundView, and_assoc] using h

/-- Settles O9: the round begins between the clock monitor and what else a boundary does, which both leave it. -/
theorem roundBoundaryAdvancesTheRound : Obligations.RoundBoundaryAdvancesTheRound := by
  unfold Obligations.RoundBoundaryAdvancesTheRound
  intro s k b
  rw [exec_roundBoundary]
  have hm := roundStep_clockMonitor k b s
  generalize clockMonitor k b s = m at hm
  have hr := roundStep_roundRest (roundBegun m)
  generalize roundRest (roundBegun m) = t at hr
  obtain ⟨hround, hbase, hcfg, hphase, hgroups, heng, hnvm⟩ := of_roundView hm.view
  obtain ⟨hround', hbase', -, hphase', -, heng', hnvm'⟩ := of_roundView hr.view
  obtain ⟨hp, hq, he, hn⟩ := roundBegun_place m
  refine answersNext_next ⟨?_, ?_, ⟨fun o => ?_, fun o => ?_⟩, fun hrun => ?_, fun hstop => ?_⟩
  · rw [hround', hp, hround, hcfg]
  · rw [hbase', hq, hbase, hcfg]
  · rw [engByte, heng', he, heng, engByte]
  · rw [nvmByte, hnvm', hn, hnvm, nvmByte]
  · obtain ⟨hc, hph⟩ := roundBegun_of_runs (hm.engineRuns_eq.trans hrun)
    refine ⟨by rw [hr.rd_sched, hc, hm.rd_sched], fun g => ?_⟩
    rw [hphase', hph g, hphase, hgroups]
  · obtain ⟨hc, hph⟩ := roundBegun_of_stopped (hm.engineRuns_eq.trans hstop)
    exact ⟨by rw [hr.rd_sched, hc, hm.rd_sched], by rw [hphase', hph, hphase]⟩

end Sys2Proof.Machine
end

section
set_option Elab.async false
namespace Sys2Proof.Machine

/-! ### What the judgement of an evaluation leaves of it (R35, R37, R44) -/

/-- What an evaluation of the grid PLL makes, and both memories. -/
structure PllView where
  done : Bool
  used : MainsConv
  theta : Rat
  thetaAt : Nat
  freq : Rat
  sum : Rat
  vd : Rat
  err : Rat
  memory : List (Nat × Byte) × List (Nat × Byte)

def pllView (s : State) : PllView where
  done := s.time.pllDone
  used := s.time.used
  theta := s.time.thetaG
  thetaAt := s.time.thetaAt
  freq := s.time.gfreq
  sum := s.time.pllSum
  vd := s.time.vd
  err := s.time.perr
  memory := (s.engMem, s.nvm)

@[simp] theorem pllView_fput (s : State) (f : Field) (v : Nat) : pllView (fput s f v) = pllView s := rfl
@[simp] theorem pllView_fputB (s : State) (f : Field) (b : Bool) : pllView (fputB s f b) = pllView s := rfl
@[simp] theorem pllView_raise (s : State) (f : Field) : pllView (raise s f) = pllView s := rfl
@[simp] theorem pllView_inc (s : State) (f : Field) : pllView (inc s f) = pllView s := rfl
@[simp] theorem pllView_report (s : State) (c cl k i ts : Nat) : pllView (report s c cl k i ts) = pllView s :=
  (congrArg pllView (stateFrame_report s c cl k i ts) :)

@[simp] theorem pllView_enterHoldover (s : State) (f : Nat) : pllView (enterHoldover s f) = pllView s := by
  unfold enterHoldover
  extract_lets held s1 s2
  rw [pllView_report, pllView_fput, pllView_fput]
  rfl

@[simp] theorem pllView_loseSource (s : State) (f : Nat) (b : Bool) : pllView (loseSource s f b) = pllView s := by
  unfold loseSource
  extract_lets s1
  have h1 : pllView s1 = pllView s := by simp [s1]
  exact ite_eq_of pllView _ _ _ _ (ite_eq_of pllView _ _ _ _ (by simp [h1]) h1) rfl

@[simp] theorem pllView_mainsLost (s : State) (f : Nat) : pllView (mainsLost s f) = pllView s := by
  unfold mainsLost
  extract_lets s1
  have h1 : pllView s1 = pllView s := rfl
  exact ite_eq_of pllView _ _ _ _ (ite_eq_of pllView _ _ _ _ (by simp [h1]) h1) rfl

@[simp] theorem pllView_phaseJump (s0 s : State) (f : Nat) : pllView (phaseJump s0 s f) = pllView s := by
  unfold phaseJump
  extract_lets d s1
  exact ite_eq_of pllView _ _ _ _ (by rw [pllView_report]; rfl) rfl

@[simp] theorem pllView_judgeMains (s : State) (f : Nat) : pllView (judgeMains s f) = pllView s := by
  unfold judgeMains
  extract_lets locked was rev inWin s1 s2 s3 s4 cond v s5
  have h2 : pllView s2 = pllView s := ite_eq_of pllView _ _ _ _ (by simp [s1]) rfl
  have h3 : pllView s3 = pllView s := ite_eq_of pllView _ _ _ _ (by simp [h2]) h2
  have h5 : pllView s5 = pllView s := h3
  exact ite_eq_of pllView _ _ _ _ h5 (by simp [h5])

/-! ### One evaluation (R35, R526) -/

/-- The conversion that a PLL word at fret `f` reads (R35). -/
def pllConv (s : State) (f : Nat) : MainsConv := s.time.usable.get (absFret s f)

/-- θg at the sampling of that conversion, and the absolute fret it holds for (log entry 130). -/
def pllTheta (s : State) (f : Nat) : Rat :=
  if (pllConv s f).fret = s.time.used.fret then s.time.thetaG
  else s.time.thetaG + turnsFrom s s.time.gfreq s.time.thetaAt (pllConv s f).fret

def pllThetaAt (s : State) (f : Nat) : Nat := if (pllConv s f).fret = s.time.used.fret then s.time.thetaAt else (pllConv s f).fret

theorem readMains_eq (s : State) (f : Nat) : readMains s f = setTime s fun t =>
    { t with pllDone := true, used := pllConv s f, thetaG := pllTheta s f, thetaAt := pllThetaAt s f } := by
  by_cases h : (pllConv s f).fret = s.time.used.fret
  · rw [pllTheta, pllThetaAt, if_pos h, if_pos h]
    exact if_pos h
  · rw [pllTheta, pllThetaAt, if_neg h, if_neg h]
    exact if_neg h

/-- θg one round on at the estimate `w` (R35). -/
def thetaAfter (s : State) (w : Rat) : Rat := fracTurn (s.time.thetaG + turnsIn s w s.time.cfg.rlen)

/-- v_d, v_q and their ratio at the angle θg, and the estimate they make (R35; log entry 8). -/
def pllVd (s : State) : Rat := (alphaBeta s).1 * sinTurn s.time.thetaG - (alphaBeta s).2 * cosTurn s.time.thetaG

def pllVq (s : State) : Rat := (alphaBeta s).1 * cosTurn s.time.thetaG + (alphaBeta s).2 * sinTurn s.time.thetaG

def pllRatio (s : State) : Rat := if pllVd s = 0 then Config.pllNoAmplitude (pllVq s) else pllVq s / pllVd s

def pllEstimate (s : State) : Rat :=
  vwVal (rd s Reg.PLL_WFF) + vwVal (rd s Reg.PLL_KP) * pllRatio s + vwVal (rd s Reg.PLL_KI) * (s.time.pllSum + pllRatio s)

/-- The free run keeps the estimate and moves the angle on (R526). -/
theorem pllView_pllStep_of_loss {s : State} (h : inputLoss s = true) : pllView (pllStep s) =
    { pllView s with theta := thetaAfter s s.time.gfreq, thetaAt := s.time.thetaAt + s.time.cfg.rlen } := by
  rw [pllStep, if_pos h]
  rfl

/-- An evaluation makes a new estimate and moves the angle on by it (R35). -/
theorem pllView_pllStep_of_no_loss {s : State} (h : inputLoss s = false) : pllView (pllStep s) =
    { pllView s with
      theta := thetaAfter s (pllEstimate s), thetaAt := s.time.thetaAt + s.time.cfg.rlen, freq := pllEstimate s
      sum := s.time.pllSum + pllRatio s, vd := pllVd s, err := phaseOfRatio (pllRatio s) } := by
  rw [pllStep, if_neg (by rw [h]; decide)]
  rfl

/-! ### The PLL word (R35, R527) -/

theorem exec_pll_of_open {s : State} {l : LaneFields} (f : Nat) (hr : engineRuns s = true) (hl : selfRejected s 0x18 l = false)
    (hd : s.time.pllDone = false) :
    exec (.pll l f) s = .next (judgeMains (phaseJump s (pllStep (readMains s f)) f) f) :=
  if_neg (by rw [hr, hl, hd]; decide)

theorem exec_pll_of_closed {s : State} {l : LaneFields} (f : Nat)
    (h : s.time.pllDone = true ∨ engineRuns s = false ∨ selfRejected s 0x18 l = true) : exec (.pll l f) s = .next s :=
  if_pos (by rcases h with h | h | h <;> simp [h])

/-- What reading the conversion makes of the state (R35). -/
theorem readMains_effects (s : State) (f : Nat) : let m := readMains s f
    m.time.pllDone = true ∧ m.time.used = pllConv s f ∧ m.time.thetaG = pllTheta s f ∧ m.time.thetaAt = pllThetaAt s f ∧
    m.time.gfreq = s.time.gfreq ∧ m.time.pllSum = s.time.pllSum ∧ m.time.cfg = s.time.cfg ∧ (m.engMem, m.nvm) = (s.engMem, s.nvm) ∧
    m.live = s.live ∧ ∀ w, thetaAfter m w = fracTurn (pllTheta s f + turnsIn s w s.time.cfg.rlen) := by
  rw [readMains_eq]
  exact ⟨rfl, rfl, rfl, rfl, rfl, rfl, rfl, rfl, rfl, fun _ => rfl⟩

/-- What a PLL word leaves that makes the round's evaluation (R35, R526). -/
theorem pllWord_effects (s : State) (f : Nat) : let t := judgeMains (phaseJump s (pllStep (readMains s f)) f) f
    let m := readMains s f
    t.time.pllDone = true ∧ t.time.used = pllConv s f ∧ SameMemory s t ∧
    t.time.thetaG = fracTurn (pllTheta s f + turnsIn s t.time.gfreq s.time.cfg.rlen) ∧
    t.time.thetaAt = pllThetaAt s f + s.time.cfg.rlen ∧
    (bit s Fld.CAPO_STATUS_INPUT_LOSS = true → t.time.gfreq = s.time.gfreq ∧ t.time.pllSum = s.time.pllSum) ∧
    (bit s Fld.CAPO_STATUS_INPUT_LOSS = false → t.time.vd = pllVd m ∧ t.time.pllSum = s.time.pllSum + pllRatio m ∧
      t.time.perr = phaseOfRatio (pllRatio m) ∧ t.time.gfreq = pllEstimate m) := by
  have hview : pllView (judgeMains (phaseJump s (pllStep (readMains s f)) f) f) = pllView (pllStep (readMains s f)) := by
    rw [pllView_judgeMains, pllView_phaseJump]
  obtain ⟨hdone, hused, -, hat, hfreq, hsum, hcfg, hmem, hlive, hafter⟩ := readMains_effects s f
  have hloss : bit s Fld.CAPO_STATUS_INPUT_LOSS = inputLoss (readMains s f) := by rw [inputLoss, bit, bit, fget, fget, rd, rd, hlive]
  generalize judgeMains (phaseJump s (pllStep (readMains s f)) f) f = t at hview
  generalize readMains s f = m at *
  have memory {e n : List (Nat × Byte)} (h : (t.engMem, t.nvm) = (e, n)) (h' : (e, n) = (s.engMem, s.nvm)) : SameMemory s t := by
    obtain ⟨he, hn⟩ := Prod.mk.inj (h.trans h')
    exact ⟨fun o => by rw [engByte, engByte, he], fun o => by rw [nvmByte, nvmByte, hn]⟩
  rw [hloss]
  cases hl : inputLoss m with
  | true =>
    have hv := hview.trans (pllView_pllStep_of_loss hl)
    have hf : t.time.gfreq = s.time.gfreq := (congrArg PllView.freq hv).trans hfreq
    refine ⟨(congrArg PllView.done hv).trans hdone, (congrArg PllView.used hv).trans hused, memory (congrArg PllView.memory hv) hmem, ?_, ?_,
      fun _ => ⟨hf, (congrArg PllView.sum hv).trans hsum⟩, fun h => absurd h (by decide)⟩
    · rw [hf, ← hfreq]
      exact (congrArg PllView.theta hv).trans (hafter _)
    · rw [← hat, ← hcfg]
      exact congrArg PllView.thetaAt hv
  | false =>
    have hv := hview.trans (pllView_pllStep_of_no_loss hl)
    have hf : t.time.gfreq = pllEstimate m := congrArg PllView.freq hv
    refine ⟨(congrArg PllView.done hv).trans hdone, (congrArg PllView.used hv).trans hused, memory (congrArg PllView.memory hv) hmem, ?_, ?_,
      fun h => absurd h (by decide), fun _ => ⟨congrArg PllView.vd hv, ?_, congrArg PllView.err hv, hf⟩⟩
    · rw [hf]
      exact (congrArg PllView.theta hv).trans (hafter _)
    · rw [← hat, ← hcfg]
      exact congrArg PllView.thetaAt hv
    · rw [← hsum]
      exact congrArg PllView.sum hv

/-- The estimate, from the values before the conversion is read. -/
theorem pllEstimate_readMains (s : State) (f : Nat) : pllEstimate (readMains s f) = vwVal (rd s Reg.PLL_WFF) +
    vwVal (rd s Reg.PLL_KP) * pllRatio (readMains s f) + vwVal (rd s Reg.PLL_KI) * (s.time.pllSum + pllRatio (readMains s f)) := by
  obtain ⟨-, -, -, -, -, hsum, -, -, hlive, -⟩ := readMains_effects s f
  rw [pllEstimate, hsum, rd, rd, rd, hlive]
  rfl

/-- Settles O8: the judgement of the mains leaves what the evaluation makes of the conversion that it reads. -/
theorem gridPllEvaluatesOncePerRound : Obligations.GridPllEvaluatesOncePerRound := by
  unfold Obligations.GridPllEvaluatesOncePerRound
  refine ⟨fun s l f hr hl hd => ?_, fun s l f h => exec_pll_of_closed f h⟩
  rw [exec_pll_of_open f hr hl hd]
  obtain ⟨hdone, hused, hmem, htheta, hat, hloss, heval⟩ := pllWord_effects s f
  obtain ⟨-, -, hth, -⟩ := readMains_effects s f
  refine answersNext_next ⟨hdone, hused, hmem, htheta, hat, hloss, fun h => ?_⟩
  obtain ⟨hvd, hsum, herr, hfreq⟩ := heval h
  rw [pllEstimate_readMains] at hfreq
  simp only [pllRatio, pllVd, pllVq, hth] at hvd hsum herr hfreq
  exact ⟨hvd, hsum, herr, hfreq⟩

end Sys2Proof.Machine
end

section
set_option Elab.async false
namespace Sys2Proof.Machine

/-! ### Fields of TIME that an operation leaves -/

/-- Every field of the block TIME that shares no bit with `fs` reads after as before. -/
def TimeFields (fs : List Field) (s t : State) : Prop :=
  ∀ g : Field, decide (0x1000 ≤ g.addr ∧ g.addr < 0x2000) = true → apartFrom fs g = true → fget t g = fget s g

section
variable {fs gs : List Field} {s t u : State}

theorem TimeFields.refl (fs : List Field) (s : State) : TimeFields fs s s := fun _ _ _ => rfl

theorem TimeFields.trans (h : TimeFields fs s t) (g : TimeFields fs t u) : TimeFields fs s u :=
  fun f ha hf => (g f ha hf).trans (h f ha hf)

/-- More fields may change. -/
theorem TimeFields.mono (h : TimeFields fs s t) (hs : fs ⊆ gs) : TimeFields gs s t := fun f ha hf =>
  h f ha (List.all_eq_true.2 fun x hx => List.all_eq_true.1 hf x (hs hx))

theorem TimeFields.fput (h : TimeFields fs s t) (f : Field) (v : Nat) (hf : f ∈ fs) : TimeFields fs s (fput t f v) := fun g ha hg => by
  rw [fget_fput_of_ne _ _ _ _ (of_decide_eq_true (List.all_eq_true.1 hg f hf)), h g ha hg]

theorem TimeFields.fputB (h : TimeFields fs s t) (f : Field) (b : Bool) (hf : f ∈ fs) : TimeFields fs s (fputB t f b) := h.fput f _ hf

theorem TimeFields.raise (h : TimeFields fs s t) (f : Field) (hf : f ∈ fs) : TimeFields fs s (raise t f) := h.fput f 1 hf

theorem TimeFields.inc (h : TimeFields fs s t) (f : Field) (hf : f ∈ fs) : TimeFields fs s (inc t f) := h.fput f _ hf

theorem TimeFields.setTime (h : TimeFields fs s t) (f : TimeSt → TimeSt) : TimeFields fs s (setTime t f) := h

/-- Registers outside TIME may be written. -/
theorem TimeFields.of_regs {p : Nat → Bool} (h : TimeFields fs s t) (hr : SameRegsOutside p t u)
    (hp : ∀ a, 0x1000 ≤ a ∧ a < 0x2000 → p a = false) : TimeFields fs s u := fun g ha hg => by
  rw [fget, hr _ (hp _ (of_decide_eq_true ha)), ← h g ha hg, fget]

theorem faultOrRec_time (a : Nat) (h : 0x1000 ≤ a ∧ a < 0x2000) : faultOrRec a = false := by
  simp only [faultOrRec, Bool.or_eq_false_iff, decide_eq_false_iff_not]
  omega

/-- A corrected fault leaves TIME. -/
theorem TimeFields.report (h : TimeFields fs s t) (c k i ts : Nat) (hc : c / 256 ≤ 13) : TimeFields fs s (report t c 0 k i ts) :=
  h.of_regs (regs_reportCorrected t c ts hc) faultOrRec_time

/-- A record leaves TIME. -/
theorem TimeFields.pushRecord (h : TimeFields fs s t) (ty sv c ts : Nat) (p : List Byte) : TimeFields fs s (pushRecord t ty sv c ts p) :=
  h.of_regs (regs_pushRecord t ty sv c ts p) faultOrRec_time

theorem TimeFields.bit_eq (h : TimeFields fs s t) {g : Field} (ha : decide (0x1000 ≤ g.addr ∧ g.addr < 0x2000) = true)
    (hg : apartFrom fs g = true) : bit t g = bit s g := by rw [bit, h g ha hg, bit]

/-- The state of the timebase, where its field is left. -/
theorem TimeFields.tbState_eq (h : TimeFields fs s t) (hg : apartFrom fs Fld.TIME_STATUS_STATE = true) : tbState t = tbState s := by
  rw [tbState, h _ (by decide) hg, tbState]

end

/-- A corrected fault, by its class. -/
theorem report_corrected (s : State) (c k i ts : Nat) : report s c 0 k i ts = reportCorrected s c ts := if_pos rfl

/-- The code of R32 is the state. -/
theorem fget_setTb (s : State) (x : TbState) : fget (setTb s x) Fld.TIME_STATUS_STATE = x.code :=
  (fget_fput_self _ _ _ (by decide)).trans (by cases x <;> rfl)

/-! ### TRANSFER and HOLDOVER (R34, R45, R525) -/

theorem timeFields_startTransfer (s : State) (src : Nat) :
    TimeFields [Fld.TIME_STATUS_STATE, Fld.TIME_STATUS_SRC_ACT, Fld.TIME_EVENT_TRANSFER_START] s (startTransfer s src) :=
  (((TimeFields.refl _ s).fput _ _ (by decide)).fput _ _ (by decide)).raise _ (by decide)

/-- TRANSFER toward a source, with its event. -/
theorem startTransfer_effects (s : State) {src : Nat} (h : src < 4) : let t := startTransfer s src
    fget t Fld.TIME_STATUS_STATE = 2 ∧ srcAct t = src ∧ bit t Fld.TIME_EVENT_TRANSFER_START = true := by
  refine ⟨?_, ?_, bit_raise_self _ _ (by decide) rfl⟩
  · rw [startTransfer, raise, fget_fput_of_ne _ _ _ _ (by decide), fget_fput_of_ne _ _ _ _ (by decide), fget_setTb]
    rfl
  · rw [srcAct, startTransfer, raise, fget_fput_of_ne _ _ _ _ (by decide), fget_fput_self _ _ _ (by decide)]
    exact Nat.mod_eq_of_lt h

/-- The fields of TIME that an entry into HOLDOVER writes. -/
abbrev holdoverFields : List Field := [Fld.TIME_STATUS_STATE, Fld.TIME_EVENT_HOLD_ENTER, Fld.TIME_HOLD_FREQ_HOLD_FREQ,
  Fld.TIME_STATUS_SRC_ACT, Fld.TIME_STATUS_ALIGNED]

/-- The state in HOLDOVER, before its fault is reported. -/
def holdoverBegun (s : State) : State :=
  let s1 := fput (raise (setTb s .holdover) Fld.TIME_EVENT_HOLD_ENTER) Fld.TIME_HOLD_FREQ_HOLD_FREQ (toFreqReg (heldFreq s))
  fput (fput (setTime s1 fun t => { t with holdCount := 0, held := heldFreq s }) Fld.TIME_STATUS_SRC_ACT 1) Fld.TIME_STATUS_ALIGNED 0

theorem enterHoldover_eq (s : State) (f : Nat) : ∃ ts, enterHoldover s f = report (holdoverBegun s) 0x0302 0 0 0 ts := ⟨_, rfl⟩

theorem timeFields_holdoverBegun (s : State) : TimeFields holdoverFields s (holdoverBegun s) :=
  (((((TimeFields.refl _ s).fput Fld.TIME_STATUS_STATE _ (by decide)).raise Fld.TIME_EVENT_HOLD_ENTER (by decide)).fput
    Fld.TIME_HOLD_FREQ_HOLD_FREQ _ (by decide)).setTime _ |>.fput Fld.TIME_STATUS_SRC_ACT 1 (by decide)).fput Fld.TIME_STATUS_ALIGNED 0
    (by decide)

theorem timeFields_enterHoldover (s : State) (f : Nat) : TimeFields holdoverFields s (enterHoldover s f) := by
  obtain ⟨ts, h⟩ := enterHoldover_eq s f
  rw [h]
  exact (timeFields_holdoverBegun s).report _ _ _ _ (by decide)

/-- HOLDOVER without a source, with its event. -/
theorem enterHoldover_effects (s : State) (f : Nat) : let t := enterHoldover s f
    fget t Fld.TIME_STATUS_STATE = 4 ∧ srcAct t = 1 ∧ bit t Fld.TIME_EVENT_HOLD_ENTER = true := by
  obtain ⟨ts, h⟩ := enterHoldover_eq s f
  have hr : TimeFields [] (holdoverBegun s) (enterHoldover s f) := by
    rw [h]
    exact (TimeFields.refl _ _).report _ _ _ _ (by decide)
  refine ⟨(hr _ (by decide) rfl).trans ?_, (hr _ (by decide) rfl).trans ?_, (hr.bit_eq (by decide) rfl).trans ?_⟩
  · rw [holdoverBegun, fget_fput_of_ne _ _ _ _ (by decide), fget_fput_of_ne _ _ _ _ (by decide), fget_setTime,
      fget_fput_of_ne _ _ _ _ (by decide), raise, fget_fput_of_ne _ _ _ _ (by decide), fget_setTb]
    rfl
  · rw [holdoverBegun, fget_fput_of_ne _ _ _ _ (by decide), fget_fput_self _ _ _ (by decide)]
    rfl
  · rw [holdoverBegun, bit_fput_of_ne _ _ _ _ (by decide), bit_fput_of_ne _ _ _ _ (by decide), bit_setTime,
      bit_fput_of_ne _ _ _ _ (by decide)]
    exact bit_raise_self _ _ (by decide) rfl

/-- The loss of the steering source is marked and reported (R525). -/
def lossMarked (s : State) (f : Nat) : State :=
  report (inc (raise s Fld.TIME_EVENT_LOCK_LOSS) Fld.TIME_COUNT_LOSS_CNT) 0x0301 0 0 0
    (stampE (inc (raise s Fld.TIME_EVENT_LOCK_LOSS) Fld.TIME_COUNT_LOSS_CNT) f)

theorem loseSource_of_target {s : State} (f : Nat) (b : Bool) (h : hasTarget s = true) :
    loseSource s f b = if b then enterHoldover (lossMarked s f) f else lossMarked s f := if_pos h

theorem timeFields_lossMarked (s : State) (f : Nat) : TimeFields [Fld.TIME_EVENT_LOCK_LOSS, Fld.TIME_COUNT_LOSS_CNT] s (lossMarked s f) :=
  (((TimeFields.refl _ s).raise _ (by decide)).inc _ (by decide)).report _ _ _ _ (by decide)

theorem lockLoss_lossMarked (s : State) (f : Nat) : bit (lossMarked s f) Fld.TIME_EVENT_LOCK_LOSS = true := by
  have hr : TimeFields [Fld.TIME_COUNT_LOSS_CNT] (raise s Fld.TIME_EVENT_LOCK_LOSS) (lossMarked s f) :=
    ((TimeFields.refl _ _).inc _ (by decide)).report _ _ _ _ (by decide)
  exact (hr.bit_eq (by decide) (by decide)).trans (bit_raise_self _ _ (by decide) rfl)

/-! ### TUNING_MISS (R48) -/

/-- The loss of the Harness is marked (R48). -/
def tuningMarked (s : State) : State :=
  setTime (raise (fput s Fld.TIME_STATUS_HARN_VALID 0) Fld.TIME_EVENT_TUNING_MISS) fun t => { t with tunLost := true }

/-- The loss is marked and reported (R48). -/
def tuningReported (s : State) : State := report (tuningMarked s) 0x0305 0 0 0 (stampE (tuningMarked s) 0)

theorem exec_tuningMiss_of_missed {s : State} (hs : s.time.cfg.src = 2) (hr : isRoot s = false) (hm : 2 ≤ s.time.tunMissed)
    (hl : s.time.tunLost = false) : exec .tuningMiss s = .next (harnessLost (tuningReported s)) :=
  if_pos ⟨hs, by rw [hr]; rfl, hm, by rw [hl]; rfl⟩

theorem exec_tuningMiss_of_not_missed {s : State}
    (h : s.time.cfg.src ≠ 2 ∨ isRoot s = true ∨ s.time.tunMissed < 2 ∨ s.time.tunLost = true) : exec .tuningMiss s = .next s :=
  if_neg <| by
    rintro ⟨hs, hr, hm, hl⟩
    rcases h with h | h | h | h
    · exact h hs
    · simp [h] at hr
    · omega
    · simp [h] at hl

/-- The time that a report leaves. -/
theorem report_time (s : State) (c cl k i ts : Nat) : (report s c cl k i ts).time = s.time :=
  (congrArg State.time (stateFrame_report s c cl k i ts) :)

theorem tuningReported_time (s : State) : (tuningReported s).time = { s.time with tunLost := true } := by
  rw [tuningReported, report_time]
  rfl

theorem timeFields_tuningReported (s : State) :
    TimeFields [Fld.TIME_STATUS_HARN_VALID, Fld.TIME_EVENT_TUNING_MISS] s (tuningReported s) :=
  ((((TimeFields.refl _ s).fput _ _ (by decide)).raise _ (by decide)).setTime _).report _ _ _ _ (by decide)

theorem regs_tuningMarked (s : State) : SameRegsOutside (fun a => a == Reg.TIME_STATUS || a == Reg.TIME_EVENT) s (tuningMarked s) :=
  (((SameRegsOutside.refl _ s).fput Fld.TIME_STATUS_HARN_VALID 0 (by decide)).raise Fld.TIME_EVENT_TUNING_MISS (by decide)).of_live rfl

theorem regs_tuningReported (s : State) :
    SameRegsOutside (fun a => faultOrRec a || a == Reg.TIME_STATUS || a == Reg.TIME_EVENT) s (tuningReported s) := by
  rw [tuningReported, report_corrected]
  intro a ha
  simp only [Bool.or_assoc, Bool.or_eq_false_iff] at ha
  rw [regs_reportCorrected _ _ _ (by decide) a ha.1, regs_tuningMarked s a (Bool.or_eq_false_iff.2 ha.2)]

/-- The loss is reported (R48). -/
theorem correctedReported_tuningReported (s : State) : CorrectedReported s (tuningReported s) 0x0305 := by
  rw [tuningReported, report_corrected]
  exact (reportCorrected_counts _ 0x0305 _ (by decide)).of_rd (regs_tuningMarked s _ (by decide))

/-- The Harness is no longer valid, and the event is raised (R48). -/
theorem bits_tuningReported (s : State) : bit (tuningReported s) Fld.TIME_STATUS_HARN_VALID = false ∧
    bit (tuningReported s) Fld.TIME_EVENT_TUNING_MISS = true := by
  have hr : TimeFields [] (tuningMarked s) (tuningReported s) := (TimeFields.refl _ _).report _ _ _ _ (by decide)
  rw [hr.bit_eq (by decide) rfl, hr.bit_eq (by decide) rfl, tuningMarked, bit_setTime, bit_setTime]
  refine ⟨?_, bit_raise_self _ _ (by decide) rfl⟩
  rw [raise, bit_fput_of_ne _ _ _ _ (by decide)]
  exact bit_fputB_self s Fld.TIME_STATUS_HARN_VALID false (by decide) rfl

/-- The loss follows the fallback of the configuration (R48). -/
def fallbackTaken (s : State) : State := setTime s fun t => { t with fallback := t.cfg.fb }

/-- A timebase that does not steer by the Harness goes on. -/
theorem harnessLost_of_not_steering {s : State} (h : (hasTarget s && srcAct s == 2) = false) : harnessLost s = fallbackTaken s :=
  if_neg (show ¬(hasTarget s && srcAct s == 2) = true by rw [h]; decide)

/-- One that steers by it falls back to its qualified mains through TRANSFER (R48, R525). -/
theorem harnessLost_of_fallback {s : State} (h : (hasTarget s && srcAct s == 2) = true)
    (hf : (s.time.cfg.fb && bit s Fld.TIME_STATUS_MAINS_QUAL) = true) :
    harnessLost s = startTransfer (lossMarked (fallbackTaken s) 0) 0 := by
  have ht : hasTarget (fallbackTaken s) = true := ((Bool.and_eq_true _ _).mp h).1
  have hl : loseSource (fallbackTaken s) 0 false = lossMarked (fallbackTaken s) 0 := (loseSource_of_target 0 false ht).trans (if_neg (by decide))
  rw [← hl]
  exact (if_pos h).trans (if_pos hf)

/-- Without a fallback it holds over (R48, R525). -/
theorem harnessLost_of_no_fallback {s : State} (h : (hasTarget s && srcAct s == 2) = true)
    (hf : (s.time.cfg.fb && bit s Fld.TIME_STATUS_MAINS_QUAL) = false) :
    harnessLost s = enterHoldover (lossMarked (fallbackTaken s) 0) 0 := by
  have ht : hasTarget (fallbackTaken s) = true := ((Bool.and_eq_true _ _).mp h).1
  have hl : loseSource (fallbackTaken s) 0 true = enterHoldover (lossMarked (fallbackTaken s) 0) 0 :=
    (loseSource_of_target 0 true ht).trans (if_pos rfl)
  rw [← hl]
  exact (if_pos h).trans (if_neg (show ¬(s.time.cfg.fb && bit s Fld.TIME_STATUS_MAINS_QUAL) = true by rw [hf]; decide))

theorem timeFields_fallbackTaken (s : State) : TimeFields [] s (fallbackTaken s) := (TimeFields.refl _ s).setTime _

/-- The fields of TIME that the loss of the Harness writes, whatever follows from it. -/
abbrev lossFields : List Field := [Fld.TIME_EVENT_LOCK_LOSS, Fld.TIME_COUNT_LOSS_CNT, Fld.TIME_EVENT_TRANSFER_START] ++ holdoverFields

theorem timeFields_lossMarked_fallbackTaken (s : State) : TimeFields lossFields s (lossMarked (fallbackTaken s) 0) :=
  ((timeFields_fallbackTaken s).mono (by simp)).trans ((timeFields_lossMarked _ 0).mono (by simp))

theorem timeFields_harnessLost (s : State) : TimeFields lossFields s (harnessLost s) := by
  cases h : hasTarget s && srcAct s == 2 with
  | false =>
    rw [harnessLost_of_not_steering h]
    exact (timeFields_fallbackTaken s).mono (by simp)
  | true =>
    cases hf : s.time.cfg.fb && bit s Fld.TIME_STATUS_MAINS_QUAL with
    | true =>
      rw [harnessLost_of_fallback h hf]
      exact (timeFields_lossMarked_fallbackTaken s).trans ((timeFields_startTransfer _ 0).mono (by simp))
    | false =>
      rw [harnessLost_of_no_fallback h hf]
      exact (timeFields_lossMarked_fallbackTaken s).trans ((timeFields_enterHoldover _ 0).mono (by simp))

/-- What the loss of the steering Harness leads to (R48, R525). -/
theorem harnessLost_effects {s : State} (h : (hasTarget s && srcAct s == 2) = true) : let t := harnessLost s
    bit t Fld.TIME_EVENT_LOCK_LOSS = true ∧
    ((s.time.cfg.fb && bit s Fld.TIME_STATUS_MAINS_QUAL) = true →
      fget t Fld.TIME_STATUS_STATE = 2 ∧ srcAct t = 0 ∧ bit t Fld.TIME_EVENT_TRANSFER_START = true) ∧
    ((s.time.cfg.fb && bit s Fld.TIME_STATUS_MAINS_QUAL) = false →
      fget t Fld.TIME_STATUS_STATE = 4 ∧ srcAct t = 1 ∧ bit t Fld.TIME_EVENT_HOLD_ENTER = true) := by
  have hl := lockLoss_lossMarked (fallbackTaken s) 0
  cases hf : s.time.cfg.fb && bit s Fld.TIME_STATUS_MAINS_QUAL with
  | true =>
    rw [harnessLost_of_fallback h hf]
    exact ⟨((timeFields_startTransfer _ 0).bit_eq (by decide) (by decide)).trans hl, fun _ => startTransfer_effects _ (by decide),
      fun e => absurd e (by decide)⟩
  | false =>
    rw [harnessLost_of_no_fallback h hf]
    exact ⟨((timeFields_enterHoldover _ 0).bit_eq (by decide) (by decide)).trans hl, fun e => absurd e (by decide),
      fun _ => enterHoldover_effects _ 0⟩

/-- The loss leaves both memories and the mark that it has been reported. -/
def lossFrame (s : State) : List (Nat × Byte) × List (Nat × Byte) × Bool := (s.engMem, s.nvm, s.time.tunLost)

theorem lossFrame_report (s : State) (c cl k i ts : Nat) : lossFrame (report s c cl k i ts) = lossFrame s :=
  (congrArg lossFrame (stateFrame_report s c cl k i ts) :)

theorem lossFrame_fput (s : State) (f : Field) (v : Nat) : lossFrame (fput s f v) = lossFrame s := rfl

theorem lossFrame_lossMarked (s : State) (f : Nat) : lossFrame (lossMarked s f) = lossFrame s := by
  rw [lossMarked, lossFrame_report, inc, lossFrame_fput, raise, lossFrame_fput]

theorem lossFrame_holdoverBegun (s : State) : lossFrame (holdoverBegun s) = lossFrame s := by
  have h (u : State) (g : TimeSt → TimeSt) (hg : (g u.time).tunLost = u.time.tunLost) : lossFrame (setTime u g) = lossFrame u := by
    rw [lossFrame, lossFrame, ← hg]
    rfl
  rw [holdoverBegun, lossFrame_fput, lossFrame_fput, h _ _ rfl, lossFrame_fput, raise, lossFrame_fput, setTb, lossFrame_fput]

theorem lossFrame_enterHoldover (s : State) (f : Nat) : lossFrame (enterHoldover s f) = lossFrame s := by
  obtain ⟨ts, h⟩ := enterHoldover_eq s f
  rw [h, lossFrame_report, lossFrame_holdoverBegun]

theorem lossFrame_harnessLost (s : State) : lossFrame (harnessLost s) = lossFrame s := by
  have hb : lossFrame (fallbackTaken s) = lossFrame s := rfl
  have hm : lossFrame (lossMarked (fallbackTaken s) 0) = lossFrame s := (lossFrame_lossMarked _ 0).trans hb
  cases h : hasTarget s && srcAct s == 2 with
  | false => rw [harnessLost_of_not_steering h, hb]
  | true =>
    cases hf : s.time.cfg.fb && bit s Fld.TIME_STATUS_MAINS_QUAL with
    | true =>
      have hsrc (u : State) : lossFrame (startTransfer u 0) = lossFrame u := by
        rw [startTransfer, raise, lossFrame_fput, lossFrame_fput, setTb, lossFrame_fput]
      rw [harnessLost_of_fallback h hf, hsrc, hm]
    | false => rw [harnessLost_of_no_fallback h hf, lossFrame_enterHoldover, hm]

/-- Everything that TUNING_MISS of a follower does (R48, R525). -/
theorem tuningMiss_effects (s : State) : let t := harnessLost (tuningReported s)
    bit t Fld.TIME_STATUS_HARN_VALID = false ∧ bit t Fld.TIME_EVENT_TUNING_MISS = true ∧ t.time.tunLost = true ∧ SameMemory s t ∧
    ((hasTarget s = false ∨ srcAct s ≠ 2) → CorrectedReported s t 0x0305 ∧
      SameRegsOutside (fun a => faultOrRec a || a == Reg.TIME_STATUS || a == Reg.TIME_EVENT) s t) ∧
    (hasTarget s = true → srcAct s = 2 → bit t Fld.TIME_EVENT_LOCK_LOSS = true ∧
      ((s.time.cfg.fb = true ∧ bit s Fld.TIME_STATUS_MAINS_QUAL = true) →
        fget t Fld.TIME_STATUS_STATE = 2 ∧ srcAct t = 0 ∧ bit t Fld.TIME_EVENT_TRANSFER_START = true) ∧
      ((s.time.cfg.fb = false ∨ bit s Fld.TIME_STATUS_MAINS_QUAL = false) →
        fget t Fld.TIME_STATUS_STATE = 4 ∧ srcAct t = 1 ∧ bit t Fld.TIME_EVENT_HOLD_ENTER = true)) := by
  have hrep := timeFields_tuningReported s
  have hcfg : (tuningReported s).time.cfg = s.time.cfg := by rw [tuningReported_time]
  have hqual : bit (tuningReported s) Fld.TIME_STATUS_MAINS_QUAL = bit s Fld.TIME_STATUS_MAINS_QUAL := hrep.bit_eq (by decide) (by decide)
  have hsteer : (hasTarget (tuningReported s) && srcAct (tuningReported s) == 2) = (hasTarget s && srcAct s == 2) := by
    rw [hasTarget, hrep.tbState_eq (by decide), srcAct, hrep _ (by decide) (by decide)]
    rfl
  have hlost := timeFields_harnessLost (tuningReported s)
  obtain ⟨hvalid, hmiss⟩ := bits_tuningReported s
  have hframe : lossFrame (harnessLost (tuningReported s)) = (s.engMem, s.nvm, true) := by
    rw [lossFrame_harnessLost, tuningReported, lossFrame_report]
    rfl
  obtain ⟨heng, hnvm, htun⟩ : _ ∧ _ ∧ _ := by simpa only [lossFrame, Prod.mk.injEq] using hframe
  refine ⟨(hlost.bit_eq (by decide) (by decide)).trans hvalid, (hlost.bit_eq (by decide) (by decide)).trans hmiss, htun,
    ⟨fun o => by rw [engByte, engByte, heng], fun o => by rw [nvmByte, nvmByte, hnvm]⟩, fun h => ?_, fun ht hs => ?_⟩
  · have hn : (hasTarget s && srcAct s == 2) = false := by simpa only [Bool.and_eq_false_iff, beq_eq_false_iff_ne] using h
    rw [harnessLost_of_not_steering (hsteer.trans hn)]
    exact ⟨correctedReported_tuningReported s, regs_tuningReported s⟩
  · have hy : (hasTarget s && srcAct s == 2) = true := by rw [ht, hs]; rfl
    obtain ⟨hloss, hfall, hhold⟩ := harnessLost_effects (hsteer.trans hy)
    rw [hcfg, hqual] at hfall hhold
    exact ⟨hloss, fun ⟨hf, hq⟩ => hfall (by rw [hf, hq]; rfl), fun h => hhold (by simpa only [Bool.and_eq_false_iff] using h)⟩

end Sys2Proof.Machine
end

section
set_option Elab.async false
namespace Sys2Proof.Machine

/-! ### The last fault (R386) -/

/-- A counted fault is the last one. -/
theorem last_countFault (s : State) (c cl k i ts : Nat) : let t := countFault s c cl k i ts
    fget t Fld.FAULT_LAST_CODE = c % 2 ^ 16 ∧ fget t Fld.FAULT_LAST_CLASS = cl % 2 ^ Fld.FAULT_LAST_CLASS.width := by
  unfold countFault
  extract_lets b s1 s2 s3 s4 s5
  have h5 (f : Field) (hf : f.addr = Reg.FAULT_LAST) : fget s5 f = fget s4 f := by
    simp only [s5]
    split
    · exact fget_fput_of_ne _ _ _ _ (.inl (by rw [hf]; decide))
    · rfl
  have h4 (f : Field) (hf : f.addr = Reg.FAULT_LAST) : fget s4 f = fget s3 f :=
    fget_fput_of_ne _ _ _ _ (.inl (by rw [hf]; split <;> decide))
  have h3 (f : Field) (hf : f.addr = Reg.FAULT_LAST) : fget s3 f = fget s2 f := by
    simp only [s3, wr64, fget, hf]
    rw [rd_wr_of_ne _ _ (by decide), rd_wr_of_ne _ _ (by decide)]
  have h (f : Field) (hf : f.addr = Reg.FAULT_LAST) : fget (ledgerAdd s5 (faultLedgerOff b) 1) f = fget s2 f := by
    rw [fget_ledgerAdd, h5 f hf, h4 f hf, h3 f hf]
  refine ⟨(h _ rfl).trans ?_, (h _ rfl).trans ?_⟩
  · simp only [s2]
    rw [fget_fput_of_ne _ _ _ _ (by decide), fget_fput_of_ne _ _ _ _ (by decide), fget_fput_of_ne _ _ _ _ (by decide)]
    exact fget_fput_self _ _ _ (by decide)
  · simp only [s2]
    rw [fget_fput_of_ne _ _ _ _ (by decide), fget_fput_of_ne _ _ _ _ (by decide)]
    exact fget_fput_self _ _ _ (by decide)

/-- Counting a fault leaves the pending records. -/
theorem pending_countFault (s : State) (c cl k i ts : Nat) : (countFault s c cl k i ts).saddle.pending = s.saddle.pending := by
  unfold countFault
  extract_lets b s1 s2 s3 s4 s5
  have h4 : s4.saddle.pending = s.saddle.pending := rfl
  have h5 : s5.saddle.pending = s4.saddle.pending := by
    simp only [s5]
    split <;> rfl
  exact h5.trans h4

/-- With room in the queue a record writes REC_STATUS only (R413). -/
theorem rd_pushRecord_of_room {s : State} (h : s.saddle.pending.length < 128) (ty sv c ts : Nat) (p : List Byte) {a : Nat}
    (ha : a ≠ Reg.REC_STATUS) : rd (pushRecord s ty sv c ts p) a = rd s a := by
  unfold pushRecord
  extract_lets r q
  rw [if_pos h, syncPending, rd_fput_of_ne _ _ ha]
  rfl

/-- So does the record of a corrected fault. -/
theorem rd_correctedRecord_of_room {s : State} (h : s.saddle.pending.length < 128) (c k i ts : Nat) {a : Nat}
    (ha : a ≠ Reg.REC_STATUS) : rd (correctedRecord s c k i ts) a = rd s a := by
  have hp : (noteRec s c).saddle.pending = s.saddle.pending := by
    unfold noteRec
    split <;> rfl
  unfold correctedRecord
  extract_lets last held
  split
  · rfl
  · rw [rd_pushRecord_of_room (by rwa [hp]) _ _ _ _ _ ha, rd, noteRec_live, rd]

/-- With room for its record a corrected fault is the last fault (R386, R413). -/
theorem last_reportCorrected {s : State} (h : s.saddle.pending.length < 128) {c : Nat} (hc : c < 2 ^ 16) (ts : Nat) :
    fget (reportCorrected s c ts) Fld.FAULT_LAST_CODE = c ∧ fget (reportCorrected s c ts) Fld.FAULT_LAST_CLASS = 0 := by
  obtain ⟨hcode, hclass⟩ := last_countFault s c 0 0 0 ts
  have hrd := rd_correctedRecord_of_room (s := countFault s c 0 0 0 ts) (by rwa [pending_countFault]) c 0 0 ts
    (a := Reg.FAULT_LAST) (by decide)
  refine ⟨?_, ?_⟩
  · rw [reportCorrected, fget, hrd]
    exact hcode.trans (Nat.mod_eq_of_lt hc)
  · rw [reportCorrected, fget, hrd]
    exact hclass

/-! ### XTAL_FAIL and LFXTAL_FAIL (R43, R55) -/

/-- The main crystal is marked as failed. -/
def xtalMarked (s : State) : State := { s with power := { s.power with xtalBad := true } }

/-- A fault leaves the mark. -/
theorem xtalBad_of_stateFrame {s t : State} (h : stateFrame t = stateFrame s) : t.power.xtalBad = s.power.xtalBad :=
  (congrArg (fun u => u.power.xtalBad) h :)

/-- A failure of the main crystal is reported as fatal, and the device leaves its running states for SAFE (R43, R389, R463). -/
theorem xtalFail_effects (s : State) (ts : Nat) : let t := report (xtalMarked s) 0x0309 2 0 0 ts
    bit t Fld.FAULT_EVENT_FATAL = true ∧ SameMemory s t ∧ t.power.xtalBad = true ∧
    ((devState s = .idle ∨ devState s = .armed ∨ devState s = .test) →
      devState t = .safe ∧ fget t Fld.GLOBAL_STATE_PREV = (devState s).code ∧ bit t Fld.GLOBAL_EVENT_STATE_CHG = true ∧
      bit t Fld.FAULT_STATUS_SAFE = true) ∧
    ((devState s = .boot ∨ devState s = .safe ∨ devState s = .hibernate ∨ devState s = .off) → devState t = devState s) ∧
    (devState s = .boot → t.power.bootFatal = true) := by
  obtain ⟨hreact, hfatal, hsafe⟩ := report_fatal (xtalMarked s) 0x0309 ts (by decide)
  have hframe := stateFrame_report (xtalMarked s) 0x0309 2 0 0 ts
  have hbad : (report (xtalMarked s) 0x0309 2 0 0 ts).power.xtalBad = true := xtalBad_of_stateFrame hframe
  have hmem : SameMemory s (xtalMarked s) := ⟨fun _ => rfl, fun _ => rfl⟩
  generalize report (xtalMarked s) 0x0309 2 0 0 ts = t at *
  obtain ⟨heng, hnvm⟩ := sameMemory_of_stateFrame hframe
  refine ⟨hfatal, ⟨fun o => (heng o).trans (hmem.1 o), fun o => (hnvm o).trans (hmem.2 o)⟩, hbad, fun hr => ?_, fun hr => (hreact.resting hr).1,
    hreact.boot⟩
  obtain ⟨hd, hp, hc⟩ := hreact.running hr
  exact ⟨hd, hp, hc, by rw [hsafe, hd]; rfl⟩

/-- A failure of the 32.768 kHz crystal is a corrected fault and nothing else (R55, R386). -/
theorem lfxtalFail_effects (s : State) (ts : Nat) : let t := report s 0x030A 0 0 0 ts
    CorrectedReported s t 0x030A ∧
    (s.saddle.pending.length < 128 → fget t Fld.FAULT_LAST_CODE = 0x030A ∧ fget t Fld.FAULT_LAST_CLASS = 0) ∧
    SameRegsOutside faultOrRec s t ∧ t = { s with live := t.live, fault := t.fault, saddle := t.saddle } := by
  rw [report_corrected]
  have honly := reportCorrected_only s 0x030A ts
  exact ⟨reportCorrected_counts s 0x030A ts (by decide), fun h => last_reportCorrected h (by decide) ts,
    regs_reportCorrected s 0x030A ts (by decide), honly⟩

theorem exec_lfxtalFail (s : State) : exec .lfxtalFail s = .next (report s 0x030A 0 0 0 (stampI s)) := by
  unfold exec execLfxtalFail
  rfl

theorem exec_xtalFail (s : State) : exec .xtalFail s = .next (report (xtalMarked s) 0x0309 2 0 0 (stampI s)) := by
  unfold exec execXtalFail
  rfl

/-- Settles O7: the loss of the Harness is followed through its marks and its consequence, one lemma each; a corrected fault writes FAULT and
REC, and a fatal one is followed to the device state that its reaction leaves. -/
theorem timebaseLossesAndCrystals : Obligations.TimebaseLossesAndCrystals := by
  unfold Obligations.TimebaseLossesAndCrystals
  refine ⟨fun s hs hr hm hl => ?_, fun s h => ?_, fun s => ?_, fun s => ?_⟩
  · rw [exec_tuningMiss_of_missed hs hr hm hl]
    exact answersNext_next (tuningMiss_effects s)
  · rw [exec_tuningMiss_of_not_missed h]
    exact answersNext_next rfl
  · rw [exec_lfxtalFail]
    exact answersNext_next (lfxtalFail_effects s (stampI s))
  · rw [exec_xtalFail]
    exact answersNext_next (xtalFail_effects s (stampI s))

end Sys2Proof.Machine
end

section
set_option Elab.async false
namespace Sys2Proof.Machine

/-! ### What paces the engine -/

/-- The engine frequency with all that limits it, the place in the local cycle and the memories. -/
structure PaceView where
  freq : Rat
  cfg : TimeCfg
  exemptAt : Option Nat
  tick : Nat
  take : Bool
  round : Nat
  cycles : Nat
  memory : List (Nat × Byte) × List (Nat × Byte)

/-- That view of a state. -/
def paceView (s : State) : PaceView where
  freq := s.time.freq
  cfg := s.time.cfg
  exemptAt := s.time.exemptAt
  tick := s.tick
  take := s.time.take
  round := s.time.round
  cycles := s.time.cycles
  memory := (s.engMem, s.nvm)

/-- Neither a fault nor a write of registers nor the Harness is seen. -/
theorem paceView_of_stateFrame {s t : State} (h : stateFrame t = stateFrame s) : paceView t = paceView s :=
  (congrArg paceView h :)

theorem paceView_fput (s : State) (f : Field) (v : Nat) : paceView (fput s f v) = paceView s := rfl

theorem paceView_fputB (s : State) (f : Field) (b : Bool) : paceView (fputB s f b) = paceView s := rfl

theorem paceView_raise (s : State) (f : Field) : paceView (raise s f) = paceView s := rfl

theorem paceView_setTb (s : State) (x : TbState) : paceView (setTb s x) = paceView s := rfl

theorem paceView_report (s : State) (c cl k i ts : Nat) : paceView (report s c cl k i ts) = paceView s :=
  paceView_of_stateFrame (stateFrame_report ..)

theorem paceView_startTransfer (s : State) (src : Nat) : paceView (startTransfer s src) = paceView s := by
  rw [startTransfer, paceView_raise, paceView_fput, paceView_setTb]

/-- The memories of the view are both memories. -/
theorem sameMemory_of_paceView {s t : State} (h : (paceView t).memory = (paceView s).memory) : SameMemory s t := by
  obtain ⟨heng, hnvm⟩ := Prod.mk.inj h
  exact ⟨fun o => by rw [engByte, engByte, heng], fun o => by rw [nvmByte, nvmByte, hnvm]⟩

/-! ### The limits of the engine frequency (R40, R41) -/

theorem clipR_bounds {v lo hi : Rat} (h : lo ≤ hi) : lo ≤ clipR v lo hi ∧ clipR v lo hi ≤ hi := by
  unfold clipR
  split
  · exact ⟨le_refl lo, h⟩
  · split
    · exact ⟨h, le_refl hi⟩
    · exact ⟨not_lt.1 ‹_›, not_lt.1 ‹_›⟩

/-- A value between bounds that each side of the window reaches into stays between them. -/
theorem clipR_between {v lo hi a b : Rat} (hv : a ≤ v ∧ v ≤ b) (hlo : lo ≤ b) (hhi : a ≤ hi) : a ≤ clipR v lo hi ∧ clipR v lo hi ≤ b := by
  unfold clipR
  split
  · exact ⟨hv.1.trans (le_of_lt ‹_›), hlo⟩
  · split
    · exact ⟨hhi, (le_of_lt ‹_›).trans hv.2⟩
    · exact hv

/-- The lowest engine frequency of the profile (R6). -/
def freqMin (s : State) : Rat := (((profileKHz s.time.cfg.profile).1 * 1000 : Nat) : Rat) / (s.time.cfg.n : Rat)

/-- The highest one. -/
def freqMax (s : State) : Rat := (((profileKHz s.time.cfg.profile).2 * 1000 : Nat) : Rat) / (s.time.cfg.n : Rat)

/-- `x` differs from the engine frequency by at most 2 % of VFREQ and lies in the range of the profile. -/
structure WithinPace (s : State) (x : Rat) : Prop where
  near_low : s.time.freq - mHz s.time.cfg.vfreq / 50 ≤ x
  near_high : x ≤ s.time.freq + mHz s.time.cfg.vfreq / 50
  low : freqMin s ≤ x
  high : x ≤ freqMax s

theorem mHz_nonneg (n : Nat) : 0 ≤ mHz n := div_nonneg (Nat.cast_nonneg n) (by norm_num)

/-- The frequency itself, where it lies in the range. -/
theorem WithinPace.self {s : State} (hlo : freqMin s ≤ s.time.freq) (hhi : s.time.freq ≤ freqMax s) : WithinPace s s.time.freq := by
  have hd : 0 ≤ mHz s.time.cfg.vfreq / 50 := div_nonneg (mHz_nonneg _) (by norm_num)
  exact ⟨by linarith only [hd], by linarith only [hd], hlo, hhi⟩

/-- What R40 and R41 leave of any steering, without an exempt change. -/
theorem withinPace_limitFreq {s : State} (hx : s.time.exemptAt ≠ some s.tick) (hlo : freqMin s ≤ s.time.freq)
    (hhi : s.time.freq ≤ freqMax s) (f : Rat) : WithinPace s (limitFreq s f).1 := by
  obtain ⟨hnl, hnh, -, -⟩ := WithinPace.self hlo hhi
  have he : (limitFreq s f).1 =
      clipR (clipR f (s.time.freq - mHz s.time.cfg.vfreq / 50) (s.time.freq + mHz s.time.cfg.vfreq / 50)) (freqMin s) (freqMax s) := by
    unfold limitFreq
    extract_lets c d f1 lim f2
    have hf1 : f1 = clipR f (s.time.freq - d) (s.time.freq + d) := if_neg hx
    simp only [f2, hf1]
    rfl
  have hrange : freqMin s ≤ freqMax s := hlo.trans hhi
  rw [he]
  obtain ⟨hl, hh⟩ := clipR_between (clipR_bounds (v := f) (hnl.trans hnh)) (hlo.trans hnh) (hnl.trans hhi)
  exact ⟨hl, hh, (clipR_bounds hrange).1, (clipR_bounds hrange).2⟩

theorem limitFreq_congr {s t : State} (h : paceView t = paceView s) (f : Rat) : limitFreq t f = limitFreq s f := by
  simp only [paceView, PaceView.mk.injEq] at h
  obtain ⟨hfreq, hcfg, hx, htick, -⟩ := h
  unfold limitFreq
  rw [hfreq, hcfg, hx, htick]

/-! ### Steering (R40, R41, R46) -/

theorem paceView_steerTo (s : State) (f : Rat) : paceView (steerTo s f) = { paceView s with freq := (limitFreq s f).1 } := by
  unfold steerTo
  extract_lets r s1 s2
  have h2 : paceView s2 = { paceView s with freq := r.1 } := by
    simp only [s2, s1]
    rw [paceView_fput, paceView_fputB]
    rfl
  exact (ite_eq_of paceView _ _ _ _ (paceView_raise ..) rfl).trans h2

/-- Steering writes CLAMP, the frequency and the event of a clamp. -/
theorem timeFields_steerTo (s : State) (f : Rat) :
    TimeFields [Fld.TIME_STATUS_CLAMP, Fld.TIME_FREQ_FREQ, Fld.TIME_EVENT_CLAMP_HIT] s (steerTo s f) := by
  unfold steerTo
  extract_lets r s1 s2
  have h2 : TimeFields [Fld.TIME_STATUS_CLAMP, Fld.TIME_FREQ_FREQ, Fld.TIME_EVENT_CLAMP_HIT] s s2 :=
    (((TimeFields.refl _ s).setTime _).fputB _ _ (by decide)).fput _ _ (by decide)
  split
  · exact h2.raise _ (by decide)
  · exact h2

/-- `t` is `s` but for the frequency, which is that of `s` or what the limits leave of one that was steered. -/
structure FreqStep (s t : State) : Prop where
  view : paceView t = { paceView s with freq := t.time.freq }
  freq : t.time.freq = s.time.freq ∨ ∃ f, t.time.freq = (limitFreq s f).1

section
variable {s t u : State}

/-- Operations that are not seen. -/
theorem FreqStep.of_view (h : paceView t = paceView s) : FreqStep s t := by
  have hf : t.time.freq = s.time.freq := congrArg PaceView.freq h
  exact ⟨by rw [h, hf]; rfl, .inl hf⟩

/-- A steering after such operations. -/
theorem FreqStep.steerTo (h : paceView t = paceView s) (f : Rat) : FreqStep s (steerTo t f) := by
  have hv := paceView_steerTo t f
  have hf : (Machine.steerTo t f).time.freq = (limitFreq s f).1 := (congrArg PaceView.freq hv).trans (by rw [limitFreq_congr h])
  exact ⟨by rw [hv, h, hf, limitFreq_congr h], .inr ⟨f, hf⟩⟩

/-- Operations that are not seen, after the step. -/
theorem FreqStep.trans_view (h : FreqStep s t) (g : paceView u = paceView t) : FreqStep s u := by
  have hf : u.time.freq = t.time.freq := congrArg PaceView.freq g
  exact ⟨by rw [g, hf, h.view], by rw [hf]; exact h.freq⟩

/-- Operations that are not seen, before the step. -/
theorem FreqStep.of_view_trans (h : paceView t = paceView s) (g : FreqStep t u) : FreqStep s u := by
  refine ⟨by rw [g.view, h], ?_⟩
  rcases g.freq with hf | ⟨f, hf⟩
  · exact .inl (hf.trans (congrArg PaceView.freq h))
  · exact .inr ⟨f, by rw [hf, limitFreq_congr h]⟩

/-- Such a step keeps to R40 and R41. -/
theorem FreqStep.withinPace (h : FreqStep s t) (hx : s.time.exemptAt ≠ some s.tick) (hlo : freqMin s ≤ s.time.freq)
    (hhi : s.time.freq ≤ freqMax s) : WithinPace s t.time.freq := by
  rcases h.freq with hf | ⟨f, hf⟩
  · rw [hf]
    exact WithinPace.self hlo hhi
  · rw [hf]
    exact withinPace_limitFreq hx hlo hhi f

end

/-- What limits the frequency does not depend on the place in the cycle. -/
theorem withinPace_of_step {s u t : State} {r c : Nat} (h : paceView u = { paceView s with round := r, cycles := c }) (g : FreqStep u t)
    (hx : s.time.exemptAt ≠ some s.tick) (hlo : freqMin s ≤ s.time.freq) (hhi : s.time.freq ≤ freqMax s) : WithinPace s t.time.freq := by
  simp only [paceView, PaceView.mk.injEq] at h
  obtain ⟨hfreq, hcfg, hex, htick, -⟩ := h
  have hmin : freqMin u = freqMin s := by rw [freqMin, hcfg, freqMin]
  have hmax : freqMax u = freqMax s := by rw [freqMax, hcfg, freqMax]
  obtain ⟨hnl, hnh, hl, hh⟩ := g.withinPace (by rwa [hex, htick]) (by rwa [hmin, hfreq]) (by rwa [hmax, hfreq])
  rw [hfreq, hcfg] at hnl hnh
  exact ⟨hnl, hnh, hmin ▸ hl, hmax ▸ hh⟩

theorem freqStep_slewBoundary (s : State) : FreqStep s (slewBoundary s) := by
  unfold slewBoundary
  extract_lets v d f s1
  have h1 : FreqStep s s1 := FreqStep.steerTo rfl f
  split
  · exact h1.trans_view (by rw [paceView_report, paceView_raise, paceView_setTb])
  · exact h1

/-- The steering of a boundary, by the state of the timebase and the source that it wants (R34, R38, R46). -/
theorem freqStep_steerBoundary (s : State) : FreqStep s (steerBoundary s) := by
  have hbegin (src : Nat) (d : Rat) : FreqStep s (steerTo (startTransfer s src) (pulledFreq (startTransfer s src) d)) :=
    FreqStep.steerTo (paceView_startTransfer ..) _
  unfold steerBoundary
  extract_lets d e sLocked sHeld
  have hlocked : paceView sLocked = paceView s := by rw [paceView_raise, paceView_setTb]
  have hheld : paceView sHeld = paceView s := rfl
  split
  case h_1 => exact FreqStep.of_view rfl
  case h_2 | h_3 | h_4 => exact hbegin _ d
  case h_5 | h_6 =>
    split
    · extract_lets s1
      have h1 : paceView s1 = paceView s := ite_eq_of paceView _ _ _ _ (ite_eq_of paceView _ _ _ _ hlocked hlocked) rfl
      exact FreqStep.steerTo h1 _
    · exact hbegin _ d
  case h_7 | h_8 | h_9 => exact FreqStep.steerTo rfl _
  case h_10 =>
    split
    · exact FreqStep.steerTo hheld _
    · exact FreqStep.of_view hheld
  case h_11 => exact freqStep_slewBoundary s

/-! ### CYCLE_BOUNDARY (R30, R34, R54) -/

theorem paceView_anchorAngles (s : State) : paceView (anchorAngles s) = paceView s := rfl

/-- The next cycle begins with its round 0 (R30). -/
theorem paceView_countCycle (s : State) :
    paceView (countCycle s) = { paceView s with round := 0, cycles := s.time.cycles + 1 } := by
  unfold countCycle
  extract_lets t tun ret s1 s2
  have h1 : paceView s1 = { paceView s with round := 0, cycles := s.time.cycles + 1 } := rfl
  have h2 : paceView s2 = paceView s1 := ite_eq_of paceView _ _ _ _ (paceView_fput ..) rfl
  rw [← h1, ← h2]
  refine ite_eq_of paceView _ _ _ _ ?_ rfl
  rw [paceView_raise, paceView_fput]
  rfl

theorem paceView_fleetArrive (s : State) : paceView (fleetArrive s) = paceView s := by
  unfold fleetArrive
  extract_lets eff
  exact (paceView_fput ..).trans rfl

theorem paceView_adoptCount (s : State) : paceView (adoptCount s) = paceView s := by
  unfold adoptCount
  extract_lets s0 root n pay s1
  have h0 : paceView s0 = paceView s := rfl
  have h1 : paceView s1 = paceView s := (paceView_fput ..).trans h0
  refine ite_eq_of paceView _ _ _ _ (ite_eq_of paceView _ _ _ _ ?_ ?_) rfl
  · exact (paceView_of_stateFrame (stateFrame_pushRecord ..)).trans h1
  · rw [paceView_report, paceView_raise, h0]

theorem paceView_fleetBoundary (s : State) : paceView (fleetBoundary s) = paceView s := by
  unfold fleetBoundary
  extract_lets d
  exact (paceView_fputB ..).trans rfl

theorem paceView_harnCycle (s : State) : paceView (harnCycle s) = paceView s := by
  unfold harnCycle
  extract_lets first s1
  exact (frame_foldl paceView _ (fun u f => paceView_of_stateFrame (stateFrame_sendFirst u f)) _ _).trans
    (paceView_of_stateFrame (stateFrame_setHarn ..))

theorem live_harnCycle (s : State) : (harnCycle s).live = s.live := by
  unfold harnCycle
  extract_lets first s1
  have h := frame_foldl sendLeaves (fun u f => sendFirst u f) (fun u f => sendLeaves_sendFirst u f) first s1
  rw [sendLeaves_setHarn] at h
  exact congrArg Prod.fst h

/-- The state at the start of the new cycle, before a configuration is taken and the steering chosen. -/
def cycleBegun (s : State) : State := fleetArrive (countCycle (anchorAngles s))

theorem paceView_cycleBegun (s : State) : paceView (cycleBegun s) = { paceView s with round := 0, cycles := s.time.cycles + 1 } := by
  rw [cycleBegun, paceView_fleetArrive, paceView_countCycle, paceView_anchorAngles]
  rfl

/-- The count of the cycle is kept for a reset (R29). -/
def countSaved (s : State) : State :=
  setTime s fun t => { t with savedCount := t.cycleCount, savedVfreq := t.cfg.vfreq, savedAt := s.tick }

theorem paceView_countSaved (s : State) : paceView (countSaved s) = paceView s := rfl

theorem fget_countSaved (s : State) (f : Field) : fget (countSaved s) f = fget s f := rfl

theorem execCycleBoundary_eq (s : State) : exec .cycleBoundary s = .next (countSaved (harnCycle
    (if (cycleBegun s).time.take then
      if tbState (cycleBegun s) == .provisional then fleetBoundary (takeImageCfg (cycleBegun s))
      else steerBoundary (fleetBoundary (takeNewCfg (adoptCount (cycleBegun s))))
    else steerBoundary (fleetBoundary (adoptCount (cycleBegun s)))))) := by
  unfold exec execCycleBoundary
  rfl

/-- A boundary without a configuration to take steers. -/
theorem exec_cycleBoundary_of_steering {s : State} (h : s.time.take = false) :
    exec .cycleBoundary s = .next (countSaved (harnCycle (steerBoundary (fleetBoundary (adoptCount (cycleBegun s)))))) := by
  have ht : (cycleBegun s).time.take = false := (congrArg PaceView.take (paceView_cycleBegun s)).trans h
  rw [execCycleBoundary_eq, if_neg (by rw [ht]; decide)]

/-- One in PROVISIONAL with an image configuration waiting takes it (R33). -/
theorem exec_cycleBoundary_of_image {s : State} (h : s.time.take = true) (hp : tbState (cycleBegun s) = .provisional) :
    exec .cycleBoundary s = .next (countSaved (harnCycle (fleetBoundary (takeImageCfg (cycleBegun s))))) := by
  have ht : (cycleBegun s).time.take = true := (congrArg PaceView.take (paceView_cycleBegun s)).trans h
  rw [execCycleBoundary_eq, if_pos ht, if_pos (by rw [hp]; rfl)]

/-- A steering boundary is a step of the frequency from the new cycle on. -/
theorem freqStep_cycleBoundary (s : State) :
    FreqStep (cycleBegun s) (countSaved (harnCycle (steerBoundary (fleetBoundary (adoptCount (cycleBegun s)))))) :=
  FreqStep.of_view_trans ((paceView_fleetBoundary _).trans (paceView_adoptCount _))
    ((freqStep_steerBoundary _).trans_view ((paceView_countSaved _).trans (paceView_harnCycle _)))

/-! ### The image configuration (R33) -/

/-- The registers of TIME that the start of a cycle writes. -/
def cycleReg (a : Nat) : Bool := a == Reg.TIME_STATUS || a == Reg.TIME_EVENT || a == Reg.TIME_FLEET_EFF

/-- Its fields beside the state of the timebase. -/
abbrev cycleFields : List Field := [Fld.TIME_STATUS_MAINS_QUAL, Fld.TIME_STATUS_HARN_VALID, Fld.TIME_EVENT_LOCK_GAIN,
  Fld.TIME_FLEET_EFF_FLEET_EFF]

theorem countCycle_writes (s : State) : TimeFields cycleFields s (countCycle s) ∧ SameRegsOutside cycleReg s (countCycle s) := by
  unfold countCycle
  extract_lets t tun ret s1 s2
  have h1 : TimeFields cycleFields s s1 := (TimeFields.refl _ s).setTime _
  have g1 : SameRegsOutside cycleReg s s1 := (SameRegsOutside.refl _ s).of_live rfl
  have h2 : TimeFields cycleFields s s2 ∧ SameRegsOutside cycleReg s s2 := by
    simp only [s2]
    split
    · exact ⟨h1.fput _ _ (by decide), g1.fput _ _ (by decide)⟩
    · exact ⟨h1, g1⟩
  obtain ⟨h2, g2⟩ := h2
  split
  · exact ⟨((h2.setTime _).fput _ _ (by decide)).raise _ (by decide),
      ((g2.of_live (u := setTime s2 _) rfl).fput _ _ (by decide)).raise _ (by decide)⟩
  · exact ⟨h2, g2⟩

theorem cycleBegun_writes (s : State) : TimeFields cycleFields s (cycleBegun s) ∧ SameRegsOutside cycleReg s (cycleBegun s) := by
  obtain ⟨h, g⟩ := countCycle_writes (anchorAngles s)
  have hs : TimeFields cycleFields s (countCycle (anchorAngles s)) := ((TimeFields.refl _ s).setTime _).trans h
  have gs : SameRegsOutside cycleReg s (countCycle (anchorAngles s)) := ((SameRegsOutside.refl _ s).of_live (u := anchorAngles s) rfl).trans g
  rw [cycleBegun]
  generalize countCycle (anchorAngles s) = u at hs gs ⊢
  unfold fleetArrive
  extract_lets eff
  exact ⟨(hs.setTime _).fput _ _ (by decide), (gs.of_live (u := setTime u _) rfl).fput _ _ (by decide)⟩

/-- The configuration is that of the registers before the boundary. -/
theorem timeCfgOfRegs_cycleBegun (s : State) : timeCfgOfRegs (cycleBegun s) = timeCfgOfRegs s := by
  have e (f : Field) (hf : cycleReg f.addr = false) : fget (cycleBegun s) f = fget s f := by
    rw [fget, (cycleBegun_writes s).2 _ hf, fget]
  simp only [timeCfgOfRegs, bit, e Fld.TIME_CTRL_SRC (by decide), e Fld.TIME_CTRL_FB (by decide), e Fld.TIME_CTRL_THREE_PH (by decide),
    e Fld.TIME_CTRL_HOLD (by decide), e Fld.TIME_CTRL_PULL (by decide), e Fld.TIME_CTRL_SLEW (by decide), e Fld.TIME_CTRL_RET (by decide),
    e Fld.TIME_FLO_MHZ (by decide), e Fld.TIME_FHI_MHZ (by decide), e Fld.TIME_VFREQ_MHZ (by decide), e Fld.TIME_RPC_RPC (by decide),
    e Fld.TIME_RLEN_RLEN (by decide), e Fld.TIME_N_N (by decide), e Fld.SCHED_STATUS_PROFILE (by decide)]

/-- The configuration of the registers paces the engine, at exactly VFREQ (R33). -/
theorem paceView_takeImageCfg (s : State) : paceView (takeImageCfg s) = { paceView s with
    cfg := timeCfgOfRegs s, take := false, freq := mHz (fget s Fld.TIME_VFREQ_MHZ), exemptAt := some s.tick } := by
  unfold takeImageCfg
  extract_lets c f s1
  rw [paceView_fput, paceView_fput, paceView_setTb]
  rfl

/-- VIRTUAL, steered by no source (R33). -/
theorem takeImageCfg_status (s : State) : fget (takeImageCfg s) Fld.TIME_STATUS_STATE = 1 ∧
    fget (takeImageCfg s) Fld.TIME_STATUS_SRC_ACT = 1 := by
  unfold takeImageCfg
  extract_lets c f s1
  refine ⟨?_, ?_⟩
  · rw [fget_fput_of_ne _ _ _ _ (by decide), fget_fput_of_ne _ _ _ _ (by decide), fget_setTb]
    rfl
  · rw [fget_fput_of_ne _ _ _ _ (by decide), fget_fput_self _ _ _ (by decide)]
    rfl

/-- Nothing after the configuration is taken writes the status. -/
theorem fget_cycleEnded (s : State) {f : Field} (ha : decide (0x1000 ≤ f.addr ∧ f.addr < 0x2000) = true)
    (hf : apartFrom [Fld.TIME_STATUS_FLEET_SLEW] f = true) : fget (countSaved (harnCycle (fleetBoundary s))) f = fget s f := by
  have h : TimeFields [Fld.TIME_STATUS_FLEET_SLEW] s (fleetBoundary s) := by
    unfold fleetBoundary
    extract_lets d
    exact ((TimeFields.refl _ s).setTime _).fputB _ _ (by decide)
  rw [fget_countSaved, fget, rd, live_harnCycle, ← h f ha hf, fget, rd]

/-- What the boundary at which the image configuration is taken leads to (R33). -/
theorem imageTaken_effects (s : State) : let t := countSaved (harnCycle (fleetBoundary (takeImageCfg (cycleBegun s))))
    t.time.cfg = timeCfgOfRegs s ∧ t.time.take = false ∧ t.time.freq = mHz (fget s Fld.TIME_VFREQ_MHZ) ∧
    fget t Fld.TIME_STATUS_STATE = 1 ∧ fget t Fld.TIME_STATUS_SRC_ACT = 1 ∧ SameMemory s t := by
  have hv : paceView (countSaved (harnCycle (fleetBoundary (takeImageCfg (cycleBegun s))))) = { paceView (cycleBegun s) with
      cfg := timeCfgOfRegs s, take := false, freq := mHz (fget s Fld.TIME_VFREQ_MHZ), exemptAt := some (cycleBegun s).tick } := by
    have hfreq : fget (cycleBegun s) Fld.TIME_VFREQ_MHZ = fget s Fld.TIME_VFREQ_MHZ := congrArg TimeCfg.vfreq (timeCfgOfRegs_cycleBegun s)
    rw [paceView_countSaved, paceView_harnCycle, paceView_fleetBoundary, paceView_takeImageCfg, timeCfgOfRegs_cycleBegun, hfreq]
  have hmem : (paceView (cycleBegun s)).memory = (paceView s).memory := by rw [paceView_cycleBegun]
  obtain ⟨hstate, hsrc⟩ := takeImageCfg_status (cycleBegun s)
  have hget := @fget_cycleEnded (takeImageCfg (cycleBegun s))
  generalize countSaved (harnCycle (fleetBoundary (takeImageCfg (cycleBegun s)))) = t at hv hget ⊢
  exact ⟨congrArg PaceView.cfg hv, congrArg PaceView.take hv, congrArg PaceView.freq hv, (hget (by decide) (by decide)).trans hstate,
    (hget (by decide) (by decide)).trans hsrc, sameMemory_of_paceView ((congrArg PaceView.memory hv).trans hmem)⟩

/-! ### HOLD_EXPIRE (R34, R46) -/

/-- SLEW, as its first step finds it. -/
def slewEntered (s : State) : State := raise (setTb s .slew) Fld.TIME_EVENT_SLEW_START

theorem exec_holdExpire_of_passed {s : State} (h : fget s Fld.TIME_STATUS_STATE = 4) (hc : max s.time.cfg.hold 1 ≤ s.time.holdCount) :
    exec .holdExpire s = .next (slewBoundary (slewEntered s)) := by
  have hs : tbState s = .holdover := by rw [tbState, h]; rfl
  exact if_pos ⟨hs, hc⟩

theorem paceView_slewEntered (s : State) : paceView (slewEntered s) = paceView s := by rw [slewEntered, paceView_raise, paceView_setTb]

theorem slewEntered_status (s : State) : fget (slewEntered s) Fld.TIME_STATUS_STATE = 5 ∧
    bit (slewEntered s) Fld.TIME_EVENT_SLEW_START = true := by
  refine ⟨?_, bit_raise_self _ _ (by decide) rfl⟩
  rw [slewEntered, raise, fget_fput_of_ne _ _ _ _ (by decide), fget_setTb]
  rfl

/-- The slew step leaves the state, or reaches VFREQ and with it VIRTUAL; events stay (R46). -/
theorem slewBoundary_status (s : State) : let t := slewBoundary s
    (bit s Fld.TIME_EVENT_SLEW_START = true → bit t Fld.TIME_EVENT_SLEW_START = true) ∧
    (fget t Fld.TIME_STATUS_STATE = fget s Fld.TIME_STATUS_STATE ∨
      (fget t Fld.TIME_STATUS_STATE = 1 ∧ t.time.freq = mHz s.time.cfg.vfreq)) := by
  unfold slewBoundary
  extract_lets v d f s1 s2
  have h1 : TimeFields _ s s1 := timeFields_steerTo s f
  by_cases hfreq : s1.time.freq = v
  · have h2 : s2 = report (raise (setTb s1 .virtual) Fld.TIME_EVENT_VIRT_REACHED) 0x0303 0 0 0 (stampE s1 0) := if_pos hfreq
    rw [h2]
    generalize hr : report (raise (setTb s1 .virtual) Fld.TIME_EVENT_VIRT_REACHED) 0x0303 0 0 0 (stampE s1 0) = t
    have ht : TimeFields [] (raise (setTb s1 .virtual) Fld.TIME_EVENT_VIRT_REACHED) t := by
      rw [← hr]
      exact (TimeFields.refl _ _).report _ _ _ _ (by decide)
    have hv : paceView t = paceView s1 := by rw [← hr, paceView_report, paceView_raise, paceView_setTb]
    refine ⟨fun h => ?_, .inr ⟨?_, (congrArg PaceView.freq hv).trans hfreq⟩⟩
    · rw [ht.bit_eq (by decide) rfl, raise, bit_fput_of_ne _ _ _ _ (by decide), setTb, bit_fput_of_ne _ _ _ _ (by decide),
        h1.bit_eq (by decide) (by decide), h]
    · rw [ht _ (by decide) rfl, raise, fget_fput_of_ne _ _ _ _ (by decide), fget_setTb]
      rfl
  · have h2 : s2 = s1 := if_neg hfreq
    rw [h2]
    exact ⟨fun h => (h1.bit_eq (by decide) (by decide)).trans h, .inl (h1 _ (by decide) (by decide))⟩

/-- Settles O4: a boundary and the end of HOLDOVER are one step of the frequency each, which the limits keep within 2 % and the clock range;
the image configuration is followed through the boundary that takes it. -/
theorem engineFrequencyMovesAtMostTwoPercent : Obligations.EngineFrequencyMovesAtMostTwoPercent := by
  unfold Obligations.EngineFrequencyMovesAtMostTwoPercent
  refine ⟨fun s htake hx hlo hhi => ?_, fun s hstate hcount hx hlo hhi => ?_, fun s hstate htake => ?_⟩
  · rw [exec_cycleBoundary_of_steering htake]
    have hbegun := paceView_cycleBegun s
    have hstep := freqStep_cycleBoundary s
    generalize countSaved (harnCycle (steerBoundary (fleetBoundary (adoptCount (cycleBegun s))))) = t at hstep ⊢
    obtain ⟨hnl, hnh, hl, hh⟩ := withinPace_of_step hbegun hstep hx hlo hhi
    exact answersNext_next ⟨(congrArg PaceView.round hstep.view).trans (congrArg PaceView.round hbegun),
      (congrArg PaceView.cycles hstep.view).trans (congrArg PaceView.cycles hbegun), hnl, hnh, hl, hh⟩
  · rw [exec_holdExpire_of_passed hstate hcount]
    obtain ⟨hslew, hstart⟩ := slewEntered_status s
    obtain ⟨hevent, hnext⟩ := slewBoundary_status (slewEntered s)
    have hstep := FreqStep.of_view_trans (paceView_slewEntered s) (freqStep_slewBoundary (slewEntered s))
    obtain ⟨hnl, hnh, -, -⟩ := hstep.withinPace hx hlo hhi
    rw [hslew] at hnext
    exact answersNext_next ⟨hevent hstart, hnext, hnl, hnh⟩
  · have hp : tbState (cycleBegun s) = .provisional := by
      rw [tbState, (cycleBegun_writes s).1 _ (by decide) (by decide), hstate]
      rfl
    rw [exec_cycleBoundary_of_image htake hp]
    exact answersNext_next (imageTaken_effects s)

end Sys2Proof.Machine
end

section
set_option Elab.async false
namespace Sys2Proof.Machine

/-! ### Entries of a fixed table -/

/-- The entry that is replaced. -/
@[simp] theorem upd_get_self {α : Type} {n : Nat} (t : Vector α n) (i : Fin n) (f : α → α) : (upd t i f).get i = f (t.get i) := by
  simp [upd, Vector.get_eq_getElem]

/-- Every other entry stays. -/
theorem upd_get_of_ne {α : Type} {n : Nat} (t : Vector α n) {i j : Fin n} (f : α → α) (h : j ≠ i) : (upd t i f).get j = t.get j := by
  have hv : i.val ≠ j.val := fun e => h (Fin.ext e.symm)
  simp [upd, Vector.get_eq_getElem, hv]

/-! ### Folds that change each entry on its own -/

/-- A fold of steps, each of which changes the value of its own entry only, changes the value of every entry it lists once.
`J` says what the steps leave, `V` reads the value of an entry, `G` says what its step makes of it. -/
theorem foldl_each {α β : Type} [DecidableEq α] {f : State → α → State} {J : State → Prop} {V : State → α → β} {G : α → β → β}
    (hJ : ∀ t m, J t → J (f t m)) (hV : ∀ t m n, J t → V (f t m) n = if n = m then G m (V t m) else V t n) :
    ∀ (l : List α) (t : State), l.Nodup → J t → J (l.foldl f t) ∧ ∀ n, V (l.foldl f t) n = if n ∈ l then G n (V t n) else V t n := by
  intro l
  induction l with
  | nil => exact fun t _ ht => ⟨ht, fun n => (if_neg List.not_mem_nil).symm⟩
  | cons m l ih =>
    intro t hl ht
    obtain ⟨hm, hl⟩ := List.nodup_cons.1 hl
    obtain ⟨hj, hv⟩ := ih (f t m) hl (hJ t m ht)
    refine ⟨hj, fun n => ?_⟩
    rw [List.foldl_cons, hv n, hV t m n ht]
    by_cases hn : n = m
    · subst hn
      simp [hm]
    · simp [hn]

/-! ### Addresses of the blocks -/

/-- A register below a block is none of the block's. -/
theorem below_ne_block {a b : Nat} (i : Nat) (h : a < b) : a ≠ b + i := by omega

/-- The same register of two loops. -/
theorem loopAddr_ne (b : Nat) {m n : Fin 64} (h : n ≠ m) : b + 0x200 * n.val ≠ b + 0x200 * m.val := by
  have := Fin.val_ne_of_ne h
  omega

/-- Two registers of the block LOOP, of one loop or of two. -/
theorem loopAddr_ne_of_mod {b c m n : Nat} (h : b % 0x200 ≠ c % 0x200) : b + 0x200 * n ≠ c + 0x200 * m := by omega

/-- The blocks of ports and loops are none that the report of a fault writes. -/
theorem faultOrRec_block {b : Nat} (i : Nat) (h : 0x10000 ≤ b) : faultOrRec (b + i) = false := by
  simp only [faultOrRec, Bool.or_eq_false_iff, decide_eq_false_iff_not]
  omega

/-! ### Bank swaps: what is pending (R85, R86) -/

/-- The pending bits of loops below 64, by their field. -/
theorem swapPending_eq (s : State) {n : Nat} (h : n < 64) : swapPending s n = fbit s (pendFld n) (n % 32) := by
  unfold swapPending pendFld
  by_cases hn : n < 32
  · rw [if_pos hn, if_pos hn, Nat.mod_eq_of_lt hn]
  · rw [if_neg hn, if_neg hn, show n % 32 = n - 32 by omega]

/-- Setting or clearing one pending bit leaves the others. -/
theorem swapPending_fputBit (s : State) {m n : Nat} (b : Bool) (hm : m < 64) (hn : n < 64) :
    swapPending (fputBit s (pendFld m) (m % 32) b) n = if n = m then b else swapPending s n := by
  have hw : ∀ k, (pendFld k).lo + (pendFld k).width ≤ 32 ∧ (pendFld k).width = 32 := fun k => by unfold pendFld; split <;> decide
  rw [swapPending_eq _ hn, swapPending_eq _ hn]
  by_cases hside : n < 32 ↔ m < 32
  · have hp : pendFld n = pendFld m := by simp only [pendFld, hside]
    have hnm : n % 32 = m % 32 ↔ n = m := by omega
    rw [hp, fbit_fputBit _ _ _ _ _ (hw m).1 (by rw [(hw m).2]; omega)]
    simp only [hnm]
  · have hne : (pendFld n).addr ≠ (pendFld m).addr := by
      by_cases h : n < 32
      · rw [pendFld, pendFld, if_pos h, if_neg (by omega)]
        decide
      · rw [pendFld, pendFld, if_neg h, if_pos (by omega)]
        decide
    rw [if_neg (fun e => hside (by rw [e])), fputBit, fbit_fput_of_ne _ _ _ _ _ (.inl hne)]

/-- The pending bits depend on their two registers. -/
theorem swapPending_congr {s t : State} (hl : rd t Reg.SCHED_SWAP_PEND_LO = rd s Reg.SCHED_SWAP_PEND_LO)
    (hh : rd t Reg.SCHED_SWAP_PEND_HI = rd s Reg.SCHED_SWAP_PEND_HI) (n : Nat) : swapPending t n = swapPending s n := by
  simp only [swapPending, fbit, fget, hl, hh]

/-! ### SCHED_SWAP_GO (R85, R86) -/

/-- The request of one loop: a masked loop that the image uses becomes pending, one that it does not use is ignored. -/
def askSwap (s : State) (n : Nat) : State :=
  if !maskBit s n then s else if loopUsed s n then fputBit s (pendFld n) (n % 32) true else raise s Fld.SCHED_EVENT_SWAP_IGN

/-- The registers that the request of a loop can write. -/
def swapGoReg (a : Nat) : Bool := a == Reg.SCHED_SWAP_PEND_LO || a == Reg.SCHED_SWAP_PEND_HI || a == Reg.SCHED_EVENT

theorem exec_schedSwapGo_of_loaded {s : State} (h : bit s Fld.SCHED_STATUS_LOADED = true) :
    exec .schedSwapGo s = .next (setSched ((List.range 64).foldl askSwap s) fun x => { x with swapReq := true }) :=
  congrArg Host.Outcome.next (if_neg (by rw [h]; decide))

theorem exec_schedSwapGo_of_unloaded {s : State} (h : bit s Fld.SCHED_STATUS_LOADED = false) : exec .schedSwapGo s = .next s :=
  congrArg Host.Outcome.next (if_pos (by rw [h]; rfl))

theorem swapGoReg_pendFld (n : Nat) : swapGoReg (pendFld n).addr = true := by unfold pendFld; split <;> decide

theorem writesRegs_askSwap (s : State) (n : Nat) : WritesRegs swapGoReg s (askSwap s n) := by
  unfold askSwap
  split
  · exact .refl _ s
  · split
    · exact (WritesRegs.refl _ s).fput _ _ (swapGoReg_pendFld n)
    · exact (WritesRegs.refl _ s).fput _ _ (by decide)

/-- Neither the mask nor the configuration of a loop is among them. -/
theorem WritesRegs.swapGo_reads {s t : State} (h : WritesRegs swapGoReg s t) (n : Nat) :
    maskBit t n = maskBit s n ∧ loopUsed t n = loopUsed s n := by
  have hc : swapGoReg (Reg.LOOP_CFG n) = false := by
    simp only [swapGoReg, Bool.or_eq_false_iff, beq_eq_false_iff_ne, Reg.LOOP_CFG, Reg.SCHED_SWAP_PEND_LO, Reg.SCHED_SWAP_PEND_HI,
      Reg.SCHED_EVENT]
    omega
  constructor
  · simp only [maskBit, fbit, fget, h.regs Reg.SCHED_SWAP_MASK_LO (by decide), h.regs Reg.SCHED_SWAP_MASK_HI (by decide)]
  · simp only [loopUsed, bit, fget, h.regs _ hc]

theorem swapPending_askSwap (s : State) {m n : Nat} (hm : m < 64) (hn : n < 64) : swapPending (askSwap s m) n =
    if n = m then swapPending s m || (maskBit s m && loopUsed s m) else swapPending s n := by
  unfold askSwap
  by_cases hmask : maskBit s m = true
  · by_cases hused : loopUsed s m = true
    · simp [hmask, hused, swapPending_fputBit s true hm hn]
    · have hk : swapPending (raise s Fld.SCHED_EVENT_SWAP_IGN) n = swapPending s n :=
        swapPending_congr (rd_fput_of_ne _ _ (by decide)) (rd_fput_of_ne _ _ (by decide)) n
      have hu : loopUsed s m = false := Bool.eq_false_iff.2 hused
      rw [hmask, hu, Bool.not_true, if_neg Bool.false_ne_true, if_neg Bool.false_ne_true, hk]
      by_cases hnm : n = m <;> simp [hnm]
  · have hm' : maskBit s m = false := Bool.eq_false_iff.2 hmask
    by_cases hnm : n = m <;> simp [hm', hnm]

/-- After the requests of the first `k` loops. -/
theorem swapPending_asked (s : State) {k n : Nat} (hk : k ≤ 64) (hn : n < 64) : swapPending ((List.range k).foldl askSwap s) n =
    (swapPending s n || (decide (n < k) && maskBit s n && loopUsed s n)) := by
  induction k with
  | zero => simp
  | succ k ih =>
    obtain ⟨hmask, hused⟩ := (writesRegs_foldl writesRegs_askSwap (List.range k) s).swapGo_reads k
    rw [List.range_succ, List.foldl_append, List.foldl_cons, List.foldl_nil, swapPending_askSwap _ (by omega) hn, hmask, hused,
      ih (by omega)]
    by_cases hnk : n = k
    · subst hnk
      rw [if_pos rfl, ih (by omega)]
      simp
    · have : n < k + 1 ↔ n < k := by omega
      simp [hnk, this]

/-! ### BANK_EXCHANGE (R85, R153, R155) -/

theorem exec_bankExchange_of_request {s : State} (h : s.sched.swapReq = true) : ∃ done : Bool, exec .bankExchange s =
    .next (if done then raise (inc ((List.finRange 64).foldl exchangeLoop (setSched s fun x => { x with swapReq := false }))
      Fld.SCHED_SWAP_CNT_SWAP_CNT) Fld.SCHED_EVENT_SWAP_DONE
    else (List.finRange 64).foldl exchangeLoop (setSched s fun x => { x with swapReq := false })) := ⟨_, if_pos h⟩

theorem exec_bankExchange_of_none {s : State} (h : s.sched.swapReq = false) : exec .bankExchange s = .next s :=
  if_neg (by rw [h]; decide)

/-- What an exchange leaves of all that its conditions are judged by, and both memories and the request. -/
structure ExchangeKeeps (s t : State) : Prop where
  cfg : ∀ n : Fin 64, rd t (Reg.LOOP_CFG n) = rd s (Reg.LOOP_CFG n)
  eng : t.engMem = s.engMem
  nvm : t.nvm = s.nvm
  sched : t.sched = s.sched

theorem ExchangeKeeps.refl (s : State) : ExchangeKeeps s s := ⟨fun _ => rfl, rfl, rfl, rfl⟩

theorem ExchangeKeeps.trans {s t u : State} (h : ExchangeKeeps s t) (g : ExchangeKeeps t u) : ExchangeKeeps s u :=
  ⟨fun n => (g.cfg n).trans (h.cfg n), g.eng.trans h.eng, g.nvm.trans h.nvm, g.sched.trans h.sched⟩

/-- A field outside the configuration words of the loops is written. -/
theorem ExchangeKeeps.fput {s t : State} (h : ExchangeKeeps s t) (f : Field) (v : Nat) (hf : f.addr < 0x18000 ∨ f.addr % 0x200 ≠ 0) :
    ExchangeKeeps s (fput t f v) :=
  ⟨fun n => (rd_fput_of_ne _ _ (by simp only [Reg.LOOP_CFG]; omega)).trans (h.cfg n), h.eng, h.nvm, h.sched⟩

theorem ExchangeKeeps.setLoop {s t : State} (h : ExchangeKeeps s t) (n : Fin 64) (f : LoopSt → LoopSt) : ExchangeKeeps s (setLoop t n f) :=
  ⟨h.cfg, h.eng, h.nvm, h.sched⟩

/-- The report of a corrected fault is none of it. -/
theorem exchangeKeeps_reportCorrected (s : State) (c ts : Nat) (hc : c / 256 ≤ 13) : ExchangeKeeps s (reportCorrected s c ts) where
  cfg _ := regs_reportCorrected s c ts hc _ (faultOrRec_block _ (by decide))
  eng := (congrArg State.engMem (recFrame_reportCorrected s c ts) :)
  nvm := (congrArg State.nvm (recFrame_reportCorrected s c ts) :)
  sched := (congrArg State.sched (recFrame_reportCorrected s c ts) :)

theorem pendFld_lt (n : Nat) : (pendFld n).addr < 0x18000 := by unfold pendFld; split <;> decide

theorem exchangeKeeps_exchangeLoop (s : State) (n : Fin 64) : ExchangeKeeps s (exchangeLoop s n) := by
  unfold exchangeLoop
  split
  · exact .refl s
  · extract_lets s1
    have h1 : ExchangeKeeps s s1 := (ExchangeKeeps.refl s).fput _ _ (.inl (pendFld_lt n))
    split
    · have h2 := h1.fput (Fld.LOOP_STATUS_ABANK n) (1 - activeBank s n) (.inr (by simp only [Reg.LOOP_STATUS]; omega))
      split
      · exact h2.setLoop n _
      · exact h2
    · have h2 := h1.fput (Fld.LOOP_EVENT_SWAP_BAD n) 1 (.inr (by simp only [Reg.LOOP_EVENT]; omega))
      rw [report_corrected]
      exact h2.trans (exchangeKeeps_reportCorrected _ _ _ (by decide))

/-- The shadow bank of a loop meets the conditions of R153, whichever of the two is the active one. -/
def shadowOk (s : State) (n : Fin 64) (bank : Nat) : Bool := bankOk (bankWord s n (1 - bank)) (eiOf s n)

theorem shadowOk_congr {s t : State} (h : ExchangeKeeps s t) (n : Fin 64) (b : Nat) : shadowOk t n b = shadowOk s n b := by
  have hb : bankWord t n (1 - b) = bankWord s n (1 - b) := by
    funext o
    simp only [bankWord, engWord, leWord, engByte, h.eng]
  have he : eiOf t n = eiOf s n := by rw [eiOf, eiOf, fgetS, fgetS, fget, fget, h.cfg n]
  rw [shadowOk, hb, he, shadowOk]

/-- What an exchange turns on of one loop: whether its swap is pending, and its active bank. -/
def swapView (s : State) (n : Fin 64) : Bool × Nat := (swapPending s n, activeBank s n)

/-- The swap of a loop is over, and a pending one with a legal shadow bank has exchanged the banks. -/
def exchanged (s : State) (n : Fin 64) (v : Bool × Nat) : Bool × Nat := (false, if v.1 && shadowOk s n v.2 then 1 - v.2 else v.2)

/-- The swap view depends on three registers. -/
theorem swapView_congr {s t : State} (n : Fin 64) (hl : rd t Reg.SCHED_SWAP_PEND_LO = rd s Reg.SCHED_SWAP_PEND_LO)
    (hh : rd t Reg.SCHED_SWAP_PEND_HI = rd s Reg.SCHED_SWAP_PEND_HI) (hs : rd t (Reg.LOOP_STATUS n) = rd s (Reg.LOOP_STATUS n)) :
    swapView t n = swapView s n := by
  rw [swapView, swapView, swapPending_congr hl hh, activeBank, activeBank, fget, fget, hs]

/-- Clearing the pending bit of loop `m`. -/
theorem swapView_pendCleared (s : State) (m n : Fin 64) : swapView (fputBit s (pendFld m) (m.val % 32) false) n =
    if n = m then (false, activeBank s m) else swapView s n := by
  have hb : activeBank (fputBit s (pendFld m) (m.val % 32) false) n = activeBank s n :=
    fget_fput_of_ne _ _ _ _ (.inl (by have := pendFld_lt m; simp only [Reg.LOOP_STATUS]; omega))
  rw [swapView, swapPending_fputBit _ _ m.isLt n.isLt, hb]
  by_cases h : n = m
  · simp [h]
  · simp [h, Fin.val_ne_of_ne h, swapView]

/-- One exchange ends the swap of its own loop and leaves those of the others. -/
theorem swapView_exchangeLoop (s : State) (m n : Fin 64) : swapView (exchangeLoop s m) n =
    if n = m then exchanged s m (swapView s m) else swapView s n := by
  by_cases hp : swapPending s m = true
  · have hclear := swapView_pendCleared s m
    have hstart : exchangeLoop s m = _ := if_neg (by rw [hp]; decide)
    rw [hstart]
    extract_lets s1
    change ∀ n, swapView s1 n = _ at hclear
    have hv : ∀ (t : State), (∀ k, swapView t k = if k = m then exchanged s m (swapView s m) else swapView s1 k) →
        swapView t n = if n = m then exchanged s m (swapView s m) else swapView s n := fun t ht => by
      rw [ht n, hclear n]
      by_cases h : n = m <;> simp [h]
    by_cases hok : bankOk (bankWord s m (1 - activeBank s m)) (eiOf s m) = true
    · have hex : exchanged s m (swapView s m) = (false, 1 - activeBank s m) := by
        simp [exchanged, swapView, shadowOk, hp, hok]
      have h2 : ∀ k, swapView (fput s1 (Fld.LOOP_STATUS_ABANK m) (1 - activeBank s m)) k =
          if k = m then exchanged s m (swapView s m) else swapView s1 k := fun k => by
        have hpend : swapPending (fput s1 (Fld.LOOP_STATUS_ABANK m) (1 - activeBank s m)) k = swapPending s1 k :=
          swapPending_congr (rd_fput_of_ne _ _ (below_ne_block _ (by decide))) (rd_fput_of_ne _ _ (below_ne_block _ (by decide))) k
        rw [swapView, hpend, activeBank]
        by_cases h : k = m
        · subst h
          have hpk : swapPending s1 k = false := (congrArg Prod.fst (hclear k)).trans (by rw [if_pos rfl])
          rw [fget_fput_self _ _ _ (by simp), if_pos rfl, hex, hpk, Nat.mod_eq_of_lt (by simp)]
        · rw [fget_fput_of_ne _ _ _ _ (.inl (loopAddr_ne _ h)), if_neg h]
          rfl
      rw [if_pos hok]
      refine hv _ fun k => ?_
      split
      · exact h2 k
      · exact h2 k
    · rw [if_neg hok]
      have hex : exchanged s m (swapView s m) = (false, activeBank s m) := by
        simp [exchanged, swapView, shadowOk, hok]
      refine hv _ fun k => ?_
      have hr : ∀ a, faultOrRec a = false → a ≠ Reg.LOOP_EVENT m →
          rd (report (raise s1 (Fld.LOOP_EVENT_SWAP_BAD m)) 0x0202 0 0 0 (stampE (raise s1 (Fld.LOOP_EVENT_SWAP_BAD m)) 0)) a = rd s1 a :=
        fun a ha hne => by
          rw [report_corrected, regs_reportCorrected _ 0x0202 _ (by decide) a ha, raise, rd_fput_of_ne _ _ hne]
      rw [swapView_congr k (hr _ (by decide) (below_ne_block _ (by decide))) (hr _ (by decide) (below_ne_block _ (by decide)))
        (hr _ (faultOrRec_block _ (by decide)) (loopAddr_ne_of_mod (by decide))), hclear k]
      by_cases h : k = m
      · simp [h, hex]
      · simp [h]
  · have hp' : swapPending s m = false := Bool.eq_false_iff.2 hp
    have hstart : exchangeLoop s m = s := if_pos (by rw [hp']; rfl)
    rw [hstart]
    by_cases h : n = m
    · subst h
      simp [exchanged, swapView, hp']
    · rw [if_neg h]

/-- Every pending loop exchanges its banks, or is refused. -/
theorem swapView_exchangeAll (s : State) : ExchangeKeeps s ((List.finRange 64).foldl exchangeLoop s) ∧
    ∀ n, swapView ((List.finRange 64).foldl exchangeLoop s) n = exchanged s n (swapView s n) := by
  obtain ⟨hk, hv⟩ := foldl_each (f := exchangeLoop) (J := ExchangeKeeps s) (V := swapView) (G := exchanged s)
    (fun t m ht => ht.trans (exchangeKeeps_exchangeLoop t m))
    (fun t m n ht => by rw [swapView_exchangeLoop t m n]; simp only [exchanged, shadowOk_congr ht])
    (List.finRange 64) s (List.nodup_finRange 64) (.refl s)
  exact ⟨hk, fun n => by rw [hv n, if_pos (List.mem_finRange n)]⟩

/-- The count and the event of an exchange write registers of SCHED only. -/
theorem swapCounted_rd (s : State) (done : Bool) (a : Nat) (h : a ≠ Reg.SCHED_SWAP_CNT ∧ a ≠ Reg.SCHED_EVENT) :
    rd (if done then raise (inc s Fld.SCHED_SWAP_CNT_SWAP_CNT) Fld.SCHED_EVENT_SWAP_DONE else s) a = rd s a := by
  cases done
  · rfl
  · exact (rd_fput_of_ne _ _ h.2).trans (rd_fput_of_ne _ _ h.1)

/-- Settles O11: the requests of the loops, and their exchanges, act each on its own loop. -/
theorem bankSwapsExchangeTogether : Obligations.BankSwapsExchangeTogether := by
  unfold Obligations.BankSwapsExchangeTogether
  refine ⟨fun s h => ?_, fun s h => ?_, fun s h => ?_, fun s h => ?_⟩
  · rw [exec_schedSwapGo_of_loaded h]
    have hw := writesRegs_foldl writesRegs_askSwap (List.range 64) s
    refine answersNext_next ⟨fun n hn => ?_, rfl, ?_⟩
    · rw [show swapPending (setSched ((List.range 64).foldl askSwap s) _) n = swapPending ((List.range 64).foldl askSwap s) n from rfl,
        swapPending_asked s le_rfl hn]
      simp [hn]
    · rw [hw.only]
      exact ⟨fun _ => rfl, fun _ => rfl⟩
  · exact ⟨s, exec_schedSwapGo_of_unloaded h, rfl⟩
  · obtain ⟨done, hexec⟩ := exec_bankExchange_of_request h
    rw [hexec]
    obtain ⟨hkeeps, hview⟩ := swapView_exchangeAll (setSched s fun x => { x with swapReq := false })
    generalize (List.finRange 64).foldl exchangeLoop (setSched s fun x => { x with swapReq := false }) = u at hkeeps hview
    have hafter : ∀ n : Fin 64, swapView (if done then raise (inc u Fld.SCHED_SWAP_CNT_SWAP_CNT) Fld.SCHED_EVENT_SWAP_DONE else u) n =
        exchanged s n (swapView s n) := fun n => by
      rw [swapView_congr n (swapCounted_rd u done _ (by decide)) (swapCounted_rd u done _ (by decide))
        (swapCounted_rd u done _ ⟨(below_ne_block _ (by decide)).symm, (below_ne_block _ (by decide)).symm⟩), hview n]
      rfl
    refine answersNext_next ⟨?_, fun n hn => (congrArg Prod.fst (hafter ⟨n, hn⟩) :), fun n hn => ?_, ?_⟩
    · have hs : u.sched.swapReq = false := by rw [hkeeps.sched]; rfl
      cases done
      · exact hs
      · exact hs
    · exact (congrArg Prod.snd (hafter ⟨n, hn⟩) :)
    · have hm : SameMemory s u := ⟨fun o => by rw [engByte, hkeeps.eng]; rfl, fun o => by rw [nvmByte, hkeeps.nvm]; rfl⟩
      cases done
      · exact hm
      · exact (hm.fput _ _).fput _ _
  · exact ⟨s, exec_bankExchange_of_none h, rfl⟩

end Sys2Proof.Machine
end

section
set_option Elab.async false
namespace Sys2Proof.Machine

/-! ### Fields of a register that stays -/

/-- A field reads as its register does. -/
theorem fget_of_rd {s t : State} (f : Field) (h : rd t f.addr = rd s f.addr) : fget t f = fget s f := by rw [fget, h, fget]

theorem bit_of_rd {s t : State} (f : Field) (h : rd t f.addr = rd s f.addr) : bit t f = bit s f := by rw [bit, fget_of_rd f h, bit]

theorem fbit_of_rd {s t : State} (f : Field) (n : Nat) (h : rd t f.addr = rd s f.addr) : fbit t f n = fbit s f n := by
  rw [fbit, fget_of_rd f h, fbit]

/-! ### SCHED_VSEL (R89, R90) -/

theorem exec_schedVsel_of_badKey (s : State) {v : Word} (h : getBits v 16 16 ≠ 0x5653) : exec (.schedVsel v) s = .next s :=
  congrArg Host.Outcome.next (if_pos (bne_iff_ne.2 h))

theorem exec_schedVsel_of_key (s : State) {v : Word} (h : getBits v 16 16 = 0x5653) : exec (.schedVsel v) s =
    .next (if variantRefused s (getBits v 0 2) then refuseVariant s else
      setSched (fput (fput s Fld.SCHED_STATUS_VREQ (getBits v 0 2)) Fld.SCHED_STATUS_VPEND 1) fun x => { x with vselBoundaries := 0 }) :=
  congrArg Host.Outcome.next (if_neg (by rw [h]; decide))

/-- A request that is taken stands in SCHED_STATUS. -/
theorem variantAsked_effects (s : State) {v : Nat} (hv : v < 4) : let t := fput (fput s Fld.SCHED_STATUS_VREQ v) Fld.SCHED_STATUS_VPEND 1
    fget t Fld.SCHED_STATUS_VREQ = v ∧ bit t Fld.SCHED_STATUS_VPEND = true ∧
    SameBits [Fld.SCHED_STATUS_VREQ, Fld.SCHED_STATUS_VPEND] s t := by
  refine ⟨?_, bit_raise_self _ _ (by decide) rfl, ((SameBits.refl _ s).fput _ _ (by simp)).fput _ _ (by simp)⟩
  rw [fget_fput_of_ne _ _ _ _ (by decide), fget_fput_self _ _ _ (by decide)]
  exact Nat.mod_eq_of_lt hv

/-- A refused request: none is pending, and the refusal is raised and reported (R90). -/
theorem refuseVariant_effects (s : State) : let t := refuseVariant s
    fget t Fld.SCHED_STATUS_VACT = fget s Fld.SCHED_STATUS_VACT ∧ bit t Fld.SCHED_STATUS_VPEND = false ∧
    bit t Fld.SCHED_EVENT_VSEL_REFUSED = true ∧ CorrectedReported s t 0x0281 ∧ SameMemory s t := by
  have hu : SameBits [Fld.SCHED_STATUS_VPEND, Fld.SCHED_EVENT_VSEL_REFUSED] s
      (raise (fputB s Fld.SCHED_STATUS_VPEND false) Fld.SCHED_EVENT_VSEL_REFUSED) :=
    ((SameBits.refl _ s).fput _ _ (by simp)).raise _ (by simp)
  have hm : SameMemory s (raise (fputB s Fld.SCHED_STATUS_VPEND false) Fld.SCHED_EVENT_VSEL_REFUSED) :=
    ((SameMemory.refl s).fput _ _).fput _ _
  have ht : refuseVariant s = reportCorrected (raise (fputB s Fld.SCHED_STATUS_VPEND false) Fld.SCHED_EVENT_VSEL_REFUSED) 0x0281 (stampI s) :=
    report_corrected ..
  rw [ht]
  refine ⟨?_, ?_, ?_, correctedReported_after hu _ _ (by decide) (by decide), hm.trans (sameMemory_reportCorrected ..)⟩
  · rw [fget_reportCorrected _ _ _ _ (by decide) (by decide), hu.fget_eq (by decide)]
  · rw [bit_reportCorrected _ _ _ _ (by decide) (by decide), raise, bit_fput_of_ne _ _ _ _ (by decide),
      bit_fputB_self _ _ _ (by decide) rfl]
  · rw [bit_reportCorrected _ _ _ _ (by decide) (by decide), bit_raise_self _ _ (by decide) rfl]

/-! ### VARIANT_SWITCH (R89, R91) -/

/-- The registers of a switch: the requested variant is active, the request is over. -/
def switchMarked (s : State) : State :=
  raise (fput (fput s Fld.SCHED_STATUS_VPEND 0) Fld.SCHED_STATUS_VACT (fget s Fld.SCHED_STATUS_VREQ)) Fld.SCHED_EVENT_VSEL_DONE

/-- A switch with its record, its check windows and its ports. -/
def variantSwitched (s : State) (ts : Nat) (p : List Byte) : State :=
  refreshPorts (setWindows (pushRecord (switchMarked s) 2 0 0 ts p) (fget s Fld.SCHED_STATUS_VREQ))

section
variable {s : State} (hp : bit s Fld.SCHED_STATUS_VPEND = true) (hr : engineRuns s = true) (h0 : s.time.round = 0)
  (h2 : 2 ≤ s.sched.vselBoundaries)
include hp hr h0 h2

theorem switchDue : (bit s Fld.SCHED_STATUS_VPEND && engineRuns s && s.time.round == 0 && decide (2 ≤ s.sched.vselBoundaries)) = true := by
  rw [hp, hr, h0]
  simpa using h2

theorem exec_variantSwitch_of_refused (h : variantRefused s (fget s Fld.SCHED_STATUS_VREQ) = true) :
    exec .variantSwitch s = .next (refuseVariant s) := (if_pos (switchDue hp hr h0 h2)).trans (if_pos h)

theorem exec_variantSwitch_of_accepted (h : variantRefused s (fget s Fld.SCHED_STATUS_VREQ) = false) :
    ∃ ts p, exec .variantSwitch s = .next (variantSwitched s ts p) :=
  ⟨_, _, (if_pos (switchDue hp hr h0 h2)).trans (if_neg (by rw [h]; decide))⟩

end

theorem exec_variantSwitch_of_not_due {s : State} (h : bit s Fld.SCHED_STATUS_VPEND = false ∨ engineRuns s = false ∨
    s.time.round ≠ 0 ∨ s.sched.vselBoundaries < 2) : exec .variantSwitch s = .next s := by
  refine if_neg fun hc => ?_
  simp only [Bool.and_eq_true, beq_iff_eq, decide_eq_true_eq] at hc
  obtain ⟨⟨⟨hp, hr⟩, h0⟩, h2⟩ := hc
  rcases h with h | h | h | h
  · rw [hp] at h; cases h
  · rw [hr] at h; cases h
  · exact h h0
  · omega

/-- Behind its marks a switch leaves the registers of SCHED. -/
theorem rd_variantSwitched (s : State) (ts : Nat) (p : List Byte) {a : Nat} (hf : faultOrRec a = false) (hp : portReg a = false)
    (hw : a ≠ Reg.TEST_ADC_NA) : rd (variantSwitched s ts p) a = rd (switchMarked s) a := by
  rw [variantSwitched, regs_refreshPorts _ a hp, setWindows, rd_setSched, rd_fput_of_ne _ _ hw, regs_pushRecord _ _ _ _ _ _ a hf]

theorem loops_of_stateFrame {s t : State} (h : stateFrame t = stateFrame s) : t.loops = s.loops := (congrArg State.loops h :)

/-- A switch changes no loop context and no byte of memory. -/
theorem variantSwitched_keeps (s : State) (ts : Nat) (p : List Byte) : let t := variantSwitched s ts p
    t.loops = s.loops ∧ SameMemory s t := by
  have hmark : stateFrame (switchMarked s) = stateFrame s := by rw [switchMarked, stateFrame_raise, stateFrame_fput, stateFrame_fput]
  have hpush := (stateFrame_pushRecord (switchMarked s) 2 0 0 ts p).trans hmark
  rw [variantSwitched]
  generalize pushRecord (switchMarked s) 2 0 0 ts p = u at hpush
  have hwin : (setWindows u (fget s Fld.SCHED_STATUS_VREQ)).loops = u.loops ∧ SameMemory u (setWindows u (fget s Fld.SCHED_STATUS_VREQ)) :=
    ⟨rfl, fun _ => rfl, fun _ => rfl⟩
  have hports := stateFrame_refreshPorts (setWindows u (fget s Fld.SCHED_STATUS_VREQ))
  exact ⟨(loops_of_stateFrame hports).trans (hwin.1.trans (loops_of_stateFrame hpush)),
    ((sameMemory_of_stateFrame hpush).trans hwin.2).trans (sameMemory_of_stateFrame hports)⟩

theorem variantSwitched_effects (s : State) (ts : Nat) (p : List Byte) : let t := variantSwitched s ts p
    fget t Fld.SCHED_STATUS_VACT = fget s Fld.SCHED_STATUS_VREQ ∧ bit t Fld.SCHED_STATUS_VPEND = false ∧
    bit t Fld.SCHED_EVENT_VSEL_DONE = true ∧ t.loops = s.loops ∧ SameMemory s t := by
  obtain ⟨hloops, hmem⟩ := variantSwitched_keeps s ts p
  have hstatus := rd_variantSwitched s ts p (a := Reg.SCHED_STATUS) (by decide) (by decide) (by decide)
  have hevent := rd_variantSwitched s ts p (a := Reg.SCHED_EVENT) (by decide) (by decide) (by decide)
  have hvreq : fget s Fld.SCHED_STATUS_VREQ < 2 ^ 2 := fget_lt ..
  dsimp only
  refine ⟨?_, ?_, ?_, hloops, hmem⟩
  · rw [fget_of_rd Fld.SCHED_STATUS_VACT hstatus, switchMarked, raise, fget_fput_of_ne _ _ _ _ (by decide), fget_fput_self _ _ _ (by decide),
      Nat.mod_eq_of_lt hvreq]
  · rw [bit_of_rd Fld.SCHED_STATUS_VPEND hstatus, switchMarked, raise, bit_fput_of_ne _ _ _ _ (by decide), bit_fput_of_ne _ _ _ _ (by decide)]
    exact bit_fputB_self s _ false (by decide) rfl
  · rw [bit_of_rd Fld.SCHED_EVENT_VSEL_DONE hevent, switchMarked, bit_raise_self _ _ (by decide) rfl]

/-- Settles O12: a request is taken or refused at once, and judged again when its switch is due. -/
theorem variantRequestsAndSwitch : Obligations.VariantRequestsAndSwitch := by
  unfold Obligations.VariantRequestsAndSwitch
  refine ⟨fun s v h => ⟨s, exec_schedVsel_of_badKey s h, rfl⟩, fun s v hk hr => ?_, fun s v hk hr => ?_,
    fun s hp hrun h0 h2 => ?_, fun s h => exec_variantSwitch_of_not_due h⟩
  · rw [exec_schedVsel_of_key s hk, hr, if_neg Bool.false_ne_true]
    obtain ⟨hreq, hpend, hbits⟩ := variantAsked_effects s (v := getBits v 0 2) (getBits_lt v 0 2)
    exact answersNext_next ⟨hreq, hpend, hbits.of_live rfl, rfl⟩
  · rw [exec_schedVsel_of_key s hk, hr, if_pos rfl]
    exact answersNext_next (refuseVariant_effects s).2
  · refine ⟨fun hr => ?_, fun hr => ⟨_, exec_variantSwitch_of_refused hp hrun h0 h2 hr, refuseVariant_effects s⟩⟩
    obtain ⟨ts, p, hexec⟩ := exec_variantSwitch_of_accepted hp hrun h0 h2 hr
    exact ⟨_, hexec, variantSwitched_effects s ts p⟩

end Sys2Proof.Machine
end

section
set_option Elab.async false
namespace Sys2Proof.Machine

/-! ### What the start of a program leaves (R75) -/

/-- `t` is `s` after operations that leave the timebase, the schedule with its registers, and both memories. -/
structure StartStep (s t : State) : Prop where
  regs : SameRegsOutside offSched s t
  time : t.time = s.time
  sched : t.sched = s.sched
  eng : t.engMem = s.engMem
  nvm : t.nvm = s.nvm

section
variable {s t u : State}

theorem StartStep.refl (s : State) : StartStep s s := ⟨SameRegsOutside.refl _ s, rfl, rfl, rfl, rfl⟩

theorem StartStep.trans (h : StartStep s t) (g : StartStep t u) : StartStep s u :=
  ⟨h.regs.trans g.regs, g.time.trans h.time, g.sched.trans h.sched, g.eng.trans h.eng, g.nvm.trans h.nvm⟩

theorem StartStep.wr (h : StartStep s t) (a : Nat) (v : Word) (ha : 0x3000 ≤ a) : StartStep s (wr t a v) :=
  ⟨h.regs.wr a v (offSched_of_le ha), h.time, h.sched, h.eng, h.nvm⟩

theorem StartStep.fput (h : StartStep s t) (f : Field) (v : Nat) (hf : 0x3000 ≤ f.addr) : StartStep s (fput t f v) := h.wr _ _ hf

theorem StartStep.setLoop (h : StartStep s t) (n : Fin 64) (g : LoopSt → LoopSt) : StartStep s (setLoop t n g) :=
  ⟨h.regs, h.time, h.sched, h.eng, h.nvm⟩

theorem StartStep.setCmp (h : StartStep s t) (p : Fin 32) (c : Fin 4) (g : CmpSt → CmpSt) : StartStep s (setCmp t p c g) :=
  ⟨h.regs, h.time, h.sched, h.eng, h.nvm⟩

theorem StartStep.ports (h : StartStep s t) (v : Vector PortSt 32) : StartStep s { t with ports := v } :=
  ⟨h.regs, h.time, h.sched, h.eng, h.nvm⟩

theorem StartStep.capo (h : StartStep s t) (c : CapoSt) : StartStep s { t with capo := c } := ⟨h.regs, h.time, h.sched, h.eng, h.nvm⟩

/-- A fold of such operations is one. -/
theorem startStep_foldl {α : Type} {f : State → α → State} (h : ∀ t x, StartStep t (f t x)) (l : List α) (s : State) :
    StartStep s (l.foldl f s) := foldl_keeps (StartStep s) f (fun t x ht => ht.trans (h t x)) l s (.refl s)

end

theorem startStep_cmpStart (s : State) (p : Fin 32) (c : Fin 4) : StartStep s (cmpStart s p c) :=
  ((((StartStep.refl s).fput _ _ (le_cmpAddr 0x10110 (by decide))).fput _ _ (le_cmpAddr 0x10110 (by decide))).setCmp p c _).setCmp p c _

theorem sampReg_le (p c : Nat) : 0x10044 ≤ sampReg p c := by
  unfold sampReg
  split
  · exact Nat.le_add_right 0x10044 _
  · exact le_trans (by decide) (Nat.le_add_right 0x10048 _)
  · exact le_trans (by decide) (Nat.le_add_right 0x1004C _)

theorem startStep_portStart (s : State) (p : Fin 32) : StartStep s (portStart s p) :=
  (startStep_foldl (fun t c => (StartStep.refl t).fput _ _ (le_trans (by decide) (sampReg_le p c))) (List.range 3) s).ports _

theorem startStep_shareStart (s : State) : StartStep s (shareStart s) := by
  have ha (b : Nat) (h : 0x3000 ≤ b) (i : Nat) : 0x3000 ≤ b + 4 * i := by omega
  exact (startStep_foldl (fun t i => ((StartStep.refl t).wr (Reg.CAPO_PTRIM i) 0 (ha _ (by decide) i)).wr (Reg.CAPO_CTRIM i) 0
    (ha _ (by decide) i)) (List.range 32) s).capo _

theorem startStep_of_stateFrame {s t : State} (h : stateFrame t = stateFrame s) (hr : SameRegsOutside offSched s t) : StartStep s t :=
  ⟨hr, (congrArg State.time h :), (congrArg State.sched h :), (congrArg State.engMem h :), (congrArg State.nvm h :)⟩

/-- Bringing the ports up to date is such an operation. -/
theorem startStep_refreshPorts (s : State) : StartStep s (refreshPorts s) :=
  startStep_of_stateFrame (stateFrame_refreshPorts s) (roundStep_refreshPorts s).regs

/-! ### ENGINE_START (R75, R526) -/

/-- The schedule of a program that starts. -/
def startSched (s : State) : SchedSt :=
  { s.sched with startDue := false, startAt := s.time.base, phase := Vector.replicate 16 0, openRecs := [], names := s.sched.next }

/-- The loops and the ports as a program finds them: the state before SCHED shows the start. -/
def startReady (s : State) : State :=
  (List.finRange 32).foldl (fun s p => (List.finRange 4).foldl (fun s c => cmpStart s p c) (portStart s p))
    ((List.finRange 64).foldl (fun s n =>
      fput (setLoop s n fun l => { l with region := 0, cand := none, firstRegion := true }) (Fld.LOOP_STATUS_REGION n) 0)
      (setSched s fun _ => startSched s))

theorem startStep_startReady (s : State) : StartStep (setSched s fun _ => startSched s) (startReady s) :=
  (startStep_foldl (fun t n => ((StartStep.refl t).setLoop n _).fput _ _ (le_trans (by decide) (Nat.le_add_right 0x18010 _))) _ _).trans
    (startStep_foldl (fun t p => (startStep_portStart t p).trans (startStep_foldl (fun u c => startStep_cmpStart u p c) _ _)) _ _)

/-- SCHED shows the start. -/
def startShown (s : State) : State :=
  wr (fput (fput s Fld.SCHED_STATUS_RUN 1) Fld.SCHED_STATUS_VACT 0) Reg.SCHED_ROUNDS 0

theorem programStart_eq (s : State) : programStart s =
    refreshPorts (setWindows (raise (shareStart (startShown (startReady s))) Fld.SCHED_EVENT_ENGINE_START) 0) := rfl

theorem programStart_effects (s : State) : let t := programStart s
    engineRuns t = true ∧ fget t Fld.SCHED_STATUS_VACT = 0 ∧ bit t Fld.SCHED_STATUS_VPEND = bit s Fld.SCHED_STATUS_VPEND ∧
    rd t Reg.SCHED_ROUNDS = 0 ∧ bit t Fld.SCHED_EVENT_ENGINE_START = true ∧ t.sched.startDue = false ∧
    t.sched.phase = Vector.replicate 16 0 ∧ t.time = s.time ∧ SameMemory s t := by
  rw [programStart_eq]
  have h1 := startStep_startReady s
  generalize startReady s = s1 at h1
  have h2 := startStep_shareStart (startShown s1)
  generalize shareStart (startShown s1) = s2 at h2
  have h3 := startStep_refreshPorts (setWindows (raise s2 Fld.SCHED_EVENT_ENGINE_START) 0)
  generalize refreshPorts (setWindows (raise s2 Fld.SCHED_EVENT_ENGINE_START) 0) = t at h3
  have hreg : ∀ a, 0x2000 ≤ a → a < 0x3000 → a ≠ Reg.SCHED_EVENT → rd t a = rd (startShown s1) a := fun a hlo hhi hne => by
    have ha : offSched a = false := by simp [offSched, hlo, hhi]
    rw [h3.regs a ha, setWindows, rd_setSched, rd_fput_of_ne _ _ (by simp only [Reg.TEST_ADC_NA]; omega), raise,
      rd_fput_of_ne _ _ hne, h2.regs a ha]
  have hstatus : rd t Reg.SCHED_STATUS = rd (fput (raise s1 Fld.SCHED_STATUS_RUN) Fld.SCHED_STATUS_VACT 0) Reg.SCHED_STATUS := by
    rw [hreg _ (by decide) (by decide) (by decide), startShown, rd_wr_of_ne _ _ (by decide)]
    rfl
  have hevent : rd t Reg.SCHED_EVENT = rd (raise s2 Fld.SCHED_EVENT_ENGINE_START) Reg.SCHED_EVENT := by
    rw [h3.regs _ (by decide), setWindows, rd_setSched, rd_fput_of_ne _ _ (by decide)]
  refine ⟨?_, ?_, ?_, ?_, ?_, ?_, ?_, ?_, fun o => ?_, fun o => ?_⟩
  · rw [engineRuns, bit_of_rd Fld.SCHED_STATUS_RUN hstatus, bit_fput_of_ne _ _ _ _ (by decide), bit_raise_self _ _ (by decide) rfl]
  · rw [fget_of_rd Fld.SCHED_STATUS_VACT hstatus, fget_fput_self _ _ _ (by decide)]
    rfl
  · rw [bit_of_rd Fld.SCHED_STATUS_VPEND hstatus, bit_fput_of_ne _ _ _ _ (by decide), raise, bit_fput_of_ne _ _ _ _ (by decide)]
    exact bit_of_rd Fld.SCHED_STATUS_VPEND (h1.regs _ (by decide))
  · rw [hreg _ (by decide) (by decide) (by decide), startShown, rd_wr_self]
  · rw [bit_of_rd Fld.SCHED_EVENT_ENGINE_START hevent, bit_raise_self _ _ (by decide) rfl]
  · rw [h3.sched, setWindows, setSched_sched, fput_sched, raise_sched, h2.sched, startShown, wr_sched, fput_sched, fput_sched, h1.sched]
    rfl
  · rw [h3.sched, setWindows, setSched_sched, fput_sched, raise_sched, h2.sched, startShown, wr_sched, fput_sched, fput_sched, h1.sched]
    rfl
  · rw [h3.time, setWindows, setSched_time, fput_time, raise_time, h2.time, startShown, wr_time, fput_time, fput_time, h1.time]
    rfl
  · rw [engByte, h3.eng, setWindows, setSched_engMem, fput_engMem, raise_engMem, h2.eng, startShown, wr_engMem, fput_engMem, fput_engMem,
      h1.eng]
    rfl
  · rw [nvmByte, h3.nvm, setWindows, setSched_nvm, fput_nvm, raise_nvm, h2.nvm, startShown, wr_nvm, fput_nvm, fput_nvm, h1.nvm]
    rfl

theorem exec_engineStart_of_due {s : State} (hd : s.sched.startDue = true) (hi : s.trust.inert = false) (ht : s.time.take = false)
    (h0 : s.time.round = 0) (hs : stateRuns (devState s) = true) : exec .engineStart s = .next (programStart (pllStart s)) :=
  if_pos (by rw [hd, hi, ht, h0, hs]; rfl)

theorem exec_engineStart_of_not_due {s : State} (h : s.sched.startDue = false ∨ s.trust.inert = true ∨ s.time.take = true ∨
    s.time.round ≠ 0 ∨ stateRuns (devState s) = false) : exec .engineStart s = .next s := by
  refine if_neg fun hc => ?_
  simp only [Bool.and_eq_true, Bool.not_eq_true', beq_iff_eq] at hc
  obtain ⟨⟨⟨⟨hd, hi⟩, ht⟩, h0⟩, hs⟩ := hc
  rcases h with h | h | h | h | h
  · rw [hd] at h; cases h
  · rw [hi] at h; cases h
  · rw [ht] at h; cases h
  · exact h h0
  · rw [hs] at h; cases h

/-- The engine runs in the states in which a program starts (R76). -/
theorem stateRuns_of {d : DevState} (h : d = .idle ∨ d = .armed ∨ d = .safe ∨ d = .test) : stateRuns d = true := by
  rcases h with rfl | rfl | rfl | rfl <;> rfl

/-- Settles O13: the start of the grid angle, and then that of the program. -/
theorem engineStartsAtFretZero : Obligations.EngineStartsAtFretZero := by
  unfold Obligations.EngineStartsAtFretZero
  refine ⟨fun s hd hi ht h0 hs => ?_, fun s h => exec_engineStart_of_not_due h, fun s => ?_⟩
  · rw [exec_engineStart_of_due hd hi ht h0 (stateRuns_of hs)]
    obtain ⟨hrun, hvact, hvpend, hrounds, hevent, hdue, hphase, htime, hmem⟩ := programStart_effects (pllStart s)
    exact answersNext_next ⟨hrun, hvact, hvpend, hrounds, hevent, hdue, hphase, by rw [htime]; rfl, by rw [htime]; rfl, hmem⟩
  · exact ⟨clearQdrop s, rfl, rd_wr_self _ _ _, (SameBits.refl _ s).wr _ _ (by simp), rfl⟩

end Sys2Proof.Machine
end

section
set_option Elab.async false
namespace Sys2Proof.Machine

/-! ### A queue and its status (R372, R373, R376) -/

theorem queueOf_setQueue_self (s : State) (q : Fin 64) (f : QueueSt → QueueSt) : queueOf (setQueue s q f) q = f (queueOf s q) :=
  upd_get_self ..

theorem queueOf_setQueue_of_ne (s : State) {q k : Fin 64} (f : QueueSt → QueueSt) (h : k ≠ q) :
    queueOf (setQueue s q f) k = queueOf s k := upd_get_of_ne _ _ h

/-- The registers of the status of queue `q`, of the watermark events and of the QFL pins. -/
def queueStatusReg (q : Fin 64) (a : Nat) : Bool :=
  [Reg.HOSTIF_Q_STAT q, Reg.HOSTIF_QEVENT_LO, Reg.HOSTIF_QEVENT_HI, Reg.HOSTIF_STATUS].contains a

theorem queueStatusReg_stat (q : Fin 64) : queueStatusReg q (Reg.HOSTIF_Q_STAT q) = true := by simp [queueStatusReg]

theorem queueStatusReg_qevent (q : Fin 64) (n : Nat) : queueStatusReg q (qeventFld n).addr = true := by
  unfold qeventFld
  split <;> simp [queueStatusReg]

theorem queueStatusReg_host (q : Fin 64) : queueStatusReg q Reg.HOSTIF_STATUS = true := by simp [queueStatusReg]

theorem writesRegs_judgeWmf (s : State) (q : Fin 64) : WritesRegs (queueStatusReg q) s (judgeWmf s q) := by
  unfold judgeWmf
  extract_lets hi fill was now s1 s2
  have h1 : WritesRegs (queueStatusReg q) s s1 := (WritesRegs.refl _ s).fput _ _ (queueStatusReg_stat q)
  have h2 : WritesRegs (queueStatusReg q) s s2 := by
    by_cases h : (now && !was) = true
    · simp only [s2, if_pos h]
      exact h1.fput _ _ (queueStatusReg_qevent q q)
    · simp only [s2, if_neg h]
      exact h1
  exact h2.fput _ _ (queueStatusReg_host q)

/-- Bringing the status of a queue up to date writes its status registers only. -/
theorem writesRegs_syncQueue (s : State) (q : Fin 64) : WritesRegs (queueStatusReg q) s (syncQueue s q) := by
  have hs := queueStatusReg_stat q
  exact (((((WritesRegs.refl _ s).fput _ _ hs).fput _ _ hs).fput _ _ hs).fput _ _ hs).trans (writesRegs_judgeWmf _ q)

/-- An entry at the end of queue `q`, with its status. -/
def entryPut (s : State) (q : Fin 64) (w : Word) : State := syncQueue (setQueue s q fun x => { x with entries := x.entries ++ [w] }) q

/-- An entry put changes its queue and its status registers. -/
theorem entryPut_only (s : State) (q : Fin 64) (w : Word) : let t := entryPut s q w
    t = { s with live := t.live, queues := t.queues } := by
  have h := (writesRegs_syncQueue (setQueue s q fun x => { x with entries := x.entries ++ [w] }) q).only
  dsimp only
  rw [entryPut, h]
  rfl

theorem entryPut_effects (s : State) (q : Fin 64) (w : Word) : let t := entryPut s q w
    (queueOf t q).entries = (queueOf s q).entries ++ [w] ∧ (∀ k, k ≠ q → queueOf t k = queueOf s k) ∧ SameMemory s t ∧
    SameRegsOutside (queueStatusReg q) s t := by
  have hw := writesRegs_syncQueue (setQueue s q fun x => { x with entries := x.entries ++ [w] }) q
  have hq : ∀ k, queueOf (entryPut s q w) k = queueOf (setQueue s q fun x => { x with entries := x.entries ++ [w] }) k := fun k => by
    rw [entryPut, hw.only]
    rfl
  refine ⟨by rw [hq, queueOf_setQueue_self], fun k hk => by rw [hq, queueOf_setQueue_of_ne _ _ hk], ?_, fun a ha => hw.regs a ha⟩
  rw [entryPut_only s q w]
  exact ⟨fun _ => rfl, fun _ => rfl⟩

/-! ### Open records (R87) -/

/-- A record put in place is the open one of its queue, until its last word. -/
theorem openRec_putRec (s : State) (r : OpenRec) : openRec (putRec s r) r.queue = if r.left = 0 then none else some r := by
  by_cases h : r.left = 0 <;> simp [openRec, putRec, h]

/-- An open record is one of its queue. -/
theorem queue_of_openRec {s : State} {q : Nat} {r : OpenRec} (h : openRec s q = some r) : r.queue = q := by
  simpa using List.find?_some h

/-- Putting a record in place changes the schedule only. -/
theorem putRec_only (s : State) (r : OpenRec) : let t := putRec s r
    t = { s with sched := t.sched } := rfl

/-- An entry put, and its record put in place. -/
theorem wordPut_effects (s : State) (q : Fin 64) (w : Word) (r : OpenRec) : let t := putRec (entryPut s q w) r
    (queueOf t q).entries = (queueOf s q).entries ++ [w] ∧ (∀ k, k ≠ q → queueOf t k = queueOf s k) ∧ SameMemory s t ∧
    SameRegsOutside (queueStatusReg q) s t := by
  have h := entryPut_effects s q w
  generalize entryPut s q w = u at h ⊢
  exact h

/-! ### QPUSH (R87, R88, R161) -/

/-- The record behind one of its words. -/
def OpenRec.next (r : OpenRec) (high : Option Word) : OpenRec := { r with left := r.left - 1, high := high }

theorem openRec_putRec_next (s : State) (r : OpenRec) (high : Option Word) : (openRec (putRec s (r.next high)) r.queue).map (·.left) =
    if r.left ≤ 1 then none else some (r.left - 1) := by
  rw [show r.queue = (r.next high).queue from rfl, openRec_putRec]
  have hl : (r.next high).left = 0 ↔ r.left ≤ 1 := by
    simp only [OpenRec.next]
    omega
  by_cases h : r.left ≤ 1
  · rw [if_pos (hl.2 h), if_pos h]
    rfl
  · rw [if_neg (fun e => h (hl.1 e)), if_neg h]
    rfl

/-- A word of a record that is not dropped adds its entry. -/
theorem pushWord_of_kept (s : State) (q : Fin 64) {r : OpenRec} (code f : Nat) (h : r.dropped = false) :
    ∃ high, pushWord s q r code f = putRec (entryPut s q (telemetryWord s code f r.high)) (r.next high) := by
  refine ⟨if code = 0x400 then some (BitVec.ofNat 32 (stampE s f / 2 ^ 32)) else none, ?_⟩
  rw [pushWord, if_neg (by rw [h]; decide)]
  rfl

/-- A word of a dropped record adds none. -/
theorem pushWord_of_dropped (s : State) (q : Fin 64) {r : OpenRec} (code f : Nat) (h : r.dropped = true) :
    ∃ high, pushWord s q r code f = putRec s (r.next high) := by
  refine ⟨if code = 0x400 then some (BitVec.ofNat 32 (stampE s f / 2 ^ 32)) else none, ?_⟩
  rw [pushWord, if_pos h]
  rfl

/-- The declared length of the record that a QPUSH opens (R87). -/
def recordLen (l : LaneFields) : Nat := if l.argBits 8 5 = 0 then 32 else l.argBits 8 5

theorem recordLen_pos (l : LaneFields) : 1 ≤ recordLen l := by
  unfold recordLen
  split <;> omega

/-- The signal code of the telemetry entry that a QPUSH names (R161). -/
def pushCode (s : State) (l : LaneFields) : Nat := (telemetryEntry s (l.argBits 0 8)).1

/-- A drop counted, for the queue and for the schedule, and raised (R88). -/
def dropCounted (s : State) (q : Fin 64) : State :=
  raise (inc (inc s (Fld.HOSTIF_Q_DROP_DROP q)) Fld.SCHED_QDROP_QDROP) Fld.SCHED_EVENT_QDROP

theorem exec_qpush_of_idle {s : State} {l : LaneFields} (f : Nat) (h : laneActs s 0x20 l = false) : exec (.qpush l f) s = .next s :=
  if_pos (by rw [h]; rfl)

section
variable {s : State} {l : LaneFields} (f : Nat) {q : Fin 64}

theorem exec_qpush_of_acts (h : laneActs s 0x20 l = true) (hq : l.ctx.toNat = q.val) : exec (.qpush l f) s =
    if l.argBits 13 1 = 1 then
      .next (pushWord (if decide (recordLen l ≤ engineFree s q) then s else dropCounted s q) q
        ⟨q, recordLen l, !decide (recordLen l ≤ engineFree s q), none⟩ (pushCode s l) f)
    else match openRec s q with
      | some r => .next (pushWord s q r (pushCode s l) f)
      | none => .next s := by
  have hlt : l.ctx.toNat < 64 := by omega
  obtain rfl : q = ⟨l.ctx.toNat, hlt⟩ := Fin.ext hq.symm
  exact (if_neg (by rw [h]; decide)).trans (dif_pos hlt)

theorem exec_qpush_outside (h : 64 ≤ l.ctx.toNat) : exec (.qpush l f) s = .next s := by
  by_cases ha : laneActs s 0x20 l = true
  · exact (if_neg (by rw [ha]; decide)).trans (dif_neg (by omega))
  · exact exec_qpush_of_idle f (Bool.eq_false_iff.2 ha)

/-- A record that fits is opened with its first entry. -/
theorem exec_qpush_first_of_room (h : laneActs s 0x20 l = true) (hq : l.ctx.toNat = q.val) (hf : l.argBits 13 1 = 1)
    (hn : recordLen l ≤ engineFree s q) : ∃ high, exec (.qpush l f) s =
      .next (putRec (entryPut s q (telemetryWord s (pushCode s l) f none)) (OpenRec.next ⟨q, recordLen l, false, none⟩ high)) := by
  obtain ⟨high, hw⟩ := pushWord_of_kept s q (r := ⟨q, recordLen l, false, none⟩) (pushCode s l) f rfl
  refine ⟨high, ?_⟩
  rw [exec_qpush_of_acts f h hq, if_pos hf, decide_eq_true hn, if_pos rfl, ← hw]
  rfl

/-- One that does not fit is opened as dropped, and counted. -/
theorem exec_qpush_first_of_full (h : laneActs s 0x20 l = true) (hq : l.ctx.toNat = q.val) (hf : l.argBits 13 1 = 1)
    (hn : engineFree s q < recordLen l) : ∃ high, exec (.qpush l f) s =
      .next (putRec (dropCounted s q) (OpenRec.next ⟨q, recordLen l, true, none⟩ high)) := by
  obtain ⟨high, hw⟩ := pushWord_of_dropped (dropCounted s q) q (r := ⟨q, recordLen l, true, none⟩) (pushCode s l) f rfl
  refine ⟨high, ?_⟩
  rw [exec_qpush_of_acts f h hq, if_pos hf, decide_eq_false (by omega), if_neg Bool.false_ne_true, ← hw]
  rfl

/-- A later word goes to the open record. -/
theorem exec_qpush_later {r : OpenRec} (h : laneActs s 0x20 l = true) (hq : l.ctx.toNat = q.val) (hf : l.argBits 13 1 = 0)
    (hr : openRec s q = some r) : exec (.qpush l f) s = .next (pushWord s q r (pushCode s l) f) := by
  rw [exec_qpush_of_acts f h hq, if_neg (by rw [hf]; decide), hr]

theorem exec_qpush_none (hq : l.ctx.toNat = q.val) (hf : l.argBits 13 1 = 0) (hr : openRec s q = none) :
    exec (.qpush l f) s = .next s := by
  by_cases h : laneActs s 0x20 l = true
  · rw [exec_qpush_of_acts f h hq, if_neg (by rw [hf]; decide), hr]
  · exact exec_qpush_of_idle f (Bool.eq_false_iff.2 h)

end

/-- A drop is counted twice and raised once, and no queue changes. -/
theorem dropCounted_effects (s : State) (q : Fin 64) (r : OpenRec) : let t := putRec (dropCounted s q) r
    (∀ k, queueOf t k = queueOf s k) ∧ SameMemory s t ∧ bit t Fld.SCHED_EVENT_QDROP = true ∧
    fget t (Fld.HOSTIF_Q_DROP_DROP q) = min (fget s (Fld.HOSTIF_Q_DROP_DROP q) + 1) (2 ^ 32 - 1) ∧
    fget t Fld.SCHED_QDROP_QDROP = min (fget s Fld.SCHED_QDROP_QDROP + 1) (2 ^ 32 - 1) ∧
    SameBits [Fld.HOSTIF_Q_DROP_DROP q, Fld.SCHED_QDROP_QDROP, Fld.SCHED_EVENT_QDROP] s t := by
  have hevent : bit (dropCounted s q) Fld.SCHED_EVENT_QDROP = true := bit_raise_self _ _ (by decide) rfl
  have hbits : SameBits [Fld.HOSTIF_Q_DROP_DROP q, Fld.SCHED_QDROP_QDROP, Fld.SCHED_EVENT_QDROP] s (dropCounted s q) :=
    (((SameBits.refl _ s).inc _ (by simp)).inc _ (by simp)).raise _ (by simp)
  have hdrop : fget (dropCounted s q) (Fld.HOSTIF_Q_DROP_DROP q) = min (fget s (Fld.HOSTIF_Q_DROP_DROP q) + 1) (2 ^ 32 - 1) := by
    rw [dropCounted, raise, fget_fput_of_ne _ _ _ _ (.inl (below_ne_block _ (by decide)).symm), inc,
      fget_fput_of_ne _ _ _ _ (.inl (below_ne_block _ (by decide)).symm), fget_inc_self _ _ (by simp)]
  have hqdrop : fget (dropCounted s q) Fld.SCHED_QDROP_QDROP = min (fget s Fld.SCHED_QDROP_QDROP + 1) (2 ^ 32 - 1) := by
    rw [dropCounted, raise, fget_fput_of_ne _ _ _ _ (by decide), fget_inc_self _ _ (by simp), inc,
      fget_fput_of_ne _ _ _ _ (.inl (below_ne_block _ (by decide)))]
  have hqueues : (dropCounted s q).queues = s.queues := rfl
  have hmem : SameMemory s (dropCounted s q) := (((SameMemory.refl s).fput _ _).fput _ _).fput _ _
  generalize dropCounted s q = u at hevent hbits hdrop hqdrop hqueues hmem ⊢
  exact ⟨fun k => congrArg (Vector.get · k) hqueues, hmem, hevent, hdrop, hqdrop, hbits⟩

/-- Settles O35: every word puts its entry, or none, and then its record in place. -/
theorem queuesKeepWholeRecords : Obligations.QueuesKeepWholeRecords := by
  unfold Obligations.QueuesKeepWholeRecords
  refine ⟨fun s l f q ha hq hf => ?_, fun s l f q r ha hq hf hr hd => ?_, fun s l f q r ha hq hf hr hd => ?_,
    fun s l f q hq hf hr => exec_qpush_none f hq hf hr, fun s l f h => h.elim (exec_qpush_of_idle f) (exec_qpush_outside f)⟩
  · have hone : recordLen l ≤ 1 ↔ recordLen l = 1 := by
      have := recordLen_pos l
      omega
    change AnswersNext _ fun t => (∀ k, k ≠ q → queueOf t k = queueOf s k) ∧ SameMemory s t ∧
      (openRec t q).map (·.left) = (if recordLen l = 1 then none else some (recordLen l - 1)) ∧
      (recordLen l ≤ engineFree s q → _) ∧ (engineFree s q < recordLen l → _)
    by_cases hn : recordLen l ≤ engineFree s q
    · obtain ⟨high, hexec⟩ := exec_qpush_first_of_room f ha hq hf hn
      have hopen := openRec_putRec_next (entryPut s q (telemetryWord s (pushCode s l) f none)) ⟨q, recordLen l, false, none⟩ high
      obtain ⟨hentry, hother, hmem, hregs⟩ := wordPut_effects s q (telemetryWord s (pushCode s l) f none)
        (OpenRec.next ⟨q, recordLen l, false, none⟩ high)
      simp only [hone] at hopen
      exact ⟨_, hexec, hother, hmem, hopen, fun _ => ⟨hentry, hregs⟩, fun h => absurd hn (by omega)⟩
    · obtain ⟨high, hexec⟩ := exec_qpush_first_of_full f ha hq hf (by omega)
      have hopen := openRec_putRec_next (dropCounted s q) ⟨q, recordLen l, true, none⟩ high
      obtain ⟨hqueues, hmem, hevent, hdrop, hqdrop, hbits⟩ := dropCounted_effects s q (OpenRec.next ⟨q, recordLen l, true, none⟩ high)
      simp only [hone] at hopen
      exact ⟨_, hexec, fun k _ => hqueues k, hmem, hopen, fun h => absurd h hn, fun _ => ⟨hqueues q, hevent, hdrop, hqdrop, hbits⟩⟩
  · obtain ⟨high, hw⟩ := pushWord_of_kept s q (pushCode s l) f hd
    exact ⟨_, (exec_qpush_later f ha hq hf hr).trans (congrArg _ hw), wordPut_effects s q _ (r.next high)⟩
  · obtain ⟨high, hw⟩ := pushWord_of_dropped s q (pushCode s l) f hd
    refine ⟨_, (exec_qpush_later f ha hq hf hr).trans (congrArg _ hw), ?_, putRec_only s _⟩
    rw [← queue_of_openRec hr, openRec_putRec_next]

end Sys2Proof.Machine
end

section
set_option Elab.async false
namespace Sys2Proof.Machine

/-! ### The code of a conversion (R97, R99, R102, R103) -/

theorem clipI_bounds {v lo hi : Int} (h : lo ≤ hi) : lo ≤ clipI v lo hi ∧ clipI v lo hi ≤ hi := by
  unfold clipI
  split
  · omega
  · split <;> omega

/-- What lies inside is not clipped. -/
theorem clipI_of_mem {v lo hi : Int} (hl : lo ≤ v) (hh : v ≤ hi) : clipI v lo hi = v := by
  rw [clipI, if_neg (by omega), if_neg (by omega)]

/-- The ends of a channel, as the rules of R97 spell them. -/
theorem adcEnds_eq (c : Nat) : adcEnds c = (if c = 0 then -8192 else 0, if c = 0 then 8191 else 16383) := by
  unfold adcEnds
  split <;> rfl

theorem adcEnds_le (c : Nat) : (adcEnds c).1 ≤ (adcEnds c).2 := by
  unfold adcEnds
  split <;> decide

/-- The mean of two codes lies between the ends that both lie between. -/
theorem adcMean_bounds (s : State) {a b lo hi : Int} (ha : lo ≤ a ∧ a ≤ hi) (hb : lo ≤ b ∧ b ≤ hi) :
    lo ≤ adcMean s a b ∧ adcMean s a b ≤ hi := by
  unfold adcMean
  split
  · rw [Int.fdiv_eq_ediv_of_nonneg _ (by decide)]
    omega
  · exact ha

/-- Without trims a code stays as it is (R103). -/
theorem adcTrimmed_of_no_trim {s : State} {p : Nat} (raw : Int) (h : rd s (Reg.PORT_TRIM p) = 0) : adcTrimmed s p raw = raw := by
  simp [adcTrimmed, fgetS, fget, h, getBits, toSigned]

theorem ofSigned_lt (n : Nat) (v : Int) : ofSigned n v < 2 ^ n := by
  have hpos : (0 : Int) < ((2 ^ n : Nat) : Int) := by exact_mod_cast Nat.two_pow_pos n
  have hlt := Int.emod_lt_of_pos v hpos
  have hle := Int.emod_nonneg v hpos.ne'
  unfold ofSigned
  omega

/-- Without trims the code is the mean of the clipped holds. -/
theorem adcCode_of_no_trim {s : State} {p : Nat} (c : Nat) (c1 c2 : Int) (h : rd s (Reg.PORT_TRIM p) = 0) :
    adcCode s p c c1 c2 = adcMean s (clipI c1 (adcEnds c).1 (adcEnds c).2) (clipI c2 (adcEnds c).1 (adcEnds c).2) := by
  obtain ⟨hl, hh⟩ := adcMean_bounds s (clipI_bounds (v := c1) (adcEnds_le c)) (clipI_bounds (v := c2) (adcEnds_le c))
  rw [adcCode, adcTrimmed_of_no_trim _ h, clipI_of_mem hl hh]

/-- The two codes that R102 compares with, in one range of the channel. -/
theorem adcOver_iff_of_single {s : State} (c : Nat) (c1 c2 : Int) (h : s.time.cfg.profile ≠ 1) :
    adcOver s c c1 c2 = true ↔ c1 ≤ (if c = 0 then -8192 else 0) ∨ (if c = 0 then 8191 else 16383) ≤ c1 := by
  simp [adcOver, adcEnds_eq, h]

/-! ### The sample register (R101, R102) -/

/-- A sample put into its register: the code, fresh, whether it is an end code, and the count of samples. -/
def samplePut (s : State) (a code : Nat) (ovr : Bool) : State :=
  let t := fputB (fput (fput s ⟨a, 0, 14⟩ code) ⟨a, 14, 1⟩ 0) ⟨a, 15, 1⟩ ovr
  fput t ⟨a, 16, 16⟩ (fget t ⟨a, 16, 16⟩ + 1)

theorem samplePut_effects (s : State) (a : Nat) {code : Nat} (ovr : Bool) (h : code < 2 ^ 14) : let t := samplePut s a code ovr
    fget t ⟨a, 0, 14⟩ = code ∧ fget t ⟨a, 14, 1⟩ = 0 ∧ fget t ⟨a, 15, 1⟩ = ovr.toNat ∧
    fget t ⟨a, 16, 16⟩ = (fget s ⟨a, 16, 16⟩ + 1) % 2 ^ 16 ∧ SameBits [wholeReg a] s t := by
  have hw (u : State) (hu : SameBits [wholeReg a] s u) (lo w v : Nat) : SameBits [wholeReg a] s (fput u ⟨a, lo, w⟩ v) :=
    hu.wr _ _ (by simp)
  have hover : ovr.toNat < 2 := by cases ovr <;> decide
  refine ⟨?_, ?_, ?_, ?_, hw _ (hw _ (hw _ (hw _ (SameBits.refl _ s) _ _ _) _ _ _) _ _ _) _ _ _⟩
  · rw [samplePut, fget_fput_of_ne _ _ _ _ (by simp), fputB, fget_fput_of_ne _ _ _ _ (by simp), fget_fput_of_ne _ _ _ _ (by simp),
      fget_fput_self _ _ _ (by simp), Nat.mod_eq_of_lt h]
  · rw [samplePut, fget_fput_of_ne _ _ _ _ (by simp), fputB, fget_fput_of_ne _ _ _ _ (by simp), fget_fput_self _ _ _ (by simp)]
    rfl
  · rw [samplePut, fget_fput_of_ne _ _ _ _ (by simp), fputB, fget_fput_self _ _ _ (by simp)]
    exact Nat.mod_eq_of_lt hover
  · rw [samplePut, fget_fput_self _ _ _ (by simp), fputB, fget_fput_of_ne _ _ _ _ (by simp), fget_fput_of_ne _ _ _ _ (by simp),
      fget_fput_of_ne _ _ _ _ (by simp)]

/-- A sample put writes its register only. -/
theorem writesRegs_samplePut (s : State) (a code : Nat) (ovr : Bool) : WritesRegs (· == a) s (samplePut s a code ovr) := by
  have h : (a == a) = true := beq_self_eq_true a
  have h0 : WritesRegs (· == a) s s := .refl _ s
  exact (((h0.fput ⟨a, 0, 14⟩ _ h).fput ⟨a, 14, 1⟩ _ h).fput ⟨a, 15, 1⟩ _ h).fput ⟨a, 16, 16⟩ _ h

/-- The sample registers are no event registers. -/
theorem sampReg_ne_event (p q c : Nat) : sampReg p c ≠ Reg.PORT_EVENT q := by
  have hmod {b d : Nat} (h : b % 0x400 ≠ d % 0x400) : b + 0x400 * p ≠ d + 0x400 * q := by omega
  unfold sampReg
  split <;> exact hmod (by decide)

/-- An over-range of port `p` raised where there is one (R102). -/
def overRaised (s : State) (p : Nat) (ovr : Bool) : State := if ovr then raise s (Fld.PORT_EVENT_ADC_OVR p) else s

/-- A field of a sample register stays. -/
theorem fget_overRaised (s : State) (p q c : Nat) (ovr : Bool) (lo w : Nat) :
    fget (overRaised s p ovr) ⟨sampReg q c, lo, w⟩ = fget s ⟨sampReg q c, lo, w⟩ := by
  unfold overRaised
  split
  · exact fget_fput_of_ne _ _ _ _ (.inl (sampReg_ne_event q p c))
  · rfl

/-- An over-range raised writes its event bit. -/
theorem SameBits.overRaised {fs : List Field} {s t : State} (h : SameBits fs s t) (p : Nat) (ovr : Bool)
    (hf : Fld.PORT_EVENT_ADC_OVR p ∈ fs) : SameBits fs s (overRaised t p ovr) := by
  unfold Machine.overRaised
  split
  · exact h.raise _ hf
  · exact h

theorem overRaised_only (s : State) (p : Nat) (ovr : Bool) : overRaised s p ovr = { s with live := (overRaised s p ovr).live } := by
  unfold overRaised
  split <;> rfl

/-! ### ADC_CONV_DONE (R80, R99) -/

/-- The conversion of a port is over. -/
def convEnded (s : State) (p : Fin 32) : State := { s with ports := upd s.ports p fun x => { x with conv := none } }

/-- A conversion delivered (R99, R101, R102). -/
def converted (s : State) (p : Fin 32) (c : Nat) (c1 c2 : Int) : State :=
  overRaised (samplePut (convEnded s p) (sampReg p c) (ofSigned 14 (adcCode s p c c1 c2)) (adcOver s c c1 c2)) p (adcOver s c c1 c2)

theorem exec_adcConvDone_of_ready {s : State} {p : Fin 32} {c k f : Nat} (c1 c2 : Int) (hc : (s.ports.get p).conv = some c)
    (hk : (s.ports.get p).strobe = some k) (hr : k + adcSpacing s ≤ absFret s f) :
    exec (.adcConvDone ⟨p, f⟩ c1 c2) s = .next (converted s p c c1 c2) := by
  change execAdcConvDone ⟨p, f⟩ c1 c2 s = _
  unfold execAdcConvDone
  dsimp only
  rw [hc, hk]
  exact if_neg (Nat.not_lt.2 hr)

theorem exec_adcConvDone_of_not_ready {s : State} {p : Fin 32} {f : Nat} (c1 c2 : Int)
    (h : ∀ c k, (s.ports.get p).conv = some c → (s.ports.get p).strobe = some k → absFret s f < k + adcSpacing s) :
    exec (.adcConvDone ⟨p, f⟩ c1 c2) s = .next s := by
  change execAdcConvDone ⟨p, f⟩ c1 c2 s = _
  unfold execAdcConvDone
  dsimp only
  split
  case h_1 c k hc hk => exact if_pos (h c k hc hk)
  case h_2 => rfl

/-- A conversion changes registers and its port. -/
theorem converted_only (s : State) (p : Fin 32) (c : Nat) (c1 c2 : Int) : let t := converted s p c c1 c2
    t = { s with live := t.live, ports := t.ports } ∧ t.ports = upd s.ports p fun x => { x with conv := none } := by
  have hput := (writesRegs_samplePut (convEnded s p) (sampReg p c) (ofSigned 14 (adcCode s p c c1 c2)) (adcOver s c c1 c2)).only
  have hraise := overRaised_only (samplePut (convEnded s p) (sampReg p c) (ofSigned 14 (adcCode s p c c1 c2)) (adcOver s c c1 c2)) p
    (adcOver s c c1 c2)
  rw [converted]
  generalize overRaised _ p (adcOver s c c1 c2) = t at hraise
  rw [hraise, hput]
  exact ⟨rfl, rfl⟩

theorem sameBits_converted (s : State) (p : Fin 32) (c : Nat) (c1 c2 : Int) : let t := converted s p c c1 c2
    (adcOver s c c1 c2 = false → SameBits [wholeReg (sampReg p c)] s t) ∧
    SameBits [wholeReg (sampReg p c), Fld.PORT_EVENT_ADC_OVR p] s t := by
  obtain ⟨-, -, -, -, hbits⟩ := samplePut_effects (convEnded s p) (sampReg p c) (adcOver s c c1 c2) (ofSigned_lt 14 (adcCode s p c c1 c2))
  replace hbits : SameBits [wholeReg (sampReg p c)] s (samplePut (convEnded s p) (sampReg p c) (ofSigned 14 (adcCode s p c c1 c2))
    (adcOver s c c1 c2)) := hbits
  rw [converted]
  generalize samplePut (convEnded s p) _ _ _ = u at hbits
  refine ⟨fun h => ?_, (hbits.mono (by simp)).overRaised _ _ (by simp)⟩
  rw [h]
  exact hbits

/-- Settles O19: the code is the clipped one, and the sample register holds it with its flags and its count. -/
theorem conversionsDeliverClippedCodes : Obligations.ConversionsDeliverClippedCodes := by
  unfold Obligations.ConversionsDeliverClippedCodes
  refine ⟨fun s p c1 c2 f c k hc hk hr => ?_, fun s c c1 c2 h => adcOver_iff_of_single c c1 c2 h,
    fun s p c1 c2 f h => exec_adcConvDone_of_not_ready c1 c2 h, fun s p => ?_⟩
  · intro lo hi mean
    have hmean : mean = adcMean s (clipI c1 (adcEnds c).1 (adcEnds c).2) (clipI c2 (adcEnds c).1 (adcEnds c).2) := by
      rw [adcEnds_eq]
      rfl
    have hcode : adcCode s p c c1 c2 = clipI (adcTrimmed s p mean) lo hi := by
      rw [hmean, adcCode, adcEnds_eq]
    obtain ⟨hval, hstale, hover, hseq, -⟩ := samplePut_effects (convEnded s p) (sampReg p c) (adcOver s c c1 c2)
      (ofSigned_lt 14 (adcCode s p c c1 c2))
    obtain ⟨hsame, hbits⟩ := sameBits_converted s p c c1 c2
    obtain ⟨honly, hports⟩ := converted_only s p c c1 c2
    have hget (lo w : Nat) := fget_overRaised (samplePut (convEnded s p) (sampReg p c) (ofSigned 14 (adcCode s p c c1 c2))
      (adcOver s c c1 c2)) p p c (adcOver s c c1 c2) lo w
    refine ⟨_, exec_adcConvDone_of_ready c1 c2 hc hk hr, ?_, fun h => ?_, (hget ..).trans hstale, (hget ..).trans hseq, fun h => ⟨?_, ?_⟩,
      fun h => ⟨(hget ..).trans (by rw [hover, h]; rfl), hsame h⟩, ?_, fun q hq => ?_, hbits, honly⟩
    · exact (hget ..).trans (by rw [hval, hcode])
    · exact (hget ..).trans (by rw [hval, adcCode_of_no_trim c c1 c2 h, hmean])
    · exact (hget ..).trans (by rw [hover, h]; rfl)
    · rw [converted, h]
      exact bit_raise_self _ _ (by simp) rfl
    · rw [hports, upd_get_self]
    · rw [hports, upd_get_of_ne _ _ hq]
  · exact ⟨clearPortCnt p s, rfl, rd_wr_self _ _ _, (SameBits.refl _ s).wr _ _ (by simp), rfl⟩

end Sys2Proof.Machine
end

section
set_option Elab.async false
namespace Sys2Proof.Machine

/-! ### Lane words that act (R78, R83, R527) -/

theorem not_of_idle {b : Bool} (h : b = false) : (!b) = true := by rw [h]; rfl

theorem not_not_of_acts {b : Bool} (h : b = true) : ¬(!b) = true := by rw [h]; decide

/-- A word whose context names a loop of this round runs on it. -/
theorem onLoop_of_some {s : State} {l : LaneFields} {n : Fin 64} (g : Fin 64 → State → State) (h : ctxLoop s l.ctx.toNat = some n.val) :
    onLoop s l g = g n s := by
  unfold onLoop
  rw [h]
  exact dif_pos n.isLt

/-- A word whose context names none runs on none. -/
theorem onLoop_of_none {s : State} {l : LaneFields} (g : Fin 64 → State → State) (h : ctxLoop s l.ctx.toNat = none) : onLoop s l g = s := by
  unfold onLoop
  rw [h]

theorem loops_setLoop_self (s : State) (n : Fin 64) (f : LoopSt → LoopSt) : (setLoop s n f).loops.get n = f (s.loops.get n) :=
  upd_get_self ..

theorem otherLoops_setLoop (s : State) (n : Fin 64) (f : LoopSt → LoopSt) : OtherLoops n s (setLoop s n f) :=
  fun _ h => upd_get_of_ne _ _ h

/-! ### The evaluations that begin at a fret (R82, R144) -/

/-- The status registers of the loops. -/
def loopStatusReg (a : Nat) : Bool := decide (0x18000 ≤ a ∧ a < 0x20000 ∧ a % 0x200 = 0x10)

/-- `t` is `s` after loops took the states of their evaluations: status registers and loop contexts change, no measurement. -/
structure LatchStep (s t : State) : Prop where
  regs : SameRegsOutside loopStatusReg s t
  only : t = { s with live := t.live, loops := t.loops }
  y : ∀ n : Fin 64, (t.loops.get n).y = (s.loops.get n).y

theorem LatchStep.refl (s : State) : LatchStep s s := ⟨SameRegsOutside.refl _ s, rfl, fun _ => rfl⟩

theorem LatchStep.trans {s t u : State} (h : LatchStep s t) (g : LatchStep t u) : LatchStep s u :=
  ⟨h.regs.trans g.regs, by rw [g.only, h.only], fun n => (g.y n).trans (h.y n)⟩

/-- Either branch of a choice. -/
theorem LatchStep.ite {s t u : State} {c : Prop} [Decidable c] (ht : LatchStep s t) (hu : LatchStep s u) :
    LatchStep s (if c then t else u) := by
  split
  · exact ht
  · exact hu

theorem latchStep_latchEval (s : State) (f : Nat) (n : Fin 64) : LatchStep s (latchEval s f n) where
  regs := SameRegsOutside.fput (t := setLoop s n _) (fun _ _ => rfl) _ _ (by
    simp only [loopStatusReg, decide_eq_true_eq, Reg.LOOP_STATUS]
    omega)
  only := rfl
  y m := by
    change ((setLoop s n _).loops.get m).y = _
    by_cases h : m = n
    · subst h
      rw [loops_setLoop_self]
    · rw [otherLoops_setLoop s n _ m h]

theorem latchStep_latchEvals (s : State) (f : Nat) : LatchStep s (latchEvals s f) := by
  unfold latchEvals
  split
  · exact .refl s
  · exact foldl_keeps (LatchStep s) _ (fun t n h => h.trans ((latchStep_latchEval t f n).ite (.refl t))) _ _ (.refl s)

section
variable {s t : State} (h : LatchStep s t)
include h

/-- Outside the block LOOP every register reads as before. -/
theorem LatchStep.regs_loop : SameRegsOutside (fun a => decide (0x18000 ≤ a ∧ a < 0x20000)) s t := fun a ha => h.regs a (by
  simp only [decide_eq_false_iff_not] at ha
  simp only [loopStatusReg, decide_eq_false_iff_not]
  omega)

theorem LatchStep.time_eq : t.time = s.time := by rw [h.only]

theorem LatchStep.ports_eq : t.ports = s.ports := by rw [h.only]

theorem LatchStep.sameMemory : SameMemory s t := by
  rw [h.only]
  exact ⟨fun _ => rfl, fun _ => rfl⟩

/-- The loop that a context code names stays. -/
theorem LatchStep.ctxLoop_eq (c : Nat) : ctxLoop t c = ctxLoop s c := by
  have hs : t.sched = s.sched := by rw [h.only]
  have hu : ∀ n, loopUsed t n = loopUsed s n := fun n => bit_of_rd _ (h.regs _ (by
    simp only [loopStatusReg, decide_eq_false_iff_not, Reg.LOOP_CFG]
    omega))
  have hf : loopUsed t = loopUsed s := funext hu
  unfold ctxLoop
  rw [hs, hf]

end

/-! ### READ and MEAS (R80, R101, R138) -/

/-- A measurement delivered to a loop and shown. -/
theorem loadY_effects (s : State) (n : Fin 64) (f : Nat) (v : Word) : let t := loadY s n f v
    Delivers (s.loops.get n).y (t.loops.get n).y (absFret s f) 4 v ∧ rd t (Reg.LOOP_Y n) = v ∧ OtherLoops n s t ∧
    (t.loops.get n).ev = (s.loops.get n).ev ∧ SameBits [wholeReg (Reg.LOOP_Y n)] s t ∧ t = { s with live := t.live, loops := t.loops } := by
  have hl : (loadY s n f v).loops.get n = { s.loops.get n with y := (s.loops.get n).y.put (absFret s f) 4 v } := loops_setLoop_self ..
  refine ⟨?_, rd_wr_self _ _ _, otherLoops_setLoop s n _, ?_, ?_, rfl⟩
  · rw [hl]
    exact delivers_put _ _ _ _
  · rw [hl]
  · exact SameBits.wr (t := setLoop s n _) (fun _ _ _ _ => rfl) _ _ (by simp)

section
variable {s : State} {l : LaneFields} (f : Nat)

theorem exec_read_of_loop {n : Fin 64} (h : laneActs s 0x02 l = true) (ha : l.argBits 13 1 = 0)
    (hn : ctxLoop s l.ctx.toNat = some n.val) : exec (.read l f) s =
      .next (loadY s n f (vwOf (sampleVal s l.port.toNat (l.argBits 0 2)))) :=
  (if_neg (not_not_of_acts h)).trans ((if_neg (by rw [ha]; decide)).trans (congrArg _ (onLoop_of_some _ hn)))

theorem exec_read_of_no_loop (h : laneActs s 0x02 l = true) (ha : l.argBits 13 1 = 0) (hn : ctxLoop s l.ctx.toNat = none) :
    exec (.read l f) s = .next s :=
  (if_neg (not_not_of_acts h)).trans ((if_neg (by rw [ha]; decide)).trans (congrArg _ (onLoop_of_none _ hn)))

/-- The value of the latest VO code: 0 while it is stale (R101, R160). -/
def foldbackCode (s : State) (p : Nat) : Nat := if bit s (Fld.PORT_SAMP_VO_STALE p) then 0 else fget s (Fld.PORT_SAMP_VO_CODE p)

theorem exec_read_of_foldback (h : laneActs s 0x02 l = true) (ha : l.argBits 13 1 = 1) : exec (.read l f) s =
    .next { s with ports := upd s.ports l.port.toFin fun x =>
      { x with foldback := x.foldback.put (absFret s f) 4 (foldbackCode s l.port.toNat) } } :=
  (if_neg (not_not_of_acts h)).trans (if_pos ha)

theorem exec_meas_of_loop {n : Fin 64} (h : laneActs s 0x03 l = true) (hn : ctxLoop s l.ctx.toNat = some n.val) :
    exec (.meas l f) s = .next (loadY (latchEvals s f) n f
      (signal (latchEvals s f) (l.argBits 0 12) f (outFret (latchEvals s f) n f))) :=
  (if_neg (not_not_of_acts h)).trans (congrArg _ (onLoop_of_some _ (((latchStep_latchEvals s f).ctxLoop_eq _).trans hn)))

theorem exec_meas_of_no_loop (h : laneActs s 0x03 l = true) (hn : ctxLoop s l.ctx.toNat = none) :
    exec (.meas l f) s = .next (latchEvals s f) :=
  (if_neg (not_not_of_acts h)).trans (congrArg _ (onLoop_of_none _ (((latchStep_latchEvals s f).ctxLoop_eq _).trans hn)))

/-- A MEAS behind the evaluations that begin at its fret. -/
theorem loadY_latched {u : State} (hl : LatchStep s u) (n : Fin 64) (v : Word) : let t := loadY u n f v
    Delivers (s.loops.get n).y (t.loops.get n).y (absFret s f) 4 v ∧
    SameRegsOutside (fun a => decide (0x18000 ≤ a ∧ a < 0x20000)) s t ∧ t = { s with live := t.live, loops := t.loops } := by
  obtain ⟨hdel, -, -, -, -, honly⟩ := loadY_effects u n f v
  rw [hl.y n, absFret, hl.time_eq, ← absFret] at hdel
  refine ⟨hdel, hl.regs_loop.trans (SameRegsOutside.wr (t := setLoop u n _) (fun _ _ => rfl) _ _ ?_), ?_⟩
  · simp only [decide_eq_true_eq, Reg.LOOP_Y]
    omega
  · generalize loadY u n f v = t at honly
    rw [honly, hl.only]

/-! ### SAMPLE (R99, R100) -/

/-- A strobe of a port, and the conversion that it starts. -/
def strobed (s : State) (p : Fin 32) (t c : Nat) : State :=
  { s with ports := upd s.ports p fun x => { x with strobe := some t, conv := some c } }

/-- A strobe too soon, counted and raised. -/
def busyCounted (s : State) (p : Fin 32) : State := raise (inc s (Fld.PORT_CNT_ADC_BUSY_CNT p)) (Fld.PORT_EVENT_ADC_BUSY p)

theorem exec_sample_of_free (h : laneActs s 0x01 l = true)
    (hk : ∀ k, (s.ports.get l.port.toFin).strobe = some k → k + adcSpacing s ≤ absFret s f) :
    exec (.sample l f) s = .next (strobed (latchEvals s f) l.port.toFin (absFret s f) (l.argBits 0 2)) := by
  have hl := latchStep_latchEvals s f
  refine (if_neg (not_not_of_acts h)).trans (if_neg ?_)
  rw [hl.ports_eq, adcSpacing, hl.time_eq, ← adcSpacing]
  split
  case h_1 k hs => exact fun hd => absurd (of_decide_eq_true hd) (Nat.not_lt.2 (hk k hs))
  case h_2 => exact Bool.false_ne_true

theorem exec_sample_of_busy {k : Nat} (h : laneActs s 0x01 l = true) (hs : (s.ports.get l.port.toFin).strobe = some k)
    (hk : absFret s f < k + adcSpacing s) : ∃ ts, exec (.sample l f) s =
      .next (reportCorrected (busyCounted (latchEvals s f) l.port.toFin) 0x0102 ts) := by
  have hl := latchStep_latchEvals s f
  refine ⟨_, (if_neg (not_not_of_acts h)).trans ((if_pos ?_).trans (congrArg _ (report_corrected ..)))⟩
  rw [hl.ports_eq, adcSpacing, hl.time_eq, ← adcSpacing, hs]
  exact decide_eq_true hk

end

/-- A strobe that is taken. -/
theorem strobed_effects {s u : State} (hl : LatchStep s u) (p : Fin 32) (t c : Nat) : let v := strobed u p t c
    (v.ports.get p).strobe = some t ∧ (v.ports.get p).conv = some c ∧ OtherPorts p s v ∧
    SameRegsOutside (fun a => decide (0x18000 ≤ a ∧ a < 0x20000)) s v ∧ v = { s with live := v.live, loops := u.loops, ports := v.ports } := by
  have hp : (strobed u p t c).ports.get p = { u.ports.get p with strobe := some t, conv := some c } := upd_get_self ..
  refine ⟨by rw [hp], by rw [hp], fun q hq => ?_, hl.regs_loop, ?_⟩
  · exact (upd_get_of_ne _ _ hq).trans (congrArg (Vector.get · q) hl.ports_eq)
  · dsimp only [strobed]
    rw [hl.only]

/-- A strobe that is ignored. -/
theorem busyCounted_effects {s u : State} (hl : LatchStep s u) (p : Fin 32) (ts : Nat) : let t := reportCorrected (busyCounted u p) 0x0102 ts
    t.ports = s.ports ∧ t.loops = u.loops ∧ bit t (Fld.PORT_EVENT_ADC_BUSY p) = true ∧
    fget t (Fld.PORT_CNT_ADC_BUSY_CNT p) = min (fget s (Fld.PORT_CNT_ADC_BUSY_CNT p) + 1) 65535 ∧
    CorrectedReported s t 0x0102 ∧ SameMemory s t := by
  have hstay (a : Nat) (ha : a < 0x18000) : rd u a = rd s a := hl.regs a (by
    simp only [loopStatusReg, decide_eq_false_iff_not]
    omega)
  have hframe := recFrame_reportCorrected (busyCounted u p) 0x0102 ts
  have hports : (busyCounted u p).ports = s.ports := hl.ports_eq
  refine ⟨?_, (congrArg State.loops hframe :), ?_, ?_, ?_, ?_⟩
  · exact (congrArg State.ports hframe :).trans hports
  · rw [bit_reportCorrected _ _ _ _ (by decide) (faultOrRec_block _ (by decide))]
    exact bit_raise_self _ _ (by simp) rfl
  · rw [fget_reportCorrected _ _ _ _ (by decide) (faultOrRec_block _ (by decide)), busyCounted, raise,
      fget_fput_of_ne _ _ _ _ (.inl (by simp only [Reg.PORT_CNT, Reg.PORT_EVENT]; omega)), fget_inc_self _ _ (by simp),
      fget_of_rd _ (hstay _ (by simp only [Reg.PORT_CNT]; omega))]
    rfl
  · refine (reportCorrected_counts _ _ ts (by decide)).of_rd ?_
    rw [busyCounted, raise, rd_fput_of_ne _ _ (below_ne_block _ (by decide)), inc, rd_fput_of_ne _ _ (below_ne_block _ (by decide)),
      hstay _ (by decide)]
  · exact ((hl.sameMemory.fput _ _).fput _ _).trans (sameMemory_reportCorrected ..)

/-- Settles O14: a word that does not act changes nothing, and each of the others is a lemma about its command. -/
theorem nopAndMeasurementWords : Obligations.NopAndMeasurementWords := by
  unfold Obligations.NopAndMeasurementWords
  refine ⟨fun _ _ _ => rfl, fun s l f => ⟨fun h => if_pos (not_of_idle h), fun h => if_pos (not_of_idle h), fun h => if_pos (not_of_idle h),
    fun h => if_pos (not_of_idle h), fun h => if_pos (not_of_idle h), fun h => if_pos (not_of_idle h), fun h => if_pos (not_of_idle h),
    fun h => if_pos (not_of_idle h), fun h => if_pos (not_of_idle h), fun h => if_pos (not_of_idle h), fun h => if_pos (not_of_idle h),
    fun h => if_pos (not_of_idle h)⟩, fun s l f n h ha hn => ?_, fun s l f h ha => ?_, fun s l f n h hn => ?_,
    fun s l f hn => ⟨fun h ha => exec_read_of_no_loop f h ha hn, fun h => exec_meas_of_no_loop f h hn⟩,
    fun s l f h hk => ⟨_, exec_sample_of_free f h hk, strobed_effects (latchStep_latchEvals s f) _ _ _⟩, fun s l f k h hs hk => ?_⟩
  · obtain ⟨hdel, hy, hother, -, hbits, honly⟩ := loadY_effects s n f (vwOf (sampleVal s l.port.toNat (l.argBits 0 2)))
    exact ⟨_, exec_read_of_loop f h ha hn, hdel, hy, hother, hbits, honly⟩
  · refine ⟨_, exec_read_of_foldback f h ha, ?_, fun _ hq => upd_get_of_ne _ _ hq, rfl⟩
    rw [upd_get_self]
    exact delivers_put _ _ _ _
  · obtain ⟨-, hy, hother, hev, -, -⟩ := loadY_effects (latchEvals s f) n f
      (signal (latchEvals s f) (l.argBits 0 12) f (outFret (latchEvals s f) n f))
    obtain ⟨hdel, hregs, honly⟩ := loadY_latched f (latchStep_latchEvals s f) n
      (signal (latchEvals s f) (l.argBits 0 12) f (outFret (latchEvals s f) n f))
    refine ⟨_, exec_meas_of_loop f h hn, ?_, hy, hother, hev, hregs, honly⟩
    rw [hy]
    exact hdel
  · obtain ⟨ts, hexec⟩ := exec_sample_of_busy f h hs hk
    exact ⟨_, hexec, busyCounted_effects (latchStep_latchEvals s f) _ ts⟩

end Sys2Proof.Machine
end

section
set_option Elab.async false
namespace Sys2Proof.Machine

/-! ### Value words and their mantissas (R132, R133) -/

theorem toSigned_ofSigned_18 {m : Int} (hl : -131072 ≤ m) (hh : m ≤ 131071) : toSigned 18 (ofSigned 18 m) = m := by
  simp only [toSigned, ofSigned]
  norm_num
  split <;> omega

theorem toSigned_ofSigned_6 {e : Int} (hl : -32 ≤ e) (hh : e ≤ 31) : toSigned 6 (ofSigned 6 e) = e := by
  simp only [toSigned, ofSigned]
  norm_num
  split <;> omega

theorem toNat_vwPack (m e : Int) : (vwPack m e).toNat = ofSigned 18 m + ofSigned 6 e * 2 ^ 18 := by
  have hm := ofSigned_lt 18 m
  have he := ofSigned_lt 6 e
  rw [vwPack, BitVec.toNat_ofNat]
  exact Nat.mod_eq_of_lt (by omega)

/-- The mantissa of a packed word. -/
theorem vwM_vwPack {m : Int} (e : Int) (hl : -131072 ≤ m) (hh : m ≤ 131071) : vwM (vwPack m e) = m := by
  have hm := ofSigned_lt 18 m
  rw [vwM, getBits, BitVec.toNat_ushiftRight, toNat_vwPack, Nat.shiftRight_zero, Nat.add_mul_mod_self_right, Nat.mod_eq_of_lt hm,
    toSigned_ofSigned_18 hl hh]

/-- The exponent of a packed word. -/
theorem vwE_vwPack (m : Int) {e : Int} (hl : -32 ≤ e) (hh : e ≤ 31) : vwE (vwPack m e) = e := by
  have hm := ofSigned_lt 18 m
  have he := ofSigned_lt 6 e
  rw [vwE, getBits, BitVec.toNat_ushiftRight, toNat_vwPack, Nat.shiftRight_eq_div_pow, Nat.add_mul_div_right _ _ (by decide),
    Nat.div_eq_of_lt hm, Nat.zero_add, Nat.mod_eq_of_lt he, toSigned_ofSigned_6 hl hh]

/-- The exponents that a rounding tries (R133). -/
theorem mem_vwExps {emax e : Int} (h : e ∈ vwExps emax) : -32 ≤ e ∧ e ≤ emax := by
  obtain ⟨k, hk, rfl⟩ := List.mem_map.1 h
  have := List.mem_range.1 hk
  omega

/-- The ceiling of a loop is an exponent of the format (R132, R133). -/
theorem emax_bounds (s : State) (n : Nat) : -32 ≤ emax s n ∧ emax s n ≤ 31 := by
  have h : fget s (Fld.LOOP_CFG_EMAX n) < 2 ^ 6 := fget_lt ..
  simp only [emax, fgetS, toSigned]
  norm_num at h ⊢
  split <;> omega

/-- The word of a value that fits: its mantissa at that exponent, or the zero word. -/
theorem vwAt_of_fit {v : Rat} {e m : Int} (h : vwFit v e = some m) :
    -131072 ≤ m ∧ m ≤ 131071 ∧ (vwAt v e = vwPack m e ∨ m = 0 ∧ vwAt v e = vwPack 0 (-32)) := by
  have hr : -131072 ≤ m ∧ m ≤ 131071 := by
    unfold vwFit at h
    dsimp only at h
    split at h
    · cases h
      assumption
    · cases h
  refine ⟨hr.1, hr.2, ?_⟩
  unfold vwAt
  rw [h]
  by_cases h0 : m = 0
  · subst h0
    exact .inr ⟨rfl, rfl⟩
  · left
    split
    case h_1 heq => exact absurd (Option.some.inj heq) h0
    case h_2 heq => rw [Option.some.inj heq]
    case h_3 heq => cases heq

/-- The word of the negated mantissa encodes the negated value (R132). -/
theorem vwVal_negPack {m e : Int} (hl : -131072 < m) (hh : m ≤ 131071) (el : -32 ≤ e) (eh : e ≤ 31) :
    vwVal (vwPack (min (-vwM (vwPack m e)) 131071) (vwE (vwPack m e))) = -vwVal (vwPack m e) := by
  rw [vwM_vwPack e (by omega) hh, vwE_vwPack m el eh, min_eq_left (by omega), vwVal, vwVal, vwM_vwPack e (by omega) (by omega),
    vwE_vwPack _ el eh, vwM_vwPack e (by omega) hh, vwE_vwPack m el eh]
  push_cast
  ring

/-- Without a saturation the second result of the pair is the exact negation of the first (R131, R135). -/
theorem vwVal_vwRoundNeg {emax : Int} (hl : -32 ≤ emax) (hh : emax ≤ 31) (v : Rat) (h : (vwRoundNeg emax v).2.2 = false) :
    vwVal (vwRoundNeg emax v).2.1 = -vwVal (vwRoundNeg emax v).1 := by
  revert h
  unfold vwRoundNeg
  extract_lets fits e w m
  intro h
  have he : -32 ≤ e ∧ e ≤ 31 := by
    rcases hf : (vwExps emax).find? fits with _ | x
    · simp only [e, hf, Option.getD_none]
      exact ⟨hl, hh⟩
    · have := mem_vwExps (List.mem_of_find?_eq_some hf)
      simp only [e, hf, Option.getD_some]
      omega
  have hfit : fits e = true := by simpa using h
  rcases hv : vwFit v e with _ | k
  · simp [fits, hv] at hfit
  · have hk : k ≠ -131072 := by simpa [fits, hv] using hfit
    obtain ⟨hkl, hkh, hw | ⟨-, hw⟩⟩ := vwAt_of_fit hv
    · simp only [m, w, hw]
      exact vwVal_negPack (by omega) hkh he.1 he.2
    · simp only [m, w, hw]
      exact vwVal_negPack (by decide) (by decide) (by decide) (by decide)

end Sys2Proof.Machine
end

section
set_option Elab.async false
namespace Sys2Proof.Machine

/-! ### A saturation counted and reported (R134) -/

/-- What noting a saturation can write: FAULT and REC, and the count and the event of its loop. -/
def ovfReg (n : Fin 64) (a : Nat) : Bool := faultOrRec a || a == Reg.LOOP_CNT n || a == Reg.LOOP_EVENT n

/-- `t` is `u` after a saturation of loop `n`, if there was one, is noted. -/
structure OvfNoted (n : Fin 64) (sat : Bool) (u t : State) : Prop where
  kept : sat = false → t = u
  raised : sat = true → bit t (Fld.LOOP_EVENT_OVF n) = true ∧ CorrectedReported u t 0x0201
  regs : SameRegsOutside (ovfReg n) u t
  limit : bit t (Fld.LOOP_EVENT_LIMIT n) = bit u (Fld.LOOP_EVENT_LIMIT n)
  frame : recFrame t = recFrame u

theorem ovfReg_of_loop {n : Fin 64} {b : Nat} (m : Nat) (h : 0x10000 ≤ b) (hc : b % 0x200 ≠ 0x18020 % 0x200)
    (he : b % 0x200 ≠ 0x18014 % 0x200) : ovfReg n (b + 0x200 * m) = false := by
  simp only [ovfReg, faultOrRec_block _ h, Bool.false_or, Bool.or_eq_false_iff, beq_eq_false_iff_ne]
  exact ⟨loopAddr_ne_of_mod hc, loopAddr_ne_of_mod he⟩

theorem ovfNoted_noteOvf (u : State) (n : Fin 64) (sat : Bool) (f : Nat) : OvfNoted n sat u (noteOvf u n sat f) := by
  unfold noteOvf
  cases sat
  · exact ⟨fun _ => rfl, fun h => (by cases h), .refl _ u, rfl, rfl⟩
  · have ht : (if true = true then report (raise (inc u (Fld.LOOP_CNT_OVF_CNT n)) (Fld.LOOP_EVENT_OVF n)) 0x0201 0 0 0 (stampE u f)
        else u) = reportCorrected (raise (inc u (Fld.LOOP_CNT_OVF_CNT n)) (Fld.LOOP_EVENT_OVF n)) 0x0201 (stampE u f) :=
      (if_pos rfl).trans (report_corrected ..)
    rw [ht]
    refine ⟨fun h => (by cases h), fun _ => ⟨?_, ?_⟩, ?_, ?_, ?_⟩
    · rw [bit_reportCorrected _ _ _ _ (by decide) (faultOrRec_block _ (by decide)), bit_raise_self _ _ (by simp) rfl]
    · refine (reportCorrected_counts _ _ _ (by decide)).of_rd ?_
      rw [raise, rd_fput_of_ne _ _ (below_ne_block _ (by decide)), inc, rd_fput_of_ne _ _ (below_ne_block _ (by decide))]
    · refine (((SameRegsOutside.refl _ u).inc _ ?_).raise _ ?_).trans fun a ha => regs_reportCorrected _ _ _ (by decide) a ?_
      · simp [ovfReg]
      · simp [ovfReg]
      · simp only [ovfReg, Bool.or_eq_false_iff] at ha
        exact ha.1.1
    · rw [bit_reportCorrected _ _ _ _ (by decide) (faultOrRec_block _ (by decide)), raise, bit_fput_of_ne _ _ _ _ (.inr (by simp)), inc,
        bit_fput_of_ne _ _ _ _ (.inl (loopAddr_ne_of_mod (by decide)))]
    · rw [recFrame_reportCorrected, recFrame_raise, recFrame_inc]

section
variable {n : Fin 64} {sat : Bool} {s u t : State} (h : OvfNoted n sat u t)
include h

theorem OvfNoted.loops_eq : t.loops = u.loops := (congrArg State.loops h.frame :)

theorem OvfNoted.capo_eq : t.capo = u.capo := (congrArg State.capo h.frame :)

/-- Behind a change of registers and loop contexts, a saturation changes the fault block and the recorder too. -/
theorem OvfNoted.only (hu : u = { s with live := u.live, loops := u.loops }) :
    t = { s with live := t.live, loops := t.loops, fault := t.fault, saddle := t.saddle } := by
  have ht := only_of_recFrame h.frame
  have hl := h.loops_eq
  rw [hl]
  conv_lhs => rw [ht, hu]

/-- A report counted from before the pass, which writes no count of a block. -/
theorem OvfNoted.reported (hb : rd u (Reg.FAULT_BCNT 1) = rd s (Reg.FAULT_BCNT 1)) (hs : sat = true) :
    bit t (Fld.LOOP_EVENT_OVF n) = true ∧ CorrectedReported s t 0x0201 :=
  ⟨(h.raised hs).1, (h.raised hs).2.of_rd hb⟩

end

/-! ### PASS_P and PASS_D (R131, R140) -/

/-- A result of loop `n` put into its context and shown in register `a`, and its saturation noted. -/
def resultNoted (s : State) (n : Fin 64) (g : LoopSt → LoopSt) (a : Nat) (w : Word × Bool) (f : Nat) : State :=
  noteOvf (wr (setLoop s n g) a w.1) n w.2 f

theorem resultNoted_effects (s : State) (n : Fin 64) (g : LoopSt → LoopSt) {b : Nat} (w : Word × Bool) (f : Nat) (hb : 0x10000 ≤ b)
    (hc : b % 0x200 ≠ 0x18020 % 0x200) (he : b % 0x200 ≠ 0x18014 % 0x200) : let t := resultNoted s n g (b + 0x200 * n) w f
    t.loops.get n = g (s.loops.get n) ∧ rd t (b + 0x200 * n) = w.1 ∧ OtherLoops n s t ∧
    (w.2 = true → bit t (Fld.LOOP_EVENT_OVF n) = true ∧ CorrectedReported s t 0x0201) ∧
    (w.2 = false → SameBits [wholeReg (b + 0x200 * n)] s t ∧ t.fault = s.fault ∧ t.saddle = s.saddle) ∧
    t = { s with live := t.live, loops := t.loops, fault := t.fault, saddle := t.saddle } := by
  have hbits : SameBits [wholeReg (b + 0x200 * n)] s (wr (setLoop s n g) (b + 0x200 * n) w.1) :=
    SameBits.wr (t := setLoop s n g) (fun _ _ _ _ => rfl) _ _ (by simp)
  have hcount : rd (wr (setLoop s n g) (b + 0x200 * n) w.1) (Reg.FAULT_BCNT 1) = rd s (Reg.FAULT_BCNT 1) :=
    rd_wr_of_ne _ _ (below_ne_block _ (lt_of_lt_of_le (by decide) hb))
  have hnote := ovfNoted_noteOvf (wr (setLoop s n g) (b + 0x200 * n) w.1) n w.2 f
  rw [resultNoted]
  generalize noteOvf (wr (setLoop s n g) (b + 0x200 * n) w.1) n w.2 f = t at hnote ⊢
  have hloops : t.loops = (setLoop s n g).loops := hnote.loops_eq
  refine ⟨?_, ?_, fun m hm => ?_, hnote.reported hcount, fun hs => ?_, hnote.only rfl⟩
  · rw [hloops]
    exact loops_setLoop_self s n g
  · rw [hnote.regs _ (ovfReg_of_loop _ hb hc he), rd_wr_self]
  · rw [hloops]
    exact otherLoops_setLoop s n g m hm
  · rw [hnote.kept hs]
    exact ⟨hbits, rfl, rfl⟩

section
variable {s : State} {l : LaneFields} (f : Nat) {n : Fin 64}

theorem exec_passP_of_loop (h : laneActs s 0x09 l = true) (hn : ctxLoop s l.ctx.toNat = some n.val) :
    exec (.passP l f) s = .next (resultNoted s n (fun x => { x with p := x.p.put (absFret s f) 8 (pOf s n (absFret s f)).1 })
      (Reg.LOOP_P n) (pOf s n (absFret s f)) f) :=
  (if_neg (not_not_of_acts h)).trans (congrArg _ (onLoop_of_some _ hn))

theorem exec_passD_first (h : laneActs s 0x0B l = true) (hn : ctxLoop s l.ctx.toNat = some n.val) (ha : l.argBits 0 1 = 0) :
    exec (.passD l f) s = .next (setLoop s n fun x => { x with dSum := dOf s n (absFret s f), dAt := absFret s f }) := by
  refine (if_neg (not_not_of_acts h)).trans (congrArg _ ((onLoop_of_some _ hn).trans ?_))
  rw [ha]
  rfl

theorem exec_passD_second (h : laneActs s 0x0B l = true) (hn : ctxLoop s l.ctx.toNat = some n.val) (ha : l.argBits 0 1 = 1) :
    exec (.passD l f) s = .next (resultNoted s n
      (fun x => { x with d := x.d.put x.dAt 8 (vwRound (emax s n) (s.loops.get n).dSum).1 })
      (Reg.LOOP_D n) (vwRound (emax s n) (s.loops.get n).dSum) f) := by
  refine (if_neg (not_not_of_acts h)).trans (congrArg _ ((onLoop_of_some _ hn).trans ?_))
  rw [ha]
  rfl

end

/-! ### PASS_E (R131, R135, R139) -/

/-- What PASS_E makes of a loop context: the values of the evaluation before are kept, the results are put in (R139, R140). -/
def errorPut (t : Nat) (re : Word) (ex : Word × Word × Bool) (l : LoopSt) : LoopSt := { l with
  ePrev := l.e.cur, xPrev := l.x.cur, dPrev := l.d.cur, uPrev := l.u.cur
  rEff := l.rEff.put t 8 re, e := l.e.put t 8 ex.1, x := l.x.put t 8 ex.2.1 }

/-- The results of PASS_E in their context and their registers. -/
def errorShown (s : State) (n : Fin 64) (t : Nat) (re : Word) (ex : Word × Word × Bool) : State :=
  wr (wr (setLoop s n (errorPut t re ex)) (Reg.LOOP_R n) re) (Reg.LOOP_E n) ex.1

/-- PASS_E, with the saturations of both its roundings noted. -/
def errorNoted (s : State) (n : Fin 64) (f : Nat) (re : Word × Bool) (ex : Word × Word × Bool) : State :=
  noteOvf (noteOvf (errorShown s n (absFret s f) re.1 ex) n re.2 f) n ex.2.2 f

theorem exec_passE_of_loop {s : State} {l : LaneFields} (f : Nat) {n : Fin 64} (h : laneActs s 0x08 l = true)
    (hn : ctxLoop s l.ctx.toNat = some n.val) : let re := vwRound (emax s n) (shareAndCap s n (absFret s f) (baseRef s n f))
    exec (.passE l f) s = .next (errorNoted s n f re (errorPair s n re.1 ((s.loops.get n).y.get (absFret s f)))) :=
  (if_neg (not_not_of_acts h)).trans (congrArg _ (onLoop_of_some _ hn))

theorem errorNoted_effects (s : State) (n : Fin 64) (f : Nat) (re : Word × Bool) (ex : Word × Word × Bool) :
    let t := errorNoted s n f re ex
    t.loops.get n = errorPut (absFret s f) re.1 ex (s.loops.get n) ∧ rd t (Reg.LOOP_R n) = re.1 ∧ rd t (Reg.LOOP_E n) = ex.1 ∧
    OtherLoops n s t ∧
    ((re.2 || ex.2.2) = true → bit t (Fld.LOOP_EVENT_OVF n) = true ∧ fbit t Fld.FAULT_CORR_BLK 1 = true) ∧
    ((re.2 || ex.2.2) = false →
      SameBits [wholeReg (Reg.LOOP_R n), wholeReg (Reg.LOOP_E n)] s t ∧ t.fault = s.fault ∧ t.saddle = s.saddle) ∧
    t = { s with live := t.live, loops := t.loops, fault := t.fault, saddle := t.saddle } := by
  have hbits : SameBits [wholeReg (Reg.LOOP_R n), wholeReg (Reg.LOOP_E n)] s (errorShown s n (absFret s f) re.1 ex) :=
    (SameBits.wr (t := setLoop s n _) (fun _ _ _ _ => rfl) _ _ (by simp)).wr _ _ (by simp)
  have hR : rd (errorShown s n (absFret s f) re.1 ex) (Reg.LOOP_R n) = re.1 :=
    (rd_wr_of_ne _ _ (loopAddr_ne_of_mod (by decide))).trans (rd_wr_self _ _ _)
  have hE : rd (errorShown s n (absFret s f) re.1 ex) (Reg.LOOP_E n) = ex.1 := rd_wr_self _ _ _
  have hself : (errorShown s n (absFret s f) re.1 ex).loops.get n = errorPut (absFret s f) re.1 ex (s.loops.get n) :=
    loops_setLoop_self s n _
  have hother : OtherLoops n s (errorShown s n (absFret s f) re.1 ex) := otherLoops_setLoop s n _
  have honly : errorShown s n (absFret s f) re.1 ex = { s with
    live := (errorShown s n (absFret s f) re.1 ex).live, loops := (errorShown s n (absFret s f) re.1 ex).loops } := rfl
  rw [errorNoted]
  generalize errorShown s n (absFret s f) re.1 ex = u at hbits hR hE hself hother honly ⊢
  have h1 := ovfNoted_noteOvf u n re.2 f
  generalize noteOvf u n re.2 f = v at h1 ⊢
  have h2 := ovfNoted_noteOvf v n ex.2.2 f
  generalize noteOvf v n ex.2.2 f = t at h2 ⊢
  have hloops : t.loops = u.loops := h2.loops_eq.trans h1.loops_eq
  refine ⟨by rw [hloops, hself], ?_, ?_, fun m hm => by rw [hloops, hother m hm], fun hs => ?_, fun hs => ?_, ?_⟩
  · have hr := ovfReg_of_loop (n := n) (b := 0x18024) n (by decide) (by decide) (by decide)
    rw [h2.regs _ hr, h1.regs _ hr, hR]
  · have hr := ovfReg_of_loop (n := n) (b := 0x1802C) n (by decide) (by decide) (by decide)
    rw [h2.regs _ hr, h1.regs _ hr, hE]
  · by_cases hx : ex.2.2 = true
    · obtain ⟨hovf, -, hblk, -⟩ := h2.raised hx
      exact ⟨hovf, hblk⟩
    · have hx' : ex.2.2 = false := Bool.eq_false_iff.2 hx
      rw [hx', Bool.or_false] at hs
      obtain ⟨hovf, -, hblk, -⟩ := h1.raised hs
      rw [h2.kept hx']
      exact ⟨hovf, hblk⟩
  · obtain ⟨hr, hx⟩ := Bool.or_eq_false_iff.1 hs
    rw [h2.kept hx, h1.kept hr]
    refine ⟨hbits, ?_, ?_⟩
    · rw [honly]
    · rw [honly]
  · have hv := only_of_recFrame (h2.frame.trans h1.frame)
    rw [hloops]
    conv_lhs => rw [hv, honly]

end Sys2Proof.Machine
end

section
set_option Elab.async false
namespace Sys2Proof.Machine

/-! ### PASS_I (R136, R141, R143, R151, R152, R218) -/

/-- The tracking value or the preset that the first slot of PASS_I takes, where one is due. -/
def dueI (s : State) (n : Fin 64) (t : Nat) : Option Int :=
  let l := s.loops.get n
  match l.ev.state, l.ev.preset with
  | .hold, _ => some (trackValue s n t l.ev.hold)
  | .man, _ => some (trackValue s n t l.ev.uman)
  | _, some v => some (presetValue s n v)
  | _, none => if l.ev.due then some (presetValue s n l.uPrev)
    else if l.ev.first then some (toMi (eiOf s n) (vwVal l.ev.hold)) else none

/-- A change of loop `n` behind the first slot of PASS_I. -/
def baseSet (s : State) (n : Fin 64) (t : Nat) (g : LoopSt → LoopSt) : State := setLoop (setLoop s n fun x => { x with iAt := t }) n g

/-- The first slot of PASS_I on loop `n`: a value that is due, otherwise the last integrator. -/
def baseTaken (s : State) (n : Fin 64) (t : Nat) (due : Option Int) : State :=
  match due with
  | some v => presetI (setLoop s n fun x => { x with iAt := t }) n v
  | none => baseSet s n t fun x => { x with iBase := x.mi.get t }

theorem passI1_eq (f : Nat) (n : Fin 64) (s : State) : passI1 f n s = baseTaken s n (absFret s f) (dueI s n (absFret s f)) := by
  unfold passI1 dueI
  dsimp only
  rcases (s.loops.get n).ev.state with _ | _ | _ | _ | _
  case hold => rfl
  case man => rfl
  all_goals
    rcases (s.loops.get n).ev.preset with _ | v
    · by_cases hd : (s.loops.get n).ev.due = true
      · simp only [if_pos hd]
        rfl
      · by_cases h1 : (s.loops.get n).ev.first = true
        · simp only [if_neg hd, if_pos h1]
          rfl
        · simp only [if_neg hd, if_neg h1]
          rfl
    · rfl

/-- The slot of the pass is no part of the limits. -/
theorem miLimits_iAt (s : State) (n : Fin 64) (t : Nat) : miLimits (setLoop s n fun x => { x with iAt := t }) n = miLimits s n := by
  have hev : ((setLoop s n fun x => { x with iAt := t }).loops.get n).ev = (s.loops.get n).ev := by rw [loops_setLoop_self]
  unfold miLimits evalWord
  rw [hev]
  rfl

/-- A clipped value shown: PRESET_CLIP, and its event where it was clipped (R143, R152). -/
def clipShown (s : State) (n : Fin 64) (b : Bool) : State :=
  let t := fputB s (Fld.LOOP_STATUS_PRESET_CLIP n) b
  if b then raise t (Fld.LOOP_EVENT_PRESET_CLIP n) else t

theorem clipShown_effects (s : State) (n : Fin 64) (b : Bool) : let t := clipShown s n b
    bit t (Fld.LOOP_STATUS_PRESET_CLIP n) = b ∧ (b = true → bit t (Fld.LOOP_EVENT_PRESET_CLIP n) = true) ∧
    SameBits [Fld.LOOP_STATUS_PRESET_CLIP n, Fld.LOOP_EVENT_PRESET_CLIP n] s t ∧ t = { s with live := t.live } := by
  have hbits : SameBits [Fld.LOOP_STATUS_PRESET_CLIP n, Fld.LOOP_EVENT_PRESET_CLIP n] s (fputB s (Fld.LOOP_STATUS_PRESET_CLIP n) b) :=
    (SameBits.refl _ s).fput _ _ (by simp)
  have hflag : bit (fputB s (Fld.LOOP_STATUS_PRESET_CLIP n) b) (Fld.LOOP_STATUS_PRESET_CLIP n) = b := bit_fputB_self _ _ _ (by simp) rfl
  rw [clipShown]
  cases b
  · exact ⟨hflag, fun h => (by cases h), hbits, rfl⟩
  · refine ⟨?_, fun _ => bit_raise_self _ _ (by simp) rfl, hbits.raise _ (by simp), rfl⟩
    exact (bit_fput_of_ne _ _ _ _ (.inl (loopAddr_ne_of_mod (by decide)))).trans hflag

theorem baseTaken_of_due (s : State) (n : Fin 64) (t : Nat) (v : Int) : let w := clipI v (miLimits s n).1 (miLimits s n).2
    baseTaken s n t (some v) = clipShown (baseSet s n t fun x => { x with iBase := w }) n (w != v) := by
  have h : baseTaken s n t (some v) = presetI (setLoop s n fun x => { x with iAt := t }) n v := rfl
  rw [h, presetI, miLimits_iAt]
  rfl

theorem baseSet_effects (s : State) (n : Fin 64) (t : Nat) (g : LoopSt → LoopSt) : let u := baseSet s n t g
    u.loops.get n = g { s.loops.get n with iAt := t } ∧ OtherLoops n s u ∧ u = { s with loops := u.loops } :=
  ⟨by rw [baseSet, loops_setLoop_self, loops_setLoop_self],
    fun m hm => (otherLoops_setLoop _ n _ m hm).trans (otherLoops_setLoop s n _ m hm), rfl⟩

theorem baseTaken_effects (s : State) (n : Fin 64) (t : Nat) (due : Option Int) : let u := baseTaken s n t due
    (∀ v, due = some v → (u.loops.get n).iBase = clipI v (miLimits s n).1 (miLimits s n).2 ∧
      bit u (Fld.LOOP_STATUS_PRESET_CLIP n) = (clipI v (miLimits s n).1 (miLimits s n).2 != v) ∧
      (clipI v (miLimits s n).1 (miLimits s n).2 ≠ v → bit u (Fld.LOOP_EVENT_PRESET_CLIP n) = true)) ∧
    (due = none → (u.loops.get n).iBase = (s.loops.get n).mi.get t ∧ u.live = s.live) ∧
    (u.loops.get n).iAt = t ∧ (u.loops.get n).mi = (s.loops.get n).mi ∧ OtherLoops n s u ∧
    SameBits [Fld.LOOP_STATUS_PRESET_CLIP n, Fld.LOOP_EVENT_PRESET_CLIP n] s u ∧ u = { s with live := u.live, loops := u.loops } := by
  cases due with
  | none =>
    obtain ⟨hself, hother, -⟩ := baseSet_effects s n t fun x => { x with iBase := x.mi.get t }
    have hu : baseTaken s n t none = baseSet s n t fun x => { x with iBase := x.mi.get t } := rfl
    rw [hu]
    dsimp only
    rw [hself]
    exact ⟨fun v h => (by cases h), fun _ => ⟨rfl, rfl⟩, rfl, rfl, hother, fun _ _ _ _ => rfl, rfl⟩
  | some v =>
    rw [baseTaken_of_due]
    obtain ⟨hself, hother, honly⟩ := baseSet_effects s n t fun x => { x with iBase := clipI v (miLimits s n).1 (miLimits s n).2 }
    generalize (baseSet s n t fun x => { x with iBase := clipI v (miLimits s n).1 (miLimits s n).2 }) = u at hself hother honly ⊢
    obtain ⟨hflag, hevent, hbits, hlive⟩ := clipShown_effects u n (clipI v (miLimits s n).1 (miLimits s n).2 != v)
    generalize clipShown u n _ = r at hflag hevent hbits hlive ⊢
    have hloops : r.loops = u.loops := by rw [hlive]
    have hlive' : u.live = s.live := by rw [honly]
    dsimp only
    rw [hloops, hself]
    refine ⟨fun w hw => ?_, fun h => (by cases h), rfl, rfl, fun m hm => ?_, fun a k hk hf => ?_, ?_⟩
    · cases hw
      exact ⟨rfl, hflag, fun hne => hevent (bne_iff_ne.2 hne)⟩
    · rw [hloops, hother m hm]
    · rw [hbits a k hk hf, rd, hlive', ← rd]
    · conv_lhs => rw [hlive, honly]

/-- The second slot of PASS_I: the integrator put into its context, shown, and whether it was held (R141). -/
def integratorShown (s : State) (n : Fin 64) (i : Int) (frozen : Bool) : State :=
  fputB (wr (setLoop s n fun x => { x with mi := x.mi.put x.iAt 8 i }) (Reg.LOOP_I n) (BitVec.ofInt 32 i))
    (Fld.LOOP_STATUS_IFROZEN n) frozen

theorem integratorShown_effects (s : State) (n : Fin 64) (i : Int) (frozen : Bool) : let t := integratorShown s n i frozen
    Delivers (s.loops.get n).mi (t.loops.get n).mi (s.loops.get n).iAt 8 i ∧ rd t (Reg.LOOP_I n) = BitVec.ofInt 32 i ∧
    bit t (Fld.LOOP_STATUS_IFROZEN n) = frozen ∧ OtherLoops n s t ∧
    SameBits [wholeReg (Reg.LOOP_I n), Fld.LOOP_STATUS_IFROZEN n] s t ∧ t = { s with live := t.live, loops := t.loops } := by
  have hself : (integratorShown s n i frozen).loops.get n =
    { s.loops.get n with mi := (s.loops.get n).mi.put (s.loops.get n).iAt 8 i } := loops_setLoop_self s n _
  refine ⟨?_, ?_, bit_fputB_self _ _ _ (by simp) rfl, otherLoops_setLoop s n _, ?_, rfl⟩
  · rw [hself]
    exact delivers_put _ _ _ _
  · rw [integratorShown, fputB, rd_fput_of_ne _ _ (loopAddr_ne_of_mod (by decide)), rd_wr_self]
  · exact (SameBits.wr (t := setLoop s n _) (fun _ _ _ _ => rfl) _ _ (by simp)).fput _ _ (by simp)

section
variable {s : State} {l : LaneFields} (f : Nat) {n : Fin 64}

theorem exec_passI_first (h : laneActs s 0x0A l = true) (hn : ctxLoop s l.ctx.toNat = some n.val) (ha : l.argBits 0 1 = 0) :
    exec (.passI l f) s = .next (baseTaken s n (absFret s f) (dueI s n (absFret s f))) := by
  refine (if_neg (not_not_of_acts h)).trans (congrArg _ ((onLoop_of_some _ hn).trans ?_))
  rw [ha, ← passI1_eq]
  rfl

theorem exec_passI_second (h : laneActs s 0x0A l = true) (hn : ctxLoop s l.ctx.toNat = some n.val) (ha : l.argBits 0 1 = 1) :
    exec (.passI l f) s = .next (passI2 n s) := by
  refine (if_neg (not_not_of_acts h)).trans (congrArg _ ((onLoop_of_some _ hn).trans ?_))
  rw [ha]
  rfl

end

/-! ### PASS_SUM (R142) -/

/-- A limit flag: it is set, and LIMIT is raised where it was 0 before. -/
theorem setLim_effects (s : State) (n : Fin 64) {k : Nat} (hk : k < 32) (b : Bool) : let t := setLim s n ⟨Reg.LOOP_STATUS n, k, 1⟩ b
    bit t ⟨Reg.LOOP_STATUS n, k, 1⟩ = b ∧
    (b = true → bit s ⟨Reg.LOOP_STATUS n, k, 1⟩ = false → bit t (Fld.LOOP_EVENT_LIMIT n) = true) ∧
    (bit s (Fld.LOOP_EVENT_LIMIT n) = true → bit t (Fld.LOOP_EVENT_LIMIT n) = true) ∧
    SameBits [⟨Reg.LOOP_STATUS n, k, 1⟩, Fld.LOOP_EVENT_LIMIT n] s t ∧ t = { s with live := t.live } := by
  have hf : bit (fputB s ⟨Reg.LOOP_STATUS n, k, 1⟩ b) ⟨Reg.LOOP_STATUS n, k, 1⟩ = b := bit_fputB_self _ _ _ hk rfl
  have hbits : SameBits [⟨Reg.LOOP_STATUS n, k, 1⟩, Fld.LOOP_EVENT_LIMIT n] s (fputB s ⟨Reg.LOOP_STATUS n, k, 1⟩ b) :=
    (SameBits.refl _ s).fput _ _ (by simp)
  rw [setLim]
  dsimp only
  by_cases h : (b && !bit s ⟨Reg.LOOP_STATUS n, k, 1⟩) = true
  · rw [if_pos h]
    have hl := bit_raise_self (fputB s ⟨Reg.LOOP_STATUS n, k, 1⟩ b) (Fld.LOOP_EVENT_LIMIT n) (by simp) rfl
    exact ⟨(bit_fput_of_ne _ _ _ _ (.inl (loopAddr_ne_of_mod (by decide)))).trans hf, fun _ _ => hl, fun _ => hl,
      hbits.raise _ (by simp), rfl⟩
  · rw [if_neg h]
    refine ⟨hf, fun hb hs => absurd (by rw [hb, hs]; rfl) h, fun hl => ?_, hbits, rfl⟩
    exact (bit_fput_of_ne _ _ _ _ (.inl (loopAddr_ne_of_mod (by decide)))).trans hl

/-- The output of loop `n` in its context and its register, and the limit flags. -/
def outputShown (s : State) (n : Fin 64) (g : LoopSt → LoopSt) (u : Word) (above below : Bool) : State :=
  setLim (setLim (wr (setLoop s n g) (Reg.LOOP_U n) u) n (Fld.LOOP_STATUS_LIMH n) above) n (Fld.LOOP_STATUS_LIML n) below

theorem outputShown_effects (s : State) (n : Fin 64) (g : LoopSt → LoopSt) (u : Word) (above below : Bool) :
    let t := outputShown s n g u above below
    t.loops.get n = g (s.loops.get n) ∧ OtherLoops n s t ∧ rd t (Reg.LOOP_U n) = u ∧
    bit t (Fld.LOOP_STATUS_LIMH n) = above ∧ bit t (Fld.LOOP_STATUS_LIML n) = below ∧
    (above = true → bit s (Fld.LOOP_STATUS_LIMH n) = false → bit t (Fld.LOOP_EVENT_LIMIT n) = true) ∧
    (below = true → bit s (Fld.LOOP_STATUS_LIML n) = false → bit t (Fld.LOOP_EVENT_LIMIT n) = true) ∧
    SameBits [wholeReg (Reg.LOOP_U n), Fld.LOOP_STATUS_LIMH n, Fld.LOOP_STATUS_LIML n, Fld.LOOP_EVENT_LIMIT n] s t ∧
    t = { s with live := t.live, loops := t.loops } := by
  have hput : SameBits [wholeReg (Reg.LOOP_U n)] s (wr (setLoop s n g) (Reg.LOOP_U n) u) :=
    SameBits.wr (t := setLoop s n g) (fun _ _ _ _ => rfl) _ _ (by simp)
  have hu : rd (wr (setLoop s n g) (Reg.LOOP_U n) u) (Reg.LOOP_U n) = u := rd_wr_self _ _ _
  have hself : (wr (setLoop s n g) (Reg.LOOP_U n) u).loops.get n = g (s.loops.get n) := loops_setLoop_self s n g
  have hother : OtherLoops n s (wr (setLoop s n g) (Reg.LOOP_U n) u) := otherLoops_setLoop s n g
  have honly : wr (setLoop s n g) (Reg.LOOP_U n) u = { s with
    live := (wr (setLoop s n g) (Reg.LOOP_U n) u).live, loops := (wr (setLoop s n g) (Reg.LOOP_U n) u).loops } := rfl
  rw [outputShown]
  generalize wr (setLoop s n g) (Reg.LOOP_U n) u = v at hput hu hself hother honly ⊢
  obtain ⟨hH, hHup, -, hHbits, hHonly⟩ := setLim_effects v n (k := 6) (by decide) above
  generalize setLim v n (Fld.LOOP_STATUS_LIMH n) above = w at hH hHup hHbits hHonly ⊢
  obtain ⟨hL, hLup, hLkeep, hLbits, hLonly⟩ := setLim_effects w n (k := 7) (by decide) below
  generalize setLim w n (Fld.LOOP_STATUS_LIML n) below = t at hL hLup hLkeep hLbits hLonly ⊢
  have hloops : t.loops = v.loops := by rw [hLonly, hHonly]
  dsimp only
  rw [hloops]
  refine ⟨hself, fun m hm => by rw [hloops, hother m hm], ?_, ?_, hL, fun ha h0 => hLkeep (hHup ha ?_), fun hb h0 => hLup hb ?_, ?_, ?_⟩
  · rw [hLbits.rd_eq (by simp [offRegister]), hHbits.rd_eq (by simp [offRegister]), hu]
  · rw [hLbits.bit_eq (by simp [apartFrom]), hH]
  · rw [hput.bit_eq (by simp [apartFrom, wholeReg]), h0]
  · rw [hHbits.bit_eq (by simp [apartFrom]), hput.bit_eq (by simp [apartFrom, wholeReg]), h0]
  · exact ((hput.mono (by simp)).trans (hHbits.mono (by simp))).trans (hLbits.mono (by simp))
  · conv_lhs => rw [hLonly, hHonly, honly]

/-- The release of the selectors changes the state of Capo, and only after an evaluation that performed a preset. -/
theorem releaseSelectors_only (s : State) (n : Fin 64) (t : Nat) :
    releaseSelectors s n t = { s with capo := (releaseSelectors s n t).capo } ∧
    ((s.loops.get n).ev.preset = none → releaseSelectors s n t = s) := by
  unfold releaseSelectors
  by_cases h : (s.loops.get n).ev.preset.isSome = true
  · rw [if_pos h]
    exact ⟨rfl, fun h0 => absurd h (by rw [h0]; decide)⟩
  · rw [if_neg h]
    exact ⟨rfl, fun _ => rfl⟩

/-- The counts of the blocks lie in none of the fields that the output writes. -/
theorem offRegister_output (n : Fin 64) : offRegister [wholeReg (Reg.LOOP_U n), Fld.LOOP_STATUS_LIMH n, Fld.LOOP_STATUS_LIML n,
    Fld.LOOP_EVENT_LIMIT n] (Reg.FAULT_BCNT 1) = true := by
  simp only [offRegister, List.all_cons, List.all_nil, Bool.and_true, Bool.and_eq_true, bne_iff_ne]
  exact ⟨(below_ne_block _ (by decide)).symm, (below_ne_block _ (by decide)).symm, (below_ne_block _ (by decide)).symm,
    (below_ne_block _ (by decide)).symm⟩

/-- The second slot of PASS_SUM: the output shown, the selectors released, and a saturation noted. -/
def outputNoted (s : State) (n : Fin 64) (g : LoopSt → LoopSt) (u : Word) (above below sat : Bool) (f : Nat) : State :=
  noteOvf (releaseSelectors (outputShown s n g u above below) n (s.loops.get n).sAt) n sat f

theorem outputNoted_effects (s : State) (n : Fin 64) {g : LoopSt → LoopSt} (hg : ∀ x, (g x).ev = x.ev) (u : Word)
    (above below sat : Bool) (f : Nat) : let t := outputNoted s n g u above below sat f
    t.loops.get n = g (s.loops.get n) ∧ rd t (Reg.LOOP_U n) = u ∧
    bit t (Fld.LOOP_STATUS_LIMH n) = above ∧ bit t (Fld.LOOP_STATUS_LIML n) = below ∧
    (above = true → bit s (Fld.LOOP_STATUS_LIMH n) = false → bit t (Fld.LOOP_EVENT_LIMIT n) = true) ∧
    (below = true → bit s (Fld.LOOP_STATUS_LIML n) = false → bit t (Fld.LOOP_EVENT_LIMIT n) = true) ∧
    OtherLoops n s t ∧ ((s.loops.get n).ev.preset = none → t.capo = s.capo) ∧
    (sat = true → bit t (Fld.LOOP_EVENT_OVF n) = true ∧ CorrectedReported s t 0x0201) ∧
    (sat = false → t.fault = s.fault ∧ t.saddle = s.saddle ∧
      SameBits [wholeReg (Reg.LOOP_U n), Fld.LOOP_STATUS_LIMH n, Fld.LOOP_STATUS_LIML n, Fld.LOOP_EVENT_LIMIT n] s t) ∧
    t = { s with live := t.live, loops := t.loops, capo := t.capo, fault := t.fault, saddle := t.saddle } := by
  obtain ⟨hself, hother, hu, hH, hL, hHup, hLup, hbits, honly⟩ := outputShown_effects s n g u above below
  rw [outputNoted]
  generalize outputShown s n g u above below = v at hself hother hu hH hL hHup hLup hbits honly ⊢
  obtain ⟨hrel, hkept⟩ := releaseSelectors_only v n (s.loops.get n).sAt
  generalize releaseSelectors v n (s.loops.get n).sAt = w at hrel hkept ⊢
  have hnote := ovfNoted_noteOvf w n sat f
  generalize noteOvf w n sat f = t at hnote ⊢
  have hwlive : w.live = v.live := by rw [hrel]
  have hwrd (a : Nat) : rd w a = rd v a := by rw [rd, hwlive, ← rd]
  have hloops : t.loops = v.loops := by rw [hnote.loops_eq, hrel]
  have hkeep {b : Nat} (h : 0x10000 ≤ b) (hc : b % 0x200 ≠ 0x18020 % 0x200) (he : b % 0x200 ≠ 0x18014 % 0x200) :
      rd t (b + 0x200 * n) = rd v (b + 0x200 * n) := by
    rw [hnote.regs _ (ovfReg_of_loop _ h hc he), hwrd]
  have hlimit : bit t (Fld.LOOP_EVENT_LIMIT n) = bit v (Fld.LOOP_EVENT_LIMIT n) := by rw [hnote.limit, bit_of_rd _ (hwrd _)]
  have hstatus := hkeep (b := 0x18010) (by decide) (by decide) (by decide)
  dsimp only
  rw [hloops, hlimit]
  refine ⟨hself, (hkeep (by decide) (by decide) (by decide)).trans hu, (bit_of_rd (Fld.LOOP_STATUS_LIMH n) hstatus).trans hH,
    (bit_of_rd (Fld.LOOP_STATUS_LIML n) hstatus).trans hL, hHup, hLup, fun m hm => by rw [hloops, hother m hm], fun h0 => ?_, ?_, fun hs => ?_, ?_⟩
  · rw [hnote.capo_eq, hkept (by rw [hself, hg, h0]), honly]
  · exact hnote.reported ((hwrd _).trans (hbits.rd_eq (offRegister_output n)))
  · rw [hnote.kept hs]
    refine ⟨by rw [hrel, honly], by rw [hrel, honly], hbits.of_live hwlive⟩
  · have hframe := only_of_recFrame hnote.frame
    rw [hnote.capo_eq]
    conv_lhs => rw [hframe, hrel, honly]

section
variable {s : State} {l : LaneFields} (f : Nat) {n : Fin 64}

theorem exec_passSum_first (h : laneActs s 0x0C l = true) (hn : ctxLoop s l.ctx.toNat = some n.val) (ha : l.argBits 0 1 = 0) :
    exec (.passSum l f) s = .next (passSum1 f n s) := by
  refine (if_neg (not_not_of_acts h)).trans (congrArg _ ((onLoop_of_some _ hn).trans ?_))
  rw [ha]
  rfl

theorem exec_passSum_second (h : laneActs s 0x0C l = true) (hn : ctxLoop s l.ctx.toNat = some n.val) (ha : l.argBits 0 1 = 1) :
    exec (.passSum l f) s = .next (passSum2 f n s) := by
  refine (if_neg (not_not_of_acts h)).trans (congrArg _ ((onLoop_of_some _ hn).trans ?_))
  rw [ha]
  rfl

end

/-- What PASS_SUM makes of a loop context. -/
def outputPut (u : Word) (above below : Bool) (l : LoopSt) : LoopSt := { l with
  u := l.u.put l.sAt 8 u, limH := l.limH.put l.sAt 8 above, limL := l.limL.put l.sAt 8 below }

/-- The value that PASS_SUM rounds, by the state of the evaluation (R142, R145). -/
def outputValue (l : LoopSt) : Rat := match l.ev.state with
  | .man => vwVal l.ev.uman
  | .hold => vwVal l.ev.hold
  | _ => l.sSum

theorem passSum2_eq (f : Nat) (n : Fin 64) (s : State) :
    let lo := vwVal (evalWord s n 0x004)
    let hi := vwVal (evalWord s n 0x008)
    let r := vwRound (emax s n) (outputValue (s.loops.get n))
    let u := vwRound (emax s n) (clipR (vwVal r.1) lo hi)
    let above := decide (hi < vwVal r.1)
    let below := decide (vwVal r.1 < lo)
    passSum2 f n s = outputNoted s n (outputPut u.1 above below) u.1 above below (r.2 || u.2) f := by
  unfold passSum2 outputNoted
  dsimp only
  rfl

end Sys2Proof.Machine
end

section
set_option Elab.async false
namespace Sys2Proof.Machine

/-! ### The passes of a loop (R131 to R145) -/

/-- A pass whose context names no loop of this round changes nothing. -/
theorem exec_pass_of_no_loop {s : State} {l : LaneFields} (f : Nat) (hn : ctxLoop s l.ctx.toNat = none) :
    (laneActs s 0x08 l = true → exec (.passE l f) s = .next s) ∧ (laneActs s 0x09 l = true → exec (.passP l f) s = .next s) ∧
    (laneActs s 0x0A l = true → exec (.passI l f) s = .next s) ∧ (laneActs s 0x0B l = true → exec (.passD l f) s = .next s) ∧
    (laneActs s 0x0C l = true → exec (.passSum l f) s = .next s) :=
  ⟨fun h => (if_neg (not_not_of_acts h)).trans (congrArg _ (onLoop_of_none _ hn)),
    fun h => (if_neg (not_not_of_acts h)).trans (congrArg _ (onLoop_of_none _ hn)),
    fun h => (if_neg (not_not_of_acts h)).trans (congrArg _ (onLoop_of_none _ hn)),
    fun h => (if_neg (not_not_of_acts h)).trans (congrArg _ (onLoop_of_none _ hn)),
    fun h => (if_neg (not_not_of_acts h)).trans (congrArg _ (onLoop_of_none _ hn))⟩

/-- With DMODE = 0 the derivative input is the exact negation of the error (R135, R139). -/
theorem errorPair_neg {s : State} {n : Fin 64} (re y : Word) (h : bit s (Fld.LOOP_CFG_DMODE n) = false)
    (hs : (errorPair s n re y).2.2 = false) : vwVal (errorPair s n re y).2.1 = -vwVal (errorPair s n re y).1 := by
  have hd : errorPair s n re y = vwRoundNeg (emax s n) (passSum [signTerm s n (Term.ofVw re), signTerm s n (Term.ofVw y).neg]) :=
    if_neg (Bool.eq_false_iff.1 h)
  rw [hd] at hs ⊢
  exact vwVal_vwRoundNeg (emax_bounds s n).1 (emax_bounds s n).2 _ hs

/-- Settles O16: each slot of each pass is a lemma about its command; what all of them share is that a result is put into the pipeline of its
loop, shown, and its saturation noted. -/
theorem loopPassesDeliverTheirResults : Obligations.LoopPassesDeliverTheirResults := by
  unfold Obligations.LoopPassesDeliverTheirResults
  refine ⟨fun s l f hn => exec_pass_of_no_loop f hn, fun s l f n h hn => ⟨fun hd hs => errorPair_neg _ _ hd hs, ?_⟩,
    fun s l f n h hn => ?_, fun s l f n h hn => ⟨fun ha => exec_passD_first f h hn ha, fun ha => ?_⟩,
    fun s l f n h hn ha => ⟨_, exec_passI_first f h hn ha, baseTaken_effects s n (absFret s f) (dueI s n (absFret s f))⟩,
    fun s l f n h hn ha => ⟨_, exec_passI_second f h hn ha, integratorShown_effects s n _ _⟩,
    fun s l f n h hn => ⟨fun ha => exec_passSum_first f h hn ha, fun ha => ?_⟩⟩
  · obtain ⟨hself, hr, he, hother, hsat, hkept, honly⟩ := errorNoted_effects s n f
      (vwRound (emax s n) (shareAndCap s n (absFret s f) (baseRef s n f)))
      (errorPair s n (vwRound (emax s n) (shareAndCap s n (absFret s f) (baseRef s n f))).1 ((s.loops.get n).y.get (absFret s f)))
    refine ⟨_, exec_passE_of_loop f h hn, ?_⟩
    beta_reduce
    rw [hself]
    exact ⟨delivers_put _ _ _ _, delivers_put _ _ _ _, delivers_put _ _ _ _, rfl, rfl, rfl, rfl, rfl, hr, he, hother, hsat, hkept, honly⟩
  · obtain ⟨hself, hp, hother, hsat, hkept, honly⟩ := resultNoted_effects s n
      (fun x => { x with p := x.p.put (absFret s f) 8 (pOf s n (absFret s f)).1 }) (b := 0x18030) (pOf s n (absFret s f)) f
      (by decide) (by decide) (by decide)
    refine ⟨_, exec_passP_of_loop f h hn, ?_, hp, hother, hsat, hkept, honly⟩
    rw [hself]
    exact delivers_put _ _ _ _
  · obtain ⟨hself, hd, hother, hsat, hkept, honly⟩ := resultNoted_effects s n
      (fun x => { x with d := x.d.put x.dAt 8 (vwRound (emax s n) (s.loops.get n).dSum).1 }) (b := 0x18038)
      (vwRound (emax s n) (s.loops.get n).dSum) f (by decide) (by decide) (by decide)
    refine ⟨_, exec_passD_second f h hn ha, ?_, hd, hother, hsat, hkept, honly⟩
    rw [hself]
    exact delivers_put _ _ _ _
  · intro r lo hi u
    obtain ⟨hself, hu, hH, hL, hHup, hLup, hother, hcapo, hsat, hkept, honly⟩ := outputNoted_effects s n
      (g := outputPut u.1 (decide (hi < vwVal r.1)) (decide (vwVal r.1 < lo))) (fun _ => rfl) u.1
      (decide (hi < vwVal r.1)) (decide (vwVal r.1 < lo)) (r.2 || u.2) f
    have hexec : exec (.passSum l f) s = .next (outputNoted s n (outputPut u.1 (decide (hi < vwVal r.1)) (decide (vwVal r.1 < lo))) u.1
        (decide (hi < vwVal r.1)) (decide (vwVal r.1 < lo)) (r.2 || u.2) f) :=
      (exec_passSum_second f h hn ha).trans (congrArg _ (passSum2_eq f n s))
    refine ⟨_, hexec, ?_⟩
    beta_reduce
    rw [hself]
    exact ⟨delivers_put _ _ _ _, hu, delivers_put _ _ _ _, delivers_put _ _ _ _, hH, hL, fun h => hHup (decide_eq_true h),
      fun h => hLup (decide_eq_true h), hother, hcapo, hsat, hkept, honly⟩

end Sys2Proof.Machine
end

section
set_option Elab.async false
namespace Sys2Proof.Machine

/-! ### What every operation leaves of the ports

Nothing but the port operations of spec/03 (and what lowers outputs) writes the ports. One lemma for each operation of the model that a
command can reach, in the order of the model; the proofs of the invariants of the ports rest on them. -/

/-- No pair of any port has both outputs high: `PairsApart` of the ports alone. -/
def PortsApart (v : Vector PortSt 32) : Prop :=
  ∀ (q : Fin 32) (h : Gate), ¬ (((v.get q).gates.get h.idx).high = true ∧ ((v.get q).gates.get h.compl.idx).high = true)

theorem ports_of_recFrame {s t : State} (h : recFrame t = recFrame s) : t.ports = s.ports := (congrArg State.ports h :)

theorem foldl_ports {α : Type} (f : State → α → State) (l : List α) (s : State) (h : ∀ s x, (f s x).ports = s.ports) :
    (l.foldl f s).ports = s.ports := frame_foldl State.ports f h l s

/-! #### Operations of Records.lean -/

theorem pushRecord_ports (s : State) (ty sv c ts : Nat) (p : List Byte) :
    (pushRecord s ty sv c ts p).ports = s.ports := ports_of_recFrame (recFrame_pushRecord ..)

theorem reportCorrected_ports (s : State) (c ts : Nat)  : (reportCorrected s c ts).ports =
    s.ports := ports_of_recFrame (recFrame_reportCorrected ..)

theorem countFault_ports (s : State) (c cl k i ts : Nat)  : (countFault s c cl k i ts).ports =
    s.ports := ports_of_recFrame (recFrame_countFault ..)

/-! #### Operations of Ops.lean -/

theorem rewriteEngine_ports (s : State) (p : Nat → Bool) : (rewriteEngine s p).ports = s.ports := by
  grind [rewriteEngine]

theorem engSetBytes_ports (bs : List Byte) (s : State) (o : Nat) : (engSetBytes s o bs).ports = s.ports :=
  (congrArg State.ports (engFrame_engSetBytes bs s o) :)

theorem nvmSetBytes_ports (bs : List Byte) (s : State) (o : Nat) : (nvmSetBytes s o bs).ports = s.ports := by
  induction bs generalizing s o with
  | nil => rfl
  | cons b bs ih => exact (ih _ _).trans (nvmSetByte_ports ..)

theorem engSetWord_ports (s : State) (o : Nat) (w : Word) : (engSetWord s o w).ports = s.ports := engSetBytes_ports ..

/-! #### Operations of Gates.lean -/

theorem refreshFaultStatus_ports (s : State) : (refreshFaultStatus s).ports = s.ports := by
  grind [refreshFaultStatus, fput_ports, fputB_ports]

/-! #### Operations of Rails.lean -/

theorem setRail_ports (s : State) (r : Fin 16) (f : RailSt → RailSt) : (setRail s r f).ports = s.ports := by
  grind [setRail]

theorem showRail_ports (s : State) (r : Fin 16) : (showRail s r).ports = s.ports := by
  grind [showRail, fputB_ports, fputBit_ports, setRail_ports]

theorem senseRail_ports (s : State) (r : Fin 16) (mon : Rat) (pin : Bool) (held : Nat) : (senseRail s r mon pin held).ports = s.ports := by
  grind [senseRail, setRail_ports, showRail_ports]

theorem restartRail_ports (s : State) (r : Fin 16) : (restartRail s r).ports = s.ports := by
  grind [restartRail, setRail_ports]

theorem powerRails_ports (s : State) : (powerRails s).ports = s.ports := by
  grind [powerRails, foldl_ports, showRail_ports, restartRail_ports]

theorem putRail_ports (s : State) (r : Fin 16) (t : RailState) : (putRail s r t).ports = s.ports := by
  grind [putRail, fput_ports, fputB_ports, fputBit_ports, setRail_ports, showRail_ports, restartRail_ports]

/-! #### Operations of Records.lean -/

theorem syncPending_ports (s : State) : (syncPending s).ports = s.ports := by
  grind [syncPending, fput_ports]

theorem recordLost_ports (s : State) : (recordLost s).ports = s.ports := by
  grind [recordLost, raise_ports, inc_ports, countFault_ports]

theorem partialWord_ports (s : State) : (partialWord s).ports = s.ports := by
  grind [partialWord, raise_ports, reportCorrected_ports]

theorem nvmReadFaults_ports (s : State) (o n : Nat) : (nvmReadFaults s o n).ports = s.ports := by
  grind [nvmReadFaults, foldl_ports, reportCorrected_ports]

/-! #### Operations of FeedOps.lean -/

theorem putFeedState_ports (s : State) (f : Fin 8) (t : FeedState) : (putFeedState s f t).ports = s.ports := by
  grind [putFeedState, fput_ports, fputBit_ports]

theorem refreshSuspension_ports (s : State) : (refreshSuspension s).ports = s.ports := by
  grind [refreshSuspension, foldl_ports, fputB_ports, setFeed_ports]

theorem feedOut_ports (s : State) (f : Fin 8) (g pc : Bool) : (feedOut s f g pc).ports = s.ports := by
  grind [feedOut, fputB_ports, raise_ports, fputBit_ports, setFeed_ports, refreshSuspension_ports]

theorem feedSense_ports (s : State) (f : Fin 8) (vs vl is : Option Rat) (held clocks : Nat) :
    (feedSense s f vs vl is held clocks).ports = s.ports := by
  grind [feedSense, setFeed_ports]

theorem resenseFeed_ports (s : State) (f : Fin 8) : (resenseFeed s f).ports = s.ports := by
  grind [resenseFeed, feedSense_ports]

theorem feedOn_ports (s : State) (f : Fin 8) : (feedOn s f).ports = s.ports := by
  grind [feedOn, raise_ports, setFeed_ports, putFeedState_ports, feedOut_ports]

theorem feedClose_ports (s : State) (f : Fin 8) : (feedClose s f).ports = s.ports := by
  grind [feedClose, setFeed_ports, putFeedState_ports, feedOut_ports, feedOn_ports]

theorem feedQualify_ports (s : State) (f : Fin 8) (waived : Bool) : (feedQualify s f waived).ports = s.ports := by
  grind [feedQualify, setFeed_ports, putFeedState_ports, feedOut_ports, feedClose_ports]

theorem feedRunLoss_ports (s : State) (f : Fin 8) : (feedRunLoss s f).ports = s.ports := by
  grind [feedRunLoss, setFeed_ports, putFeedState_ports, feedOut_ports]

theorem feedFault_ports (s : State) (f : Fin 8) : (feedFault s f).ports = s.ports := by
  grind [feedFault, raise_ports, fputBit_ports, setFeed_ports, putFeedState_ports, feedOut_ports]

theorem refreshFeed_ports (s : State) (f : Fin 8) : (refreshFeed s f).ports = s.ports := by
  grind [refreshFeed, feedQualify_ports, feedRunLoss_ports]

theorem refreshFeeds_ports (s : State) : (refreshFeeds s).ports = s.ports := by
  grind [refreshFeeds, foldl_ports, refreshFeed_ports]

/-! #### Operations of SeqOps.lean -/

theorem putPhase_ports (s : State) (p : SeqPhase) : (putPhase s p).ports = s.ports := by
  grind [putPhase, fput_ports]

theorem putCur_ports (s : State) (r : Option (Fin 16)) : (putCur s r).ports = s.ports := fput_ports ..

theorem seqRecord_ports (s : State) (subtype : Nat) : (seqRecord s subtype).ports = s.ports := by
  grind [seqRecord, pushRecord_ports]

theorem powerUpDone_ports (s : State) : (powerUpDone s).ports = s.ports := by
  grind [powerUpDone, fputB_ports, raise_ports, inc_ports, putPhase_ports, putCur_ports, seqRecord_ports]

theorem takeUp_ports (s : State) (n : Nat) : (takeUp s n).ports = s.ports := by
  grind [takeUp, putRail_ports, setSeq_ports, putCur_ports, powerUpDone_ports]

theorem applySeqCfg_ports (s : State) : (applySeqCfg s).ports = s.ports := by
  grind [applySeqCfg, foldl_ports, wr_ports, fput_ports, showRail_ports, restartRail_ports, putRail_ports, setSeq_ports]

theorem powerDownDone_ports (s : State) : (powerDownDone s).ports = s.ports := by
  grind [powerDownDone, fput_ports, raise_ports, inc_ports, putPhase_ports, setSeq_ports, putCur_ports, seqRecord_ports, applySeqCfg_ports]

theorem takeDown_ports (s : State) (n : Nat) : (takeDown s n).ports = s.ports := by
  grind [takeDown, putRail_ports, setSeq_ports, putCur_ports, powerDownDone_ports]

theorem beginUp_ports (s : State) : (beginUp s).ports = s.ports := by
  grind [beginUp, fput_ports, putPhase_ports, setSeq_ports, takeUp_ports]

theorem requestOn_ports (s : State) : (requestOn s).ports = s.ports := by
  grind [requestOn, setSeq_ports]

theorem requestOff_ports (s : State) : (requestOff s).ports = s.ports := by
  grind [requestOff, setSeq_ports]

/-! #### Operations of HarnOps.lean -/

theorem syncPause_ports (s : State) (p : HPort) : (syncPause s p).ports = s.ports := by
  grind [syncPause, setHarn_ports]

theorem sendOn_ports (s : State) (p : HPort) (prio : Nat) (from_ : Option HPort) (f : Frame) :
    (sendOn s p prio from_ f).ports = s.ports := by
  grind [sendOn, setHarn_ports]

theorem syncTx_ports (s : State) : (syncTx s).ports = s.ports := by
  grind [syncTx, fput_ports, raise_ports]

theorem flushOne_ports (p : HPort) (s : State) : (flushOne p s).ports = s.ports := by
  grind [flushOne, setHarn_ports, syncPause_ports]

theorem flushPort_ports (s : State) (p : HPort) : (flushPort s p).ports = s.ports := by
  grind [flushPort, foldl_ports, syncTx_ports, flushOne_ports]

theorem setUpPort_ports (s : State) (code : Nat) : (setUpPort s code).ports = s.ports := by
  grind [setUpPort, fput_ports, setHarn_ports]

theorem reverseCopy_ports (s : State) (from_ : Option HPort) (f : Frame) : (reverseCopy s from_ f).ports = s.ports := by
  grind [reverseCopy, sendOn_ports]

theorem sendDown_ports (s : State) (from_ : Option HPort) (f : Frame) : (sendDown s from_ f).ports = s.ports := by
  grind [sendDown, foldl_ports, sendOn_ports, reverseCopy_ports]

theorem sendOwn_ports (s : State) (prio : Nat) (f : Frame) : (sendOwn s prio f).ports = s.ports := by
  grind [sendOwn, foldl_ports, sendOn_ports, reverseCopy_ports]

theorem nextSeq_ports (s : State) : (nextSeq s).ports = s.ports := by
  grind [nextSeq, setHarn_ports]

theorem sendFirst_ports (s : State) (f : Frame) : (sendFirst s f).ports = s.ports := by
  grind [sendFirst, setHarn_ports, sendOwn_ports]

theorem putEvt_ports (s : State) (urgent : Bool) (f : Frame) : (putEvt s urgent f).ports = s.ports := by
  grind [putEvt, setHarn_ports, sendOwn_ports, nextSeq_ports, sendFirst_ports]

theorem sendEvt_ports (s : State) (code cls ts : Nat) : (sendEvt s code cls ts).ports = s.ports := by
  grind [sendEvt, putEvt_ports]

theorem harnCycle_ports (s : State) : (harnCycle s).ports = s.ports := by
  grind [harnCycle, foldl_ports, setHarn_ports, sendFirst_ports]

/-! #### Operations of Report.lean -/

theorem syncAlive_ports (s : State) : (syncAlive s).ports = s.ports := by
  grind [syncAlive]

theorem abandonArm_ports (s : State) (reason : Nat) : (abandonArm s reason).ports = s.ports := by
  grind [abandonArm, fput_ports, raise_ports]

theorem endFreeze_ports (s : State) : (endFreeze s).ports = s.ports := by
  grind [endFreeze, fput_ports]

theorem syncSnaps_ports (s : State) : (syncSnaps s).ports = s.ports := by
  grind [syncSnaps, fput_ports]

theorem askSnapshot_ports (code cls ts : Nat) (scope : Nat × Nat) (s : State) (c : Nat) :
    (askSnapshot code cls ts scope s c).ports = s.ports := by
  grind [askSnapshot, raise_ports, reportCorrected_ports, syncSnaps_ports]

theorem makeEntry_ports (s : State) (e code cls kind idx ts : Nat) : (makeEntry s e code cls kind idx ts).ports = s.ports := by
  grind [makeEntry, wr_ports, wr64_ports]

theorem faultRecord_ports (s : State) (code cls kind idx ts slot cnt : Nat) :
    (faultRecord s code cls kind idx ts slot cnt).ports = s.ports := by
  grind [faultRecord, pushRecord_ports]

/-! #### Operations of Batt.lean -/

theorem putBattState_ports (s : State) (b : Fin 2) (t : BattState) : (putBattState s b t).ports = s.ports := rfl

theorem putWarn_ports (wf ef : Field) (i : Nat) (now : Bool) (s : State) : (putWarn wf ef i now s).ports = s.ports := by
  grind [putWarn, fputBit_ports]

theorem judgeWarnings_ports (s : State) (b : Fin 2) : (judgeWarnings s b).ports = s.ports := by
  grind [judgeWarnings, foldl_ports, fput_ports, putWarn_ports]

theorem battRegs_ports (s : State) (b : Fin 2) : (battRegs s b).ports = s.ports := by
  grind [battRegs, foldl_ports, wr_ports]

theorem battInputs_ports (s : State) (b : Fin 2) : (battInputs s b).ports = s.ports := by
  grind [battInputs, fputB_ports, setBatt_ports]

theorem battAdvance_ports (s : State) (b : Fin 2) : (battAdvance s b).ports = s.ports := by
  grind [battAdvance, setBatt_ports]

theorem battObserve_ports (s : State) (b : Fin 2) : (battObserve s b).ports = s.ports := by
  grind [battObserve, setBatt_ports]

theorem battGrowU_ports (s : State) (b : Fin 2) : (battGrowU s b).ports = s.ports := by
  grind [battGrowU, setBatt_ports]

theorem battAdapt_ports (s : State) (b : Fin 2) (p : BattSt) : (battAdapt s b p).ports = s.ports := by
  grind [battAdapt, setBatt_ports]

theorem battTimers_ports (s : State) (b : Fin 2) : (battTimers s b).ports = s.ports := by
  grind [battTimers, fputB_ports, setBatt_ports]

theorem formSnapshot_ports (s : State) (b : Fin 2) : (formSnapshot s b).ports = s.ports := by
  grind [formSnapshot, foldl_ports, wr_ports, raise_ports, setBatt_ports]

theorem closeStep_ports (s : State) (b : Fin 2) (snap : Bool) : (closeStep s b snap).ports = s.ports := by
  grind [closeStep, setBatt_ports, judgeWarnings_ports, battRegs_ports, formSnapshot_ports]

theorem endStep_ports (s : State) (b : Fin 2) (snap : Bool) : (endStep s b snap).ports = s.ports := by
  grind [endStep, setBatt_ports, battRegs_ports, closeStep_ports]

theorem goOnStep_ports (s : State) (b : Fin 2) : (goOnStep s b).ports = s.ports := by
  grind [goOnStep, judgeWarnings_ports, battRegs_ports, endStep_ports]

theorem battAnchor_ports (s : State) (b : Fin 2) (sa : Rat) : (battAnchor s b sa).ports = s.ports := by
  grind [battAnchor, fput_ports, raise_ports, setBatt_ports, putBattState_ports]

theorem requestSnap_ports (b : Fin 2) (s : State) : (requestSnap b s).ports = s.ports := by
  grind [requestSnap, setBatt_ports]

theorem requestRestore_ports (b : Fin 2) (s : State) : (requestRestore b s).ports = s.ports := by
  grind [requestRestore, setBatt_ports]

theorem battRound_ports (s : State) : (battRound s).ports = s.ports := by
  grind [battRound, foldl_ports, setBatt_ports]

theorem clearLive_ports (s : State) (b : Fin 2) : (clearLive s b).ports = s.ports := by
  grind [clearLive, foldl_ports, wr_ports]

theorem clearBattFault_ports (s : State) (b : Fin 2) : (clearBattFault s b).ports = s.ports := by
  grind [clearBattFault, fput_ports, setBatt_ports]

/-! #### Operations of Eval.lean -/

theorem latchEval_ports (s : State) (f : Nat) (n : Fin 64) : (latchEval s f n).ports = s.ports := by
  grind [latchEval, fput_ports, setLoop_ports]

theorem latchEvals_ports (s : State) (f : Nat) : (latchEvals s f).ports = s.ports := by
  grind [latchEvals, foldl_ports, latchEval_ports]

/-! #### Operations of Cmp.lean -/

theorem senseCmp_ports (s : State) (p : Fin 32) (c : Fin 4) (f : Nat) : (senseCmp s p c f).ports = s.ports := by
  grind [senseCmp, setCmp_ports]

theorem powerCmp_ports (s : State) (p : Fin 32) (c : Fin 4) (f : Nat) : (powerCmp s p c f).ports = s.ports := by
  grind [powerCmp, setCmp_ports, senseCmp_ports]

theorem openBlanking_ports (s : State) (p : Fin 32) (g : Gate) (f : Nat) : (openBlanking s p g f).ports = s.ports := by
  grind [openBlanking, foldl_ports, fput_ports, setCmp_ports]

theorem expectEdge_ports (s : State) (p : Fin 32) (g : Gate) (k : Nat) (rise : Bool) : (expectEdge s p g k rise).ports = s.ports := by
  grind [expectEdge]

theorem edgeMade_ports (s : State) (p : Fin 32) (g : Gate) (k : Nat) (rise : Bool) : (edgeMade s p g k rise).ports = s.ports := by
  grind [edgeMade, openBlanking_ports, expectEdge_ports]

theorem writeCmpLatch_ports (p : Fin 32) (c : Fin 4) (v : Word) (s : State) : (writeCmpLatch p c v s).ports = s.ports := by
  grind [writeCmpLatch, setCmp_ports]

theorem clearLatch_ports (s : State) (p : Fin 32) (c : Fin 4) (hiSide : Bool) : (clearLatch s p c hiSide).ports = s.ports := by
  grind [clearLatch, fput_ports]

theorem carrierComparators_ports (s : State) (p : Fin 32) (f : Nat) : (carrierComparators s p f).ports = s.ports := by
  grind [carrierComparators, foldl_ports, fput_ports, setCmp_ports]

theorem updateThresholds_ports (s : State) (p : Fin 32) (t : Nat) : (updateThresholds s p t).ports = s.ports := by
  grind [updateThresholds, foldl_ports, fput_ports, senseCmp_ports]

theorem writeHiShadow_ports (s : State) (p : Fin 32) (c : Fin 4) (q t : Nat) : (writeHiShadow s p c q t).ports = s.ports := by
  grind [writeHiShadow, fput_ports, setCmp_ports]

theorem writeCmpThr_ports (p : Fin 32) (c : Fin 4) (v : Word) (s : State) : (writeCmpThr p c v s).ports = s.ports := by
  grind [writeCmpThr, fput_ports, raise_ports, setCmp_ports]

theorem clearCmpCnt_ports (p : Fin 32) (c : Fin 4) (s : State) : (clearCmpCnt p c s).ports = s.ports := by
  grind [clearCmpCnt, wr_ports]

/-! #### Operations of Ports.lean -/

theorem captureStart_ports (s : State) (p : Fin 32) : (captureStart s p).ports = s.ports := by
  grind [captureStart]

theorem clearPortCnt_ports (p : Fin 32) (s : State) : (clearPortCnt p s).ports = s.ports := by
  grind [clearPortCnt, wr_ports]

/-! #### Operations of Loops.lean -/

theorem onLoop_ports (s : State) (l : LaneFields) {f : Fin 64 → State → State} (h : ∀ n t, (f n t).ports = t.ports) :
    (onLoop s l f).ports = s.ports := by
  grind [onLoop]

theorem loadY_ports (s : State) (n : Fin 64) (fret : Nat) (v : Word) : (loadY s n fret v).ports = s.ports := by
  grind [loadY, wr_ports, setLoop_ports]

theorem presetI_ports (s : State) (n : Fin 64) (v : Int) : (presetI s n v).ports = s.ports := by
  grind [presetI, fputB_ports, raise_ports, setLoop_ports]

theorem passI1_ports (fret : Nat) (n : Fin 64) (s : State) : (passI1 fret n s).ports = s.ports := by
  grind [passI1, setLoop_ports, presetI_ports]

theorem passI2_ports (n : Fin 64) (s : State) : (passI2 n s).ports = s.ports := by
  grind [passI2, wr_ports, fputB_ports, setLoop_ports]

theorem setLim_ports (s : State) (n : Fin 64) (f : Field) (b : Bool) : (setLim s n f b).ports = s.ports := by
  grind [setLim, fputB_ports, raise_ports]

theorem releaseSelectors_ports (s : State) (n : Fin 64) (t : Nat) : (releaseSelectors s n t).ports = s.ports := by
  grind [releaseSelectors]

theorem passSum1_ports (fret : Nat) (n : Fin 64) (s : State) : (passSum1 fret n s).ports = s.ports := by
  grind [passSum1, setLoop_ports]

theorem regionPass_ports (fret : Nat) (n : Fin 64) (s : State) : (regionPass fret n s).ports = s.ports := by
  grind [regionPass, wr_ports, setLoop_ports]

theorem regionRound_ports (s : State) (n : Fin 64) : (regionRound s n).ports = s.ports := by
  grind [regionRound, fput_ports, raise_ports, inc_ports, setLoop_ports]

theorem targetPass_ports (dst fret : Nat) (n : Fin 64) (s : State) : (targetPass dst fret n s).ports = s.ports := by
  grind [targetPass, setLoop_ports]

theorem writeLoopMode_ports (n : Fin 64) (v : Word) (s : State) : (writeLoopMode n v s).ports = s.ports := by
  grind [writeLoopMode, fput_ports, setLoop_ports]

theorem writeLoopUman_ports (n : Fin 64) (v : Word) (s : State) : (writeLoopUman n v s).ports = s.ports := by
  grind [writeLoopUman, wr_ports, setLoop_ports]

theorem applyLoopMode_ports (n : Fin 64) (s : State) : (applyLoopMode n s).ports = s.ports := by
  grind [applyLoopMode, wr_ports, fput_ports, raise_ports, setLoop_ports]

theorem clearLoopCnt_ports (n : Fin 64) (s : State) : (clearLoopCnt n s).ports = s.ports := by
  grind [clearLoopCnt, wr_ports]

theorem writeLoopShadow_ports (n : Fin 64) (w : Fin 64) (v : Word) (s : State) : (writeLoopShadow n w v s).ports = s.ports := by
  grind [writeLoopShadow, raise_ports, engSetWord_ports]

/-! #### Operations of Hk.lean -/

theorem judgeSensor_ports (s : State) (k : Fin 18) : (judgeSensor s k).ports = s.ports := by
  grind [judgeSensor, raise_ports, reportCorrected_ports, setHk_ports]

theorem judgeSensors_ports (s : State) : (judgeSensors s).ports = s.ports := by
  grind [judgeSensors, foldl_ports, setHk_ports, judgeSensor_ports]

theorem keepMax_ports (s : State) (g : Fin 8) : (keepMax s g).ports = s.ports := by
  grind [keepMax, setHk_ports]

theorem judgeRor_ports (s : State) (g : Fin 8) : (judgeRor s g).ports = s.ports := by
  grind [judgeRor, raise_ports, reportCorrected_ports, setHk_ports]

theorem putLevel_ports (s : State) (g : Fin 8) (t : Int) : (putLevel s g t).ports = s.ports := by
  grind [putLevel, raise_ports, setHk_ports]

theorem judgeCharge_ports (s : State) (b : Fin 2) : (judgeCharge s b).ports = s.ports := by
  grind [judgeCharge, raise_ports, reportCorrected_ports, setHk_ports]

theorem programTrust_ports (s : State) : (programTrust s).ports = s.ports := by
  grind [programTrust]

theorem judgeNvm_ports (s : State) : (judgeNvm s).ports = s.ports := by
  grind [judgeNvm, raise_ports, reportCorrected_ports, setHk_ports]

theorem judgeRef_ports (s : State) (i : Nat) : (judgeRef s i).ports = s.ports := by
  grind [judgeRef, raise_ports, fputBit_ports, reportCorrected_ports]

theorem judgeId_ports (s : State) (b : Fin 2) : (judgeId s b).ports = s.ports := by
  grind [judgeId, fput_ports, setBatt_ports]

theorem judgeHuReady_ports (s : State) : (judgeHuReady s).ports = s.ports := by
  grind [judgeHuReady, fputB_ports, raise_ports, reportCorrected_ports]

theorem residency_ports (s : State) (off n : Nat) : (residency s off n).ports = s.ports := by
  grind [residency, ledgerAdd_ports]

theorem thermalPort_ports (s : State) (p : Fin 32) (t : Int) : (thermalPort s p t).ports = s.ports := by
  grind [thermalPort, ledgerAdd_ports]

theorem ledgerPort_ports (n : Nat) (s : State) (p : Fin 32) : (ledgerPort n s p).ports = s.ports := by
  grind [ledgerPort, residency_ports, thermalPort_ports]

theorem ledgerRound_ports (s : State) : (ledgerRound s).ports = s.ports := by
  grind [ledgerRound, foldl_ports, residency_ports, ledgerPort_ports]

theorem publishGroup_ports (s : State) (g : Nat) : (publishGroup s g).ports = s.ports := by
  grind [publishGroup, wr_ports, fput_ports, fputS_ports, fputB_ports]

theorem muteRound_ports (s : State) : (muteRound s).ports = s.ports := by
  grind [muteRound, foldl_ports, setHk_ports]

theorem levelsApply_ports (s : State) : (levelsApply s).ports = s.ports := by
  grind [levelsApply, setHk_ports]

theorem trimRefs_ports (s : State) : (trimRefs s).ports = s.ports := by
  grind [trimRefs, setHk_ports]

theorem clearHkCnt_ports (s : State) : (clearHkCnt s).ports = s.ports := by
  grind [clearHkCnt, wr_ports]

/-! #### Operations of Time.lean -/

theorem setTb_ports (s : State) (t : TbState) : (setTb s t).ports = s.ports := by
  grind [setTb, fput_ports]

theorem anchorAngles_ports (s : State) : (anchorAngles s).ports = s.ports := by
  grind [anchorAngles, setTime_ports]

theorem pllStart_ports (s : State) : (pllStart s).ports = s.ports := by
  grind [pllStart, setTime_ports]

theorem steerTo_ports (s : State) (f : Rat) : (steerTo s f).ports = s.ports := by
  grind [steerTo, fput_ports, fputB_ports, raise_ports, setTime_ports]

theorem startTransfer_ports (s : State) (src : Nat) : (startTransfer s src).ports = s.ports := by
  grind [startTransfer, fput_ports, raise_ports, setTb_ports]

theorem countCycle_ports (s : State) : (countCycle s).ports = s.ports := by
  grind [countCycle, fput_ports, raise_ports, setTime_ports]

theorem takeImageCfg_ports (s : State) : (takeImageCfg s).ports = s.ports := by
  grind [takeImageCfg, fput_ports, setTb_ports, setTime_ports]

theorem fleetArrive_ports (s : State) : (fleetArrive s).ports = s.ports := by
  grind [fleetArrive, fput_ports, setTime_ports]

theorem fleetBoundary_ports (s : State) : (fleetBoundary s).ports = s.ports := by
  grind [fleetBoundary, fputB_ports, setTime_ports]

theorem writeFleet_ports (v : Word) (s : State) : (writeFleet v s).ports = s.ports := by
  grind [writeFleet, wr_ports, setTime_ports]

theorem refreshReplica_ports (s : State) : (refreshReplica s).ports = s.ports := by
  have h := (writesRegs_regsHeldBack s).only
  rw [refreshReplica_eq]
  generalize regsHeldBack s = t at h
  rw [h]

theorem captureTs_ports (path : Path) (a : Nat) (s : State) : (captureTs path a s).ports = s.ports := by
  grind [captureTs]

theorem advanceGrid_ports (s : State) (w : Rat) : (advanceGrid s w).ports = s.ports := by
  grind [advanceGrid, setTime_ports]

theorem freeRun_ports (s : State) : (freeRun s).ports = s.ports := by
  grind [freeRun, setTime_ports, advanceGrid_ports]

theorem pllStep_ports (s : State) : (pllStep s).ports = s.ports := by
  grind [pllStep, setTime_ports, advanceGrid_ports, freeRun_ports]

theorem readMains_ports (s : State) (fret : Nat) : (readMains s fret).ports = s.ports := by
  grind [readMains, setTime_ports]

theorem nextRound_ports (s : State) : (nextRound s).ports = s.ports := by
  grind [nextRound, setTime_ports]

/-! #### Operations of Capo.lean -/

theorem shareAcc_ports (s : State) (p : Fin 32) : (shareAcc s p).ports = s.ports := by
  grind [shareAcc, setCapo_ports]

theorem sharePtrim_ports (s : State) (p : Fin 32) (t : Nat) : (sharePtrim s p t).ports = s.ports := by
  grind [sharePtrim, wr_ports, raise_ports, setCapo_ports]

theorem shareApply_ports (s : State) (p : Fin 32) (t : Nat) : (shareApply s p t).ports = s.ports := by
  grind [shareApply, setCapo_ports]

theorem shareRound_ports (s : State) : (shareRound s).ports = s.ports := by
  grind [shareRound, setCapo_ports]

theorem courseTrim_ports (s : State) (c t : Nat) : (courseTrim s c t).ports = s.ports := by
  grind [courseTrim, wr_ports, raise_ports, setCapo_ports]

theorem allocate_ports (s : State) (p t : Nat) (a : Rat) : (allocate s p t a).ports = s.ports := by
  grind [allocate, foldl_ports, setCapo_ports]

theorem updateLambda_ports (t : Nat) (s : State) (k : Nat) : (updateLambda t s k).ports = s.ports := by
  grind [updateLambda, wr_ports, raise_ports, setCapo_ports]

theorem acceptBudget_ports (s : State) (stamp budget : Word) : (acceptBudget s stamp budget).ports = s.ports := by
  grind [acceptBudget, wr_ports, fput_ports, fputB_ports, raise_ports, inc_ports, setCapo_ports]

theorem applyBudget_ports (s : State) (v : Word) : (applyBudget s v).ports = s.ports := by
  grind [applyBudget, wr_ports, fput_ports, raise_ports, setCapo_ports]

theorem safeBudget_ports (s : State) : (safeBudget s).ports = s.ports := by
  grind [safeBudget, wr_ports, setCapo_ports]

theorem dropBudget_ports (s : State) : (dropBudget s).ports = s.ports := by
  grind [dropBudget, fput_ports, raise_ports, setCapo_ports]

theorem commitBudget_ports (s : State) : (commitBudget s).ports = s.ports := by
  grind [commitBudget, setCapo_ports]

theorem requestTrimClear_ports (s : State) : (requestTrimClear s).ports = s.ports := by
  grind [requestTrimClear, setCapo_ports]

theorem clearCapoCnt_ports (s : State) : (clearCapoCnt s).ports = s.ports := by
  grind [clearCapoCnt, wr_ports]

theorem writeHostCap_ports (v : Word) (s : State) : (writeHostCap v s).ports = s.ports := by
  grind [writeHostCap, wr_ports, setCapo_ports]

theorem holdupRecord_ports (s : State) (subtype sev fret : Nat) : (holdupRecord s subtype sev fret).ports = s.ports := by
  grind [holdupRecord, pushRecord_ports]

theorem switchSelectors_ports (s : State) (up : Bool) : (switchSelectors s up).ports = s.ports := by
  grind [switchSelectors, foldl_ports, setCapo_ports]

/-! #### Operations of Feed.lean -/

theorem dropTripped_ports (v : Word) (s : State) : (dropTripped v s).ports = s.ports := by
  grind [dropTripped, foldl_ports, feedRunLoss_ports]

theorem writeFeedCmd_ports (v : Word) (s : State) : (writeFeedCmd v s).ports = s.ports := by
  grind [writeFeedCmd, fput_ports, refreshFeeds_ports, dropTripped_ports]

theorem countTrip_ports (s : State) (f : Fin 8) : (countTrip s f).ports = s.ports := by
  grind [countTrip, fput_ports, raise_ports, inc_ports]

theorem clearFeedCnt_ports (f : Fin 8) (s : State) : (clearFeedCnt f s).ports = s.ports := by
  grind [clearFeedCnt, wr_ports]

theorem clearFeedFault_ports (s : State) (f : Fin 8) (code : Nat) : (clearFeedFault s f code).ports = s.ports := by
  grind [clearFeedFault, fput_ports, putFeedState_ports, refreshFeed_ports]

/-! #### Operations of Queues.lean -/

theorem judgeWmf_ports (s : State) (q : Fin 64) : (judgeWmf s q).ports = s.ports := by
  grind [judgeWmf, fput_ports, fputB_ports, fputBit_ports]

theorem syncQueue_ports (s : State) (q : Fin 64) : (syncQueue s q).ports = s.ports := by
  grind [syncQueue, fput_ports, fputB_ports, judgeWmf_ports]

theorem showEntry_ports (q : Fin 64) (s : State) : (showEntry q s).ports = s.ports := by
  grind [showEntry, setQueue_ports, syncQueue_ports]

theorem popEntry_ports {s : State} {q : Fin 64} {r : Word × State} (h : popEntry s q = some r) : r.2.ports = s.ports := by
  grind [popEntry, syncQueue_ports, setQueue_ports]

theorem unassigned_ports (s : State) : (unassigned s).ports = s.ports := by
  grind [unassigned, raise_ports, reportCorrected_ports]

theorem refusedWrite_ports (s : State) : (refusedWrite s).ports = s.ports := by
  grind [refusedWrite, raise_ports, reportCorrected_ports]

theorem readQueue_ports {s : State} {p : Path} {q : Fin 64} {r : Word × State} (h : readQueue s p q = some r) : r.2.ports = s.ports := by
  grind [readQueue, popEntry_ports, unassigned_ports]

theorem resumeCore_ports (s : State) : (resumeCore s).ports = s.ports := by
  unfold resumeCore
  split
  · rfl
  · split
    · next h => exact readQueue_ports h
    · rfl

theorem queueRecord_ports (s : State) (q : Fin 64) (ws : List Word) : (queueRecord s q ws).1.ports = s.ports := by
  grind [queueRecord, inc_ports, setQueue_ports, syncQueue_ports]

theorem writeQueueWm_ports (q : Fin 64) (v : Word) (s : State) : (writeQueueWm q v s).ports = s.ports := by
  grind [writeQueueWm, fput_ports, judgeWmf_ports]

theorem requestFlush_ports (q : Fin 64) (s : State) : (requestFlush q s).ports = s.ports := by
  grind [requestFlush, setQueue_ports]

theorem clearQueueDrop_ports (q : Fin 64) (s : State) : (clearQueueDrop q s).ports = s.ports := by
  grind [clearQueueDrop, wr_ports]

theorem putRec_ports (s : State) (r : OpenRec) : (putRec s r).ports = s.ports := by
  grind [putRec]

theorem pushWord_ports (s : State) (q : Fin 64) (r : OpenRec) (code fret : Nat) : (pushWord s q r code fret).ports = s.ports := by
  grind [pushWord, setQueue_ports, syncQueue_ports, putRec_ports]

/-! #### Operations of Sched.lean -/

theorem requestSwap_ports (s : State) : (requestSwap s).ports = s.ports := by
  grind [requestSwap, foldl_ports, raise_ports, fputBit_ports, setSched_ports]

theorem setWindows_ports (s : State) (v : Nat) : (setWindows s v).ports = s.ports := by
  grind [setWindows, fput_ports, setSched_ports]

theorem cmpStart_ports (s : State) (p : Fin 32) (c : Fin 4) : (cmpStart s p c).ports = s.ports := by
  grind [cmpStart, fput_ports, powerCmp_ports]

theorem shareStart_ports (s : State) : (shareStart s).ports = s.ports := by
  grind [shareStart, foldl_ports, wr_ports]

theorem writeEngine_ports (o : Nat) (v : Word) (s : State) : (writeEngine o v s).ports = s.ports := by
  grind [writeEngine, fput_ports, raise_ports, rewriteEngine_ports, engSetWord_ports, abandonArm_ports, refusedWrite_ports]

theorem clearQdrop_ports (s : State) : (clearQdrop s).ports = s.ports := by
  grind [clearQdrop, wr_ports]

/-! #### Operations of Round.lean -/

theorem roundSchedule_ports (s : State) : (roundSchedule s).ports = s.ports := by
  grind [roundSchedule, wr_ports, setSched_ports]

theorem vselRound_ports (s : State) : (vselRound s).ports = s.ports := by
  grind [vselRound, setSched_ports]

theorem levelsArrive_ports (s : State) : (levelsArrive s).ports = s.ports := by
  grind [levelsArrive, setHk_ports]

theorem capoRound_ports (s : State) : (capoRound s).ports = s.ports := by
  grind [capoRound, setCapo_ports, shareRound_ports]

/-! #### Operations of Seq.lean -/

theorem writeSeqCmd_ports (v : Word) (s : State) : (writeSeqCmd v s).ports = s.ports := by
  grind [writeSeqCmd, raise_ports, requestOn_ports, requestOff_ports]

theorem clearSeqCnt_ports (s : State) : (clearSeqCnt s).ports = s.ports := by
  grind [clearSeqCnt, wr_ports]

theorem freeRail_ports (s : State) (r : Fin 16) : (freeRail s r).ports = s.ports := by
  grind [freeRail, setRail_ports, putRail_ports]

theorem clearRailFault_ports (s : State) (r : Fin 16) : (clearRailFault s r).ports = s.ports := by
  grind [clearRailFault, freeRail_ports]

/-! #### Operations of Faults.lean -/

theorem afterClear_ports (s : State) (code kind idx : Nat) : (afterClear s code kind idx).ports = s.ports := by
  grind [afterClear, foldl_ports, clearBattFault_ports, clearLatch_ports, clearFeedFault_ports, freeRail_ports, clearRailFault_ports]

theorem clearedRecord_ports (s : State) (e : Nat) : (clearedRecord s e).ports = s.ports := by
  grind [clearedRecord, pushRecord_ports]

theorem freeTheEntry_ports (s : State) (e : Nat) : (freeTheEntry s e).ports = s.ports := by
  grind [freeTheEntry, wr_ports, wr64_ports]

theorem clearEntry_ports (s : State) (e : Nat) : (clearEntry s e).ports = s.ports := by
  grind [clearEntry, raise_ports, afterClear_ports, clearedRecord_ports, freeTheEntry_ports]

theorem writeFaultClr_ports (v : Word) (s : State) : (writeFaultClr v s).ports = s.ports := by
  grind [writeFaultClr, setFlt_ports]

theorem clearFaultCnt_ports (s : State) : (clearFaultCnt s).ports = s.ports := by
  grind [clearFaultCnt, foldl_ports, wr_ports]

theorem clearSlots_ports (s : State) : (clearSlots s).ports = s.ports := by
  grind [clearSlots, setFlt_ports]

theorem setReference_ports (s : State) : (setReference s).ports = s.ports := by
  grind [setReference, setFlt_ports]

theorem hwdRecord_ports (s : State) (sev : Nat) : (hwdRecord s sev).ports = s.ports := by
  grind [hwdRecord, pushRecord_ports]

theorem hwdGood_ports (s : State) : (hwdGood s).ports = s.ports := by
  grind [hwdGood, fput_ports, raise_ports, inc_ports, clearSlots_ports, setReference_ports]

theorem writeHwdCheckin_ports (v : Word) (s : State) : (writeHwdCheckin v s).ports = s.ports := by
  grind [writeHwdCheckin, setFlt_ports]

theorem hwdEnable_ports (s : State) : (hwdEnable s).ports = s.ports := by
  grind [hwdEnable, fput_ports, reportCorrected_ports, setFlt_ports, setReference_ports]

theorem writeHwdCtrl_ports (v : Word) (s : State) : (writeHwdCtrl v s).ports = s.ports := by
  grind [writeHwdCtrl, fput_ports, hwdEnable_ports]

theorem keyRefused_ports (s : State) : (keyRefused s).ports = s.ports := by
  grind [keyRefused, reportCorrected_ports, setFlt_ports]

theorem writeHwdKey_ports (v : Word) (s : State) : (writeHwdKey v s).ports = s.ports := by
  grind [writeHwdKey, fput_ports, setFlt_ports, keyRefused_ports]

/-! #### Operations of HarnLink.lean -/

theorem dropFrame_ports (s : State) (p : HPort) : (dropFrame s p).ports = s.ports := by
  grind [dropFrame, raise_ports, inc_ports, reportCorrected_ports]

theorem badFrame_ports (s : State) (p : HPort) : (badFrame s p).ports = s.ports := by
  grind [badFrame, inc_ports, reportCorrected_ports]

theorem sendNak_ports (s : State) (cause : Nat) (f : Frame) : (sendNak s cause f).ports = s.ports := by
  grind [sendNak, inc_ports, sendOwn_ports]

theorem forwardCopies_ports (s : State) (from_ : HPort) (f : Frame) (copies : List (HPort × Frame)) :
    (forwardCopies s from_ f copies).ports = s.ports := by
  grind [forwardCopies, foldl_ports, setHarn_ports, syncPause_ports, sendOn_ports, dropFrame_ports]

theorem abortOn_ports (s : State) (f : Frame) (crc : Word) (p : HPort) : (abortOn s f crc p).ports = s.ports := by
  grind [abortOn, setHarn_ports]

theorem closeGuard_ports (s : State) (p : HPort) : (closeGuard s p).ports = s.ports := by
  grind [closeGuard, setHarn_ports, flushPort_ports]

theorem noteResent_ports (s : State) (f : Frame) : (noteResent s f).ports = s.ports := by
  grind [noteResent, setHarn_ports]

theorem forward_ports (s : State) (p : HPort) (late : Vector Bool 3) (f : Frame) : (forward s p late f).ports = s.ports := by
  grind [forward, foldl_ports, forwardCopies_ports, closeGuard_ports, noteResent_ports]

theorem roleRefused_ports {s : State} {f : Frame} {t : State} (h : roleRefused s f = some t) : t.ports = s.ports := by
  grind [roleRefused, inc_ports, sendNak_ports, reportCorrected_ports]

theorem toRxQueue_ports (p : HPort) (s : State) (f : Frame) : (toRxQueue p s f).ports = s.ports := by
  grind [toRxQueue, raise_ports, inc_ports, queueRecord_ports, sendNak_ports]

theorem ringBreak_ports (s : State) : (ringBreak s).ports = s.ports := by
  grind [ringBreak, fput_ports, raise_ports, reportCorrected_ports, setHarn_ports]

theorem farBreak_ports (s : State) (src : Nat) : (farBreak s src).ports = s.ports := by
  grind [farBreak, setHarn_ports]

theorem takeRx_ports (p : HPort) (ok : Frame → Bool) (s : State) (f : Frame) : (takeRx p ok s f).ports = s.ports := by
  grind [takeRx, sendNak_ports, toRxQueue_ports]

theorem takeTuning_ports (fret sub : Nat) (s : State) (f : Frame) : (takeTuning fret sub s f).ports = s.ports := by
  grind [takeTuning, wr_ports, fput_ports, setTime_ports, sendNak_ports]

theorem sendRsp_ports (s : State) (f : Frame) (status count tag : Nat) (data : List Word) :
    (sendRsp s f status count tag data).ports = s.ports := by
  grind [sendRsp, setHarn_ports, sendOwn_ports]

theorem epochChanged_ports (s : State) (same : Bool) : (epochChanged s same).ports = s.ports := by
  grind [epochChanged]

theorem takeRole_ports (s : State) (f : Frame) : (takeRole s f).ports = s.ports := by
  grind [takeRole, fput_ports, raise_ports, setHarn_ports, abandonArm_ports, sendNak_ports, sendRsp_ports, epochChanged_ports]

theorem writeRootEpoch_ports (v : Word) (s : State) : (writeRootEpoch v s).ports = s.ports := by
  grind [writeRootEpoch, fput_ports, epochChanged_ports]

theorem sendEnum_ports (s : State) (p : HPort) (sub : Nat) (more : List Word) : (sendEnum s p sub more).ports = s.ports := by
  grind [sendEnum, sendOn_ports, nextSeq_ports]

theorem startProbe_ports (s : State) : (startProbe s).ports = s.ports := by
  grind [startProbe, foldl_ports, setHarn_ports, sendEnum_ports]

theorem harnReprobe_ports (s : State) : (harnReprobe s).ports = s.ports := by
  grind [harnReprobe, startProbe_ports]

theorem putRange_ports (s : State) (p : HPort) (lo hi : Nat) : (putRange s p lo hi).ports = s.ports := by
  grind [putRange, fput_ports]

theorem emptyRange_ports (s : State) (p : HPort) : (emptyRange s p).ports = s.ports := by
  grind [emptyRange, putRange_ports]

theorem enumEnd_ports (s : State) (next : Nat) : (enumEnd s next).ports = s.ports := by
  grind [enumEnd, fput_ports, raise_ports, reportCorrected_ports, setHarn_ports, sendEnum_ports]

theorem enumLoop_ports (ps : List HPort) (s : State) (n : Nat) : (enumLoop s n ps).ports = s.ports := by
  induction ps generalizing s n with
  | nil => exact enumEnd_ports s n
  | cons p ps ih => grind [enumLoop, sendEnum_ports, setHarn_ports, emptyRange_ports]

theorem takeAddress_ports (s : State) (a root : Nat) : (takeAddress s a root).ports = s.ports := by
  grind [takeAddress, fput_ports, raise_ports, startProbe_ports, enumLoop_ports]

theorem startEnum_ports (s : State) : (startEnum s).ports = s.ports := by
  grind [startEnum, fput_ports, setUpPort_ports, takeAddress_ports]

theorem healFar_ports (s : State) : (healFar s).ports = s.ports := by
  grind [healFar, raise_ports, setHarn_ports]

theorem takeAssign_ports (p : HPort) (s : State) (f : Frame) : (takeAssign p s f).ports = s.ports := by
  grind [takeAssign, fput_ports, setUpPort_ports, sendEnum_ports, takeAddress_ports, healFar_ports]

theorem enumAnswer_ports (p : HPort) (last : Option Nat) (s : State) : (enumAnswer p last s).ports = s.ports := by
  grind [enumAnswer, putRange_ports, emptyRange_ports, enumLoop_ports]

theorem putLink_ports (s : State) (p : HPort) (b : Bool) : (putLink s p b).ports = s.ports := by cases p <;> rfl

theorem ringHealed_ports (s : State) : (ringHealed s).ports = s.ports := by
  grind [ringHealed, raise_ports]

theorem ringSwap_ports (s : State) : (ringSwap s).ports = s.ports := by
  grind [ringSwap, fput_ports, raise_ports, reportCorrected_ports, setUpPort_ports, putEvt_ports, startProbe_ports]

theorem clearPort_ports (s : State) (p : HPort) : (clearPort s p).ports = s.ports := by
  grind [clearPort, foldl_ports, setHarn_ports, syncPause_ports, syncTx_ports]

theorem linkDown_ports (p : HPort) (s : State) : (linkDown p s).ports = s.ports := by
  grind [linkDown, reportCorrected_ports, ringBreak_ports, enumAnswer_ports, putLink_ports, ringSwap_ports, clearPort_ports]

theorem cutPort_ports (s : State) (p : HPort) : (cutPort s p).ports = s.ports := by
  grind [cutPort, setHarn_ports, linkDown_ports]

theorem applyCut_ports (ps : List HPort) (s : State) : (applyCut ps s).ports = s.ports := by
  grind [applyCut, foldl_ports, setTest_ports, cutPort_ports]

theorem dueCut_ports (s : State) : (dueCut s).ports = s.ports := by
  grind [dueCut, applyCut_ports]

theorem harnTxGo_ports (s : State) : (harnTxGo s).ports = s.ports := by
  grind [harnTxGo, fput_ports, raise_ports, syncTx_ports, sendOwn_ports]

theorem clearHarnCnt_ports (s : State) : (clearHarnCnt s).ports = s.ports := by
  grind [clearHarnCnt, foldl_ports, wr_ports]

theorem writeHarnCtrl_ports (v : Word) (s : State) : (writeHarnCtrl v s).ports = s.ports := by
  grind [writeHarnCtrl, harnReprobe_ports, startEnum_ports, harnTxGo_ports, clearHarnCnt_ports]

/-! #### Operations of ImageCfg.lean -/

theorem loadTables_ports (s : State) (m : Img) : (loadTables s m).ports = s.ports := by
  unfold loadTables
  extract_lets s1
  split
  · rfl
  · exact engSetBytes_ports _ s1 _

theorem loadRegs_ports (s : State) (es : List (Nat × Word)) : (loadRegs s es).ports = s.ports := by
  grind [loadRegs, foldl_ports, wr_ports, fput_ports]

/-! #### Operations of Loader.lean -/

theorem clearEngine_ports (s : State) (lo hi : Nat) : (clearEngine s lo hi).ports = s.ports := by
  grind [clearEngine]

theorem buildProgram_ports (s : State) (m : Img) (rlen : Nat) : (buildProgram s m rlen).ports = s.ports := by
  grind [buildProgram, foldl_ports, engSetWord_ports, clearEngine_ports]

theorem buildBanks_ports (s : State) (es : List (Nat × Word)) : (buildBanks s es).ports = s.ports := by
  grind [buildBanks, foldl_ports, engSetWord_ports, clearEngine_ports]

theorem buildSched_ports (s c : State) (m : Img) : (buildSched s c m).ports = s.ports := rfl

theorem acceptLoop_ports (o s : State) (n : Fin 64) : (acceptLoop o s n).ports = s.ports := rfl

theorem ownThresholds_ports (s : State) (m : Img) (rlen : Nat) : (ownThresholds s m rlen).ports = s.ports := by
  grind [ownThresholds, foldl_ports, fputB_ports]

theorem acceptSeq_ports (o s : State) : (acceptSeq o s).ports = s.ports := by
  have hw : ∀ l : List Nat, (l.foldl (fun s a => wr s a (rd o a)) s).ports = s.ports := fun l => foldl_ports _ l s fun t a => wr_ports t a _
  grind [acceptSeq, setSeq_ports, applySeqCfg_ports, fput_ports]

theorem acceptBatt_ports (o s : State) (b : Fin 2) : (acceptBatt o s b).ports = s.ports := by
  have hz : ∀ (l : List Field) (t : State), (l.foldl (fun s f => fput s f 0) t).ports = t.ports := fun l t =>
    foldl_ports _ l t fun u f => fput_ports u f 0
  grind [acceptBatt, setBatt_ports, putBattState_ports, clearLive_ports]

theorem acceptQueue_ports (o s : State) (q : Fin 64) : (acceptQueue o s q).ports = s.ports := by
  grind [acceptQueue, syncQueue_ports]

theorem acceptHarn_ports (s : State) : (acceptHarn s).ports = s.ports := by
  grind [acceptHarn, fput_ports, setUpPort_ports]

theorem putLoad_ports (s : State) (result reason sect : Nat) (activation : Bool) :
    (putLoad s result reason sect activation).ports = s.ports := by
  grind [putLoad, fput_ports, fputB_ports]

/-! #### Operations of Recorder.lean -/

theorem putRegBytes_ports (s : State) (a : Nat) (bs : List Byte) : (putRegBytes s a bs).ports = s.ports := by
  grind [putRegBytes, foldl_ports, wr_ports]

theorem drawBytes_ports (s : State) (n : Nat) : (drawBytes s n).2.ports = s.ports := by
  grind [drawBytes]

theorem nvmErase_ports (s : State) (o n : Nat) : (nvmErase s o n).ports = s.ports := by
  grind [nvmErase]

theorem nvmSpoil_ports (s : State) (o n : Nat) : (nvmSpoil s o n).ports = s.ports := nvmSetBytes_ports _ s o

theorem noteRecordSeq_ports (s : State) (r : Record) (seq : Nat) : (noteRecordSeq s r seq).ports = s.ports := by
  grind [noteRecordSeq, setRec_ports]

theorem startRecord_ports (s : State) (r : Record) (again : Bool) : (startRecord s r again).ports = s.ports := by
  grind [startRecord, wr_ports, setRec_ports, nvmErase_ports, noteRecordSeq_ports]

theorem startPending_ports {s t : State} (h : startPending s = some t) : t.ports = s.ports := by
  grind [startPending, startRecord_ports, syncPending_ports, setRec_ports]

theorem startSaddlebag_ports {s t : State} (h : startSaddlebag s = some t) : t.ports = s.ports := by
  grind [startSaddlebag, startPending_ports, startRecord_ports, setRec_ports]

theorem startSnapBlock_ports (s : State) (x : Snapshot) (n k : Nat) : (startSnapBlock s x n k).ports = s.ports := by
  grind [startSnapBlock, setRec_ports, nvmErase_ports]

theorem startSnapshot_ports {s t : State} (h : startSnapshot s = some t) : t.ports = s.ports := by
  grind [startSnapshot, startSnapBlock_ports, setRec_ports, wr_ports]

theorem startCommitBlock_ports (s : State) (im : List Byte) (n reason k : Nat) : (startCommitBlock s im n reason k).ports = s.ports := by
  grind [startCommitBlock, setRec_ports, nvmErase_ports]

theorem startCommit_ports {s t : State} (h : startCommit s = some t) : t.ports = s.ports := by
  grind [startCommit, startCommitBlock_ports, setRec_ports]

theorem startRefresh_ports (s : State) : (startRefresh s).ports = s.ports := by
  grind [startRefresh, nvmSetByte_ports, setRec_ports]

theorem finishRefresh_ports (s : State) (o : Nat) (last : Byte) : (finishRefresh s o last).ports = s.ports := by
  grind [finishRefresh, nvmSetByte_ports, setRec_ports]

theorem served_ports (s : State) : (served s).ports = s.ports := by
  grind [served]

theorem finishRecord_ports (s : State) (r : Record) (seq : Nat) (again ok : Bool) : (finishRecord s r seq again ok).ports = s.ports := by
  grind [finishRecord, raise_ports, inc_ports, nvmSetByte_ports, nvmSetBytes_ports, ledgerAdd_ports, reportCorrected_ports,
    setRec_ports, nvmSpoil_ports]

theorem finishSnap_ports (s : State) (x : Snapshot) (n k : Nat) : (finishSnap s x n k).ports = s.ports := by
  grind [finishSnap, nvmSetByte_ports, nvmSetBytes_ports, ledgerAdd_ports, syncSnaps_ports, setRec_ports]

theorem finishLedger_ports (s : State) (im : List Byte) (n reason k : Nat) : (finishLedger s im n reason k).ports = s.ports := by
  grind [finishLedger, wr_ports, raise_ports, nvmSetBytes_ports, ledgerAdd_ports, pushRecord_ports, setRec_ports]

theorem freezeNow_ports (s : State) : (freezeNow s).ports = s.ports := by
  grind [freezeNow, fput_ports, setRec_ports]

theorem finishJob_ports (ok : Bool) (s : State) : (finishJob ok s).ports = s.ports := by
  grind [finishJob, finishRefresh_ports, finishRecord_ports, finishSnap_ports, finishLedger_ports, freezeNow_ports]

theorem recFreeze_ports (s : State) : (recFreeze s).ports = s.ports := by
  grind [recFreeze, fput_ports, setRec_ports]

theorem recThaw_ports (s : State) : (recThaw s).ports = s.ports := by
  grind [recThaw, endFreeze_ports]

theorem askCommit_ports (reason : Nat) (s : State) : (askCommit reason s).ports = s.ports := by
  grind [askCommit, setRec_ports]

theorem recNonceNew_ports (s : State) : (recNonceNew s).ports = s.ports := by
  grind [recNonceNew, fput_ports, putRegBytes_ports, drawBytes_ports]

theorem recNote_ports (s : State) : (recNote s).ports = s.ports := by
  grind [recNote, raise_ports, pushRecord_ports]

theorem recCntClr_ports (s : State) : (recCntClr s).ports = s.ports := by
  grind [recCntClr, wr_ports]

theorem writeRecCtrl_ports (v : Word) (s : State) : (writeRecCtrl v s).ports = s.ports := by
  grind [writeRecCtrl, recFreeze_ports, recThaw_ports, askCommit_ports, recNonceNew_ports, recNote_ports, recCntClr_ports]

theorem putFirst_ports (s : State) (r : Record) : (putFirst s r).ports = s.ports := by
  grind [putFirst, syncPending_ports, recordLost_ports, setRec_ports]

theorem clearSaddlebag_ports (s : State) (nonce : List Byte) : (clearSaddlebag s nonce).ports = s.ports := by
  grind [clearSaddlebag, wr_ports, fput_ports, programTrust_ports, setRec_ports, putFirst_ports]

theorem clearSnapshots_ports (s : State) (nonce : List Byte) : (clearSnapshots s nonce).ports = s.ports := by
  grind [clearSnapshots, fput_ports, setRec_ports]

theorem clearRefused_ports (s : State) : (clearRefused s).ports = s.ports := by
  grind [clearRefused, fput_ports, raise_ports, reportCorrected_ports, setRec_ports]

theorem writeRecClear_ports (v : Word) (s : State) : (writeRecClear v s).ports = s.ports := by
  grind [writeRecClear, fput_ports, raise_ports, putRegBytes_ports, clearSaddlebag_ports, clearSnapshots_ports, clearRefused_ports]

theorem scrubSlot_ports (s : State) : (scrubSlot s).ports = s.ports := by
  grind [scrubSlot, fput_ports, setRec_ports, nvmErase_ports]

theorem eraseSnapSlot_ports (s : State) : (eraseSnapSlot s).ports = s.ports := by
  grind [eraseSnapSlot, fput_ports, pushRecord_ports, setRec_ports, nvmErase_ports]

theorem ringScan_ports (s : State) : (ringScan s).ports = s.ports := by
  grind [ringScan, foldl_ports, wr_ports, nvmReadFaults_ports]

theorem addLive_ports (s : State) (k : Nat) : (addLive s k).ports = s.ports := by
  grind [addLive, foldl_ports, ledgerAdd_ports, setRec_ports]

theorem ledgerLoad_ports (s : State) : (ledgerLoad s).ports = s.ports := by
  grind [ledgerLoad, wr_ports, fput_ports, reportCorrected_ports, nvmReadFaults_ports, setRec_ports, addLive_ports]

theorem latchWake_ports (s : State) (b : Nat) : (latchWake s b).ports = s.ports := by
  grind [latchWake]

theorem writeRecWall_ports (v : Word) (s : State) : (writeRecWall v s).ports = s.ports := by
  grind [writeRecWall, wr_ports, fput_ports, setRec_ports]

/-! #### Operations of Trust.lean -/

theorem putStaged_ports (s : State) (fw : Bool) (v : Nat) : (putStaged s fw v).ports = s.ports := by
  grind [putStaged, fput_ports, programTrust_ports, setTrust_ports]

theorem putStored_ports (s : State) (fw b : Bool) (n : Nat) : (putStored s fw b n).ports = s.ports := by
  grind [putStored, setTrust_ports]

theorem putAct_ports (s : State) (fw : Bool) (c : Option Nat) : (putAct s fw c).ports = s.ports := by
  unfold putAct
  extract_lets s1
  have h1 : s1.ports = s.ports := by grind [fputB_ports, setTrust_ports]
  split
  · exact h1
  · exact h1

theorem putActRes_ports (s : State) (kind result : Nat) : (putActRes s kind result).ports = s.ports := by
  grind [putActRes, fput_ports]

theorem endActivation_ports (s : State) (fw : Bool) (result id ver c : Nat) : (endActivation s fw result id ver c).ports = s.ports := by
  grind [endActivation, raise_ports, pushRecord_ports, putActRes_ports]

theorem cancelAct_ports (s : State) (fw : Bool) : (cancelAct s fw).ports = s.ports := by
  grind [cancelAct, putAct_ports, endActivation_ports]

theorem requestActivation_ports (s : State) (fw : Bool) (c id : Nat) : (requestActivation s fw c id).1.ports = s.ports := by
  grind [requestActivation, putAct_ports]

theorem hostActivate_ports (s : State) : (hostActivate s).ports = s.ports := by
  grind [hostActivate, putActRes_ports, requestActivation_ports]

theorem showNext_ports (s : State) (n : Nat) : (showNext s n).ports = s.ports := by
  grind [showNext, fput_ports]

theorem abandonStaging_ports (s : State) : (abandonStaging s).ports = s.ports := by
  grind [abandonStaging, setTrust_ports, putStaged_ports]

theorem newStaging_ports (s : State) (t : Nat) (d : List Byte) : (newStaging s t d).ports = s.ports := by
  grind [newStaging, setTrust_ports, putStaged_ports, putStored_ports, cancelAct_ports, showNext_ports, abandonStaging_ports]

theorem judgePiece_ports (s : State) (o t : Nat) (d : List Byte) : (judgePiece s o t d).1.ports = s.ports := by
  grind [judgePiece, setTrust_ports, showNext_ports, newStaging_ports]

theorem writeStgCtrl_ports (v : Word) (s : State) : (writeStgCtrl v s).ports = s.ports := by
  grind [writeStgCtrl, fput_ports, judgePiece_ports]

theorem yieldStaging_ports (s : State) : (yieldStaging s).ports = s.ports := by
  grind [yieldStaging, setTrust_ports]

theorem stagingFailed_ports (s : State) : (stagingFailed s).ports = s.ports := by
  grind [stagingFailed, raise_ports, reportCorrected_ports, abandonStaging_ports]

theorem pageDone_ports (s : State) (x : Staging) (d : List Byte) : (pageDone s x d).ports = s.ports := by
  grind [pageDone, raise_ports, nvmSetBytes_ports, ledgerAdd_ports, setTrust_ports, putStaged_ports, putStored_ports, yieldStaging_ports]

theorem swapRoles_ports (s : State) (fw : Bool) : (swapRoles s fw).ports = s.ports := by
  grind [swapRoles, fputB_ports, setTrust_ports, putStaged_ports]

theorem putMeas_ports (s : State) (m : Fin 4) (d : List Byte) : (putMeas s m d).ports = s.ports := by
  grind [putMeas, setTrust_ports]

theorem endStagingOf_ports (s : State) (fw : Bool) : (endStagingOf s fw).ports = s.ports := by
  grind [endStagingOf, setTrust_ports]

theorem activationRefused_ports (s : State) (fw : Bool) (r : Reject) (iv : Nat × Nat) : (activationRefused s fw r iv).ports = s.ports := by
  grind [activationRefused, reportCorrected_ports, putStaged_ports, endActivation_ports, endStagingOf_ports]

theorem finishFirmware_ports (u : State) : (finishFirmware u).ports = u.ports := by
  grind [finishFirmware, nvmReadFaults_ports, endActivation_ports, swapRoles_ports, putMeas_ports, endStagingOf_ports,
    activationRefused_ports]

theorem syncTrust_ports (s : State) : (syncTrust s).ports = s.ports := by
  grind [syncTrust, foldl_ports, wr_ports, fput_ports, fputB_ports]

theorem readFaults_ports (s : State) (m : Img) : (readFaults s m).ports = s.ports := by
  grind [readFaults, nvmReadFaults_ports]

theorem bootFirmware_ports (u : State) : (bootFirmware u).ports = u.ports := by
  grind [bootFirmware, fput_ports, reportCorrected_ports, programTrust_ports, setTrust_ports, putMeas_ports, syncTrust_ports,
    readFaults_ports]

theorem bootM2_ports (s : State) : (bootM2 s).2.ports = s.ports := by
  grind [bootM2, drawBytes_ports, readFaults_ports]

theorem measuredBoot_ports (s : State) : (measuredBoot s).ports = s.ports := by
  grind [measuredBoot, setTrust_ports, putMeas_ports, syncTrust_ports, bootFirmware_ports, bootM2_ports]

theorem formReport_ports (s : State) (nonce : List Byte) : (formReport s nonce).2.ports = s.ports := by
  grind [formReport]

theorem consumeKnonce_ports (s : State) : (consumeKnonce s).ports = s.ports := by
  grind [consumeKnonce, putRegBytes_ports, setTrust_ports]

theorem keyOpRefused_ports (s : State) : (keyOpRefused s).ports = s.ports := by
  grind [keyOpRefused, raise_ports, reportCorrected_ports]

theorem keyOpDone_ports (s : State) : (keyOpDone s).ports = s.ports := by
  grind [keyOpDone, raise_ports, programTrust_ports, putRegBytes_ports, syncTrust_ports]

theorem keyWriteOem_ports (slot : Fin 4) (s : State) : (keyWriteOem slot s).ports = s.ports := by
  grind [keyWriteOem, setTrust_ports, consumeKnonce_ports, keyOpRefused_ports, keyOpDone_ports]

theorem keyRevoke_ports (slot : Fin 4) (s : State) : (keyRevoke slot s).ports = s.ports := by
  grind [keyRevoke, setTrust_ports, consumeKnonce_ports, keyOpRefused_ports, keyOpDone_ports]

theorem keyWriteClear_ports (s : State) : (keyWriteClear s).ports = s.ports := by
  grind [keyWriteClear, setTrust_ports, consumeKnonce_ports, keyOpRefused_ports, keyOpDone_ports]

theorem keyLifecycle_ports (slot : Nat) (s : State) : (keyLifecycle slot s).ports = s.ports := by
  grind [keyLifecycle, setTrust_ports, consumeKnonce_ports, keyOpRefused_ports, keyOpDone_ports]

theorem writeKeyCmd_ports (v : Word) (s : State) : (writeKeyCmd v s).ports = s.ports := by
  grind [writeKeyCmd, consumeKnonce_ports, keyWriteOem_ports, keyRevoke_ports, keyWriteClear_ports, keyLifecycle_ports]

theorem trustNonceNew_ports (s : State) : (trustNonceNew s).ports = s.ports := by
  grind [trustNonceNew, putRegBytes_ports, drawBytes_ports, setTrust_ports]

/-! #### Operations of Power.lean -/

theorem freeBatt_ports (s : State) (b : Fin 2) : (freeBatt s b).ports = s.ports := by
  grind [freeBatt, clearBattFault_ports]

theorem keepLinks_ports (o s : State) : (keepLinks o s).ports = s.ports := rfl

theorem loseBatt_ports (s : State) (b : Fin 2) : (loseBatt s b).ports = s.ports := by
  grind [loseBatt, setBatt_ports]

theorem loseRecorder_ports (s : State) : (loseRecorder s).ports = s.ports := by
  grind [loseRecorder, wr_ports, fput_ports, syncPending_ports, syncSnaps_ports, setRec_ports]

theorem loseHarness_ports (s : State) : (loseHarness s).ports = s.ports := by
  grind [loseHarness, fput_ports, setHarn_ports]

theorem loseTime_ports (s : State) : (loseTime s).ports = s.ports := by
  grind [loseTime, setTime_ports]

theorem loseRegion_ports (s : State) (k : SramKind) : (loseRegion s k).ports = s.ports := by
  cases k <;> grind [loseRegion, loseBatt_ports, loseRecorder_ports, loseHarness_ports, loseTime_ports, abandonStaging_ports]

theorem checkKeepAlive_ports (s : State) : (checkKeepAlive s).ports = s.ports :=
  (foldl_ports _ _ _ fun t k => by grind [loseRegion_ports, setTime_ports, reportCorrected_ports]).trans (setPower_ports ..)

theorem resumeCount_ports (s : State) : (resumeCount s).ports = s.ports := by
  grind [resumeCount, setTime_ports]

theorem bootRegs_ports (s : State) : (bootRegs s).ports = s.ports := by
  grind [bootRegs, wr_ports, fput_ports, fputB_ports]

theorem countBoot_ports (s : State) : (countBoot s).ports = s.ports := by
  grind [countBoot, ledgerAdd_ports]

theorem sampleAddr_ports (s : State) (addr : BitVec 3) : (sampleAddr s addr).ports = s.ports := by
  grind [sampleAddr, fput_ports]

theorem armRefused_ports (s : State) (reason : Nat) : (armRefused s reason).ports = s.ports := by
  grind [armRefused, fput_ports, raise_ports, reportCorrected_ports]

theorem judgeArm_ports (s : State) (auto : Bool) : (judgeArm s auto).ports = s.ports := by
  grind [judgeArm, fput_ports, setPower_ports, armRefused_ports]

theorem writeGlobalArm_ports (v : Word) (s : State) : (writeGlobalArm v s).ports = s.ports := by
  grind [writeGlobalArm, setPower_ports, armRefused_ports, judgeArm_ports]

theorem autoFeeds_ports (s : State) : (autoFeeds s).ports = s.ports := by
  grind [autoFeeds, foldl_ports, fputBit_ports]

theorem ctrlRefused_ports (s : State) : (ctrlRefused s).ports = s.ports := by
  grind [ctrlRefused, raise_ports, reportCorrected_ports]

theorem doHibernate_ports (s : State) : (doHibernate s).ports = s.ports := by
  grind [doHibernate, fput_ports, refreshFeeds_ports, askCommit_ports, setPower_ports, ctrlRefused_ports]

theorem battWake_ports (th : Rat) (s : State) (b : Fin 2) : (battWake th s b).ports = s.ports := by
  grind [battWake, setBatt_ports]

theorem cutJob_ports (s : State) : (cutJob s).ports = s.ports := by
  grind [cutJob, setRec_ports, nvmSpoil_ports, putFirst_ports]

theorem writeHoldup_ports (s : State) (payload : List Byte) : (writeHoldup s payload).ports = s.ports := by
  grind [writeHoldup, startRecord_ports, finishRecord_ports]

theorem collapse_ports (s : State) : (collapse s).ports = s.ports := by
  grind [collapse, pushRecord_ports, endFreeze_ports, finishJob_ports, stagingFailed_ports, cutJob_ports, writeHoldup_ports]

theorem restartKa_ports (s : State) : (restartKa s).ports = s.ports := by
  grind [restartKa, setPower_ports]

theorem writeKaLatch_ports (v : Word) (s : State) : (writeKaLatch v s).ports = s.ports := by
  grind [writeKaLatch, foldl_ports, fputBit_ports, setPower_ports]

/-! #### Operations of Test.lean -/

theorem writeOos_ports (v : Word) (s : State) : (writeOos v s).ports = s.ports := by
  grind [writeOos, wr_ports, setTest_ports]

theorem quietPort_ports (s : State) (p : Fin 32) : (quietPort s p).ports = s.ports := by
  grind [quietPort, foldl_ports, fput_ports]

theorem startSweep_ports (s : State) (p : Fin 32) (level : Nat) : (startSweep s p level).ports = s.ports := by
  grind [startSweep, wr_ports, fput_ports, setTest_ports, quietPort_ports]

theorem writeCmpCtrl_ports (v : Word) (s : State) : (writeCmpCtrl v s).ports = s.ports := by
  grind [writeCmpCtrl, fput_ports, startSweep_ports]

theorem sweepResult_ports (w : SweepSt) (s : State) (c : Fin 4) : (sweepResult w s c).ports = s.ports := by
  grind [sweepResult, fput_ports, fputB_ports]

theorem sweepRestore_ports (p : Fin 32) (s : State) (c : Fin 4) : (sweepRestore p s c).ports = s.ports := by
  grind [sweepRestore, fput_ports, setCmp_ports]

theorem writePwmCtrl_ports (v : Word) (s : State) : (writePwmCtrl v s).ports = s.ports := by
  grind [writePwmCtrl, wr_ports, fput_ports, setTest_ports]

theorem putEdges_ports (s : State) (l : List EdgeRec) : (putEdges s l).ports = s.ports := by
  grind [putEdges, foldl_ports, wr_ports]

theorem lateError_ports (s : State) (k : SramKind) : (lateError s k).ports = s.ports := by
  grind [lateError, setPower_ports]

theorem wordGood_ports (s : State) (k : SramKind) (a : Nat) : (wordGood s k a).ports = s.ports := by
  cases k <;> rfl

theorem sramPass_ports (s : State) (last : Bool) : (sramPass s last).ports = s.ports := by
  grind [sramPass, setTest_ports]

theorem askRefresh_ports (s : State) (addr : Nat) : (askRefresh s addr).ports = s.ports := by
  grind [askRefresh, setRec_ports]

theorem nvmScrubbed_ports (s : State) (a n : Nat) : (nvmScrubbed s a n).ports = s.ports := by
  unfold nvmScrubbed
  split
  · rfl
  · exact reportCorrected_ports ..
  · exact reportCorrected_ports ..

theorem writeTestHarn_ports (v : Word) (byHarness : Bool) (s : State) : (writeTestHarn v byHarness s).ports = s.ports := by
  grind [writeTestHarn, fput_ports, setTest_ports, applyCut_ports]

theorem leaveBscan_ports (s : State) : (leaveBscan s).ports = s.ports := by
  grind [leaveBscan, setTest_ports]

theorem debugNonce_ports (s : State) : (debugNonce s).ports = s.ports := by
  grind [debugNonce, fput_ports, putRegBytes_ports, drawBytes_ports]

theorem debugUnlock_ports (v : Word) (s : State) : (debugUnlock v s).ports = s.ports := by
  grind [debugUnlock, fput_ports, reportCorrected_ports, setTest_ports, putRegBytes_ports]

theorem writeDbgCtrl_ports (v : Word) (s : State) : (writeDbgCtrl v s).ports = s.ports := by
  grind [writeDbgCtrl, debugNonce_ports, debugUnlock_ports]

/-! #### Operations of Map.lean -/

theorem writePlain_ports (r : RegRow) (a : Nat) (v : Word) (s : State) : (writePlain r a v s).ports = s.ports := by
  grind [writePlain, foldl_ports, wr_ports, refusedWrite_ports]

theorem whenBit_ports (v : Word) (k : Nat) (f : State → State) (s : State) (h : ∀ t, (f t).ports = t.ports) :
    (whenBit v k f s).ports = s.ports := by
  grind [whenBit]

theorem writeCapoCtrl_ports (v : Word) (s : State) : (writeCapoCtrl v s).ports = s.ports := by
  grind [writeCapoCtrl, whenBit_ports, requestTrimClear_ports, clearCapoCnt_ports, commitBudget_ports]

theorem writeBattCtrl_ports (b : Fin 2) (v : Word) (s : State) : (writeBattCtrl b v s).ports = s.ports := by
  grind [writeBattCtrl, whenBit_ports, requestRestore_ports, requestSnap_ports]

theorem writeQueueCtrl_ports (q : Fin 64) (v : Word) (s : State) : (writeQueueCtrl q v s).ports = s.ports := by
  grind [writeQueueCtrl, whenBit_ports, clearQueueDrop_ports, requestFlush_ports]

theorem clearHostCnt_ports (s : State) : (clearHostCnt s).ports = s.ports := by
  grind [clearHostCnt, wr_ports]

theorem twReset_ports (s : State) : (twReset s).ports = s.ports := by
  grind [twReset, fput_ports, partialWord_ports]

theorem writeHostCtrl_ports (v : Word) (s : State) : (writeHostCtrl v s).ports = s.ports := by
  grind [writeHostCtrl, whenBit_ports, clearHostCnt_ports, twReset_ports]

theorem writeTwcCtrl_ports (v : Word) (s : State) : (writeTwcCtrl v s).ports = s.ports := by
  grind [writeTwcCtrl, wr_ports]

theorem writeTokKey_ports (v : Word) (s : State) : (writeTokKey v s).ports = s.ports := by
  grind [writeTokKey, fput_ports, refusedWrite_ports]

theorem writePortBlock_ports (r : RegRow) (p : Fin 32) (o a : Nat) (v : Word) (s : State) :
    (writePortBlock r p o a v s).ports = s.ports := by
  unfold writePortBlock
  split
  · exact whenBit_ports v 0 _ s (clearPortCnt_ports p)
  · split
    · extract_lets c
      split
      · exact writeCmpThr_ports ..
      · exact writeCmpLatch_ports ..
      · exact whenBit_ports v 0 _ s (clearCmpCnt_ports p c)
      · exact writePlain_ports ..
    · exact writePlain_ports ..

theorem writeLoopBlock_ports (r : RegRow) (n : Fin 64) (o a : Nat) (v : Word) (s : State) :
    (writeLoopBlock r n o a v s).ports = s.ports := by
  have hc := whenBit_ports v 0 (clearLoopCnt n) s (clearLoopCnt_ports n)
  grind [writeLoopBlock, writeLoopMode_ports, writeLoopUman_ports, writeLoopShadow_ports, writePlain_ports]

theorem readEntry_ports (s : State) (a e : Nat) : (readEntry s a e).2.ports = s.ports := by
  grind [readEntry]

theorem regValue_ports (s : State) (a : Nat) : (regValue s a).2.ports = s.ports := by
  simp only [regValue, apply_ite (fun x : Word × State => x.2.ports), readEntry_ports, ite_self]

theorem readReg_ports (s : State) (path : Path) (r : RegRow) (a : Nat) : (readReg s path r a).2.ports = s.ports := by
  grind [readReg, captureTs_ports, regValue_ports]

theorem readNvm_ports (s : State) (o : Nat) : (readNvm s o).2.ports = s.ports := by
  grind [readNvm, nvmReadFaults_ports]

theorem readBack_ports (s : State) (o : Nat) : (readBack s o).ports = s.ports := by
  grind [readBack]

theorem readEngine_ports (s : State) (o : Nat) : (readEngine s o).2.ports = s.ports := by
  grind [readEngine, readBack_ports]

theorem hostRead_ports {p : Path} {a : Nat} {s : State} {r : Word × State} (h : hostRead p a s = some r) : r.2.ports = s.ports := by
  grind [hostRead, readQueue_ports, readEngine_ports, readNvm_ports, unassigned_ports, readReg_ports]

/-! #### Operations of HostPorts.lean -/

theorem bulkErr_ports (s : State) : (bulkErr s).ports = s.ports := by
  grind [bulkErr, inc_ports]

theorem twErr_ports (s : State) : (twErr s).ports = s.ports := by
  grind [twErr, inc_ports]

theorem bulkOverrun_ports (s : State) : (bulkOverrun s).ports = s.ports := by
  grind [bulkOverrun, raise_ports, reportCorrected_ports, bulkErr_ports]

theorem bulkEnd_ports (s : State) (r : BulkRun) (done : Bool) : (bulkEnd s r done).ports = s.ports := by
  grind [bulkEnd, wr_ports, setHost_ports]

theorem bulkSettle_ports (s : State) (r : BulkRun) : (bulkSettle s r).ports = s.ports := by
  grind [bulkSettle, setHost_ports, bulkEnd_ports]

/-- A word that is read, where the port is ready. -/
theorem readyRead_ports {p : Path} {a : Nat} {s : State} {r : Word × State}
    (h : (if hostReady s then hostRead p a s else none) = some r) : r.2.ports = s.ports := by
  split at h
  · exact hostRead_ports h
  · cases h

theorem bulkReadGo_ports (n : Nat) (s : State) (r : BulkRun) : (bulkReadGo n s r).1.ports = s.ports := by
  induction n generalizing s r with
  | zero => rfl
  | succ n ih =>
    unfold bulkReadGo
    extract_lets a
    split
    · rfl
    · split
      · exact ih ..
      · split
        · exact (ih ..).trans (ite_eq_of State.ports _ _ _ _ rfl (bulkOverrun_ports s))
        · split
          · exact (ih ..).trans (ite_eq_of State.ports _ _ _ _ rfl (unassigned_ports s))
          · split
            · exact ih ..
            · split
              · rfl
              · next h => exact (ih ..).trans (readyRead_ports h)

theorem bulkRead_ports (s : State) (r : BulkRun) : (bulkRead s r).ports = s.ports := by
  grind [bulkRead, bulkReadGo_ports, setHost_ports, bulkSettle_ports]

theorem resumeBulk_ports (s : State) : (resumeBulk s).ports = s.ports := by
  grind [resumeBulk, bulkRead_ports]

theorem fillerRead_ports (s : State) (a : Nat) : (fillerRead s a).ports = s.ports := by
  grind [fillerRead, raise_ports]

theorem pecError_ports (s : State) : (pecError s).ports = s.ports := by
  grind [pecError, raise_ports, reportCorrected_ports, twErr_ports]

theorem twHold_ports (s : State) (cut : Bool) : (twHold s cut).ports = s.ports := by
  grind [twHold, setHost_ports]

theorem twSend_ports (s : State) (r : TwRun) (b : Byte) : (twSend s r b).1.ports = s.ports := rfl

theorem twGo_ports (n : Nat) (s : State) (r : TwRun) : (twGo n s r).1.ports = s.ports := by
  induction n generalizing s r with
  | zero => rfl
  | succ n ih =>
    unfold twGo
    split
    · rfl
    · split
      · exact ih ..
      · split
        · exact (ih ..).trans (raise_ports ..)
        · extract_lets a x
          split
          · exact (ih ..).trans (twSend_ports ..)
          · split
            · rfl
            · next h => exact (ih ..).trans ((twSend_ports ..).trans (readyRead_ports h))

theorem twRead_ports (s : State) (r : TwRun) : (twRead s r).ports = s.ports := by
  grind [twRead, setHost_ports, twGo_ports]

theorem resumeTw_ports (s : State) : (resumeTw s).ports = s.ports := by
  grind [resumeTw, twRead_ports]

theorem twcFail_ports (s : State) : (twcFail s).ports = s.ports := by
  grind [twcFail, fput_ports, raise_ports, setHost_ports, twErr_ports]

theorem twcLost_ports (s : State) (asTarget : Bool) : (twcLost s asTarget).ports = s.ports := by
  grind [twcLost, fput_ports, inc_ports, reportCorrected_ports, twcFail_ports]

theorem twcOk_ports (s : State) (data : List Byte) (code : Byte) : (twcOk s data code).ports = s.ports := by
  grind [twcOk, fput_ports, raise_ports, reportCorrected_ports, putRegBytes_ports, setHost_ports, twcFail_ports]

/-! #### Operations of HarnCmd.lean -/

theorem cmdReadWord_ports (a : Nat) (s : State) : (cmdReadWord a s).2.ports = s.ports := by
  unfold cmdReadWord
  split
  · next h => exact hostRead_ports h
  · rfl

theorem cmdReadWords_ports (s : State) (a n : Nat) : (cmdReadWords s a n).1.ports = s.ports := by
  unfold cmdReadWords
  induction List.range n using List.reverseRecOn with
  | nil => rfl
  | append_singleton l k ih => rw [List.foldl_concat]; exact (cmdReadWord_ports _ _).trans ih

theorem answerCmd_ports (s : State) (f : Frame) (status count tag : Nat) (data : List Word) :
    (answerCmd s f status count tag data).ports = s.ports := by
  grind [answerCmd, sendRsp_ports]

theorem runRead_ports (s : State) (f : Frame) : (runRead s f).ports = s.ports := by
  grind [runRead, sendNak_ports, cmdReadWords_ports, answerCmd_ports]

theorem runActivate_ports (s : State) (f : Frame) : (runActivate s f).ports = s.ports := by
  grind [runActivate, sendNak_ports, requestActivation_ports, answerCmd_ports]

theorem takeImg_ports (p : HPort) (s : State) (f : Frame) : (takeImg p s f).ports = s.ports := by
  grind [takeImg, sendNak_ports, forward_ports, judgePiece_ports]

theorem moveReference_ports (s : State) (from_ : Nat) : (moveReference s from_).ports = s.ports := by
  grind [moveReference, setFlt_ports]

end Sys2Proof.Machine
end

section
set_option Elab.async false
namespace Sys2Proof.Machine

/-! ### Pairs of outputs (R109, invariant 1)

The operations that write the outputs: each one either lowers them or raises an output whose complement is low. -/

/-- A port none of whose pairs has both outputs high (R109 invariant 1). -/
def PortApart (x : PortSt) : Prop := ∀ h : Gate, ¬((x.gates.get h.idx).high = true ∧ (x.gates.get h.compl.idx).high = true)

theorem pairsApart_iff (s : State) : PairsApart s ↔ PortsApart s.ports := Iff.rfl

theorem portApart_of_gates {x y : PortSt} (h : PortApart x) (e : y.gates = x.gates) : PortApart y := by
  unfold PortApart
  rw [e]
  exact h

/-- A port all of whose outputs are low. -/
theorem portApart_of_low {x : PortSt} (h : ∀ g : Gate, (x.gates.get g.idx).high = false) : PortApart x := fun g hg => by
  rw [h g] at hg
  exact absurd hg.1 (by decide)

theorem portsApart_upd {v : Vector PortSt 32} {p : Fin 32} {f : PortSt → PortSt} (h : PortsApart v) (hf : PortApart (f (v.get p))) :
    PortsApart (upd v p f) := fun q => by
  by_cases hq : q = p
  · subst hq
    rw [upd_get_self]
    exact hf
  · rw [upd_get_of_ne v f hq]
    exact h q

/-- A port changed in anything but its gates. -/
theorem portsApart_upd_of_gates {v : Vector PortSt 32} {p : Fin 32} {f : PortSt → PortSt} (h : PortsApart v)
    (hf : ∀ x, (f x).gates = x.gates) : PortsApart (upd v p f) := portsApart_upd h (portApart_of_gates (h p) (hf _))

theorem gate_compl_compl (g : Gate) : g.compl.compl = g := by cases g <;> rfl

theorem gate_compl_ne (g : Gate) : g.compl ≠ g := by cases g <;> decide

theorem gate_idx_inj {g h : Gate} (e : g.idx = h.idx) : g = h := by cases g <;> cases h <;> simp_all [Gate.idx]

/-- One output of a port after a change of it or another. -/
theorem gates_upd_get (v : Vector GateSt 4) (g h : Gate) (f : GateSt → GateSt) :
    (upd v g.idx f).get h.idx = if h = g then f (v.get g.idx) else v.get h.idx := by
  by_cases e : h = g
  · subst e
    rw [upd_get_self, if_pos rfl]
  · rw [upd_get_of_ne v f fun i => e (gate_idx_inj i), if_neg e]

theorem setGate_apart {s : State} {p : Fin 32} {g : Gate} {f : GateSt → GateSt} (hs : PortsApart s.ports)
    (hf : (f (gateOf s p g)).high = true → (gateOf s p g).high = true ∨ (gateOf s p g.compl).high = false) :
    PortsApart (setGate s p g f).ports := portsApart_upd hs fun h => by
  have hg := hs p h
  rw [gateOf, gateOf] at hf
  dsimp only
  rw [gates_upd_get, gates_upd_get]
  by_cases e : h = g
  · subst e
    rw [if_pos rfl, if_neg (gate_compl_ne h)]
    rintro ⟨h1, h2⟩
    rcases hf h1 with h3 | h3
    · exact hg ⟨h3, h2⟩
    · rw [h2] at h3
      exact absurd h3 (by decide)
  · by_cases e' : h.compl = g
    · subst e'
      rw [if_neg e, if_pos rfl]
      rw [gate_compl_compl] at hf
      rintro ⟨h1, h2⟩
      rcases hf h2 with h3 | h3
      · exact hg ⟨h1, h3⟩
      · rw [h1] at h3
        exact absurd h3 (by decide)
    · rw [if_neg e, if_neg e']
      exact hg

/-- An output that does not rise. -/
theorem setGate_apart_of_low {s : State} {p : Fin 32} {g : Gate} {f : GateSt → GateSt} (hs : PortsApart s.ports)
    (hf : ∀ x, (f x).high = true → x.high = true) : PortsApart (setGate s p g f).ports := setGate_apart hs fun h => .inl (hf _ h)

theorem gatesLow_apart {v : Vector PortSt 32} {p : Fin 32} (t : Nat) (h : PortsApart v) :
    PortsApart (upd v p fun x => { x with gates := gatesLow t x.gates }) :=
  portsApart_upd h (portApart_of_low fun _ => gatesLow_high t _ _)

theorem foldl_apart {α : Type} {f : State → α → State} (h : ∀ t x, PortsApart t.ports → PortsApart (f t x).ports) (l : List α) {s : State}
    (hs : PortsApart s.ports) : PortsApart (l.foldl f s).ports := foldl_keeps (fun t => PortsApart t.ports) f h l s hs

/-- A command bit of a control register, whose command leaves the ports. -/
theorem whenBit_apart (v : Word) (k : Nat) {f : State → State} {s : State} (h : ∀ t, (f t).ports = t.ports) (hs : PortsApart s.ports) :
    PortsApart (whenBit v k f s).ports := whenBit_ports v k f s h ▸ hs

/-- Either branch of a choice. -/
theorem ite_apart {c : Prop} [Decidable c] {x y : State} (hx : PortsApart x.ports) (hy : PortsApart y.ports) :
    PortsApart (if c then x else y).ports := by split <;> assumption

/-- Whatever leaves the ports. -/
theorem apart_of_ports {s t : State} (hs : PortsApart s.ports) (h : t.ports = s.ports) : PortsApart t.ports := h ▸ hs

theorem refreshPort_apart (cs fs : List (Nat × Nat)) (s : State) (p : Fin 32) (hs : PortsApart s.ports) :
    PortsApart (refreshPort cs fs s p).ports := by
  have hset : ∀ x : PortSt, PortApart x → PortsApart (s.ports.set p x) := fun x hx => portsApart_upd (f := fun _ => x) hs hx
  unfold refreshPort
  extract_lets cov pt en was settle inert pt' s1 s2
  have hp : PortApart pt' := by
    by_cases hi : inert = true
    · exact portApart_of_low fun g => by
        simp only [pt', if_pos hi]
        exact gatesLow_high _ _ _
    · exact portApart_of_gates (hs p) (if_neg hi)
  have h2 : PortsApart s2.ports := hset pt' hp
  grind [leaveSum_ports, abortCapture_ports, raise_ports]

theorem refreshPorts_apart (s : State) (hs : PortsApart s.ports) : PortsApart (refreshPorts s).ports :=
  foldl_apart (refreshPort_apart _ _) _ hs

theorem settleGate_apart (p : Fin 32) (t : Nat) (s : State) (g : Gate) (hs : PortsApart s.ports) :
    PortsApart (settleGate p t s g).ports := by
  unfold settleGate
  split
  · split
    · rw [edgeMade_ports]
      exact setGate_apart_of_low hs fun _ h => absurd h Bool.false_ne_true
    · exact hs
  · exact hs

theorem settleGates_apart (s : State) (p : Fin 32) (t : Nat) (hs : PortsApart s.ports) : PortsApart (settleGates s p t).ports :=
  foldl_apart (settleGate_apart p t) _ hs

/-- A pair that comes to command its output: the complement stays high only where it was, and the output does not rise yet (R109, R528). -/
theorem commandOn_apart (p : Fin 32) (g : Gate) (t : Nat) (s : State) (hs : PortsApart s.ports) : PortsApart (commandOn p g t s).ports := by
  unfold commandOn
  extract_lets s0 o early offT s1 s2 s3
  have h0 : PortsApart s0.ports := settleGates_apart s p t hs
  have he : early = true → o.high = true := fun h => (Bool.and_eq_true_iff.1 h).1
  clear_value early
  have h1 : PortsApart s1.ports := setGate_apart h0 fun h => .inl (he h)
  have h2 : PortsApart s2.ports := setGate_apart_of_low h1 fun _ h => h
  grind [raise_ports, edgeMade_ports]

theorem edgeOccurs_apart (p : Fin 32) (g : Gate) (t : Nat) (s : State) (hs : PortsApart s.ports) :
    PortsApart (edgeOccurs p g t s).ports := by
  refine setGate_apart_of_low ?_ fun _ h => h
  split
  · exact commandOn_apart p g.compl t s hs
  · exact hs

theorem lateEdge_apart (p : Fin 32) (t : Nat) (s : State) (g : Gate) (hs : PortsApart s.ports) : PortsApart (lateEdge p t s g).ports := by
  grind [lateEdge, edgeOccurs_apart]

theorem pairZero_apart (p : Fin 32) (t : Nat) (s : State) (g : Gate) (hs : PortsApart s.ports) : PortsApart (pairZero p t s g).ports := by
  unfold pairZero
  split
  · grind [commandOn_apart]
  · extract_lets s1 mark
    exact setGate_apart_of_low (setGate_apart_of_low (commandOn_apart p _ t s hs) fun _ h => h) fun _ h => h

theorem noteClamp_apart (s : State) (p : Fin 32) (hs : PortsApart s.ports) : PortsApart (noteClamp s p).ports := by
  have h : PortsApart (upd s.ports p fun x => { x with clamped := true }) := portsApart_upd_of_gates hs fun _ => rfl
  grind [noteClamp, raise_ports, fput_ports, inc_ports]

theorem activeStart_apart (s : State) (p : Fin 32) (hs : PortsApart s.ports) : PortsApart (activeStart s p).ports :=
  portsApart_upd_of_gates hs fun _ => rfl

theorem roundFlags_apart (s : State) (p : Fin 32) (hs : PortsApart s.ports) : PortsApart (roundFlags s p).ports :=
  portsApart_upd_of_gates hs fun _ => rfl

theorem portStart_apart (s : State) (p : Fin 32) (hs : PortsApart s.ports) : PortsApart (portStart s p).ports := by
  refine portsApart_upd_of_gates ?_ fun _ => rfl
  rw [foldl_ports _ _ _ fun t c => fput_ports t _ 1]
  exact hs

theorem markAccepting_apart (s : State) (k : Nat) (hs : PortsApart s.ports) : PortsApart (markAccepting s k).ports := fun q =>
  portApart_of_gates (hs q) (by
    simp only [markAccepting, Vector.get_eq_getElem, Vector.getElem_ofFn]
    split <;> rfl)

theorem writeShadow_apart (s : State) (p : Fin 32) (k : Nat) (q : Int) (f : Nat) (hs : PortsApart s.ports) :
    PortsApart (writeShadow s p k q f).ports := by
  unfold writeShadow
  extract_lets t
  split
  · exact portsApart_upd_of_gates hs fun _ => rfl
  · split
    · exact hs
    · exact hs

/-- At the exit from a zero-crossing window the slow leg rises only where its complement is low (R126). -/
theorem zcRound_apart (s : State) (p : Fin 32) (hs : PortsApart s.ports) : PortsApart (zcRound s p).ports := by
  unfold zcRound
  extract_lets thp w pos neg win was s1 s2 t0 held s3 g
  have h2 : PortsApart s2.ports := by grind [fputB_ports]
  have h3 : PortsApart s3.ports := portsApart_upd_of_gates h2 fun _ => rfl
  have hc (u : State) (h : Gate) (hu : PortsApart u.ports) : PortsApart (commandOn p h t0 u).ports := commandOn_apart p h t0 u hu
  have hr (hl : ¬(gateOf s3 p g.compl).high = true) :
      PortsApart (edgeMade (setGate s3 p g fun x => { x with high := true, onAt := t0, rise := none, cmd := true }) p g t0 true).ports := by
    rw [edgeMade_ports]
    exact setGate_apart h3 fun _ => .inr (Bool.eq_false_iff.2 hl)
  grind

theorem reset_apart : PortsApart State.reset.ports := fun q => portApart_of_low fun g => by
  simp [State.reset, PortSt.reset, GateSt.low, Vector.get_eq_getElem]

end Sys2Proof.Machine
end

section
set_option Elab.async false
namespace Sys2Proof.Machine

/-! ### What the operations that reach the outputs make of the pairs

Every operation that may reach an output keeps the pairs apart: it goes through those of the section before. -/

/-! #### Operations of Report.lean -/

theorem changeState_apart (s : State) (d : DevState) (hs : PortsApart s.ports) : PortsApart (changeState s d).ports := by
  grind [changeState, fput_ports, raise_ports, setDev_ports, refreshPorts_apart, refreshFaultStatus_ports, pushRecord_ports,
    refreshFeeds_ports, requestOff_ports, setTest_ports, syncAlive_ports, abandonArm_ports, endFreeze_ports]

theorem enterSafe_apart (s : State) (hs : PortsApart s.ports) : PortsApart (enterSafe s).ports := by
  grind [enterSafe, fput_ports, abandonArm_ports, changeState_apart]

theorem react_apart (s : State) (code cls kind idx ts cnt : Nat) (hs : PortsApart s.ports) :
    PortsApart (react s code cls kind idx ts cnt).ports := by
  grind [react, foldl_apart, sendEvt_ports, askSnapshot_ports, faultRecord_ports, enterSafe_apart]

theorem reportFull_apart (s : State) (ts : Nat) (hs : PortsApart s.ports) : PortsApart (reportFull s ts).ports := by
  grind [reportFull, countFault_ports, react_apart]

theorem register_apart (s : State) (code cls kind idx ts : Nat) (hs : PortsApart s.ports) :
    PortsApart (register s code cls kind idx ts).ports := by
  grind [register, raise_ports, inc_ports, makeEntry_ports, react_apart, reportFull_apart]

theorem report_apart (s : State) (code cls kind idx ts : Nat) (hs : PortsApart s.ports) :
    PortsApart (report s code cls kind idx ts).ports := by
  grind [report, refreshPorts_apart, refreshFaultStatus_ports, countFault_ports, reportCorrected_ports, register_apart]

/-! #### Operations of Batt.lean -/

theorem enterUnanchored_apart (s : State) (b : Fin 2) (hs : PortsApart s.ports) : PortsApart (enterUnanchored s b).ports := by
  grind [enterUnanchored, raise_ports, report_apart, putBattState_ports]

theorem coldStart_apart (s : State) (b : Fin 2) (hs : PortsApart s.ports) : PortsApart (coldStart s b).ports := by
  grind [coldStart, fput_ports, setBatt_ports, enterUnanchored_apart]

theorem judgePresence_apart (s : State) (b : Fin 2) (hs : PortsApart s.ports) : PortsApart (judgePresence s b).ports := by
  grind [judgePresence, fput_ports, fputB_ports, raise_ports, report_apart, setBatt_ports, putBattState_ports]

theorem applyRestore_apart (s : State) (b : Fin 2) (hs : PortsApart s.ports) : PortsApart (applyRestore s b).ports := by
  grind [applyRestore, wr_ports, fput_ports, raise_ports, setBatt_ports, putBattState_ports, enterUnanchored_apart]

theorem judgeRestore_apart (s : State) (b : Fin 2) (hs : PortsApart s.ports) : PortsApart (judgeRestore s b).ports := by
  grind [judgeRestore, fput_ports, raise_ports, report_apart, setBatt_ports, applyRestore_apart]

theorem battWork_apart (s : State) (b : Fin 2) (p : BattSt) (hs : PortsApart s.ports) : PortsApart (battWork s b p).ports := by
  grind [battWork, coldStart_apart, battObserve_ports, battGrowU_ports, battAdapt_ports, battTimers_ports]

/-! #### Operations of Cmp.lean -/

theorem cbcTrip_apart (s : State) (p : Fin 32) (c : Fin 4) (fret : Nat) (hs : PortsApart s.ports) :
    PortsApart (cbcTrip s p c fret).ports := by
  unfold cbcTrip
  extract_lets first s1 s2 esc s3 s4
  have h1 : PortsApart s1.ports := gatesLow_apart _ hs
  have h2 : PortsApart s2.ports := by grind [setCmp_ports, abortCapture_ports]
  have h3 : PortsApart s3.ports := ite_apart h2 h2
  have h4 : PortsApart s4.ports := h3
  exact ite_apart (ite_apart (report_apart _ _ _ _ _ _ (markAccepting_apart s4 _ h4)) h4) h3

theorem latchAction_apart (s : State) (p : Fin 32) (c : Fin 4) (hiSide : Bool) (fret : Nat) (hs : PortsApart s.ports) :
    PortsApart (latchAction s p c hiSide fret).ports := by
  grind [latchAction, report_apart, markAccepting_apart, cbcTrip_apart]

theorem setLatch_apart (s : State) (p : Fin 32) (c : Fin 4) (hiSide : Bool) (fret : Nat) (hs : PortsApart s.ports) :
    PortsApart (setLatch s p c hiSide fret).ports := by
  grind [setLatch, fput_ports, raise_ports, inc_ports, latchAction_apart]

/-! #### Operations of Ports.lean -/

theorem updatePoint_apart (s : State) (p : Fin 32) (t : Nat) (hs : PortsApart s.ports) : PortsApart (updatePoint s p t).ports := by
  grind [updatePoint, fput_ports, fputS_ports, updateThresholds_ports, noteClamp_apart]

theorem settledLatches_apart (s : State) (p : Fin 32) (fret : Nat) (hs : PortsApart s.ports) :
    PortsApart (settledLatches s p fret).ports := by
  grind [settledLatches, foldl_apart, fput_ports, setLatch_apart]

theorem portsRound_apart (s : State) (hs : PortsApart s.ports) : PortsApart (portsRound s).ports := by
  grind [portsRound, foldl_apart, refreshPorts_apart, zcRound_apart, roundFlags_apart]

/-! #### Operations of Loops.lean -/

theorem noteOvf_apart (s : State) (n : Fin 64) (sat : Bool) (fret : Nat) (hs : PortsApart s.ports) :
    PortsApart (noteOvf s n sat fret).ports := by
  grind [noteOvf, raise_ports, inc_ports, report_apart]

theorem passE_apart (fret : Nat) (n : Fin 64) (s : State) (hs : PortsApart s.ports) : PortsApart (passE fret n s).ports := by
  grind [passE, wr_ports, setLoop_ports, noteOvf_apart]

theorem passP_apart (fret : Nat) (n : Fin 64) (s : State) (hs : PortsApart s.ports) : PortsApart (passP fret n s).ports := by
  grind [passP, wr_ports, setLoop_ports, noteOvf_apart]

theorem passD_apart (second : Bool) (fret : Nat) (n : Fin 64) (s : State) (hs : PortsApart s.ports) :
    PortsApart (passD second fret n s).ports := by
  grind [passD, wr_ports, setLoop_ports, noteOvf_apart]

theorem passSum2_apart (fret : Nat) (n : Fin 64) (s : State) (hs : PortsApart s.ports) : PortsApart (passSum2 fret n s).ports := by
  grind [passSum2, wr_ports, setLoop_ports, noteOvf_apart, setLim_ports, releaseSelectors_ports]

theorem commitPass_apart (p : Fin 32) (target fret : Nat) (n : Fin 64) (s : State) (hs : PortsApart s.ports) :
    PortsApart (commitPass p target fret n s).ports := by
  grind [commitPass, fput_ports, fputB_ports, raise_ports, setLoop_ports, writeShadow_apart]

/-! #### Operations of Hk.lean -/

theorem judgeHot2_apart (s : State) (g : Fin 8) (t : Int) (hs : PortsApart s.ports) : PortsApart (judgeHot2 s g t).ports := by
  grind [judgeHot2, raise_ports, report_apart, setHk_ports]

theorem judgeGroup_apart (s : State) (g : Fin 8) (hs : PortsApart s.ports) : PortsApart (judgeGroup s g).ports := by
  grind [judgeGroup, setHk_ports, keepMax_ports, judgeRor_ports, judgeHot2_apart, putLevel_ports]

theorem remute_apart (s : State) (hs : PortsApart s.ports) : PortsApart (remute s).ports := by
  grind [remute, refreshPorts_apart, muteRound_ports]

/-! #### Operations of Time.lean -/

theorem enterHoldover_apart (s : State) (f : Nat) (hs : PortsApart s.ports) : PortsApart (enterHoldover s f).ports := by
  grind [enterHoldover, fput_ports, raise_ports, report_apart, setTb_ports, setTime_ports]

theorem loseSource_apart (s : State) (f : Nat) (holdover : Bool) (hs : PortsApart s.ports) :
    PortsApart (loseSource s f holdover).ports := by
  grind [loseSource, raise_ports, inc_ports, report_apart, enterHoldover_apart]

theorem mainsLost_apart (s : State) (f : Nat) (hs : PortsApart s.ports) : PortsApart (mainsLost s f).ports := by
  grind [mainsLost, fput_ports, setTime_ports, loseSource_apart]

theorem slewBoundary_apart (s : State) (hs : PortsApart s.ports) : PortsApart (slewBoundary s).ports := by
  grind [slewBoundary, raise_ports, report_apart, setTb_ports, steerTo_ports]

theorem adoptCount_apart (s : State) (hs : PortsApart s.ports) : PortsApart (adoptCount s).ports := by
  grind [adoptCount, fput_ports, raise_ports, pushRecord_ports, report_apart, setTime_ports]

theorem takeNewCfg_apart (s : State) (hs : PortsApart s.ports) : PortsApart (takeNewCfg s).ports := by
  grind [takeNewCfg, fput_ports, setTime_ports, loseSource_apart]

theorem steerBoundary_apart (s : State) (hs : PortsApart s.ports) : PortsApart (steerBoundary s).ports := by
  grind [steerBoundary, raise_ports, setTb_ports, setTime_ports, steerTo_ports, startTransfer_ports, slewBoundary_apart]

theorem harnessLost_apart (s : State) (hs : PortsApart s.ports) : PortsApart (harnessLost s).ports := by
  grind [harnessLost, setTime_ports, loseSource_apart, startTransfer_ports]

theorem phaseJump_apart (s0 s : State) (f : Nat) (hs : PortsApart s.ports) : PortsApart (phaseJump s0 s f).ports := by
  grind [phaseJump, inc_ports, raise_ports, setTime_ports, report_apart]

theorem judgeMains_apart (s : State) (f : Nat) (hs : PortsApart s.ports) : PortsApart (judgeMains s f).ports := by
  grind [judgeMains, fputB_ports, raise_ports, report_apart, setTime_ports, mainsLost_apart]

theorem clockMonitor_apart (clkKHz : Nat) (locked : Bool) (s : State) (hs : PortsApart s.ports) :
    PortsApart (clockMonitor clkKHz locked s).ports := by
  grind [clockMonitor, report_apart, setTime_ports]

/-! #### Operations of Capo.lean -/

theorem judgeUnmet_apart (s : State) (unmet : Bool) (fret : Nat) (hs : PortsApart s.ports) :
    PortsApart (judgeUnmet s unmet fret).ports := by
  grind [judgeUnmet, fput_ports, fputB_ports, raise_ports, inc_ports, report_apart]

theorem judgeBudget_apart (s : State) (payload : List Word) (hs : PortsApart s.ports) : PortsApart (judgeBudget s payload).ports := by
  unfold judgeBudget
  split
  · exact hs
  · split
    · exact hs
    · split
      · exact hs
      · grind [inc_ports, raise_ports, setCapo_ports, report_apart, acceptBudget_ports]

/-! #### Operations of Feed.lean -/

theorem feedWindowLost_apart (s : State) (f : Fin 8) (viaOv : Bool) (hs : PortsApart s.ports) :
    PortsApart (feedWindowLost s f viaOv).ports := by
  grind [feedWindowLost, raise_ports, feedQualify_ports, report_apart]

theorem judgeWindow_apart (s : State) (f : Fin 8) (hs : PortsApart s.ports) : PortsApart (judgeWindow s f).ports := by
  grind [judgeWindow, fputB_ports, setFeed_ports, feedQualify_ports, report_apart, feedWindowLost_apart]

theorem feedTrip_apart (s : State) (f : Fin 8) (hs : PortsApart s.ports) : PortsApart (feedTrip s f).ports := by
  grind [feedTrip, setFeed_ports, putFeedState_ports, feedOut_ports, feedFault_ports, report_apart, countTrip_ports]

/-! #### Operations of Sched.lean -/

theorem exchangeLoop_apart (s : State) (n : Fin 64) (hs : PortsApart s.ports) : PortsApart (exchangeLoop s n).ports := by
  grind [exchangeLoop, fput_ports, raise_ports, fputBit_ports, report_apart, setLoop_ports]

theorem refuseVariant_apart (s : State) (hs : PortsApart s.ports) : PortsApart (refuseVariant s).ports := by
  grind [refuseVariant, fput_ports, raise_ports, report_apart]

theorem requestVariant_apart (v : Word) (s : State) (hs : PortsApart s.ports) : PortsApart (requestVariant v s).ports := by
  grind [requestVariant, fput_ports, setSched_ports, refuseVariant_apart]

theorem programStart_apart (s : State) (hs : PortsApart s.ports) : PortsApart (programStart s).ports := by
  grind [programStart, foldl_apart, wr_ports, fput_ports, raise_ports, refreshPorts_apart, setLoop_ports, setSched_ports,
    setWindows_ports, cmpStart_ports, portStart_apart, shareStart_ports]

/-! #### Operations of Seq.lean -/

theorem riseFailed_apart (s : State) (r : Fin 16) (code : Nat) (hs : PortsApart s.ports) : PortsApart (riseFailed s r code).ports := by
  unfold riseFailed
  extract_lets s0 s1 s2 s3
  have h2 : s2.ports = s.ports := (raise_ports _ _).trans ((setSeq_ports _ _).trans ((fputBit_ports _ _ _ _).trans
    ((setRail_ports _ _ _).trans (putRail_ports _ _ _))))
  have h3 : PortsApart s3.ports := report_apart s2 _ _ _ _ _ (h2 ▸ hs)
  split
  · rw [takeUp_ports]
    exact h3
  · exact h3

theorem railCollapsed_apart (s : State) (r : Fin 16) (hs : PortsApart s.ports) : PortsApart (railCollapsed s r).ports := by
  grind [railCollapsed, raise_ports, setRail_ports, putRail_ports, takeDown_ports, report_apart]

/-! #### Operations of Faults.lean -/

theorem hwdFail_apart (s : State) (cause err : Nat) (hs : PortsApart s.ports) : PortsApart (hwdFail s cause err).ports := by
  grind [hwdFail, fput_ports, raise_ports, reportCorrected_ports, report_apart, clearSlots_ports, setReference_ports, hwdRecord_ports]

theorem hwdService_apart (s : State) (hs : PortsApart s.ports) : PortsApart (hwdService s).ports := by
  grind [hwdService, hwdFail_apart, hwdGood_ports]

theorem writeHwdAns_apart (v : Word) (s : State) (hs : PortsApart s.ports) : PortsApart (writeHwdAns v s).ports := by
  grind [writeHwdAns, fput_ports, hwdFail_apart, hwdService_apart]

/-! #### Operations of Loader.lean -/

theorem buildStatus_apart (s c : State) (m : Img) (hs : PortsApart s.ports) : PortsApart (buildStatus s c m).ports := by
  grind [buildStatus, fput_ports, fputB_ports, wr_ports, wr64_ports, refuseVariant_apart]

theorem applyImage_apart (s : State) (m : Img) (hs : PortsApart s.ports) : PortsApart (applyImage s m).ports := by
  unfold applyImage
  extract_lets es c s1 s2 s3 s4 s5 s6 tgt _ s7 s8 s9
  have h1 : s1.ports = s.ports := by grind [rewriteEngine_ports, loadTables_ports, loadRegs_ports]
  clear_value s1
  have h2 : PortsApart s2.ports := buildStatus_apart _ _ _ (by
    rw [buildSched_ports, buildBanks_ports, buildProgram_ports, h1]
    exact hs)
  clear_value s2
  have h3 : PortsApart s3.ports := apart_of_ports h2 (foldl_ports _ _ _ (acceptLoop_ports s))
  clear_value s3
  have h4 : PortsApart s4.ports := apart_of_ports h3 ((foldl_ports _ _ _ (acceptQueue_ports s)).trans
    ((acceptSeq_ports _ _).trans (ownThresholds_ports _ _ _)))
  clear_value s4
  have h5 : PortsApart s5.ports := apart_of_ports h4 (foldl_ports _ _ _ (acceptBatt_ports s))
  clear_value s5
  have h7 : PortsApart s7.ports := h5
  clear_value s7
  have h8 : PortsApart s8.ports := ite_apart (apart_of_ports h7 (safeBudget_ports s7)) h7
  clear_value s8
  have h9 : PortsApart s9.ports := ite_apart h8 h8
  rw [refreshFeeds_ports, refreshSuspension_ports, foldl_ports _ _ _ resenseFeed_ports, acceptHarn_ports, fput_ports]
  exact h9

theorem loadStructure_apart (u : State) (m : Img) (a : Bool) (hs : PortsApart u.ports) : PortsApart (loadStructure u m a).1.ports := by
  grind [loadStructure, nvmReadFaults_ports, applyImage_apart, putLoad_ports, raise_ports, report_apart]

/-! #### Operations of Trust.lean -/

theorem actOn_apart (s : State) (fw : Bool) (c : Nat) (hs : PortsApart s.ports) : PortsApart (actOn s fw c).ports := by
  grind [actOn, refreshPorts_apart, abandonArm_ports, setTrust_ports, putAct_ports, endActivation_ports]

theorem requestReport_apart (s : State) (nonce : List Byte) (answer : Option (Nat × Nat × Nat)) (hs : PortsApart s.ports) :
    PortsApart (requestReport s nonce answer).ports := by
  grind [requestReport, fput_ports, report_apart, setTrust_ports]

theorem hostReport_apart (s : State) (hs : PortsApart s.ports) : PortsApart (hostReport s).ports := by
  grind [hostReport, requestReport_apart]

theorem writeTrustCtrl_apart (v : Word) (s : State) (hs : PortsApart s.ports) : PortsApart (writeTrustCtrl v s).ports := by
  grind [writeTrustCtrl, cancelAct_ports, hostActivate_ports, hostReport_apart, trustNonceNew_ports]

/-! #### Operations of Power.lean -/

theorem clearVolatile_apart (s : State) (ka : Bool) : PortsApart (clearVolatile s ka).ports := by
  unfold clearVolatile
  extract_lets s0 z1 z2 z3 z4 s1 s2 s3
  have h3 : s3.ports = State.reset.ports := foldl_ports _ _ _ freeBatt_ports
  have hr := reset_apart
  grind [syncSnaps_ports, syncPending_ports, wr_ports]

theorem beginReset_apart (s : State) (cause : Nat) (ka : Bool) : PortsApart (beginReset s cause ka).ports := by
  unfold beginReset
  extract_lets first from_ s1 s2 causes
  have h1 : PortsApart s1.ports := clearVolatile_apart (cutTwoWire s) ka
  have h2 : PortsApart s2.ports := by grind [keepLinks_ports]
  exact h2

theorem bootWork_apart (s : State) (hs : PortsApart s.ports) : PortsApart (bootWork s).ports := by
  grind [bootWork, measuredBoot_ports, bootRegs_ports, setPower_ports, countBoot_ports, ledgerLoad_ports, ringScan_ports,
    checkKeepAlive_ports, loadStructure_apart]

theorem enterBoot_apart (s : State) (old from_ : DevState) (hs : PortsApart s.ports) : PortsApart (enterBoot s old from_).ports := by
  grind [enterBoot, fput_ports, raise_ports, setDev_ports, pushRecord_ports, refreshReplica_ports, setRec_ports, setPower_ports,
    bootWork_apart]

theorem arm_apart (s : State) (hs : PortsApart s.ports) : PortsApart (arm s).ports := by
  grind [arm, fput_ports, raise_ports, inc_ports, refreshFeeds_ports, changeState_apart, safeBudget_ports, dropBudget_ports,
    setPower_ports, autoFeeds_ports]

theorem endBoot_apart (autoarm : Bool) (s : State) (hs : PortsApart s.ports) : PortsApart (endBoot autoarm s).ports := by
  grind [endBoot, fput_ports, fputB_ports, powerRails_ports, setSeq_ports, requestOn_ports, changeState_apart, startEnum_ports,
    judgeArm_ports]

theorem doDisarm_apart (s : State) (hs : PortsApart s.ports) : PortsApart (doDisarm s).ports := by
  grind [doDisarm, abandonArm_ports, changeState_apart, setPower_ports, ctrlRefused_ports]

theorem doTestEnter_apart (s : State) (hs : PortsApart s.ports) : PortsApart (doTestEnter s).ports := by
  grind [doTestEnter, changeState_apart, ctrlRefused_ports]

theorem doTestExit_apart (s : State) (hs : PortsApart s.ports) : PortsApart (doTestExit s).ports := by
  grind [doTestExit, fput_ports, changeState_apart, ctrlRefused_ports]

theorem doSoftReset_apart (s : State) (hs : PortsApart s.ports) : PortsApart (doSoftReset s).ports := by
  grind [doSoftReset, setPower_ports, beginReset_apart, ctrlRefused_ports]

theorem writeGlobalCtrl_apart (v : Word) (s : State) (hs : PortsApart s.ports) : PortsApart (writeGlobalCtrl v s).ports := by
  grind [writeGlobalCtrl, ctrlRefused_ports, doDisarm_apart, doTestEnter_apart, doTestExit_apart, doHibernate_ports, doSoftReset_apart]

/-! #### Operations of Test.lean -/

theorem applyOos_apart (s : State) (hs : PortsApart s.ports) : PortsApart (applyOos s).ports := by
  grind [applyOos, fput_ports, refreshPorts_apart]

theorem checkFailed_apart (s : State) (p : Fin 32) (hs : PortsApart s.ports) : PortsApart (checkFailed s p).ports := by
  grind [checkFailed, raise_ports, fputBit_ports, reportCorrected_ports, setTest_ports, report_apart]

theorem endSweep_apart (s : State) (w : SweepSt) (hs : PortsApart s.ports) : PortsApart (endSweep s w).ports := by
  grind [endSweep, foldl_apart, fput_ports, raise_ports, reportCorrected_ports, setTest_ports, applyOos_apart, sweepResult_ports,
    sweepRestore_ports]

theorem doubleError_apart (s : State) (k : SramKind) (a : Nat) (hs : PortsApart s.ports) : PortsApart (doubleError s k a).ports := by
  cases k <;> grind [doubleError, report_apart, setTest_ports, setQueue_ports, reportCorrected_ports, lateError_ports, ledgerLoad_ports,
    loseRecorder_ports, loseRegion_ports]

theorem sramWord_apart (s : State) (k : SramKind) (a n : Nat) (hs : PortsApart s.ports) : PortsApart (sramWord s k a n).ports := by
  unfold sramWord
  split
  · rw [wordGood_ports]
    exact hs
  · rw [reportCorrected_ports]
    exact hs
  · exact doubleError_apart s k a hs

/-! #### Operations of Map.lean -/

/-- Registers of GLOBAL to HOSTIF: the commands of GLOBAL, the variant and the watchdog answer may change the device state. -/
theorem writeLow_apart (r : RegRow) (a : Nat) (v : Word) (s : State) (hs : PortsApart s.ports) : PortsApart (writeLow r a v s).ports :=
  have hp {t : State} (h : t.ports = s.ports) : PortsApart t.ports := apart_of_ports hs h
  ite_apart (hp (writeGlobalArm_ports v s)) <| ite_apart (writeGlobalCtrl_apart v s hs) <| ite_apart (hp (writeFleet_ports v s)) <|
    ite_apart (whenBit_apart v 0 clearQdrop_ports hs) <| ite_apart (requestVariant_apart v s hs) <|
    ite_apart (whenBit_apart v 0 requestSwap_ports hs) <| ite_apart (hp (writeFaultClr_ports v s)) <|
    ite_apart (whenBit_apart v 0 clearFaultCnt_ports hs) <| ite_apart (hp (writeHwdCtrl_ports v s)) <|
      ite_apart (hp (writeTokKey_ports v s)) <|
    ite_apart (hp (writeHwdKey_ports v s)) <| ite_apart (writeHwdAns_apart v s hs) <| ite_apart (hp (writeHwdCheckin_ports v s)) <|
    ite_apart (hp (writeHarnCtrl_ports v s)) <| ite_apart (hp (writeRootEpoch_ports v s)) <| ite_apart (hp (writeTwcCtrl_ports v s)) <|
    ite_apart (hp (writeHostCtrl_ports v s)) <| ite_apart (hp (writeQueueWm_ports _ v s)) <| ite_apart (hp (writeQueueCtrl_ports _ v s)) <|
    hp (writePlain_ports r a v s)

/-- Registers of SEQ to TEST: only the report that TRUST_CTRL asks for may lead to a change of the device state. -/
theorem writeHigh_apart (b : Bool) (r : RegRow) (a : Nat) (v : Word) (s : State) (hs : PortsApart s.ports) :
    PortsApart (writeHigh b r a v s).ports :=
  have hp {t : State} (h : t.ports = s.ports) : PortsApart t.ports := apart_of_ports hs h
  ite_apart (hp (writeSeqCmd_ports v s)) <| ite_apart (whenBit_apart v 0 clearSeqCnt_ports hs) <| ite_apart (hp (writeFeedCmd_ports v s)) <|
    ite_apart (whenBit_apart v 0 (clearFeedCnt_ports _) hs) <| ite_apart (hp (writeBattCtrl_ports 0 v s)) <|
    ite_apart (hp (writeBattCtrl_ports 1 v s)) <| ite_apart (whenBit_apart v 0 clearHkCnt_ports hs) <|
    ite_apart (hp ((restartKa_ports _).trans (writePlain_ports r a v s))) <| ite_apart (hp (writeKaLatch_ports v s)) <|
    ite_apart (hp (writeCapoCtrl_ports v s)) <| ite_apart (hp (writeHostCap_ports v s)) <| ite_apart (hp (writeRecCtrl_ports v s)) <|
    ite_apart (hp (writeRecWall_ports v s)) <| ite_apart (hp (writeRecClear_ports v s)) <| ite_apart (writeTrustCtrl_apart v s hs) <|
    ite_apart (hp (writeStgCtrl_ports v s)) <| ite_apart (hp (writeKeyCmd_ports v s)) <| ite_apart (hp (writeOos_ports v s)) <|
    ite_apart (hp (writeCmpCtrl_ports v s)) <| ite_apart (hp (writePwmCtrl_ports v s)) <| ite_apart (hp (writeTestHarn_ports v b s)) <|
    ite_apart (hp (writeDbgCtrl_ports v s)) <| ite_apart (hp ((leaveBscan_ports _).trans (writePlain_ports r a v s))) <|
    hp (writePlain_ports r a v s)

theorem writeReg_apart (path : Path) (r : RegRow) (a : Nat) (v : Word) (s : State) (hs : PortsApart s.ports) :
    PortsApart (writeReg path r a v s).ports := by
  grind [writeReg, writeLow_apart, writeHigh_apart, writePortBlock_ports, writeLoopBlock_ports]

theorem hostWrite_apart (path : Path) (a : Nat) (v : Word) (s : State) (hs : PortsApart s.ports) :
    PortsApart (hostWrite path a v s).ports := by
  grind [hostWrite, unassigned_ports, refusedWrite_ports, writeEngine_ports, writeReg_apart]

/-! #### Operations of HostPorts.lean -/

theorem landWords_apart (ws : List (Option (Nat × Word))) (s : State) (hs : PortsApart s.ports) : PortsApart (landWords ws s).ports := by
  grind [landWords, foldl_apart, partialWord_ports, hostWrite_apart]

theorem bulkLand_apart (s : State) (r : BulkRun) (ws : List (Option (Nat × Word))) (hs : PortsApart s.ports) :
    PortsApart (bulkLand s r ws).1.ports := by
  grind [bulkLand, landWords_apart, unassigned_ports]

theorem bulkCommit_apart (s : State) (r : BulkRun) (bs : List Byte) (ws : List (Option (Nat × Word))) (hs : PortsApart s.ports) :
    PortsApart (bulkCommit s r bs ws).1.ports := by
  grind [bulkCommit, bulkLand_apart, reportCorrected_ports, bulkErr_ports, raise_ports]

theorem bulkWrite_apart (s : State) (r : BulkRun) (hs : PortsApart s.ports) : PortsApart (bulkWrite s r).ports := by
  unfold bulkWrite
  split
  · rw [bulkSettle_ports]
    exact hs
  · extract_lets bs room g holes overrun x s1 told s2
    have hx : PortsApart x.1.ports := by grind [bulkLand_apart, bulkCommit_apart]
    have h1 : s1.ports = x.1.ports := ite_eq_of State.ports _ _ _ _ (bulkOverrun_ports _) rfl
    have h2 : s2.ports = s1.ports := foldl_ports _ _ _ fun t _ => ite_eq_of State.ports _ _ _ _ (partialWord_ports t) rfl
    rw [bulkSettle_ports, h2, h1]
    exact hx

theorem bulkBegin_apart (s : State) (r : BulkRun) (hs : PortsApart s.ports) : PortsApart (bulkBegin s r).ports := by
  grind [bulkBegin, raise_ports, setHost_ports, bulkRead_ports, bulkWrite_apart]

theorem bulkRow_apart (c : Nat) (write : Bool) (h : BulkHead) (data : List Byte) (check n : Nat) (s : State) (hs : PortsApart s.ports) :
    PortsApart (bulkRow c write h data check n s).ports := by
  grind [bulkRow, bulkBegin_apart]

theorem twStore_apart (live : Bool) (base : Nat) (bs buf : List Byte) (s : State) (hs : PortsApart s.ports) :
    PortsApart (twStore live base buf bs s).ports := by
  induction bs generalizing buf s with
  | nil => exact hs
  | cons b bs ih => grind [twStore, setHost_ports, hostWrite_apart, partialWord_ports]

theorem twPecWrite_apart (s : State) (bytes : List Byte) (hs : PortsApart s.ports) : PortsApart (twPecWrite s bytes).ports := by
  unfold twPecWrite
  extract_lets body s1 data s2
  have h1 : PortsApart s1.ports := by grind [setHost_ports]
  have h2 : PortsApart s2.ports := twStore_apart _ _ _ _ s1 h1
  grind [partialWord_ports, pecError_ports]

theorem twPlainWrite_apart (s : State) (hi lo : Byte) (data : List Byte) (stop : Bool) (hs : PortsApart s.ports) :
    PortsApart (twPlainWrite s hi lo data stop).ports := by
  unfold twPlainWrite
  extract_lets s1 s2
  have h1 : PortsApart s1.ports := twStore_apart _ _ _ _ _ (by rw [setHost_ports, twHold_ports]; exact hs)
  have h2 : s2.ports = s1.ports := setHost_ports _ _
  grind [setHost_ports, twHold_ports, partialWord_ports]

/-! #### Operations of HarnCmd.lean -/

theorem cmdWriteWords_apart (s : State) (a : Nat) (ws : List Word) (hs : PortsApart s.ports) :
    PortsApart (cmdWriteWords s a ws).1.ports := by
  unfold cmdWriteWords
  induction ws.zipIdx using List.reverseRecOn with
  | nil => exact hs
  | append_singleton l w ih =>
    rw [List.foldl_concat]
    exact hostWrite_apart _ _ _ _ ih

theorem runWrite_apart (p : HPort) (s : State) (f : Frame) (hs : PortsApart s.ports) : PortsApart (runWrite p s f).ports := by
  unfold runWrite
  extract_lets r s1
  have h1 : PortsApart s1.ports := by
    rw [answerCmd_ports]
    exact cmdWriteWords_apart _ _ _ hs
  grind [sendNak_ports, dueCut_ports, applyCut_ports]

theorem runReport_apart (s : State) (f : Frame) (hs : PortsApart s.ports) : PortsApart (runReport s f).ports := by
  grind [runReport, sendNak_ports, requestReport_apart, answerCmd_ports]

theorem runCmd_apart (p : HPort) (s : State) (f : Frame) (hs : PortsApart s.ports) : PortsApart (runCmd p s f).ports := by
  grind [runCmd, runRead_ports, runWrite_apart, runReport_apart, runActivate_ports]

theorem serveCmd_apart (p : HPort) (s : State) (f : Frame) (hs : PortsApart s.ports) : PortsApart (serveCmd p s f).ports := by
  grind [serveCmd, inc_ports, setHarn_ports, runCmd_apart]

/-- The state that the judgement of a frame leaves, whether or not the frame is left for this device to consume. -/
def Judged.state : Judged → State
  | .done t => t
  | .consume t => t

/-! #### Operations of HarnLink.lean -/

theorem judgeFrame_ports (s : State) (p : HPort) (late : Vector Bool 3) (x : RxFrame) :
    (judgeFrame s p late x).state.ports = s.ports := by
  have ha (l : List (HPort × Frame)) : (l.foldl (fun s c => abortOn s c.2 (x.words.getLast?.getD 0) c.1) s).ports = s.ports :=
    foldl_ports _ l s fun t c => abortOn_ports ..
  unfold judgeFrame
  extract_lets f
  split
  · rfl
  · split
    · grind [Judged.state, badFrame_ports]
    · split
      · rfl
      · split
        · grind [Judged.state, inc_ports]
        · grind [Judged.state, inc_ports, raise_ports, reportCorrected_ports, sendNak_ports, forward_ports]

theorem judgeFrame_done_ports {s t : State} {p : HPort} {late : Vector Bool 3} {x : RxFrame} (h : judgeFrame s p late x = .done t) :
    t.ports = s.ports := by
  have hj := judgeFrame_ports s p late x
  rw [h] at hj
  exact hj

theorem judgeFrame_consume_ports {s t : State} {p : HPort} {late : Vector Bool 3} {x : RxFrame} (h : judgeFrame s p late x = .consume t) :
    t.ports = s.ports := by
  have hj := judgeFrame_ports s p late x
  rw [h] at hj
  exact hj

/-! #### Operations of HarnCmd.lean -/

theorem cmdFrame_apart (s : State) (p : HPort) (x : RxFrame) (mine : Nat → Bool) (hs : PortsApart s.ports) :
    PortsApart (cmdFrame s p x mine).ports := by
  unfold cmdFrame
  split
  · split
    · next h => exact apart_of_ports hs (judgeFrame_done_ports h)
    · next t h =>
      have ht : PortsApart t.ports := apart_of_ports hs (judgeFrame_consume_ports h)
      split
      · rw [sendNak_ports]
        exact ht
      · split
        · next hr => exact apart_of_ports ht (roleRefused_ports hr)
        · exact serveCmd_apart p t x.frame ht
  · exact hs

/-! #### Operations of HarnLink.lean -/

/-- A frame that is consumed by what does no more to the gate outputs than it may. -/
theorem consumeFrame_apart (s : State) (p : HPort) (x : RxFrame) (mine : Frame → Bool) {act : State → Frame → State}
    (ha : ∀ t f, PortsApart t.ports → PortsApart (act t f).ports) (hs : PortsApart s.ports) :
    PortsApart (consumeFrame s p x mine act).ports := by
  unfold consumeFrame
  split
  · split
    · next h => exact apart_of_ports hs (judgeFrame_done_ports h)
    · next t h =>
      have ht : PortsApart t.ports := apart_of_ports hs (judgeFrame_consume_ports h)
      split
      · next hr => exact apart_of_ports ht (roleRefused_ports hr)
      · exact ha t _ ht
  · exact hs

/-! #### Operations of HarnCmd.lean -/

theorem runHeld_apart (s : State) (hs : PortsApart s.ports) : PortsApart (runHeld s).ports := by
  grind [runHeld, foldl_apart, setHarn_ports, sendOwn_ports, serveCmd_apart]

end Sys2Proof.Machine
end

section
set_option Elab.async false
namespace Sys2Proof.Machine

/-! ### No instruction turns on both outputs of a pair -/

/-- A next state, where there is one, has its pairs apart. -/
def AnswersApart (o : Host.Outcome State Fault Refusal) : Prop := ∀ t, o = .next t → PortsApart t.ports

theorem answersApart_next {t : State} (h : PortsApart t.ports) : AnswersApart (.next t) := fun _ e => by
  injection e with e
  exact e ▸ h

/-! #### Instructions of Loops.lean -/

/-- An operation on the loop that a word names. -/
theorem onLoop_apart {s : State} {l : LaneFields} {f : Fin 64 → State → State} (hf : ∀ n t, PortsApart t.ports → PortsApart (f n t).ports)
    (hs : PortsApart s.ports) : PortsApart (onLoop s l f).ports := by
  grind [onLoop]

/-! #### Instructions of Batt.lean -/

theorem execBattConvDone_apart (b : Fin 2) (code : BitVec 16) (s : State) (hs : PortsApart s.ports) :
    AnswersApart (execBattConvDone b code s) := by
  grind [execBattConvDone, AnswersApart, fput_ports, raise_ports, report_apart, setBatt_ports]

theorem execBattStep_apart (b : Fin 2) (s : State) (hs : PortsApart s.ports) : AnswersApart (execBattStep b s) := by
  grind [execBattStep, AnswersApart, setBatt_ports, judgePresence_apart, battInputs_ports, battAdvance_ports, formSnapshot_ports,
    judgeRestore_apart, closeStep_ports, endStep_ports, battWork_apart]

theorem execBattRestPoint_apart (b : Fin 2) (s : State) (hs : PortsApart s.ports) : AnswersApart (execBattRestPoint b s) := by
  grind [execBattRestPoint, AnswersApart, raise_ports, setBatt_ports, goOnStep_ports, battAnchor_ports]

theorem execBattUnanchored_apart (b : Fin 2) (s : State) (hs : PortsApart s.ports) : AnswersApart (execBattUnanchored b s) := by
  grind [execBattUnanchored, AnswersApart, enterUnanchored_apart, goOnStep_ports]

theorem execBattDisagree_apart (b : Fin 2) (s : State) (hs : PortsApart s.ports) : AnswersApart (execBattDisagree b s) := by
  grind [execBattDisagree, AnswersApart, fput_ports, raise_ports, report_apart, setBatt_ports, goOnStep_ports]

theorem execBattSnap_apart (b : Fin 2) (s : State) (hs : PortsApart s.ports) : AnswersApart (execBattSnap b s) := by
  grind [execBattSnap, AnswersApart, requestSnap_ports]

theorem execBattSavepExpire_apart (b : Fin 2) (s : State) (hs : PortsApart s.ports) : AnswersApart (execBattSavepExpire b s) := by
  grind [execBattSavepExpire, AnswersApart, setBatt_ports]

theorem execBattRestore_apart (b : Fin 2) (s : State) (hs : PortsApart s.ports) : AnswersApart (execBattRestore b s) := by
  grind [execBattRestore, AnswersApart, requestRestore_ports]

/-! #### Instructions of Cmp.lean -/

theorem execCmpCrossing_apart (p : Fin 32) (c : Fin 4) (vp vn : Rat) (fret : Nat) (s : State) (hs : PortsApart s.ports) :
    AnswersApart (execCmpCrossing p c vp vn fret s) := by
  grind [execCmpCrossing, AnswersApart, setCmp_ports, senseCmp_ports]

theorem execCmpLatchSet_apart (p : Fin 32) (c : Fin 4) (hiSide : Bool) (fret : Nat) (s : State) (hs : PortsApart s.ports) :
    AnswersApart (execCmpLatchSet p c hiSide fret s) := by
  grind [execCmpLatchSet, AnswersApart, fput_ports, settleGates_apart, setLatch_apart]

theorem execCmpBlankEnd_apart (p : Fin 32) (c : Fin 4) (fret : Nat) (s : State) (hs : PortsApart s.ports) :
    AnswersApart (execCmpBlankEnd p c fret s) := by
  grind [execCmpBlankEnd, AnswersApart, fput_ports]

theorem execCmpLatchWrite_apart (p : Fin 32) (c : Fin 4) (v : Word) (s : State) (hs : PortsApart s.ports) :
    AnswersApart (execCmpLatchWrite p c v s) := by
  grind [execCmpLatchWrite, AnswersApart, writeCmpLatch_ports]

theorem execCmpLatchClearApply_apart (p : Fin 32) (c : Fin 4) (s : State) (hs : PortsApart s.ports) :
    AnswersApart (execCmpLatchClearApply p c s) := by
  grind [execCmpLatchClearApply, AnswersApart, setCmp_ports, clearLatch_ports]

theorem execCmpThrWrite_apart (p : Fin 32) (c : Fin 4) (v : Word) (s : State) (hs : PortsApart s.ports) :
    AnswersApart (execCmpThrWrite p c v s) := by
  grind [execCmpThrWrite, AnswersApart, writeCmpThr_ports]

theorem execCmpThrShadowApply_apart (p : Fin 32) (c : Fin 4) (s : State) (hs : PortsApart s.ports) :
    AnswersApart (execCmpThrShadowApply p c s) := by
  grind [execCmpThrShadowApply, AnswersApart, setCmp_ports]

theorem execCmpCntClr_apart (p : Fin 32) (c : Fin 4) (s : State) (hs : PortsApart s.ports) : AnswersApart (execCmpCntClr p c s) := by
  grind [execCmpCntClr, AnswersApart, clearCmpCnt_ports]

/-! #### Instructions of Ports.lean -/

theorem execSample_apart (l : LaneFields) (fret : Nat) (s : State) (hs : PortsApart s.ports) : AnswersApart (execSample l fret s) := by
  unfold execSample
  extract_lets s0 p t busy s1
  have h0 : PortsApart s0.ports := apart_of_ports hs (latchEvals_ports s fret)
  have h1 : PortsApart s1.ports := by grind [raise_ports, inc_ports]
  split
  · exact answersApart_next hs
  · split
    · exact answersApart_next (report_apart _ _ _ _ _ _ h1)
    · exact answersApart_next (portsApart_upd_of_gates h0 fun _ => rfl)

theorem execAdcConvDone_apart (d : PortFret) (c1 c2 : Int) (s : State) (hs : PortsApart s.ports) :
    AnswersApart (execAdcConvDone d c1 c2 s) := by
  unfold execAdcConvDone
  extract_lets p x
  split
  · split
    · exact answersApart_next hs
    · extract_lets ovr a s1 s2 s3 s4
      have h1 : PortsApart s1.ports := portsApart_upd_of_gates hs fun _ => rfl
      exact answersApart_next (by grind [raise_ports, fput_ports, fputB_ports])
  · exact answersApart_next hs

theorem execPwmEdge_apart (p : Fin 32) (g : Gate) (s : State) (hs : PortsApart s.ports) : AnswersApart (execPwmEdge p g s) := by
  grind [execPwmEdge, AnswersApart, edgeOccurs_apart]

theorem execDeadTimeTurnOn_apart (p : Fin 32) (g : Gate) (s : State) (hs : PortsApart s.ports) :
    AnswersApart (execDeadTimeTurnOn p g s) := by
  unfold execDeadTimeTurnOn
  split
  · exact answersApart_next hs
  · next k _ =>
    extract_lets s1
    have h1 : PortsApart s1.ports := settleGates_apart s p k hs
    split
    · exact answersApart_next h1
    · next hc =>
      split
      · exact answersApart_next (setGate_apart_of_low h1 fun _ h => h)
      · refine answersApart_next (apart_of_ports ?_ (edgeMade_ports ..))
        exact setGate_apart h1 fun _ => .inr (Bool.eq_false_iff.2 hc)

theorem execUpdatePoint_apart (p : Fin 32) (t : Nat) (s : State) (hs : PortsApart s.ports) : AnswersApart (execUpdatePoint p t s) := by
  grind [execUpdatePoint, AnswersApart, foldl_apart, updatePoint_apart, lateEdge_apart]

theorem execCarrierStart_apart (p : Fin 32) (t : Nat) (s : State) (hs : PortsApart s.ports) : AnswersApart (execCarrierStart p t s) := by
  unfold execCarrierStart
  split
  · exact answersApart_next hs
  · extract_lets n old s0 half s1 per len s2 s3 s4 s5
    have h1 : PortsApart s1.ports := ite_apart (updatePoint_apart _ p n (settleGates_apart s p n hs)) (settleGates_apart s p n hs)
    have h2 : PortsApart s2.ports := portsApart_upd_of_gates h1 fun _ => rfl
    have h4 : PortsApart s4.ports := by grind [fput_ports, fputB_ports, carrierComparators_ports, captureStart_ports]
    have h5 : PortsApart s5.ports := ite_apart (activeStart_apart _ p h4) h4
    split
    · exact answersApart_next (foldl_apart (pairZero_apart p n) _ h5)
    · exact answersApart_next h5

theorem execEnSettleEnd_apart (p : Fin 32) (fret : Nat) (s : State) (hs : PortsApart s.ports) :
    AnswersApart (execEnSettleEnd p fret s) := by
  unfold execEnSettleEnd
  split
  · exact answersApart_next hs
  · split
    · exact answersApart_next hs
    · exact answersApart_next (settledLatches_apart _ p fret (refreshPorts_apart _ (portsApart_upd_of_gates hs fun _ => rfl)))

theorem execDrvFltInput_apart (p : Fin 32) (level : Bool) (fret : Nat) (s : State) (hs : PortsApart s.ports) :
    AnswersApart (execDrvFltInput p level fret s) := by
  unfold execDrvFltInput
  extract_lets x run s1
  have h1 : PortsApart s1.ports := portsApart_upd_of_gates hs fun _ => rfl
  split
  · exact answersApart_next hs
  · exact answersApart_next (by grind [fput_ports])

theorem execDriverFault_apart (p : Fin 32) (fret : Nat) (s : State) (hs : PortsApart s.ports) :
    AnswersApart (execDriverFault p fret s) := by
  unfold execDriverFault
  extract_lets k open_ sc m s1 s2
  have hm : PortsApart (upd (markAccepting s k).ports p fun x => { x with fltRun := none }) :=
    portsApart_upd_of_gates (markAccepting_apart s k hs) fun _ => rfl
  have h1 : PortsApart s1.ports := hm
  have h2 : PortsApart s2.ports := apart_of_ports h1 ((raise_ports ..).trans (fputB_ports ..))
  split
  · exact answersApart_next (report_apart s2 _ _ _ _ _ h2)
  · exact answersApart_next hs

theorem execPortCntClr_apart (p : Fin 32) (s : State) (hs : PortsApart s.ports) : AnswersApart (execPortCntClr p s) := by
  grind [execPortCntClr, AnswersApart, clearPortCnt_ports]

/-! #### Instructions of Loops.lean -/

theorem execRead_apart (l : LaneFields) (fret : Nat) (s : State) (hs : PortsApart s.ports) : AnswersApart (execRead l fret s) := by
  unfold execRead
  split
  · exact answersApart_next hs
  · extract_lets p v
    split
    · exact answersApart_next (portsApart_upd_of_gates hs fun _ => rfl)
    · exact answersApart_next (onLoop_apart (fun n _ h => apart_of_ports h (loadY_ports ..)) hs)

theorem execMeas_apart (l : LaneFields) (fret : Nat) (s : State) (hs : PortsApart s.ports) : AnswersApart (execMeas l fret s) := by
  grind [execMeas, AnswersApart, latchEvals_ports, onLoop_ports, loadY_ports]

theorem execPassE_apart (l : LaneFields) (fret : Nat) (s : State) (hs : PortsApart s.ports) : AnswersApart (execPassE l fret s) := by
  have h := onLoop_apart (l := l) (passE_apart fret) hs
  grind [execPassE, AnswersApart]

theorem execPassP_apart (l : LaneFields) (fret : Nat) (s : State) (hs : PortsApart s.ports) : AnswersApart (execPassP l fret s) := by
  have h := onLoop_apart (l := l) (passP_apart fret) hs
  grind [execPassP, AnswersApart]

theorem execPassD_apart (l : LaneFields) (fret : Nat) (s : State) (hs : PortsApart s.ports) : AnswersApart (execPassD l fret s) := by
  have h := onLoop_apart (l := l) (passD_apart (l.argBits 0 1 == 1) fret) hs
  grind [execPassD, AnswersApart]

theorem execPassI_apart (l : LaneFields) (fret : Nat) (s : State) (hs : PortsApart s.ports) : AnswersApart (execPassI l fret s) := by
  grind [execPassI, AnswersApart, onLoop_ports, passI1_ports, passI2_ports]

theorem execPassSum_apart (l : LaneFields) (fret : Nat) (s : State) (hs : PortsApart s.ports) : AnswersApart (execPassSum l fret s) := by
  have h1 := onLoop_apart (l := l) (fun n t h => apart_of_ports h (passSum1_ports fret n t)) hs
  have h2 := onLoop_apart (l := l) (passSum2_apart fret) hs
  grind [execPassSum, AnswersApart]

theorem execRegion_apart (l : LaneFields) (fret : Nat) (s : State) (hs : PortsApart s.ports) : AnswersApart (execRegion l fret s) := by
  grind [execRegion, AnswersApart, onLoop_ports, regionPass_ports]

theorem execCommit_apart (l : LaneFields) (fret : Nat) (s : State) (hs : PortsApart s.ports) : AnswersApart (execCommit l fret s) := by
  have h := onLoop_apart (l := l) (commitPass_apart l.port.toFin (l.argBits 0 4) fret) hs
  grind [execCommit, AnswersApart]

theorem execThresh_apart (l : LaneFields) (fret : Nat) (s : State) (hs : PortsApart s.ports) : AnswersApart (execThresh l fret s) := by
  unfold execThresh
  split
  · exact answersApart_next hs
  · extract_lets p t v
    split
    · exact answersApart_next (apart_of_ports hs (writeHiShadow_ports ..))
    · exact answersApart_next (portsApart_upd_of_gates hs fun _ => rfl)

theorem execTarget_apart (l : LaneFields) (fret : Nat) (s : State) (hs : PortsApart s.ports) : AnswersApart (execTarget l fret s) := by
  grind [execTarget, AnswersApart, onLoop_ports, targetPass_ports]

theorem execNop_apart (_l : LaneFields) (_fret : Nat) (s : State) (hs : PortsApart s.ports) : AnswersApart (execNop _l _fret s) := by
  grind [execNop, AnswersApart]

theorem execLoopModeWrite_apart (n : Fin 64) (v : Word) (s : State) (hs : PortsApart s.ports) : AnswersApart (execLoopModeWrite n v s) := by
  grind [execLoopModeWrite, AnswersApart, writeLoopMode_ports]

theorem execLoopUmanWrite_apart (n : Fin 64) (v : Word) (s : State) (hs : PortsApart s.ports) : AnswersApart (execLoopUmanWrite n v s) := by
  grind [execLoopUmanWrite, AnswersApart, writeLoopUman_ports]

theorem execLoopModeApply_apart (n : Fin 64) (s : State) (hs : PortsApart s.ports) : AnswersApart (execLoopModeApply n s) := by
  grind [execLoopModeApply, AnswersApart, applyLoopMode_ports]

theorem execLoopCntClr_apart (n : Fin 64) (s : State) (hs : PortsApart s.ports) : AnswersApart (execLoopCntClr n s) := by
  grind [execLoopCntClr, AnswersApart, clearLoopCnt_ports]

theorem execLoopShadowWrite_apart (n : Fin 64) (w : Fin 64) (v : Word) (s : State) (hs : PortsApart s.ports) :
    AnswersApart (execLoopShadowWrite n w v s) := by
  grind [execLoopShadowWrite, AnswersApart, writeLoopShadow_ports]

/-! #### Instructions of Hk.lean -/

theorem execHkRoundStart_apart (codes : HkCodes) (s : State) (hs : PortsApart s.ports) : AnswersApart (execHkRoundStart codes s) := by
  grind [execHkRoundStart, AnswersApart, setHk_ports]

theorem execHkEvaluate_apart (s : State) (hs : PortsApart s.ports) : AnswersApart (execHkEvaluate s) := by
  grind [execHkEvaluate, AnswersApart, foldl_apart, setHk_ports, judgeSensors_ports, judgeGroup_apart, judgeCharge_ports,
    judgeNvm_ports, judgeRef_ports, judgeId_ports, judgeHuReady_ports, ledgerRound_ports]

theorem execHkPublish_apart (s : State) (hs : PortsApart s.ports) : AnswersApart (execHkPublish s) := by
  grind [execHkPublish, AnswersApart, foldl_apart, fput_ports, fputS_ports, fputB_ports, inc_ports, setHk_ports, programTrust_ports,
    publishGroup_ports]

theorem execThrottleApply_apart (c : Fin 32) (s : State) (hs : PortsApart s.ports) : AnswersApart (execThrottleApply c s) := by
  grind [execThrottleApply, AnswersApart, setHk_ports, remute_apart]

theorem execHkCntClr_apart (s : State) (hs : PortsApart s.ports) : AnswersApart (execHkCntClr s) := by
  grind [execHkCntClr, AnswersApart, clearHkCnt_ports]

/-! #### Instructions of Time.lean -/

theorem execCycleBoundary_apart (s : State) (hs : PortsApart s.ports) : AnswersApart (execCycleBoundary s) := by
  grind [execCycleBoundary, AnswersApart, harnCycle_ports, setTime_ports, anchorAngles_ports, adoptCount_apart, countCycle_ports,
    takeImageCfg_ports, takeNewCfg_apart, fleetArrive_ports, fleetBoundary_ports, steerBoundary_apart]

theorem execAngleWrap_apart (s : State) (hs : PortsApart s.ports) : AnswersApart (execAngleWrap s) := by
  grind [execAngleWrap, AnswersApart, setHarn_ports, setTime_ports]

theorem execHoldExpire_apart (s : State) (hs : PortsApart s.ports) : AnswersApart (execHoldExpire s) := by
  grind [execHoldExpire, AnswersApart, raise_ports, setTb_ports, slewBoundary_apart]

theorem execMainsQualified_apart (s : State) (hs : PortsApart s.ports) : AnswersApart (execMainsQualified s) := by
  grind [execMainsQualified, AnswersApart, fput_ports]

theorem execMainsSample_apart (a b c n : BitVec 14) (fret : Nat) (s : State) (hs : PortsApart s.ports) :
    AnswersApart (execMainsSample a b c n fret s) := by
  grind [execMainsSample, AnswersApart, setTime_ports]

theorem execMainsSampleReady_apart (s : State) (hs : PortsApart s.ports) : AnswersApart (execMainsSampleReady s) := by
  grind [execMainsSampleReady, AnswersApart, setTime_ports]

theorem execTuningMiss_apart (s : State) (hs : PortsApart s.ports) : AnswersApart (execTuningMiss s) := by
  grind [execTuningMiss, AnswersApart, fput_ports, raise_ports, report_apart, setTime_ports, harnessLost_apart]

theorem execXtalFail_apart (s : State) (hs : PortsApart s.ports) : AnswersApart (execXtalFail s) := by
  grind [execXtalFail, AnswersApart, report_apart]

theorem execLfxtalFail_apart (s : State) (hs : PortsApart s.ports) : AnswersApart (execLfxtalFail s) := by
  grind [execLfxtalFail, AnswersApart, report_apart]

theorem execTimeFleetWrite_apart (v : Word) (s : State) (hs : PortsApart s.ports) : AnswersApart (execTimeFleetWrite v s) := by
  grind [execTimeFleetWrite, AnswersApart, writeFleet_ports]

theorem execFleetAngleApply_apart (s : State) (hs : PortsApart s.ports) : AnswersApart (execFleetAngleApply s) := by
  grind [execFleetAngleApply, AnswersApart, fput_ports, fputB_ports, setTime_ports]

theorem execTsLoCapture_apart (path : Path) (a : Nat) (s : State) (hs : PortsApart s.ports) : AnswersApart (execTsLoCapture path a s) := by
  grind [execTsLoCapture, AnswersApart, captureTs_ports]

theorem execPll_apart (l : LaneFields) (fret : Nat) (s : State) (hs : PortsApart s.ports) : AnswersApart (execPll l fret s) := by
  grind [execPll, AnswersApart, pllStep_ports, phaseJump_apart, judgeMains_apart, readMains_ports]

/-! #### Instructions of Capo.lean -/

theorem execShareAcc_apart (l : LaneFields) (_fret : Nat) (s : State) (hs : PortsApart s.ports) :
    AnswersApart (execShareAcc l _fret s) := by
  grind [execShareAcc, AnswersApart, shareAcc_ports]

theorem execSharePtrim_apart (l : LaneFields) (fret : Nat) (s : State) (hs : PortsApart s.ports) :
    AnswersApart (execSharePtrim l fret s) := by
  grind [execSharePtrim, AnswersApart, sharePtrim_ports]

theorem execShareApply_apart (l : LaneFields) (fret : Nat) (s : State) (hs : PortsApart s.ports) :
    AnswersApart (execShareApply l fret s) := by
  grind [execShareApply, AnswersApart, shareApply_ports]

theorem execCapoCtrim_apart (l : LaneFields) (fret : Nat) (s : State) (hs : PortsApart s.ports) :
    AnswersApart (execCapoCtrim l fret s) := by
  grind [execCapoCtrim, AnswersApart, courseTrim_ports]

theorem execCapoTerm_apart (l : LaneFields) (fret : Nat) (s : State) (hs : PortsApart s.ports) : AnswersApart (execCapoTerm l fret s) := by
  grind [execCapoTerm, AnswersApart, setCapo_ports]

theorem execCapoPower_apart (l : LaneFields) (fret : Nat) (s : State) (hs : PortsApart s.ports) :
    AnswersApart (execCapoPower l fret s) := by
  grind [execCapoPower, AnswersApart, wr_ports, setCapo_ports]

theorem execCapoCap_apart (l : LaneFields) (fret : Nat) (s : State) (hs : PortsApart s.ports) : AnswersApart (execCapoCap l fret s) := by
  grind [execCapoCap, AnswersApart, wr_ports, fput_ports, setCapo_ports]

theorem execCapoAlloc_apart (l : LaneFields) (fret : Nat) (s : State) (hs : PortsApart s.ports) :
    AnswersApart (execCapoAlloc l fret s) := by
  grind [execCapoAlloc, AnswersApart, judgeUnmet_apart, allocate_ports]

theorem execCapoWrite_apart (l : LaneFields) (fret : Nat) (s : State) (hs : PortsApart s.ports) :
    AnswersApart (execCapoWrite l fret s) := by
  grind [execCapoWrite, AnswersApart, foldl_apart, fputB_ports, updateLambda_ports]

theorem execBudgetDecreaseApply_apart (s : State) (hs : PortsApart s.ports) : AnswersApart (execBudgetDecreaseApply s) := by
  grind [execBudgetDecreaseApply, AnswersApart, applyBudget_ports]

theorem execHalfCycleBoundary_apart (second : Bool) (s : State) (hs : PortsApart s.ports) :
    AnswersApart (execHalfCycleBoundary second s) := by
  grind [execHalfCycleBoundary, AnswersApart, inc_ports, setCapo_ports, applyBudget_ports]

theorem execBudgetStale_apart (s : State) (hs : PortsApart s.ports) : AnswersApart (execBudgetStale s) := by
  grind [execBudgetStale, AnswersApart, fput_ports, raise_ports, report_apart, safeBudget_ports]

theorem execBudgetEmit_apart (s : State) (hs : PortsApart s.ports) : AnswersApart (execBudgetEmit s) := by
  grind [execBudgetEmit, AnswersApart, foldl_apart, sendDown_ports, nextSeq_ports, setCapo_ports, acceptBudget_ports]

theorem execBtxCommit_apart (s : State) (hs : PortsApart s.ports) : AnswersApart (execBtxCommit s) := by
  grind [execBtxCommit, AnswersApart, commitBudget_ports]

theorem execTrimClr_apart (s : State) (hs : PortsApart s.ports) : AnswersApart (execTrimClr s) := by
  grind [execTrimClr, AnswersApart, requestTrimClear_ports]

theorem execTrimClrApply_apart (s : State) (hs : PortsApart s.ports) : AnswersApart (execTrimClrApply s) := by
  grind [execTrimClrApply, AnswersApart, foldl_apart, wr_ports, setCapo_ports]

theorem execCapoCntClr_apart (s : State) (hs : PortsApart s.ports) : AnswersApart (execCapoCntClr s) := by
  grind [execCapoCntClr, AnswersApart, clearCapoCnt_ports]

theorem execHostcapWrite_apart (v : Word) (s : State) (hs : PortsApart s.ports) : AnswersApart (execHostcapWrite v s) := by
  grind [execHostcapWrite, AnswersApart, writeHostCap_ports]

theorem execHostcapApply_apart (s : State) (hs : PortsApart s.ports) : AnswersApart (execHostcapApply s) := by
  grind [execHostcapApply, AnswersApart, setCapo_ports]

theorem execCapoHoldup_apart (l : LaneFields) (fret : Nat) (s : State) (hs : PortsApart s.ports) :
    AnswersApart (execCapoHoldup l fret s) := by
  grind [execCapoHoldup, AnswersApart, setCapo_ports]

theorem execInputLossBegin_apart (fret : Nat) (s : State) (hs : PortsApart s.ports) : AnswersApart (execInputLossBegin fret s) := by
  grind [execInputLossBegin, AnswersApart, fput_ports, raise_ports, setTime_ports, mainsLost_apart, setCapo_ports, holdupRecord_ports]

theorem execInputLossEnd_apart (s : State) (hs : PortsApart s.ports) : AnswersApart (execInputLossEnd s) := by
  grind [execInputLossEnd, AnswersApart, fput_ports]

theorem execHoldupSwitch_apart (s : State) (hs : PortsApart s.ports) : AnswersApart (execHoldupSwitch s) := by
  grind [execHoldupSwitch, AnswersApart, fput_ports, inc_ports, report_apart, remute_apart, setCapo_ports, holdupRecord_ports,
    switchSelectors_ports]

theorem execHoldupReturn_apart (s : State) (hs : PortsApart s.ports) : AnswersApart (execHoldupReturn s) := by
  grind [execHoldupReturn, AnswersApart, fput_ports, raise_ports, remute_apart, holdupRecord_ports, switchSelectors_ports]

/-! #### Instructions of Feed.lean -/

theorem execFeedCmdWrite_apart (v : Word) (s : State) (hs : PortsApart s.ports) : AnswersApart (execFeedCmdWrite v s) := by
  grind [execFeedCmdWrite, AnswersApart, writeFeedCmd_ports]

theorem execFeedVsWindowChange_apart (f : Fin 8) (vs : Rat) (held : Nat) (s : State) (hs : PortsApart s.ports) :
    AnswersApart (execFeedVsWindowChange f vs held s) := by
  grind [execFeedVsWindowChange, AnswersApart, feedSense_ports, judgeWindow_apart]

theorem execFeedInsdlyExpire_apart (f : Fin 8) (s : State) (hs : PortsApart s.ports) : AnswersApart (execFeedInsdlyExpire f s) := by
  grind [execFeedInsdlyExpire, AnswersApart, feedClose_ports]

theorem execFeedRatioHeld_apart (x : FeedDiff) (s : State) (hs : PortsApart s.ports) : AnswersApart (execFeedRatioHeld x s) := by
  obtain ⟨f, vs, vl, held⟩ := x
  grind [execFeedRatioHeld, AnswersApart, feedSense_ports, setFeed_ports, feedOut_ports]

theorem execFeedPovlExpire_apart (f : Fin 8) (s : State) (hs : PortsApart s.ports) : AnswersApart (execFeedPovlExpire f s) := by
  grind [execFeedPovlExpire, AnswersApart, feedOn_ports]

theorem execFeedPctoExpire_apart (f : Fin 8) (s : State) (hs : PortsApart s.ports) : AnswersApart (execFeedPctoExpire f s) := by
  grind [execFeedPctoExpire, AnswersApart, raise_ports, feedFault_ports, report_apart]

theorem execFeedOcTrip_apart (x : FeedLevel) (s : State) (hs : PortsApart s.ports) : AnswersApart (execFeedOcTrip x s) := by
  obtain ⟨f, is, clocks⟩ := x
  grind [execFeedOcTrip, AnswersApart, feedSense_ports, setFeed_ports, feedTrip_apart, countTrip_ports, report_apart]

theorem execFeedRetryExpire_apart (f : Fin 8) (s : State) (hs : PortsApart s.ports) : AnswersApart (execFeedRetryExpire f s) := by
  grind [execFeedRetryExpire, AnswersApart, feedQualify_ports]

theorem execFeedRholdExpire_apart (f : Fin 8) (s : State) (hs : PortsApart s.ports) : AnswersApart (execFeedRholdExpire f s) := by
  grind [execFeedRholdExpire, AnswersApart, fput_ports, setFeed_ports]

theorem execFeedRevBlock_apart (x : FeedDiff) (s : State) (hs : PortsApart s.ports) : AnswersApart (execFeedRevBlock x s) := by
  obtain ⟨f, vs, vl, clocks⟩ := x
  grind [execFeedRevBlock, AnswersApart, feedSense_ports, setFeed_ports, feedOut_ports, putFeedState_ports, raise_ports, inc_ports]

theorem execFeedFwdUnblock_apart (x : FeedDiff) (s : State) (hs : PortsApart s.ports) : AnswersApart (execFeedFwdUnblock x s) := by
  obtain ⟨f, vs, vl, held⟩ := x
  grind [execFeedFwdUnblock, AnswersApart, feedSense_ports, feedOn_ports]

theorem execFeedDischargeEnd_apart (f : Fin 8) (s : State) (hs : PortsApart s.ports) : AnswersApart (execFeedDischargeEnd f s) := by
  grind [execFeedDischargeEnd, AnswersApart, putFeedState_ports, refreshFeed_ports]

theorem execFeedShortCheckResume_apart (f : Fin 8) (s : State) (hs : PortsApart s.ports) : AnswersApart (execFeedShortCheckResume f s) := by
  grind [execFeedShortCheckResume, AnswersApart, setFeed_ports]

theorem execFeedShortDetect_apart (x : FeedLevel) (s : State) (hs : PortsApart s.ports) : AnswersApart (execFeedShortDetect x s) := by
  obtain ⟨f, vl, held⟩ := x
  grind [execFeedShortDetect, AnswersApart, feedSense_ports, raise_ports, fput_ports, feedFault_ports, report_apart]

theorem execFeedVlpresInactive_apart (x : FeedLevel) (s : State) (hs : PortsApart s.ports) : AnswersApart (execFeedVlpresInactive x s) := by
  obtain ⟨f, vl, held⟩ := x
  grind [execFeedVlpresInactive, AnswersApart, feedSense_ports]

theorem execFeedMonitorConv_apart (f : Fin 8) (j : Fin 3) (v : Rat) (s : State) (hs : PortsApart s.ports) :
    AnswersApart (execFeedMonitorConv f j v s) := by
  unfold execFeedMonitorConv
  split
  · exact answersApart_next (apart_of_ports hs (fput_ports ..))
  · exact answersApart_next hs

theorem execFeedCntClr_apart (f : Fin 8) (s : State) (hs : PortsApart s.ports) : AnswersApart (execFeedCntClr f s) := by
  grind [execFeedCntClr, AnswersApart, clearFeedCnt_ports]

/-! #### Instructions of Queues.lean -/

theorem execQueueSpaceFreed_apart (q : Fin 64) (s : State) (hs : PortsApart s.ports) : AnswersApart (execQueueSpaceFreed q s) := by
  grind [execQueueSpaceFreed, AnswersApart, setQueue_ports, syncQueue_ports]

theorem execQueuePop_apart (path : Path) (q : Fin 64) (s : State) (hs : PortsApart s.ports) : AnswersApart (execQueuePop path q s) := by
  unfold execQueuePop
  split
  · exact answersApart_next hs
  · split
    · next h => exact answersApart_next (apart_of_ports hs (readQueue_ports h))
    · exact answersApart_next (ite_apart hs hs)

theorem execQueueWmWrite_apart (q : Fin 64) (v : Word) (s : State) (hs : PortsApart s.ports) : AnswersApart (execQueueWmWrite q v s) := by
  grind [execQueueWmWrite, AnswersApart, writeQueueWm_ports]

theorem execQueueFlush_apart (q : Fin 64) (s : State) (hs : PortsApart s.ports) : AnswersApart (execQueueFlush q s) := by
  grind [execQueueFlush, AnswersApart, requestFlush_ports]

theorem execQueueDropClr_apart (q : Fin 64) (s : State) (hs : PortsApart s.ports) : AnswersApart (execQueueDropClr q s) := by
  grind [execQueueDropClr, AnswersApart, clearQueueDrop_ports]

theorem execQueueFlushApply_apart (q : Fin 64) (s : State) (hs : PortsApart s.ports) : AnswersApart (execQueueFlushApply q s) := by
  grind [execQueueFlushApply, AnswersApart, setQueue_ports, syncQueue_ports]

theorem execQpush_apart (l : LaneFields) (fret : Nat) (s : State) (hs : PortsApart s.ports) : AnswersApart (execQpush l fret s) := by
  grind [execQpush, AnswersApart, raise_ports, inc_ports, pushWord_ports]

/-! #### Instructions of Sched.lean -/

theorem execSchedSwapGo_apart (s : State) (hs : PortsApart s.ports) : AnswersApart (execSchedSwapGo s) := by
  grind [execSchedSwapGo, AnswersApart, requestSwap_ports]

theorem execBankExchange_apart (s : State) (hs : PortsApart s.ports) : AnswersApart (execBankExchange s) := by
  grind [execBankExchange, AnswersApart, foldl_apart, raise_ports, inc_ports, setSched_ports, exchangeLoop_apart]

theorem execSchedVsel_apart (v : Word) (s : State) (hs : PortsApart s.ports) : AnswersApart (execSchedVsel v s) := by
  grind [execSchedVsel, AnswersApart, requestVariant_apart]

theorem execVariantSwitch_apart (s : State) (hs : PortsApart s.ports) : AnswersApart (execVariantSwitch s) := by
  grind [execVariantSwitch, AnswersApart, fput_ports, raise_ports, refreshPorts_apart, pushRecord_ports, refuseVariant_apart,
    setWindows_ports]

theorem execEngineStart_apart (s : State) (hs : PortsApart s.ports) : AnswersApart (execEngineStart s) := by
  grind [execEngineStart, AnswersApart, pllStart_ports, programStart_apart]

theorem execEngineMemWrite_apart (addr : BitVec 32) (v : Word) (s : State) (hs : PortsApart s.ports) :
    AnswersApart (execEngineMemWrite addr v s) := by
  grind [execEngineMemWrite, AnswersApart, writeEngine_ports]

theorem execQdropClr_apart (s : State) (hs : PortsApart s.ports) : AnswersApart (execQdropClr s) := by
  grind [execQdropClr, AnswersApart, clearQdrop_ports]

/-! #### Instructions of Round.lean -/

theorem execRoundBoundary_apart (clkKHz : Nat) (pllLocked : Bool) (s : State) (hs : PortsApart s.ports) :
    AnswersApart (execRoundBoundary clkKHz pllLocked s) := by
  grind [execRoundBoundary, AnswersApart, foldl_apart, battRound_ports, portsRound_apart, regionRound_ports, muteRound_ports,
    levelsApply_ports, trimRefs_ports, clockMonitor_apart, nextRound_ports, roundSchedule_ports, vselRound_ports, levelsArrive_ports,
    capoRound_ports]

/-! #### Instructions of Seq.lean -/

theorem execSeqUp_apart (v : Word) (s : State) (hs : PortsApart s.ports) : AnswersApart (execSeqUp v s) := by
  grind [execSeqUp, AnswersApart, writeSeqCmd_ports]

theorem execSeqDown_apart (v : Word) (s : State) (hs : PortsApart s.ports) : AnswersApart (execSeqDown v s) := by
  grind [execSeqDown, AnswersApart, writeSeqCmd_ports]

theorem execSeqDwellEnd_apart (s : State) (hs : PortsApart s.ports) : AnswersApart (execSeqDwellEnd s) := by
  grind [execSeqDwellEnd, AnswersApart, beginUp_ports]

theorem execSeqDlyExpire_apart (r : Fin 16) (s : State) (hs : PortsApart s.ports) : AnswersApart (execSeqDlyExpire r s) := by
  grind [execSeqDlyExpire, AnswersApart, putRail_ports, setSeq_ports]

theorem execSeqRailGood_apart (x : RailLevel) (s : State) (hs : PortsApart s.ports) : AnswersApart (execSeqRailGood x s) := by
  obtain ⟨r, x⟩ := x
  grind [execSeqRailGood, AnswersApart, senseRail_ports, takeUp_ports, putRail_ports]

theorem execSeqRiseTimeout_apart (r : Fin 16) (s : State) (hs : PortsApart s.ports) : AnswersApart (execSeqRiseTimeout r s) := by
  grind [execSeqRiseTimeout, AnswersApart, riseFailed_apart]

theorem execSeqRailOver_apart (x : RailLevel) (s : State) (hs : PortsApart s.ports) : AnswersApart (execSeqRailOver x s) := by
  obtain ⟨r, x⟩ := x
  grind [execSeqRailOver, AnswersApart, senseRail_ports, riseFailed_apart]

theorem execSeqDndlyExpire_apart (r : Fin 16) (s : State) (hs : PortsApart s.ports) : AnswersApart (execSeqDndlyExpire r s) := by
  grind [execSeqDndlyExpire, AnswersApart, putRail_ports, setSeq_ports]

theorem execSeqRailFallen_apart (x : RailLevel) (s : State) (hs : PortsApart s.ports) : AnswersApart (execSeqRailFallen x s) := by
  obtain ⟨r, x⟩ := x
  grind [execSeqRailFallen, AnswersApart, senseRail_ports, takeDown_ports, putRail_ports]

theorem execSeqFallTimeout_apart (r : Fin 16) (s : State) (hs : PortsApart s.ports) : AnswersApart (execSeqFallTimeout r s) := by
  grind [execSeqFallTimeout, AnswersApart, raise_ports, fputBit_ports, putRail_ports, takeDown_ports, report_apart]

theorem execSeqRailCollapse_apart (r : Fin 16) (x : RailSense) (s : State) (hs : PortsApart s.ports) :
    AnswersApart (execSeqRailCollapse r x s) := by
  grind [execSeqRailCollapse, AnswersApart, senseRail_ports, railCollapsed_apart]

theorem execSeqCntClr_apart (s : State) (hs : PortsApart s.ports) : AnswersApart (execSeqCntClr s) := by
  grind [execSeqCntClr, AnswersApart, clearSeqCnt_ports]

/-! #### Instructions of Faults.lean -/

theorem execFaultClr_apart (v : Word) (s : State) (hs : PortsApart s.ports) : AnswersApart (execFaultClr v s) := by
  grind [execFaultClr, AnswersApart, writeFaultClr_ports]

theorem execFaultClearApply_apart (engine xtal : Bool) (s : State) (hs : PortsApart s.ports) :
    AnswersApart (execFaultClearApply engine xtal s) := by
  grind [execFaultClearApply, AnswersApart, foldl_apart, refreshPorts_apart, refreshFaultStatus_ports, setFlt_ports, clearEntry_ports]

theorem execFaultCntClr_apart (s : State) (hs : PortsApart s.ports) : AnswersApart (execFaultCntClr s) := by
  grind [execFaultCntClr, AnswersApart, clearFaultCnt_ports]

theorem execAliveToggle_apart (s : State) (hs : PortsApart s.ports) : AnswersApart (execAliveToggle s) := by
  grind [execAliveToggle, AnswersApart, fputB_ports, setFlt_ports]

theorem execHwdAns_apart (v : Word) (s : State) (hs : PortsApart s.ports) : AnswersApart (execHwdAns v s) := by
  grind [execHwdAns, AnswersApart, writeHwdAns_apart]

theorem execHwdCloseExpire_apart (s : State) (hs : PortsApart s.ports) : AnswersApart (execHwdCloseExpire s) := by
  grind [execHwdCloseExpire, AnswersApart, setFlt_ports, hwdFail_apart]

theorem execHwdCheckin_apart (v : Word) (s : State) (hs : PortsApart s.ports) : AnswersApart (execHwdCheckin v s) := by
  grind [execHwdCheckin, AnswersApart, writeHwdCheckin_ports]

theorem execHwdEnable_apart (s : State) (hs : PortsApart s.ports) : AnswersApart (execHwdEnable s) := by
  grind [execHwdEnable, AnswersApart, writeHwdCtrl_ports]

theorem execHwdLock_apart (s : State) (hs : PortsApart s.ports) : AnswersApart (execHwdLock s) := by
  grind [execHwdLock, AnswersApart, writeHwdCtrl_ports]

theorem execHwdKey_apart (v : Word) (s : State) (hs : PortsApart s.ports) : AnswersApart (execHwdKey v s) := by
  grind [execHwdKey, AnswersApart, writeHwdKey_ports]

theorem execFwdExpire_apart (pc : Word) (last : BitVec 64) (s : State) (hs : PortsApart s.ports) :
    AnswersApart (execFwdExpire pc last s) := by
  grind [execFwdExpire, AnswersApart, wr_ports, fput_ports, raise_ports, wr64_ports, ledgerAdd_ports, pushRecord_ports, report_apart,
    setFlt_ports]

/-! #### Instructions of HarnLink.lean -/

theorem execFrameForward_apart (p : HPort) (f : RxFrame) (s : State) (hs : PortsApart s.ports) : AnswersApart (execFrameForward p f s) := by
  unfold execFrameForward
  split
  · exact answersApart_next hs
  · split
    · next h => exact answersApart_next (apart_of_ports hs (judgeFrame_done_ports h))
    · next h => exact answersApart_next (apart_of_ports hs ((sendNak_ports ..).trans (judgeFrame_consume_ports h)))

theorem execRspFrame_apart (p : HPort) (f : RxFrame) (s : State) (hs : PortsApart s.ports) : AnswersApart (execRspFrame p f s) :=
  answersApart_next (consumeFrame_apart s p f _ (fun _ _ ht => apart_of_ports ht (takeRx_ports ..)) hs)

theorem execEvtFrame_apart (p : HPort) (f : RxFrame) (s : State) (hs : PortsApart s.ports) : AnswersApart (execEvtFrame p f s) := by
  unfold execEvtFrame
  refine answersApart_next ?_
  split
  · split
    · next h => exact apart_of_ports hs (judgeFrame_done_ports h)
    · next t h =>
      have ht : PortsApart t.ports := apart_of_ports hs (judgeFrame_consume_ports h)
      split
      · next hr => exact ite_apart (apart_of_ports ht (roleRefused_ports hr)) (apart_of_ports ht (toRxQueue_ports ..))
      · grind [takeRx_ports, ringBreak_ports, farBreak_ports]
  · exact hs

theorem execNakFrame_apart (p : HPort) (f : RxFrame) (s : State) (hs : PortsApart s.ports) : AnswersApart (execNakFrame p f s) :=
  answersApart_next (consumeFrame_apart s p f _ (fun _ _ ht => apart_of_ports ht (takeRx_ports ..)) hs)

theorem execBudgetFrame_apart (p : HPort) (f : RxFrame) (s : State) (hs : PortsApart s.ports) : AnswersApart (execBudgetFrame p f s) := by
  unfold execBudgetFrame
  split
  · split
    · next h => exact answersApart_next (apart_of_ports hs (judgeFrame_done_ports h))
    · exact answersApart_next hs
  · refine answersApart_next (consumeFrame_apart s p f _ (fun t x ht => ?_) hs)
    exact ite_apart (apart_of_ports ht (sendNak_ports ..)) (ite_apart ht (judgeBudget_apart _ _ ht))

theorem execRoleFrame_apart (p : HPort) (f : RxFrame) (s : State) (hs : PortsApart s.ports) : AnswersApart (execRoleFrame p f s) :=
  answersApart_next (consumeFrame_apart s p f _ (fun _ _ ht => apart_of_ports ht (takeRole_ports ..)) hs)

theorem execRootepochWrite_apart (v : Word) (s : State) (hs : PortsApart s.ports) : AnswersApart (execRootepochWrite v s) := by
  grind [execRootepochWrite, AnswersApart, writeRootEpoch_ports]

theorem execHopProbeStart_apart (s : State) (hs : PortsApart s.ports) : AnswersApart (execHopProbeStart s) := by
  grind [execHopProbeStart, AnswersApart, startProbe_ports]

theorem execEnumProbe_apart (p : HPort) (f : RxFrame) (s : State) (hs : PortsApart s.ports) : AnswersApart (execEnumProbe p f s) :=
  answersApart_next (consumeFrame_apart s p f _ (fun _ _ ht => apart_of_ports ht (sendEnum_ports ..)) hs)

theorem execEnumEcho_apart (p : HPort) (f : RxFrame) (d : Int) (s : State) (hs : PortsApart s.ports) :
    AnswersApart (execEnumEcho p f d s) :=
  answersApart_next (consumeFrame_apart s p f _ (fun _ _ ht => ite_apart (apart_of_ports ht (setHarn_ports ..)) ht) hs)

theorem execHopProbeDone_apart (lat : BitVec 16) (s : State) (hs : PortsApart s.ports) : AnswersApart (execHopProbeDone lat s) := by
  grind [execHopProbeDone, AnswersApart, fput_ports, raise_ports, reportCorrected_ports, setHarn_ports]

theorem execHarnessReprobe_apart (s : State) (hs : PortsApart s.ports) : AnswersApart (execHarnessReprobe s) := by
  grind [execHarnessReprobe, AnswersApart, harnReprobe_ports]

theorem execHarnessEnum_apart (s : State) (hs : PortsApart s.ports) : AnswersApart (execHarnessEnum s) := by
  grind [execHarnessEnum, AnswersApart, startEnum_ports]

theorem execEnumAssign_apart (p : HPort) (f : RxFrame) (s : State) (hs : PortsApart s.ports) : AnswersApart (execEnumAssign p f s) :=
  answersApart_next (consumeFrame_apart s p f _ (fun _ _ ht => apart_of_ports ht (takeAssign_ports ..)) hs)

theorem execEnumDone_apart (p : HPort) (f : RxFrame) (s : State) (hs : PortsApart s.ports) : AnswersApart (execEnumDone p f s) :=
  answersApart_next (consumeFrame_apart s p f _ (fun _ _ ht => apart_of_ports ht (enumAnswer_ports ..)) hs)

theorem execEnumRing_apart (p : HPort) (f : RxFrame) (s : State) (hs : PortsApart s.ports) : AnswersApart (execEnumRing p f s) :=
  answersApart_next (consumeFrame_apart s p f _ (fun _ _ ht => apart_of_ports ht (enumAnswer_ports ..)) hs)

theorem execHarnessLinkUp_apart (p : HPort) (s : State) (hs : PortsApart s.ports) : AnswersApart (execHarnessLinkUp p s) := by
  grind [execHarnessLinkUp, AnswersApart, startProbe_ports, startEnum_ports, putLink_ports, ringHealed_ports]

theorem execHarnessLinkDown_apart (p : HPort) (s : State) (hs : PortsApart s.ports) : AnswersApart (execHarnessLinkDown p s) := by
  grind [execHarnessLinkDown, AnswersApart, linkDown_ports, dueCut_ports]

theorem execPauseReceived_apart (p : HPort) (s : State) (hs : PortsApart s.ports) : AnswersApart (execPauseReceived p s) := by
  grind [execPauseReceived, AnswersApart, setHarn_ports]

theorem execResumeReceived_apart (p : HPort) (s : State) (hs : PortsApart s.ports) : AnswersApart (execResumeReceived p s) := by
  grind [execResumeReceived, AnswersApart, setHarn_ports, flushPort_ports, dueCut_ports]

theorem execHarnessGuardOpen_apart (p : HPort) (s : State) (hs : PortsApart s.ports) : AnswersApart (execHarnessGuardOpen p s) := by
  grind [execHarnessGuardOpen, AnswersApart, setHarn_ports]

theorem execHarnessGuardClose_apart (p : HPort) (s : State) (hs : PortsApart s.ports) : AnswersApart (execHarnessGuardClose p s) := by
  grind [execHarnessGuardClose, AnswersApart, closeGuard_ports, dueCut_ports]

theorem execTuningFrame_apart (p : HPort) (f : RxFrame) (sof : Arrival) (late : Vector Bool 3) (s : State) (hs : PortsApart s.ports) :
    AnswersApart (execTuningFrame p f sof late s) := by
  unfold execTuningFrame
  split
  · split
    · next h => exact answersApart_next (apart_of_ports hs ((dueCut_ports _).trans (judgeFrame_done_ports h)))
    · next t h =>
      have ht : PortsApart t.ports := apart_of_ports hs (judgeFrame_consume_ports h)
      exact answersApart_next (apart_of_ports (ite_apart ht (apart_of_ports ht (takeTuning_ports ..))) (dueCut_ports _))
  · exact answersApart_next hs

theorem execTuningEmit_apart (sub : Nat) (s : State) (hs : PortsApart s.ports) : AnswersApart (execTuningEmit sub s) := by
  grind [execTuningEmit, AnswersApart, foldl_apart, setHarn_ports, sendDown_ports, nextSeq_ports, closeGuard_ports, dueCut_ports]

theorem execHarnessTxGo_apart (s : State) (hs : PortsApart s.ports) : AnswersApart (execHarnessTxGo s) := by
  grind [execHarnessTxGo, AnswersApart, harnTxGo_ports]

theorem execHarnessCntClr_apart (s : State) (hs : PortsApart s.ports) : AnswersApart (execHarnessCntClr s) := by
  grind [execHarnessCntClr, AnswersApart, clearHarnCnt_ports]

/-! #### Instructions of Recorder.lean -/

theorem execRecBlockWriteStart_apart (s : State) (hs : PortsApart s.ports) : AnswersApart (execRecBlockWriteStart s) := by
  grind [execRecBlockWriteStart, AnswersApart, syncSnaps_ports, startSaddlebag_ports, startSnapshot_ports, startCommit_ports,
    startRefresh_ports, served_ports]

theorem execRecBlockWriteDone_apart (ok : Bool) (s : State) (hs : PortsApart s.ports) : AnswersApart (execRecBlockWriteDone ok s) := by
  grind [execRecBlockWriteDone, AnswersApart, finishJob_ports]

theorem execRecFreeze_apart (s : State) (hs : PortsApart s.ports) : AnswersApart (execRecFreeze s) := by
  grind [execRecFreeze, AnswersApart, recFreeze_ports]

theorem execRecThaw_apart (s : State) (hs : PortsApart s.ports) : AnswersApart (execRecThaw s) := by
  grind [execRecThaw, AnswersApart, recThaw_ports]

theorem execRecCommit_apart (s : State) (hs : PortsApart s.ports) : AnswersApart (execRecCommit s) := by
  grind [execRecCommit, AnswersApart, askCommit_ports]

theorem execRecNonceNew_apart (s : State) (hs : PortsApart s.ports) : AnswersApart (execRecNonceNew s) := by
  grind [execRecNonceNew, AnswersApart, recNonceNew_ports]

theorem execRecNote_apart (s : State) (hs : PortsApart s.ports) : AnswersApart (execRecNote s) := by
  grind [execRecNote, AnswersApart, recNote_ports]

theorem execRecCntClr_apart (s : State) (hs : PortsApart s.ports) : AnswersApart (execRecCntClr s) := by
  grind [execRecCntClr, AnswersApart, recCntClr_ports]

theorem execLedgerCommitDue_apart (s : State) (hs : PortsApart s.ports) : AnswersApart (execLedgerCommitDue s) := by
  grind [execLedgerCommitDue, AnswersApart, setRec_ports, askCommit_ports]

theorem execRecClear_apart (v : Word) (s : State) (hs : PortsApart s.ports) : AnswersApart (execRecClear v s) := by
  grind [execRecClear, AnswersApart, writeRecClear_ports]

theorem execRecScrubErase_apart (snapshot : Bool) (s : State) (hs : PortsApart s.ports) : AnswersApart (execRecScrubErase snapshot s) := by
  grind [execRecScrubErase, AnswersApart, served_ports, scrubSlot_ports, eraseSnapSlot_ports]

theorem execReplicaRefresh_apart (s : State) (hs : PortsApart s.ports) : AnswersApart (execReplicaRefresh s) := by
  grind [execReplicaRefresh, AnswersApart, refreshReplica_ports, setRec_ports]

theorem execSnapshotCapture_apart (s : State) (hs : PortsApart s.ports) : AnswersApart (execSnapshotCapture s) := by
  grind [execSnapshotCapture, AnswersApart, syncSnaps_ports, setRec_ports]

theorem execRecWallTick_apart (s : State) (hs : PortsApart s.ports) : AnswersApart (execRecWallTick s) := by
  grind [execRecWallTick, AnswersApart, wr_ports, latchWake_ports]

/-! #### Instructions of Trust.lean -/

theorem execTrustActivate_apart (s : State) (hs : PortsApart s.ports) : AnswersApart (execTrustActivate s) := by
  grind [execTrustActivate, AnswersApart, hostActivate_ports]

theorem execTrustCancelFw_apart (s : State) (hs : PortsApart s.ports) : AnswersApart (execTrustCancelFw s) := by
  grind [execTrustCancelFw, AnswersApart, cancelAct_ports]

theorem execTrustCancelSt_apart (s : State) (hs : PortsApart s.ports) : AnswersApart (execTrustCancelSt s) := by
  grind [execTrustCancelSt, AnswersApart, cancelAct_ports]

theorem execStgPiece_apart (v : Word) (s : State) (hs : PortsApart s.ports) : AnswersApart (execStgPiece v s) := by
  grind [execStgPiece, AnswersApart, writeStgCtrl_ports]

theorem execStgEraseDone_apart (s : State) (hs : PortsApart s.ports) : AnswersApart (execStgEraseDone s) := by
  grind [execStgEraseDone, AnswersApart, nvmErase_ports, putStaged_ports, yieldStaging_ports]

theorem execStgPageDone_apart (ok : Bool) (s : State) (hs : PortsApart s.ports) : AnswersApart (execStgPageDone ok s) := by
  grind [execStgPageDone, AnswersApart, nvmSpoil_ports, stagingFailed_ports, pageDone_ports]

theorem execActivationDue_apart (s : State) (hs : PortsApart s.ports) : AnswersApart (execActivationDue s) := by
  grind [execActivationDue, AnswersApart, actOn_apart]

theorem execStructLoadDone_apart (s : State) (hs : PortsApart s.ports) : AnswersApart (execStructLoadDone s) := by
  grind [execStructLoadDone, AnswersApart, loadStructure_apart, setTrust_ports, endActivation_ports, swapRoles_ports, putMeas_ports,
    endStagingOf_ports, activationRefused_ports]

theorem execStructProgramStart_apart (s : State) (hs : PortsApart s.ports) : AnswersApart (execStructProgramStart s) := by
  grind [execStructProgramStart, AnswersApart, refreshPorts_apart, pllStart_ports, programStart_apart, setTrust_ports]

theorem execTrustReport_apart (s : State) (hs : PortsApart s.ports) : AnswersApart (execTrustReport s) := by
  grind [execTrustReport, AnswersApart, hostReport_apart]

theorem execKeyWriteOem_apart (slot : Fin 4) (s : State) (hs : PortsApart s.ports) : AnswersApart (execKeyWriteOem slot s) := by
  grind [execKeyWriteOem, AnswersApart, keyWriteOem_ports]

theorem execKeyRevoke_apart (slot : Fin 4) (s : State) (hs : PortsApart s.ports) : AnswersApart (execKeyRevoke slot s) := by
  grind [execKeyRevoke, AnswersApart, keyRevoke_ports]

theorem execKeyWriteClear_apart (s : State) (hs : PortsApart s.ports) : AnswersApart (execKeyWriteClear s) := by
  grind [execKeyWriteClear, AnswersApart, keyWriteClear_ports]

theorem execKeyLifecycleProd_apart (slot : Fin 4) (s : State) (hs : PortsApart s.ports) : AnswersApart (execKeyLifecycleProd slot s) := by
  grind [execKeyLifecycleProd, AnswersApart, keyLifecycle_ports]

theorem execTrustNonceNew_apart (s : State) (hs : PortsApart s.ports) : AnswersApart (execTrustNonceNew s) := by
  grind [execTrustNonceNew, AnswersApart, trustNonceNew_ports]

/-! #### Instructions of Power.lean -/

theorem execResetEnd_apart (addr : BitVec 3) (s : State) (hs : PortsApart s.ports) : AnswersApart (execResetEnd addr s) := by
  grind [execResetEnd, AnswersApart, setPower_ports, resumeCount_ports, enterBoot_apart, sampleAddr_ports]

theorem execGlobalArm_apart (v : Word) (s : State) (hs : PortsApart s.ports) : AnswersApart (execGlobalArm v s) := by
  grind [execGlobalArm, AnswersApart, writeGlobalArm_ports]

theorem execArmApply_apart (s : State) (hs : PortsApart s.ports) : AnswersApart (execArmApply s) := by
  grind [execArmApply, AnswersApart, abandonArm_ports, setPower_ports, arm_apart]

theorem execBootComplete_apart (autoarm : Bool) (s : State) (hs : PortsApart s.ports) : AnswersApart (execBootComplete autoarm s) := by
  grind [execBootComplete, AnswersApart, bootWork_apart, endBoot_apart]

theorem execDisarm_apart (s : State) (hs : PortsApart s.ports) : AnswersApart (execDisarm s) := by
  grind [execDisarm, AnswersApart, doDisarm_apart]

theorem execTestEnter_apart (s : State) (hs : PortsApart s.ports) : AnswersApart (execTestEnter s) := by
  grind [execTestEnter, AnswersApart, doTestEnter_apart]

theorem execTestExit_apart (s : State) (hs : PortsApart s.ports) : AnswersApart (execTestExit s) := by
  grind [execTestExit, AnswersApart, doTestExit_apart]

theorem execHibernateRequest_apart (s : State) (hs : PortsApart s.ports) : AnswersApart (execHibernateRequest s) := by
  grind [execHibernateRequest, AnswersApart, doHibernate_ports]

theorem execSoftReset_apart (s : State) (hs : PortsApart s.ports) : AnswersApart (execSoftReset s) := by
  grind [execSoftReset, AnswersApart, doSoftReset_apart]

theorem execHibernateEntered_apart (s : State) (hs : PortsApart s.ports) : AnswersApart (execHibernateEntered s) := by
  grind [execHibernateEntered, AnswersApart, foldl_apart, setDev_ports, changeState_apart, battAdvance_ports, setTime_ports,
    setPower_ports, clearVolatile_apart]

theorem execHibernateWake_apart (s : State) (hs : PortsApart s.ports) : AnswersApart (execHibernateWake s) := by
  grind [execHibernateWake, AnswersApart, foldl_apart, wr_ports, fput_ports, setPower_ports, resumeCount_ports, enterBoot_apart,
    battWake_ports]

theorem execTwAddressWake_apart (s : State) (hs : PortsApart s.ports) : AnswersApart (execTwAddressWake s) := by
  grind [execTwAddressWake, AnswersApart, latchWake_ports]

theorem execHarnessActivityWake_apart (s : State) (hs : PortsApart s.ports) : AnswersApart (execHarnessActivityWake s) := by
  grind [execHarnessActivityWake, AnswersApart, latchWake_ports]

theorem execWakePin_apart (level : Bool) (s : State) (hs : PortsApart s.ports) : AnswersApart (execWakePin level s) := by
  grind [execWakePin, AnswersApart, raise_ports, latchWake_ports, setPower_ports]

theorem execPowerOn_apart (s : State) (hs : PortsApart s.ports) : AnswersApart (execPowerOn s) := by
  grind [execPowerOn, AnswersApart, setPower_ports, beginReset_apart]

theorem execVkaLoss_apart (s : State) (_hs : PortsApart s.ports) : AnswersApart (execVkaLoss s) := by
  grind [execVkaLoss, AnswersApart, setPower_ports, beginReset_apart]

theorem execRstNAssert_apart (s : State) (hs : PortsApart s.ports) : AnswersApart (execRstNAssert s) := by
  grind [execRstNAssert, AnswersApart, latchWake_ports, setPower_ports, beginReset_apart]

theorem execBrownout_apart (s : State) (hs : PortsApart s.ports) : AnswersApart (execBrownout s) := by
  grind [execBrownout, AnswersApart, setPower_ports, beginReset_apart, collapse_ports]

theorem execKaTick_apart (volts : KaInputs) (s : State) (hs : PortsApart s.ports) : AnswersApart (execKaTick volts s) := by
  grind [execKaTick, AnswersApart, foldl_apart, fput_ports, setPower_ports]

theorem execKaLatchSet_apart (k : Fin 6) (s : State) (hs : PortsApart s.ports) : AnswersApart (execKaLatchSet k s) := by
  grind [execKaLatchSet, AnswersApart, fputBit_ports, latchWake_ports, setPower_ports]

theorem execKaLatchClear_apart (v : Word) (s : State) (hs : PortsApart s.ports) : AnswersApart (execKaLatchClear v s) := by
  grind [execKaLatchClear, AnswersApart, writeKaLatch_ports]

theorem execVioUndervoltage_apart (x : BankLevel) (s : State) (hs : PortsApart s.ports) : AnswersApart (execVioUndervoltage x s) := by
  obtain ⟨b, v, held⟩ := x
  grind [execVioUndervoltage, AnswersApart, setPower_ports, report_apart]

theorem execVioAboveThreshold_apart (x : BankLevel) (s : State) (hs : PortsApart s.ports) : AnswersApart (execVioAboveThreshold x s) := by
  obtain ⟨b, v, held⟩ := x
  grind [execVioAboveThreshold, AnswersApart, setPower_ports]

/-! #### Instructions of Test.lean -/

theorem execTestOosWrite_apart (v : Word) (s : State) (hs : PortsApart s.ports) : AnswersApart (execTestOosWrite v s) := by
  grind [execTestOosWrite, AnswersApart, writeOos_ports]

theorem execOosApply_apart (s : State) (hs : PortsApart s.ports) : AnswersApart (execOosApply s) := by
  grind [execOosApply, AnswersApart, setTest_ports, applyOos_apart]

theorem execPortAdcCheck_apart (p : Fin 32) (c1 c2 : Int) (u : State) (hs : PortsApart u.ports) :
    AnswersApart (execPortAdcCheck p c1 c2 u) := by
  grind [execPortAdcCheck, AnswersApart, fputBit_ports, setTest_ports, checkFailed_apart]

theorem execCmpSweepGo_apart (v : Word) (s : State) (hs : PortsApart s.ports) : AnswersApart (execCmpSweepGo v s) := by
  grind [execCmpSweepGo, AnswersApart, writeCmpCtrl_ports]

theorem execCmpSweepStep_apart (seen : Rat) (s : State) (hs : PortsApart s.ports) : AnswersApart (execCmpSweepStep seen s) := by
  grind [execCmpSweepStep, AnswersApart, setTest_ports, endSweep_apart]

theorem execPwmCaptureGo_apart (v : Word) (s : State) (hs : PortsApart s.ports) : AnswersApart (execPwmCaptureGo v s) := by
  grind [execPwmCaptureGo, AnswersApart, writePwmCtrl_ports]

theorem execPwmCaptureDone_apart (edges : List EdgeRec) (s : State) (hs : PortsApart s.ports) :
    AnswersApart (execPwmCaptureDone edges s) := by
  grind [execPwmCaptureDone, AnswersApart, wr_ports, raise_ports, reportCorrected_ports, setTest_ports, putEdges_ports]

theorem execSramScrubWord_apart (kind : SramKind) (ecc : EccRead) (errs : Nat) (last : Bool) (u : State) (hs : PortsApart u.ports) :
    AnswersApart (execSramScrubWord kind ecc errs last u) := by
  grind [execSramScrubWord, AnswersApart, inc_ports, sramWord_apart, sramPass_ports]

theorem execNvmScrubWord_apart (ecc : EccRead) (errs : Nat) (last : Bool) (u : State) (hs : PortsApart u.ports) :
    AnswersApart (execNvmScrubWord ecc errs last u) := by
  grind [execNvmScrubWord, AnswersApart, inc_ports, setTest_ports, askRefresh_ports, nvmScrubbed_ports]

theorem execTestHarnWrite_apart (v : Word) (s : State) (hs : PortsApart s.ports) : AnswersApart (execTestHarnWrite v s) := by
  grind [execTestHarnWrite, AnswersApart, writeTestHarn_ports]

theorem execJtagInstruction_apart (i : TapInstr) (s : State) (hs : PortsApart s.ports) : AnswersApart (execJtagInstruction i s) := by
  grind [execJtagInstruction, AnswersApart, fputB_ports, setTest_ports]

theorem execDbgNonceNew_apart (s : State) (hs : PortsApart s.ports) : AnswersApart (execDbgNonceNew s) := by
  grind [execDbgNonceNew, AnswersApart, debugNonce_ports]

theorem execDbgUnlock_apart (v : Word) (s : State) (hs : PortsApart s.ports) : AnswersApart (execDbgUnlock v s) := by
  grind [execDbgUnlock, AnswersApart, writeDbgCtrl_ports]

/-! #### Instructions of Map.lean -/

theorem execRegWrite_apart (path : Path) (addr : BitVec 32) (v : Word) (s : State) (hs : PortsApart s.ports) :
    AnswersApart (execRegWrite path addr v s) := by
  grind [execRegWrite, AnswersApart, hostWrite_apart]

theorem execHostifCntClr_apart (s : State) (hs : PortsApart s.ports) : AnswersApart (execHostifCntClr s) := by
  grind [execHostifCntClr, AnswersApart, clearHostCnt_ports]

theorem execTwReset_apart (s : State) (hs : PortsApart s.ports) : AnswersApart (execTwReset s) := by
  grind [execTwReset, AnswersApart, twReset_ports]

theorem execTwcGo_apart (v : Word) (s : State) (hs : PortsApart s.ports) : AnswersApart (execTwcGo v s) := by
  grind [execTwcGo, AnswersApart, writeTwcCtrl_ports]

/-! #### Instructions of HostPorts.lean -/

theorem execBulkWrite_apart (h : BulkHead) (data : List Byte) (check : BitVec 16) (n : Nat) (s : State) (hs : PortsApart s.ports) :
    AnswersApart (execBulkWrite h data check n s) := by
  grind [execBulkWrite, AnswersApart, bulkRow_apart]

theorem execBulkRead_apart (h : BulkHead) (n : Nat) (s : State) (hs : PortsApart s.ports) : AnswersApart (execBulkRead h n s) := by
  grind [execBulkRead, AnswersApart, bulkRow_apart]

theorem execBulkQwrite_apart (h : BulkHead) (data : List Byte) (check : BitVec 16) (n : Nat) (s : State) (hs : PortsApart s.ports) :
    AnswersApart (execBulkQwrite h data check n s) := by
  grind [execBulkQwrite, AnswersApart, bulkRow_apart]

theorem execBulkQread_apart (h : BulkHead) (n : Nat) (s : State) (hs : PortsApart s.ports) : AnswersApart (execBulkQread h n s) := by
  grind [execBulkQread, AnswersApart, bulkRow_apart]

theorem execBulkStatus_apart (s : State) (hs : PortsApart s.ports) : AnswersApart (execBulkStatus s) := by
  grind [execBulkStatus, AnswersApart, setHost_ports]

theorem execBulkClrstat_apart (s : State) (hs : PortsApart s.ports) : AnswersApart (execBulkClrstat s) := by
  grind [execBulkClrstat, AnswersApart, wr_ports, setHost_ports]

theorem execBulkAbort_apart (s : State) (hs : PortsApart s.ports) : AnswersApart (execBulkAbort s) := by
  grind [execBulkAbort, AnswersApart, bulkEnd_ports]

theorem execBulkWaitTimeout_apart (s : State) (hs : PortsApart s.ports) : AnswersApart (execBulkWaitTimeout s) := by
  grind [execBulkWaitTimeout, AnswersApart, raise_ports, reportCorrected_ports, bulkErr_ports, bulkRead_ports, fillerRead_ports]

theorem execTwWrite_apart (bytes : List Byte) (stop : Bool) (s : State) (hs : PortsApart s.ports) :
    AnswersApart (execTwWrite bytes stop s) := by
  unfold execTwWrite
  split
  · exact answersApart_next hs
  · split
    · exact answersApart_next (ite_apart (twPecWrite_apart _ _ hs) (apart_of_ports hs (twHold_ports ..)))
    · split
      · exact answersApart_next (twPlainWrite_apart _ _ _ _ _ hs)
      · exact answersApart_next (ite_apart hs (apart_of_ports hs (twHold_ports ..)))

theorem execTwRead_apart (ptr : Option (BitVec 16)) (n : Nat) (s : State) (hs : PortsApart s.ports) :
    AnswersApart (execTwRead ptr n s) := by
  unfold execTwRead
  split
  · exact answersApart_next hs
  · extract_lets pre s1 r
    have h1 : PortsApart s1.ports := by cases ptr <;> exact hs
    exact answersApart_next (apart_of_ports h1 ((twRead_ports ..).trans (setHost_ports ..)))

theorem execTwStretchTimeout_apart (s : State) (hs : PortsApart s.ports) : AnswersApart (execTwStretchTimeout s) := by
  grind [execTwStretchTimeout, AnswersApart, fillerRead_ports, twRead_ports]

theorem execTwSmbTimeout_apart (s : State) (hs : PortsApart s.ports) : AnswersApart (execTwSmbTimeout s) := by
  grind [execTwSmbTimeout, AnswersApart, raise_ports, reportCorrected_ports, twReset_ports, twErr_ports]

theorem execQueueEntryVisible_apart (q : Fin 64) (s : State) (hs : PortsApart s.ports) : AnswersApart (execQueueEntryVisible q s) := by
  grind [execQueueEntryVisible, AnswersApart, showEntry_ports, resumeCore_ports, resumeBulk_ports, resumeTw_ports]

theorem execTwcStart_apart (lost : Option Bool) (s : State) (hs : PortsApart s.ports) : AnswersApart (execTwcStart lost s) := by
  unfold execTwcStart
  split
  · cases lost with
    | none => exact answersApart_next hs
    | some t => exact answersApart_next (apart_of_ports hs (twcLost_ports ..))
  · exact answersApart_next hs

theorem execTwcDone_apart (nack : Option Nat) (data : List Byte) (code : Byte) (s : State) (hs : PortsApart s.ports) :
    AnswersApart (execTwcDone nack data code s) := by
  unfold execTwcDone
  split
  · exact answersApart_next hs
  · cases nack with
    | none => exact answersApart_next (apart_of_ports hs (twcOk_ports ..))
    | some k => exact answersApart_next (apart_of_ports hs ((twcFail_ports _).trans ((setHost_ports ..).trans (fput_ports ..))))

/-! #### Instructions of HarnCmd.lean -/

theorem execCmdRead_apart (p : HPort) (f : RxFrame) (s : State) (hs : PortsApart s.ports) : AnswersApart (execCmdRead p f s) := by
  grind [execCmdRead, AnswersApart, cmdFrame_apart]

theorem execCmdWrite_apart (p : HPort) (f : RxFrame) (s : State) (hs : PortsApart s.ports) : AnswersApart (execCmdWrite p f s) := by
  grind [execCmdWrite, AnswersApart, cmdFrame_apart]

theorem execCmdReport_apart (p : HPort) (f : RxFrame) (s : State) (hs : PortsApart s.ports) : AnswersApart (execCmdReport p f s) := by
  grind [execCmdReport, AnswersApart, cmdFrame_apart]

theorem execCmdActivate_apart (p : HPort) (f : RxFrame) (s : State) (hs : PortsApart s.ports) : AnswersApart (execCmdActivate p f s) := by
  grind [execCmdActivate, AnswersApart, cmdFrame_apart]

theorem execImgFrame_apart (p : HPort) (f : RxFrame) (s : State) (hs : PortsApart s.ports) : AnswersApart (execImgFrame p f s) := by
  unfold execImgFrame
  split
  · split
    · next h => exact answersApart_next (apart_of_ports hs (judgeFrame_done_ports h))
    · next t h =>
      have ht : PortsApart t.ports := apart_of_ports hs (judgeFrame_consume_ports h)
      split
      · next hr =>
        have hu : roleRefused t f.frame = some _ := (ite_eq_iff.1 hr).elim (fun e => absurd e.2 (by simp)) And.right
        exact answersApart_next (apart_of_ports ht ((forward_ports ..).trans (roleRefused_ports hu)))
      · exact answersApart_next (apart_of_ports ht (takeImg_ports ..))
  · exact answersApart_next hs

theorem execReportDone_apart (s : State) (hs : PortsApart s.ports) : AnswersApart (execReportDone s) := by
  grind [execReportDone, AnswersApart, fput_ports, raise_ports, sendOwn_ports, report_apart, setTrust_ports, formReport_ports]

theorem execFwPauseEnd_apart (s : State) (hs : PortsApart s.ports) : AnswersApart (execFwPauseEnd s) := by
  grind [execFwPauseEnd, AnswersApart, setFlt_ports, setTrust_ports, finishFirmware_ports, resumeBulk_ports, resumeTw_ports,
    moveReference_ports, runHeld_apart]

/-- No instruction turns on both outputs of a pair (R109, invariant 1). -/
theorem exec_apart (c : Instr) (s : State) (hs : PortsApart s.ports) : AnswersApart (exec c s) := by
  cases c with
  | roundBoundary clkKHz pllLocked => exact execRoundBoundary_apart clkKHz pllLocked s hs
  | cycleBoundary => exact execCycleBoundary_apart s hs
  | angleWrap => exact execAngleWrap_apart s hs
  | holdExpire => exact execHoldExpire_apart s hs
  | mainsQualified => exact execMainsQualified_apart s hs
  | mainsSample a b c n fret => exact execMainsSample_apart a b c n fret s hs
  | mainsSampleReady => exact execMainsSampleReady_apart s hs
  | tuningMiss => exact execTuningMiss_apart s hs
  | xtalFail => exact execXtalFail_apart s hs
  | lfxtalFail => exact execLfxtalFail_apart s hs
  | timeFleetWrite v => exact execTimeFleetWrite_apart v s hs
  | fleetAngleApply => exact execFleetAngleApply_apart s hs
  | tsLoCapture path addr => exact execTsLoCapture_apart path addr s hs
  | replicaRefresh => exact execReplicaRefresh_apart s hs
  | nop l fret => exact execNop_apart l fret s hs
  | sample l fret => exact execSample_apart l fret s hs
  | adcConvDone p c1 c2 => exact execAdcConvDone_apart p c1 c2 s hs
  | read l fret => exact execRead_apart l fret s hs
  | meas l fret => exact execMeas_apart l fret s hs
  | passE l fret => exact execPassE_apart l fret s hs
  | passP l fret => exact execPassP_apart l fret s hs
  | passI l fret => exact execPassI_apart l fret s hs
  | passD l fret => exact execPassD_apart l fret s hs
  | passSum l fret => exact execPassSum_apart l fret s hs
  | region l fret => exact execRegion_apart l fret s hs
  | commit l fret => exact execCommit_apart l fret s hs
  | thresh l fret => exact execThresh_apart l fret s hs
  | target l fret => exact execTarget_apart l fret s hs
  | pll l fret => exact execPll_apart l fret s hs
  | capoTerm l fret => exact execCapoTerm_apart l fret s hs
  | capoPower l fret => exact execCapoPower_apart l fret s hs
  | capoCap l fret => exact execCapoCap_apart l fret s hs
  | capoAlloc l fret => exact execCapoAlloc_apart l fret s hs
  | capoWrite l fret => exact execCapoWrite_apart l fret s hs
  | capoCtrim l fret => exact execCapoCtrim_apart l fret s hs
  | capoHoldup l fret => exact execCapoHoldup_apart l fret s hs
  | shareAcc l fret => exact execShareAcc_apart l fret s hs
  | sharePtrim l fret => exact execSharePtrim_apart l fret s hs
  | shareApply l fret => exact execShareApply_apart l fret s hs
  | qpush l fret => exact execQpush_apart l fret s hs
  | engineStart => exact execEngineStart_apart s hs
  | engineMemWrite addr v => exact execEngineMemWrite_apart addr v s hs
  | schedSwapGo => exact execSchedSwapGo_apart s hs
  | bankExchange => exact execBankExchange_apart s hs
  | schedVsel v => exact execSchedVsel_apart v s hs
  | variantSwitch => exact execVariantSwitch_apart s hs
  | qdropClr => exact execQdropClr_apart s hs
  | loopShadowWrite n w v => exact execLoopShadowWrite_apart n w v s hs
  | carrierStart p t => exact execCarrierStart_apart p t s hs
  | updatePoint p t => exact execUpdatePoint_apart p t s hs
  | pwmEdge p g => exact execPwmEdge_apart p g s hs
  | deadTimeTurnOn p g => exact execDeadTimeTurnOn_apart p g s hs
  | enSettleEnd p fret => exact execEnSettleEnd_apart p fret s hs
  | drvFltInput p level fret => exact execDrvFltInput_apart p level fret s hs
  | driverFault p fret => exact execDriverFault_apart p fret s hs
  | portCntClr p => exact execPortCntClr_apart p s hs
  | cmpCrossing p c vp vn fret => exact execCmpCrossing_apart p c vp vn fret s hs
  | cmpLatchSet p c hiSide fret => exact execCmpLatchSet_apart p c hiSide fret s hs
  | cmpBlankEnd p c fret => exact execCmpBlankEnd_apart p c fret s hs
  | cmpLatchWrite p c v => exact execCmpLatchWrite_apart p c v s hs
  | cmpLatchClearApply p c => exact execCmpLatchClearApply_apart p c s hs
  | cmpThrWrite p c v => exact execCmpThrWrite_apart p c v s hs
  | cmpThrShadowApply p c => exact execCmpThrShadowApply_apart p c s hs
  | cmpCntClr p c => exact execCmpCntClr_apart p c s hs
  | kaTick volts => exact execKaTick_apart volts s hs
  | kaLatchSet k => exact execKaLatchSet_apart k s hs
  | kaLatchClear v => exact execKaLatchClear_apart v s hs
  | loopModeWrite n v => exact execLoopModeWrite_apart n v s hs
  | loopUmanWrite n v => exact execLoopUmanWrite_apart n v s hs
  | loopModeApply n => exact execLoopModeApply_apart n s hs
  | loopCntClr n => exact execLoopCntClr_apart n s hs
  | inputLossBegin fret => exact execInputLossBegin_apart fret s hs
  | inputLossEnd => exact execInputLossEnd_apart s hs
  | holdupSwitch => exact execHoldupSwitch_apart s hs
  | holdupReturn => exact execHoldupReturn_apart s hs
  | halfCycleBoundary second => exact execHalfCycleBoundary_apart second s hs
  | budgetDecreaseApply => exact execBudgetDecreaseApply_apart s hs
  | budgetStale => exact execBudgetStale_apart s hs
  | budgetEmit => exact execBudgetEmit_apart s hs
  | trimClr => exact execTrimClr_apart s hs
  | trimClrApply => exact execTrimClrApply_apart s hs
  | capoCntClr => exact execCapoCntClr_apart s hs
  | btxCommit => exact execBtxCommit_apart s hs
  | hostcapWrite v => exact execHostcapWrite_apart v s hs
  | hostcapApply => exact execHostcapApply_apart s hs
  | feedCmdWrite v => exact execFeedCmdWrite_apart v s hs
  | feedVsWindowChange f vs held => exact execFeedVsWindowChange_apart f vs held s hs
  | feedInsdlyExpire f => exact execFeedInsdlyExpire_apart f s hs
  | feedRatioHeld x => exact execFeedRatioHeld_apart x s hs
  | feedPovlExpire f => exact execFeedPovlExpire_apart f s hs
  | feedPctoExpire f => exact execFeedPctoExpire_apart f s hs
  | feedOcTrip x => exact execFeedOcTrip_apart x s hs
  | feedRetryExpire f => exact execFeedRetryExpire_apart f s hs
  | feedRholdExpire f => exact execFeedRholdExpire_apart f s hs
  | feedRevBlock x => exact execFeedRevBlock_apart x s hs
  | feedFwdUnblock x => exact execFeedFwdUnblock_apart x s hs
  | feedDischargeEnd f => exact execFeedDischargeEnd_apart f s hs
  | feedShortCheckResume f => exact execFeedShortCheckResume_apart f s hs
  | feedShortDetect x => exact execFeedShortDetect_apart x s hs
  | feedMonitorConv f j v => exact execFeedMonitorConv_apart f j v s hs
  | feedCntClr f => exact execFeedCntClr_apart f s hs
  | seqUp v => exact execSeqUp_apart v s hs
  | seqDown v => exact execSeqDown_apart v s hs
  | seqDwellEnd => exact execSeqDwellEnd_apart s hs
  | seqDlyExpire r => exact execSeqDlyExpire_apart r s hs
  | seqRailGood x => exact execSeqRailGood_apart x s hs
  | seqRiseTimeout r => exact execSeqRiseTimeout_apart r s hs
  | seqRailOver x => exact execSeqRailOver_apart x s hs
  | seqDndlyExpire r => exact execSeqDndlyExpire_apart r s hs
  | seqRailFallen x => exact execSeqRailFallen_apart x s hs
  | seqFallTimeout r => exact execSeqFallTimeout_apart r s hs
  | seqRailCollapse r x => exact execSeqRailCollapse_apart r x s hs
  | seqCntClr => exact execSeqCntClr_apart s hs
  | battConvDone b code => exact execBattConvDone_apart b code s hs
  | battStep b => exact execBattStep_apart b s hs
  | battRestPoint b => exact execBattRestPoint_apart b s hs
  | battUnanchored b => exact execBattUnanchored_apart b s hs
  | battDisagree b => exact execBattDisagree_apart b s hs
  | battSnap b => exact execBattSnap_apart b s hs
  | battSavepExpire b => exact execBattSavepExpire_apart b s hs
  | battRestore b => exact execBattRestore_apart b s hs
  | hkRoundStart codes => exact execHkRoundStart_apart codes s hs
  | hkEvaluate => exact execHkEvaluate_apart s hs
  | hkPublish => exact execHkPublish_apart s hs
  | throttleApply c => exact execThrottleApply_apart c s hs
  | hkCntClr => exact execHkCntClr_apart s hs
  | harnessLinkUp p => exact execHarnessLinkUp_apart p s hs
  | harnessLinkDown p => exact execHarnessLinkDown_apart p s hs
  | frameForward p f => exact execFrameForward_apart p f s hs
  | cmdRead p f => exact execCmdRead_apart p f s hs
  | cmdWrite p f => exact execCmdWrite_apart p f s hs
  | cmdReport p f => exact execCmdReport_apart p f s hs
  | cmdActivate p f => exact execCmdActivate_apart p f s hs
  | rspFrame p f => exact execRspFrame_apart p f s hs
  | evtFrame p f => exact execEvtFrame_apart p f s hs
  | nakFrame p f => exact execNakFrame_apart p f s hs
  | tuningFrame p f sof late => exact execTuningFrame_apart p f sof late s hs
  | budgetFrame p f => exact execBudgetFrame_apart p f s hs
  | imgFrame p f => exact execImgFrame_apart p f s hs
  | enumAssign p f => exact execEnumAssign_apart p f s hs
  | enumDone p f => exact execEnumDone_apart p f s hs
  | enumProbe p f => exact execEnumProbe_apart p f s hs
  | enumEcho p f d => exact execEnumEcho_apart p f d s hs
  | enumRing p f => exact execEnumRing_apart p f s hs
  | roleFrame p f => exact execRoleFrame_apart p f s hs
  | pauseReceived p => exact execPauseReceived_apart p s hs
  | resumeReceived p => exact execResumeReceived_apart p s hs
  | harnessGuardOpen p => exact execHarnessGuardOpen_apart p s hs
  | harnessGuardClose p => exact execHarnessGuardClose_apart p s hs
  | tuningEmit sub => exact execTuningEmit_apart sub s hs
  | harnessEnum => exact execHarnessEnum_apart s hs
  | hopProbeStart => exact execHopProbeStart_apart s hs
  | hopProbeDone lat => exact execHopProbeDone_apart lat s hs
  | harnessReprobe => exact execHarnessReprobe_apart s hs
  | harnessTxGo => exact execHarnessTxGo_apart s hs
  | harnessCntClr => exact execHarnessCntClr_apart s hs
  | rootepochWrite v => exact execRootepochWrite_apart v s hs
  | bulkWrite h data check n => exact execBulkWrite_apart h data check n s hs
  | bulkRead h n => exact execBulkRead_apart h n s hs
  | bulkQwrite h data check n => exact execBulkQwrite_apart h data check n s hs
  | bulkQread h n => exact execBulkQread_apart h n s hs
  | bulkStatus => exact execBulkStatus_apart s hs
  | bulkClrstat => exact execBulkClrstat_apart s hs
  | bulkAbort => exact execBulkAbort_apart s hs
  | bulkWaitTimeout => exact execBulkWaitTimeout_apart s hs
  | queueEntryVisible q => exact execQueueEntryVisible_apart q s hs
  | queueSpaceFreed q => exact execQueueSpaceFreed_apart q s hs
  | queuePop path q => exact execQueuePop_apart path q s hs
  | twWrite bytes stop => exact execTwWrite_apart bytes stop s hs
  | twRead ptr n => exact execTwRead_apart ptr n s hs
  | twStretchTimeout => exact execTwStretchTimeout_apart s hs
  | twSmbTimeout => exact execTwSmbTimeout_apart s hs
  | twReset => exact execTwReset_apart s hs
  | twcGo v => exact execTwcGo_apart v s hs
  | twcStart lost => exact execTwcStart_apart lost s hs
  | twcDone nack data code => exact execTwcDone_apart nack data code s hs
  | hostifCntClr => exact execHostifCntClr_apart s hs
  | queueWmWrite q v => exact execQueueWmWrite_apart q v s hs
  | queueFlush q => exact execQueueFlush_apart q s hs
  | queueFlushApply q => exact execQueueFlushApply_apart q s hs
  | queueDropClr q => exact execQueueDropClr_apart q s hs
  | wakePin level => exact execWakePin_apart level s hs
  | rstNAssert => exact execRstNAssert_apart s hs
  | regWrite path addr v => exact execRegWrite_apart path addr v s hs
  | faultClr v => exact execFaultClr_apart v s hs
  | faultClearApply engine xtal => exact execFaultClearApply_apart engine xtal s hs
  | aliveToggle => exact execAliveToggle_apart s hs
  | hwdAns v => exact execHwdAns_apart v s hs
  | hwdCloseExpire => exact execHwdCloseExpire_apart s hs
  | hwdCheckin v => exact execHwdCheckin_apart v s hs
  | hwdEnable => exact execHwdEnable_apart s hs
  | hwdLock => exact execHwdLock_apart s hs
  | hwdKey v => exact execHwdKey_apart v s hs
  | fwdExpire pc last => exact execFwdExpire_apart pc last s hs
  | faultCntClr => exact execFaultCntClr_apart s hs
  | recBlockWriteStart => exact execRecBlockWriteStart_apart s hs
  | recBlockWriteDone ok => exact execRecBlockWriteDone_apart ok s hs
  | recFreeze => exact execRecFreeze_apart s hs
  | recThaw => exact execRecThaw_apart s hs
  | recCommit => exact execRecCommit_apart s hs
  | recNonceNew => exact execRecNonceNew_apart s hs
  | recNote => exact execRecNote_apart s hs
  | recCntClr => exact execRecCntClr_apart s hs
  | recClear v => exact execRecClear_apart v s hs
  | recScrubErase snapshot => exact execRecScrubErase_apart snapshot s hs
  | snapshotCapture => exact execSnapshotCapture_apart s hs
  | ledgerCommitDue => exact execLedgerCommitDue_apart s hs
  | brownout => exact execBrownout_apart s hs
  | recWallTick => exact execRecWallTick_apart s hs
  | stgPiece v => exact execStgPiece_apart v s hs
  | stgEraseDone => exact execStgEraseDone_apart s hs
  | stgPageDone ok => exact execStgPageDone_apart ok s hs
  | trustActivate => exact execTrustActivate_apart s hs
  | activationDue => exact execActivationDue_apart s hs
  | fwPauseEnd => exact execFwPauseEnd_apart s hs
  | structLoadDone => exact execStructLoadDone_apart s hs
  | structProgramStart => exact execStructProgramStart_apart s hs
  | trustReport => exact execTrustReport_apart s hs
  | reportDone => exact execReportDone_apart s hs
  | trustCancelFw => exact execTrustCancelFw_apart s hs
  | trustCancelSt => exact execTrustCancelSt_apart s hs
  | trustNonceNew => exact execTrustNonceNew_apart s hs
  | keyWriteOem slot => exact execKeyWriteOem_apart slot s hs
  | keyRevoke slot => exact execKeyRevoke_apart slot s hs
  | keyWriteClear => exact execKeyWriteClear_apart s hs
  | keyLifecycleProd slot => exact execKeyLifecycleProd_apart slot s hs
  | powerOn => exact execPowerOn_apart s hs
  | vkaLoss => exact execVkaLoss_apart s hs
  | softReset => exact execSoftReset_apart s hs
  | resetEnd addr => exact execResetEnd_apart addr s hs
  | bootComplete autoarm => exact execBootComplete_apart autoarm s hs
  | globalArm v => exact execGlobalArm_apart v s hs
  | armApply => exact execArmApply_apart s hs
  | disarm => exact execDisarm_apart s hs
  | testEnter => exact execTestEnter_apart s hs
  | testExit => exact execTestExit_apart s hs
  | hibernateRequest => exact execHibernateRequest_apart s hs
  | hibernateEntered => exact execHibernateEntered_apart s hs
  | hibernateWake => exact execHibernateWake_apart s hs
  | twAddressWake => exact execTwAddressWake_apart s hs
  | harnessActivityWake => exact execHarnessActivityWake_apart s hs
  | vioUndervoltage x => exact execVioUndervoltage_apart x s hs
  | testOosWrite v => exact execTestOosWrite_apart v s hs
  | oosApply => exact execOosApply_apart s hs
  | portAdcCheck p c1 c2 => exact execPortAdcCheck_apart p c1 c2 s hs
  | cmpSweepGo v => exact execCmpSweepGo_apart v s hs
  | cmpSweepStep seen => exact execCmpSweepStep_apart seen s hs
  | pwmCaptureGo v => exact execPwmCaptureGo_apart v s hs
  | pwmCaptureDone edges => exact execPwmCaptureDone_apart edges s hs
  | sramScrubWord kind ecc errs last => exact execSramScrubWord_apart kind ecc errs last s hs
  | nvmScrubWord ecc errs last => exact execNvmScrubWord_apart ecc errs last s hs
  | testHarnWrite v => exact execTestHarnWrite_apart v s hs
  | jtagInstruction load => exact execJtagInstruction_apart load s hs
  | dbgNonceNew => exact execDbgNonceNew_apart s hs
  | dbgUnlock v => exact execDbgUnlock_apart v s hs
  | vioAboveThreshold x => exact execVioAboveThreshold_apart x s hs
  | feedVlpresInactive x => exact execFeedVlpresInactive_apart x s hs

/-- PWM_EDGE always answers a next state. -/
theorem exec_pwmEdge_completes (p : Fin 32) (g : Gate) (s : State) : ∃ t, exec (.pwmEdge p g) s = .next t := by
  show ∃ t, execPwmEdge p g s = .next t
  unfold execPwmEdge
  extract_lets
  split
  · split <;> exact ⟨_, rfl⟩
  · exact ⟨_, rfl⟩

/-- DEAD_TIME_TURN_ON always answers a next state. -/
theorem exec_deadTimeTurnOn_completes (p : Fin 32) (g : Gate) (s : State) : ∃ t, exec (.deadTimeTurnOn p g) s = .next t := by
  show ∃ t, execDeadTimeTurnOn p g s = .next t
  unfold execDeadTimeTurnOn
  split
  · exact ⟨_, rfl⟩
  · extract_lets
    split
    · exact ⟨_, rfl⟩
    · split <;> exact ⟨_, rfl⟩

/-- UPDATE_POINT always answers a next state. -/
theorem exec_updatePoint_completes (p : Fin 32) (n : Nat) (s : State) : ∃ t, exec (.updatePoint p n) s = .next t := by
  show ∃ t, execUpdatePoint p n s = .next t
  unfold execUpdatePoint
  extract_lets
  split <;> exact ⟨_, rfl⟩

/-- CARRIER_START always answers a next state. -/
theorem exec_carrierStart_completes (p : Fin 32) (n : Nat) (s : State) : ∃ t, exec (.carrierStart p n) s = .next t := by
  show ∃ t, execCarrierStart p n s = .next t
  unfold execCarrierStart
  split
  · exact ⟨_, rfl⟩
  · extract_lets
    split <;> exact ⟨_, rfl⟩

theorem answersNext_pairsApart {c : Instr} {s : State} (hs : PortsApart s.ports) (h : ∃ t, exec c s = .next t) :
    AnswersNext (exec c s) PairsApart :=
  h.elim fun t ht => ⟨t, ht, exec_apart c s hs t ht⟩

/-- Settles O20: every instruction keeps the pairs apart, instruction by instruction, and the gate commands have no other answer than a next state. -/
theorem gatePairsAreNeverBothOn : Obligations.GatePairsAreNeverBothOn := by
  unfold Obligations.GatePairsAreNeverBothOn
  intro s hs
  rw [pairsApart_iff] at hs
  exact ⟨fun c => exec_apart c s hs, fun p g => answersNext_pairsApart hs (exec_pwmEdge_completes p g s),
    fun p g => answersNext_pairsApart hs (exec_deadTimeTurnOn_completes p g s),
    fun p n => answersNext_pairsApart hs (exec_updatePoint_completes p n s),
    fun p n => answersNext_pairsApart hs (exec_carrierStart_completes p n s)⟩

end Sys2Proof.Machine
end

section
set_option Elab.async false
namespace Sys2Proof.Machine

/-! ### What an operation on one port changes -/

/-- `t` is `s` with changes of port `p` and its comparators, of registers that `r` names and of the online test. -/
structure PortStep (r : Nat → Bool) (p : Fin 32) (s t : State) : Prop where
  regs : SameRegsOutside r s t
  ports : OtherPorts p s t
  cmps : ∀ q, q ≠ p → t.cmps.get q = s.cmps.get q
  frame : t = { s with live := t.live, ports := t.ports, cmps := t.cmps, test := t.test }

section
variable {r : Nat → Bool} {p : Fin 32} {s t u : State}

theorem PortStep.refl (r : Nat → Bool) (p : Fin 32) (s : State) : PortStep r p s s :=
  ⟨.refl r s, fun _ _ => rfl, fun _ _ => rfl, rfl⟩

theorem PortStep.trans (h : PortStep r p s t) (g : PortStep r p t u) : PortStep r p s u :=
  ⟨h.regs.trans g.regs, fun q hq => (g.ports q hq).trans (h.ports q hq), fun q hq => (g.cmps q hq).trans (h.cmps q hq),
    g.frame.trans (congrArg (fun x : State => { x with live := u.live, ports := u.ports, cmps := u.cmps, test := u.test }) h.frame)⟩

theorem PortStep.mono {r' : Nat → Bool} (h : PortStep r p s t) (hr : ∀ a, r a = true → r' a = true) : PortStep r' p s t :=
  ⟨fun a ha => h.regs a (Bool.eq_false_iff.2 fun hp => by rw [hr a hp] at ha; cases ha), h.ports, h.cmps, h.frame⟩

theorem PortStep.fput (h : PortStep r p s t) (f : Field) (v : Nat) (hf : r f.addr = true) : PortStep r p s (fput t f v) :=
  h.trans ⟨(SameRegsOutside.refl r t).fput f v hf, fun _ _ => rfl, fun _ _ => rfl, rfl⟩

theorem PortStep.upd (h : PortStep r p s t) (f : PortSt → PortSt) : PortStep r p s { t with ports := upd t.ports p f } :=
  h.trans ⟨fun _ _ => rfl, fun _ hq => upd_get_of_ne _ _ hq, fun _ _ => rfl, rfl⟩

theorem PortStep.setGate (h : PortStep r p s t) (g : Gate) (f : GateSt → GateSt) : PortStep r p s (setGate t p g f) := h.upd _

theorem PortStep.setCmp (h : PortStep r p s t) (c : Fin 4) (f : CmpSt → CmpSt) : PortStep r p s (setCmp t p c f) :=
  h.trans ⟨fun _ _ => rfl, fun _ _ => rfl, fun _ hq => upd_get_of_ne _ _ hq, rfl⟩

theorem PortStep.setTest (h : PortStep r p s t) (x : TestSt) : PortStep r p s { t with test := x } :=
  h.trans ⟨fun _ _ => rfl, fun _ _ => rfl, fun _ _ => rfl, rfl⟩

theorem PortStep.ite {c : Prop} [Decidable c] (ht : PortStep r p s t) (hu : PortStep r p s u) : PortStep r p s (if c then t else u) := by
  split <;> assumption

theorem PortStep.memory (h : PortStep r p s t) : SameMemory s t := by
  rw [h.frame]
  exact ⟨fun _ => rfl, fun _ => rfl⟩

theorem PortStep.time (h : PortStep r p s t) : t.time = s.time := (congrArg State.time h.frame :)

/-- A fold of steps on a port is one. -/
theorem portStep_foldl {α : Type} {f : State → α → State} (h : ∀ t x, PortStep r p t (f t x)) (l : List α) (s : State) :
    PortStep r p s (l.foldl f s) := foldl_keeps (PortStep r p s) f (fun t x ht => ht.trans (h t x)) l s (.refl r p s)

end

/-! ### One output of a port -/

/-- The status registers of the comparators of a port. -/
def cmpStatusReg (p : Fin 32) (a : Nat) : Bool := (List.range 4).any fun c => a == Reg.CMP_STATUS p c

/-- What an edge of an output writes. -/
def gateEventReg (p : Fin 32) (a : Nat) : Bool := a == Reg.PORT_EVENT p || cmpStatusReg p a

theorem cmpStatusReg_status (p : Fin 32) (c : Fin 4) : cmpStatusReg p (Reg.CMP_STATUS p c) = true :=
  List.any_eq_true.2 ⟨c, List.mem_range.2 c.isLt, beq_self_eq_true _⟩

/-- An address below or beyond the comparators of a port is not one of their status registers. -/
theorem cmpStatusReg_of_low {p : Fin 32} {a : Nat} (h : a < 0x10110 + 0x400 * p) : cmpStatusReg p a = false :=
  List.any_eq_false.2 fun c _ => by
    rw [beq_iff_eq]
    simp only [Reg.CMP_STATUS]
    omega

theorem gateOf_of_ports {s t : State} (h : t.ports = s.ports) (p : Fin 32) (g : Gate) : gateOf t p g = gateOf s p g := by
  rw [gateOf, h, gateOf]

/-- An output after a change of it or of another output of its port. -/
theorem gateOf_setGate (s : State) (p : Fin 32) (g h : Gate) (f : GateSt → GateSt) :
    gateOf (setGate s p g f) p h = if h = g then f (gateOf s p g) else gateOf s p h := by
  rw [gateOf, setGate_ports, upd_get_self]
  exact gates_upd_get _ g h f

theorem gateOf_setGate_self (s : State) (p : Fin 32) (g : Gate) (f : GateSt → GateSt) :
    gateOf (setGate s p g f) p g = f (gateOf s p g) := by rw [gateOf_setGate, if_pos rfl]

theorem gateOf_setGate_of_ne (s : State) (p : Fin 32) {g h : Gate} (f : GateSt → GateSt) (hne : h ≠ g) :
    gateOf (setGate s p g f) p h = gateOf s p h := by rw [gateOf_setGate, if_neg hne]

theorem gateOf_edgeMade (s : State) (p : Fin 32) (g h : Gate) (k : Nat) (rise : Bool) :
    gateOf (edgeMade s p g k rise) p h = gateOf s p h := gateOf_of_ports (edgeMade_ports ..) p h

/-! ### Edges and deferred turn-offs (R109, R171, R487) -/

theorem portStep_expectEdge (r : Nat → Bool) (s : State) (p : Fin 32) (g : Gate) (k : Nat) (rise : Bool) :
    PortStep r p s (expectEdge s p g k rise) := by
  unfold expectEdge
  extract_lets pt
  split
  · exact ((PortStep.refl r p s).setTest _).ite (.refl r p s)
  · exact .refl r p s

theorem portStep_edgeMade (s : State) (p : Fin 32) (g : Gate) (k : Nat) (rise : Bool) :
    PortStep (cmpStatusReg p) p s (edgeMade s p g k rise) :=
  (portStep_expectEdge _ s p g k rise).trans (portStep_foldl (fun t c => by
    extract_lets b
    exact (((PortStep.refl _ p t).setCmp c _).fput _ _ (cmpStatusReg_status p c)).ite (.refl _ p t)) _ _)

theorem portStep_settleGate (p : Fin 32) (k : Nat) (s : State) (g : Gate) : PortStep (cmpStatusReg p) p s (settleGate p k s g) := by
  unfold settleGate
  split
  · exact (((PortStep.refl _ p s).setGate g _).trans (portStep_edgeMade _ p g _ false)).ite (.refl _ p s)
  · exact .refl _ p s

theorem portStep_settleGates (s : State) (p : Fin 32) (k : Nat) : PortStep (cmpStatusReg p) p s (settleGates s p k) :=
  portStep_foldl (portStep_settleGate p k) _ s

/-- A deferred turn-off leaves what the pair commands. -/
theorem cmd_settleGate (p : Fin 32) (k : Nat) (s : State) (g h : Gate) : (gateOf (settleGate p k s g) p h).cmd = (gateOf s p h).cmd := by
  unfold settleGate
  split
  · split
    · rw [gateOf_edgeMade, gateOf_setGate]
      split
      · next e => rw [e]
      · rfl
    · rfl
  · rfl

theorem cmd_settleGates (s : State) (p : Fin 32) (k : Nat) (h : Gate) : (gateOf (settleGates s p k) p h).cmd = (gateOf s p h).cmd :=
  foldl_keeps (fun t => (gateOf t p h).cmd = (gateOf s p h).cmd) (settleGate p k)
    (fun t g e => (cmd_settleGate p k t g h).trans e) _ s rfl

/-- The registers of the dead times are none of those that an edge writes. -/
theorem PortStep.deadTime {p : Fin 32} {s t : State} (h : PortStep (cmpStatusReg p) p s t) (g : Gate) : deadTime t p g = deadTime s p g := by
  have ha : rd t (Reg.PORT_DT_A p) = rd s (Reg.PORT_DT_A p) := h.regs _ (cmpStatusReg_of_low (by simp only [Reg.PORT_DT_A]; omega))
  have hb : rd t (Reg.PORT_DT_B p) = rd s (Reg.PORT_DT_B p) := h.regs _ (cmpStatusReg_of_low (by simp only [Reg.PORT_DT_B]; omega))
  cases g with
  | a | an => exact fget_of_rd _ ha
  | b | bn => exact fget_of_rd _ hb

theorem PortStep.minPulse {r : Nat → Bool} {p : Fin 32} {s t : State} (h : PortStep r p s t) : minPulse t = minPulse s := by
  rw [Machine.minPulse, h.time, Machine.minPulse]

/-! ### PWM_EDGE and DEAD_TIME_TURN_ON (R108 to R110, R112, R528) -/

/-- Where a pair comes to command output `g.compl` at step `k` (R109, R528): what becomes of both outputs. `u` has the deferred turn-offs
due by that step made, `early` is the end of the minimum pulse of `g`. -/
structure Commanded (p : Fin 32) (g : Gate) (k : Nat) (s u t : State) : Prop where
  rise : (gateOf t p g).rise = none
  off : (gateOf t p g).cmd = false
  on : (gateOf t p g.compl).cmd = true
  complHigh : (gateOf t p g.compl).high = (gateOf u p g.compl).high
  atEdge : (gateOf u p g).high = false ∨ (gateOf u p g).onAt + minPulse s ≤ k →
    (gateOf t p g).high = false ∧ (gateOf t p g).fall = none ∧ ((gateOf u p g).high = true → (gateOf t p g).offAt = k) ∧
    (gateOf t p g.compl).rise = if (gateOf u p g.compl).high then none else some (k + deadTime s p g.compl)
  stretched : (gateOf u p g).high = true → k < (gateOf u p g).onAt + minPulse s →
    (gateOf t p g).high = true ∧ (gateOf t p g).fall = some ((gateOf u p g).onAt + minPulse s) ∧
    bit t (Fld.PORT_EVENT_STRETCH p) = true ∧
    (gateOf t p g.compl).rise =
      if (gateOf u p g.compl).high then none else some ((gateOf u p g).onAt + minPulse s + deadTime s p g.compl)
  step : PortStep (gateEventReg p) p s t

theorem commandOn_commanded {s : State} {p : Fin 32} {g : Gate} (k : Nat) (hc : (gateOf s p g.compl).cmd = false) :
    Commanded p g k s (settleGates s p k) (commandOn p g.compl k s) := by
  have hu : PortStep (cmpStatusReg p) p s (settleGates s p k) := portStep_settleGates s p k
  have hcu : ¬(gateOf (settleGates s p k) p g.compl).cmd = true := by
    rw [cmd_settleGates, hc]
    exact Bool.false_ne_true
  unfold commandOn
  rw [gate_compl_compl]
  generalize settleGates s p k = u at hu hcu ⊢
  extract_lets u' o early offT s1 s2 s3
  rw [if_neg hcu]
  have hm : minPulse u = minPulse s := hu.minPulse
  have he : early = (o.high && decide (k < o.onAt + minPulse s)) := by rw [← hm]
  have hoff : offT = if early then o.onAt + minPulse s else k := by rw [← hm]
  have hd : deadTime s1 p g.compl = deadTime s p g.compl := (hu.setGate g _).deadTime g.compl
  have hports : (if (o.high && !early) = true then edgeMade s3 p g k false else s3).ports = s2.ports := by
    rw [apply_ite State.ports, edgeMade_ports, ite_self, apply_ite State.ports]
    exact ite_self _
  have hstep : PortStep (gateEventReg p) p s (if (o.high && !early) = true then edgeMade s3 p g k false else s3) := by
    have hw : ∀ a, cmpStatusReg p a = true → gateEventReg p a = true := fun a h => by rw [gateEventReg, h, Bool.or_true]
    have h2 : PortStep (gateEventReg p) p s s2 := ((hu.mono hw).setGate g _).setGate g.compl _
    have h3 : PortStep (gateEventReg p) p s s3 := (h2.fput _ 1 (by simp [gateEventReg])).ite h2
    exact (h3.trans ((portStep_edgeMade ..).mono hw)).ite h3
  have hbit : early = true → bit (if (o.high && !early) = true then edgeMade s3 p g k false else s3) (Fld.PORT_EVENT_STRETCH p) = true :=
    fun h => by
      rw [h, Bool.not_true, Bool.and_false, if_neg Bool.false_ne_true]
      have h3 : s3 = raise s2 (Fld.PORT_EVENT_STRETCH p) := if_pos h
      rw [h3]
      exact bit_raise_self _ _ (by simp) rfl
  generalize (if (o.high && !early) = true then edgeMade s3 p g k false else s3) = t at hports hstep hbit ⊢
  have hg : gateOf t p g = { o with
      high := early, offAt := if o.high && !early then k else o.offAt, fall := if early then some offT else none
      rise := none, cmd := false } := by
    rw [gateOf_of_ports hports, gateOf_setGate_of_ne _ _ _ (gate_compl_ne g).symm, gateOf_setGate_self]
  have hgc : gateOf t p g.compl = { gateOf u p g.compl with
      cmd := true, fall := none
      rise := if (gateOf u p g.compl).high then none else some (offT + deadTime s p g.compl) } := by
    rw [gateOf_of_ports hports, gateOf_setGate_self, gateOf_setGate_of_ne _ _ _ (gate_compl_ne g), hd]
  have hcase : (o.high = false ∨ o.onAt + minPulse s ≤ k) → early = false := by
    rw [he]
    rintro (h | h)
    · rw [h, Bool.false_and]
    · rw [decide_eq_false (Nat.not_lt.2 h), Bool.and_false]
  have hlate : o.high = true → k < o.onAt + minPulse s → early = true := fun h1 h2 => by rw [he, h1, decide_eq_true h2]; rfl
  refine ⟨by rw [hg], by rw [hg], by rw [hgc], by rw [hgc], fun h => ?_, fun h1 h2 => ?_, hstep⟩
  · have h0 := hcase h
    rw [hg, hgc, hoff, h0]
    exact ⟨rfl, rfl, fun h1 => if_pos (by rw [h1]; rfl), rfl⟩
  · have h0 := hlate h1 h2
    rw [hg, hgc, hoff, h0]
    exact ⟨rfl, rfl, hbit h0, rfl⟩

theorem exec_pwmEdge (p : Fin 32) (g : Gate) (s : State) : exec (.pwmEdge p g) s = execPwmEdge p g s := rfl

theorem exec_deadTimeTurnOn (p : Fin 32) (g : Gate) (s : State) : exec (.deadTimeTurnOn p g) s = execDeadTimeTurnOn p g s := rfl

/-- An edge ahead in the carrier in progress occurs. -/
theorem exec_pwmEdge_of_ahead {s : State} {p : Fin 32} {g : Gate} {pos : Nat} (h : edgeAhead s p g = some pos)
    (hlen : pos < (s.ports.get p).carLen) : exec (.pwmEdge p g) s = .next (edgeOccurs p g ((s.ports.get p).carStart + pos) s) := by
  rw [exec_pwmEdge, execPwmEdge, h]
  exact if_pos hlen

/-- Without an edge ahead PWM_EDGE does nothing. -/
theorem exec_pwmEdge_of_none {s : State} {p : Fin 32} {g : Gate}
    (h : ∀ pos, edgeAhead s p g = some pos → (s.ports.get p).carLen ≤ pos) : exec (.pwmEdge p g) s = .next s := by
  rw [exec_pwmEdge, execPwmEdge]
  cases he : edgeAhead s p g with
  | none => rfl
  | some pos => exact if_neg (Nat.not_lt.2 (h pos he))

/-- The pair of a commanded output that comes to its edge. -/
theorem edgeOccurs_commanded {s : State} {p : Fin 32} {g : Gate} (k : Nat) (hg : (gateOf s p g).cmd = true)
    (hc : (gateOf s p g.compl).cmd = false) :
    Commanded p g k s (settleGates s p k) (edgeOccurs p g k s) ∧ (gateOf (edgeOccurs p g k s) p g).done = true := by
  have h := commandOn_commanded k hc
  rw [edgeOccurs, if_pos hg]
  generalize commandOn p g.compl k s = t at h ⊢
  have hself := gateOf_setGate_self t p g fun x => { x with done := true }
  have hcompl := gateOf_setGate_of_ne t p (fun x => { x with done := true }) (gate_compl_ne g)
  refine ⟨⟨?_, ?_, ?_, ?_, ?_, ?_, h.step.setGate g _⟩, ?_⟩
  · rw [hself]; exact h.rise
  · rw [hself]; exact h.off
  · rw [hcompl]; exact h.on
  · rw [hcompl]; exact h.complHigh
  · rw [hself, hcompl]; exact h.atEdge
  · rw [hself, hcompl]; exact h.stretched
  · rw [hself]

/-- The rise of an output one dead time after its edge: both outputs of the pair were low. -/
theorem turnOn_effects {s u : State} {p : Fin 32} {g : Gate} (k : Nat) (hu : PortStep (cmpStatusReg p) p s u)
    (hc : (gateOf u p g.compl).high = false) :
    let t := edgeMade (setGate u p g fun x => { x with high := true, onAt := k, rise := none }) p g k true
    (gateOf t p g).high = true ∧ (gateOf t p g).onAt = k ∧ (gateOf t p g).rise = none ∧ (gateOf t p g.compl).high = false ∧
    PortStep (cmpStatusReg p) p s t := by
  intro t
  have hself : gateOf t p g = { gateOf u p g with high := true, onAt := k, rise := none } := by
    rw [gateOf_edgeMade, gateOf_setGate_self]
  have hcompl : gateOf t p g.compl = gateOf u p g.compl := by
    rw [gateOf_edgeMade, gateOf_setGate_of_ne _ _ _ (gate_compl_ne g)]
  exact ⟨by rw [hself], by rw [hself], by rw [hself], by rw [hcompl, hc], (hu.setGate g _).trans (portStep_edgeMade ..)⟩

/-- Settles O21: an edge that a pair commands is `Commanded`, whose deferred turn-offs come first; a rise finds the complement low. -/
theorem gateEdgesAndDeadTime : Obligations.GateEdgesAndDeadTime := by
  unfold Obligations.GateEdgesAndDeadTime
  refine ⟨fun s p g pos ha hl hg hc => ?_, fun s p g pos ha hl hg => ?_, fun s p g h => exec_pwmEdge_of_none h,
    fun s p g k hk => ?_, fun s p g hk => ?_⟩
  · intro k u early
    obtain ⟨h, hdone⟩ := edgeOccurs_commanded k hg hc
    exact ⟨_, exec_pwmEdge_of_ahead ha hl, hdone, h.rise, h.off, h.on, h.complHigh, h.atEdge, h.stretched, h.step.ports, h.step.cmps,
      h.step.regs, h.step.frame⟩
  · rw [exec_pwmEdge_of_ahead ha hl, edgeOccurs, if_neg (by rw [hg]; exact Bool.false_ne_true)]
  · intro u
    have hexec : exec (.deadTimeTurnOn p g) s = if (gateOf u p g.compl).high then .next u
        else if (gateOf u p g).high then .next (setGate u p g fun x => { x with rise := none })
        else .next (edgeMade (setGate u p g fun x => { x with high := true, onAt := k, rise := none }) p g k true) := by
      rw [exec_deadTimeTurnOn, execDeadTimeTurnOn, hk]
    refine ⟨fun hc => hexec.trans (if_pos hc), fun hc hg => ?_, fun hc hg => ?_⟩
    · rw [hexec, hc, if_neg Bool.false_ne_true, if_pos hg]
    · obtain ⟨hh, hon, hr, hl, hstep⟩ := turnOn_effects k (portStep_settleGates s p k) hc
      rw [hexec, hc, if_neg Bool.false_ne_true, hg, if_neg Bool.false_ne_true]
      exact ⟨_, rfl, hh, hon, hr, hl, hstep.ports, hstep.cmps, hstep.regs, hstep.frame⟩
  · rw [exec_deadTimeTurnOn, execDeadTimeTurnOn, hk]

end Sys2Proof.Machine
end

section
set_option Elab.async false
namespace Sys2Proof.Machine

/-! ### COMMIT (R112, R158, R178, R180) -/

/-- The bits that show a committed value. -/
def commitFields (n : Fin 64) : List Field := [Fld.LOOP_Q_Q n, Fld.LOOP_STATUS_QSAT n, Fld.LOOP_EVENT_QSAT n]

/-- A committed value and its clip shown in the registers of its loop (R158). -/
def commitShown (s : State) (n : Fin 64) (q : Int × Bool) : State :=
  let s2 := fputB (fput s (Fld.LOOP_Q_Q n) (ofSigned 24 q.1)) (Fld.LOOP_STATUS_QSAT n) q.2
  if q.2 then raise s2 (Fld.LOOP_EVENT_QSAT n) else s2

theorem commitPass_eq (p : Fin 32) (target f : Nat) (n : Fin 64) (s : State) :
    let q := commitValue target (vwVal ((s.loops.get n).u.get (absFret s f)))
    commitPass p target f n s =
      commitShown (setLoop (writeShadow s p target q.1 f) n fun x => { x with qSigned := target == 2 || target == 3 }) n q := rfl

theorem commitShown_effects (s : State) (n : Fin 64) (q : Int × Bool) : let t := commitShown s n q
    fget t (Fld.LOOP_Q_Q n) = ofSigned 24 q.1 ∧ bit t (Fld.LOOP_STATUS_QSAT n) = q.2 ∧
    (q.2 = true → bit t (Fld.LOOP_EVENT_QSAT n) = true) ∧ SameBits (commitFields n) s t ∧ t = { s with live := t.live } := by
  intro t
  have hq : fget (fput s (Fld.LOOP_Q_Q n) (ofSigned 24 q.1)) (Fld.LOOP_Q_Q n) = ofSigned 24 q.1 := by
    rw [fget_fput_self _ _ _ (by simp), Nat.mod_eq_of_lt (ofSigned_lt 24 q.1)]
  have h2 : SameBits (commitFields n) s (fputB (fput s (Fld.LOOP_Q_Q n) (ofSigned 24 q.1)) (Fld.LOOP_STATUS_QSAT n) q.2) :=
    ((SameBits.refl _ s).fput _ _ (by simp [commitFields])).fput _ _ (by simp [commitFields])
  have hstat : bit (fputB (fput s (Fld.LOOP_Q_Q n) (ofSigned 24 q.1)) (Fld.LOOP_STATUS_QSAT n) q.2) (Fld.LOOP_STATUS_QSAT n) = q.2 :=
    bit_fputB_self _ _ _ (by simp) rfl
  have hq2 : fget (fputB (fput s (Fld.LOOP_Q_Q n) (ofSigned 24 q.1)) (Fld.LOOP_STATUS_QSAT n) q.2) (Fld.LOOP_Q_Q n) = ofSigned 24 q.1 :=
    (fget_fput_of_ne _ _ _ _ (.inl (loopAddr_ne_of_mod (by decide)))).trans hq
  have ht : t = if q.2 then raise (fputB (fput s (Fld.LOOP_Q_Q n) (ofSigned 24 q.1)) (Fld.LOOP_STATUS_QSAT n) q.2) (Fld.LOOP_EVENT_QSAT n)
      else fputB (fput s (Fld.LOOP_Q_Q n) (ofSigned 24 q.1)) (Fld.LOOP_STATUS_QSAT n) q.2 := rfl
  have hlive : t = { s with live := t.live } := by
    rw [ht]
    split <;> rfl
  clear_value t
  generalize fputB (fput s (Fld.LOOP_Q_Q n) (ofSigned 24 q.1)) (Fld.LOOP_STATUS_QSAT n) q.2 = u at h2 hstat hq2 ht
  cases hs : q.2 with
  | true =>
    rw [hs, if_pos rfl] at ht
    rw [hs] at hstat
    subst ht
    exact ⟨(fget_fput_of_ne _ _ _ _ (.inl (loopAddr_ne_of_mod (by decide)))).trans hq2,
      (bit_fput_of_ne _ _ _ _ (.inl (loopAddr_ne_of_mod (by decide)))).trans hstat,
      fun _ => bit_raise_self _ _ (by simp) rfl, h2.raise _ (by simp [commitFields]), hlive⟩
  | false =>
    rw [hs, if_neg Bool.false_ne_true] at ht
    rw [hs] at hstat
    subst ht
    exact ⟨hq2, hstat, fun h => absurd h Bool.false_ne_true, h2, hlive⟩

theorem commitFields_apart (n : Fin 64) (p : Fin 32) (c : Fin 4) : apartFrom (commitFields n) (Fld.CMP_THR_HI p c) = true := by
  have hp := p.isLt
  have hc := c.isLt
  simp only [apartFrom, commitFields, List.all_cons, List.all_nil, Bool.and_true, Bool.and_eq_true, decide_eq_true_eq, Reg.CMP_THR,
    Reg.LOOP_Q, Reg.LOOP_STATUS, Reg.LOOP_EVENT]
  omega

/-- A target of a comparator takes a code of 10 bits (R178). -/
theorem commitValue_comparator (c : Fin 4) (u : Rat) :
    0 ≤ (commitValue (5 + c.val) u).1 ∧ (commitValue (5 + c.val) u).1 ≤ 1023 := by
  have hc := c.isLt
  unfold commitValue
  extract_lets r q
  have hr : r.2.1 = 0 ∧ r.2.2 = 1023 := by
    simp only [r]
    rw [if_neg (by omega), if_neg (by omega)]
    split <;> exact ⟨rfl, rfl⟩
  have h := clipI_bounds (v := r.1) (lo := r.2.1) (hi := r.2.2) (by omega)
  rw [hr.1, hr.2] at h
  simp only [q, hr.1, hr.2]
  exact h

/-- The shadow of a duty, shift or period (R112). -/
theorem writeShadow_port {s : State} {p : Fin 32} {target : Nat} (k : Fin 5) (q : Int) (f : Nat) (h : target = k.val) :
    writeShadow s p target q f =
      { s with ports := upd s.ports p fun x => { x with shadow := upd x.shadow k fun v => v.put (64 * absFret s f) 64 q } } := by
  subst h
  exact dif_pos k.isLt

/-- The HI shadow of a comparator (R178, R180). -/
theorem writeShadow_comparator {s : State} {p : Fin 32} {target : Nat} (c : Fin 4) (q : Int) (f : Nat) (h : target = 5 + c.val) :
    writeShadow s p target q f = writeHiShadow s p c q.toNat (64 * absFret s f) := by
  have hc : target - 5 = c.val := by omega
  have hlt : target - 5 < 4 := by omega
  have he : (⟨target - 5, hlt⟩ : Fin 4) = c := Fin.ext hc
  rw [writeShadow, dif_neg (by omega), dif_pos hlt, he]

/-- The threshold that an engine word writes: it shows at once and is delivered to the update points after the end of the fret (R180). -/
theorem writeHiShadow_effects (s : State) (p : Fin 32) (c : Fin 4) {q : Nat} (t : Nat) (hq : q < 1024) : let u := writeHiShadow s p c q t
    fget u (Fld.CMP_THR_HI p c) = q ∧ Delivers (cmpOf s p c).shHi (cmpOf u p c).shHi t 64 q ∧
    SameBits [Fld.CMP_THR_HI p c] s u ∧ u = { s with live := u.live, cmps := u.cmps } := by
  intro u
  have hc : cmpOf u p c = { cmpOf s p c with shHi := (cmpOf s p c).shHi.put t 64 q } := by
    show ((upd s.cmps p fun v => upd v c fun x => { x with shHi := x.shHi.put t 64 q }).get p).get c = _
    rw [upd_get_self, upd_get_self]
    rfl
  refine ⟨(fget_fput_self _ _ _ (by simp)).trans (Nat.mod_eq_of_lt hq), ?_,
    ((SameBits.refl _ s).of_live rfl).fput _ _ (by simp), rfl⟩
  rw [hc]
  exact delivers_put _ _ _ _

/-- Whatever the target, only port `p` and its comparators change, and registers. -/
theorem writeShadow_frame (s : State) (p : Fin 32) (target : Nat) (q : Int) (f : Nat) : let w := writeShadow s p target q f
    OtherPorts p s w ∧ w = { s with live := w.live, ports := w.ports, cmps := w.cmps } := by
  intro w
  simp only [w, writeShadow]
  split
  · exact ⟨fun q hq => upd_get_of_ne _ _ hq, rfl⟩
  · split
    · exact ⟨fun _ _ => rfl, rfl⟩
    · exact ⟨fun _ _ => rfl, rfl⟩

/-- COMMIT on a loop. -/
theorem exec_commit_of_loop {s : State} {l : LaneFields} {n : Fin 64} (f : Nat) (ha : laneActs s 0x10 l = true)
    (hn : ctxLoop s l.ctx.toNat = some n.val) :
    exec (.commit l f) s = .next (commitPass l.port.toFin (l.argBits 0 4) f n s) :=
  (if_neg (not_not_of_acts ha)).trans (congrArg _ (onLoop_of_some _ hn))

/-- What COMMIT makes of the state, by its target (R158). -/
theorem commitPass_effects (s : State) (p : Fin 32) (target f : Nat) (n : Fin 64) : let t := commitPass p target f n s
    let q := commitValue target (vwVal ((s.loops.get n).u.get (absFret s f)))
    (∀ k : Fin 5, target = k.val →
      Delivers ((s.ports.get p).shadow.get k) ((t.ports.get p).shadow.get k) (64 * absFret s f) 64 q.1 ∧
      (∀ j, j ≠ k → (t.ports.get p).shadow.get j = (s.ports.get p).shadow.get j) ∧ t.cmps = s.cmps ∧
      SameBits (commitFields n) s t) ∧
    (∀ c : Fin 4, target = 5 + c.val →
      Delivers (cmpOf s p c).shHi (cmpOf t p c).shHi (64 * absFret s f) 64 q.1.toNat ∧
      fget t (Fld.CMP_THR_HI p c) = q.1.toNat ∧ t.ports = s.ports ∧ SameBits (commitFields n ++ [Fld.CMP_THR_HI p c]) s t) ∧
    fget t (Fld.LOOP_Q_Q n) = ofSigned 24 q.1 ∧ bit t (Fld.LOOP_STATUS_QSAT n) = q.2 ∧
    (q.2 = true → bit t (Fld.LOOP_EVENT_QSAT n) = true) ∧
    t.loops.get n = { s.loops.get n with qSigned := target == 2 || target == 3 } ∧ OtherLoops n s t ∧
    OtherPorts p s t ∧ t = { s with live := t.live, ports := t.ports, loops := t.loops, cmps := t.cmps } := by
  intro t q
  obtain ⟨hports, hframe⟩ := writeShadow_frame s p target q.1 f
  have hport := fun k : Fin 5 => writeShadow_port (s := s) (p := p) (target := target) k q.1 f
  have hcmp := fun c : Fin 4 => writeShadow_comparator (s := s) (p := p) (target := target) c q.1 f
  have ht : t = commitShown (setLoop (writeShadow s p target q.1 f) n fun x => { x with qSigned := target == 2 || target == 3 }) n q :=
    commitPass_eq p target f n s
  clear_value t
  generalize writeShadow s p target q.1 f = w at hports hframe hport hcmp ht
  obtain ⟨hq, hsat, hev, hbits, hlive⟩ :=
    commitShown_effects (setLoop w n fun x => { x with qSigned := target == 2 || target == 3 }) n q
  rw [← ht] at hq hsat hev hbits hlive
  have hbw : SameBits (commitFields n) w t := (SameBits.refl _ w).of_live rfl |>.trans hbits
  have htp : t.ports = w.ports := (congrArg State.ports hlive :)
  have htc : t.cmps = w.cmps := (congrArg State.cmps hlive :)
  have htl : t.loops = (setLoop w n fun x => { x with qSigned := target == 2 || target == 3 }).loops := (congrArg State.loops hlive :)
  have hwl : w.loops = s.loops := (congrArg State.loops hframe :)
  refine ⟨fun k hk => ?_, fun c hc => ?_, hq, hsat, hev, ?_, fun m hm => ?_, fun r hr => ?_, ?_⟩
  · have hw := hport k hk
    have hsh : (t.ports.get p).shadow = upd (s.ports.get p).shadow k fun v => v.put (64 * absFret s f) 64 q.1 := by
      rw [htp, hw]
      exact congrArg PortSt.shadow (upd_get_self _ _ _)
    refine ⟨?_, fun j hj => ?_, htc.trans (congrArg State.cmps hw :),
      ((SameBits.refl _ s).of_live (congrArg State.live hw :)).trans hbw⟩
    · rw [hsh, upd_get_self]
      exact delivers_put _ _ _ _
    · rw [hsh, upd_get_of_ne _ _ hj]
  · have hw := hcmp c hc
    have hv : 0 ≤ q.1 ∧ q.1 ≤ 1023 := by
      have h := commitValue_comparator c (vwVal ((s.loops.get n).u.get (absFret s f)))
      rwa [← hc] at h
    obtain ⟨hf, hd, hb, hfr⟩ := writeHiShadow_effects s p c (q := q.1.toNat) (64 * absFret s f) (by omega)
    rw [← hw] at hf hd hb hfr
    refine ⟨?_, ?_, htp.trans (congrArg State.ports hfr :), (hb.mono (by simp)).trans (hbw.mono (by simp))⟩
    · rw [cmpOf, cmpOf, htc]
      exact hd
    · rw [← hf]
      exact hbw.fget_eq (commitFields_apart n p c)
  · rw [htl, loops_setLoop_self, hwl]
  · rw [htl, (otherLoops_setLoop w n _) m hm, hwl]
  · rw [htp, hports r hr]
  · rw [htp, htc, htl]
    exact hlive.trans (congrArg (fun x : State => { x with
      live := t.live, loops := (setLoop w n fun x => { x with qSigned := target == 2 || target == 3 }).loops }) hframe)

/-! ### TARGET, THRESH and REGION (R150, R156, R157, R160) -/

/-- TARGET on a loop. -/
theorem exec_target_of_loop {s : State} {l : LaneFields} {n : Fin 64} (f : Nat) (ha : laneActs s 0x12 l = true)
    (hn : ctxLoop s l.ctx.toNat = some n.val) : exec (.target l f) s = .next (targetPass (l.argBits 0 8) f n s) :=
  (if_neg (not_not_of_acts ha)).trans (congrArg _ (onLoop_of_some _ hn))

/-- TARGET to the reference input of a loop. -/
theorem targetPass_loop {s : State} {dst : Nat} (f : Nat) (n m : Fin 64) (h : dst = m.val) :
    targetPass dst f n s = setLoop s m fun x => { x with refIn := x.refIn.put (absFret s f) 1 ((s.loops.get n).u.get (absFret s f)) } := by
  subst h
  exact dif_pos m.isLt

/-- TARGET to a Capo limit. -/
theorem targetPass_capo {s : State} {dst : Nat} (f : Nat) (n m : Fin 64) (h : dst = 64 + m.val) : targetPass dst f n s =
    { s with capo := { s.capo with
        tk := upd s.capo.tk m fun x => x.put (absFret s f) 1 (some ((s.loops.get n).u.get (absFret s f))) } } := by
  have hm : dst - 64 = m.val := by omega
  have hlt : dst - 64 < 64 := by omega
  have he : (⟨dst - 64, hlt⟩ : Fin 64) = m := Fin.ext hm
  rw [targetPass, dif_neg (by omega), dif_pos hlt, he]

theorem foldThreshold_bounds (s : State) (p v : Nat) (seg : Option Nat) :
    0 ≤ foldThreshold s p v seg ∧ foldThreshold s p v seg ≤ 1023 := clipI_bounds (by decide)

/-- The first slot of THRESH. -/
theorem exec_thresh_first {s : State} {l : LaneFields} (f : Nat) (ha : laneActs s 0x11 l = true) (h : l.argBits 0 1 = 0) :
    exec (.thresh l f) s = .next { s with ports := upd s.ports l.port.toFin fun x => { x with
      segment := x.segment.put (absFret s f) 4 (foldSegment s l.port.toFin ((s.ports.get l.port.toFin).foldback.get (absFret s f))) } } :=
  (if_neg (not_not_of_acts ha)).trans (if_neg (by rw [h]; decide))

/-- The second slot of THRESH. -/
theorem exec_thresh_second {s : State} {l : LaneFields} (f : Nat) (ha : laneActs s 0x11 l = true) (h : l.argBits 0 1 = 1) :
    exec (.thresh l f) s = .next (writeHiShadow s l.port.toFin 0
      (foldThreshold s l.port.toFin ((s.ports.get l.port.toFin).foldback.get (absFret s f))
        ((s.ports.get l.port.toFin).segment.get (absFret s f))).toNat (64 * absFret s f)) :=
  (if_neg (not_not_of_acts ha)).trans (if_pos h)

/-- REGION on a loop. -/
theorem exec_region_of_loop {s : State} {l : LaneFields} {n : Fin 64} (f : Nat) (ha : laneActs s 0x0D l = true)
    (hn : ctxLoop s l.ctx.toNat = some n.val) : exec (.region l f) s = .next (regionPass f n s) :=
  (if_neg (not_not_of_acts ha)).trans (congrArg _ (onLoop_of_some _ hn))

/-- The candidate region and the shown signal, with gain scheduling (R150). -/
theorem regionPass_effects {s : State} (f : Nat) (n : Fin 64) (hg : bit s (Fld.LOOP_SRC_GS n) = true) : let t := regionPass f n s
    let z := signal s (fget s (Fld.LOOP_SRC_ZSRC n)) f (outFret s n f)
    let h := if (s.loops.get n).firstRegion then 0 else vwVal (evalWord s n 0x01C)
    t.loops.get n = { s.loops.get n with
      cand := some (regionOf (vwVal z) h (fun k => vwVal (evalWord s n (0x00C + 4 * k))) (s.loops.get n).region), firstRegion := false } ∧
    rd t (Reg.LOOP_Z n) = z ∧ OtherLoops n s t ∧ SameBits [wholeReg (Reg.LOOP_Z n)] s t ∧
    t = { s with live := t.live, loops := t.loops } := by
  intro t z h
  have ht : t = wr (setLoop s n fun l => { l with
      cand := some (regionOf (vwVal z) h (fun k => vwVal (evalWord s n (0x00C + 4 * k))) (s.loops.get n).region)
      firstRegion := false }) (Reg.LOOP_Z n) z := if_pos hg
  rw [ht]
  exact ⟨loops_setLoop_self s n _, rd_wr_self _ _ _, otherLoops_setLoop s n _,
    ((SameBits.refl _ s).of_live rfl).wr _ _ (by simp), rfl⟩

/-- Settles O17: what COMMIT makes of the state by its target is `commitPass_effects`; TARGET, THRESH and REGION each put one value into one
pipeline, or one candidate into its loop. -/
theorem loopOutputsReachTheirTargets : Obligations.LoopOutputsReachTheirTargets := by
  unfold Obligations.LoopOutputsReachTheirTargets
  refine ⟨fun s l f hn => ⟨fun ha => ?_, fun ha => ?_, fun ha => ?_⟩, fun s l f n ha hn => ?_,
    fun s l f n m ha hn => ⟨fun h => ?_, fun h => ?_⟩, fun s l f ha => ⟨fun h => ?_, fun h => ?_⟩,
    fun s l f n ha hn => ⟨fun hg => ?_, fun hg => ?_⟩⟩
  · exact (if_neg (not_not_of_acts ha)).trans (congrArg _ (onLoop_of_none _ hn))
  · exact (if_neg (not_not_of_acts ha)).trans (congrArg _ (onLoop_of_none _ hn))
  · exact (if_neg (not_not_of_acts ha)).trans (congrArg _ (onLoop_of_none _ hn))
  · exact ⟨_, exec_commit_of_loop f ha hn, commitPass_effects s l.port.toFin (l.argBits 0 4) f n⟩
  · refine ⟨_, exec_target_of_loop f ha hn, ?_⟩
    rw [targetPass_loop f n m h]
    refine ⟨?_, otherLoops_setLoop s m _, rfl⟩
    rw [loops_setLoop_self]
    exact delivers_put _ _ _ _
  · refine ⟨_, exec_target_of_loop f ha hn, ?_⟩
    rw [targetPass_capo f n m h]
    refine ⟨?_, fun k hk => upd_get_of_ne _ _ hk, rfl⟩
    rw [upd_get_self]
    exact delivers_put _ _ _ _
  · refine ⟨_, exec_thresh_first f ha h, ?_, fun q hq => upd_get_of_ne _ _ hq, rfl⟩
    rw [upd_get_self]
    exact delivers_put _ _ _ _
  · have hv := foldThreshold_bounds s l.port.toFin ((s.ports.get l.port.toFin).foldback.get (absFret s f))
      ((s.ports.get l.port.toFin).segment.get (absFret s f))
    exact ⟨_, exec_thresh_second f ha h, writeHiShadow_effects s l.port.toFin 0 (64 * absFret s f) (by omega)⟩
  · rw [exec_region_of_loop f ha hn, regionPass, if_neg (by rw [hg]; exact Bool.false_ne_true)]
  · exact ⟨_, exec_region_of_loop f ha hn, regionPass_effects f n hg⟩

end Sys2Proof.Machine
end

section
set_option Elab.async false
namespace Sys2Proof.Machine

/-! ### The longest carrier period (R105)

A carrier of 2^24 steps, the most that R105 allows, needs bit 24 of PORT_PERIOD. O22 gives the register modulo 2^24. -/

/-- Rounds of 4096 frets with RATIO 8 on port 5: a fixed period of 2^24 steps, whose carrier begins at step 0 of a running engine. -/
def longestPeriod : State :=
  { fput (fput State.reset (Fld.PORT_CARRIER_RATIO 5) 8) Fld.SCHED_STATUS_RUN 1 with
    time := { State.reset.time with cfg := { State.reset.time.cfg with rlen := 4096 } }
    ports := upd State.reset.ports 5 fun x => { x with carrier := true } }

/-- A field of the state that an instruction answers. -/
def nextField (o : Host.Outcome State Fault Refusal) (f : Field) : Option Nat :=
  match o with
  | .next t => some (fget t f)
  | _ => none

theorem longestPeriod_runs : engineRuns longestPeriod = true ∧ (longestPeriod.ports.get 5).carrier = true := by decide +kernel

theorem longestPeriod_due : 64 * longestPeriod.time.base + 0 = (longestPeriod.ports.get 5).carStart ∧
    fget longestPeriod (Fld.PORT_CFG_UPD (5 : Fin 32)) = 0 := by decide +kernel

theorem longestPeriod_period : isFree longestPeriod (5 : Fin 32) = false ∧ fixedPeriod longestPeriod (5 : Fin 32) = 2 ^ 24 := by decide +kernel

/-- The update point shows the whole period. -/
theorem longestPeriod_shown : nextField (exec (.updatePoint 5 0) longestPeriod) (Fld.PORT_PERIOD_PERIOD (5 : Fin 32)) = some (2 ^ 24) := by
  decide +kernel

/-- Refutes O22: at the longest period of R105, 2^24 steps, the update point makes PORT_PERIOD 2^24 and not 2^24 modulo 2^24. -/
theorem not_carriersAndUpdatePoints : ¬ Obligations.CarriersAndUpdatePoints := by
  unfold Obligations.CarriersAndUpdatePoints
  rintro ⟨_, _, _, h⟩
  obtain ⟨hrun, hcar⟩ := longestPeriod_runs
  obtain ⟨hat, hupd⟩ := longestPeriod_due
  obtain ⟨hfree, hper⟩ := longestPeriod_period
  obtain ⟨t, ht, _, hshown, _⟩ := (h longestPeriod 5 0).2 hrun hcar (.inl ⟨hat, .inl hupd⟩)
  have hread := longestPeriod_shown
  rw [ht, nextField, Option.some.injEq, hshown, hfree, if_neg Bool.false_ne_true, hper] at hread
  exact absurd hread (by decide)

end Sys2Proof.Machine
end

section
set_option Elab.async false
namespace Sys2Proof.Machine

/-! ### What a report leaves of SCHED, of the ports and of a sweep -/

/-- The registers of SCHED, and those from the ports up. -/
def farReg (a : Nat) : Bool := decide (0x2000 ≤ a ∧ a < 0x3000) || decide (0x10000 ≤ a)

theorem farReg_eq_false {a : Nat} : farReg a = false ↔ a < 0x2000 ∨ (0x3000 ≤ a ∧ a < 0x10000) := by
  simp only [farReg, Bool.or_eq_false_iff, decide_eq_false_iff_not]
  omega

/-- The registers of `farReg`, of a register file, and the sweep of a comparator in progress. -/
def kept (l : List (Nat × Word)) (x : TestSt) : (Nat → Word) × Option SweepSt :=
  (fun a => if farReg a then storeGet regReset l a else 0, x.sweep)

theorem kept_wr (s : State) {a : Nat} (v : Word) (h : a < 0x2000 ∨ (0x3000 ≤ a ∧ a < 0x10000)) :
    kept (wr s a v).live (wr s a v).test = kept s.live s.test := by
  refine Prod.ext (funext fun b => ?_) rfl
  by_cases hb : farReg b = true
  · have hne : b ≠ a := fun e => Bool.false_ne_true ((farReg_eq_false.2 h).symm.trans (e ▸ hb))
    exact (if_pos hb).trans ((rd_wr_of_ne s v hne).trans (if_pos hb).symm)
  · exact (if_neg hb).trans (if_neg hb).symm

theorem kept_fput (s : State) {f : Field} (v : Nat) (h : f.addr < 0x2000 ∨ (0x3000 ≤ f.addr ∧ f.addr < 0x10000)) :
    kept (fput s f v).live (fput s f v).test = kept s.live s.test := kept_wr s _ h

theorem kept_fputB (s : State) {f : Field} (b : Bool) (h : f.addr < 0x2000 ∨ (0x3000 ≤ f.addr ∧ f.addr < 0x10000)) :
    kept (fputB s f b).live (fputB s f b).test = kept s.live s.test := kept_wr s _ h

theorem kept_fputBit (s : State) {f : Field} (n : Nat) (b : Bool) (h : f.addr < 0x2000 ∨ (0x3000 ≤ f.addr ∧ f.addr < 0x10000)) :
    kept (fputBit s f n b).live (fputBit s f n b).test = kept s.live s.test := kept_wr s _ h

theorem kept_raise (s : State) {f : Field} (h : f.addr < 0x2000 ∨ (0x3000 ≤ f.addr ∧ f.addr < 0x10000)) :
    kept (raise s f).live (raise s f).test = kept s.live s.test := kept_wr s _ h

theorem kept_inc (s : State) {f : Field} (h : f.addr < 0x2000 ∨ (0x3000 ≤ f.addr ∧ f.addr < 0x10000)) :
    kept (inc s f).live (inc s f).test = kept s.live s.test := kept_wr s _ h

theorem kept_wr64 (s : State) {lo hi : Nat} (v : Nat) (hl : lo < 0x2000 ∨ (0x3000 ≤ lo ∧ lo < 0x10000))
    (hh : hi < 0x2000 ∨ (0x3000 ≤ hi ∧ hi < 0x10000)) : kept (wr64 s lo hi v).live (wr64 s lo hi v).test = kept s.live s.test :=
  (kept_wr _ _ hh).trans (kept_wr s _ hl)

theorem kept_ledgerAdd (s : State) (o n : Nat) : kept (ledgerAdd s o n).live (ledgerAdd s o n).test = kept s.live s.test := rfl

theorem kept_foldl {α : Type} (f : State → α → State) (l : List α) (s : State)
    (h : ∀ s x, kept (f s x).live (f s x).test = kept s.live s.test) :
    kept (l.foldl f s).live (l.foldl f s).test = kept s.live s.test := frame_foldl (fun t => kept t.live t.test) f h l s

theorem kept_refreshFaultStatus (s : State) :
    kept (refreshFaultStatus s).live (refreshFaultStatus s).test = kept s.live s.test := by
  grind [refreshFaultStatus, kept_fput, kept_fputB]

theorem kept_countFault (s : State) {c : Nat} (cl k i ts : Nat) (hc : c < 0x1000) :
    kept (countFault s c cl k i ts).live (countFault s c cl k i ts).test = kept s.live s.test := by
  unfold countFault
  extract_lets b s1 s2 s3 s4 s5
  have h1 : kept s1.live s1.test = kept s.live s.test := kept_inc s (.inr (by simp only [Reg.FAULT_BCNT]; omega))
  have h3 : kept s3.live s3.test = kept s1.live s1.test := by grind [kept_fput, kept_wr64]
  have h4 : kept s4.live s4.test = kept s3.live s3.test := kept_raise s3 (by split <;> decide)
  have h5 : kept s5.live s5.test = kept s4.live s4.test := by grind [kept_fputBit]
  exact (kept_ledgerAdd ..).trans (h5.trans (h4.trans (h3.trans h1)))

theorem kept_recordLost (s : State) : kept (recordLost s).live (recordLost s).test = kept s.live s.test := by
  grind [recordLost, kept_raise, kept_inc, kept_countFault]

theorem kept_syncPending (s : State) :
    kept (syncPending s).live (syncPending s).test = kept s.live s.test := by
  grind [syncPending, kept_fput]

theorem kept_pushRecord (s : State) (typ sev code ts : Nat) (payload : List Byte) :
    kept (pushRecord s typ sev code ts payload).live (pushRecord s typ sev code ts payload).test = kept s.live s.test := by
  grind [pushRecord, kept_recordLost, kept_syncPending]

theorem kept_noteRec (s : State) (code : Nat) :
    kept (noteRec s code).live (noteRec s code).test = kept s.live s.test := by
  grind [noteRec]

theorem kept_correctedRecord (s : State) (code kind idx ts : Nat) :
    kept (correctedRecord s code kind idx ts).live (correctedRecord s code kind idx ts).test = kept s.live s.test := by
  grind [correctedRecord, kept_noteRec, kept_pushRecord]

theorem kept_reportCorrected (s : State) (code ts : Nat) (hc : code < 0x1000) :
    kept (reportCorrected s code ts).live (reportCorrected s code ts).test = kept s.live s.test := by
  grind [reportCorrected, kept_correctedRecord, kept_countFault]

theorem kept_setFeed (s : State) (f : Fin 8) (g : FeedSt → FeedSt) :
    kept (setFeed s f g).live (setFeed s f g).test = kept s.live s.test := by
  grind [setFeed]

theorem kept_putFeedState (s : State) (f : Fin 8) (t : FeedState) :
    kept (putFeedState s f t).live (putFeedState s f t).test = kept s.live s.test := by
  grind [putFeedState, kept_fput, kept_fputBit]

theorem kept_refreshSuspension (s : State) :
    kept (refreshSuspension s).live (refreshSuspension s).test = kept s.live s.test := by
  grind [refreshSuspension, kept_foldl, kept_fputB, kept_setFeed]

theorem kept_feedOut (s : State) (f : Fin 8) (g pc : Bool) :
    kept (feedOut s f g pc).live (feedOut s f g pc).test = kept s.live s.test := by
  grind [feedOut, kept_fputB, kept_fputBit, kept_raise, kept_refreshSuspension, kept_setFeed]

theorem kept_feedOn (s : State) (f : Fin 8) :
    kept (feedOn s f).live (feedOn s f).test = kept s.live s.test := by
  grind [feedOn, kept_feedOut, kept_putFeedState, kept_raise, kept_setFeed]

theorem kept_feedClose (s : State) (f : Fin 8) :
    kept (feedClose s f).live (feedClose s f).test = kept s.live s.test := by
  grind [feedClose, kept_feedOn, kept_feedOut, kept_putFeedState, kept_setFeed]

theorem kept_feedQualify (s : State) (f : Fin 8) (waived : Bool) :
    kept (feedQualify s f waived).live (feedQualify s f waived).test = kept s.live s.test := by
  grind [feedQualify, kept_feedClose, kept_feedOut, kept_putFeedState, kept_setFeed]

theorem kept_feedRunLoss (s : State) (f : Fin 8) :
    kept (feedRunLoss s f).live (feedRunLoss s f).test = kept s.live s.test := by
  grind [feedRunLoss, kept_feedOut, kept_putFeedState, kept_setFeed]

theorem kept_refreshFeed (s : State) (f : Fin 8) :
    kept (refreshFeed s f).live (refreshFeed s f).test = kept s.live s.test := by
  grind [refreshFeed, kept_feedQualify, kept_feedRunLoss]

theorem kept_refreshFeeds (s : State) :
    kept (refreshFeeds s).live (refreshFeeds s).test = kept s.live s.test := by
  grind [refreshFeeds, kept_foldl, kept_refreshFeed]

theorem kept_setSeq (s : State) (f : SeqSt → SeqSt) :
    kept (setSeq s f).live (setSeq s f).test = kept s.live s.test := by
  grind [setSeq]

theorem kept_requestOff (s : State) :
    kept (requestOff s).live (requestOff s).test = kept s.live s.test := by
  grind [requestOff, kept_setSeq]

theorem kept_setHarn (s : State) (f : HarnSt → HarnSt) :
    kept (setHarn s f).live (setHarn s f).test = kept s.live s.test := by
  grind [setHarn]

theorem kept_sendOn (s : State) (p : HPort) (prio : Nat) (from_ : Option HPort) (f : Frame) :
    kept (sendOn s p prio from_ f).live (sendOn s p prio from_ f).test = kept s.live s.test := by
  grind [sendOn, kept_setHarn]

theorem kept_reverseCopy (s : State) (from_ : Option HPort) (f : Frame) :
    kept (reverseCopy s from_ f).live (reverseCopy s from_ f).test = kept s.live s.test := by
  grind [reverseCopy, kept_sendOn]

theorem kept_sendOwn (s : State) (prio : Nat) (f : Frame) :
    kept (sendOwn s prio f).live (sendOwn s prio f).test = kept s.live s.test := by
  grind [sendOwn, kept_foldl, kept_reverseCopy, kept_sendOn]

theorem kept_nextSeq (s : State) :
    kept (nextSeq s).live (nextSeq s).test = kept s.live s.test := by
  grind [nextSeq, kept_setHarn]

theorem kept_sendFirst (s : State) (f : Frame) :
    kept (sendFirst s f).live (sendFirst s f).test = kept s.live s.test := by
  grind [sendFirst, kept_sendOwn, kept_setHarn]

theorem kept_putEvt (s : State) (urgent : Bool) (f : Frame) :
    kept (putEvt s urgent f).live (putEvt s urgent f).test = kept s.live s.test := by
  grind [putEvt, kept_nextSeq, kept_sendFirst, kept_sendOwn, kept_setHarn]

theorem kept_sendEvt (s : State) (code cls ts : Nat) :
    kept (sendEvt s code cls ts).live (sendEvt s code cls ts).test = kept s.live s.test := by
  grind [sendEvt, kept_putEvt]

theorem kept_syncAlive (s : State) :
    kept (syncAlive s).live (syncAlive s).test = kept s.live s.test := by
  grind [syncAlive]

theorem kept_abandonArm (s : State) (reason : Nat) :
    kept (abandonArm s reason).live (abandonArm s reason).test = kept s.live s.test := by
  grind [abandonArm, kept_fput, kept_raise]

theorem kept_endFreeze (s : State) :
    kept (endFreeze s).live (endFreeze s).test = kept s.live s.test := by
  grind [endFreeze, kept_fput]

theorem kept_syncSnaps (s : State) :
    kept (syncSnaps s).live (syncSnaps s).test = kept s.live s.test := by
  grind [syncSnaps, kept_fput]

theorem kept_askSnapshot (code cls ts : Nat) (scope : Nat × Nat) (s : State) (c : Nat) :
    kept (askSnapshot code cls ts scope s c).live (askSnapshot code cls ts scope s c).test = kept s.live s.test := by
  grind [askSnapshot, kept_raise, kept_reportCorrected, kept_syncSnaps]

theorem kept_makeEntry (s : State) (e code cls kind idx ts : Nat) (he : e < 64) :
    kept (makeEntry s e code cls kind idx ts).live (makeEntry s e code cls kind idx ts).test = kept s.live s.test := by
  grind [makeEntry, kept_wr, kept_wr64]

theorem kept_faultRecord (s : State) (code cls kind idx ts slot cnt : Nat) :
    kept (faultRecord s code cls kind idx ts slot cnt).live (faultRecord s code cls kind idx ts slot cnt).test = kept s.live s.test := by
  grind [faultRecord, kept_pushRecord]

theorem kept_abortCapture (s : State) (p : Fin 32) :
    kept (abortCapture s p).live (abortCapture s p).test = kept s.live s.test := by
  unfold abortCapture
  split
  · split
    · exact kept_fput _ 1 (by decide)
    · rfl
  · rfl

/-- Registers of SCHED and of the ports read as before. -/
theorem rd_of_kept {s t : State} (h : kept t.live t.test = kept s.live s.test) {a : Nat} (ha : farReg a = true) : rd t a = rd s a := by
  have := congrFun (congrArg Prod.fst h) a
  exact (if_pos ha).symm.trans (this.trans (if_pos ha))

theorem sweep_of_kept {s t : State} (h : kept t.live t.test = kept s.live s.test) : t.test.sweep = s.test.sweep :=
  congrArg Prod.snd h

/-! ### What a report, or a latch, leaves of a port and of its comparators -/

/-- From `s` to `t`, events of driver faults and comparator outputs of port `p` stay, and so does all that its glitch filters go by
(R120, R170, R184). -/
structure SettleStep (p : Fin 32) (s t : State) : Prop where
  sched : rd t Reg.SCHED_STATUS = rd s Reg.SCHED_STATUS
  event : bit s (Fld.PORT_EVENT_DRV_FLT p) = true → bit t (Fld.PORT_EVENT_DRV_FLT p) = true
  cfg : ∀ c : Fin 4, rd t (Reg.CMP_CFG p c) = rd s (Reg.CMP_CFG p c)
  filter : ∀ c : Fin 4, rd t (Reg.CMP_TIME p c) = rd s (Reg.CMP_TIME p c)
  out : ∀ (c : Fin 4) (h : Bool), bit s (outFld p c h) = true → bit t (outFld p c h) = true
  settled : (t.ports.get p).settledAt = (s.ports.get p).settledAt
  sweep : t.test.sweep = s.test.sweep
  runs : ∀ (c : Fin 4) (h : Bool) (k : Nat),
    runStart (cmpOf t p c) (sideOf (cmpOf t p c) h) k = runStart (cmpOf s p c) (sideOf (cmpOf s p c) h) k
  time : t.time = s.time
  memory : SameMemory s t

section
variable {p : Fin 32} {s t u : State}

theorem SettleStep.refl (p : Fin 32) (s : State) : SettleStep p s s :=
  ⟨rfl, id, fun _ => rfl, fun _ => rfl, fun _ _ => id, rfl, rfl, fun _ _ _ => rfl, rfl, fun _ => rfl, fun _ => rfl⟩

theorem SettleStep.trans (h : SettleStep p s t) (g : SettleStep p t u) : SettleStep p s u :=
  ⟨g.sched.trans h.sched, fun e => g.event (h.event e), fun c => (g.cfg c).trans (h.cfg c), fun c => (g.filter c).trans (h.filter c),
    fun c b e => g.out c b (h.out c b e), g.settled.trans h.settled, g.sweep.trans h.sweep,
    fun c b k => (g.runs c b k).trans (h.runs c b k), g.time.trans h.time, h.memory.trans g.memory⟩

theorem SettleStep.ite {c : Prop} [Decidable c] (ht : SettleStep p s t) (hu : SettleStep p s u) : SettleStep p s (if c then t else u) := by
  split <;> assumption

/-- A side of a comparator is shown in its status register. -/
theorem outFld_addr (p : Fin 32) (c : Fin 4) (h : Bool) : (outFld p c h).addr = Reg.CMP_STATUS p c := by cases h <;> rfl

/-- What leaves the status of the comparators whole, and the comparators themselves. -/
theorem SettleStep.of_frame (hsched : rd t Reg.SCHED_STATUS = rd s Reg.SCHED_STATUS)
    (hev : bit s (Fld.PORT_EVENT_DRV_FLT p) = true → bit t (Fld.PORT_EVENT_DRV_FLT p) = true)
    (hcfg : ∀ c : Fin 4, rd t (Reg.CMP_CFG p c) = rd s (Reg.CMP_CFG p c))
    (htime : ∀ c : Fin 4, rd t (Reg.CMP_TIME p c) = rd s (Reg.CMP_TIME p c))
    (hstat : ∀ c : Fin 4, rd t (Reg.CMP_STATUS p c) = rd s (Reg.CMP_STATUS p c))
    (hp : (t.ports.get p).settledAt = (s.ports.get p).settledAt) (hw : t.test.sweep = s.test.sweep)
    (hf : stateFrame t = stateFrame s) : SettleStep p s t := by
  have hc : t.cmps = s.cmps := (congrArg State.cmps hf :)
  refine ⟨hsched, hev, hcfg, htime, fun c h e => ?_, hp, hw, fun c h k => ?_, (congrArg State.time hf :), sameMemory_of_stateFrame hf⟩
  · rwa [bit_of_rd _ (show rd t (outFld p c h).addr = rd s (outFld p c h).addr by rw [outFld_addr, hstat])]
  · rw [cmpOf, hc, cmpOf]

/-- What leaves SCHED, the ports and everything above them. -/
theorem SettleStep.of_kept (hk : kept t.live t.test = kept s.live s.test) (hp : t.ports = s.ports) (hf : stateFrame t = stateFrame s) :
    SettleStep p s t := by
  have hr : ∀ a, 0x10000 ≤ a → rd t a = rd s a := fun a ha =>
    rd_of_kept hk (Bool.or_eq_true_iff.2 (.inr (decide_eq_true ha)))
  have hev : rd t (Reg.PORT_EVENT p) = rd s (Reg.PORT_EVENT p) := hr _ (by simp only [Reg.PORT_EVENT]; omega)
  refine .of_frame (rd_of_kept hk (by decide)) (fun e => ?_) (fun c => hr _ ?_) (fun c => hr _ ?_) (fun c => hr _ ?_) (by rw [hp])
    (sweep_of_kept hk) hf
  · rwa [bit_of_rd _ hev]
  all_goals
    simp only [Reg.CMP_CFG, Reg.CMP_TIME, Reg.CMP_STATUS]
    omega

end

end Sys2Proof.Machine
end

section
set_option Elab.async false
namespace Sys2Proof.Machine

/-! ### One port brought up to date -/

/-- The registers that bringing one port up to date writes. -/
def refreshReg (q : Fin 32) (a : Nat) : Bool := a == Reg.PORT_STATUS q || a == Reg.PORT_EVENT q || a == Reg.TEST_PWM_STAT

theorem refreshReg_eq_false {q : Fin 32} {a : Nat} :
    refreshReg q a = false ↔ a ≠ Reg.PORT_STATUS q ∧ a ≠ Reg.PORT_EVENT q ∧ a ≠ Reg.TEST_PWM_STAT := by
  simp only [refreshReg, Bool.or_eq_false_iff, beq_eq_false_iff_ne, and_assoc]

theorem refreshPort_regs (cs fs : List (Nat × Nat)) (s : State) (q : Fin 32) :
    SameRegsOutside (refreshReg q) s (refreshPort cs fs s q) := by
  have ha : ∀ t : State, SameRegsOutside (refreshReg q) t (abortCapture t q) := fun t => by
    unfold abortCapture
    split
    · split
      · have h (x : TestSt) : SameRegsOutside (refreshReg q) t { t with test := x } := fun _ _ => rfl
        exact (h _).fput _ _ (by simp [refreshReg])
      · exact .refl _ t
    · exact .refl _ t
  unfold refreshPort
  extract_lets cov pt en was settle inert pt' s1 s2
  have h0 (x : Vector PortSt 32) : SameRegsOutside (refreshReg q) s { s with ports := x } := fun _ _ => rfl
  have h2 : SameRegsOutside (refreshReg q) s s2 := ((h0 _).fputB _ _ (by simp [refreshReg])).fput _ _ (by simp [refreshReg])
  split
  · exact (h2.raise _ (by simp [refreshReg])).trans (ha _)
  · exact h2

/-- The registers of the comparators are none of them. -/
theorem refreshReg_cmp (q p : Fin 32) (c : Fin 4) : refreshReg q (Reg.CMP_CFG p c) = false ∧ refreshReg q (Reg.CMP_TIME p c) = false ∧
    refreshReg q (Reg.CMP_STATUS p c) = false := by
  have hc := c.isLt
  simp only [refreshReg_eq_false, Reg.CMP_CFG, Reg.CMP_TIME, Reg.CMP_STATUS, Reg.PORT_STATUS, Reg.PORT_EVENT, Reg.TEST_PWM_STAT]
  omega

/-- The event of a driver fault is none of the bits that it writes. -/
theorem refreshPort_drvFlt (cs fs : List (Nat × Nat)) (s : State) (p q : Fin 32) :
    bit (refreshPort cs fs s q) (Fld.PORT_EVENT_DRV_FLT p) = bit s (Fld.PORT_EVENT_DRV_FLT p) := by
  by_cases hpq : p = q
  · subst hpq
    have ha (t : State) : bit (abortCapture t p) (Fld.PORT_EVENT_DRV_FLT p) = bit t (Fld.PORT_EVENT_DRV_FLT p) :=
      bit_of_rd _ (rd_of_kept (kept_abortCapture t p) (by simp [farReg, Reg.PORT_EVENT]; omega))
    have hne (t : State) (f : Field) (v : Nat) (hf : f.addr = Reg.PORT_STATUS p) :
        bit (fput t f v) (Fld.PORT_EVENT_DRV_FLT p) = bit t (Fld.PORT_EVENT_DRV_FLT p) :=
      bit_fput_of_ne _ _ _ _ (.inl (by simp only [hf, Reg.PORT_STATUS, Reg.PORT_EVENT]; omega))
    have hr (t : State) : bit (raise t (Fld.PORT_EVENT_INERT_ENTER p)) (Fld.PORT_EVENT_DRV_FLT p) = bit t (Fld.PORT_EVENT_DRV_FLT p) :=
      bit_fput_of_ne _ _ _ _ (.inr (by simp))
    unfold refreshPort
    extract_lets cov pt en was settle inert pt' s1 s2
    have h2 : bit s2 (Fld.PORT_EVENT_DRV_FLT p) = bit s (Fld.PORT_EVENT_DRV_FLT p) := (hne s1 _ _ rfl).trans (hne _ _ _ rfl)
    split
    · exact (ha _).trans ((hr s2).trans h2)
    · exact h2
  · refine bit_of_rd _ (refreshPort_regs cs fs s q _ (refreshReg_eq_false.2 ?_))
    have hv := Fin.val_ne_of_ne hpq
    simp only [Reg.PORT_STATUS, Reg.PORT_EVENT, Reg.TEST_PWM_STAT]
    omega

theorem refreshPort_sweep (cs fs : List (Nat × Nat)) (s : State) (q : Fin 32) : (refreshPort cs fs s q).test.sweep = s.test.sweep := by
  unfold refreshPort
  extract_lets cov pt en was settle inert pt' s1 s2
  have ha := sweep_of_kept (kept_abortCapture (raise s2 (Fld.PORT_EVENT_INERT_ENTER q)) q)
  exact ite_eq_of (fun t : State => t.test.sweep) _ _ _ _ ha rfl

/-- What bringing port `q` up to date makes of the port itself. -/
theorem refreshPort_port (cs fs : List (Nat × Nat)) (s : State) (q : Fin 32) :
    let cov := cs.any fun k => scopeCoversPort s k.1 k.2 q
    let en := enWanted s (cov || !fs.isEmpty) q
    let x := (refreshPort cs fs s q).ports.get q
    x.settledAt = (s.ports.get q).settledAt ∧ bit (refreshPort cs fs s q) (Fld.PORT_STATUS_EN q) = en ∧
    (en = true → bit s (Fld.PORT_STATUS_EN q) = true → x.settle = (s.ports.get q).settle) ∧ (en = false → x.settle = none) ∧
    (inertNow s cov q = true → x.active = false ∧ ∀ g : Fin 4, (x.gates.get g).high = false) := by
  intro cov en x
  have key : x = { s.ports.get q with
        settle := if !en then none else if bit s (Fld.PORT_STATUS_EN q) then (s.ports.get q).settle
          else some (s.tick + 4 * fget s (Fld.PORT_DRV_EN_SETTLE q))
        enLowAt := x.enLowAt, active := x.active, leftIn := x.leftIn, zcExit := x.zcExit, gates := x.gates } ∧
      bit (refreshPort cs fs s q) (Fld.PORT_STATUS_EN q) = en ∧
      (inertNow s cov q = true → x.active = false ∧ ∀ g : Fin 4, (x.gates.get g).high = false) := by
    simp only [x]
    unfold refreshPort
    extract_lets pt was settle inert pt' s1 s2
    have hv : (s.ports.set q pt').get q = pt' := by simp [Vector.get_eq_getElem]
    have h2 : s2.ports.get q = pt' := by
      rw [← hv]
      rfl
    have hx : (if (pt.active && inert) = true then
        leaveSum (abortCapture (raise s2 (Fld.PORT_EVENT_INERT_ENTER q)) q) q else s2).ports.get q = pt' := by
      refine ite_eq_of (fun t : State => t.ports.get q) _ _ _ _ ?_ h2
      rw [leaveSum_ports, abortCapture_ports, raise_ports, h2]
    have hen : bit s2 (Fld.PORT_STATUS_EN q) = en :=
      (bit_fput_of_ne _ _ _ _ (.inr (by simp))).trans (bit_fputB_self _ _ _ (by simp) rfl)
    have hbit : bit (if (pt.active && inert) = true then
        leaveSum (abortCapture (raise s2 (Fld.PORT_EVENT_INERT_ENTER q)) q) q else s2) (Fld.PORT_STATUS_EN q) = en := by
      refine ite_eq_of (fun t : State => bit t (Fld.PORT_STATUS_EN q)) _ _ _ _ ?_ hen
      refine (bit_of_rd _ (rd_of_kept (kept_abortCapture (raise s2 (Fld.PORT_EVENT_INERT_ENTER q)) q) ?_)).trans ?_
      · simp only [farReg, Reg.PORT_STATUS, Bool.or_eq_true, decide_eq_true_eq]
        omega
      · rw [raise, bit_fput_of_ne _ _ _ _ (.inl (by simp only [Reg.PORT_STATUS, Reg.PORT_EVENT]; omega)), hen]
    rw [hx]
    refine ⟨rfl, hbit, fun hi => ?_⟩
    have hin : inert = true := by simp only [inert]; rw [hi, Bool.true_or]
    refine ⟨by simp only [pt', hin, Bool.not_true, Bool.and_false], fun g => ?_⟩
    simp only [pt', hin, if_true]
    exact gatesLow_high _ _ g
  obtain ⟨hx, hen, hin⟩ := key
  refine ⟨by rw [hx], hen, fun h1 h2 => ?_, fun h1 => ?_, hin⟩
  · rw [hx, h1, h2]
    rfl
  · rw [hx, h1]
    rfl

theorem settleStep_refreshPort (p : Fin 32) (cs fs : List (Nat × Nat)) (s : State) (q : Fin 32) :
    SettleStep p s (refreshPort cs fs s q) := by
  have hr := refreshPort_regs cs fs s q
  have hcmp := refreshReg_cmp q p
  refine .of_frame (hr _ (refreshReg_eq_false.2 ?_)) (fun e => (refreshPort_drvFlt cs fs s p q).trans e) (fun c => hr _ (hcmp c).1)
    (fun c => hr _ (hcmp c).2.1) (fun c => hr _ (hcmp c).2.2) ?_ (refreshPort_sweep cs fs s q) (stateFrame_refreshPort cs fs s q)
  · simp only [Reg.SCHED_STATUS, Reg.PORT_STATUS, Reg.PORT_EVENT, Reg.TEST_PWM_STAT]
    omega
  · by_cases hq : p = q
    · subst hq
      exact (refreshPort_port cs fs s p).1
    · rw [refreshPort_ports_of_ne cs fs s q p hq]

/-! ### All ports brought up to date -/

theorem settleStep_refreshPorts (p : Fin 32) (s : State) : SettleStep p s (refreshPorts s) :=
  foldl_keeps (SettleStep p s) _ (fun t q h => h.trans (settleStep_refreshPort p _ _ t q)) _ s (.refl p s)

/-- What a fold establishes at one place of its list, where the steps at the other places keep it. -/
theorem foldl_reaches {α : Type} [DecidableEq α] {f : State → α → State} (J Q : State → Prop) (a : α)
    (hJ : ∀ t x, x ≠ a → J t → J (f t x)) (hset : ∀ t, J t → Q (f t a)) (hkeep : ∀ t x, x ≠ a → Q t → Q (f t x)) :
    ∀ (l : List α) (s : State), l.Nodup → a ∈ l → J s → Q (l.foldl f s) := by
  have hrest : ∀ (l : List α) (s : State), a ∉ l → Q s → Q (l.foldl f s) := by
    intro l
    induction l with
    | nil => exact fun _ _ h => h
    | cons x l ih =>
      intro s ha h
      rw [List.mem_cons, not_or] at ha
      exact ih _ ha.2 (hkeep s x (Ne.symm ha.1) h)
  intro l
  induction l with
  | nil => exact fun _ _ h => absurd h List.not_mem_nil
  | cons x l ih =>
    intro s hn ha h
    rw [List.nodup_cons] at hn
    by_cases hx : x = a
    · subst hx
      exact hrest l _ hn.1 (hset s h)
    · exact ih _ hn.2 ((List.mem_cons.1 ha).resolve_left (Ne.symm hx)) (hJ s x hx h)

/-- A port with its enable and all its outputs low, and not active (R117, R119). -/
def PortDown (s : State) (p : Fin 32) : Prop :=
  bit s (Fld.PORT_STATUS_EN p) = false ∧ PortLow s p ∧ (s.ports.get p).active = false

/-- Another port brought up to date leaves this one. -/
theorem refreshPort_rd_of_ne (cs fs : List (Nat × Nat)) (s : State) {p q : Fin 32} (h : q ≠ p) :
    bit (refreshPort cs fs s q) (Fld.PORT_STATUS_EN p) = bit s (Fld.PORT_STATUS_EN p) :=
  bit_of_rd _ (refreshPort_regs cs fs s q _ (refreshReg_eq_false.2 (by
    have hv := Fin.val_ne_of_ne h
    simp only [Reg.PORT_STATUS, Reg.PORT_EVENT, Reg.TEST_PWM_STAT]
    omega)))

/-- The scopes of the fatal entries that stand: every port's. -/
def fatalScopes (s : State) : List (Nat × Nat) :=
  (validEntries s).filterMap fun e => if fget s (Fld.FAULT_ENTRY_CODE_CLASS e) == 2 then some (0, 0) else none

theorem refreshPorts_eq (s : State) : refreshPorts s = (List.finRange 32).foldl (refreshPort (scopes s true) (fatalScopes s)) s := rfl

/-- A port is held down that a contained entry of its own covers, and every port while the device is not ARMED (R117, R388). -/
def HeldDown (s : State) (p : Fin 32) : Prop := (1, p.val) ∈ scopes s true ∨ devState s ≠ .armed

theorem devState_refreshPort (cs fs : List (Nat × Nat)) (s : State) (q : Fin 32) : devState (refreshPort cs fs s q) = devState s := by
  rw [devState, fget_of_rd _ (refreshPort_regs cs fs s q _ (refreshReg_eq_false.2 (by
    simp only [Reg.GLOBAL_STATE, Reg.PORT_STATUS, Reg.PORT_EVENT, Reg.TEST_PWM_STAT]
    omega))), devState]

theorem refreshPorts_down {s : State} {p : Fin 32} (h : HeldDown s p) : PortDown (refreshPorts s) p := by
  rw [refreshPorts_eq]
  refine foldl_reaches (fun t => (1, p.val) ∈ scopes s true ∨ devState t ≠ .armed) (PortDown · p) p (fun t q _ => ?_) (fun t ht => ?_)
    (fun t q hq ht => ?_) _ s (List.nodup_finRange 32) (List.mem_finRange p) h
  · rw [devState_refreshPort]
    exact id
  · obtain ⟨-, hen, -, -, hin⟩ := refreshPort_port (scopes s true) (fatalScopes s) t p
    have hcov : (1, p.val) ∈ scopes s true → ((scopes s true).any fun k => scopeCoversPort t k.1 k.2 p) = true := fun hm =>
      List.any_eq_true.2 ⟨_, hm, beq_self_eq_true _⟩
    have hi : inertNow t ((scopes s true).any fun k => scopeCoversPort t k.1 k.2 p) p = true := by
      rcases ht with hm | hd
      · simp [inertNow, hcov hm]
      · exact inertNow_of_surelyInert t p (.inl hd) _
    have he : enWanted t (((scopes s true).any fun k => scopeCoversPort t k.1 k.2 p) || !(fatalScopes s).isEmpty) p = false := by
      rcases ht with hm | hd
      · simp [enWanted, hcov hm]
      · simp [enWanted, hd]
    exact ⟨hen.trans he, (hin hi).2, (hin hi).1⟩
  · obtain ⟨h1, h2, h3⟩ := ht
    have hports := refreshPort_ports_of_ne (scopes s true) (fatalScopes s) t q p (Ne.symm hq)
    refine ⟨(refreshPort_rd_of_ne _ _ t hq).trans h1, fun g => ?_, ?_⟩
    · rw [hports]
      exact h2 g
    · rw [hports]
      exact h3

/-- A port whose enable is high, and whose settle time has ended, has none afterwards (R119). -/
theorem refreshPorts_settled {s : State} {p : Fin 32} (he : bit s (Fld.PORT_STATUS_EN p) = true) (hs : (s.ports.get p).settle = none) :
    ((refreshPorts s).ports.get p).settle = none := by
  rw [refreshPorts_eq]
  refine foldl_reaches (fun t => bit t (Fld.PORT_STATUS_EN p) = true ∧ (t.ports.get p).settle = none)
    (fun t => (t.ports.get p).settle = none) p (fun t q hq ht => ?_) (fun t ht => ?_) (fun t q hq ht => ?_) _ s (List.nodup_finRange 32)
    (List.mem_finRange p) ⟨he, hs⟩
  · rw [refreshPort_rd_of_ne _ _ t hq, refreshPort_ports_of_ne _ _ t q p (Ne.symm hq)]
    exact ht
  · obtain ⟨-, -, h1, h2, -⟩ := refreshPort_port (scopes s true) (fatalScopes s) t p
    cases hen : enWanted t (((scopes s true).any fun k => scopeCoversPort t k.1 k.2 p) || !(fatalScopes s).isEmpty) p with
    | true => exact (h1 hen ht.1).trans ht.2
    | false => exact h2 hen
  · rw [refreshPort_ports_of_ne _ _ t q p (Ne.symm hq)]
    exact ht

end Sys2Proof.Machine
end

section
set_option Elab.async false
namespace Sys2Proof.Machine

/-! ### A report -/

theorem settleStep_refreshFaultStatus (p : Fin 32) (s : State) : SettleStep p s (refreshFaultStatus s) :=
  .of_kept (kept_refreshFaultStatus s) (refreshFaultStatus_ports s) (stateFrame_refreshFaultStatus s)

theorem kept_setTap (s : State) (x : TapInstr) :
    kept (setTest s fun t => { t with tap := x }).live (setTest s fun t => { t with tap := x }).test = kept s.live s.test := rfl

theorem settleStep_changeState (p : Fin 32) (s : State) (d : DevState) : SettleStep p s (changeState s d) := by
  unfold changeState
  extract_lets old s1 s1a s1t s2 s3 s4 s5
  have hk : kept (refreshFeeds s5).live (refreshFeeds s5).test = kept s.live s.test := by
    have h1 : kept s1.live s1.test = kept s.live s.test := by grind [kept_raise, setDev, kept_fput]
    have h1a : kept s1a.live s1a.test = kept s1.live s1.test := by grind [kept_abandonArm]
    have h1t : kept s1t.live s1t.test = kept s1a.live s1a.test := 
      ite_eq_of (fun t : State => kept t.live t.test) _ _ _ _ ((kept_fput (f := Fld.FAULT_FWD_STAT_FROZEN) _ 0 (by decide)).trans
        ((kept_fput (f := Fld.TEST_STATUS_DBG) _ 0 (by decide)).trans (kept_setTap s1a .idcode))) rfl
    have h5 : kept s5.live s5.test = kept s1t.live s1t.test := by grind [kept_endFreeze, kept_pushRecord, kept_syncAlive, kept_requestOff]
    exact (kept_refreshFeeds s5).trans (h5.trans (h1t.trans (h1a.trans h1)))
  have hp : (refreshFeeds s5).ports = s.ports := by
    grind [refreshFeeds_ports, raise_ports, setDev_ports, fput_ports, abandonArm_ports, setTest_ports, endFreeze_ports, pushRecord_ports,
      syncAlive_ports, requestOff_ports]
  have hf : stateFrame (refreshFeeds s5) = stateFrame s := by
    grind [stateFrame_refreshFeeds, stateFrame_raise, stateFrame_setDev, stateFrame_fput, stateFrame_abandonArm, stateFrame_setTest,
      stateFrame_endFreeze, stateFrame_pushRecord, stateFrame_syncAlive, stateFrame_requestOff]
  exact ((SettleStep.of_kept hk hp hf).trans (settleStep_refreshPorts p _)).trans (settleStep_refreshFaultStatus p _)

theorem settleStep_enterSafe (p : Fin 32) (s : State) : SettleStep p s (enterSafe s) := by
  have harm (t : State) : SettleStep p t (abandonArm t 0x04) :=
    .of_kept (kept_abandonArm ..) (abandonArm_ports ..) (stateFrame_abandonArm ..)
  have hpend : SettleStep p s (fput s Fld.GLOBAL_STATE_HIB_PEND 0) :=
    .of_kept (kept_fput s 0 (by decide)) (fput_ports ..) (stateFrame_fput ..)
  have hsafe := (hpend.trans (harm _)).trans (settleStep_changeState p _ .safe)
  unfold enterSafe
  split
  · exact hsafe
  · exact hsafe
  · exact hsafe
  · exact harm s
  · exact .of_kept rfl rfl (stateFrame_bootFatal s true)
  · exact .refl p s

/-- What a fault leaves before a fatal one reaches SAFE: its record, its snapshots and its frame (R386, R422). -/
theorem settleStep_react (p : Fin 32) (s : State) (c cl k i ts n : Nat) : SettleStep p s (react s c cl k i ts n) := by
  unfold react
  extract_lets cs s1 s2 s3
  have h1 : SettleStep p s s1 := .of_kept (kept_faultRecord ..) (faultRecord_ports ..) (stateFrame_faultRecord ..)
  have h2 : SettleStep p s1 s2 := foldl_keeps (SettleStep p s1) _ (fun t q h => h.trans
    (.of_kept (kept_askSnapshot ..) (askSnapshot_ports ..) (stateFrame_askSnapshot ..))) _ s1 (.refl p s1)
  have h3 : SettleStep p s2 s3 := .of_kept (kept_sendEvt ..) (sendEvt_ports ..) (stateFrame_sendEvt ..)
  have hs := (h1.trans h2).trans h3
  exact (hs.trans (settleStep_enterSafe p s3)).ite hs

theorem settleStep_countFault (p : Fin 32) (s : State) {c : Nat} (cl k i ts : Nat) (hc : c < 0x1000) :
    SettleStep p s (countFault s c cl k i ts) := .of_kept (kept_countFault s cl k i ts hc) (countFault_ports ..) (stateFrame_countFault ..)

theorem settleStep_register (p : Fin 32) (s : State) (c cl k i ts : Nat) : SettleStep p s (register s c cl k i ts) := by
  unfold register
  split
  · next e he =>
    refine SettleStep.trans (.of_kept (kept_inc s (.inr ?_)) (inc_ports ..) (stateFrame_inc ..)) (settleStep_react p _ _ _ _ _ _ _)
    have := matchingEntry_lt he
    simp only [Reg.FAULT_ENTRY_CNT]
    omega
  · split
    · next e he =>
      extract_lets s1 s2
      have h1 : SettleStep p s s1 :=
        .of_kept (kept_makeEntry s e c cl k i ts (freeEntry_lt he)) (makeEntry_ports ..) (stateFrame_makeEntry ..)
      have h2 : SettleStep p s1 s2 :=
        SettleStep.ite (.of_kept (kept_raise s1 (by decide)) (raise_ports ..) (stateFrame_raise ..)) (.refl p s1)
      exact (h1.trans h2).trans (settleStep_react p _ _ _ _ _ _ _)
    · exact ((settleStep_react p s c cl k i ts 0).trans (settleStep_countFault p _ 2 0 0 ts (by decide))).trans
        (settleStep_react p _ _ _ _ _ _ _)

/-- What a report leaves of a port and its comparators. -/
theorem settleStep_report (p : Fin 32) (s : State) {c : Nat} (cl k i ts : Nat) (hc : c < 0x1000) :
    SettleStep p s (report s c cl k i ts) := by
  unfold report
  split
  · exact .of_kept (kept_reportCorrected s c ts hc) (reportCorrected_ports ..) (stateFrame_reportCorrected ..)
  · extract_lets k' i' s1
    exact (((settleStep_countFault p s cl k' i' ts hc).trans (settleStep_register p _ c cl k' i' ts)).trans
      (settleStep_refreshPorts p _)).trans (settleStep_refreshFaultStatus p _)

/-! ### The entry of a contained fault of a port (R387, R388) -/

/-- Entry `e` of the table is a contained one of port `p`. -/
def CoversPort (s : State) (e : Nat) (p : Fin 32) : Prop :=
  entryValid s e = true ∧ fget s (Fld.FAULT_ENTRY_CODE_CLASS e) = 1 ∧ fget s (Fld.FAULT_ENTRY_CODE_KIND e) = 1 ∧
  fget s (Fld.FAULT_ENTRY_CODE_INDEX e) = p

theorem CoversPort.congr {s t : State} {e : Nat} {p : Fin 32} (h : CoversPort s e p)
    (hr : rd t (Reg.FAULT_ENTRY_CODE e) = rd s (Reg.FAULT_ENTRY_CODE e)) : CoversPort t e p := by
  obtain ⟨hv, hc, hk, hi⟩ := h
  exact ⟨(bit_of_rd _ hr).trans hv, (fget_of_rd _ hr).trans hc, (fget_of_rd _ hr).trans hk, (fget_of_rd _ hr).trans hi⟩

theorem CoversPort.mem_scopes {s : State} {e : Nat} {p : Fin 32} (h : CoversPort s e p) (he : e < 64) : (1, p.val) ∈ scopes s true := by
  obtain ⟨hv, hc, hk, hi⟩ := h
  refine List.mem_map.2 ⟨e, List.mem_filter.2 ⟨List.mem_filter.2 ⟨List.mem_range.2 he, hv⟩, ?_⟩, ?_⟩
  · rw [hc]
    rfl
  · rw [hk, hi]

/-- The word of a new entry. -/
theorem coversPort_makeEntry (s : State) (e ts : Nat) (p : Fin 32) : CoversPort (makeEntry s e 0x0101 1 1 p ts) e p := by
  have hw : rd (makeEntry s e 0x0101 1 1 p ts) (Reg.FAULT_ENTRY_CODE e) =
      BitVec.ofNat 32 (0x0101 + 1 * 2 ^ 16 + 1 * 2 ^ 18 + p.val * 2 ^ 21 + 2 ^ 31) := by
    rw [makeEntry, wr64, rd_wr_of_ne _ _ (by simp), rd_wr_of_ne _ _ (by simp), rd_wr_of_ne _ _ (by simp), rd_wr_self]
  have hbits : ∀ q : Fin 32, let w := BitVec.ofNat 32 (0x0101 + 1 * 2 ^ 16 + 1 * 2 ^ 18 + q.val * 2 ^ 21 + 2 ^ 31)
      getBits w 31 1 = 1 ∧ getBits w 16 2 = 1 ∧ getBits w 18 3 = 1 ∧ getBits w 21 5 = q.val := by decide
  obtain ⟨hv, hc, hk, hi⟩ := hbits p
  simp only [CoversPort, entryValid, bit, fget, hw]
  exact ⟨by rw [hv]; rfl, hc, hk, hi⟩

/-- Counting a contained fault writes none of the entries. -/
theorem countFault_contained_writes (s : State) {c : Nat} (k i ts : Nat) (hc : c / 256 ≤ 13) :
    SameRegsOutside reportWrites s (countFault s c 1 k i ts) := by
  have hb : reportWrites (Reg.FAULT_BCNT (c / 256 - 1)) = true := by
    simp only [reportWrites, Reg.FAULT_BCNT, Bool.or_eq_true, decide_eq_true_eq]
    omega
  unfold countFault
  extract_lets b s1 s2 s3 s4 s5
  have h1 : SameRegsOutside reportWrites s s1 := (SameRegsOutside.refl _ s).inc _ hb
  have h2 : SameRegsOutside reportWrites s s2 := (((h1.fput Fld.FAULT_LAST_CODE c (by decide)).fput Fld.FAULT_LAST_CLASS 1
    (by decide)).fput Fld.FAULT_LAST_KIND k (by decide)).fput Fld.FAULT_LAST_INDEX i (by decide)
  have h4 : SameRegsOutside reportWrites s s4 := (h2.wr64 _ _ _ (by decide) (by decide)).raise Fld.FAULT_EVENT_CONT (by decide)
  exact h4.of_live (ledgerAdd_live ..)

/-- What follows a contained fault writes none of the entries. -/
theorem react_contained_writes (s : State) (c k i ts n : Nat) : SameRegsOutside reportWrites s (react s c 1 k i ts n) := by
  unfold react
  extract_lets cs s1 s2 s3
  have h1 : SameRegsOutside reportWrites s s1 := pushRecord_reportWrites _ _ _ _ _ _
  have hask (t : State) (q : Nat) : SameRegsOutside reportWrites t (askSnapshot c 1 ts (k, i) t q) := by
    unfold askSnapshot
    split
    · exact ((SameRegsOutside.refl _ t).raise Fld.REC_EVENT_SNAP_LOST (by decide)).trans (reportCorrected_reportWrites _ _ _ (by decide))
    · have hrec (x : RecSt) : SameRegsOutside reportWrites t { t with saddle := x } := fun _ _ => rfl
      exact (hrec _).fput Fld.REC_STATUS_SPEND _ (by decide)
  have h2 : SameRegsOutside reportWrites s s2 := foldl_keeps (SameRegsOutside reportWrites s) _ (fun t q h => h.trans (hask t q)) _ s1 h1
  exact h2.of_live (congrArg Prod.fst (sendLeaves_sendEvt s2 c 1 ts))

theorem reportWrites_entryCode (e : Nat) (he : e < 64) : reportWrites (Reg.FAULT_ENTRY_CODE e) = false := by
  revert e
  decide

/-- A state that follows a fatal fault is not ARMED (R389). -/
theorem FatalReacted.not_armed {s t : State} (h : FatalReacted s t) : devState t ≠ .armed := by
  intro ht
  cases hd : devState s
  case idle => rw [(h.running (.inl hd)).1] at ht; cases ht
  case armed => rw [(h.running (.inr (.inl hd))).1] at ht; cases ht
  case test => rw [(h.running (.inr (.inr hd))).1] at ht; cases ht
  case boot => rw [(h.resting (.inl hd)).1, hd] at ht; cases ht
  case safe => rw [(h.resting (.inr (.inl hd))).1, hd] at ht; cases ht
  case hibernate => rw [(h.resting (.inr (.inr (.inl hd)))).1, hd] at ht; cases ht
  case off => rw [(h.resting (.inr (.inr (.inr hd)))).1, hd] at ht; cases ht

/-- A driver fault of scope port holds its port down: by an entry of its own, or, the table full, by the fatal fault that this is
(R387, R388). -/
theorem register_heldDown {s : State} {p : Fin 32} (ts : Nat)
    (hm : ∀ e, matchingEntry s 0x0101 1 p = some e → fget s (Fld.FAULT_ENTRY_CODE_CLASS e) = 1) :
    HeldDown (register s 0x0101 1 1 p ts) p := by
  unfold register
  split
  · next e he =>
    have hlt := matchingEntry_lt he
    have hfound := List.find?_some he
    simp only [Bool.and_eq_true, beq_iff_eq] at hfound
    obtain ⟨⟨-, hk⟩, hi⟩ := hfound
    have hv : entryValid s e = true := (List.mem_filter.1 (List.mem_of_find?_eq_some he)).2
    have hcov : CoversPort s e p := ⟨hv, hm e he, hk, hi⟩
    refine .inl ((hcov.congr ?_).mem_scopes hlt)
    exact (react_contained_writes _ _ _ _ _ _ _ (reportWrites_entryCode e hlt)).trans (rd_fput_of_ne _ _ (by simp))
  · split
    · next e he =>
      have hlt := freeEntry_lt he
      extract_lets s1 s2
      have h2 : rd s2 (Reg.FAULT_ENTRY_CODE e) = rd s1 (Reg.FAULT_ENTRY_CODE e) := ite_eq_of (rd · _) _ _ _ _
        (rd_fput_of_ne _ _ (by simp only [Reg.FAULT_ENTRY_CODE, Reg.FAULT_EVENT]; omega)) rfl
      exact .inl (((coversPort_makeEntry s e ts p).congr
        ((react_contained_writes s2 _ _ _ _ _ _ (reportWrites_entryCode e hlt)).trans h2)).mem_scopes hlt)
    · exact .inr (fatalReacted_react _ 0x0A10 0 0 ts 0).not_armed

theorem matchingEntry_congr {s t : State} (h : ∀ e, e < 64 → rd t (Reg.FAULT_ENTRY_CODE e) = rd s (Reg.FAULT_ENTRY_CODE e))
    (c k i : Nat) : matchingEntry t c k i = matchingEntry s c k i := by
  have hv : validEntries t = validEntries s :=
    List.filter_congr fun e he => bit_of_rd (Fld.FAULT_ENTRY_CODE_VALID e) (h e (List.mem_range.1 he))
  rw [matchingEntry, hv]
  refine List.find?_congr fun e he => ?_
  have hr := h e (List.mem_range.1 (List.mem_filter.1 he).1)
  rw [fget_of_rd (Fld.FAULT_ENTRY_CODE_CODE e) hr, fget_of_rd (Fld.FAULT_ENTRY_CODE_KIND e) hr,
    fget_of_rd (Fld.FAULT_ENTRY_CODE_INDEX e) hr]

/-- The report of a driver fault of scope port makes the port low (R119, R120). -/
theorem report_portDown {s : State} {p : Fin 32} (ts : Nat)
    (hm : ∀ e, matchingEntry s 0x0101 1 p = some e → fget s (Fld.FAULT_ENTRY_CODE_CLASS e) = 1) :
    PortDown (report s 0x0101 1 1 p ts) p := by
  have hcount := countFault_contained_writes s (c := 0x0101) 1 p ts (by decide)
  have hrd : ∀ e, e < 64 → rd (countFault s 0x0101 1 1 p ts) (Reg.FAULT_ENTRY_CODE e) = rd s (Reg.FAULT_ENTRY_CODE e) :=
    fun e he => hcount _ (reportWrites_entryCode e he)
  have hheld : HeldDown (register (countFault s 0x0101 1 1 p ts) 0x0101 1 1 p ts) p := register_heldDown ts fun e he => by
    have hlt := matchingEntry_lt he
    rw [matchingEntry_congr hrd] at he
    exact (fget_of_rd (Fld.FAULT_ENTRY_CODE_CLASS e) (hrd e hlt)).trans (hm e he)
  have he : report s 0x0101 1 1 p ts =
      refreshFaultStatus (refreshPorts (register (countFault s 0x0101 1 1 p ts) 0x0101 1 1 p ts)) := if_neg (by decide)
  rw [he]
  generalize register (countFault s 0x0101 1 1 p ts) 0x0101 1 1 p ts = u at hheld ⊢
  obtain ⟨hen, hlow, hact⟩ := refreshPorts_down hheld
  have hp := refreshFaultStatus_ports (refreshPorts u)
  refine ⟨(bit_of_rd _ (rd_of_kept (kept_refreshFaultStatus (refreshPorts u)) ?_)).trans hen, fun g => ?_, ?_⟩
  · simp only [farReg, Reg.PORT_STATUS, Bool.or_eq_true, decide_eq_true_eq]
    omega
  · rw [hp]
    exact hlow g
  · rw [hp]
    exact hact

/-! ### DRV_FLT_INPUT and DRIVER_FAULT (R120, R127) -/

theorem exec_drvFltInput (p : Fin 32) (b : Bool) (f : Nat) (s : State) : exec (.drvFltInput p b f) s = execDrvFltInput p b f s := rfl

theorem exec_driverFault (p : Fin 32) (f : Nat) (s : State) : exec (.driverFault p f) s = execDriverFault p f s := rfl

/-- A new level of the driver-fault input. -/
theorem drvFltInput_effects {s : State} {p : Fin 32} {b : Bool} (f : Nat) (h : (s.ports.get p).fltHigh ≠ b) :
    AnswersNext (exec (.drvFltInput p b f) s) fun t =>
      (t.ports.get p).fltHigh = b ∧ (t.ports.get p).fltFrom = absFret s f ∧
      fltActive t p = (b == bit s (Fld.PORT_DRV_FLT_POL p)) ∧ (fltActive t p = false → bit t (Fld.PORT_STATUS_FLT p) = false) ∧
      (fltActive t p = true → t.live = s.live) ∧ OtherPorts p s t ∧
      SameBits [Fld.PORT_STATUS_FLT p] s t ∧ t = { s with live := t.live, ports := t.ports } := by
  rw [exec_drvFltInput]
  unfold execDrvFltInput
  extract_lets x run u
  rw [if_neg h]
  have hx : u.ports.get p = { s.ports.get p with fltHigh := b, fltFrom := absFret s f, fltRun := run } := upd_get_self _ _ _
  have hother : OtherPorts p s u := fun q hq => upd_get_of_ne _ _ hq
  have hact : fltActive u p = (b == bit s (Fld.PORT_DRV_FLT_POL p)) := by
    rw [fltActive, hx]
    rfl
  have hpol : fltActive (fput u (Fld.PORT_STATUS_FLT p) 0) p = fltActive u p := by
    rw [fltActive, fput_ports, bit_fput_of_ne _ _ _ _ (.inl (by simp only [Reg.PORT_DRV, Reg.PORT_STATUS]; omega)), fltActive]
  refine answersNext_next ?_
  by_cases ha : fltActive u p = true
  · rw [if_pos ha]
    exact ⟨by rw [hx], by rw [hx], hact, fun hn => absurd ha (by rw [hn]; decide), fun _ => rfl, hother,
      (SameBits.refl _ s).of_live rfl, rfl⟩
  · rw [if_neg ha, hpol]
    exact ⟨by rw [fput_ports, hx], by rw [fput_ports, hx], hact,
      fun _ => bne_eq_false_iff_eq.2 (fget_fput_self _ _ _ (by simp)), fun h => absurd h ha, fun q hq => by rw [fput_ports, hother q hq],
      ((SameBits.refl _ s).of_live (u := u) rfl).fput _ _ (by simp), rfl⟩

/-- DRIVER_FAULT of an input that does not pass. -/
theorem driverFault_refused {s : State} {p : Fin 32} {f : Nat} (h : bit s (Fld.PORT_DRV_FLT_USE p) = false ∨
    fltPasses s p (absFret s f) = false ∨ (accepting s p = false ∧
      ((s.ports.get p).acceptAt ≠ some (absFret s f) ∨ bit s (Fld.PORT_STATUS_FLT p) = true))) :
    exec (.driverFault p f) s = .next s := by
  rw [exec_driverFault]
  refine if_neg ?_
  rcases h with h | h | ⟨h, h' | h'⟩
  · simp [h]
  · simp [h]
  · simp [h, h']
  · simp [h, h']

/-- The state in which a driver fault is reported. -/
def driverFaulted (s : State) (p : Fin 32) (f : Nat) : State :=
  raise (fputB { markAccepting s (absFret s f) with
    ports := upd (markAccepting s (absFret s f)).ports p fun x => { x with fltRun := none } } (Fld.PORT_STATUS_FLT p) (fltActive s p))
    (Fld.PORT_EVENT_DRV_FLT p)

/-- DRIVER_FAULT of an input that passes, with scope port. -/
theorem exec_driverFault_of_port {s : State} {p : Fin 32} {f : Nat} (hu : bit s (Fld.PORT_DRV_FLT_USE p) = true)
    (hs : fget s (Fld.PORT_DRV_FLT_SCOPE p) = 0)
    (ho : accepting s p = true ∨ ((s.ports.get p).acceptAt = some (absFret s f) ∧ bit s (Fld.PORT_STATUS_FLT p) = false))
    (hf : fltPasses s p (absFret s f) = true) : exec (.driverFault p f) s =
      .next (report (driverFaulted s p f) 0x0101 1 1 p (stampE (driverFaulted s p f) f)) := by
  have hsc : drvScope s p = (1, 1, p.val) := by
    rw [drvScope, hs]
    rfl
  have hopen : (accepting s p || ((s.ports.get p).acceptAt == some (absFret s f) && !bit s (Fld.PORT_STATUS_FLT p))) = true := by
    rcases ho with h | ⟨h, h'⟩
    · rw [h, Bool.true_or]
    · simp [h, h']
  rw [exec_driverFault]
  unfold execDriverFault
  rw [hsc]
  exact if_pos (by rw [hu, hopen, hf]; rfl)

end Sys2Proof.Machine
end

section
set_option Elab.async false
namespace Sys2Proof.Machine

/-! ### The latches that set when a settle time ends (R172 to R175, R184) -/

section
variable {p : Fin 32} {s t : State}

/-- A register of a comparator written beside the outputs of its status. -/
theorem SettleStep.fputCmp (h : SettleStep p s t) (c : Fin 4) (f : Field) (v : Nat)
    (hf : (f.addr = Reg.CMP_STATUS p c ∧ 2 ≤ f.lo) ∨ f.addr = Reg.CMP_EVENT p c ∨ f.addr = Reg.CMP_CNT p c) :
    SettleStep p s (fput t f v) := by
  have hc := c.isLt
  have hp := p.isLt
  have hne (a : Nat) (ha : a ≠ f.addr) : rd (fput t f v) a = rd t a := rd_fput_of_ne _ _ ha
  simp only [Reg.CMP_STATUS, Reg.CMP_EVENT, Reg.CMP_CNT] at hf
  refine h.trans ⟨hne _ ?_, fun e => (bit_fput_of_ne _ _ _ _ (.inl ?_)).trans e, fun d => hne _ ?_, fun d => hne _ ?_, fun d b e =>
    (bit_fput_of_ne _ _ _ _ ?_).trans e, rfl, rfl, fun _ _ _ => rfl, rfl, fun _ => rfl, fun _ => rfl⟩
  · simp only [Reg.SCHED_STATUS]
    omega
  · simp only [Reg.PORT_EVENT]
    omega
  · simp only [Reg.CMP_CFG]
    omega
  · simp only [Reg.CMP_TIME]
    omega
  · have hlo : (outFld p d b).lo + (outFld p d b).width ≤ 2 := by cases b <;> simp [outFld]
    rw [outFld_addr]
    simp only [Reg.CMP_STATUS]
    omega

/-- An output shown active. -/
theorem SettleStep.fputOut (h : SettleStep p s t) (c : Fin 4) (b : Bool) : SettleStep p s (fput t (outFld p c b) 1) := by
  have hc := c.isLt
  have ha := outFld_addr p c b
  simp only [Reg.CMP_STATUS] at ha
  have hne (a : Nat) (ha : a ≠ (outFld p c b).addr) : rd (fput t (outFld p c b) 1) a = rd t a := rd_fput_of_ne _ _ ha
  refine h.trans ⟨hne _ ?_, fun e => (bit_fput_of_ne _ _ _ _ (.inl ?_)).trans e, fun d => hne _ ?_, fun d => hne _ ?_, fun d b' e => ?_,
    rfl, rfl, fun _ _ _ => rfl, rfl, fun _ => rfl, fun _ => rfl⟩
  · simp only [Reg.SCHED_STATUS]
    omega
  · simp only [Reg.PORT_EVENT]
    omega
  · simp only [Reg.CMP_CFG]
    omega
  · simp only [Reg.CMP_TIME]
    omega
  · by_cases hs : d = c ∧ b' = b
    · obtain ⟨rfl, rfl⟩ := hs
      exact bit_raise_self t (outFld p d b') (by cases b' <;> simp [outFld]) (by cases b' <;> rfl)
    · refine (bit_fput_of_ne _ _ _ _ ?_).trans e
      by_cases hd : d = c
      · subst hd
        have hb : b' = !b := Bool.eq_not_of_ne fun e => hs ⟨rfl, e⟩
        rw [hb]
        cases b <;> simp [outFld]
      · refine .inl ?_
        rw [outFld_addr, ha]
        have hv := Fin.val_ne_of_ne hd
        have hd4 := d.isLt
        simp only [Reg.CMP_STATUS]
        omega

/-- A comparator changed in nothing that its glitch filter goes by. -/
theorem SettleStep.setNow (h : SettleStep p s t) (c : Fin 4) (b : Bool) : SettleStep p s (setCmp t p c fun x => { x with setNow := b }) := by
  refine h.trans ⟨rfl, id, fun _ => rfl, fun _ => rfl, fun _ _ => id, rfl, rfl, fun d k j => ?_, rfl, fun _ => rfl, fun _ => rfl⟩
  have hd : cmpOf (setCmp t p c fun x => { x with setNow := b }) p d = if d = c then { cmpOf t p d with setNow := b } else cmpOf t p d := by
    show ((upd t.cmps p fun v => upd v c fun x => { x with setNow := b }).get p).get d = _
    rw [upd_get_self]
    by_cases e : d = c
    · subst e
      rw [upd_get_self, if_pos rfl]
      rfl
    · rw [upd_get_of_ne _ _ e, if_neg e]
      rfl
  rw [hd]
  split
  · cases k <;> rfl
  · rfl

/-- A change of ports that leaves when their settle times ended. -/
theorem SettleStep.ports (h : SettleStep p s t) (v : Vector PortSt 32) (hv : (v.get p).settledAt = (t.ports.get p).settledAt) :
    SettleStep p s { t with ports := v } :=
  h.trans ⟨rfl, id, fun _ => rfl, fun _ => rfl, fun _ _ => id, hv, rfl, fun _ _ _ => rfl, rfl, fun _ => rfl, fun _ => rfl⟩

end

theorem settleStep_markAccepting (p : Fin 32) (s : State) (k : Nat) : SettleStep p s (markAccepting s k) :=
  (SettleStep.refl p s).ports _ (by
    rw [Vector.get_eq_getElem, Vector.getElem_ofFn]
    split <;> rfl)

theorem settleStep_cbcTrip (p : Fin 32) (s : State) (c : Fin 4) (f : Nat) : SettleStep p s (cbcTrip s p c f) := by
  unfold cbcTrip
  extract_lets first s1 s2 esc s3 s4
  have h1 : SettleStep p s s1 := (SettleStep.refl p s).ports _ (by rw [upd_get_self])
  have ha : SettleStep p s1 (abortCapture s1 p) := .of_kept (kept_abortCapture ..) (abortCapture_ports ..) (stateFrame_abortCapture ..)
  have h2 : SettleStep p s s2 := ((h1.trans ha).ite h1).setNow c true
  have h3 : SettleStep p s s3 := (h2.fputCmp c _ _ (.inr (.inr rfl))).ite h2
  have h4 : SettleStep p s s4 := h3.fputCmp c _ _ (.inl ⟨rfl, by simp⟩)
  refine SettleStep.ite (SettleStep.ite ?_ h4) h3
  have hm := h4.trans (settleStep_markAccepting p s4 (absFret s f))
  have hrun := hm.fputCmp c (Fld.CMP_STATUS_CBC_RUN p c) 0 (.inl ⟨rfl, by simp⟩)
  have hesc := hrun.fputCmp c (Fld.CMP_EVENT_CBC_ESC p c) 1 (.inr (.inl rfl))
  exact hesc.trans (settleStep_report p _ _ _ _ _ (by omega))

theorem settleStep_latchAction (p : Fin 32) (s : State) (c : Fin 4) (b : Bool) (f : Nat) : SettleStep p s (latchAction s p c b f) := by
  unfold latchAction
  extract_lets code m
  have hc : code < 0x1000 := by
    simp only [code]
    split <;> omega
  have hm : SettleStep p s m := settleStep_markAccepting p s _
  split
  · exact settleStep_cbcTrip p s c f
  · exact hm.trans (settleStep_report p m _ _ _ _ hc)
  · exact hm.trans (settleStep_report p m _ _ _ _ hc)
  · exact hm.trans (settleStep_report p m _ _ _ _ hc)
  · exact .refl p s

theorem settleStep_setLatch (p : Fin 32) (s : State) (c : Fin 4) (b : Bool) (f : Nat) : SettleStep p s (setLatch s p c b f) := by
  unfold setLatch
  split
  · exact .refl p s
  · extract_lets s1 s2
    have h0 := (SettleStep.refl p s).fputCmp c (latFld p c b) 1 (.inl ⟨by cases b <;> rfl, by cases b <;> simp [latFld]⟩)
    have h1 : SettleStep p s s1 := h0.fputCmp c _ _ (.inr (.inr rfl))
    have h2 : SettleStep p s s2 := h1.fputCmp c _ 1 (.inr (.inl (by cases b <;> rfl)))
    exact h2.trans (settleStep_latchAction p s2 c b f)

/-- The glitch filters go by what such a step leaves. -/
theorem SettleStep.filterPasses_eq {p : Fin 32} {s t : State} (h : SettleStep p s t) (c : Fin 4) (b : Bool) (k : Nat) :
    filterPasses t p c b k = filterPasses s p c b k := by
  have hon : sideOn t p c b = sideOn s p c b := by
    rw [sideOn, engineRuns, bit_of_rd Fld.SCHED_STATUS_RUN h.sched, bit_of_rd (Fld.CMP_CFG_ENABLE p c) (h.cfg c),
      bit_of_rd (Fld.CMP_CFG_HI_EN p c) (h.cfg c), bit_of_rd (Fld.CMP_CFG_LO_EN p c) (h.cfg c), sideOn, engineRuns]
  have hsw : swept t p = swept s p := by rw [swept, h.sweep, swept]
  rw [filterPasses, hon, hsw, h.runs, fget_of_rd _ (h.filter c), filterPasses]

theorem SettleStep.absFret_eq {p : Fin 32} {s t : State} (h : SettleStep p s t) (f : Nat) : absFret t f = absFret s f := by
  rw [absFret, h.time, absFret]

/-- One side of a comparator at the end of a settle time. -/
def latchStep (p : Fin 32) (f : Nat) (c : Fin 4) (s : State) (b : Bool) : State :=
  if filterPasses s p c b (absFret s f) then setLatch (fput s (outFld p c b) 1) p c b f else s

theorem settledLatches_eq (s : State) (p : Fin 32) (f : Nat) :
    settledLatches s p f = (List.finRange 4).foldl (fun s c => [true, false].foldl (latchStep p f c) s) s := rfl

theorem settleStep_latchStep (p : Fin 32) (f : Nat) (c : Fin 4) (s : State) (b : Bool) : SettleStep p s (latchStep p f c s b) :=
  SettleStep.ite (((SettleStep.refl p s).fputOut c b).trans (settleStep_setLatch p _ c b f)) (.refl p s)

theorem settleStep_latchSteps (p : Fin 32) (f : Nat) (c : Fin 4) (s : State) : SettleStep p s ([true, false].foldl (latchStep p f c) s) :=
  foldl_keeps (SettleStep p s) _ (fun t b h => h.trans (settleStep_latchStep p f c t b)) _ s (.refl p s)

theorem settleStep_settledLatches (p : Fin 32) (s : State) (f : Nat) : SettleStep p s (settledLatches s p f) :=
  foldl_keeps (SettleStep p s) _ (fun t c h => h.trans (settleStep_latchSteps p f c t)) _ s (.refl p s)

/-- A side whose filter has passed shows its output active. -/
theorem latchStep_out {p : Fin 32} {f : Nat} {c : Fin 4} {s : State} {b : Bool} (h : filterPasses s p c b (absFret s f) = true) :
    bit (latchStep p f c s b) (outFld p c b) = true := by
  rw [latchStep, if_pos h]
  exact (settleStep_setLatch p _ c b f).out c b
    (bit_raise_self s (outFld p c b) (by cases b <;> simp [outFld]) (by cases b <;> rfl))

theorem settledLatches_out {p : Fin 32} {f : Nat} {c : Fin 4} {s : State} {b : Bool} (h : filterPasses s p c b (absFret s f) = true) :
    bit (settledLatches s p f) (outFld p c b) = true := by
  rw [settledLatches_eq]
  refine foldl_reaches (SettleStep p s) (fun t => bit t (outFld p c b) = true) c (fun t d _ ht => ht.trans (settleStep_latchSteps p f d t))
    (fun t ht => ?_) (fun t d _ ht => (settleStep_latchSteps p f d t).out c b ht) _ s (List.nodup_finRange 4) (List.mem_finRange c)
    (.refl p s)
  refine foldl_reaches (SettleStep p s) (fun t => bit t (outFld p c b) = true) b (fun t d _ ht => ht.trans (settleStep_latchStep p f c t d))
    (fun t ht => latchStep_out ?_) (fun t d _ ht => (settleStep_latchStep p f c t d).out c b ht) _ t (by decide) (by cases b <;> decide) ht
  rw [ht.absFret_eq, ht.filterPasses_eq]
  exact h

/-- Where no filter has passed no latch sets. -/
theorem settledLatches_none {p : Fin 32} {f : Nat} {s : State} (h : ∀ (c : Fin 4) (b : Bool), filterPasses s p c b (absFret s f) = false) :
    settledLatches s p f = s :=
  foldl_keeps (· = s) _ (fun _ c e => foldl_keeps (· = s) (latchStep p f c) (fun t b e => by
    subst e
    exact if_neg (by rw [h c b]; exact Bool.false_ne_true)) _ _ e) _ s rfl

/-! ### DRIVER_FAULT with scope port (R120) -/

theorem rd_setPorts (s : State) (v : Vector PortSt 32) (a : Nat) : rd { s with ports := v } a = rd s a := rfl

theorem driverFaulted_rd (s : State) (p : Fin 32) (f : Nat) {a : Nat} (h : a < 0x10000) : rd (driverFaulted s p f) a = rd s a := by
  have h1 : a ≠ (Fld.PORT_EVENT_DRV_FLT p).addr := by simp only [Reg.PORT_EVENT]; omega
  have h2 : a ≠ (Fld.PORT_STATUS_FLT p).addr := by simp only [Reg.PORT_STATUS]; omega
  rw [driverFaulted, raise, rd_fput_of_ne _ _ h1, fputB, rd_fput_of_ne _ _ h2]
  exact (rd_setPorts (markAccepting s (absFret s f)) _ a).trans (rd_setPorts s _ a)

theorem driverFaulted_memory (s : State) (p : Fin 32) (f : Nat) : SameMemory s (driverFaulted s p f) := by
  obtain ⟨heng, hnvm⟩ := ((settleStep_markAccepting p s (absFret s f)).ports
    (upd (markAccepting s (absFret s f)).ports p fun x => { x with fltRun := none }) (by rw [upd_get_self])).memory
  refine ⟨fun o => ?_, fun o => ?_⟩
  · rw [driverFaulted, engByte_raise, engByte_fputB, heng]
  · rw [driverFaulted, nvmByte_raise, nvmByte_fputB, hnvm]

/-- DRIVER_FAULT with scope port. -/
theorem driverFault_effects {s : State} {p : Fin 32} {f : Nat} (hu : bit s (Fld.PORT_DRV_FLT_USE p) = true)
    (hs : fget s (Fld.PORT_DRV_FLT_SCOPE p) = 0)
    (ho : accepting s p = true ∨ ((s.ports.get p).acceptAt = some (absFret s f) ∧ bit s (Fld.PORT_STATUS_FLT p) = false))
    (hf : fltPasses s p (absFret s f) = true)
    (hm : ∀ e, matchingEntry s 0x0101 1 p = some e → fget s (Fld.FAULT_ENTRY_CODE_CLASS e) = 1) :
    AnswersNext (exec (.driverFault p f) s) fun t =>
      bit t (Fld.PORT_EVENT_DRV_FLT p) = true ∧ bit t (Fld.PORT_STATUS_EN p) = false ∧ PortLow t p ∧
      (t.ports.get p).active = false ∧ SameMemory s t := by
  have hrd : ∀ e, e < 64 → rd (driverFaulted s p f) (Reg.FAULT_ENTRY_CODE e) = rd s (Reg.FAULT_ENTRY_CODE e) := fun e he =>
    driverFaulted_rd s p f (by simp only [Reg.FAULT_ENTRY_CODE]; omega)
  have hev : bit (driverFaulted s p f) (Fld.PORT_EVENT_DRV_FLT p) = true := bit_raise_self _ _ (by simp) rfl
  have hmem := driverFaulted_memory s p f
  obtain ⟨hen, hlow, hact⟩ := report_portDown (s := driverFaulted s p f) (stampE (driverFaulted s p f) f) fun e he => by
    have hlt := matchingEntry_lt he
    rw [matchingEntry_congr hrd] at he
    exact (fget_of_rd (Fld.FAULT_ENTRY_CODE_CLASS e) (hrd e hlt)).trans (hm e he)
  have hstep := settleStep_report p (driverFaulted s p f) (c := 0x0101) 1 1 p (stampE (driverFaulted s p f) f) (by decide)
  exact ⟨_, exec_driverFault_of_port hu hs ho hf, hstep.event hev, hen, hlow, hact, hmem.trans hstep.memory⟩

/-! ### EN_SETTLE_END (R119, R120, R184) -/

theorem exec_enSettleEnd (p : Fin 32) (f : Nat) (s : State) : exec (.enSettleEnd p f) s = execEnSettleEnd p f s := rfl

/-- The settle time ended, before the ports are brought up to date. -/
def settleEnded (s : State) (p : Fin 32) (f : Nat) : State :=
  { s with ports := upd s.ports p fun x => { x with settle := none, settledAt := absFret s f } }

theorem exec_enSettleEnd_of_due {s : State} {p : Fin 32} {k : Nat} (f : Nat) (hk : (s.ports.get p).settle = some k) (hd : k ≤ s.tick) :
    exec (.enSettleEnd p f) s = .next (settledLatches (refreshPorts (settleEnded s p f)) p f) := by
  rw [exec_enSettleEnd, execEnSettleEnd, hk]
  exact if_neg (Nat.not_lt.2 hd)

theorem exec_enSettleEnd_of_early {s : State} {p : Fin 32} (f : Nat) (h : ∀ k, (s.ports.get p).settle = some k → s.tick < k) :
    exec (.enSettleEnd p f) s = .next s := by
  rw [exec_enSettleEnd, execEnSettleEnd]
  cases hk : (s.ports.get p).settle with
  | none => rfl
  | some k => exact if_pos (h k hk)

theorem enSettleEnd_effects {s : State} {p : Fin 32} {k : Nat} (f : Nat) (hk : (s.ports.get p).settle = some k) (hd : k ≤ s.tick) :
    AnswersNext (exec (.enSettleEnd p f) s) fun t =>
      (t.ports.get p).settledAt = absFret s f ∧ SameMemory s t ∧
      (bit s (Fld.PORT_STATUS_EN p) = true → (∀ (c : Fin 4) (h : Bool), filterPasses s p c h (absFret s f) = false) →
        (t.ports.get p).settle = none) ∧
      ∀ (c : Fin 4) (h : Bool), filterPasses s p c h (absFret s f) = true → bit t (outFld p c h) = true := by
  have hx : (settleEnded s p f).ports.get p = { s.ports.get p with settle := none, settledAt := absFret s f } := upd_get_self _ _ _
  have hpass (c : Fin 4) (b : Bool) : filterPasses (settleEnded s p f) p c b (absFret s f) = filterPasses s p c b (absFret s f) := rfl
  have hmem : SameMemory s (settleEnded s p f) := ⟨fun _ => rfl, fun _ => rfl⟩
  have hfret : absFret (settleEnded s p f) f = absFret s f := rfl
  have hen : bit (settleEnded s p f) (Fld.PORT_STATUS_EN p) = bit s (Fld.PORT_STATUS_EN p) := rfl
  refine ⟨_, exec_enSettleEnd_of_due f hk hd, ?_⟩
  generalize settleEnded s p f = u at hx hpass hmem hfret hen ⊢
  have hr := settleStep_refreshPorts p u
  have hl := settleStep_settledLatches p (refreshPorts u) f
  have hf (c : Fin 4) (b : Bool) :
      filterPasses (refreshPorts u) p c b (absFret (refreshPorts u) f) = filterPasses s p c b (absFret s f) := by
    rw [hr.absFret_eq, hfret, hr.filterPasses_eq, hpass]
  refine ⟨?_, hmem.trans (hr.trans hl).memory, fun he hnone => ?_, fun c b h => settledLatches_out ((hf c b).trans h)⟩
  · rw [(hr.trans hl).settled, hx]
  · rw [settledLatches_none fun c b => (hf c b).trans (hnone c b)]
    exact refreshPorts_settled (hen.trans he) (by rw [hx])

/-- Settles O23: a report leaves the events and the filters of a port (`SettleStep`), and a contained entry of its own, or the fatal fault of
a full table, holds the port down when the ports are brought up to date. -/
theorem driverEnableAndDriverFault : Obligations.DriverEnableAndDriverFault := by
  unfold Obligations.DriverEnableAndDriverFault
  exact ⟨fun s p b f => ⟨fun h => if_pos h, fun h => drvFltInput_effects f h⟩, fun s p f h => driverFault_refused h,
    fun s p f hu hs ho hf hm => driverFault_effects hu hs ho hf hm, fun s p f h => exec_enSettleEnd_of_early f h,
    fun s p f k hk hd => enSettleEnd_effects f hk hd⟩

end Sys2Proof.Machine
end

section
set_option Elab.async false
namespace Sys2Proof.Machine

/-! ### Words of engine memory (R9, R12) -/

/-- Two words with the same four bytes are the same word. -/
theorem word_eq_of_wordByte {v w : Word} (h : ∀ k, k < 4 → wordByte v k = wordByte w k) : v = w := by
  have hbit (x : Word) (i : Nat) : (wordByte x (i / 8)).getLsbD (i % 8) = x.getLsbD i := by
    simp [wordByte, Nat.mod_lt, Nat.div_add_mod]
  refine BitVec.eq_of_getLsbD_eq fun i hi => ?_
  rw [← hbit v, ← hbit w, h (i / 8) (by omega)]

/-- A word of engine memory written is read back. -/
theorem engWord_engSetWord_self (s : State) (o : Nat) (w : Word) : engWord (engSetWord s o w) o = w :=
  word_eq_of_wordByte fun k hk => by
    rw [engWord, wordByte_leWord _ _ hk, engByte_engSetWord, if_pos (by omega), Nat.add_sub_cancel_left]

/-- A write of engine memory changes nothing else. -/
theorem engSetBytes_only (bs : List Byte) : ∀ (s : State) (o : Nat),
    engSetBytes s o bs = { s with engMem := (engSetBytes s o bs).engMem } := by
  induction bs with
  | nil => exact fun _ _ => rfl
  | cons b bs ih => exact fun s o => ih (engSetByte s o b) (o + 1)

/-! ### Loop contexts -/

/-- A context that the change leaves as it is. -/
theorem setLoop_of_fixed {s : State} {n : Fin 64} {f : LoopSt → LoopSt} (h : f (s.loops.get n) = s.loops.get n) : setLoop s n f = s := by
  have hloops : upd s.loops n f = s.loops := by
    rw [upd, h, Vector.get_eq_getElem]
    exact Vector.set_getElem_self _
  rw [setLoop, hloops]

/-- A context depends on what the change makes of it alone. -/
theorem setLoop_congr {s : State} {n : Fin 64} {f g : LoopSt → LoopSt} (h : f (s.loops.get n) = g (s.loops.get n)) :
    setLoop s n f = setLoop s n g := by
  rw [setLoop, upd, h]
  rfl

/-! ### LOOP_MODE_WRITE and LOOP_UMAN_WRITE (R148) -/

/-- A mode stored in LOOP_MODE and waiting in its context, before MAN_PEND shows it. -/
def modeStored (s : State) (n : Fin 64) (v : Word) : State :=
  setLoop (fput (fput s (Fld.LOOP_MODE_MAN n) (getBits v 0 1)) (Fld.LOOP_MODE_LOAD_U n) (getBits v 1 1)) n fun l => { l with modePend := true }

theorem exec_loopModeWrite (n : Fin 64) (v : Word) (s : State) :
    exec (.loopModeWrite n v) s = .next (raise (modeStored s n v) (Fld.LOOP_STATUS_MAN_PEND n)) := rfl

theorem modeStored_effects (s : State) (n : Fin 64) (v : Word) : let t := modeStored s n v
    fget t (Fld.LOOP_MODE_MAN n) = getBits v 0 1 ∧ fget t (Fld.LOOP_MODE_LOAD_U n) = getBits v 1 1 ∧
    t.loops.get n = { s.loops.get n with modePend := true } ∧ OtherLoops n s t ∧
    SameBits [Fld.LOOP_MODE_MAN n, Fld.LOOP_MODE_LOAD_U n] s t ∧ t = { s with live := t.live, loops := t.loops } := by
  have hput (u : State) (f : Field) (k : Nat) (hf : f.lo + f.width ≤ 32) (hw : f.width = 1) : fget (fput u f (getBits v k 1)) f =
      getBits v k 1 := by rw [fget_fput_self _ _ _ hf, hw, Nat.mod_eq_of_lt (getBits_lt v k 1)]
  refine ⟨?_, ?_, loops_setLoop_self .., otherLoops_setLoop s n _, ?_, rfl⟩
  · rw [modeStored, fget_setLoop, fget_fput_of_ne _ _ _ _ (.inr (.inl (by simp))), hput s _ 0 (by simp) rfl]
  · rw [modeStored, fget_setLoop, hput _ _ 1 (by simp) rfl]
  · exact (((SameBits.refl _ s).fput (Fld.LOOP_MODE_MAN n) (getBits v 0 1) (by simp)).fput (Fld.LOOP_MODE_LOAD_U n) (getBits v 1 1)
      (by simp)).of_live rfl

theorem loopModeWrite_effects (s : State) (n : Fin 64) (v : Word) : let t := raise (modeStored s n v) (Fld.LOOP_STATUS_MAN_PEND n)
    fget t (Fld.LOOP_MODE_MAN n) = getBits v 0 1 ∧ fget t (Fld.LOOP_MODE_LOAD_U n) = getBits v 1 1 ∧
    bit t (Fld.LOOP_STATUS_MAN_PEND n) = true ∧ t.loops.get n = { s.loops.get n with modePend := true } ∧ OtherLoops n s t ∧
    SameBits [Fld.LOOP_MODE_MAN n, Fld.LOOP_MODE_LOAD_U n, Fld.LOOP_STATUS_MAN_PEND n] s t ∧
    t = { s with live := t.live, loops := t.loops } := by
  obtain ⟨hman, hload, hself, hother, hbits, honly⟩ := modeStored_effects s n v
  generalize modeStored s n v = u at hman hload hself hother hbits honly ⊢
  have hmode (k : Nat) : fget (raise u (Fld.LOOP_STATUS_MAN_PEND n)) ⟨Reg.LOOP_MODE n, k, 1⟩ = fget u ⟨Reg.LOOP_MODE n, k, 1⟩ :=
    fget_fput_of_ne _ _ _ _ (.inl (loopAddr_ne_of_mod (by decide)))
  have hpend : bit (raise u (Fld.LOOP_STATUS_MAN_PEND n)) (Fld.LOOP_STATUS_MAN_PEND n) = true := bit_raise_self _ _ (by simp) rfl
  have hall := (hbits.mono (gs := [Fld.LOOP_MODE_MAN n, Fld.LOOP_MODE_LOAD_U n, Fld.LOOP_STATUS_MAN_PEND n]) (by simp)).raise
    (Fld.LOOP_STATUS_MAN_PEND n) (by simp)
  have hlive : raise u (Fld.LOOP_STATUS_MAN_PEND n) = { u with live := (raise u (Fld.LOOP_STATUS_MAN_PEND n)).live } := rfl
  generalize raise u (Fld.LOOP_STATUS_MAN_PEND n) = t at hmode hpend hall hlive ⊢
  have hloops : t.loops = u.loops := by rw [hlive]
  dsimp only
  rw [hloops]
  refine ⟨(hmode 0).trans hman, (hmode 1).trans hload, hpend, hself, fun m hm => by rw [hloops, hother m hm], hall, ?_⟩
  conv_lhs => rw [hlive, honly]

theorem exec_loopUmanWrite_of_legal {v : Word} (h : vwReserved v = false) (n : Fin 64) (s : State) :
    exec (.loopUmanWrite n v) s = .next (setLoop (wr s (Reg.LOOP_UMAN n) v) n fun l => { l with umanPend := true }) :=
  congrArg Host.Outcome.next (if_neg (by rw [h]; decide))

theorem exec_loopUmanWrite_of_reserved {v : Word} (h : vwReserved v = true) (n : Fin 64) (s : State) :
    exec (.loopUmanWrite n v) s = .next s := congrArg Host.Outcome.next (if_pos h)

/-! ### LOOP_MODE_APPLY (R148, R149) -/

theorem exec_loopModeApply (n : Fin 64) (s : State) : exec (.loopModeApply n) s = .next (applyLoopMode n s) := rfl

/-- With no mode waiting, a waiting manual output takes effect, and nothing else. -/
theorem applyLoopMode_of_no_mode {s : State} {n : Fin 64} (h : (s.loops.get n).modePend = false) :
    applyLoopMode n s = setLoop s n fun c => { c with uman := if c.umanPend then rd s (Reg.LOOP_UMAN n) else c.uman, umanPend := false } := by
  simp only [applyLoopMode, h, Bool.false_and, Bool.false_eq_true, if_false]
  refine setLoop_congr ?_
  generalize s.loops.get n = l at h ⊢
  cases l
  simp_all

/-- The mode that takes effect enters MAN with LOAD_U and no manual output waiting: the loop's `u` becomes the manual output (R149). -/
def loadsOutput (s : State) (n : Fin 64) : Bool :=
  bit s (Fld.LOOP_MODE_MAN n) && !(s.loops.get n).man && bit s (Fld.LOOP_MODE_LOAD_U n) && !(s.loops.get n).umanPend

/-- The manual output in force once a waiting mode has taken effect. -/
def umanTaken (s : State) (n : Fin 64) : Word :=
  if loadsOutput s n then (s.loops.get n).u.cur else if (s.loops.get n).umanPend then rd s (Reg.LOOP_UMAN n) else (s.loops.get n).uman

/-- A waiting mode in force, and LOOP_UMAN with the output that it loads, before the flags of LOOP_STATUS and LOOP_EVENT. -/
def modeTaken (s : State) (n : Fin 64) : State :=
  setLoop (if loadsOutput s n then wr s (Reg.LOOP_UMAN n) (umanTaken s n) else s) n fun l => { l with
    man := bit s (Fld.LOOP_MODE_MAN n), uman := umanTaken s n, modePend := false, umanPend := false
    modeAt := if bit s (Fld.LOOP_MODE_MAN n) != l.man then some s.time.base else l.modeAt }

theorem applyLoopMode_of_mode {s : State} {n : Fin 64} (h : (s.loops.get n).modePend = true) :
    applyLoopMode n s = raise (fput (modeTaken s n) (Fld.LOOP_STATUS_MAN_PEND n) 0) (Fld.LOOP_EVENT_MODE_DONE n) := by
  simp only [applyLoopMode, h, Bool.true_and, if_true]
  rfl

theorem modeTaken_effects (s : State) (n : Fin 64) : let t := modeTaken s n
    (t.loops.get n).man = bit s (Fld.LOOP_MODE_MAN n) ∧ (t.loops.get n).modePend = false ∧ (t.loops.get n).umanPend = false ∧
    (t.loops.get n).uman = umanTaken s n ∧ OtherLoops n s t ∧
    rd t (Reg.LOOP_UMAN n) = (if loadsOutput s n then (s.loops.get n).u.cur else rd s (Reg.LOOP_UMAN n)) ∧
    SameBits [wholeReg (Reg.LOOP_UMAN n)] s t ∧ t = { s with live := t.live, loops := t.loops } := by
  unfold modeTaken
  cases h : loadsOutput s n with
  | true =>
    have hrd : rd (wr s (Reg.LOOP_UMAN n) (umanTaken s n)) (Reg.LOOP_UMAN n) = (s.loops.get n).u.cur := by
      rw [rd_wr_self, umanTaken, h]
      rfl
    refine ⟨?_, ?_, ?_, ?_, otherLoops_setLoop s n _, hrd, (SameBits.refl _ s).wr _ _ (by simp), rfl⟩
    all_goals rw [loops_setLoop_self]
  | false =>
    refine ⟨?_, ?_, ?_, ?_, otherLoops_setLoop s n _, rfl, (SameBits.refl _ s).of_live rfl, rfl⟩
    all_goals rw [loops_setLoop_self]

/-- The manual output in force is the one that LOOP_UMAN shows, when it waited or was loaded. -/
theorem umanTaken_of_new {s : State} {n : Fin 64} (h : (s.loops.get n).umanPend = true ∨
    (bit s (Fld.LOOP_MODE_MAN n) = true ∧ (s.loops.get n).man = false ∧ bit s (Fld.LOOP_MODE_LOAD_U n) = true)) :
    umanTaken s n = if loadsOutput s n then (s.loops.get n).u.cur else rd s (Reg.LOOP_UMAN n) := by
  rw [umanTaken]
  cases hp : (s.loops.get n).umanPend with
  | true => rfl
  | false =>
    obtain ⟨hman, hold, hload⟩ := h.resolve_left (by rw [hp]; decide)
    have hl : loadsOutput s n = true := by simp [loadsOutput, hman, hold, hload, hp]
    rw [hl]
    rfl

/-- The flags that report the mode: they change nothing else. -/
theorem modeReported_effects (u : State) (n : Fin 64) :
    let t := raise (fput u (Fld.LOOP_STATUS_MAN_PEND n) 0) (Fld.LOOP_EVENT_MODE_DONE n)
    bit t (Fld.LOOP_STATUS_MAN_PEND n) = false ∧ bit t (Fld.LOOP_EVENT_MODE_DONE n) = true ∧
    SameBits [Fld.LOOP_STATUS_MAN_PEND n, Fld.LOOP_EVENT_MODE_DONE n] u t ∧ t = { u with live := t.live } := by
  refine ⟨?_, bit_raise_self _ _ (by simp) rfl, ((SameBits.refl _ u).fput _ _ (by simp)).raise _ (by simp), rfl⟩
  have hclear : bit (fput u (Fld.LOOP_STATUS_MAN_PEND n) 0) (Fld.LOOP_STATUS_MAN_PEND n) = false := by
    rw [bit, fget_fput_self _ _ _ (by simp)]
    rfl
  exact (bit_fput_of_ne _ _ _ _ (.inl (loopAddr_ne_of_mod (by decide)))).trans hclear

theorem applyLoopMode_effects {s : State} {n : Fin 64} (h : (s.loops.get n).modePend = true) : let t := applyLoopMode n s
    (t.loops.get n).man = bit s (Fld.LOOP_MODE_MAN n) ∧ (t.loops.get n).modePend = false ∧
    bit t (Fld.LOOP_STATUS_MAN_PEND n) = false ∧ bit t (Fld.LOOP_EVENT_MODE_DONE n) = true ∧ OtherLoops n s t ∧
    (t.loops.get n).umanPend = false ∧
    rd t (Reg.LOOP_UMAN n) = (if loadsOutput s n then (s.loops.get n).u.cur else rd s (Reg.LOOP_UMAN n)) ∧
    (((s.loops.get n).umanPend = true ∨ (bit s (Fld.LOOP_MODE_MAN n) = true ∧ (s.loops.get n).man = false ∧
      bit s (Fld.LOOP_MODE_LOAD_U n) = true)) → (t.loops.get n).uman = rd t (Reg.LOOP_UMAN n)) ∧
    SameBits [wholeReg (Reg.LOOP_UMAN n), Fld.LOOP_STATUS_MAN_PEND n, Fld.LOOP_EVENT_MODE_DONE n] s t ∧
    t = { s with live := t.live, loops := t.loops } := by
  obtain ⟨hman, hmode, hpend, human, hother, hrd, hbits, honly⟩ := modeTaken_effects s n
  rw [applyLoopMode_of_mode h]
  generalize modeTaken s n = u at hman hmode hpend human hother hrd hbits honly ⊢
  obtain ⟨hshown, hdone, hflags, hlive⟩ := modeReported_effects u n
  generalize raise (fput u (Fld.LOOP_STATUS_MAN_PEND n) 0) (Fld.LOOP_EVENT_MODE_DONE n) = t at hshown hdone hflags hlive ⊢
  have hloops : t.loops = u.loops := by rw [hlive]
  have hreg : rd t (Reg.LOOP_UMAN n) = rd u (Reg.LOOP_UMAN n) := hflags.rd_eq (by simp [offRegister])
  dsimp only
  rw [hloops, hreg]
  refine ⟨hman, hmode, hshown, hdone, fun m hm => by rw [hloops, hother m hm], hpend, hrd, fun hnew => ?_, ?_, ?_⟩
  · rw [human, hrd, umanTaken_of_new hnew]
  · exact (hbits.mono (by simp)).trans (hflags.mono (by simp))
  · conv_lhs => rw [hlive, honly]

/-! ### LOOP_SHADOW_WRITE (R86, R166) -/

/-- The place of a word of the shadow bank of a loop in engine memory (R92, R153). -/
def shadowAddr (s : State) (n w : Fin 64) : Nat := 0x60000 + n * 0x400 + (1 - activeBank s n) * 0x200 + 4 * w

theorem exec_loopShadowWrite_of_pending {s : State} {n : Fin 64} (w : Fin 64) (v : Word) (h : swapPending s n = true) :
    exec (.loopShadowWrite n w v) s = .next (raise s Fld.SCHED_EVENT_SHADOW_BUSY) := congrArg Host.Outcome.next (if_pos h)

theorem exec_loopShadowWrite_of_ignored {s : State} {n w : Fin 64} {v : Word} (hp : swapPending s n = false)
    (h : vwReserved v = true ∨ 24 ≤ w.val) : exec (.loopShadowWrite n w v) s = .next s :=
  congrArg Host.Outcome.next ((if_neg (by rw [hp]; decide)).trans (if_pos (by simpa using h)))

theorem exec_loopShadowWrite_of_accepted {s : State} {n w : Fin 64} {v : Word} (hp : swapPending s n = false) (hv : vwReserved v = false)
    (hw : w.val < 24) : exec (.loopShadowWrite n w v) s = .next (engSetWord s (shadowAddr s n w) v) :=
  congrArg Host.Outcome.next ((if_neg (by rw [hp]; decide)).trans (if_neg (by simpa [hv] using hw)))

/-- A word put into engine memory: it is read there, every other byte stays, and nothing else changes. -/
theorem engSetWord_effects (s : State) (o : Nat) (w : Word) : let t := engSetWord s o w
    engWord t o = w ∧ (∀ p, (p < o ∨ o + 4 ≤ p) → engByte t p = engByte s p) ∧ t = { s with engMem := t.engMem } :=
  ⟨engWord_engSetWord_self s o w, fun p hp => (engByte_engSetWord s o p w).trans (if_neg (by omega)), engSetBytes_only _ s o⟩

/-- Settles O18: each command is one of the cases above, and LOOP_MODE_APPLY with a mode waiting is the mode taken (`modeTaken`) and then
reported. -/
theorem loopHostWritesAndModes : Obligations.LoopHostWritesAndModes := by
  unfold Obligations.LoopHostWritesAndModes
  refine ⟨fun s n v => ⟨_, exec_loopModeWrite n v s, loopModeWrite_effects s n v⟩, fun s n v hv => ?_,
    fun s n v hv => exec_loopUmanWrite_of_reserved hv n s, fun s n hm hu => ?_, fun s n hm hu => ?_,
    fun s n hm => ⟨_, exec_loopModeApply n s, applyLoopMode_effects hm⟩,
    fun s n w v hp hv hw => ⟨_, exec_loopShadowWrite_of_accepted hp hv hw, engSetWord_effects s (shadowAddr s n w) v⟩,
    fun s n w v hp => ?_, fun s n w v hp h => exec_loopShadowWrite_of_ignored hp h, fun s n => ?_⟩
  · exact ⟨_, exec_loopUmanWrite_of_legal hv n s, rd_wr_self _ _ _, loops_setLoop_self .., otherLoops_setLoop s n _,
      (SameBits.refl _ s).wr _ _ (by simp), rfl⟩
  · rw [exec_loopModeApply, applyLoopMode_of_no_mode hm, setLoop_of_fixed]
    generalize s.loops.get n = l at hu ⊢
    cases l
    simp_all
  · rw [exec_loopModeApply, applyLoopMode_of_no_mode hm]
    exact congrArg _ (setLoop_congr (by rw [hu]; rfl))
  · exact ⟨_, exec_loopShadowWrite_of_pending w v hp, bit_raise_self _ _ (by decide) rfl, (SameBits.refl _ s).raise _ (by simp), rfl⟩
  · exact ⟨_, rfl, rd_wr_self _ _ _, (SameBits.refl _ s).wr _ _ (by simp), rfl⟩

end Sys2Proof.Machine
end

section
set_option Elab.async false
namespace Sys2Proof.Machine

/-! ### One comparator changed -/

theorem cmpOf_setCmp_self (s : State) (p : Fin 32) (c : Fin 4) (f : CmpSt → CmpSt) : cmpOf (setCmp s p c f) p c = f (cmpOf s p c) := by
  rw [cmpOf, setCmp_cmps, upd_get_self, upd_get_self, cmpOf]

theorem cmpOf_setCmp_of_ne (s : State) (p : Fin 32) {c d : Fin 4} (f : CmpSt → CmpSt) (h : d ≠ c) :
    cmpOf (setCmp s p c f) p d = cmpOf s p d := by
  rw [cmpOf, setCmp_cmps, upd_get_self, upd_get_of_ne _ _ h, cmpOf]

theorem cmpOf_fput (s : State) (f : Field) (v : Nat) (p : Fin 32) (c : Fin 4) : cmpOf (fput s f v) p c = cmpOf s p c := rfl

/-- The glitch filters go by the registers that configure the comparators and by what no register holds: a status, event or threshold
written leaves them. -/
theorem filterPasses_fput (s : State) (p : Fin 32) (c : Fin 4) (b : Bool) (k : Nat) (f : Field) (v : Nat)
    (h : f.addr ≠ Reg.SCHED_STATUS ∧ f.addr ≠ Reg.CMP_CFG p c ∧ f.addr ≠ Reg.CMP_TIME p c) :
    filterPasses (fput s f v) p c b k = filterPasses s p c b k := by
  obtain ⟨hrun, hcfg, htime⟩ := h
  have hon : sideOn (fput s f v) p c b = sideOn s p c b := by
    rw [sideOn, engineRuns, bit_of_rd Fld.SCHED_STATUS_RUN (rd_fput_of_ne s v hrun.symm),
      bit_of_rd (Fld.CMP_CFG_ENABLE p c) (rd_fput_of_ne s v hcfg.symm), bit_of_rd (Fld.CMP_CFG_HI_EN p c) (rd_fput_of_ne s v hcfg.symm),
      bit_of_rd (Fld.CMP_CFG_LO_EN p c) (rd_fput_of_ne s v hcfg.symm), sideOn, engineRuns]
  rw [filterPasses, hon, fget_of_rd (Fld.CMP_TIME_GF p c) (rd_fput_of_ne s v htime.symm)]
  rfl

/-- A latch of a comparator is shown in its status register. -/
theorem latFld_addr (p : Fin 32) (c : Fin 4) (h : Bool) : (latFld p c h).addr = Reg.CMP_STATUS p c := by cases h <;> rfl

/-! ### CMP_LATCH_WRITE and CMP_LATCH_CLEAR_APPLY (R174) -/

theorem writeCmpLatch_of_cleared_by_host {s : State} {p : Fin 32} {c : Fin 4} (v : Word) (ha : fget s (Fld.CMP_CFG_ACTION p c) = 0)
    (hc : bit s (Fld.CMP_CFG_CLR p c) = false) : writeCmpLatch p c v s =
      setCmp s p c fun x => { x with clrHi := x.clrHi || v.getLsbD 0, clrLo := x.clrLo || v.getLsbD 1 } :=
  if_pos ⟨ha, by rw [hc]; rfl⟩

theorem writeCmpLatch_of_ignored {s : State} {p : Fin 32} {c : Fin 4} (v : Word)
    (h : fget s (Fld.CMP_CFG_ACTION p c) ≠ 0 ∨ bit s (Fld.CMP_CFG_CLR p c) = true) : writeCmpLatch p c v s = s :=
  if_neg fun ⟨ha, hc⟩ => h.elim (fun h => h ha) fun h => by rw [h] at hc; cases hc

/-- A clear that acts, or not, on the latch of one side. -/
theorem bit_clearLatch_self (s : State) (p : Fin 32) (c : Fin 4) (b asked : Bool) :
    bit (if asked then clearLatch s p c b else s) (latFld p c b) =
      (bit s (latFld p c b) && !(asked && !filterPasses s p c b (absFret s 0))) := by
  have h0 : bit (fput s (latFld p c b) 0) (latFld p c b) = false :=
    bne_eq_false_iff_eq.2 ((fget_fput_self _ _ _ (by cases b <;> simp [latFld])).trans (Nat.zero_mod _))
  cases asked with
  | false => simp
  | true =>
    cases hf : filterPasses s p c b (absFret s 0) with
    | true => simp [clearLatch, hf]
    | false => simp [clearLatch, hf, h0]

/-- What a clear of a side's latch leaves. -/
theorem clearLatch_leaves (s : State) (p : Fin 32) (c : Fin 4) (b asked : Bool) : let t := if asked then clearLatch s p c b else s
    SameBits [latFld p c b] s t ∧ t = { s with live := t.live } ∧ ∀ k, filterPasses t p c (!b) k = filterPasses s p c (!b) k := by
  have hc := c.isLt
  have h0 : SameBits [latFld p c b] s (fput s (latFld p c b) 0) := (SameBits.refl _ s).fput _ _ (by simp)
  have hk (k : Nat) : filterPasses (fput s (latFld p c b) 0) p c (!b) k = filterPasses s p c (!b) k := by
    refine filterPasses_fput s p c _ k _ 0 ?_
    rw [latFld_addr]
    simp only [Reg.CMP_STATUS, Reg.SCHED_STATUS, Reg.CMP_CFG, Reg.CMP_TIME]
    omega
  cases asked with
  | false => exact ⟨.refl _ s, rfl, fun _ => rfl⟩
  | true =>
    cases hf : filterPasses s p c b (absFret s 0) with
    | true => simpa [clearLatch, hf] using SameBits.refl [latFld p c b] s
    | false => simpa [clearLatch, hf] using ⟨h0, (rfl : fput s (latFld p c b) 0 = { s with live := (fput s (latFld p c b) 0).live }), hk⟩

theorem cmpLatchClearApply_effects (s : State) (p : Fin 32) (c : Fin 4) : AnswersNext (exec (.cmpLatchClearApply p c) s) fun t =>
    bit t (latFld p c true) = (bit s (latFld p c true) && !((cmpOf s p c).clrHi && !filterPasses s p c true (absFret s 0))) ∧
    bit t (latFld p c false) = (bit s (latFld p c false) && !((cmpOf s p c).clrLo && !filterPasses s p c false (absFret s 0))) ∧
    (cmpOf t p c).clrHi = false ∧ (cmpOf t p c).clrLo = false ∧ SameBits [latFld p c true, latFld p c false] s t ∧
    t = { s with live := t.live, cmps := t.cmps } := by
  let s1 := if (cmpOf s p c).clrHi then clearLatch s p c true else s
  let s2 := if (cmpOf s p c).clrLo then clearLatch s1 p c false else s1
  obtain ⟨hb1, ht1, hf1⟩ := clearLatch_leaves s p c true (cmpOf s p c).clrHi
  obtain ⟨hb2, ht2, -⟩ := clearLatch_leaves s1 p c false (cmpOf s p c).clrLo
  have hi1 : bit s1 (latFld p c true) = _ := bit_clearLatch_self s p c true (cmpOf s p c).clrHi
  have lo2 : bit s2 (latFld p c false) = _ := bit_clearLatch_self s1 p c false (cmpOf s p c).clrLo
  have hi2 : bit s2 (latFld p c true) = bit s1 (latFld p c true) := hb2.bit_eq (by simp [apartFrom, latFld])
  have lo1 : bit s1 (latFld p c false) = bit s (latFld p c false) := hb1.bit_eq (by simp [apartFrom, latFld])
  have hfret : absFret s1 0 = absFret s 0 := by
    rw [show s1 = { s with live := s1.live } from ht1]
    rfl
  have hframe : s2 = { s with live := s2.live } := by
    rw [show s2 = { s1 with live := s2.live } from ht2, show s1 = { s with live := s1.live } from ht1]
  have hbits : SameBits [latFld p c true, latFld p c false] s s2 := (hb1.mono (by simp)).trans (hb2.mono (by simp))
  refine answersNext_next (t := setCmp s2 p c fun x => { x with clrHi := false, clrLo := false }) ⟨?_, ?_, ?_, ?_, ?_, ?_⟩
  · rw [bit_setCmp, hi2, hi1]
  · rw [bit_setCmp, lo2, lo1, hfret, show filterPasses s1 p c false (absFret s 0) = filterPasses s p c false (absFret s 0) from hf1 _]
  · rw [cmpOf_setCmp_self]
  · rw [cmpOf_setCmp_self]
  · exact hbits.of_live rfl
  · rw [hframe]
    rfl

/-! ### CMP_THR_WRITE, CMP_THR_SHADOW_APPLY and CMP_CNT_CLR (R179, R180, R192) -/

theorem cmpThrWrite_effects (s : State) (p : Fin 32) (c : Fin 4) (v : Word) : AnswersNext (exec (.cmpThrWrite p c v) s) fun t =>
    fget t (Fld.CMP_THR_LO p c) = getBits v 0 10 ∧ t = { s with live := t.live, cmps := t.cmps } ∧
    (bit s (Fld.CMP_STATUS_HI_OWNED p c) = true → fget t (Fld.CMP_THR_HI p c) = fget s (Fld.CMP_THR_HI p c) ∧
      bit t (Fld.CMP_EVENT_THR_OWNED p c) = true ∧ (cmpOf t p c).thrPend = some (getBits v 0 10, none)) ∧
    (bit s (Fld.CMP_STATUS_HI_OWNED p c) = false → fget t (Fld.CMP_THR_HI p c) = getBits v 16 10 ∧
      (cmpOf t p c).thrPend = some (getBits v 0 10, some (getBits v 16 10))) ∧
    SameBits [Fld.CMP_THR_LO p c, Fld.CMP_THR_HI p c, Fld.CMP_EVENT_THR_OWNED p c] s t := by
  have hlo : fget (fput s (Fld.CMP_THR_LO p c) (getBits v 0 10)) (Fld.CMP_THR_LO p c) = getBits v 0 10 :=
    (fget_fput_self _ _ _ (by simp)).trans (Nat.mod_eq_of_lt (getBits_lt v 0 10))
  have hhi : fget (fput s (Fld.CMP_THR_LO p c) (getBits v 0 10)) (Fld.CMP_THR_HI p c) = fget s (Fld.CMP_THR_HI p c) :=
    fget_fput_of_ne _ _ _ _ (.inr (by simp))
  have hbits : SameBits [Fld.CMP_THR_LO p c, Fld.CMP_THR_HI p c, Fld.CMP_EVENT_THR_OWNED p c] s
      (fput s (Fld.CMP_THR_LO p c) (getBits v 0 10)) := (SameBits.refl _ s).fput _ _ (by simp)
  refine ⟨_, rfl, ?_⟩
  unfold writeCmpThr
  extract_lets lo hi s1
  cases ho : bit s (Fld.CMP_STATUS_HI_OWNED p c) with
  | true =>
    have hne : ∀ g : Field, g.addr = Reg.CMP_THR p c → fget (raise (setCmp s1 p c fun x => { x with thrPend := some (lo, none) })
        (Fld.CMP_EVENT_THR_OWNED p c)) g = fget s1 g := fun g hg =>
      (fget_fput_of_ne _ _ _ _ (.inl (by rw [hg]; simp only [Reg.CMP_THR, Reg.CMP_EVENT]; omega))).trans (fget_setCmp ..)
    rw [if_pos rfl, hne _ rfl, hne _ rfl]
    refine ⟨hlo, rfl, fun _ => ⟨hhi, bit_raise_self _ _ (by simp) rfl, ?_⟩, fun h => Bool.noConfusion h, ?_⟩
    · rw [raise, cmpOf_fput, cmpOf_setCmp_self]
    · exact (hbits.of_live (setCmp_live ..)).raise _ (by simp)
  | false =>
    rw [if_neg Bool.false_ne_true]
    refine ⟨?_, rfl, fun h => Bool.noConfusion h, fun _ => ⟨?_, ?_⟩, ?_⟩
    · rw [fget_fput_of_ne _ _ _ _ (.inr (by simp)), fget_setCmp, hlo]
    · exact (fget_fput_self _ _ _ (by simp)).trans (Nat.mod_eq_of_lt (getBits_lt v 16 10))
    · rw [cmpOf_fput, cmpOf_setCmp_self]
    · exact (hbits.of_live (setCmp_live ..)).fput _ _ (by simp)

theorem cmpThrShadowApply_effects {s : State} {p : Fin 32} {c : Fin 4} {lo : Nat} {hi : Option Nat}
    (h : (cmpOf s p c).thrPend = some (lo, hi)) : AnswersNext (exec (.cmpThrShadowApply p c) s) fun t =>
      (cmpOf t p c).thrPend = none ∧ (cmpOf t p c).shLo = lo ∧
      (∀ h, hi = some h → Delivers (cmpOf s p c).shHi (cmpOf t p c).shHi (64 * s.time.base) 0 h) ∧
      (hi = none → (cmpOf t p c).shHi = (cmpOf s p c).shHi) ∧ t = { s with cmps := t.cmps } := by
  have he : exec (.cmpThrShadowApply p c) s = .next (setCmp s p c fun x => { x with
      thrPend := none, shLo := lo
      shHi := match (generalizing := false) hi with | some h => x.shHi.put (64 * s.time.base) 0 h | none => x.shHi }) := by
    change execCmpThrShadowApply p c s = _
    rw [execCmpThrShadowApply, h] <;> rfl
  refine ⟨_, he, ?_⟩
  dsimp only
  rw [cmpOf_setCmp_self]
  refine ⟨rfl, rfl, fun v hv => ?_, fun hn => ?_, rfl⟩
  · subst hv
    exact delivers_put _ _ _ _
  · subst hn
    rfl

theorem cmpThrShadowApply_of_none {s : State} {p : Fin 32} {c : Fin 4} (h : (cmpOf s p c).thrPend = none) :
    exec (.cmpThrShadowApply p c) s = .next s := by
  change execCmpThrShadowApply p c s = _
  rw [execCmpThrShadowApply, h]

/-- Settles O25: each command is one update of the comparator, or of the registers that show it. -/
theorem comparatorHostWritesWaitForTheirBoundary : Obligations.ComparatorHostWritesWaitForTheirBoundary := by
  unfold Obligations.ComparatorHostWritesWaitForTheirBoundary
  refine ⟨fun s p c v => ⟨_, rfl, fun ha hc => ?_, fun h => writeCmpLatch_of_ignored v h⟩, cmpLatchClearApply_effects, cmpThrWrite_effects,
    fun s p c lo hi h => cmpThrShadowApply_effects h, fun s p c h => cmpThrShadowApply_of_none h,
    fun s p c => ⟨_, rfl, rd_wr_self _ _ _, (SameBits.refl _ s).wr _ _ (by simp), rfl⟩⟩
  rw [writeCmpLatch_of_cleared_by_host v ha hc, cmpOf_setCmp_self]
  exact ⟨rfl, rfl, rfl⟩

end Sys2Proof.Machine
end

section
set_option Elab.async false
namespace Sys2Proof.Machine

/-! ### The sides of a comparator (R169, R170) -/

theorem overSide_iff (was : Bool) (x thr : Rat) {h : Rat} (hh : 0 ≤ h) :
    overSide was x thr h = true ↔ thr < x ∨ (was = true ∧ thr - h ≤ x) := by
  cases was with
  | false => simp [overSide]
  | true =>
    simp only [overSide, if_true, Bool.not_eq_true', decide_eq_false_iff_not, not_lt, true_and]
    constructor
    · exact .inr
    · rintro (hx | hx) <;> linarith

theorem underSide_iff (was : Bool) (x thr : Rat) {h : Rat} (hh : 0 ≤ h) :
    underSide was x thr h = true ↔ x < thr ∨ (was = true ∧ x ≤ thr + h) := by
  cases was with
  | false => simp [underSide]
  | true =>
    simp only [underSide, if_true, Bool.not_eq_true', decide_eq_false_iff_not, not_lt, true_and]
    constructor
    · exact .inr
    · rintro (hx | hx) <;> linarith

theorem hystVolt_nonneg (n : Nat) : 0 ≤ hystVolt n := by
  unfold hystVolt
  split <;> norm_num

theorem SideSt.put_on (d : SideSt) (b : Bool) (f : Nat) : (d.put b f).on = b := by
  unfold SideSt.put
  split
  · assumption
  · rfl

/-- A quiet side that goes active shows it from the sample on in which it does (R170). -/
theorem SideSt.put_of_quiet {d : SideSt} {b : Bool} {f : Nat} (h : d = ⟨false, []⟩) (hb : b = true) : d.put b f = ⟨true, [(f, true)]⟩ := by
  subst h hb
  rfl

/-- A side that has been active since the sample of fret `f`, with no blanking, passes its filter once max(GF, 1) samples are visible, each
two frets after it is taken (R170). -/
theorem filterPasses_of_steady {s : State} {p : Fin 32} {c : Fin 4} {b : Bool} {f : Nat}
    (hside : sideOf (cmpOf s p c) b = ⟨true, [(f, true)]⟩) (hblank : (cmpOf s p c).blanks = []) (hfrom : (cmpOf s p c).filtFrom ≤ f)
    (k : Nat) : filterPasses s p c b k =
      (sideOn s p c b && !swept s p && decide (f + 1 + max (fget s (Fld.CMP_TIME_GF p c)) 1 ≤ k)) := by
  have hone : 1 ≤ max (fget s (Fld.CMP_TIME_GF p c)) 1 := le_max_right _ _
  unfold filterPasses
  extract_lets x
  rw [Bool.and_assoc _ (decide (2 ≤ k))]
  refine congrArg ((sideOn s p c b && !swept s p) && ·) ?_
  by_cases hk : f ≤ k - 2
  · have hrun : runStart x (sideOf x b) (k - 2) = some f := by
      simp [runStart, x, hside, hblank, hk, hfrom]
    rw [hrun, ← Bool.decide_and]
    exact decide_eq_decide.2 (by omega)
  · have hrun : runStart x (sideOf x b) (k - 2) = none := by
      simp [runStart, x, hside, hk]
    rw [hrun, Bool.and_false]
    exact (decide_eq_false (by omega)).symm

/-! ### CMP_CROSSING (R167 to R170) -/

/-- A comparator after CMP_CROSSING. -/
theorem senseCmp_self (s : State) (p : Fin 32) (c : Fin 4) (v : Rat) (f : Nat) :
    cmpOf (senseCmp (setCmp s p c fun x => { x with level := v }) p c f) p c = { cmpOf s p c with
      level := v
      hi := (cmpOf s p c).hi.put (overSide (cmpOf s p c).hi.on (cmpSeen s p c v) (codeVolt (fget s (Fld.CMP_THR_ACT_HI p c)))
        (hystVolt (fget s (Fld.CMP_CFG_HYST p c)))) f
      lo := (cmpOf s p c).lo.put (underSide (cmpOf s p c).lo.on (cmpSeen s p c v) (codeVolt (fget s (Fld.CMP_THR_ACT_LO p c)))
        (hystVolt (fget s (Fld.CMP_CFG_HYST p c)))) f } := by
  have hseen (u : Rat) : cmpSeen (setCmp s p c fun x => { x with level := v }) p c u = cmpSeen s p c u := rfl
  unfold senseCmp
  extract_lets x h hi lo
  rw [cmpOf_setCmp_self, cmpOf_setCmp_self]
  simp only [x, h, hi, lo, hseen, fget_setCmp, cmpOf_setCmp_self]
  rfl

/-- What CMP_CROSSING leaves. -/
theorem senseCmp_leaves (s : State) (p : Fin 32) (c : Fin 4) (g : CmpSt → CmpSt) (f : Nat) : let t := senseCmp (setCmp s p c g) p c f
    (∀ d, d ≠ c → cmpOf t p d = cmpOf s p d) ∧ (∀ q, q ≠ p → t.cmps.get q = s.cmps.get q) ∧ t = { s with cmps := t.cmps } := by
  refine ⟨fun d hd => ?_, fun q hq => ?_, rfl⟩
  · exact (cmpOf_setCmp_of_ne _ p _ hd).trans (cmpOf_setCmp_of_ne s p _ hd)
  · exact (upd_get_of_ne _ _ hq).trans (upd_get_of_ne _ _ hq)

/-- The voltage that a code stands for (R168). -/
theorem codeVolt_eq (n : Nat) : codeVolt n = (n : Rat) / 1024 * (8 / 10) := by
  unfold codeVolt
  ring

theorem hystVolt_eq (n : Nat) :
    hystVolt n = match n with | 0 => 0 | 1 => 5 / 1000 | 2 => 10 / 1000 | _ => 20 / 1000 := by
  match n with
  | 0 => rfl
  | 1 => exact show (1 / 200 : Rat) = 5 / 1000 by norm_num
  | 2 => exact show (1 / 100 : Rat) = 10 / 1000 by norm_num
  | _ + 3 => exact show (1 / 50 : Rat) = 20 / 1000 by norm_num

theorem cmpSeen_eq (s : State) (p : Fin 32) (c : Fin 4) (v : Rat) :
    cmpSeen s p c v = if c = 0 ∨ c = 3 then 2 / 5 + (2 : Rat) ^ fget s (Fld.PORT_CFG_PGA p) * v else v := by
  unfold cmpSeen
  refine if_congr (by fin_cases c <;> simp) ?_ rfl
  rw [Nat.cast_pow, Nat.cast_ofNat]

theorem cmpCrossing_effects (s : State) (p : Fin 32) (c : Fin 4) (vp vn : Rat) (f : Nat) :
    let v := vp - vn
    let seen : Rat := if c = 0 ∨ c = 3 then 2 / 5 + (2 : Rat) ^ fget s (Fld.PORT_CFG_PGA p) * v else v
    let hyst : Rat := match fget s (Fld.CMP_CFG_HYST p c) with | 0 => 0 | 1 => 5 / 1000 | 2 => 10 / 1000 | _ => 20 / 1000
    let hi : Rat := (fget s (Fld.CMP_THR_ACT_HI p c) : Rat) / 1024 * (8 / 10)
    let lo : Rat := (fget s (Fld.CMP_THR_ACT_LO p c) : Rat) / 1024 * (8 / 10)
    AnswersNext (exec (.cmpCrossing p c vp vn f) s) fun t =>
      (cmpOf t p c).level = v ∧
      ((cmpOf t p c).hi.on = true ↔ hi < seen ∨ ((cmpOf s p c).hi.on = true ∧ hi - hyst ≤ seen)) ∧
      ((cmpOf t p c).lo.on = true ↔ seen < lo ∨ ((cmpOf s p c).lo.on = true ∧ seen ≤ lo + hyst)) ∧
      (cmpOf t p c).hi = (cmpOf s p c).hi.put (cmpOf t p c).hi.on (absFret s f + 1) ∧
      (cmpOf t p c).lo = (cmpOf s p c).lo.put (cmpOf t p c).lo.on (absFret s f + 1) ∧
      (∀ d, d ≠ c → cmpOf t p d = cmpOf s p d) ∧ (∀ q, q ≠ p → t.cmps.get q = s.cmps.get q) ∧
      (∀ h, (sideOf (cmpOf s p c) h) = ⟨false, []⟩ → (cmpOf s p c).blanks = [] → (cmpOf s p c).filtFrom ≤ absFret s f + 1 →
        (sideOf (cmpOf t p c) h).on = true → ∀ k, filterPasses t p c h k =
          (sideOn s p c h && !swept s p && decide (absFret s f + 2 + max (fget s (Fld.CMP_TIME_GF p c)) 1 ≤ k))) ∧
      t = { s with cmps := t.cmps } := by
  intro v seen hyst hi lo
  have hself := senseCmp_self s p c v (absFret s f + 1)
  obtain ⟨hother, hports, hframe⟩ := senseCmp_leaves s p c (fun x => { x with level := v }) (absFret s f + 1)
  have hhyst : hystVolt (fget s (Fld.CMP_CFG_HYST p c)) = hyst := hystVolt_eq _
  rw [cmpSeen_eq, codeVolt_eq, codeVolt_eq, hhyst] at hself
  have hh : 0 ≤ hyst := hhyst ▸ hystVolt_nonneg _
  refine ⟨senseCmp (setCmp s p c fun x => { x with level := v }) p c (absFret s f + 1), rfl, ?_⟩
  generalize senseCmp (setCmp s p c fun x => { x with level := v }) p c (absFret s f + 1) = t at hself hother hports hframe ⊢
  have hon (b : Bool) : sideOn t p c b = sideOn s p c b := by
    rw [hframe]
    rfl
  have hsw : swept t p = swept s p := by
    rw [hframe]
    rfl
  have hgf : fget t (Fld.CMP_TIME_GF p c) = fget s (Fld.CMP_TIME_GF p c) := by
    rw [hframe]
    rfl
  refine ⟨by rw [hself], ?_, ?_, ?_, ?_, hother, hports, fun b hq hb hf hact k => ?_, hframe⟩
  · rw [hself, SideSt.put_on]
    exact overSide_iff _ _ _ hh
  · rw [hself, SideSt.put_on]
    exact underSide_iff _ _ _ hh
  · rw [hself, SideSt.put_on]
  · rw [hself, SideSt.put_on]
  · have hside : sideOf (cmpOf t p c) b = ⟨true, [(absFret s f + 1, true)]⟩ := by
      rw [hself] at hact ⊢
      cases b with
      | true => exact SideSt.put_of_quiet hq ((SideSt.put_on ..).symm.trans hact)
      | false => exact SideSt.put_of_quiet hq ((SideSt.put_on ..).symm.trans hact)
    rw [filterPasses_of_steady hside (by rw [hself]; exact hb) (by rw [hself]; exact hf), hon, hsw, hgf]

end Sys2Proof.Machine
end

section
set_option Elab.async false
namespace Sys2Proof.Machine

/-! ### The result of a keep-alive comparator (R169, R185) -/

/-- What R169 asks of the output of a comparator with input `x`, threshold `thr` and hysteresis `h`, which trips above where `above` says so:
active beyond the threshold, inactive beyond threshold and hysteresis back, and between them as it was. -/
structure OutputJudged (above : Prop) (was out : Bool) (x thr h : Rat) : Prop where
  tripsAbove : above → thr < x → out = true
  restsAbove : above → x < thr - h → out = false
  tripsBelow : ¬ above → x < thr → out = true
  restsBelow : ¬ above → thr + h < x → out = false
  holds : thr - h ≤ x → x ≤ thr + h → (above → x ≤ thr) → (¬ above → thr ≤ x) → out = was

theorem overSide_judged {above : Prop} (ha : above) (was : Bool) (x thr : Rat) {h : Rat} (hh : 0 ≤ h) :
    OutputJudged above was (overSide was x thr h) x thr h where
  tripsAbove := fun _ hx => (overSide_iff was x thr hh).2 (.inl hx)
  restsAbove := fun _ hx => Bool.eq_false_iff.2 fun e => ((overSide_iff was x thr hh).1 e).elim (fun e => by linarith) fun e => by linarith
  tripsBelow := fun hn => absurd ha hn
  restsBelow := fun hn => absurd ha hn
  holds := fun hx _ hle _ => Bool.eq_iff_iff.2 ⟨fun e => ((overSide_iff was x thr hh).1 e).elim (fun e => absurd (hle ha) (not_le.2 e)) And.left,
    fun e => (overSide_iff was x thr hh).2 (.inr ⟨e, hx⟩)⟩

theorem underSide_judged {above : Prop} (ha : ¬ above) (was : Bool) (x thr : Rat) {h : Rat} (hh : 0 ≤ h) :
    OutputJudged above was (underSide was x thr h) x thr h where
  tripsAbove := fun hn => absurd hn ha
  restsAbove := fun hn => absurd hn ha
  tripsBelow := fun _ hx => (underSide_iff was x thr hh).2 (.inl hx)
  restsBelow := fun _ hx => Bool.eq_false_iff.2 fun e => ((underSide_iff was x thr hh).1 e).elim (fun e => by linarith) fun e => by linarith
  holds := fun _ hx _ hle => Bool.eq_iff_iff.2
    ⟨fun e => ((underSide_iff was x thr hh).1 e).elim (fun e => absurd (hle ha) (not_le.2 e)) And.left,
      fun e => (underSide_iff was x thr hh).2 (.inr ⟨e, hx⟩)⟩

theorem kaSpan_eq (k : Fin 6) : kaSpan k = if k = 2 then 1 / 10 else if k = 5 then 2 else 4 / 5 := by
  fin_cases k <;> rfl

/-- The hysteresis codes scale with the span (R185). -/
theorem kaHyst_eq (s : State) (k : Nat) : hystVolt (fget s (Fld.KA_CFG_HYST k)) * kaSpan k / (4 / 5) =
    [0, 1 / 160, 1 / 80, 1 / 40].getD (fget s (Fld.KA_CFG_HYST k)) 0 * kaSpan k := by
  have hlt : fget s (Fld.KA_CFG_HYST k) < 4 := fget_lt s _
  generalize fget s (Fld.KA_CFG_HYST k) = n at hlt ⊢
  interval_cases n <;> simp [hystVolt] <;> ring

/-- The result of comparator `k` for `v` volts at its input. -/
theorem kaResult_judged (s : State) (k : Fin 6) (v : Rat) :
    let span : Rat := if k = 2 then 1 / 10 else if k = 5 then 2 else 4 / 5
    OutputJudged (bit s (Fld.KA_CFG_POL k) = true ∨ k = 2 ∨ k = 5) (fbit s Fld.KA_STATUS_OUT k) (kaResult s k v)
      (if k = 2 ∧ v < 0 then -v else v) ((fget s (Fld.KA_CFG_THR k) : Rat) / 1024 * span)
      ([0, 1 / 160, 1 / 80, 1 / 40].getD (fget s (Fld.KA_CFG_HYST k)) 0 * span) := by
  intro span
  have hspan : kaSpan k = span := kaSpan_eq k
  have hpos : 0 ≤ hystVolt (fget s (Fld.KA_CFG_HYST k)) * kaSpan k / (4 / 5) := by
    have h0 := hystVolt_nonneg (fget s (Fld.KA_CFG_HYST k))
    have h1 : 0 ≤ kaSpan k := by
      unfold kaSpan
      split <;> norm_num
    positivity
  have hx : (if k.val = 2 ∧ v < 0 then -v else v) = if k = 2 ∧ v < 0 then -v else v :=
    if_congr (and_congr_left' (Fin.val_eq_val k 2)) rfl rfl
  have habove : ((bit s (Fld.KA_CFG_POL k) || k.val == 2 || k.val == 5) = true) ↔ (bit s (Fld.KA_CFG_POL k) = true ∨ k = 2 ∨ k = 5) := by
    rw [Bool.or_eq_true, Bool.or_eq_true, beq_iff_eq, beq_iff_eq, or_assoc]
    exact or_congr_right (or_congr (Fin.val_eq_val k 2) (Fin.val_eq_val k 5))
  rw [kaResult, hx]
  rw [← hspan, ← kaHyst_eq]
  split
  · next h => exact overSide_judged (habove.1 h) _ _ _ hpos
  · next h => exact underSide_judged (fun e => h (habove.2 e)) _ _ _ hpos

/-! ### KA_TICK (R185 to R187) -/

/-- Bit `j` of a number put together from the bits that `on` names. -/
theorem testBit_sum_bits (on : Nat → Bool) (n j : Nat) :
    ((List.range n).foldl (fun m k => if on k then m + 2 ^ k else m) 0).testBit j = (decide (j < n) && on j) := by
  have key : ∀ n, let m := (List.range n).foldl (fun m k => if on k then m + 2 ^ k else m) 0
      m < 2 ^ n ∧ m.testBit j = (decide (j < n) && on j) := by
    intro n
    induction n with
    | zero => simp
    | succ n ih =>
      obtain ⟨hlt, hbit⟩ := ih
      rw [List.range_succ, List.foldl_append, List.foldl_cons, List.foldl_nil]
      generalize (List.range n).foldl (fun m k => if on k then m + 2 ^ k else m) 0 = m at hlt hbit ⊢
      have hsum : (m + 2 ^ n).testBit j = if j < n then m.testBit j else Nat.testBit 1 (j - n) := by
        rw [show m + 2 ^ n = 2 ^ n * 1 + m by omega, Nat.testBit_two_pow_mul_add _ hlt]
      have hpow : 2 ^ (n + 1) = 2 ^ n + 2 ^ n := by omega
      cases hn : on n with
      | false =>
        simp only [Bool.false_eq_true, if_false]
        refine ⟨by omega, hbit.trans ?_⟩
        by_cases hj : j = n
        · simp [hj, hn]
        · rw [decide_eq_decide.2 (show j < n ↔ j < n + 1 by omega)]
      | true =>
        simp only [if_true]
        refine ⟨by omega, hsum.trans ?_⟩
        rcases lt_trichotomy j n with hj | rfl | hj
        · rw [if_pos hj, hbit, decide_eq_true hj, decide_eq_true (Nat.lt_succ_of_lt hj)]
        · simp [hn]
        · obtain ⟨d, hd⟩ : ∃ d, j - n = d + 1 := ⟨j - n - 1, by omega⟩
          rw [if_neg (by omega), hd, Nat.testBit_succ, decide_eq_false (by omega), Bool.false_and]
          exact Nat.zero_testBit d
  exact (key n).2

theorem kaTickDue_iff (s : State) : kaTickDue s = true ↔
    fget s Fld.KA_TICK_PER ≠ 0 ∧ ∀ d, s.power.kaDue = some d → d / 32768 ≤ s.tick := by
  unfold kaTickDue
  rw [Bool.and_eq_true, bne_iff_ne]
  refine and_congr_right fun _ => ?_
  cases s.power.kaDue with
  | none => simp
  | some d => simp

/-- An enabled comparator is active at this tick. -/
def kaActive (s : State) (volts : KaInputs) (k : Nat) : Bool := bit s (Fld.KA_CFG_EN k) && kaResult s k (kaInput s volts k)

/-- The state after a tick that is due. -/
def kaTicked (s : State) (volts : KaInputs) : State :=
  setPower (fput s Fld.KA_STATUS_OUT ((List.range 6).foldl (fun m k => if kaActive s volts k then m + 2 ^ k else m) 0)) fun p => { p with
    kaDue := some (kaNextDue s)
    kaRun := Vector.ofFn fun k => if kaActive s volts k.val then min (p.kaRun.get k + 1) 16 else 0 }

theorem exec_kaTick (s : State) (volts : KaInputs) :
    exec (.kaTick volts) s = .next (if kaTickDue s then kaTicked s volts else s) := by
  change execKaTick volts s = _
  cases h : kaTickDue s <;> simp only [execKaTick, h] <;> rfl

theorem kaTicked_out (s : State) (volts : KaInputs) (k : Fin 6) : fbit (kaTicked s volts) Fld.KA_STATUS_OUT k = kaActive s volts k := by
  have hk : decide (k.val < 6) = true := decide_eq_true k.isLt
  rw [kaTicked, fbit_setPower, fbit, fget_fput_self _ _ _ (by decide), Nat.testBit_mod_two_pow, testBit_sum_bits, hk, Bool.true_and,
    Bool.true_and]

theorem kaTicked_run (s : State) (volts : KaInputs) (k : Fin 6) :
    (kaTicked s volts).power.kaRun.get k = if fbit (kaTicked s volts) Fld.KA_STATUS_OUT k then min (s.power.kaRun.get k + 1) 16 else 0 := by
  rw [kaTicked_out]
  exact Vector.getElem_ofFn k.isLt

theorem kaInput_eq (s : State) (volts : KaInputs) (k : Fin 6) : kaInput s volts k =
    if k = 0 then volts.batts.get 0 else if k = 1 then volts.batts.get 1
      else if k = 2 then volts.ports.get (Fin.ofNat 32 (fget s (Fld.KA_CFG_SEL 2))) else if k = 5 then volts.vsup
      else volts.feeds.get (Fin.ofNat 8 (fget s (Fld.KA_CFG_SEL k))) := by
  fin_cases k <;> rfl

/-! ### KA_LATCH_SET and KA_LATCH_CLEAR (R187, R188) -/

theorem kaLatchSet_of_short {s : State} {k : Fin 6} (h : s.power.kaRun.get k < kaCnt s k) : exec (.kaLatchSet k) s = .next s :=
  if_neg (Nat.not_le.2 h)

/-- The latch of comparator `k` set, and with it the wake, toward or in HIBERNATE where the comparator wakes (R187, R188). -/
def kaLatched (s : State) (k : Fin 6) : State :=
  if (devState s == .hibernate || bit s Fld.GLOBAL_STATE_HIB_PEND) && bit s (Fld.KA_CFG_WAKE k) then
    latchWake (fputBit s Fld.KA_STATUS_LAT k true) 0
  else fputBit s Fld.KA_STATUS_LAT k true

theorem kaLatched_live (s : State) (k : Fin 6) : (kaLatched s k).live = (fputBit s Fld.KA_STATUS_LAT k true).live :=
  ite_eq_of State.live _ _ _ _ rfl rfl

theorem kaLatched_woke (s : State) (k : Fin 6) : (kaLatched s k).power.woke =
    if (devState s = .hibernate ∨ bit s Fld.GLOBAL_STATE_HIB_PEND = true) ∧ bit s (Fld.KA_CFG_WAKE k) = true
      then s.power.woke ||| 1 else s.power.woke := by
  rw [kaLatched, apply_ite State.power, apply_ite PowerSt.woke]
  exact if_congr (by rw [Bool.and_eq_true, Bool.or_eq_true, beq_iff_eq]) rfl rfl

/-- What KA_LATCH_SET makes of the state: of KA2 it notes besides that its latch was set then. -/
theorem exec_kaLatchSet_of_run {s : State} {k : Fin 6} (h : kaCnt s k ≤ s.power.kaRun.get k) : ∃ t, exec (.kaLatchSet k) s = .next t ∧
    t.live = (kaLatched s k).live ∧ t.power.woke = (kaLatched s k).power.woke := by
  have hex : exec (.kaLatchSet k) s = .next (if (devState s == .hibernate || bit s Fld.GLOBAL_STATE_HIB_PEND) && k.val == 2 &&
      !fbit s Fld.KA_STATUS_LAT k then setPower (kaLatched s k) fun p => { p with ka2Hib := true } else kaLatched s k) := if_pos h
  exact ⟨_, hex, ite_eq_of State.live _ _ _ _ rfl rfl, ite_eq_of (fun t : State => t.power.woke) _ _ _ _ rfl rfl⟩

theorem kaLatchSet_effects {s : State} {k : Fin 6} (h : kaCnt s k ≤ s.power.kaRun.get k) :
    AnswersNext (exec (.kaLatchSet k) s) fun t => fbit t Fld.KA_STATUS_LAT k = true ∧
      (∀ j, j < 6 → j ≠ k.val → fbit t Fld.KA_STATUS_LAT j = fbit s Fld.KA_STATUS_LAT j) ∧ SameBits [Fld.KA_STATUS_LAT] s t ∧
      t.power.woke = (if (devState s = .hibernate ∨ bit s Fld.GLOBAL_STATE_HIB_PEND = true) ∧ bit s (Fld.KA_CFG_WAKE k) = true
        then s.power.woke ||| 1 else s.power.woke) := by
  obtain ⟨t, hex, hlive, hwoke⟩ := exec_kaLatchSet_of_run h
  replace hlive := hlive.trans (kaLatched_live s k)
  have hlat (j : Nat) : fbit t Fld.KA_STATUS_LAT j = if j = k.val then true else fbit s Fld.KA_STATUS_LAT j :=
    (fbit_of_rd (s := fputBit s Fld.KA_STATUS_LAT k true) _ _ (by rw [rd, hlive, rd])).trans
      (fbit_fputBit s _ _ _ _ (by decide) k.isLt)
  exact ⟨t, hex, (hlat k).trans (if_pos rfl), fun j _ hj => (hlat j).trans (if_neg hj),
    ((SameBits.refl _ s).fput _ _ (by simp)).of_live hlive, hwoke.trans (kaLatched_woke s k)⟩

/-- The latches written with 1, one after another. -/
def kaCleared (s : State) (v : Word) (n : Nat) : State :=
  (List.range n).foldl (fun s k => if v.getLsbD k then fputBit s Fld.KA_STATUS_LAT k false else s) s

theorem kaCleared_lat (s : State) (v : Word) {n : Nat} (hn : n ≤ 6) (j : Nat) :
    fbit (kaCleared s v n) Fld.KA_STATUS_LAT j = (fbit s Fld.KA_STATUS_LAT j && !(decide (j < n) && v.getLsbD j)) := by
  induction n with
  | zero => simp [kaCleared]
  | succ n ih =>
    have hstep : kaCleared s v (n + 1) =
        if v.getLsbD n then fputBit (kaCleared s v n) Fld.KA_STATUS_LAT n false else kaCleared s v n := by
      rw [kaCleared, List.range_succ, List.foldl_append]
      rfl
    have hput : fbit (fputBit (kaCleared s v n) Fld.KA_STATUS_LAT n false) Fld.KA_STATUS_LAT j =
        if j = n then false else fbit (kaCleared s v n) Fld.KA_STATUS_LAT j := fbit_fputBit _ _ _ _ _ (by decide) hn
    have ih := ih (by omega)
    by_cases hj : j = n
    · subst hj
      cases hv : v.getLsbD j <;> simp [hstep, hv, hput, ih]
    · rw [← decide_eq_decide.2 (show j < n ↔ j < n + 1 by omega), ← ih, hstep]
      cases hv : v.getLsbD n <;> simp [hput, hj]

theorem kaCleared_leaves (s : State) (v : Word) (n : Nat) : SameBits [Fld.KA_STATUS_LAT] s (kaCleared s v n) ∧
    kaCleared s v n = { s with live := (kaCleared s v n).live } :=
  foldl_keeps (fun t => SameBits [Fld.KA_STATUS_LAT] s t ∧ t = { s with live := t.live }) _ (fun t k h => by
    split
    · exact ⟨h.1.fput _ _ (by simp), congrArg (fun u : State => { u with live := (fputBit t Fld.KA_STATUS_LAT k false).live }) h.2⟩
    · exact h) _ s ⟨.refl _ s, rfl⟩

theorem kaLatchClear_effects (s : State) (v : Word) : AnswersNext (exec (.kaLatchClear v) s) fun t => SameBits [Fld.KA_STATUS_LAT] s t ∧
    t = { s with live := t.live, power := { s.power with kaRun := t.power.kaRun } } ∧
    ∀ k : Fin 6, fbit t Fld.KA_STATUS_LAT k = (fbit s Fld.KA_STATUS_LAT k && !v.getLsbD k) ∧
      t.power.kaRun.get k = if v.getLsbD k then 0 else s.power.kaRun.get k := by
  obtain ⟨hbits, hframe⟩ := kaCleared_leaves s v 6
  have hex : exec (.kaLatchClear v) s = .next (setPower (kaCleared s v 6) fun p => { p with
      kaRun := Vector.ofFn fun k => if v.getLsbD k.val then 0 else p.kaRun.get k }) := rfl
  have hpower : (kaCleared s v 6).power = s.power := (congrArg State.power hframe :)
  refine ⟨_, hex, hbits.of_live rfl, ?_, fun k => ⟨?_, ?_⟩⟩
  · rw [hframe]
    rfl
  · rw [fbit_setPower, kaCleared_lat s v le_rfl, decide_eq_true k.isLt, Bool.true_and]
  · rw [setPower_power, hpower]
    exact Vector.getElem_ofFn k.isLt

/-! ### Wake sources (R316, R379, R476) -/

/-- A wake source that latches where it is enabled. -/
theorem latchWake_where (s : State) (b : Nat) (c : Bool) : (if c then Host.Outcome.next (latchWake s b) else .next s) =
    (Host.Outcome.next { s with power := { s.power with woke := if c then s.power.woke ||| 2 ^ b else s.power.woke } } :
      Host.Outcome State Fault Refusal) := by
  cases c <;> rfl

theorem wakePin_effects (s : State) (l : Bool) : AnswersNext (exec (.wakePin l) s) fun t => t.power.wakePin = l ∧
    (l = false → t = { s with power := { s.power with wakePin := false } }) ∧
    (l = true → devState s ≠ .off → devState s ≠ .hibernate →
      bit t Fld.HOSTIF_EVENT_WAKE_PIN = true ∧ SameBits [Fld.HOSTIF_EVENT_WAKE_PIN] s t ∧
      t.power.woke = if wakeSourceOn s 2 then s.power.woke ||| 8 else s.power.woke) ∧
    (l = true → devState s = .hibernate →
      t = { s with power := { s.power with wakePin := true, woke := if wakeSourceOn s 2 then s.power.woke ||| 8 else s.power.woke } }) ∧
    (l = true → devState s = .off → bit s Fld.GLOBAL_STATE_HIB_PEND = false →
      t = { s with power := { s.power with wakePin := true } }) := by
  cases l with
  | false =>
    exact ⟨_, rfl, rfl, fun _ => rfl, fun h => Bool.noConfusion h, fun h => Bool.noConfusion h, fun h => Bool.noConfusion h⟩
  | true =>
    let s2 : State :=
      { s with power := { s.power with wakePin := true, woke := if wakeSourceOn s 2 then s.power.woke ||| 8 else s.power.woke } }
    have hex : exec (.wakePin true) s =
        .next (if devState s == .hibernate || devState s == .off then s2 else raise s2 Fld.HOSTIF_EVENT_WAKE_PIN) := by
      change execWakePin true s = _
      cases hw : wakeSourceOn s 2 <;> simp only [execWakePin, hw, s2] <;> rfl
    have hbits : SameBits [Fld.HOSTIF_EVENT_WAKE_PIN] s s2 := (SameBits.refl _ s).of_live rfl
    refine ⟨_, hex, ite_eq_of (fun t : State => t.power.wakePin) _ _ _ _ rfl rfl, fun h => Bool.noConfusion h, fun _ ho hh => ?_,
      fun _ hh => ?_, fun _ ho hp => ?_⟩
    · rw [if_neg (by simp [ho, hh])]
      exact ⟨bit_raise_self _ _ (by decide) rfl, hbits.raise _ (by simp), rfl⟩
    · exact if_pos (by simp [hh])
    · have hoff : wakeSourceOn s 2 = false := by simp [wakeSourceOn, ho, hp]
      rw [if_pos (by simp [ho])]
      simp only [s2, hoff]
      rfl

/-! ### VIO_UNDERVOLTAGE and VIO_ABOVE_THRESHOLD (R507) -/

/-- A bank known to be low. -/
def vioLowered (s : State) (b : Fin 4) : State := setPower s fun p => { p with vioLow := upd p.vioLow b fun _ => true }

theorem exec_vioUndervoltage_of_low {s : State} {b : Fin 4} {v : Rat} {held : Nat} (hr : stateRuns (devState s) = true)
    (hl : s.power.vioLow.get b = false) (hv : v < 1) (hh : 2 ≤ held) : exec (.vioUndervoltage ⟨b, v, held⟩) s =
      .next (if b.val = 3 then report (vioLowered s b) 0x0708 0 0 0 (stampI (vioLowered s b))
        else report (vioLowered s b) 0x0707 2 0 0 (stampI (vioLowered s b))) :=
  if_pos (by simp [vioRuns, hr, hl, hv, hh])

theorem vioUndervoltage_of_ignored {s : State} {b : Fin 4} {v : Rat} {held : Nat}
    (h : stateRuns (devState s) = false ∨ s.power.vioLow.get b = true ∨ 1 ≤ v ∨ held < 2) :
    exec (.vioUndervoltage ⟨b, v, held⟩) s = .next s := by
  refine if_neg ?_
  rcases h with h | h | h | h
  · simp [vioRuns, h]
  · simp [h]
  · simp [not_lt.2 h]
  · simp [Nat.not_le.2 h]

/-- A report keeps what is known of the banks. -/
theorem vioLow_of_stateFrame {s t : State} (h : stateFrame t = stateFrame s) : t.power.vioLow = s.power.vioLow :=
  (congrArg (fun u : State => u.power.vioLow) h :)

theorem vioLow_report (s : State) (b : Fin 4) (c cl ts : Nat) : (report (vioLowered s b) c cl 0 0 ts).power.vioLow.get b = true := by
  rw [vioLow_of_stateFrame (stateFrame_report ..)]
  exact upd_get_self _ _ _

theorem vioUndervoltage_effects {s : State} {b : Fin 4} {v : Rat} {held : Nat} (hr : stateRuns (devState s) = true)
    (hl : s.power.vioLow.get b = false) (hv : v < 1) (hh : 2 ≤ held) :
    AnswersNext (exec (.vioUndervoltage ⟨b, v, held⟩) s) fun t => t.power.vioLow.get b = true ∧ SameMemory s t ∧
      (b = 3 → devState t = devState s ∧ CorrectedReported s t 0x0708) ∧
      (b ≠ 3 → devState t = .safe ∧ bit t Fld.FAULT_EVENT_FATAL = true) := by
  have hmem (c cl ts : Nat) : SameMemory s (report (vioLowered s b) c cl 0 0 ts) :=
    SameMemory.trans (t := vioLowered s b) ⟨fun _ => rfl, fun _ => rfl⟩ (sameMemory_of_stateFrame (stateFrame_report ..))
  refine ⟨_, exec_vioUndervoltage_of_low hr hl hv hh, ?_⟩
  have hd : devState (vioLowered s b) = devState s := devState_setPower s _
  by_cases hb : b = 3
  · have hv3 : b.val = 3 := congrArg Fin.val hb
    have hrep (ts : Nat) : report (vioLowered s b) 0x0708 0 0 0 ts = reportCorrected (vioLowered s b) 0x0708 ts := if_pos rfl
    rw [if_pos hv3]
    refine ⟨vioLow_report .., hmem .., fun _ => ?_, fun h => absurd hb h⟩
    rw [hrep]
    exact ⟨(devState_reportCorrected _ _ _ (by decide)).trans hd,
      (reportCorrected_counts (vioLowered s b) 0x0708 _ (by decide)).of_rd (rd_setPower ..)⟩
  · have hv3 : b.val ≠ 3 := fun e => hb (Fin.ext e)
    obtain ⟨hreact, hfatal, -⟩ := report_fatal (vioLowered s b) 0x0707 (stampI (vioLowered s b)) (by decide)
    rw [if_neg hv3]
    refine ⟨vioLow_report .., hmem .., fun h => absurd h hb, fun _ => ⟨?_, hfatal⟩⟩
    cases hs : devState s with
    | idle => exact (hreact.running (.inl (hd.trans hs))).1
    | armed => exact (hreact.running (.inr (.inl (hd.trans hs)))).1
    | test => exact (hreact.running (.inr (.inr (hd.trans hs)))).1
    | safe => exact (hreact.resting (.inr (.inl (hd.trans hs)))).1.trans (hd.trans hs)
    | boot | hibernate | off =>
      rw [hs] at hr
      cases hr

theorem vioAboveThreshold_of_ignored {s : State} {b : Fin 4} {v : Rat} {held : Nat} (h : v ≤ 21 / 20 ∨ held < 1000) :
    exec (.vioAboveThreshold ⟨b, v, held⟩) s = .next s := by
  refine if_neg ?_
  rcases h with h | h
  · simp [not_lt.2 h]
  · simp [Nat.not_le.2 h]

theorem vioAboveThreshold_effects {s : State} {b : Fin 4} {v : Rat} {held : Nat} (hv : 21 / 20 < v) (hh : 1000 ≤ held) :
    AnswersNext (exec (.vioAboveThreshold ⟨b, v, held⟩) s) fun t =>
      t.power.vioLow.get b = false ∧ (∀ c, c ≠ b → t.power.vioLow.get c = s.power.vioLow.get c) ∧
      t = { s with power := { s.power with vioLow := t.power.vioLow } } := by
  have hex : exec (.vioAboveThreshold ⟨b, v, held⟩) s = .next (setPower s fun p => { p with vioLow := upd p.vioLow b fun _ => false }) :=
    if_pos (by simp [hv, hh])
  exact ⟨_, hex, upd_get_self _ _ _, fun c hc => upd_get_of_ne _ _ hc, rfl⟩

/-- Settles O55: a tick that is due judges every enabled comparator (`kaResult_judged`), and each other command is one update where its
condition holds. -/
theorem wakeSourcesAndSupplyDetectors : Obligations.WakeSourcesAndSupplyDetectors := by
  unfold Obligations.WakeSourcesAndSupplyDetectors
  refine ⟨fun s volts => ⟨_, exec_kaTick s volts, ?_⟩, fun s k => ?_, kaLatchClear_effects, fun s => ⟨_, latchWake_where s 1 _, rfl⟩,
    fun s => ⟨_, latchWake_where s 2 _, rfl⟩, wakePin_effects, fun s b v held hr hl hv hh => vioUndervoltage_effects hr hl hv hh,
    fun s b v held h => ⟨_, vioUndervoltage_of_ignored h, rfl⟩, fun s b v held h => ⟨_, vioAboveThreshold_of_ignored h, rfl⟩,
    fun s b v held hv hh => vioAboveThreshold_effects hv hh⟩
  · extract_lets ball level span thr hyst above
    cases hdue : kaTickDue s with
    | false =>
      rw [if_neg Bool.false_ne_true]
      refine ⟨fun _ => rfl, fun _ _ _ => rfl, fun hp hd => ?_⟩
      rw [(kaTickDue_iff s).2 ⟨hp, hd⟩] at hdue
      cases hdue
    | true =>
      obtain ⟨hper, hmoment⟩ := (kaTickDue_iff s).1 hdue
      rw [if_pos rfl]
      refine ⟨fun h => absurd h hper, fun d hd hlt => absurd (hmoment d hd) (Nat.not_le.2 hlt), fun _ _ =>
        ⟨((SameBits.refl _ s).fput _ _ (by simp)).of_live rfl, rfl, rfl, fun k => ?_⟩⟩
      have hj : OutputJudged (above k) (fbit s Fld.KA_STATUS_OUT k) (kaResult s k (ball k)) (level k) (thr k) (hyst k) := kaResult_judged s k (ball k)
      have hin : kaInput s volts k = ball k := kaInput_eq s volts k
      have hout := kaTicked_out s volts k
      rw [kaActive, hin] at hout
      have hon (he : bit s (Fld.KA_CFG_EN k) = true) : fbit (kaTicked s volts) Fld.KA_STATUS_OUT k = kaResult s k (ball k) := by
        rw [hout, he, Bool.true_and]
      exact ⟨fun he => by rw [hout, he, Bool.false_and], fun he ha hx => (hon he).trans (hj.tripsAbove ha hx),
        fun he ha hx => (hon he).trans (hj.restsAbove ha hx), fun he ha hx => (hon he).trans (hj.tripsBelow ha hx),
        fun he ha hx => (hon he).trans (hj.restsBelow ha hx), fun he h1 h2 h3 h4 => (hon he).trans (hj.holds h1 h2 h3 h4),
        kaTicked_run s volts k⟩
  · rcases Nat.lt_or_ge (s.power.kaRun.get k) (kaCnt s k) with h | h
    · exact ⟨_, kaLatchSet_of_short h, fun _ => rfl, fun h' => absurd h (Nat.not_lt.2 h')⟩
    · obtain ⟨t, ht, he⟩ := kaLatchSet_effects h
      exact ⟨t, ht, fun h' => absurd h' (Nat.not_lt.2 h), fun _ => he⟩

end Sys2Proof.Machine
end

section
set_option Elab.async false
namespace Sys2Proof.Machine

/-! ### What a report leaves of the registers and outputs of the ports -/

/-- Every register below the ports, and those in which the ports show what a report makes of them. -/
def shownReg (a : Nat) : Bool :=
  decide (a < 0x10000) || (List.finRange 32).any fun q => a == Reg.PORT_STATUS q || a == Reg.PORT_EVENT q

theorem shownReg_eq_false {a : Nat} :
    shownReg a = false ↔ 0x10000 ≤ a ∧ ∀ q : Fin 32, a ≠ Reg.PORT_STATUS q ∧ a ≠ Reg.PORT_EVENT q := by
  simp [shownReg]

/-- A register of a port or of its comparators, apart from PORT_STATUS and PORT_EVENT. -/
theorem shownReg_of_mod {a : Nat} (h : 0x10000 ≤ a) (hs : a % 0x400 ≠ 0x20) (he : a % 0x400 ≠ 0x24) : shownReg a = false :=
  shownReg_eq_false.2 ⟨h, fun q => by simp only [Reg.PORT_STATUS, Reg.PORT_EVENT]; omega⟩

/-- From `s` to `t` no output of a port rises, and of the registers from the ports up only PORT_STATUS and PORT_EVENT are written. -/
structure ReportStep (s t : State) : Prop where
  regs : SameRegsOutside shownReg s t
  low : ∀ p, PortLow s p → PortLow t p

section
variable {s t u : State}

theorem ReportStep.refl (s : State) : ReportStep s s := ⟨.refl _ s, fun _ => id⟩

theorem ReportStep.trans (h : ReportStep s t) (g : ReportStep t u) : ReportStep s u :=
  ⟨h.regs.trans g.regs, fun p hp => g.low p (h.low p hp)⟩

theorem ReportStep.ite {c : Prop} [Decidable c] (ht : ReportStep s t) (hu : ReportStep s u) : ReportStep s (if c then t else u) := by
  split <;> assumption

/-- What leaves the ports and everything above them. -/
theorem ReportStep.of_kept (hk : kept t.live t.test = kept s.live s.test) (hp : t.ports = s.ports) : ReportStep s t :=
  ⟨fun a ha => rd_of_kept hk (Bool.or_eq_true_iff.2 (.inr (decide_eq_true (shownReg_eq_false.1 ha).1))), fun p h g => by
    rw [hp]
    exact h g⟩

theorem ReportStep.courseOf_eq (h : ReportStep s t) (p : Fin 32) : courseOf t p = courseOf s p :=
  fget_of_rd _ (h.regs _ (shownReg_of_mod (by simp only [Reg.PORT_CFG]; omega) (by simp only [Reg.PORT_CFG]; omega)
    (by simp only [Reg.PORT_CFG]; omega)))

end

theorem refreshPort_keepsLow (cs fs : List (Nat × Nat)) (s : State) (q : Fin 32) (h : PortLow s q) : PortLow (refreshPort cs fs s q) q := by
  unfold refreshPort
  extract_lets cov pt en was settle inert pt' s1 s2
  have hv : (s.ports.set q pt').get q = pt' := by simp [Vector.get_eq_getElem]
  have hp : ∀ g : Fin 4, (pt'.gates.get g).high = false := fun g => by
    by_cases hi : inert = true
    · simp only [pt', if_pos hi]
      exact gatesLow_high _ _ g
    · simp only [pt', if_neg hi]
      exact h g
  have h2 : s2.ports.get q = pt' := hv
  intro g
  refine (congrArg (fun x : PortSt => (x.gates.get g).high) ?_).trans (hp g)
  refine ite_eq_of (fun t : State => t.ports.get q) _ _ _ _ ?_ h2
  rw [leaveSum_ports, abortCapture_ports, raise_ports, h2]

theorem reportStep_refreshPort (cs fs : List (Nat × Nat)) (s : State) (q : Fin 32) : ReportStep s (refreshPort cs fs s q) where
  regs := fun a ha => by
    obtain ⟨hle, hne⟩ := shownReg_eq_false.1 ha
    exact refreshPort_regs cs fs s q a (refreshReg_eq_false.2 ⟨(hne q).1, (hne q).2, by simp only [Reg.TEST_PWM_STAT]; omega⟩)
  low := fun p h => by
    by_cases hp : p = q
    · subst hp
      exact refreshPort_keepsLow cs fs s p h
    · intro g
      rw [refreshPort_ports_of_ne cs fs s q p hp]
      exact h g

theorem reportStep_refreshPorts (s : State) : ReportStep s (refreshPorts s) :=
  foldl_keeps (ReportStep s) _ (fun t q h => h.trans (reportStep_refreshPort _ _ t q)) _ s (.refl s)

theorem reportStep_refreshFaultStatus (s : State) : ReportStep s (refreshFaultStatus s) :=
  .of_kept (kept_refreshFaultStatus s) (refreshFaultStatus_ports s)

theorem reportStep_changeState (s : State) (d : DevState) : ReportStep s (changeState s d) := by
  unfold changeState
  extract_lets old s1 s1a s1t s2 s3 s4 s5
  have h1 : kept s1.live s1.test = kept s.live s.test := by grind [kept_raise, setDev, kept_fput]
  have h1a : kept s1a.live s1a.test = kept s1.live s1.test := by grind [kept_abandonArm]
  have h1t : kept s1t.live s1t.test = kept s1a.live s1a.test :=
    ite_eq_of (fun t : State => kept t.live t.test) _ _ _ _ ((kept_fput (f := Fld.FAULT_FWD_STAT_FROZEN) _ 0 (by decide)).trans
      ((kept_fput (f := Fld.TEST_STATUS_DBG) _ 0 (by decide)).trans (kept_setTap s1a .idcode))) rfl
  have h5 : kept s5.live s5.test = kept s1t.live s1t.test := by grind [kept_endFreeze, kept_pushRecord, kept_syncAlive, kept_requestOff]
  have hp : (refreshFeeds s5).ports = s.ports := by
    grind [refreshFeeds_ports, raise_ports, setDev_ports, fput_ports, abandonArm_ports, setTest_ports, endFreeze_ports, pushRecord_ports,
      syncAlive_ports, requestOff_ports]
  have hk := (kept_refreshFeeds s5).trans (h5.trans (h1t.trans (h1a.trans h1)))
  exact ((ReportStep.of_kept hk hp).trans (reportStep_refreshPorts _)).trans (reportStep_refreshFaultStatus _)

theorem reportStep_enterSafe (s : State) : ReportStep s (enterSafe s) := by
  have harm (t : State) : ReportStep t (abandonArm t 0x04) := .of_kept (kept_abandonArm ..) (abandonArm_ports ..)
  have hpend : ReportStep s (fput s Fld.GLOBAL_STATE_HIB_PEND 0) := .of_kept (kept_fput s 0 (by decide)) (fput_ports ..)
  have hsafe := (hpend.trans (harm _)).trans (reportStep_changeState _ .safe)
  unfold enterSafe
  split
  · exact hsafe
  · exact hsafe
  · exact hsafe
  · exact harm s
  · exact .of_kept rfl rfl
  · exact .refl s

theorem reportStep_react (s : State) (c cl k i ts n : Nat) : ReportStep s (react s c cl k i ts n) := by
  unfold react
  extract_lets cs s1 s2 s3
  have h1 : ReportStep s s1 := .of_kept (kept_faultRecord ..) (faultRecord_ports ..)
  have h2 : ReportStep s1 s2 := foldl_keeps (ReportStep s1) _ (fun t q h => h.trans
    (.of_kept (kept_askSnapshot ..) (askSnapshot_ports ..))) _ s1 (.refl s1)
  have h3 : ReportStep s2 s3 := .of_kept (kept_sendEvt ..) (sendEvt_ports ..)
  have hs := (h1.trans h2).trans h3
  exact (hs.trans (reportStep_enterSafe s3)).ite hs

theorem reportStep_countFault (s : State) {c : Nat} (cl k i ts : Nat) (hc : c < 0x1000) : ReportStep s (countFault s c cl k i ts) :=
  .of_kept (kept_countFault s cl k i ts hc) (countFault_ports ..)

theorem reportStep_register (s : State) (c cl k i ts : Nat) : ReportStep s (register s c cl k i ts) := by
  unfold register
  split
  · next e he =>
    refine ReportStep.trans (.of_kept (kept_inc s (.inr ?_)) (inc_ports ..)) (reportStep_react _ _ _ _ _ _ _)
    have := matchingEntry_lt he
    simp only [Reg.FAULT_ENTRY_CNT]
    omega
  · split
    · next e he =>
      extract_lets s1 s2
      have h1 : ReportStep s s1 := .of_kept (kept_makeEntry s e c cl k i ts (freeEntry_lt he)) (makeEntry_ports ..)
      have h2 : ReportStep s1 s2 := ReportStep.ite (.of_kept (kept_raise s1 (by decide)) (raise_ports ..)) (.refl s1)
      exact (h1.trans h2).trans (reportStep_react _ _ _ _ _ _ _)
    · exact ((reportStep_react s c cl k i ts 0).trans (reportStep_countFault _ 2 0 0 ts (by decide))).trans
        (reportStep_react _ _ _ _ _ _ _)

theorem reportStep_report (s : State) {c : Nat} (cl k i ts : Nat) (hc : c < 0x1000) : ReportStep s (report s c cl k i ts) := by
  unfold report
  split
  · exact .of_kept (kept_reportCorrected s c ts hc) (reportCorrected_ports ..)
  · extract_lets k' i' s1
    exact (((reportStep_countFault s cl k' i' ts hc).trans (reportStep_register _ c cl k' i' ts)).trans
      (reportStep_refreshPorts _)).trans (reportStep_refreshFaultStatus _)

/-! ### The entry of a contained fault, of whatever scope (R387, R388) -/

/-- Entry `e` of the table is a contained one of the scope of kind `k` and index `i`. -/
def ContainedEntry (s : State) (e k i : Nat) : Prop :=
  entryValid s e = true ∧ fget s (Fld.FAULT_ENTRY_CODE_CLASS e) = 1 ∧ fget s (Fld.FAULT_ENTRY_CODE_KIND e) = k ∧
  fget s (Fld.FAULT_ENTRY_CODE_INDEX e) = i

theorem ContainedEntry.congr {s t : State} {e k i : Nat} (h : ContainedEntry s e k i)
    (hr : rd t (Reg.FAULT_ENTRY_CODE e) = rd s (Reg.FAULT_ENTRY_CODE e)) : ContainedEntry t e k i := by
  obtain ⟨hv, hc, hk, hi⟩ := h
  exact ⟨(bit_of_rd _ hr).trans hv, (fget_of_rd _ hr).trans hc, (fget_of_rd _ hr).trans hk, (fget_of_rd _ hr).trans hi⟩

theorem ContainedEntry.mem_scopes {s : State} {e k i : Nat} (h : ContainedEntry s e k i) (he : e < 64) : (k, i) ∈ scopes s true := by
  obtain ⟨hv, hc, hk, hi⟩ := h
  refine List.mem_map.2 ⟨e, List.mem_filter.2 ⟨List.mem_filter.2 ⟨List.mem_range.2 he, hv⟩, ?_⟩, ?_⟩
  · rw [hc]
    rfl
  · rw [hk, hi]

/-- The word of a new entry. -/
theorem containedEntry_makeEntry (s : State) (e ts : Nat) {c k i : Nat} (hc : c < 2 ^ 16) (hk : k < 8) (hi : i < 32) :
    ContainedEntry (makeEntry s e c 1 k i ts) e k i := by
  have hw : rd (makeEntry s e c 1 k i ts) (Reg.FAULT_ENTRY_CODE e) =
      BitVec.ofNat 32 (c + 1 * 2 ^ 16 + k * 2 ^ 18 + i * 2 ^ 21 + 2 ^ 31) := by
    rw [makeEntry, wr64, rd_wr_of_ne _ _ (by simp), rd_wr_of_ne _ _ (by simp), rd_wr_of_ne _ _ (by simp), rd_wr_self]
  have hbits (lo n : Nat) : getBits (BitVec.ofNat 32 (c + 1 * 2 ^ 16 + k * 2 ^ 18 + i * 2 ^ 21 + 2 ^ 31)) lo n =
      (c + 1 * 2 ^ 16 + k * 2 ^ 18 + i * 2 ^ 21 + 2 ^ 31) / 2 ^ lo % 2 ^ n := by
    have hlt : c + 1 * 2 ^ 16 + k * 2 ^ 18 + i * 2 ^ 21 + 2 ^ 31 < 2 ^ 32 := by omega
    rw [getBits, BitVec.toNat_ushiftRight, BitVec.toNat_ofNat, Nat.mod_eq_of_lt hlt, Nat.shiftRight_eq_div_pow]
  simp only [ContainedEntry, entryValid, bit, fget, hw, hbits, bne_iff_ne, ne_eq]
  omega

/-- A contained fault is in an entry of its own, or, the table full, the device is not ARMED for the fatal fault that this is (R387, R390). -/
theorem register_inScope {s : State} {c k i : Nat} (ts : Nat) (hc : c < 2 ^ 16) (hk : k < 8) (hi : i < 32)
    (hm : ∀ e, matchingEntry s c k i = some e → fget s (Fld.FAULT_ENTRY_CODE_CLASS e) = 1) :
    (k, i) ∈ scopes (register s c 1 k i ts) true ∨ devState (register s c 1 k i ts) ≠ .armed := by
  unfold register
  split
  · next e he =>
    have hlt := matchingEntry_lt he
    have hfound := List.find?_some he
    simp only [Bool.and_eq_true, beq_iff_eq] at hfound
    obtain ⟨⟨-, hkind⟩, hidx⟩ := hfound
    have hv : entryValid s e = true := (List.mem_filter.1 (List.mem_of_find?_eq_some he)).2
    have hcov : ContainedEntry s e k i := ⟨hv, hm e he, hkind, hidx⟩
    refine .inl ((hcov.congr ?_).mem_scopes hlt)
    exact (react_contained_writes _ _ _ _ _ _ _ (reportWrites_entryCode e hlt)).trans (rd_fput_of_ne _ _ (by simp))
  · split
    · next e he =>
      have hlt := freeEntry_lt he
      extract_lets s1 s2
      have h2 : rd s2 (Reg.FAULT_ENTRY_CODE e) = rd s1 (Reg.FAULT_ENTRY_CODE e) := ite_eq_of (rd · _) _ _ _ _
        (rd_fput_of_ne _ _ (by simp only [Reg.FAULT_ENTRY_CODE, Reg.FAULT_EVENT]; omega)) rfl
      exact .inl (((containedEntry_makeEntry s e ts hc hk hi).congr
        ((react_contained_writes s2 _ _ _ _ _ _ (reportWrites_entryCode e hlt)).trans h2)).mem_scopes hlt)
    · exact .inr (fatalReacted_react _ 0x0A10 0 0 ts 0).not_armed

/-! ### A covered port is brought down (R117, R119, R388) -/

/-- What a scope covers stays as it is while the ports are brought up to date. -/
theorem scopeCoversPort_refreshPort (cs fs : List (Nat × Nat)) (s : State) (p q : Fin 32) (k i : Nat) :
    scopeCoversPort (refreshPort cs fs s q) k i p = scopeCoversPort s k i p := by
  have hr := refreshPort_regs cs fs s q
  have hcfg : courseOf (refreshPort cs fs s q) p = courseOf s p := fget_of_rd _ (hr _ (refreshReg_eq_false.2 (by
    simp only [Reg.PORT_CFG, Reg.PORT_STATUS, Reg.PORT_EVENT, Reg.TEST_PWM_STAT]
    omega)))
  have hchg : fget (refreshPort cs fs s q) (Fld.BATT_CHGMASK_CHGMASK i) = fget s (Fld.BATT_CHGMASK_CHGMASK i) :=
    fget_of_rd _ (hr _ (refreshReg_eq_false.2 (by
      simp only [Reg.BATT_CHGMASK, Reg.PORT_STATUS, Reg.PORT_EVENT, Reg.TEST_PWM_STAT]
      omega)))
  have hcrs : fget (refreshPort cs fs s q) (Fld.HK_G_CRS_CRS i) = fget s (Fld.HK_G_CRS_CRS i) :=
    fget_of_rd _ (hr _ (refreshReg_eq_false.2 (by
      simp only [Reg.HK_G_CRS, Reg.PORT_STATUS, Reg.PORT_EVENT, Reg.TEST_PWM_STAT]
      omega)))
  simp only [scopeCoversPort, scopeCourses, hcfg, hchg, hcrs]

/-- A port that a contained fault covers, and every port while the device is not ARMED, is down once the ports are brought up to date. -/
theorem refreshPorts_down_of_covered {s : State} {p : Fin 32} (h : portCovered s p = true ∨ devState s ≠ .armed) :
    PortDown (refreshPorts s) p := by
  rw [refreshPorts_eq]
  refine foldl_reaches (fun t => ((scopes s true).any fun k => scopeCoversPort t k.1 k.2 p) = true ∨ devState t ≠ .armed) (PortDown · p) p
    (fun t q _ => ?_) (fun t ht => ?_) (fun t q hq ht => ?_) _ s (List.nodup_finRange 32) (List.mem_finRange p) h
  · rw [devState_refreshPort]
    simp only [scopeCoversPort_refreshPort]
    exact id
  · obtain ⟨-, hen, -, -, hin⟩ := refreshPort_port (scopes s true) (fatalScopes s) t p
    rcases ht with hm | hd
    · rw [hm] at hen hin
      obtain ⟨hact, hlow⟩ := hin (by simp [inertNow])
      exact ⟨hen.trans (by simp [enWanted]), hlow, hact⟩
    · obtain ⟨hact, hlow⟩ := hin (inertNow_of_surelyInert t p (.inl hd) _)
      exact ⟨hen.trans (by simp [enWanted, hd]), hlow, hact⟩
  · obtain ⟨hen, hlow, hact⟩ := ht
    have hports := refreshPort_ports_of_ne (scopes s true) (fatalScopes s) t q p (Ne.symm hq)
    refine ⟨(refreshPort_rd_of_ne _ _ t hq).trans hen, fun g => ?_, ?_⟩
    · rw [hports]
      exact hlow g
    · rw [hports]
      exact hact

theorem PortDown.refreshFaultStatus {s : State} {p : Fin 32} (h : PortDown s p) : PortDown (refreshFaultStatus s) p := by
  obtain ⟨hen, hlow, hact⟩ := h
  refine ⟨(bit_of_rd _ (rd_of_kept (kept_refreshFaultStatus s) ?_)).trans hen, (reportStep_refreshFaultStatus s).low p hlow, ?_⟩
  · simp only [farReg, Reg.PORT_STATUS, Bool.or_eq_true, decide_eq_true_eq]
    omega
  · rw [refreshFaultStatus_ports]
    exact hact

/-- The report of a contained fault of the port, or of its course, brings the port down. -/
theorem report_contained_down {s : State} {p : Fin 32} {c k i : Nat} (ts : Nat) (hc : c < 0x0E00)
    (hscope : (k = 1 ∧ i = p.val) ∨ (k = 2 ∧ i = courseOf s p))
    (hm : ∀ e, matchingEntry s c k i = some e → fget s (Fld.FAULT_ENTRY_CODE_CLASS e) = 1) : PortDown (report s c 1 k i ts) p := by
  have hrd : ∀ e, e < 64 → rd (countFault s c 1 k i ts) (Reg.FAULT_ENTRY_CODE e) = rd s (Reg.FAULT_ENTRY_CODE e) :=
    fun e he => countFault_contained_writes s k i ts (by omega) _ (reportWrites_entryCode e he)
  have hcourse : courseOf s p < 32 := fget_lt s _
  have hin := register_inScope (s := countFault s c 1 k i ts) (c := c) (k := k) (i := i) ts (by omega) (by omega) (by omega) fun e he => by
    have hlt := matchingEntry_lt he
    rw [matchingEntry_congr hrd] at he
    exact (fget_of_rd (Fld.FAULT_ENTRY_CODE_CLASS e) (hrd e hlt)).trans (hm e he)
  have hstep := (reportStep_countFault s 1 k i ts (show c < 0x1000 by omega)).trans (reportStep_register (countFault s c 1 k i ts) c 1 k i ts)
  have he : report s c 1 k i ts = refreshFaultStatus (refreshPorts (register (countFault s c 1 k i ts) c 1 k i ts)) := if_neg (by decide)
  rw [he]
  generalize register (countFault s c 1 k i ts) c 1 k i ts = u at hin hstep
  refine (refreshPorts_down_of_covered (hin.imp_left fun hmem => List.any_eq_true.2 ⟨_, hmem, ?_⟩)).refreshFaultStatus
  rcases hscope with ⟨rfl, rfl⟩ | ⟨rfl, rfl⟩
  · exact beq_self_eq_true _
  · rw [← hstep.courseOf_eq p]
    exact Nat.testBit_two_pow_self

/-- The report of a fatal fault brings every port down. -/
theorem report_fatal_down (s : State) (p : Fin 32) (c ts : Nat) : PortDown (report s c 2 0 0 ts) p := by
  have he : report s c 2 0 0 ts = refreshFaultStatus (refreshPorts (register (countFault s c 2 0 0 ts) c 2 0 0 ts)) := if_neg (by decide)
  rw [he]
  exact (refreshPorts_down_of_covered (.inr (fatalReacted_register ..).not_armed)).refreshFaultStatus

end Sys2Proof.Machine
end

section
set_option Elab.async false
namespace Sys2Proof.Machine

/-! ### What the deferred turn-offs of a port leave (R109, R171, R487) -/

/-- CMP_STATUS.BLANKED of the comparators of a port. -/
def blankedFields (p : Fin 32) : List Field := (List.finRange 4).map fun c : Fin 4 => Fld.CMP_STATUS_BLANKED p c

theorem addr_of_mem_blankedFields {p : Fin 32} {f : Field} (h : f ∈ blankedFields p) : ∃ d : Fin 4, f.addr = Reg.CMP_STATUS p d := by
  obtain ⟨d, -, rfl⟩ := List.mem_map.1 h
  exact ⟨d, rfl⟩

/-- A field in another register than those listed shares no bit with them. -/
theorem apartFrom_of_addr {fs : List Field} {g : Field} (h : ∀ f ∈ fs, g.addr ≠ f.addr) : apartFrom fs g = true :=
  List.all_eq_true.2 fun f hf => decide_eq_true (.inl (h f hf))

/-- `t` is `s` after edges of the outputs of port `p`: the outputs have changed, and the blanking that the edges open. -/
structure EdgeStep (p : Fin 32) (s t : State) : Prop where
  bits : SameBits (blankedFields p) s t
  port : t.ports.get p = { s.ports.get p with gates := (t.ports.get p).gates }
  setNow : ∀ c : Fin 4, (cmpOf t p c).setNow = (cmpOf s p c).setNow

section
variable {p : Fin 32} {s t u : State}

theorem EdgeStep.refl (p : Fin 32) (s : State) : EdgeStep p s s := ⟨.refl _ s, rfl, fun _ => rfl⟩

theorem EdgeStep.trans (h : EdgeStep p s t) (g : EdgeStep p t u) : EdgeStep p s u :=
  ⟨h.bits.trans g.bits, g.port.trans (congrArg (fun x : PortSt => { x with gates := (u.ports.get p).gates }) h.port),
    fun c => (g.setNow c).trans (h.setNow c)⟩

theorem EdgeStep.ite {c : Prop} [Decidable c] (ht : EdgeStep p s t) (hu : EdgeStep p s u) : EdgeStep p s (if c then t else u) := by
  split <;> assumption

end

theorem edgeStep_expectEdge (s : State) (p : Fin 32) (g : Gate) (k : Nat) (rise : Bool) : EdgeStep p s (expectEdge s p g k rise) := by
  have htest (x : TestSt) : EdgeStep p s { s with test := x } := ⟨fun _ _ _ _ => rfl, rfl, fun _ => rfl⟩
  unfold expectEdge
  extract_lets pt
  split
  · exact (htest _).ite (.refl p s)
  · exact .refl p s

theorem edgeStep_openBlanking (s : State) (p : Fin 32) (g : Gate) (f : Nat) : EdgeStep p s (openBlanking s p g f) :=
  foldl_keeps (EdgeStep p s) _ (fun t c h => by
    extract_lets b
    refine EdgeStep.ite (h.trans ⟨?_, rfl, fun d => ?_⟩) h
    · exact ((SameBits.refl _ t).of_live (setCmp_live ..)).fput _ _ (List.mem_map.2 ⟨c, List.mem_finRange c, rfl⟩)
    · rw [cmpOf_fput]
      by_cases hd : d = c
      · subst hd
        rw [cmpOf_setCmp_self]
      · rw [cmpOf_setCmp_of_ne t p _ hd]) _ s (.refl p s)

theorem edgeStep_settleGates (s : State) (p : Fin 32) (k : Nat) : EdgeStep p s (settleGates s p k) :=
  foldl_keeps (EdgeStep p s) (settleGate p k) (fun t g h => by
    have hgate (f : GateSt → GateSt) : EdgeStep p t (setGate t p g f) := by
      refine ⟨fun _ _ _ _ => rfl, ?_, fun _ => rfl⟩
      rw [setGate_ports, upd_get_self]
    unfold settleGate
    split
    · next n _ =>
      exact EdgeStep.ite (((h.trans (hgate _)).trans (edgeStep_expectEdge _ p g n false)).trans (edgeStep_openBlanking _ p g _)) h
    · exact h) _ s (.refl p s)

/-! ### The latch of a side set (R170, R172, R173) -/

/-- The trip event of a side. -/
def tripFld (p : Fin 32) (c : Fin 4) (h : Bool) : Field := if h then Fld.CMP_EVENT_TRIP_HI p c else Fld.CMP_EVENT_TRIP_LO p c

/-- What a latch that sets writes of the registers of its comparator, the filtered output included. -/
def tripFields (p : Fin 32) (c : Fin 4) (h : Bool) : List Field := [outFld p c h, latFld p c h, Fld.CMP_CNT_TRIP_CNT p c, tripFld p c h]

/-- The filtered output, the latch, the trip count and the trip event of a side put in place. -/
def tripped (s : State) (p : Fin 32) (c : Fin 4) (h : Bool) : State :=
  raise (inc (fput (fput s (outFld p c h) 1) (latFld p c h) 1) (Fld.CMP_CNT_TRIP_CNT p c)) (tripFld p c h)

theorem tripped_effects (s : State) (p : Fin 32) (c : Fin 4) (h : Bool) : let t := tripped s p c h
    bit t (outFld p c h) = true ∧ bit t (latFld p c h) = true ∧
    fget t (Fld.CMP_CNT_TRIP_CNT p c) = min (fget s (Fld.CMP_CNT_TRIP_CNT p c) + 1) 65535 ∧ bit t (tripFld p c h) = true ∧
    SameBits (tripFields p c h) s t ∧ t = { s with live := t.live } := by
  have hout : bit (fput s (outFld p c h) 1) (outFld p c h) = true :=
    bit_raise_self s _ (by cases h <;> simp [outFld]) (by cases h <;> rfl)
  have hlat (u : State) : bit (fput u (latFld p c h) 1) (latFld p c h) = true :=
    bit_raise_self u _ (by cases h <;> simp [latFld]) (by cases h <;> rfl)
  have hside : (outFld p c h).lo + (outFld p c h).width ≤ (latFld p c h).lo := by cases h <;> simp [outFld, latFld]
  have hne (u : State) (v w : Nat) (g : Field) (hg : g.addr = Reg.CMP_STATUS p c) :
      bit (fput (fput u (Fld.CMP_CNT_TRIP_CNT p c) v) (tripFld p c h) w) g = bit u g := by
    have ht : (tripFld p c h).addr = Reg.CMP_EVENT p c := by cases h <;> rfl
    rw [bit_fput_of_ne _ _ _ _ (.inl (by rw [hg, ht]; simp only [Reg.CMP_STATUS, Reg.CMP_EVENT]; omega)),
      bit_fput_of_ne _ _ _ _ (.inl (by rw [hg]; simp only [Reg.CMP_STATUS, Reg.CMP_CNT]; omega))]
  have hcnt (u : State) (f : Field) (v : Nat) (hf : f.addr = Reg.CMP_STATUS p c ∨ f.addr = Reg.CMP_EVENT p c) :
      fget (fput u f v) (Fld.CMP_CNT_TRIP_CNT p c) = fget u (Fld.CMP_CNT_TRIP_CNT p c) :=
    fget_fput_of_ne _ _ _ _ (.inl (by
      simp only [Reg.CMP_STATUS, Reg.CMP_EVENT] at hf
      simp only [Reg.CMP_CNT]
      omega))
  refine ⟨?_, ?_, ?_, ?_, ?_, ?_⟩
  · rw [tripped, raise, inc, hne _ _ _ _ (outFld_addr ..), bit_fput_of_ne _ _ _ _ (.inr (.inl hside)), hout]
  · rw [tripped, raise, inc, hne _ _ _ _ (latFld_addr ..), hlat]
  · rw [tripped, raise, hcnt _ _ _ (.inr (by cases h <;> rfl)), fget_inc_self _ _ (by simp), hcnt _ _ _ (.inl (latFld_addr ..)),
      hcnt _ _ _ (.inl (outFld_addr ..))]
    rfl
  · exact bit_raise_self _ _ (by cases h <;> simp [tripFld]) (by cases h <;> rfl)
  · exact ((((SameBits.refl _ s).fput _ _ (by simp [tripFields])).fput _ _ (by simp [tripFields])).inc _ (by simp [tripFields])).raise _
      (by simp [tripFields])
  · rw [tripped, raise, inc]
    rfl

/-- CMP_LATCH_SET, with the filter passed (R170, R172). -/
theorem exec_cmpLatchSet_of_passed {s : State} {p : Fin 32} {c : Fin 4} {h : Bool} {f : Nat}
    (hf : filterPasses (settleGates s p (64 * absFret s f)) p c h (absFret s f) = true) : exec (.cmpLatchSet p c h f) s =
      .next (setLatch (fput (settleGates s p (64 * absFret s f)) (outFld p c h) 1) p c h f) := if_pos hf

theorem setLatch_of_kept {s : State} {p : Fin 32} {c : Fin 4} {h : Bool} {f : Nat}
    (hk : bit s (latFld p c h) = true ∨ latchAccepted s p c (absFret s f) = false) : setLatch s p c h f = s := by
  refine if_pos ?_
  rcases hk with hk | hk
  · rw [hk, Bool.true_or]
  · rw [hk, Bool.not_false, Bool.or_true]

theorem setLatch_of_accepted {s : State} {p : Fin 32} {c : Fin 4} {h : Bool} {f : Nat}
    (hl : bit (fput s (outFld p c h) 1) (latFld p c h) = false)
    (ha : latchAccepted (fput s (outFld p c h) 1) p c (absFret (fput s (outFld p c h) 1) f) = true) :
    setLatch (fput s (outFld p c h) 1) p c h f = latchAction (tripped s p c h) p c h f := if_neg (by rw [hl, ha]; decide)

/-- The acceptance of a latch rests on nothing that an edge or a filtered output changes (R172, R184). -/
theorem EdgeStep.latch_eq {p : Fin 32} {s u : State} (h : EdgeStep p s u) (c : Fin 4) (b : Bool) (k : Nat) :
    bit (fput u (outFld p c b) 1) (latFld p c b) = bit s (latFld p c b) ∧
    latchAccepted (fput u (outFld p c b) 1) p c k = latchAccepted s p c k := by
  have hbits : SameBits (outFld p c b :: blankedFields p) s (fput u (outFld p c b) 1) :=
    (h.bits.mono (List.subset_cons_self _ _)).fput _ _ List.mem_cons_self
  have hlat : apartFrom (outFld p c b :: blankedFields p) (latFld p c b) = true := by
    cases b <;> simp [apartFrom, blankedFields, outFld, latFld]
  have hfar {g : Field} (hg : ∀ d : Fin 4, g.addr ≠ Reg.CMP_STATUS p d) : apartFrom (outFld p c b :: blankedFields p) g = true := by
    refine apartFrom_of_addr (List.forall_mem_cons.2 ⟨?_, fun x hx => ?_⟩)
    · rw [outFld_addr]
      exact hg c
    · obtain ⟨d, hd⟩ := addr_of_mem_blankedFields hx
      rw [hd]
      exact hg d
  have hcfg : apartFrom (outFld p c b :: blankedFields p) (Fld.CMP_CFG_ACTION p c) = true := hfar (by
    intro d
    simp only [Reg.CMP_CFG, Reg.CMP_STATUS]
    omega)
  have hen : apartFrom (outFld p c b :: blankedFields p) (Fld.PORT_STATUS_EN p) = true := hfar (by
    intro d
    simp only [Reg.PORT_STATUS, Reg.CMP_STATUS]
    omega)
  have hport : (fput u (outFld p c b) 1).ports.get p = { s.ports.get p with gates := (u.ports.get p).gates } := h.port
  refine ⟨hbits.bit_eq hlat, ?_⟩
  rw [latchAccepted, accepting, hbits.fget_eq hcfg, hbits.bit_eq hen, hport, latchAccepted, accepting]

end Sys2Proof.Machine
end

section
set_option Elab.async false
namespace Sys2Proof.Machine

/-! ### A port gated off for the rest of a carrier (R173, R175) -/

/-- The outputs of the port low, its capture ended. -/
def gatedOff (s : State) (p : Fin 32) (f : Nat) : State :=
  let u := { s with ports := upd s.ports p fun x => { x with gates := gatesLow (64 * absFret s f) x.gates } }
  if (s.ports.get p).active then abortCapture u p else u

/-- The port gated off by a latch of comparator `c`, the first of a carrier counted. -/
def cbcGated (s : State) (p : Fin 32) (c : Fin 4) (f : Nat) : State :=
  let u := setCmp (gatedOff s p f) p c fun x => { x with setNow := true }
  if !(cmpOf s p c).setNow then inc u (Fld.CMP_CNT_CBC_CNT p c) else u

/-- What the escalation of cycle-by-cycle latches writes of the registers of its comparator. -/
def escFields (p : Fin 32) (c : Fin 4) : List Field := [Fld.CMP_STATUS_CBC_RUN p c, Fld.CMP_EVENT_CBC_ESC p c]

theorem gatedOff_low (s : State) (p : Fin 32) (f : Nat) : PortLow (gatedOff s p f) p := fun g => by
  refine (congrArg (fun v : Vector PortSt 32 => ((v.get p).gates.get g).high) (ite_eq_of State.ports _ _ _ _ (abortCapture_ports ..) rfl)).trans ?_
  simp only [upd_get_self]
  exact gatesLow_high _ _ g

theorem gatedOff_rd (s : State) (p : Fin 32) (f : Nat) {a : Nat} (ha : 0x10000 ≤ a) : rd (gatedOff s p f) a = rd s a :=
  ite_eq_of (rd · a) _ _ _ _ (rd_of_kept (kept_abortCapture ..) (Bool.or_eq_true_iff.2 (.inr (decide_eq_true ha)))) rfl

theorem abortCapture_fault (s : State) (p : Fin 32) : (abortCapture s p).fault = s.fault := by
  unfold abortCapture
  split
  · split <;> rfl
  · rfl

theorem gatedOff_fault (s : State) (p : Fin 32) (f : Nat) : (gatedOff s p f).fault = s.fault :=
  ite_eq_of State.fault _ _ _ _ (abortCapture_fault ..) rfl

section
variable (s : State) (p : Fin 32) (c : Fin 4) (f : Nat)

theorem cbcGated_ports : (cbcGated s p c f).ports = (gatedOff s p f).ports := by
  unfold cbcGated
  extract_lets u
  split
  · rw [inc_ports, setCmp_ports]
  · rw [setCmp_ports]

theorem cbcGated_low : PortLow (cbcGated s p c f) p := fun g => by
  rw [cbcGated_ports]
  exact gatedOff_low s p f g

theorem cbcGated_fault : (cbcGated s p c f).fault = s.fault := by
  unfold cbcGated
  extract_lets u
  have hu : u.fault = s.fault := (setCmp_fault ..).trans (gatedOff_fault s p f)
  split
  · rw [inc_fault, hu]
  · exact hu

theorem cbcGated_setNow : (cmpOf (cbcGated s p c f) p c).setNow = true := by
  unfold cbcGated
  extract_lets u
  have hu : cmpOf u p c = { cmpOf (gatedOff s p f) p c with setNow := true } := cmpOf_setCmp_self ..
  split
  · rw [inc, cmpOf_fput, hu]
  · rw [hu]

theorem cbcGated_fget {g : Field} (ha : 0x10000 ≤ g.addr) (hg : apartFrom [Fld.CMP_CNT_CBC_CNT p c] g = true) :
    fget (cbcGated s p c f) g = fget s g := by
  unfold cbcGated
  extract_lets u
  have hu : fget u g = fget s g := fget_of_rd g (gatedOff_rd s p f ha)
  split
  · exact (((SameBits.refl _ u).inc (Fld.CMP_CNT_CBC_CNT p c) List.mem_cons_self).fget_eq hg).trans hu
  · exact hu

theorem cbcGated_count : fget (cbcGated s p c f) (Fld.CMP_CNT_CBC_CNT p c) = if (cmpOf s p c).setNow then fget s (Fld.CMP_CNT_CBC_CNT p c)
    else min (fget s (Fld.CMP_CNT_CBC_CNT p c) + 1) 65535 := by
  unfold cbcGated
  extract_lets u
  have hu : fget u (Fld.CMP_CNT_CBC_CNT p c) = fget s (Fld.CMP_CNT_CBC_CNT p c) :=
    fget_of_rd _ (gatedOff_rd s p f (by simp only [Reg.CMP_CNT]; omega))
  cases (cmpOf s p c).setNow with
  | true => exact hu
  | false => exact (fget_inc_self u _ (by simp)).trans (by rw [hu]; rfl)

end

/-! ### What the action of a latch leaves (R173, R175) -/

/-- From `s` to `t` no output of port `p` rises, and of the registers of ports and comparators only `fs` and those that a report writes do. -/
structure ActionStep (fs : List Field) (p : Fin 32) (s t : State) : Prop where
  fields : ∀ g : Field, shownReg g.addr = false → apartFrom fs g = true → fget t g = fget s g
  low : PortLow s p → PortLow t p

section
variable {fs : List Field} {p : Fin 32} {s t u : State}

theorem ActionStep.refl (fs : List Field) (p : Fin 32) (s : State) : ActionStep fs p s s := ⟨fun _ _ _ => rfl, id⟩

theorem ActionStep.trans (h : ActionStep fs p s t) (g : ActionStep fs p t u) : ActionStep fs p s u :=
  ⟨fun x hx ha => (g.fields x hx ha).trans (h.fields x hx ha), fun hp => g.low (h.low hp)⟩

theorem ActionStep.ite {c : Prop} [Decidable c] (ht : ActionStep fs p s t) (hu : ActionStep fs p s u) :
    ActionStep fs p s (if c then t else u) := by
  split <;> assumption

theorem ActionStep.fput (h : ActionStep fs p s t) (f : Field) (v : Nat) (hf : f ∈ fs) : ActionStep fs p s (fput t f v) :=
  h.trans ⟨fun _ _ ha => ((SameBits.refl fs t).fput f v hf).fget_eq ha, id⟩

theorem ActionStep.report (h : ActionStep fs p s t) {c : Nat} (cl k i ts : Nat) (hc : c < 0x1000) :
    ActionStep fs p s (report t c cl k i ts) := by
  have hr := reportStep_report t cl k i ts hc
  exact h.trans ⟨fun g hg _ => fget_of_rd g (hr.regs _ hg), hr.low p⟩

/-- What one gate-off marks for the others of its fret is in no register. -/
theorem rd_markAccepting (s : State) (k a : Nat) : rd (markAccepting s k) a = rd s a := rd_setPorts s _ a

theorem ActionStep.markAccepting (h : ActionStep fs p s t) (k : Nat) : ActionStep fs p s (markAccepting t k) :=
  h.trans ⟨fun x _ _ => fget_of_rd x (rd_markAccepting t k _), fun hp g => by
    have hg : ((Machine.markAccepting t k).ports.get p).gates = (t.ports.get p).gates := by
      rw [Machine.markAccepting, Vector.get_eq_getElem, Vector.getElem_ofFn]
      split <;> rfl
    rw [hg]
    exact hp g⟩

end

/-- After the gate-off, a latch of ACTION CBC does no more than escalate. -/
theorem actionStep_cbcTrip (s : State) (p : Fin 32) (c : Fin 4) (f : Nat) :
    ActionStep (escFields p c) p (cbcGated s p c f) (cbcTrip s p c f) := by
  unfold cbcTrip
  extract_lets first s1 s2 esc s3 s4
  have h3 : s3 = cbcGated s p c f := rfl
  rw [← h3]
  have h4 : ActionStep (escFields p c) p s3 s4 := (ActionStep.refl _ p s3).fput _ _ (by simp [escFields])
  refine ActionStep.ite (ActionStep.ite ?_ h4) (.refl _ p s3)
  have hrun := (h4.markAccepting (absFret s f)).fput (Fld.CMP_STATUS_CBC_RUN p c) 0 (by simp [escFields])
  exact (hrun.fput (Fld.CMP_EVENT_CBC_ESC p c) 1 (by simp [escFields])).report _ _ _ _ (by omega)

theorem cbcTrip_of_no_escalation {s : State} {p : Fin 32} {c : Fin 4} (f : Nat) (h : fget s (Fld.CMP_TIME_CBC_ESC p c) = 0) :
    cbcTrip s p c f = cbcGated s p c f := by
  unfold cbcTrip
  extract_lets first s1 s2 esc s3 s4
  exact if_neg (by simp [esc, h])

/-- The code of the fault that a latch reports (R173). -/
def latchCode (c : Fin 4) (h : Bool) : Nat := (if h then 0x0120 else 0x0121) + 2 * c.val

theorem latchCode_lt (c : Fin 4) (h : Bool) : latchCode c h < 0x0E00 := by
  unfold latchCode
  split <;> omega

section
variable {s : State} {p : Fin 32} {c : Fin 4} (h : Bool) (f : Nat)

theorem latchAction_of_none (ha : fget s (Fld.CMP_CFG_ACTION p c) = 0) : latchAction s p c h f = s := by
  unfold latchAction
  rw [ha]
  rfl

theorem latchAction_of_cycle (ha : fget s (Fld.CMP_CFG_ACTION p c) = 1) : latchAction s p c h f = cbcTrip s p c f := by
  unfold latchAction
  rw [ha]
  rfl

theorem latchAction_of_port (ha : fget s (Fld.CMP_CFG_ACTION p c) = 2) :
    latchAction s p c h f = report (markAccepting s (absFret s f)) (latchCode c h) 1 1 p (stampE s f) := by
  unfold latchAction
  rw [ha]
  rfl

theorem latchAction_of_course (ha : fget s (Fld.CMP_CFG_ACTION p c) = 3) :
    latchAction s p c h f = report (markAccepting s (absFret s f)) (latchCode c h) 1 2 (courseOf s p) (stampE s f) := by
  unfold latchAction
  rw [ha]
  rfl

theorem latchAction_of_fatal (ha : fget s (Fld.CMP_CFG_ACTION p c) = 4) :
    latchAction s p c h f = report (markAccepting s (absFret s f)) (latchCode c h) 2 0 0 (stampE s f) := by
  unfold latchAction
  rw [ha]
  rfl

end

/-- What no action of a latch writes. -/
theorem latchAction_fget (s : State) (p : Fin 32) (c : Fin 4) (h : Bool) (f : Nat) {g : Field} (hs : shownReg g.addr = false)
    (hg : apartFrom (Fld.CMP_CNT_CBC_CNT p c :: escFields p c) g = true) : fget (latchAction s p c h f) g = fget s g := by
  obtain ⟨hcnt, hesc⟩ := Bool.and_eq_true_iff.1 hg
  have hreport (cl k i ts : Nat) : fget (report (markAccepting s (absFret s f)) (latchCode c h) cl k i ts) g = fget s g :=
    (((ActionStep.refl (escFields p c) p s).markAccepting _).report cl k i ts
      ((latchCode_lt c h).trans (by decide))).fields g hs hesc
  unfold latchAction
  extract_lets code m
  split
  · exact ((actionStep_cbcTrip s p c f).fields g hs hesc).trans
      (cbcGated_fget s p c f (shownReg_eq_false.1 hs).1 (Bool.and_eq_true_iff.2 ⟨hcnt, rfl⟩))
  · exact hreport ..
  · exact hreport ..
  · exact hreport ..
  · rfl

/-- A latch of ACTION CBC. -/
theorem cbcTrip_effects (s : State) (p : Fin 32) (c : Fin 4) (f : Nat) : let t := cbcTrip s p c f
    PortLow t p ∧
    fget t (Fld.CMP_CNT_CBC_CNT p c) = (if (cmpOf s p c).setNow then fget s (Fld.CMP_CNT_CBC_CNT p c)
      else min (fget s (Fld.CMP_CNT_CBC_CNT p c) + 1) 65535) ∧
    (fget s (Fld.CMP_TIME_CBC_ESC p c) = 0 → (cmpOf t p c).setNow = true ∧ t.fault = s.fault ∧
      bit t (Fld.PORT_STATUS_EN p) = bit s (Fld.PORT_STATUS_EN p)) := by
  have hstep := actionStep_cbcTrip s p c f
  refine ⟨hstep.low (cbcGated_low s p c f), ?_, fun h => ?_⟩
  · refine (hstep.fields _ (shownReg_of_mod ?_ ?_ ?_) (apartFrom_of_addr ?_)).trans (cbcGated_count s p c f)
    · simp only [Reg.CMP_CNT]
      omega
    · simp only [Reg.CMP_CNT]
      omega
    · simp only [Reg.CMP_CNT]
      omega
    · simp [escFields]
  · rw [cbcTrip_of_no_escalation f h]
    refine ⟨cbcGated_setNow .., cbcGated_fault .., ?_⟩
    rw [bit, cbcGated_fget s p c f (by simp only [Reg.PORT_STATUS]; omega) (apartFrom_of_addr
      (List.forall_mem_singleton.2 (by simp only [Reg.PORT_STATUS, Reg.CMP_CNT]; omega))), bit]

/-- A latch of ACTION PORT, COURSE or FATAL brings its port down. -/
theorem latchAction_down {s : State} {p : Fin 32} {c : Fin 4} (h : Bool) (f : Nat) (h2 : 2 ≤ fget s (Fld.CMP_CFG_ACTION p c))
    (h4 : fget s (Fld.CMP_CFG_ACTION p c) ≤ 4)
    (hm : fget s (Fld.CMP_CFG_ACTION p c) ≤ 3 → ∀ e, matchingEntry s (latchCode c h) (fget s (Fld.CMP_CFG_ACTION p c) - 1)
      (if fget s (Fld.CMP_CFG_ACTION p c) = 2 then p.val else courseOf s p) = some e → fget s (Fld.FAULT_ENTRY_CODE_CLASS e) = 1) :
    PortDown (latchAction s p c h f) p := by
  have hentry (code k i : Nat) (hc : ∀ e, matchingEntry s code k i = some e → fget s (Fld.FAULT_ENTRY_CODE_CLASS e) = 1) (e : Nat)
      (he : matchingEntry (markAccepting s (absFret s f)) code k i = some e) :
      fget (markAccepting s (absFret s f)) (Fld.FAULT_ENTRY_CODE_CLASS e) = 1 := by
    rw [matchingEntry_congr fun _ _ => rd_markAccepting s _ _] at he
    exact (fget_of_rd _ (rd_markAccepting s _ _)).trans (hc e he)
  have hcourse : courseOf (markAccepting s (absFret s f)) p = courseOf s p := fget_of_rd _ (rd_markAccepting s _ _)
  have hact : fget s (Fld.CMP_CFG_ACTION p c) = 2 ∨ fget s (Fld.CMP_CFG_ACTION p c) = 3 ∨ fget s (Fld.CMP_CFG_ACTION p c) = 4 := by omega
  rcases hact with ha | ha | ha
  · rw [ha] at hm
    rw [latchAction_of_port h f ha]
    exact report_contained_down _ (latchCode_lt c h) (.inl ⟨rfl, rfl⟩) (hentry _ _ _ (hm (by decide)))
  · rw [ha] at hm
    rw [latchAction_of_course h f ha]
    exact report_contained_down _ (latchCode_lt c h) (.inr ⟨rfl, hcourse.symm⟩) (hentry _ _ _ (hm (by decide)))
  · rw [latchAction_of_fatal h f ha]
    exact report_fatal_down ..

end Sys2Proof.Machine
end

section
set_option Elab.async false
namespace Sys2Proof.Machine

/-! ### CMP_LATCH_SET (R170, R172, R173) -/

/-- The state in which the action of a latch that sets is taken. -/
def latched (s : State) (p : Fin 32) (c : Fin 4) (h : Bool) (f : Nat) : State := tripped (settleGates s p (64 * absFret s f)) p c h

/-- What brings a latch to its setting writes of registers. -/
def latchFields (p : Fin 32) (c : Fin 4) (h : Bool) : List Field := blankedFields p ++ tripFields p c h

section
variable (s : State) (p : Fin 32) (c : Fin 4) (h : Bool) (f : Nat)

theorem sameBits_latched : SameBits (latchFields p c h) s (latched s p c h f) := by
  obtain ⟨-, -, -, -, hbits, -⟩ := tripped_effects (settleGates s p (64 * absFret s f)) p c h
  exact ((edgeStep_settleGates s p _).bits.mono (List.subset_append_left ..)).trans (hbits.mono (List.subset_append_right ..))

theorem addr_of_mem_tripFields {g : Field} (hg : g ∈ tripFields p c h) :
    g.addr = Reg.CMP_STATUS p c ∨ g.addr = Reg.CMP_CNT p c ∨ g.addr = Reg.CMP_EVENT p c := by
  simp only [tripFields, List.mem_cons, List.not_mem_nil, or_false] at hg
  rcases hg with rfl | rfl | rfl | rfl
  · exact .inl (outFld_addr ..)
  · exact .inl (latFld_addr ..)
  · exact .inr (.inl rfl)
  · exact .inr (.inr (by cases h <;> rfl))

/-- The registers beside the status, counts and events of the comparators of the port. -/
theorem latched_rd {a : Nat} (ha : ∀ d : Fin 4, a ≠ Reg.CMP_STATUS p d ∧ a ≠ Reg.CMP_CNT p d ∧ a ≠ Reg.CMP_EVENT p d) :
    rd (latched s p c h f) a = rd s a :=
  (sameBits_latched s p c h f).rd_eq (List.all_eq_true.2 fun x hx => bne_iff_ne.2 fun he => by
    rcases List.mem_append.1 hx with hb | ht
    · obtain ⟨d, hd⟩ := addr_of_mem_blankedFields hb
      exact (ha d).1 (he.symm.trans hd)
    · obtain ⟨hs, hc, hv⟩ := ha c
      rcases addr_of_mem_tripFields p c h ht with hd | hd | hd
      · exact hs (he.symm.trans hd)
      · exact hc (he.symm.trans hd)
      · exact hv (he.symm.trans hd))

theorem latched_action : fget (latched s p c h f) (Fld.CMP_CFG_ACTION p c) = fget s (Fld.CMP_CFG_ACTION p c) :=
  fget_of_rd _ (latched_rd s p c h f fun d => by
    simp only [Reg.CMP_CFG, Reg.CMP_STATUS, Reg.CMP_CNT, Reg.CMP_EVENT]
    omega)

theorem latched_escalation : fget (latched s p c h f) (Fld.CMP_TIME_CBC_ESC p c) = fget s (Fld.CMP_TIME_CBC_ESC p c) :=
  fget_of_rd _ (latched_rd s p c h f fun d => by
    simp only [Reg.CMP_TIME, Reg.CMP_STATUS, Reg.CMP_CNT, Reg.CMP_EVENT]
    omega)

theorem latched_enable : bit (latched s p c h f) (Fld.PORT_STATUS_EN p) = bit s (Fld.PORT_STATUS_EN p) :=
  bit_of_rd _ (latched_rd s p c h f fun d => by
    simp only [Reg.PORT_STATUS, Reg.CMP_STATUS, Reg.CMP_CNT, Reg.CMP_EVENT]
    omega)

theorem latched_courseOf : courseOf (latched s p c h f) p = courseOf s p :=
  fget_of_rd _ (latched_rd s p c h f fun d => by
    simp only [Reg.PORT_CFG, Reg.CMP_STATUS, Reg.CMP_CNT, Reg.CMP_EVENT]
    omega)

theorem latched_entry {e : Nat} (he : e < 64) :
    rd (latched s p c h f) (Reg.FAULT_ENTRY_CODE e) = rd s (Reg.FAULT_ENTRY_CODE e) :=
  latched_rd s p c h f fun d => by
    simp only [Reg.FAULT_ENTRY_CODE, Reg.CMP_STATUS, Reg.CMP_CNT, Reg.CMP_EVENT]
    omega

/-- The count of cycle-by-cycle settings is beside the trip count. -/
theorem latched_cbcCount : fget (latched s p c h f) (Fld.CMP_CNT_CBC_CNT p c) = fget s (Fld.CMP_CNT_CBC_CNT p c) := by
  refine (sameBits_latched s p c h f).fget_eq ((List.all_append ..).trans (Bool.and_eq_true_iff.2 ⟨apartFrom_of_addr fun x hx => ?_, ?_⟩))
  · obtain ⟨d, hd⟩ := addr_of_mem_blankedFields hx
    rw [hd]
    simp only [Reg.CMP_CNT, Reg.CMP_STATUS]
    omega
  · cases h <;> simp [tripFields, outFld, latFld, tripFld]

theorem latched_setNow : (cmpOf (latched s p c h f) p c).setNow = (cmpOf s p c).setNow := by
  refine Eq.trans ?_ ((edgeStep_settleGates s p (64 * absFret s f)).setNow c)
  rw [latched, tripped, raise, inc, cmpOf_fput, cmpOf_fput, cmpOf_fput, cmpOf_fput]

theorem latched_tripCount :
    fget (latched s p c h f) (Fld.CMP_CNT_TRIP_CNT p c) = min (fget s (Fld.CMP_CNT_TRIP_CNT p c) + 1) 65535 := by
  obtain ⟨-, -, hcnt, -⟩ := tripped_effects (settleGates s p (64 * absFret s f)) p c h
  rw [latched, hcnt, (edgeStep_settleGates s p _).bits.fget_eq (apartFrom_of_addr fun x hx => ?_)]
  obtain ⟨d, hd⟩ := addr_of_mem_blankedFields hx
  rw [hd]
  simp only [Reg.CMP_CNT, Reg.CMP_STATUS]
  omega

theorem latched_memory : SameMemory s (latched s p c h f) :=
  ((((portStep_settleGates s p _).memory.fput _ 1).fput _ 1).fput _ _).fput _ 1

theorem latched_fault : (latched s p c h f).fault = s.fault := by
  rw [latched, tripped, raise_fault, inc_fault, fput_fault, fput_fault]
  exact (congrArg State.fault (portStep_settleGates s p _).frame :)

/-- No action of a latch takes back what its setting shows. -/
theorem latchAction_keeps_trip (v : State) {g : Field} (hg : g ∈ tripFields p c h) : fget (latchAction v p c h f) g = fget v g := by
  refine latchAction_fget v p c h f ?_ ?_
  · have ha := addr_of_mem_tripFields p c h hg
    simp only [Reg.CMP_STATUS, Reg.CMP_CNT, Reg.CMP_EVENT] at ha
    exact shownReg_of_mod (by omega) (by omega) (by omega)
  · simp only [tripFields, List.mem_cons, List.not_mem_nil, or_false] at hg
    rcases hg with rfl | rfl | rfl | rfl <;> cases h <;> simp [apartFrom, escFields, outFld, latFld, tripFld]

end

section
variable {s : State} {p : Fin 32} {c : Fin 4} {h : Bool} {f : Nat}

/-- The acceptance of a latch is that of the state in which it sets. -/
theorem latch_eq_settled (s : State) (p : Fin 32) (c : Fin 4) (h : Bool) (f : Nat) :
    let u := fput (settleGates s p (64 * absFret s f)) (outFld p c h) 1
    bit u (latFld p c h) = bit s (latFld p c h) ∧ latchAccepted u p c (absFret u f) = latchAccepted s p c (absFret s f) := by
  intro u
  have hfret : absFret u f = absFret s f := by
    rw [absFret, fput_time, (portStep_settleGates s p _).time, absFret]
  rw [hfret]
  exact (edgeStep_settleGates s p _).latch_eq c h _

/-- A latch that is set, or whose setting is not accepted. -/
theorem exec_cmpLatchSet_of_kept (hf : filterPasses (settleGates s p (64 * absFret s f)) p c h (absFret s f) = true)
    (hk : bit s (latFld p c h) = true ∨ latchAccepted s p c (absFret s f) = false) :
    exec (.cmpLatchSet p c h f) s = .next (fput (settleGates s p (64 * absFret s f)) (outFld p c h) 1) := by
  obtain ⟨hlat, hacc⟩ := latch_eq_settled s p c h f
  rw [exec_cmpLatchSet_of_passed hf, setLatch_of_kept (by rwa [hlat, hacc])]

theorem exec_cmpLatchSet_of_accepted (hf : filterPasses (settleGates s p (64 * absFret s f)) p c h (absFret s f) = true)
    (hl : bit s (latFld p c h) = false) (ha : latchAccepted s p c (absFret s f) = true) :
    exec (.cmpLatchSet p c h f) s = .next (latchAction (latched s p c h f) p c h f) := by
  obtain ⟨hlat, hacc⟩ := latch_eq_settled s p c h f
  rw [exec_cmpLatchSet_of_passed hf, setLatch_of_accepted (hlat.trans hl) (hacc.trans ha), latched]

end

/-- What the setting of a latch shows, whatever its action. -/
theorem latchAction_shows (s : State) (p : Fin 32) (c : Fin 4) (h : Bool) (f : Nat) : let t := latchAction (latched s p c h f) p c h f
    bit t (outFld p c h) = true ∧ bit t (latFld p c h) = true ∧
    fget t (Fld.CMP_CNT_TRIP_CNT p c) = min (fget s (Fld.CMP_CNT_TRIP_CNT p c) + 1) 65535 ∧ bit t (tripFld p c h) = true ∧
    SameMemory s t := by
  obtain ⟨hout, hlat, -, htrip, -⟩ := tripped_effects (settleGates s p (64 * absFret s f)) p c h
  have hkeep {g : Field} (hg : g ∈ tripFields p c h) := latchAction_keeps_trip p c h f (latched s p c h f) hg
  have hbit {g : Field} (hg : g ∈ tripFields p c h) :
      bit (latchAction (latched s p c h f) p c h f) g = bit (latched s p c h f) g := by rw [bit, hkeep hg, bit]
  refine ⟨(hbit ?_).trans hout, (hbit ?_).trans hlat, (hkeep ?_).trans (latched_tripCount s p c h f), (hbit ?_).trans htrip,
    (latched_memory s p c h f).trans (settleStep_latchAction p _ c h f).memory⟩
  all_goals simp [tripFields]

/-- With ACTION NONE the registers of the latch are all that changes. -/
theorem latchAction_none_effects {s : State} {p : Fin 32} {c : Fin 4} (h : Bool) (f : Nat) (ha : fget s (Fld.CMP_CFG_ACTION p c) = 0) :
    let u := settleGates s p (64 * absFret s f)
    let t := latchAction (latched s p c h f) p c h f
    SameBits (tripFields p c h) u t ∧ t = { u with live := t.live } := by
  obtain ⟨-, -, -, -, hbits, hframe⟩ := tripped_effects (settleGates s p (64 * absFret s f)) p c h
  intro u t
  have ht : t = tripped u p c h := latchAction_of_none h f ((latched_action s p c h f).trans ha)
  rw [ht]
  exact ⟨hbits, hframe⟩

/-- With ACTION CBC the outputs of the port are low for the rest of the carrier. -/
theorem latchAction_cycle_effects {s : State} {p : Fin 32} {c : Fin 4} (h : Bool) (f : Nat) (ha : fget s (Fld.CMP_CFG_ACTION p c) = 1) :
    let t := latchAction (latched s p c h f) p c h f
    PortLow t p ∧
    fget t (Fld.CMP_CNT_CBC_CNT p c) = (if (cmpOf s p c).setNow then fget s (Fld.CMP_CNT_CBC_CNT p c)
      else min (fget s (Fld.CMP_CNT_CBC_CNT p c) + 1) 65535) ∧
    (fget s (Fld.CMP_TIME_CBC_ESC p c) = 0 → (cmpOf t p c).setNow = true ∧ t.fault = s.fault ∧
      bit t (Fld.PORT_STATUS_EN p) = bit s (Fld.PORT_STATUS_EN p)) := by
  have hcbc := cbcTrip_effects (latched s p c h f) p c f
  rwa [latched_cbcCount, latched_setNow, latched_escalation, latched_fault, latched_enable,
    ← latchAction_of_cycle h f ((latched_action s p c h f).trans ha)] at hcbc

/-- With ACTION PORT, COURSE or FATAL the port is down. -/
theorem latchAction_latched_down {s : State} {p : Fin 32} {c : Fin 4} (h : Bool) (f : Nat) (h2 : 2 ≤ fget s (Fld.CMP_CFG_ACTION p c))
    (h4 : fget s (Fld.CMP_CFG_ACTION p c) ≤ 4)
    (hm : fget s (Fld.CMP_CFG_ACTION p c) ≤ 3 → ∀ e, matchingEntry s (latchCode c h) (fget s (Fld.CMP_CFG_ACTION p c) - 1)
      (if fget s (Fld.CMP_CFG_ACTION p c) = 2 then p.val else courseOf s p) = some e → fget s (Fld.FAULT_ENTRY_CODE_CLASS e) = 1) :
    PortDown (latchAction (latched s p c h f) p c h f) p := by
  refine latchAction_down h f ?_ ?_ ?_
  · rwa [latched_action]
  · rwa [latched_action]
  · rw [latched_action, latched_courseOf, matchingEntry_congr fun e => latched_entry s p c h f]
    exact fun h3 e he => (fget_of_rd _ (latched_entry s p c h f (matchingEntry_lt he))).trans (hm h3 e he)

/-! ### CMP_BLANK_END (R171) -/

theorem cmpBlankEnd_effects {s : State} {p : Fin 32} {c : Fin 4} {f : Nat} (h : blankEnd (cmpOf s p c) ≤ absFret s f) :
    AnswersNext (exec (.cmpBlankEnd p c f) s) fun t =>
      bit t (Fld.CMP_STATUS_BLANKED p c) = false ∧ SameBits [Fld.CMP_STATUS_BLANKED p c] s t ∧ t = { s with live := t.live } :=
  ⟨_, if_pos h, bne_eq_false_iff_eq.2 (fget_fput_self _ _ _ (by simp)), (SameBits.refl _ s).fput _ _ (by simp), rfl⟩

theorem cmpBlankEnd_of_blanked {s : State} {p : Fin 32} {c : Fin 4} {f : Nat} (h : absFret s f < blankEnd (cmpOf s p c)) :
    exec (.cmpBlankEnd p c f) s = .next s := if_neg (Nat.not_le.2 h)

/-- Settles O24: the sides of a comparator by threshold and hysteresis, the setting of a latch by what it shows and by each action, a
report by the port or course that it brings down. -/
theorem comparatorCrossingsAndLatches : Obligations.ComparatorCrossingsAndLatches := by
  unfold Obligations.ComparatorCrossingsAndLatches
  refine ⟨cmpCrossing_effects, fun s p c h f => ?_, fun s p c f => ⟨cmpBlankEnd_effects, cmpBlankEnd_of_blanked⟩⟩
  intro u trip
  refine ⟨fun hf => if_neg (by rw [hf]; exact Bool.false_ne_true), exec_cmpLatchSet_of_kept, fun hf hl ha hm => ?_⟩
  obtain ⟨hout, hlat, hcnt, htrip, hmem⟩ := latchAction_shows s p c h f
  refine ⟨_, exec_cmpLatchSet_of_accepted hf hl ha, hout, hlat, hcnt, htrip, hmem, latchAction_none_effects h f,
    latchAction_cycle_effects h f, fun h2 h4 => ?_⟩
  obtain ⟨hen, hlow, hact⟩ := latchAction_latched_down h f h2 h4 (hm h2)
  exact ⟨hlow, hact, hen⟩

end Sys2Proof.Machine
end

section
set_option Elab.async false
namespace Sys2Proof.Machine

/-! ### Tables whose entries are named by a number -/

theorem updN_of_fin {α : Type} {n : Nat} (t : Vector α n) (i : Fin n) (f : α → α) : updN t i f = upd t i f := dif_pos i.isLt

theorem updN_of_le {α : Type} {n i : Nat} (t : Vector α n) (f : α → α) (h : n ≤ i) : updN t i f = t := dif_neg (Nat.not_lt.2 h)

theorem toList_getElem?_fin {α : Type} {n : Nat} (t : Vector α n) (i : Fin n) : t.toList[i.val]? = some (t.get i) := by
  simp [Vector.get_eq_getElem]

theorem toList_getD_fin {α : Type} {n : Nat} (t : Vector α n) (i : Fin n) (d : α) : t.toList.getD i d = t.get i := by
  rw [List.getD_eq_getElem?_getD, toList_getElem?_fin, Option.getD_some]

/-- A result put into one pipeline of a table (R80). -/
theorem delivers_upd {α : Type} {n : Nat} (v : Vector (Piped α) n) (i : Fin n) (t lat : Nat) (w : α) :
    Delivers (v.get i) ((upd v i fun x => x.put t lat w).get i) t lat w := by
  rw [upd_get_self]
  exact delivers_put _ _ _ _

/-- A fold that changes each entry it lists, each once. -/
theorem foldl_updN_get {α : Type} {n : Nat} (g : Nat → α → α) (i : Fin n) : ∀ (l : List Nat) (t : Vector α n), l.Nodup →
    (l.foldl (fun t k => updN t k (g k)) t).get i = if i.val ∈ l then g i (t.get i) else t.get i := by
  intro l
  induction l with
  | nil => exact fun t _ => (if_neg List.not_mem_nil).symm
  | cons m l ih =>
    intro t hl
    obtain ⟨hm, hl⟩ := List.nodup_cons.1 hl
    rw [List.foldl_cons, ih _ hl]
    by_cases hi : i.val = m
    · subst hi
      rw [if_neg hm, if_pos List.mem_cons_self, updN_of_fin, upd_get_self]
    · have hv : (updN t m (g m)).get i = t.get i := by
        by_cases hmn : m < n
        · rw [updN, dif_pos hmn]
          exact upd_get_of_ne t _ fun e => hi (congrArg Fin.val e)
        · rw [updN_of_le t _ (Nat.not_lt.1 hmn)]
      simp [hv, hi]

/-- The numbers below `n` that pass a test are those of the indices that do. -/
theorem filter_range_eq (n : Nat) (q : Nat → Bool) :
    (List.range n).filter q = ((List.finRange n).filter fun i : Fin n => q i).map Fin.val := by
  rw [← List.map_coe_finRange_eq_range, List.filter_map]
  rfl

/-! ### Words of SHARE and CAPO that act (R204, R527) -/

/-- A SHARE word of step `k` acts. -/
theorem shareActs_iff (s : State) (l : LaneFields) (k : BitVec 14) :
    (laneActs s 0x1A l && l.arg.toNat == k.toNat) = true ↔ laneActs s 0x1A l = true ∧ l.arg = k := by
  rw [Bool.and_eq_true, beq_iff_eq, BitVec.toNat_inj]

/-- One that does not run, or is a word of another step, does not. -/
theorem not_shareActs {s : State} {l : LaneFields} (k : BitVec 14) (h : laneActs s 0x1A l = false ∨ l.arg ≠ k) :
    ¬(laneActs s 0x1A l && l.arg.toNat == k.toNat) = true := fun e => by
  obtain ⟨ha, hk⟩ := (shareActs_iff s l k).1 e
  exact h.elim (fun h => Bool.false_ne_true (h.symm.trans ha)) fun h => h hk

section
variable {s : State} {l : LaneFields} (f : Nat)

theorem exec_shareAcc_of_acts (h : laneActs s 0x1A l = true) (ha : l.arg = 0) :
    exec (.shareAcc l f) s = .next (shareAcc s l.port.toFin) := if_pos ((shareActs_iff s l 0).2 ⟨h, ha⟩)

theorem exec_sharePtrim_of_acts (h : laneActs s 0x1A l = true) (ha : l.arg = 1) :
    exec (.sharePtrim l f) s = .next (sharePtrim s l.port.toFin (absFret s f)) := if_pos ((shareActs_iff s l 1).2 ⟨h, ha⟩)

theorem exec_shareApply_of_acts (h : laneActs s 0x1A l = true) (ha : l.arg = 2) :
    exec (.shareApply l f) s = .next (shareApply s l.port.toFin (absFret s f)) := if_pos ((shareActs_iff s l 2).2 ⟨h, ha⟩)

end

end Sys2Proof.Machine
end

section
set_option Elab.async false
namespace Sys2Proof.Machine

/-! ### ACC and APPLY (R199, R201) -/

/-- The current of a port, filtered by BETA (R199). -/
def filteredCurrent (s : State) (p : Fin 32) : Word :=
  vwOf (vwVal (s.capo.f.get p) + vwVal (rd s Reg.CAPO_BETA) * (portCurrent s p - vwVal (s.capo.f.get p)))

/-- ACC: the filtered current, and the part of an active port in the sum of its course. -/
theorem shareAcc_effects (s : State) (p : Fin 32) : let t := shareAcc s p
    t.capo.f.get p = filteredCurrent s p ∧
    (fget s (Fld.PORT_STATUS_STATE p) = 3 → t.capo.sumNow.get p = s.capo.sumNow.get p + vwVal (t.capo.f.get p) ∧
      t.capo.cntNow.get p = s.capo.cntNow.get p + 1) ∧
    (fget s (Fld.PORT_STATUS_STATE p) ≠ 3 → t.capo.sumNow = s.capo.sumNow ∧ t.capo.cntNow = s.capo.cntNow) ∧
    (∀ q, q ≠ p → t.capo.f.get q = s.capo.f.get q ∧ t.capo.sumNow.get q = s.capo.sumNow.get q) ∧ t = { s with capo := t.capo } := by
  intro t
  have hf : (upd s.capo.f p fun _ => filteredCurrent s p).get p = filteredCurrent s p := upd_get_self ..
  have hother {q : Fin 32} (hq : q ≠ p) : (upd s.capo.f p fun _ => filteredCurrent s p).get q = s.capo.f.get q := upd_get_of_ne _ _ hq
  by_cases h : fget s (Fld.PORT_STATUS_STATE p) = 3
  · have ht : t = setCapo s fun c => { c with
        f := upd c.f p fun _ => filteredCurrent s p
        sumNow := upd c.sumNow p (· + vwVal (filteredCurrent s p)), cntNow := upd c.cntNow p (· + 1) } := if_pos h
    rw [ht]
    refine ⟨hf, fun _ => ⟨?_, upd_get_self ..⟩, fun hn => absurd h hn, fun q hq => ⟨hother hq, upd_get_of_ne _ _ hq⟩, rfl⟩
    exact (upd_get_self ..).trans (congrArg (fun w => s.capo.sumNow.get p + vwVal w) hf.symm)
  · have ht : t = setCapo s fun c => { c with f := upd c.f p fun _ => filteredCurrent s p } := if_neg h
    rw [ht]
    exact ⟨hf, fun hy => absurd hy h, fun _ => ⟨rfl, rfl⟩, fun q hq => ⟨hother hq, rfl⟩, rfl⟩

/-- APPLY without a sharing loop writes nothing. -/
theorem shareApply_of_none {s : State} {p : Fin 32} (t : Nat) (h : 64 ≤ fget s (Fld.CAPO_PORT_SLOOP p)) : shareApply s p t = s := by
  unfold shareApply
  simp only [setCapo, updN_of_le _ _ h]

theorem exec_shareApply_of_idle {s : State} {l : LaneFields} (f : Nat)
    (h : laneActs s 0x1A l = false ∨ l.arg ≠ 2 ∨ 64 ≤ fget s (Fld.CAPO_PORT_SLOOP l.port.toNat)) : exec (.shareApply l f) s = .next s := by
  rcases or_assoc.2 h with h | h
  · exact if_neg (not_shareActs 2 h)
  · exact ite_eq_right_iff.2 fun _ => congrArg _ (shareApply_of_none _ h)

/-- APPLY: the multiplier (1 + t)·(1 + τ) of the sharing loop. -/
theorem shareApply_of_loop {s : State} {p c : Fin 32} {n : Fin 64} (t : Nat) (hn : fget s (Fld.CAPO_PORT_SLOOP p) = n.val)
    (hc : courseOf s p = c.val) : shareApply s p t = setCapo s fun x => { x with
      mult := upd x.mult n fun m => m.put t 1 (vwOf ((1 + vwVal ((s.capo.t.get p).get t)) * (1 + vwVal ((s.capo.tau.get c).get t)))) } := by
  unfold shareApply
  simp only [hn, hc, toList_getElem?_fin, updN_of_fin]

/-! ### Trims of ports and courses (R199, R200, R203) -/

/-- A trim shown in its register, with its event where it has come to its bound. -/
def trimShown (u : State) (a : Nat) (w : Word) (old bound : Rat) (ev : Field) : State :=
  if absR (vwVal w) = bound ∧ vwVal w ≠ old then raise (wr u a w) ev else wr u a w

theorem trimShown_effects {s u : State} {a : Nat} (w : Word) (old bound : Rat) {ev : Field} (hu : u = { s with capo := u.capo })
    (ha : a ≠ ev.addr) (hl : ev.lo + ev.width ≤ 32) (hw : ev.width = 1) : let t := trimShown u a w old bound ev
    rd t a = w ∧ (absR (vwVal w) = bound → vwVal w ≠ old → bit t ev = true) ∧ SameBits [wholeReg a, ev] s t ∧ t.capo = u.capo ∧
    t = { s with live := t.live, capo := t.capo } := by
  intro t
  have hbits : SameBits [wholeReg a, ev] s (wr u a w) := ((SameBits.refl _ s).of_live (congrArg State.live hu :)).wr _ _ (by simp)
  by_cases h : absR (vwVal w) = bound ∧ vwVal w ≠ old
  · have ht : t = raise (wr u a w) ev := if_pos h
    rw [ht]
    exact ⟨(rd_fput_of_ne _ _ ha).trans (rd_wr_self ..), fun _ _ => bit_raise_self _ _ hl hw, hbits.raise _ (by simp), rfl, by rw [hu]; rfl⟩
  · have ht : t = wr u a w := if_neg h
    rw [ht]
    exact ⟨rd_wr_self .., fun hb ho => absurd ⟨hb, ho⟩ h, hbits, rfl, by rw [hu]; rfl⟩

/-- A trim that has room for its correction is moved by it and clipped (R199, R200). -/
theorem trimStep_of_scale (old k d a smin bound : Rat) (h : max (absR a) smin ≠ 0) :
    trimStep old k d a smin bound = clipR (old + k * (d / max (absR a) smin)) (-bound) bound := by
  simp only [trimStep, if_neg h]

/-- PTRIM moves the trim of a port: BAL of its course, the port active, two samples or more (R199). -/
def portBalanced (s : State) (p c : Fin 32) : Bool :=
  bit s (Fld.CAPO_COURSE_BAL c) && fget s (Fld.PORT_STATUS_STATE p) == 3 && decide (2 ≤ s.capo.cntLast.get c)

/-- The trim of a port moved toward the mean of its course (R199). -/
def portTrim (s : State) (p c : Fin 32) : Word :=
  let a := s.capo.sumLast.get c / ((s.capo.cntLast.get c : Nat) : Rat)
  vwOf (trimStep (vwVal (s.capo.t.get p).cur) (vwVal (rd s Reg.CAPO_KSP)) (a - vwVal (s.capo.f.get p)) a (vwVal (rd s Reg.CAPO_SMIN))
    (vwVal (rd s Reg.CAPO_PB)))

/-- What PTRIM makes of the state, by whether it moves the trim. -/
theorem sharePtrim_eq {s : State} {p c : Fin 32} (t : Nat) (hc : courseOf s p = c.val) : sharePtrim s p t =
    if portBalanced s p c then
      trimShown (setCapo s fun x => { x with t := upd x.t p fun v => v.put t 1 (portTrim s p c) }) (Reg.CAPO_PTRIM p) (portTrim s p c)
        (vwVal (s.capo.t.get p).cur) (vwVal (rd s Reg.CAPO_PB)) Fld.CAPO_EVENT_PB_HIT
    else s := by
  unfold sharePtrim
  simp only [hc, toList_getD_fin]
  rfl

/-- PTRIM on a port whose trim it moves. -/
theorem sharePtrim_effects {s : State} {p c : Fin 32} (k : Nat) (hc : courseOf s p = c.val) (hon : portBalanced s p c = true) :
    let t := sharePtrim s p k
    let w := portTrim s p c
    Delivers (s.capo.t.get p) (t.capo.t.get p) k 1 w ∧ rd t (Reg.CAPO_PTRIM p) = w ∧
    (absR (vwVal w) = vwVal (rd s Reg.CAPO_PB) → vwVal w ≠ vwVal (s.capo.t.get p).cur → bit t Fld.CAPO_EVENT_PB_HIT = true) ∧
    (∀ q, q ≠ p → t.capo.t.get q = s.capo.t.get q) ∧
    SameBits [wholeReg (Reg.CAPO_PTRIM p), Fld.CAPO_EVENT_PB_HIT] s t ∧ t = { s with live := t.live, capo := t.capo } := by
  intro t w
  have ht : t = trimShown _ _ _ _ _ _ := (sharePtrim_eq k hc).trans (if_pos hon)
  obtain ⟨hrd, hev, hbits, hcapo, honly⟩ := trimShown_effects
    (s := s) (u := setCapo s fun x => { x with t := upd x.t p fun v => v.put k 1 w }) (a := Reg.CAPO_PTRIM p) w
    (vwVal (s.capo.t.get p).cur) (vwVal (rd s Reg.CAPO_PB)) (ev := Fld.CAPO_EVENT_PB_HIT) rfl
    (by simp only [Reg.CAPO_PTRIM, Reg.CAPO_EVENT]; omega) (by decide) rfl
  rw [← ht] at hrd hev hbits hcapo honly
  refine ⟨?_, hrd, hev, fun q hq => ?_, hbits, honly⟩
  · rw [hcapo]
    exact delivers_upd _ _ _ _ _
  · rw [hcapo]
    exact upd_get_of_ne _ _ hq

/-- A course that takes part in the share group of course `c` (R200). -/
def sharesWith (s : State) (c d : Fin 32) : Bool :=
  bit s (Fld.CAPO_COURSE_SHARE d) && fget s (Fld.CAPO_COURSE_OBUS d) == fget s (Fld.CAPO_COURSE_OBUS c) &&
    decide (1 ≤ s.capo.cntLast.get d)

/-- The share group of a course (R200). -/
def shareGroup (s : State) (c : Fin 32) : List (Fin 32) := (List.finRange 32).filter (sharesWith s c)

/-- The load of a course as a fraction of its rating, x (R200). -/
def courseLoad (s : State) (d : Fin 32) : Rat := vwVal (rd s (Reg.CAPO_CSCALE d)) * s.capo.sumLast.get d

/-- The trim of a course moved toward the mean of its group (R200). -/
def courseTrimmed (s : State) (c : Fin 32) : Word :=
  let a := ((shareGroup s c).map (courseLoad s)).sum / ((shareGroup s c).length : Rat)
  vwOf (trimStep (vwVal (s.capo.tau.get c).cur) (vwVal (rd s Reg.CAPO_KSC)) (a - courseLoad s c) a (vwVal (rd s Reg.CAPO_SMIN))
    (vwVal (rd s Reg.CAPO_CB)))

/-- What CTRIM makes of the state, by whether it moves the trim. -/
theorem courseTrim_eq (s : State) (c : Fin 32) (t : Nat) : courseTrim s c t =
    if sharesWith s c c && decide (2 ≤ (shareGroup s c).length) then
      trimShown (setCapo s fun x => { x with tau := upd x.tau c fun v => v.put t 4 (courseTrimmed s c) }) (Reg.CAPO_CTRIM c)
        (courseTrimmed s c) (vwVal (s.capo.tau.get c).cur) (vwVal (rd s Reg.CAPO_CB)) Fld.CAPO_EVENT_CB_HIT
    else s := by
  have hin : ((shareGroup s c).map Fin.val).contains c.val = sharesWith s c c := by
    rw [Bool.eq_iff_iff]
    simp [shareGroup, Fin.val_inj]
  have hload : (fun d : Nat => vreg s (Reg.CAPO_CSCALE d) * s.capo.sumLast.toList.getD d 0) ∘ Fin.val = courseLoad s :=
    funext fun d => by rw [Function.comp, toList_getD_fin, vreg, courseLoad]
  have hgroup : ((List.range 32).filter fun d => bit s (Fld.CAPO_COURSE_SHARE d) &&
      fget s (Fld.CAPO_COURSE_OBUS d) == fget s (Fld.CAPO_COURSE_OBUS c) && decide (1 ≤ s.capo.cntLast.toList.getD d 0)) =
      (shareGroup s c).map Fin.val := by
    rw [filter_range_eq]
    simp only [toList_getD_fin]
    rfl
  unfold courseTrim
  simp only [hgroup, hin, List.length_map, List.map_map, hload, toList_getElem?_fin, toList_getD_fin, updN_of_fin]
  rfl

/-- CTRIM on a course whose trim it moves. -/
theorem courseTrim_effects {s : State} {c : Fin 32} (k : Nat) (hon : sharesWith s c c = true) (hg : 2 ≤ (shareGroup s c).length) :
    let t := courseTrim s c k
    let w := courseTrimmed s c
    Delivers (s.capo.tau.get c) (t.capo.tau.get c) k 4 w ∧ rd t (Reg.CAPO_CTRIM c) = w ∧
    (absR (vwVal w) = vwVal (rd s Reg.CAPO_CB) → vwVal w ≠ vwVal (s.capo.tau.get c).cur → bit t Fld.CAPO_EVENT_CB_HIT = true) ∧
    (∀ d, d ≠ c → t.capo.tau.get d = s.capo.tau.get d) ∧
    SameBits [wholeReg (Reg.CAPO_CTRIM c), Fld.CAPO_EVENT_CB_HIT] s t ∧ t = { s with live := t.live, capo := t.capo } := by
  intro t w
  have ht : t = trimShown _ _ _ _ _ _ := (courseTrim_eq s c k).trans (if_pos (by rw [hon, decide_eq_true hg]; rfl))
  obtain ⟨hrd, hev, hbits, hcapo, honly⟩ := trimShown_effects
    (s := s) (u := setCapo s fun x => { x with tau := upd x.tau c fun v => v.put k 4 w }) (a := Reg.CAPO_CTRIM c) w
    (vwVal (s.capo.tau.get c).cur) (vwVal (rd s Reg.CAPO_CB)) (ev := Fld.CAPO_EVENT_CB_HIT) rfl
    (by simp only [Reg.CAPO_CTRIM, Reg.CAPO_EVENT]; omega) (by decide) rfl
  rw [← ht] at hrd hev hbits hcapo honly
  refine ⟨?_, hrd, hev, fun q hq => ?_, hbits, honly⟩
  · rw [hcapo]
    exact delivers_upd _ _ _ _ _
  · rw [hcapo]
    exact upd_get_of_ne _ _ hq

end Sys2Proof.Machine
end

section
set_option Elab.async false
namespace Sys2Proof.Machine

/-! ### TERM, POWER and CAP (R205) -/

section
variable {s : State} {l : LaneFields} (f : Nat)

theorem exec_capoTerm_of_enabled {j : Fin 24} (h : capoActs s l 0 = true) (hj : l.argBits 4 6 = j.val)
    (hen : bit s (Fld.CAPO_TERM_SIG_EN j) = true) : exec (.capoTerm l f) s = .next (setCapo s fun c => { c with
      terms := upd c.terms j fun p => p.put (absFret s f) 4 (vwOf (vwVal (rd s (Reg.CAPO_TERM_K j)) *
        vwVal (signal s (fget s (Fld.CAPO_TERM_SIG_VSIG j)) f f) * vwVal (signal s (fget s (Fld.CAPO_TERM_SIG_ISIG j)) f f))) }) := by
  refine (if_pos (by rw [h, hj, hen]; rfl)).trans ?_
  simp only [hj, updN_of_fin]
  rfl

theorem exec_capoTerm_of_disabled {j : Nat} (hj : l.argBits 4 6 = j) (hen : bit s (Fld.CAPO_TERM_SIG_EN j) = false) :
    exec (.capoTerm l f) s = .next s := if_neg (by rw [hj, hen, Bool.and_false]; exact Bool.false_ne_true)

/-- A term that the block has not. -/
theorem exec_capoTerm_outside (h : 24 ≤ l.argBits 4 6) : exec (.capoTerm l f) s = .next s := by
  change execCapoTerm l f s = _
  unfold execCapoTerm
  simp only [setCapo, updN_of_le _ _ h, ite_self]

end

/-- The load terms that name limit `n` (R205). -/
def limLoad (s : State) (k n : Nat) : Rat :=
  (((List.range 16).filter fun j => fget s (Fld.CAPO_TERM_SIG_LIM (8 + j)) == n).map fun j => termVal s k (8 + j)).sum

/-- Lp of a limit after a POWER step at fret `k` (R205). -/
def lpNext (s : State) (k : Nat) (n : Fin 64) : Word :=
  vwOf (vwVal (s.capo.lp.get n).cur + vwVal (rd s Reg.CAPO_GAMMA) * (limLoad s k n - vwVal (s.capo.lp.get n).cur))

/-- The sum of the input terms (R205). -/
def inputPower (s : State) (k : Nat) : Rat := ((List.range 8).map (termVal s k)).sum

/-- Pf after a POWER step (R205). -/
def pfNext (s : State) (k : Nat) : Word :=
  vwOf (vwVal s.capo.pf.cur + vwVal (rd s Reg.CAPO_GAMMA) * (inputPower s k - vwVal s.capo.pf.cur))

/-- B after a POWER step (R205). -/
def baseNext (s : State) (k : Nat) : Word := vwOf (vwVal (pfNext s k) - ((List.finRange 64).map fun n => vwVal (lpNext s k n)).sum)

/-- The results of a POWER step put into the pipeline (R205). -/
def powered (s : State) (k : Nat) : State := setCapo s fun c => { c with
  pIn := c.pIn.put k 4 (vwOf (inputPower s k)), pf := c.pf.put k 4 (pfNext s k), base := c.base.put k 4 (baseNext s k)
  loadSum := c.loadSum.put k 4 (vwOf ((List.range 16).map fun j => termVal s k (8 + j)).sum)
  lp := Vector.ofFn fun n => (c.lp.get n).put k 4 (lpNext s k n) }

theorem exec_capoPower_of_acts {s : State} {l : LaneFields} (f : Nat) (h : capoActs s l 1 = true) : exec (.capoPower l f) s =
    .next (wr (wr (powered s (absFret s f)) Reg.CAPO_PIN (pfNext s (absFret s f))) Reg.CAPO_BASE (baseNext s (absFret s f))) := by
  have hload (n : Nat) : ((((List.range 16).map fun j => (fget s (Fld.CAPO_TERM_SIG_LIM (8 + j)), termVal s (absFret s f) (8 + j))).filter
      fun e => e.1 == n).map (·.2)).sum = limLoad s (absFret s f) n := by
    rw [List.filter_map, List.map_map]
    rfl
  have hlp (g : Fin 64 → Word) : ((Vector.ofFn g).toList.map vwVal).sum = ((List.finRange 64).map fun n => vwVal (g n)).sum := by
    rw [Vector.toList_ofFn, List.ofFn_eq_map, List.map_map]
    rfl
  refine (if_pos h).trans ?_
  simp only [hload, hlp, Vector.get_ofFn, List.map_map, Function.comp_def, powered, baseNext, pfNext, lpNext, inputPower, vreg]

theorem powered_effects (s : State) (k : Nat) : let t := wr (wr (powered s k) Reg.CAPO_PIN (pfNext s k)) Reg.CAPO_BASE (baseNext s k)
    rd t Reg.CAPO_PIN = pfNext s k ∧ rd t Reg.CAPO_BASE = baseNext s k ∧
    (∀ n : Fin 64, Delivers (s.capo.lp.get n) (t.capo.lp.get n) k 4 (lpNext s k n)) ∧
    SameBits [wholeReg Reg.CAPO_PIN, wholeReg Reg.CAPO_BASE] s t ∧ t = { s with live := t.live, capo := t.capo } := by
  refine ⟨(rd_wr_of_ne _ _ (by decide)).trans (rd_wr_self ..), rd_wr_self .., fun n => ?_, ?_, rfl⟩
  · change Delivers _ ((Vector.ofFn fun n => (s.capo.lp.get n).put k 4 (lpNext s k n)).get n) _ _ _
    rw [Vector.get_ofFn]
    exact delivers_put _ _ _ _
  · exact ((SameBits.wr (t := powered s k) (fun _ _ _ _ => rfl) _ _ (by simp)).wr _ _ (by simp))

/-- C is one of the caps, and above none of them (R205). -/
theorem capInForce_least (s : State) : let c := (capInForce s).1
    vwVal c ≤ vwVal (rd s Reg.CAPO_LCAP) ∧ vwVal c ≤ vwVal s.capo.hostCap ∧
    (bit s Fld.CAPO_CFG_FLEET = true → vwVal c ≤ vwVal (rd s Reg.CAPO_FLEETCAP)) ∧
    (c = rd s Reg.CAPO_LCAP ∨ c = s.capo.hostCap ∨ (bit s Fld.CAPO_CFG_FLEET = true ∧ c = rd s Reg.CAPO_FLEETCAP)) := by
  unfold capInForce
  extract_lets lcap a fleet c
  obtain ⟨hal, hah, ha⟩ : vwVal a.1 ≤ vwVal lcap ∧ vwVal a.1 ≤ vwVal s.capo.hostCap ∧ (a.1 = lcap ∨ a.1 = s.capo.hostCap) := by
    by_cases h : vwVal s.capo.hostCap < vwVal lcap
    · rw [show a = (s.capo.hostCap, 1) from if_pos h]
      exact ⟨h.le, le_rfl, .inr rfl⟩
    · rw [show a = (lcap, 0) from if_neg h]
      exact ⟨le_rfl, not_lt.1 h, .inl rfl⟩
  by_cases hf : bit s Fld.CAPO_CFG_FLEET = true
  · by_cases h : vwVal fleet < vwVal a.1
    · have hc : c = fleet := by simp only [c, if_pos hf, if_pos h]
      rw [hc]
      exact ⟨h.le.trans hal, h.le.trans hah, fun _ => le_rfl, .inr (.inr ⟨hf, rfl⟩)⟩
    · have hc : c = a.1 := by simp only [c, if_pos hf, if_neg h]
      rw [hc]
      exact ⟨hal, hah, fun _ => not_lt.1 h, ha.imp_right .inl⟩
  · have hc : c = a.1 := by simp only [c, if_neg hf]
    rw [hc]
    exact ⟨hal, hah, fun e => absurd e hf, ha.imp_right .inl⟩

/-- C delivered and shown, with what sets it (R205). -/
def capShown (s : State) (k : Nat) : State :=
  fput (wr (setCapo s fun c => { c with cap := c.cap.put k 4 (capInForce s).1 }) Reg.CAPO_CAP (capInForce s).1) Fld.CAPO_STATUS_CAPSRC
    (capInForce s).2

theorem capShown_effects (s : State) (k : Nat) : let t := capShown s k
    Delivers s.capo.cap t.capo.cap k 4 (rd t Reg.CAPO_CAP) ∧ rd t Reg.CAPO_CAP = (capInForce s).1 ∧
    SameBits [wholeReg Reg.CAPO_CAP, Fld.CAPO_STATUS_CAPSRC] s t ∧ t = { s with live := t.live, capo := t.capo } := by
  intro t
  have hrd : rd t Reg.CAPO_CAP = (capInForce s).1 := (rd_fput_of_ne _ _ (by decide)).trans (rd_wr_self ..)
  refine ⟨?_, hrd, (SameBits.wr (t := setCapo s _) (fun _ _ _ _ => rfl) _ _ (by simp)).fput _ _ (by simp), rfl⟩
  rw [hrd]
  exact delivers_put _ _ _ _

/-! ### ALLOC (R206, R208) -/

/-- The enabled limits of priority `p`. -/
def limitsOf (s : State) (p : Nat) : List Nat := (limits s).filter fun n => fget s (Fld.CAPO_LIM_CFG_PRIO n) == p

/-- What the level asks for above its floors, Q (R206). -/
def levelAsk (s : State) (k p : Nat) : Rat := ((limitsOf s p).map fun n => limR s k n - limF s k n).sum

/-- λ′ of a limit of a level that is granted `g` of the `q` that it asks for (R206). -/
def lamOf (s : State) (k : Nat) (g q : Rat) (n : Nat) : Word :=
  if limR s k n = 0 then vwOf 1 else vwOf ((limF s k n + (limR s k n - limF s k n) * (g / q)) / limR s k n)

theorem nodup_limits (s : State) (q : Nat → Bool) : ((limits s).filter q).Nodup := (List.nodup_range.filter _).filter _

theorem allocate_effects (s : State) (p k : Nat) (a : Rat) : let t := allocate s p k a
    let q := levelAsk s k p
    let g := clipR a 0 q
    Delivers s.capo.avail t.capo.avail k 4 (vwOf (a - g)) ∧
    (∀ n : Fin 64, n.val ∈ limitsOf s p → Delivers (s.capo.lamNew.get n) (t.capo.lamNew.get n) k 4 (lamOf s k g q n)) ∧
    (∀ n : Fin 64, n.val ∉ limitsOf s p → t.capo.lamNew.get n = s.capo.lamNew.get n) ∧ t = { s with capo := t.capo } := by
  intro t q g
  have hlam (n : Fin 64) : t.capo.lamNew.get n =
      if n.val ∈ limitsOf s p then (s.capo.lamNew.get n).put k 4 (lamOf s k g q n) else s.capo.lamNew.get n :=
    foldl_updN_get (fun n (x : Piped Word) => x.put k 4 (lamOf s k g q n)) n (limitsOf s p) s.capo.lamNew (nodup_limits s _)
  refine ⟨delivers_put _ _ _ _, fun n hn => ?_, fun n hn => (hlam n).trans (if_neg hn), rfl⟩
  rw [hlam n, if_pos hn]
  exact delivers_put _ _ _ _

/-- The state in UNMET, before its fault is reported (R208). -/
def unmetEntered (s : State) : State := inc (raise (fput s Fld.CAPO_STATUS_UNMET 1) Fld.CAPO_EVENT_UNMET) Fld.CAPO_HCNT_UNMET_CNT

theorem judgeUnmet_of_entry {s : State} {b : Bool} (f : Nat) (hb : b = true) (h : bit s Fld.CAPO_STATUS_UNMET = false) :
    judgeUnmet s b f = reportCorrected (unmetEntered s) 0x02A0 (stampE (unmetEntered s) f) :=
  (if_pos (by rw [hb, h]; rfl)).trans (report_corrected ..)

theorem judgeUnmet_of_no_entry {s : State} {b : Bool} (f : Nat) (h : (b && !bit s Fld.CAPO_STATUS_UNMET) = false) :
    judgeUnmet s b f = fputB s Fld.CAPO_STATUS_UNMET b := if_neg (Bool.eq_false_iff.1 h)

theorem sameBits_unmetEntered (s : State) :
    SameBits [Fld.CAPO_STATUS_UNMET, Fld.CAPO_EVENT_UNMET, Fld.CAPO_HCNT_UNMET_CNT] s (unmetEntered s) :=
  (((SameBits.refl _ s).fput _ _ (by simp)).raise _ (by simp)).inc _ (by simp)

theorem judgeUnmet_effects (s : State) (b : Bool) (f : Nat) : let t := judgeUnmet s b f
    bit t Fld.CAPO_STATUS_UNMET = b ∧ recFrame t = recFrame s ∧
    (b = true → bit s Fld.CAPO_STATUS_UNMET = false → bit t Fld.CAPO_EVENT_UNMET = true ∧ CorrectedReported s t 0x02A0) := by
  intro t
  by_cases h : (b && !bit s Fld.CAPO_STATUS_UNMET) = true
  · obtain ⟨hb, hs⟩ := Bool.and_eq_true _ _ ▸ h
    have ht : t = _ := judgeUnmet_of_entry f hb (Bool.not_eq_true' _ ▸ hs)
    rw [ht]
    refine ⟨?_, recFrame_reportCorrected .., fun _ _ => ⟨?_, correctedReported_after (sameBits_unmetEntered s) _ _ (by decide) (by decide)⟩⟩
    · rw [bit_reportCorrected _ _ _ _ (by decide) (by decide), unmetEntered, inc, bit_fput_of_ne _ _ _ _ (by decide), raise,
        bit_fput_of_ne _ _ _ _ (by decide), hb]
      exact bit_raise_self _ _ (by decide) rfl
    · rw [bit_reportCorrected _ _ _ _ (by decide) (by decide), unmetEntered, inc, bit_fput_of_ne _ _ _ _ (by decide)]
      exact bit_raise_self _ _ (by decide) rfl
  · have hf : (b && !bit s Fld.CAPO_STATUS_UNMET) = false := Bool.eq_false_iff.2 h
    have ht : t = _ := judgeUnmet_of_no_entry f hf
    rw [ht]
    exact ⟨bit_fputB_self _ _ _ (by decide) rfl, rfl, fun hb hs => absurd (by rw [hb, hs]; rfl) h⟩

/-- The first level: the headroom `a` also tells whether the floors can be met (R208). -/
theorem firstLevel_effects (s : State) (p k : Nat) (a : Rat) (f : Nat) : let t := judgeUnmet (allocate s p k a) (decide (a < 0)) f
    t.capo = (allocate s p k a).capo ∧ bit t Fld.CAPO_STATUS_UNMET = decide (a < 0) ∧ SameMemory s t ∧ t.ports = s.ports ∧
    t.loops = s.loops ∧
    (a < 0 → bit s Fld.CAPO_STATUS_UNMET = false → bit t Fld.CAPO_EVENT_UNMET = true ∧ CorrectedReported s t 0x02A0) := by
  obtain ⟨hunmet, hframe, hev⟩ := judgeUnmet_effects (allocate s p k a) (decide (a < 0)) f
  have hmem : SameMemory (allocate s p k a) _ := sameMemory_of_recFrame hframe
  refine ⟨(congrArg State.capo hframe :), hunmet, hmem, (congrArg State.ports hframe :), (congrArg State.loops hframe :), fun hn hs => ?_⟩
  obtain ⟨hraised, hcount⟩ := hev (decide_eq_true hn) hs
  exact ⟨hraised, hcount.of_rd rfl⟩

/-- The headroom that a level begins with (R206). -/
def headroom (s : State) (k p : Nat) : Rat :=
  if p = 0 then vwVal (s.capo.cap.get k) - vwVal (s.capo.base.get k) - ((limits s).map (limF s k)).sum else vwVal (s.capo.avail.get k)

theorem exec_capoAlloc_first {s : State} {l : LaneFields} (f : Nat) (h : capoActs s l 3 = true) (hp : l.argBits 4 6 = 0) :
    exec (.capoAlloc l f) s = .next (judgeUnmet (allocate s 0 (absFret s f) (headroom s (absFret s f) 0))
      (decide (headroom s (absFret s f) 0 < 0)) f) := (if_pos h).trans (if_pos hp)

theorem exec_capoAlloc_later {s : State} {l : LaneFields} (f : Nat) (h : capoActs s l 3 = true) (hp : l.argBits 4 6 ≠ 0) :
    exec (.capoAlloc l f) s = .next (allocate s (l.argBits 4 6) (absFret s f) (headroom s (absFret s f) (l.argBits 4 6))) := by
  rw [headroom, if_neg hp]
  exact (if_pos h).trans (if_neg hp)

/-! ### WRITE (R207) -/

/-- λ of a limit after WRITE: cut at once, released by RISE (R207). -/
def lamNext (s : State) (k : Nat) (n : Fin 64) (old : Piped Word) : Word :=
  if vwVal ((s.capo.lamNew.get n).get k) < vwVal old.cur then vwOf (vwVal ((s.capo.lamNew.get n).get k))
  else vwOf (min (vwVal ((s.capo.lamNew.get n).get k)) (vwVal old.cur + vwVal (rd s Reg.CAPO_RISE)))

/-- The factor of a limit in the pipeline, and the register that shows it. -/
def lamView (s : State) (n : Fin 64) : Piped Word × Word := (s.capo.lam.get n, rd s (Reg.CAPO_LIM_LAMBDA n))

/-- Both after WRITE. -/
def lamWritten (s : State) (k : Nat) (n : Fin 64) (v : Piped Word × Word) : Piped Word × Word :=
  (v.1.put k 4 (lamNext s k n v.1), lamNext s k n v.1)

/-- A new factor delivered and shown. -/
def lamPut (s : State) (k : Nat) (n : Fin 64) (w : Word) : State :=
  wr (setCapo s fun c => { c with lam := upd c.lam n fun p => p.put k 4 w }) (Reg.CAPO_LIM_LAMBDA n) w

/-- What WRITE writes: the factors of the limits and the event that one fell below 1. -/
def lamReg (a : Nat) : Bool := a == Reg.CAPO_EVENT || decide (0xA400 ≤ a ∧ a < 0xA800 ∧ a % 16 = 12)

theorem lamReg_lambda (n : Fin 64) : lamReg (Reg.CAPO_LIM_LAMBDA n) = true := by
  simp only [lamReg, Reg.CAPO_LIM_LAMBDA, Bool.or_eq_true, decide_eq_true_eq]
  omega

theorem lamReg_cfg (n : Nat) : lamReg (Reg.CAPO_LIM_CFG n) = false := by
  simp only [lamReg, Reg.CAPO_LIM_CFG, Reg.CAPO_EVENT, Bool.or_eq_false_iff, beq_eq_false_iff_ne, decide_eq_false_iff_not]
  omega

/-- `t` is `s` with factors of limits changed. -/
structure LamStep (s t : State) : Prop where
  regs : SameRegsOutside lamReg s t
  only : t = { s with live := t.live, capo := { s.capo with lam := t.capo.lam } }

theorem LamStep.only_capo {s t : State} (h : LamStep s t) : t = { s with live := t.live, capo := t.capo } := by rw [h.only]

theorem updateLambda_eq (k : Nat) (s : State) (n : Fin 64) : let u := lamPut s k n (lamNext s k n (s.capo.lam.get n))
    updateLambda k s n = u ∨ updateLambda k s n = raise u Fld.CAPO_EVENT_CAP_START := by
  unfold updateLambda
  simp only [toList_getElem?_fin, updN_of_fin, apply_ite vwOf]
  by_cases h : vwVal (lamNext s k n (s.capo.lam.get n)) < 1 ∧ 1 ≤ vwVal (s.capo.lam.get n).cur
  · exact .inr (if_pos h)
  · exact .inl (if_neg h)

theorem LamStep.updateLambda {s t : State} (h : LamStep s t) (k : Nat) (n : Fin 64) : LamStep s (updateLambda k t n) := by
  have hput (w : Word) : LamStep s (lamPut t k n w) :=
    ⟨(h.regs.of_live (u := setCapo t _) rfl).wr _ _ (lamReg_lambda n), by rw [h.only]; rfl⟩
  rcases updateLambda_eq k t n with e | e <;> rw [e]
  · exact hput _
  · exact ⟨(hput _).regs.raise _ (by decide), by rw [(hput _).only]; rfl⟩

theorem LamStep.lamNext_eq {s t : State} (h : LamStep s t) (k : Nat) (n : Fin 64) : lamNext t k n = lamNext s k n := by
  have hnew : t.capo.lamNew = s.capo.lamNew := by rw [h.only]
  funext old
  rw [lamNext, hnew, h.regs _ (by decide), lamNext]

theorem LamStep.enabled_eq {s t : State} (h : LamStep s t) (n : Nat) : bit t (Fld.CAPO_LIM_CFG_EN n) = bit s (Fld.CAPO_LIM_CFG_EN n) :=
  bit_of_rd _ (h.regs _ (lamReg_cfg n))

theorem lamView_lamPut (s : State) (k : Nat) (m n : Fin 64) (w : Word) :
    lamView (lamPut s k m w) n = if n = m then ((s.capo.lam.get m).put k 4 w, w) else lamView s n := by
  by_cases h : n = m
  · subst h
    rw [if_pos rfl]
    exact Prod.ext (upd_get_self ..) (rd_wr_self ..)
  · have ha : Reg.CAPO_LIM_LAMBDA n ≠ Reg.CAPO_LIM_LAMBDA m := by
      have := Fin.val_ne_of_ne h
      simp only [Reg.CAPO_LIM_LAMBDA]
      omega
    rw [if_neg h]
    exact Prod.ext (upd_get_of_ne _ _ h) (rd_wr_of_ne _ _ ha)

theorem lamView_raise (s : State) (n : Fin 64) : lamView (raise s Fld.CAPO_EVENT_CAP_START) n = lamView s n :=
  Prod.ext rfl (rd_fput_of_ne _ _ (by simp only [Reg.CAPO_LIM_LAMBDA, Reg.CAPO_EVENT]; omega))

theorem LamStep.lamView_updateLambda {s t : State} (h : LamStep s t) (k : Nat) (m n : Fin 64) :
    lamView (Machine.updateLambda k t m) n = if n = m then lamWritten s k m (lamView t m) else lamView t n := by
  have hput := lamView_lamPut t k m n (lamNext t k m (t.capo.lam.get m))
  rw [h.lamNext_eq] at hput
  rcases updateLambda_eq k t m with e | e
  · rw [e, h.lamNext_eq]
    exact hput
  · rw [e, lamView_raise, h.lamNext_eq]
    exact hput

/-- The enabled limits of group `g` (R204). -/
def limitGroup (s : State) (g : Nat) : List (Fin 64) :=
  (List.finRange 64).filter fun n => n.val / 16 == g && bit s (Fld.CAPO_LIM_CFG_EN n)

theorem mem_limitGroup {s : State} {g : Nat} {n : Fin 64} :
    n ∈ limitGroup s g ↔ n.val / 16 = g ∧ bit s (Fld.CAPO_LIM_CFG_EN n) = true := by simp [limitGroup]

/-- The factors of a group written (R207). -/
def groupWritten (s : State) (k g : Nat) : State := (limitGroup s g).foldl (fun t (n : Fin 64) => updateLambda k t n) s

theorem groupWritten_effects (s : State) (k g : Nat) : LamStep s (groupWritten s k g) ∧
    ∀ n, lamView (groupWritten s k g) n = if n ∈ limitGroup s g then lamWritten s k n (lamView s n) else lamView s n :=
  foldl_each (J := LamStep s) (G := lamWritten s k) (fun _ m h => h.updateLambda k m) (fun _ m n h => h.lamView_updateLambda k m n) (limitGroup s g) s
    ((List.nodup_finRange 64).filter _) ⟨SameRegsOutside.refl _ s, rfl⟩

/-- Some enabled limit is held below 1 (R225). -/
def cappingNow (s : State) : Bool := (List.finRange 64).any fun n => bit s (Fld.CAPO_LIM_CFG_EN n) && decide (vwVal (s.capo.lam.get n).cur < 1)

theorem exec_capoWrite_of_acts {s : State} {l : LaneFields} (f : Nat) (h : capoActs s l 4 = true) : exec (.capoWrite l f) s =
    .next (fputB (groupWritten s (absFret s f) (l.argBits 4 6)) Fld.CAPO_STATUS_CAPPING
      (cappingNow (groupWritten s (absFret s f) (l.argBits 4 6)))) := by
  have hlist : (limits s).filter (fun k => k / 16 == l.argBits 4 6) = (limitGroup s (l.argBits 4 6)).map Fin.val := by
    rw [limits, List.filter_filter, filter_range_eq]
    rfl
  refine (if_pos h).trans ?_
  simp only [hlist, List.foldl_map]
  simp only [limits, filter_range_eq, List.any_map, List.any_filter, Function.comp_def, toList_getElem?_fin]
  rfl

theorem capoWrite_effects (s : State) (k g : Nat) : let u := groupWritten s k g
    let t := fputB u Fld.CAPO_STATUS_CAPPING (cappingNow u)
    (∀ n ∈ limitGroup s g, t.capo.lam.get n = (s.capo.lam.get n).put k 4 (lamNext s k n (s.capo.lam.get n)) ∧
      rd t (Reg.CAPO_LIM_LAMBDA n) = lamNext s k n (s.capo.lam.get n)) ∧
    (∀ n ∉ limitGroup s g, t.capo.lam.get n = s.capo.lam.get n ∧ rd t (Reg.CAPO_LIM_LAMBDA n) = rd s (Reg.CAPO_LIM_LAMBDA n)) ∧
    (bit t Fld.CAPO_STATUS_CAPPING = true ↔
      ∃ n : Fin 64, bit s (Fld.CAPO_LIM_CFG_EN n) = true ∧ vwVal (t.capo.lam.get n).cur < 1) ∧
    t = { s with live := t.live, capo := t.capo } := by
  intro u t
  obtain ⟨hstep, hview⟩ := groupWritten_effects s k g
  have hrd (n : Fin 64) : rd t (Reg.CAPO_LIM_LAMBDA n) = rd u (Reg.CAPO_LIM_LAMBDA n) :=
    rd_fput_of_ne _ _ (by simp only [Reg.CAPO_LIM_LAMBDA, Reg.CAPO_STATUS]; omega)
  refine ⟨fun n hn => ?_, fun n hn => ?_, ?_, ?_⟩
  · obtain ⟨hlam, hreg⟩ := Prod.ext_iff.1 ((hview n).trans (if_pos hn))
    exact ⟨hlam, (hrd n).trans hreg⟩
  · obtain ⟨hlam, hreg⟩ := Prod.ext_iff.1 ((hview n).trans (if_neg hn))
    exact ⟨hlam, (hrd n).trans hreg⟩
  · rw [bit_fputB_self _ _ _ (by decide) rfl, cappingNow]
    simp [u, t, hstep.enabled_eq]
  · exact congrArg (fputB · Fld.CAPO_STATUS_CAPPING (cappingNow u)) hstep.only_capo

end Sys2Proof.Machine
end

section
set_option Elab.async false
namespace Sys2Proof.Machine

/-! ### HOLDUP and CTRIM (R200, R216) -/

section
variable {s : State} {l : LaneFields} (f : Nat)

theorem exec_capoCtrim_of_acts {c : Nat} (h : capoActs s l 5 = true) (hc : l.argBits 4 6 = c) :
    exec (.capoCtrim l f) s = .next (courseTrim s c (absFret s f)) := hc ▸ if_pos h

/-- A course that the device has not. -/
theorem exec_capoCtrim_outside (h : 32 ≤ l.argBits 4 6) : exec (.capoCtrim l f) s = .next s := by
  have hout (q : Nat → Bool) : ((List.range 32).filter q).contains (l.argBits 4 6) = false := by
    rw [Bool.eq_false_iff, ne_eq, List.contains_iff_mem, List.mem_filter, List.mem_range]
    omega
  have hstay : courseTrim s (l.argBits 4 6) (absFret s f) = s := if_neg (by rw [hout]; exact Bool.false_ne_true)
  by_cases ha : capoActs s l 5 = true
  · rw [exec_capoCtrim_of_acts f ha rfl, hstay]
  · exact if_neg ha

/-- One judgement of the input, counted (R216). -/
theorem exec_capoHoldup_of_acts (h : capoActs s l 6 = true) : exec (.capoHoldup l f) s = .next (setCapo s fun c => { c with
    outside := if inputOutside s f then c.outside + 1 else 0, inside := if inputOutside s f then 0 else c.inside + 1 }) := by
  refine (if_pos h).trans ?_
  split
  · rfl
  · rfl

end

/-- Settles O26: a word that does not act, or not with its step, is the other branch of its command; each of the ten steps is a lemma above. -/
theorem sharingAndCapSteps : Obligations.SharingAndCapSteps := by
  unfold Obligations.SharingAndCapSteps
  refine ⟨fun s l f => ⟨fun h => if_neg ?_, fun h => if_neg (Bool.eq_false_iff.1 h), fun h => if_neg (Bool.eq_false_iff.1 h),
      fun h => if_neg (Bool.eq_false_iff.1 h), fun h => if_neg (Bool.eq_false_iff.1 h), fun h => if_neg (Bool.eq_false_iff.1 h),
      fun h => if_neg (Bool.eq_false_iff.1 h), fun h => if_neg (not_shareActs 0 h), fun h => if_neg (not_shareActs 1 h), exec_shareApply_of_idle f,
      exec_capoTerm_outside f, exec_capoCtrim_outside f⟩,
    fun s l f h => ?_, fun s l f j h hj => ⟨exec_capoTerm_of_disabled f hj, fun hen => ?_⟩, fun s l f h => ?_, fun s l f h => ?_,
    fun s l f h => ?_, fun s l f c h hc => ⟨fun hno => ?_, fun hon hg => ?_⟩, trimStep_of_scale,
    fun s l f h => ⟨_, exec_capoHoldup_of_acts f h, rfl, rfl, rfl⟩, fun s l f h ha => ⟨_, exec_shareAcc_of_acts f h ha, shareAcc_effects s _⟩,
    fun s l f c h ha hc => ⟨fun hno => ?_, fun hon => ?_⟩, fun s l f n c h ha hn hc => ?_⟩
  · rw [h, Bool.false_and]
    exact Bool.false_ne_true
  · obtain ⟨hdel, hrd, hbits, honly⟩ := capShown_effects s (absFret s f)
    obtain ⟨hlcap, hhost, hfleet, hone⟩ := capInForce_least s
    rw [← hrd] at hlcap hhost hfleet hone
    exact ⟨capShown s (absFret s f), if_pos h, hdel, hlcap, hhost, hfleet, hone, hbits, honly⟩
  · exact ⟨_, exec_capoTerm_of_enabled f h hj hen, delivers_upd _ _ _ _ _, fun _ hk => upd_get_of_ne _ _ hk, rfl⟩
  · intro k g pin load lp
    obtain ⟨hpin, hbase, hlp, hbits, honly⟩ := powered_effects s k
    refine ⟨_, exec_capoPower_of_acts f h, hpin, ?_, delivers_put _ _ _ _, ?_, ?_, hlp, hbits, honly⟩
    · rw [hpin]
      exact hbase
    · rw [hpin]
      exact delivers_put _ _ _ _
    · rw [hbase]
      exact delivers_put _ _ _ _
  · intro k p level a q g
    obtain ⟨havail, hin, hout, honly⟩ := allocate_effects s p k a
    by_cases hp : p = 0
    · have ha : a = headroom s k 0 := by simp only [a, headroom, if_pos hp, if_pos]
      obtain ⟨hcapo, hfirst⟩ := firstLevel_effects s p k a f
      rw [← hcapo] at havail hin hout
      exact ⟨judgeUnmet (allocate s p k a) (decide (a < 0)) f, by rw [ha, hp]; exact exec_capoAlloc_first f h hp, havail, hin, hout,
        fun e => absurd hp e, fun _ => hfirst⟩
    · exact ⟨allocate s p k a, exec_capoAlloc_later f h hp, havail, hin, hout, fun _ => honly, fun e => absurd e hp⟩
  · obtain ⟨hin, hout, hcapping, honly⟩ := capoWrite_effects s (absFret s f) (l.argBits 4 6)
    refine ⟨_, exec_capoWrite_of_acts f h, fun k hk hen => ?_, fun k hk => ?_, hcapping, honly⟩
    · obtain ⟨hlam, hreg⟩ := hin k (mem_limitGroup.2 ⟨hk, hen⟩)
      rw [hlam, hreg]
      exact ⟨rfl, rfl, delivers_put _ _ _ _⟩
    · refine hout k fun hm => ?_
      obtain ⟨hg, hen⟩ := mem_limitGroup.1 hm
      exact hk.elim (fun h => h hg) fun h => Bool.false_ne_true (h.symm.trans hen)
  · rw [exec_capoCtrim_of_acts f h hc, courseTrim_eq, if_neg]
    rw [Bool.and_eq_true, decide_eq_true_eq]
    exact fun e => hno.elim (fun h => Bool.false_ne_true (h.symm.trans e.1)) fun h => Nat.not_lt.2 e.2 h
  · exact ⟨_, exec_capoCtrim_of_acts f h hc, courseTrim_effects _ hon hg⟩
  · rw [exec_sharePtrim_of_acts f h ha, sharePtrim_eq _ hc]
    exact congrArg _ (if_neg (Bool.eq_false_iff.1 hno))
  · exact ⟨_, exec_sharePtrim_of_acts f h ha, sharePtrim_effects _ hc hon⟩
  · refine ⟨_, exec_shareApply_of_acts f h ha, ?_⟩
    rw [shareApply_of_loop _ hn hc]
    exact ⟨delivers_upd _ _ _ _ _, fun _ hm => upd_get_of_ne _ _ hm, rfl⟩

end Sys2Proof.Machine
end

section
set_option Elab.async false
namespace Sys2Proof.Machine

/-- Two steps that change registers and the data of Capo alone are one. -/
theorem capoOnly_trans {s t u : State} (h : t = { s with live := t.live, capo := t.capo })
    (g : u = { t with live := u.live, capo := u.capo }) : u = { s with live := u.live, capo := u.capo } := by rw [g, h]

/-! ### Budgets put in force (R213, R214) -/

/-- A one-bit field cleared reads 0. -/
theorem bit_fput_zero (s : State) (f : Field) (h : f.lo + f.width ≤ 32) (hw : f.width = 1) : bit (fput s f 0) f = false :=
  bit_fputB_self s f false h hw

/-- A one-bit field set reads 1. -/
theorem bit_fput_one (s : State) (f : Field) (h : f.lo + f.width ≤ 32) (hw : f.width = 1) : bit (fput s f 1) f = true :=
  bit_fputB_self s f true h hw

/-- What a budget writes as it takes effect. -/
abbrev budgetFields : List Field := [wholeReg Reg.CAPO_FLEETCAP, Fld.CAPO_STATUS_BPEND, Fld.CAPO_STATUS_BSTALE]

theorem applyBudget_effects (s : State) (v : Word) : let t := applyBudget s v
    rd t Reg.CAPO_FLEETCAP = v ∧ bit t Fld.CAPO_STATUS_BPEND = false ∧ bit t Fld.CAPO_STATUS_BSTALE = false ∧ SameBits budgetFields s t ∧
    t = { s with live := t.live, capo := { s.capo with budget := none, raise := false, boundarySeen := false, safeCap := false } } := by
  refine ⟨?_, ?_, bit_fput_zero _ _ (by decide) rfl, ?_, rfl⟩
  · rw [applyBudget, rd_fput_of_ne _ _ (by decide), rd_fput_of_ne _ _ (by decide)]
    exact rd_wr_self ..
  · rw [applyBudget, bit_fput_of_ne _ _ _ _ (by decide)]
    exact bit_fput_zero _ _ (by decide) rfl
  · have hcap : SameBits budgetFields s (wr s Reg.CAPO_FLEETCAP v) := (SameBits.refl _ s).wr _ _ (by simp)
    exact ((hcap.of_live rfl).fput Fld.CAPO_STATUS_BPEND 0 (by simp)).fput Fld.CAPO_STATUS_BSTALE 0 (by simp)

theorem exec_budgetDecreaseApply_of_waiting {s : State} {v : Word} (hb : s.capo.budget = some v) (hr : s.capo.raise = false) :
    exec .budgetDecreaseApply s = .next (applyBudget s v) := by
  change execBudgetDecreaseApply s = _
  simp only [execBudgetDecreaseApply, hb, hr, Bool.false_eq_true, if_false]

theorem exec_budgetDecreaseApply_of_none {s : State} (h : s.capo.budget = none ∨ s.capo.raise = true) :
    exec .budgetDecreaseApply s = .next s := by
  change execBudgetDecreaseApply s = _
  unfold execBudgetDecreaseApply
  split
  case h_1 v hb => exact if_pos (h.resolve_left (by rw [hb]; exact Option.some_ne_none v))
  case h_2 => rfl

/-! ### HALF_CYCLE_BOUNDARY (R213 to R215) -/

/-- A raise that has waited for a round boundary takes effect (R213). -/
def RaiseTaken (s u : State) : Prop :=
  (∀ v, s.capo.budget = some v → s.capo.raise = true → s.capo.boundarySeen = true → u = applyBudget s v) ∧
  ((s.capo.budget = none ∨ s.capo.raise = false ∨ s.capo.boundarySeen = false) → u = s)

/-- AGE counted on (R214). -/
def budgetAged (s : State) : State := if bit s Fld.CAPO_CFG_FLEET then inc s Fld.CAPO_STATUS_AGE else s

/-- The emission of a root with `count` entries, under the stamp `w` (R215). -/
def emissionTaken (s : State) (w : Word) (count : Nat) : State :=
  if isRoot s && count != 0 then setCapo s fun c => { c with
    emitStamp := some w, emitTable := (List.range count).map fun e => c.table.getD e (0, 0) }
  else s

theorem exec_halfCycleBoundary (s : State) (b : Bool) : ∃ u, RaiseTaken s u ∧ exec (.halfCycleBoundary b) s =
    .next (emissionTaken (budgetAged u) (halfStamp s b) (min (fget s Fld.CAPO_BTX_COUNT) 224)) := by
  change ∃ u, RaiseTaken s u ∧ execHalfCycleBoundary b s = _
  unfold execHalfCycleBoundary
  cases hb : s.capo.budget with
  | none => exact ⟨s, ⟨fun v hv => absurd (hb.symm.trans hv) (by simp), fun _ => rfl⟩, rfl⟩
  | some v =>
    by_cases hd : (s.capo.raise && s.capo.boundarySeen) = true
    · obtain ⟨hr, hs⟩ := Bool.and_eq_true _ _ ▸ hd
      simp only [if_pos hd]
      refine ⟨applyBudget s v, ⟨fun w hw _ _ => ?_, fun h => ?_⟩, rfl⟩
      · rw [Option.some.inj (hb.symm.trans hw)]
      · simp [hb, hr, hs] at h
    · simp only [if_neg hd]
      exact ⟨s, ⟨fun w _ hr hs => absurd (by rw [hr, hs]; rfl) hd, fun _ => rfl⟩, rfl⟩

/-- The frame of a raise that takes effect. -/
theorem RaiseTaken.frame {s u : State} (h : RaiseTaken s u) : SameBits budgetFields s u ∧ u.capo.table = s.capo.table ∧
    u.capo.emitStamp = s.capo.emitStamp ∧ u.capo.emitTable = s.capo.emitTable ∧ u = { s with live := u.live, capo := u.capo } := by
  obtain ⟨htaken, hstays⟩ := h
  by_cases hd : s.capo.budget = none ∨ s.capo.raise = false ∨ s.capo.boundarySeen = false
  · rw [hstays hd]
    exact ⟨SameBits.refl _ s, rfl, rfl, rfl, rfl⟩
  · simp only [not_or, Bool.not_eq_false, Option.ne_none_iff_exists'] at hd
    obtain ⟨⟨v, hb⟩, hr, hs⟩ := hd
    obtain ⟨-, -, -, hbits, -⟩ := applyBudget_effects s v
    rw [htaken v hb hr hs]
    exact ⟨hbits, rfl, rfl, rfl, rfl⟩

theorem budgetAged_effects (s : State) : let t := budgetAged s
    fget t Fld.CAPO_STATUS_AGE = (if bit s Fld.CAPO_CFG_FLEET then
      min (fget s Fld.CAPO_STATUS_AGE + 1) (2 ^ Fld.CAPO_STATUS_AGE.width - 1) else fget s Fld.CAPO_STATUS_AGE) ∧
    SameBits [Fld.CAPO_STATUS_AGE] s t ∧ t.capo = s.capo ∧ t = { s with live := t.live, capo := t.capo } := by
  intro t
  by_cases h : bit s Fld.CAPO_CFG_FLEET = true
  · have ht : t = inc s Fld.CAPO_STATUS_AGE := if_pos h
    rw [ht, if_pos h]
    exact ⟨fget_inc_self _ _ (by decide), (SameBits.refl _ s).inc _ (by simp), rfl, rfl⟩
  · have ht : t = s := if_neg h
    rw [ht, if_neg h]
    exact ⟨rfl, SameBits.refl _ s, rfl, rfl⟩

theorem emissionTaken_of_root {s : State} {w : Word} {n : Nat} (hr : isRoot s = true) (hn : n ≠ 0) : emissionTaken s w n =
    setCapo s fun c => { c with emitStamp := some w, emitTable := (List.range n).map fun e => c.table.getD e (0, 0) } :=
  if_pos (by rw [hr, bne_iff_ne.2 hn]; rfl)

theorem emissionTaken_of_none {s : State} {w : Word} {n : Nat} (h : isRoot s = false ∨ n = 0) : emissionTaken s w n = s :=
  if_neg fun e => by
    obtain ⟨hr, hn⟩ := Bool.and_eq_true _ _ ▸ e
    exact h.elim (fun h => Bool.false_ne_true (h.symm.trans hr)) (bne_iff_ne.1 hn)

theorem emissionTaken_only (s : State) (w : Word) (n : Nat) : let t := emissionTaken s w n
    t.live = s.live ∧ t.capo.budget = s.capo.budget ∧ t = { s with live := t.live, capo := t.capo } := by
  intro t
  by_cases h : isRoot s = false ∨ n = 0
  · have ht : t = s := emissionTaken_of_none h
    rw [ht]
    exact ⟨rfl, rfl, rfl⟩
  · simp only [not_or, Bool.not_eq_false] at h
    have ht : t = _ := emissionTaken_of_root h.1 h.2
    rw [ht]
    exact ⟨rfl, rfl, rfl⟩

/-- Everything that a half-cycle boundary does. -/
theorem halfCycle_effects {s u : State} (h : RaiseTaken s u) (w : Word) :
    let t := emissionTaken (budgetAged u) w (min (fget s Fld.CAPO_BTX_COUNT) 224)
    (∀ v, s.capo.budget = some v → s.capo.raise = true → s.capo.boundarySeen = true →
      rd t Reg.CAPO_FLEETCAP = v ∧ t.capo.budget = none ∧ bit t Fld.CAPO_STATUS_BPEND = false ∧ bit t Fld.CAPO_STATUS_BSTALE = false) ∧
    ((s.capo.budget = none ∨ s.capo.raise = false ∨ s.capo.boundarySeen = false) →
      rd t Reg.CAPO_FLEETCAP = rd s Reg.CAPO_FLEETCAP ∧ t.capo.budget = s.capo.budget) ∧
    fget t Fld.CAPO_STATUS_AGE = (if bit s Fld.CAPO_CFG_FLEET then min (fget s Fld.CAPO_STATUS_AGE + 1) (2 ^ Fld.CAPO_STATUS_AGE.width - 1)
      else fget s Fld.CAPO_STATUS_AGE) ∧
    (isRoot s = true → fget s Fld.CAPO_BTX_COUNT ≠ 0 → fget s Fld.CAPO_BTX_COUNT ≤ 224 →
      t.capo.emitStamp = some w ∧ t.capo.emitTable.length = fget s Fld.CAPO_BTX_COUNT ∧
      (∀ e, e < fget s Fld.CAPO_BTX_COUNT → t.capo.emitTable[e]? = some (s.capo.table.getD e (0, 0)))) ∧
    ((isRoot s = false ∨ fget s Fld.CAPO_BTX_COUNT = 0) →
      t.capo.emitStamp = s.capo.emitStamp ∧ t.capo.emitTable = s.capo.emitTable) ∧
    SameBits [wholeReg Reg.CAPO_FLEETCAP, Fld.CAPO_STATUS_BPEND, Fld.CAPO_STATUS_BSTALE, Fld.CAPO_STATUS_AGE] s t ∧
    t = { s with live := t.live, capo := t.capo } := by
  intro t
  obtain ⟨hbits, htable, hstamp, hemit, honly⟩ := h.frame
  obtain ⟨hage, hagebits, hcapo, hageonly⟩ := budgetAged_effects u
  obtain ⟨hlive, hbudget, htonly⟩ := emissionTaken_only (budgetAged u) w (min (fget s Fld.CAPO_BTX_COUNT) 224)
  have htu : SameBits [Fld.CAPO_STATUS_AGE] u t := hagebits.of_live hlive
  have hroot : isRoot (budgetAged u) = isRoot s := by
    rw [isRoot, hagebits.fget_eq (by decide), hbits.fget_eq (by decide), isRoot]
  have hfleet : rd t Reg.CAPO_FLEETCAP = rd u Reg.CAPO_FLEETCAP := htu.rd_eq (by decide)
  have htb : t.capo.budget = u.capo.budget := hbudget.trans (congrArg CapoSt.budget hcapo)
  refine ⟨fun v hb hr hs => ?_, fun hn => ?_, ?_, fun hr h0 hle => ?_, fun hno => ?_, ?_, ?_⟩
  · obtain ⟨hcap, hbp, hbst, -, hao⟩ := applyBudget_effects s v
    rw [← h.1 v hb hr hs] at hcap hbp hbst hao
    rw [hfleet, htb, htu.bit_eq (by decide), htu.bit_eq (by decide)]
    exact ⟨hcap, by rw [hao], hbp, hbst⟩
  · rw [hfleet, htb, h.2 hn]
    exact ⟨rfl, rfl⟩
  · rw [hbits.bit_eq (by decide), hbits.fget_eq (by decide)] at hage
    refine Eq.trans ?_ hage
    exact fget_of_rd _ (by rw [rd, hlive, rd])
  · have ht : t = _ := emissionTaken_of_root (hroot.trans hr) (by omega)
    rw [ht, Nat.min_eq_left hle]
    refine ⟨rfl, by simp [setCapo], fun e he => ?_⟩
    simp [setCapo, he, hcapo, htable]
  · have ht : t = budgetAged u := emissionTaken_of_none (by rw [hroot]; exact hno.imp_right fun h => by rw [h]; rfl)
    rw [ht, hcapo]
    exact ⟨hstamp, hemit⟩
  · exact (hbits.mono (by simp)).trans (htu.mono (by simp))
  · exact capoOnly_trans (capoOnly_trans honly hageonly) htonly

end Sys2Proof.Machine
end

section
set_option Elab.async false
namespace Sys2Proof.Machine

/-! ### BUDGET_STALE (R214) -/

/-- A stale budget: FLEETCAP is SAFE_CAP, before the fault is reported. -/
def staleMarked (s : State) : State := raise (fput (safeBudget s) Fld.CAPO_STATUS_BSTALE 1) Fld.CAPO_EVENT_BSTALE

theorem staleMarked_effects (s : State) : let t := staleMarked s
    rd t Reg.CAPO_FLEETCAP = rd s Reg.CAPO_SAFECAP ∧ bit t Fld.CAPO_STATUS_BSTALE = true ∧ bit t Fld.CAPO_EVENT_BSTALE = true ∧
    SameBits [wholeReg Reg.CAPO_FLEETCAP, Fld.CAPO_STATUS_BSTALE, Fld.CAPO_EVENT_BSTALE] s t ∧ SameMemory s t := by
  refine ⟨?_, ?_, bit_raise_self _ _ (by decide) rfl, ?_, fun _ => rfl, fun _ => rfl⟩
  · rw [staleMarked, raise, rd_fput_of_ne _ _ (by decide), rd_fput_of_ne _ _ (by decide)]
    exact rd_wr_self ..
  · rw [staleMarked, raise, bit_fput_of_ne _ _ _ _ (by decide)]
    exact bit_fput_one _ _ (by decide) rfl
  · exact (((SameBits.refl _ s).wr _ _ (by simp)).of_live (u := safeBudget s) rfl |>.fput _ 1 (by simp)).raise _ (by simp)

theorem exec_budgetStale_of_stale {s : State} (hf : bit s Fld.CAPO_CFG_FLEET = true) (ha : 2 ≤ fget s Fld.CAPO_STATUS_AGE)
    (hb : bit s Fld.CAPO_STATUS_BSTALE = false) :
    exec .budgetStale s = .next (reportCorrected (staleMarked s) 0x02A1 (stampI (staleMarked s))) :=
  (if_pos (by rw [hf, hb, decide_eq_true ha]; rfl)).trans (congrArg _ (report_corrected ..))

theorem exec_budgetStale_of_fresh {s : State} (h : bit s Fld.CAPO_CFG_FLEET = false ∨ fget s Fld.CAPO_STATUS_AGE < 2 ∨
    bit s Fld.CAPO_STATUS_BSTALE = true) : exec .budgetStale s = .next s :=
  if_neg (by rcases h with h | h | h <;> simp [h])

theorem budgetStale_effects (s : State) (ts : Nat) : let t := reportCorrected (staleMarked s) 0x02A1 ts
    rd t Reg.CAPO_FLEETCAP = rd s Reg.CAPO_SAFECAP ∧ bit t Fld.CAPO_STATUS_BSTALE = true ∧ bit t Fld.CAPO_EVENT_BSTALE = true ∧
    CorrectedReported s t 0x02A1 ∧ SameMemory s t := by
  obtain ⟨hcap, hstale, hev, hbits, hmem⟩ := staleMarked_effects s
  refine ⟨?_, ?_, ?_, correctedReported_after hbits _ _ (by decide) (by decide), hmem.trans (sameMemory_reportCorrected ..)⟩
  · rw [regs_reportCorrected _ _ _ (by decide) _ (by decide), hcap]
  · rw [bit_reportCorrected _ _ _ _ (by decide) (by decide), hstale]
  · rw [bit_reportCorrected _ _ _ _ (by decide) (by decide), hev]

/-! ### BUDGET_EMIT and BTX_COMMIT (R215) -/

/-- What frames that go downward leave: registers, Capo and both memories. -/
def downView (s : State) : List (Nat × Word) × CapoSt × List (Nat × Byte) × List (Nat × Byte) := (s.live, s.capo, s.engMem, s.nvm)

theorem downView_sendOn (s : State) (p : HPort) (k : Nat) (q : Option HPort) (f : Frame) : downView (sendOn s p k q f) = downView s :=
  ite_eq_of downView _ _ _ _ rfl (ite_eq_of downView _ _ _ _ rfl rfl)

theorem downView_sendDown (s : State) (q : Option HPort) (f : Frame) : downView (sendDown s q f) = downView s := by
  have hdown := frame_foldl downView (fun s p => sendOn s p (copyPrio q f) q f) (fun t p => downView_sendOn t p _ q f) (downPorts s) s
  exact (ite_eq_of downView _ _ _ _ (downView_sendOn ..) rfl).trans hdown

theorem downView_nextSeq (s : State) : downView (nextSeq s) = downView s := rfl

/-- The BUDGET frames of an emission sent (R215). -/
def budgetsSent (s : State) (w : Word) (table : List (Nat × Word)) : State :=
  (budgetPayloads w table).foldl (fun s p => nextSeq (sendDown s none (ownFrame s 0xFFFF 4 p))) s

theorem downView_budgetsSent (s : State) (w : Word) (table : List (Nat × Word)) : downView (budgetsSent s w table) = downView s :=
  frame_foldl downView _ (fun t _ => (downView_nextSeq _).trans (downView_sendDown t none _)) _ _

/-- No emission is due any more. -/
def emissionEnded (s : State) : State := setCapo s fun c => { c with emitStamp := none, emitTable := [] }

/-- The root's own entry, accepted at the start of emission (R215). -/
def ownEntryTaken (s : State) (w : Word) : State :=
  match s.capo.emitTable.find? fun e => e.1 == ownAddr s with
  | some e => if bit s Fld.CAPO_CFG_FLEET then acceptBudget (emissionEnded s) w e.2 else emissionEnded s
  | none => emissionEnded s

theorem exec_budgetEmit_of_due {s : State} {w : Word} (h : s.capo.emitStamp = some w) :
    exec .budgetEmit s = .next (budgetsSent (ownEntryTaken s w) w s.capo.emitTable) := by
  change execBudgetEmit s = _
  unfold execBudgetEmit ownEntryTaken
  rw [h]
  cases s.capo.emitTable.find? fun e => e.1 == ownAddr s <;> rfl

theorem exec_budgetEmit_of_none {s : State} (h : s.capo.emitStamp = none) : exec .budgetEmit s = .next s := by
  change execBudgetEmit s = _
  unfold execBudgetEmit
  rw [h]

/-- The emission that is due, and both memories. -/
def emissionView (s : State) : Option Word × List (Nat × Word) × List (Nat × Byte) × List (Nat × Byte) :=
  (s.capo.emitStamp, s.capo.emitTable, s.engMem, s.nvm)

theorem emissionView_fput (s : State) (f : Field) (v : Nat) : emissionView (fput s f v) = emissionView s := rfl

theorem emissionView_acceptBudget (s : State) (w v : Word) : emissionView (acceptBudget s w v) = emissionView s := by
  unfold acceptBudget
  extract_lets s1 up s2
  have h1 : emissionView s1 = emissionView s := by
    rw [show s1 = inc (raise (wr (wr s Reg.CAPO_BUDGET v) Reg.CAPO_BSTAMP w) Fld.CAPO_EVENT_BUDGET_OK) Fld.CAPO_BCNT_OK from rfl, inc, raise,
      emissionView_fput, emissionView_fput]
    rfl
  have h2 : emissionView s2 = emissionView s1 := rfl
  rw [fputB, emissionView_fput, emissionView_fput, h2, h1]

theorem emissionView_ownEntryTaken (s : State) (w : Word) : emissionView (ownEntryTaken s w) = (none, [], s.engMem, s.nvm) := by
  unfold ownEntryTaken
  split
  · exact ite_eq_of emissionView _ _ _ _ (emissionView_acceptBudget (emissionEnded s) w _) rfl
  · rfl

theorem ownEntryTaken_of_entry {s : State} {w : Word} {e : Nat × Word}
    (he : (s.capo.emitTable.find? fun e => e.1 == ownAddr s) = some e) (hf : bit s Fld.CAPO_CFG_FLEET = true) :
    ownEntryTaken s w = acceptBudget (emissionEnded s) w e.2 := by
  unfold ownEntryTaken
  rw [he]
  exact if_pos hf

theorem acceptBudget_effects (s : State) (w v : Word) : let t := acceptBudget s w v
    rd t Reg.CAPO_BUDGET = v ∧ rd t Reg.CAPO_BSTAMP = w ∧ t.capo.budget = some v := by
  have hrd {a : Nat} (hs : a ≠ Reg.CAPO_STATUS) (he : a ≠ Reg.CAPO_EVENT) (hc : a ≠ Reg.CAPO_BCNT) :
      rd (acceptBudget s w v) a = rd (wr (wr s Reg.CAPO_BUDGET v) Reg.CAPO_BSTAMP w) a := by
    rw [acceptBudget, fputB, rd_fput_of_ne _ _ hs, rd_fput_of_ne _ _ hs, rd_setCapo, inc, rd_fput_of_ne _ _ hc, raise, rd_fput_of_ne _ _ he]
  refine ⟨?_, ?_, rfl⟩
  · rw [hrd (by decide) (by decide) (by decide), rd_wr_of_ne _ _ (by decide), rd_wr_self]
  · rw [hrd (by decide) (by decide) (by decide), rd_wr_self]

/-- An emission that is due. -/
theorem budgetEmit_effects (s : State) (w : Word) : let t := budgetsSent (ownEntryTaken s w) w s.capo.emitTable
    t.capo.emitStamp = none ∧ SameMemory s t ∧ t.capo.emitTable = [] ∧
    (∀ v, (s.capo.emitTable.find? fun e => e.1 == ownAddr s) = some v → bit s Fld.CAPO_CFG_FLEET = true →
      rd t Reg.CAPO_BUDGET = v.2 ∧ rd t Reg.CAPO_BSTAMP = w ∧ t.capo.budget = some v.2) := by
  intro t
  have hview : downView t = downView (ownEntryTaken s w) := downView_budgetsSent ..
  simp only [downView, Prod.mk.injEq] at hview
  obtain ⟨hlive, hcapo, heng, hnvm⟩ := hview
  have hleft := emissionView_ownEntryTaken s w
  simp only [emissionView, Prod.mk.injEq] at hleft
  obtain ⟨hstamp, htable, htaken, htaken'⟩ := hleft
  rw [hcapo]
  refine ⟨hstamp, ⟨fun o => ?_, fun o => ?_⟩, htable, fun v hv hf => ?_⟩
  · rw [engByte, heng, htaken, engByte]
  · rw [nvmByte, hnvm, htaken', nvmByte]
  rw [rd, rd, hlive, ← rd, ← rd, ownEntryTaken_of_entry hv hf]
  exact acceptBudget_effects ..

theorem commitBudget_table (s : State) : (commitBudget s).capo.table.length = 224 ∧
    ∀ e, e < 224 → (commitBudget s).capo.table[e]? = some (fget s (Fld.CAPO_BTAB_ADDR_ADDR e), rd s (Reg.CAPO_BTAB_VAL e)) :=
  ⟨by simp [commitBudget, setCapo], fun e he => by simp [commitBudget, setCapo, he]⟩

/-! ### Clears of trims and counters (R202, R225) -/

theorem vwVal_vwOf_zero : vwVal (vwOf 0) = 0 := by decide +kernel

/-- The trims that a port and a course of the same number show. -/
def trimView (s : State) (i : Fin 32) : Word × Word := (rd s (Reg.CAPO_PTRIM i), rd s (Reg.CAPO_CTRIM i))

/-- The trims of a number shown as 0. -/
def trimZeroed (s : State) (i : Nat) : State := wr (wr s (Reg.CAPO_PTRIM i) (vwOf 0)) (Reg.CAPO_CTRIM i) (vwOf 0)

theorem trimView_trimZeroed (s : State) (m n : Fin 32) :
    trimView (trimZeroed s m) n = if n = m then (vwOf 0, vwOf 0) else trimView s n := by
  have hm := m.isLt
  have hn := n.isLt
  have hpc : Reg.CAPO_PTRIM n ≠ Reg.CAPO_CTRIM m := by simp only [Reg.CAPO_PTRIM, Reg.CAPO_CTRIM]; omega
  have hcp : Reg.CAPO_CTRIM n ≠ Reg.CAPO_PTRIM m := by simp only [Reg.CAPO_PTRIM, Reg.CAPO_CTRIM]; omega
  rw [trimView, trimZeroed, rd_wr_of_ne _ _ hpc]
  by_cases h : n = m
  · subst h
    rw [if_pos rfl, rd_wr_self, rd_wr_self]
  · have hv := Fin.val_ne_of_ne h
    rw [if_neg h, rd_wr_of_ne _ _ (by simp only [Reg.CAPO_PTRIM]; omega), rd_wr_of_ne _ _ (by simp only [Reg.CAPO_CTRIM]; omega),
      rd_wr_of_ne _ _ hcp, trimView]

/-- Every t and τ is 0. -/
def trimsCleared (s : State) : State := setCapo s fun c => { c with
  trimClr := false, t := Vector.replicate 32 (Piped.now (vwOf 0)), tau := Vector.replicate 32 (Piped.now (vwOf 0)) }

theorem exec_trimClrApply_of_asked {s : State} (h : s.capo.trimClr = true) :
    exec .trimClrApply s = .next ((List.finRange 32).foldl (fun t (i : Fin 32) => trimZeroed t i) (trimsCleared s)) := by
  refine (if_pos h).trans ?_
  rw [← List.map_coe_finRange_eq_range, List.foldl_map]
  rfl

theorem trimClrApply_effects (s : State) : let t := (List.finRange 32).foldl (fun t (i : Fin 32) => trimZeroed t i) (trimsCleared s)
    (∀ p : Fin 32, vwVal (t.capo.t.get p).cur = 0 ∧ vwVal (t.capo.tau.get p).cur = 0 ∧
      rd t (Reg.CAPO_PTRIM p) = (t.capo.t.get p).cur ∧ rd t (Reg.CAPO_CTRIM p) = (t.capo.tau.get p).cur) ∧ t.capo.trimClr = false ∧
    t = { s with live := t.live, capo := t.capo } := by
  intro t
  obtain ⟨honly, hview⟩ := foldl_each (J := fun t => t = { trimsCleared s with live := t.live }) (V := trimView)
    (G := fun _ _ => (vwOf 0, vwOf 0)) (fun t m h => by rw [h]; rfl) (fun t m n _ => trimView_trimZeroed t m n) (List.finRange 32)
    (trimsCleared s) (List.nodup_finRange 32) rfl
  have hcapo : t.capo = (trimsCleared s).capo := (congrArg State.capo honly :)
  have hz (p : Fin 32) : ((Vector.replicate 32 (Piped.now (vwOf 0))).get p).cur = vwOf 0 := by simp [Vector.get_eq_getElem, Piped.now]
  refine ⟨fun p => ?_, by rw [hcapo]; rfl, ?_⟩
  · obtain ⟨hp, hc⟩ := Prod.ext_iff.1 ((hview p).trans (if_pos (List.mem_finRange p)))
    rw [hcapo]
    exact ⟨(congrArg vwVal (hz p)).trans vwVal_vwOf_zero, (congrArg vwVal (hz p)).trans vwVal_vwOf_zero, hp.trans (hz p).symm,
      hc.trans (hz p).symm⟩
  · rw [hcapo]
    exact honly

theorem clearCapoCnt_effects (s : State) : let t := clearCapoCnt s
    rd t Reg.CAPO_BCNT = 0 ∧ rd t Reg.CAPO_HCNT = 0 ∧ SameBits [wholeReg Reg.CAPO_BCNT, wholeReg Reg.CAPO_HCNT] s t ∧
    t = { s with live := t.live } :=
  ⟨(rd_wr_of_ne _ _ (by decide)).trans (rd_wr_self ..), rd_wr_self ..,
    ((SameBits.refl _ s).wr _ _ (by simp)).wr _ _ (by simp), rfl⟩

/-! ### HOSTCAP (R205) -/

theorem writeHostCap_of_legal {v : Word} (s : State) (h : vwReserved v = false) :
    writeHostCap v s = setCapo (wr s Reg.CAPO_HOSTCAP v) fun c => { c with hostPend := true } := if_neg (Bool.eq_false_iff.1 h)

end Sys2Proof.Machine
end

section
set_option Elab.async false
namespace Sys2Proof.Machine

/-! ### What the timebase, the recorder and the ports leave of Capo (R216 to R220) -/

/-- The registers outside the block CAPO. -/
def notCapoReg (a : Nat) : Bool := !decide (0xA000 ≤ a ∧ a < 0xB000)

theorem faultOrRec_capo {a : Nat} (h : notCapoReg a = false) : faultOrRec a = false := by
  simp only [notCapoReg, Bool.not_eq_false', decide_eq_true_eq] at h
  simp only [faultOrRec, Bool.or_eq_false_iff, decide_eq_false_iff_not]
  omega

theorem portReg_capo {a : Nat} (h : notCapoReg a = false) : portReg a = false := by
  simp only [notCapoReg, Bool.not_eq_false', decide_eq_true_eq] at h
  have ht : Reg.TEST_PWM_STAT < 0xA000 ∨ 0xB000 ≤ Reg.TEST_PWM_STAT := by decide
  simp only [portReg, Bool.or_eq_false_iff, Bool.and_eq_false_iff, decide_eq_false_iff_not, beq_eq_false_iff_ne]
  omega

/-- What Capo holds of an input loss, and both memories. -/
def lossView (s : State) : Rat × Nat × Option Nat × List (Nat × Byte) × List (Nat × Byte) :=
  (s.capo.heldA, s.capo.inside, s.capo.switchDue, s.engMem, s.nvm)

/-- An operation outside Capo: the registers of CAPO, what it holds of an input loss and the memories stay. -/
structure OffCapo (s t : State) : Prop where
  regs : SameRegsOutside notCapoReg s t
  view : lossView t = lossView s

section
variable {s t u : State}

theorem OffCapo.refl (s : State) : OffCapo s s := ⟨.refl _ s, rfl⟩

theorem OffCapo.trans (h : OffCapo s t) (g : OffCapo t u) : OffCapo s u := ⟨h.regs.trans g.regs, g.view.trans h.view⟩

theorem OffCapo.fput (h : OffCapo s t) (f : Field) (v : Nat) (hf : notCapoReg f.addr = true) : OffCapo s (fput t f v) :=
  ⟨h.regs.fput f v hf, h.view⟩

theorem OffCapo.setTime (h : OffCapo s t) (f : TimeSt → TimeSt) : OffCapo s (setTime t f) := ⟨h.regs.of_live rfl, h.view⟩

/-- What the frame of the shared operations leaves is outside Capo. -/
theorem OffCapo.of_stateFrame {p : Nat → Bool} (hr : SameRegsOutside p s t) (hp : ∀ {a}, notCapoReg a = false → p a = false)
    (hf : stateFrame t = stateFrame s) : OffCapo s t := ⟨fun a ha => hr a (hp ha), (congrArg lossView hf :)⟩

theorem OffCapo.pushRecord (h : OffCapo s t) (ty sv c ts : Nat) (p : List Byte) : OffCapo s (pushRecord t ty sv c ts p) :=
  h.trans (.of_stateFrame (regs_pushRecord t ty sv c ts p) faultOrRec_capo (stateFrame_pushRecord ..))

theorem OffCapo.report (h : OffCapo s t) (c k i ts : Nat) (hc : c / 256 ≤ 13) : OffCapo s (report t c 0 k i ts) := by
  rw [report_corrected]
  exact h.trans (.of_stateFrame (regs_reportCorrected t c ts hc) faultOrRec_capo (stateFrame_reportCorrected ..))

theorem OffCapo.remute (h : OffCapo s t) : OffCapo s (remute t) :=
  have hmute : OffCapo t (muteRound t) := ⟨fun _ _ => rfl, rfl⟩
  (h.trans hmute).trans (.of_stateFrame (regs_refreshPorts _) portReg_capo (stateFrame_refreshPorts _))

theorem OffCapo.bit_eq (h : OffCapo s t) (f : Field) (hf : notCapoReg f.addr = false) : bit t f = bit s f := by
  rw [bit, fget, h.regs _ hf, bit, fget]

theorem OffCapo.fget_eq (h : OffCapo s t) (f : Field) (hf : notCapoReg f.addr = false) : fget t f = fget s f := by
  rw [fget, h.regs _ hf, fget]

theorem OffCapo.memory (h : OffCapo s t) : SameMemory s t := by
  have hview := h.view
  simp only [lossView, Prod.mk.injEq] at hview
  obtain ⟨-, -, -, heng, hnvm⟩ := hview
  exact ⟨fun o => by rw [engByte, heng, engByte], fun o => by rw [nvmByte, hnvm, nvmByte]⟩

end

/-! ### INPUT_LOSS_BEGIN and INPUT_LOSS_END (R216, R218) -/

theorem offCapo_holdupRecord (s : State) (subtype sev fret : Nat) : OffCapo s (holdupRecord s subtype sev fret) :=
  (OffCapo.refl s).pushRecord ..

theorem offCapo_lossMarked (s : State) (f : Nat) : OffCapo s (lossMarked s f) :=
  (((OffCapo.refl s).fput Fld.TIME_EVENT_LOCK_LOSS _ (by decide)).fput Fld.TIME_COUNT_LOSS_CNT _ (by decide)).report _ _ _ _ (by decide)

theorem offCapo_enterHoldover (s : State) (f : Nat) : OffCapo s (enterHoldover s f) := by
  obtain ⟨ts, h⟩ := enterHoldover_eq s f
  have hstate : OffCapo s (raise (setTb s .holdover) Fld.TIME_EVENT_HOLD_ENTER) :=
    ((OffCapo.refl s).fput Fld.TIME_STATUS_STATE _ (by decide)).fput Fld.TIME_EVENT_HOLD_ENTER _ (by decide)
  have hbegun : OffCapo s (holdoverBegun s) :=
    (((hstate.fput Fld.TIME_HOLD_FREQ_HOLD_FREQ _ (by decide)).setTime _).fput Fld.TIME_STATUS_SRC_ACT 1 (by decide)).fput
      Fld.TIME_STATUS_ALIGNED 0 (by decide)
  rw [h]
  exact hbegun.report _ _ _ _ (by decide)

/-- The loss of the steering source leaves Capo, and the qualification of the mains too. -/
theorem loseSource_leaves (s : State) (f : Nat) :
    OffCapo s (loseSource s f true) ∧ bit (loseSource s f true) Fld.TIME_STATUS_MAINS_QUAL = bit s Fld.TIME_STATUS_MAINS_QUAL := by
  by_cases h : hasTarget s = true
  · have hlost : loseSource s f true = enterHoldover (lossMarked s f) f := (loseSource_of_target f true h).trans (if_pos rfl)
    rw [hlost]
    exact ⟨(offCapo_lossMarked s f).trans (offCapo_enterHoldover _ f),
      ((timeFields_enterHoldover _ f).bit_eq (by decide) (by decide)).trans ((timeFields_lossMarked s f).bit_eq (by decide) (by decide))⟩
  · have hkept : loseSource s f true = s := if_neg h
    rw [hkept]
    exact ⟨.refl s, rfl⟩

/-- A lost mains is not qualified (R37), and Capo is left. -/
theorem mainsLost_effects (s : State) (f : Nat) :
    OffCapo s (mainsLost s f) ∧ bit (mainsLost s f) Fld.TIME_STATUS_MAINS_QUAL = false := by
  unfold mainsLost
  extract_lets s1
  split
  · have hoff : OffCapo s s1 := ((OffCapo.refl s).setTime _).fput _ 0 (by decide)
    have hqual : bit s1 Fld.TIME_STATUS_MAINS_QUAL = false := bit_fput_zero _ _ (by decide) rfl
    obtain ⟨hsource, hsame⟩ := loseSource_leaves s1 f
    split
    · exact ⟨hoff.trans hsource, hsame.trans hqual⟩
    · exact ⟨hoff, hqual⟩
  · next h => exact ⟨(OffCapo.refl s).setTime _, Bool.eq_false_iff.2 h⟩

/-- The selectors are to switch at the next round boundary (R218). -/
def lossSwitches (s : State) : Bool := bit s Fld.CAPO_CFG_HOLD_EN && !bit s Fld.CAPO_STATUS_HOLDUP

/-- The loss marked in Capo. -/
def lossBegun (s : State) : State :=
  setCapo (raise (fput s Fld.CAPO_STATUS_INPUT_LOSS 1) Fld.CAPO_EVENT_LOSS) fun c => { c with
    heldA := s.time.vd, inside := 0, switchDue := if lossSwitches s then some s.time.base else none }

/-- The loss recorded, when no switch of selectors will record it (R220). -/
def lossRecorded (s : State) (f : Nat) : State := if lossSwitches s then lossBegun s else holdupRecord (lossBegun s) 1 1 f

/-- The loss handed to the timebase. -/
def lossTaken (s : State) (f : Nat) : State :=
  mainsLost (setTime (lossRecorded s f) fun t => { t with condNow := false, condCycle := false }) f

theorem exec_inputLossBegin_of_lost {s : State} (f : Nat) (hl : bit s Fld.CAPO_STATUS_INPUT_LOSS = false) (ho : lossN s ≤ s.capo.outside) :
    exec (.inputLossBegin f) s = .next (lossTaken s f) := if_pos (by rw [hl, decide_eq_true ho]; rfl)

theorem exec_inputLossBegin_of_not {s : State} (f : Nat) (h : bit s Fld.CAPO_STATUS_INPUT_LOSS = true ∨ s.capo.outside < lossN s) :
    exec (.inputLossBegin f) s = .next s := if_neg (by rcases h with h | h <;> simp [h])

theorem inputLossBegin_effects (s : State) (f : Nat) : let t := lossTaken s f
    bit t Fld.CAPO_STATUS_INPUT_LOSS = true ∧ bit t Fld.CAPO_EVENT_LOSS = true ∧ t.capo.heldA = s.time.vd ∧ t.capo.inside = 0 ∧
    t.capo.switchDue = (if lossSwitches s then some s.time.base else none) ∧ bit t Fld.TIME_STATUS_MAINS_QUAL = false ∧ SameMemory s t := by
  intro t
  have hrecorded : OffCapo (lossBegun s) (lossRecorded s f) := by
    unfold lossRecorded
    split
    · exact .refl _
    · exact offCapo_holdupRecord ..
  obtain ⟨hmains, hqual⟩ := mainsLost_effects (setTime (lossRecorded s f) fun t => { t with condNow := false, condCycle := false }) f
  have hoff : OffCapo (lossBegun s) t := (hrecorded.setTime _).trans hmains
  have hview := hoff.view
  simp only [lossView, Prod.mk.injEq] at hview
  obtain ⟨hheld, hinside, hdue, -, -⟩ := hview
  have hmem : SameMemory s (lossBegun s) := ⟨fun _ => rfl, fun _ => rfl⟩
  refine ⟨?_, ?_, hheld, hinside, hdue, hqual, hmem.trans hoff.memory⟩
  · rw [hoff.bit_eq _ (by decide), lossBegun, bit_setCapo, raise, bit_fput_of_ne _ _ _ _ (by decide)]
    exact bit_fput_one _ _ (by decide) rfl
  · rw [hoff.bit_eq _ (by decide), lossBegun, bit_setCapo]
    exact bit_raise_self _ _ (by decide) rfl

theorem exec_inputLossEnd_of_back {s : State} (hl : bit s Fld.CAPO_STATUS_INPUT_LOSS = true) (hr : fget s Fld.CAPO_HCFG_RETW ≤ s.capo.inside)
    (hs : bit s Fld.CAPO_CFG_INSRC = true ∨ bit s Fld.TIME_STATUS_MAINS_LOCK = true) :
    exec .inputLossEnd s = .next (fput s Fld.CAPO_STATUS_INPUT_LOSS 0) :=
  if_pos (by rw [hl, decide_eq_true hr, (Bool.or_eq_true ..).mpr hs]; rfl)

theorem exec_inputLossEnd_of_not {s : State} (h : bit s Fld.CAPO_STATUS_INPUT_LOSS = false ∨ s.capo.inside < fget s Fld.CAPO_HCFG_RETW ∨
    (bit s Fld.CAPO_CFG_INSRC = false ∧ bit s Fld.TIME_STATUS_MAINS_LOCK = false)) : exec .inputLossEnd s = .next s :=
  if_neg (by rcases h with h | h | ⟨h, g⟩ <;> simp [*])

/-! ### HOLDUP_SWITCH and HOLDUP_RETURN (R218, R220) -/

/-- One selector moves. -/
def selectorSwitched (up : Bool) (load : Rat) (s : State) (h : Fin 4) : State :=
  let use := if up then bit s (Fld.CAPO_HSEL_CFG_HUSE h) else bit s (Fld.CAPO_HSEL_CFG_NUSE h)
  if bit s (Fld.CAPO_HSEL_CFG_EN h) && use then
    let k := if up then vreg s (Reg.CAPO_HSEL_KFFH h) else vreg s (Reg.CAPO_HSEL_KFFN h)
    let n := if up then fget s (Fld.CAPO_HSEL_CFG_HLOOP h) else fget s (Fld.CAPO_HSEL_CFG_NLOOP h)
    let w := vwOf (k * load)
    { setCapo s (fun c => { c with selT := upd c.selT h fun _ => Piped.now (some w) }) with
      loops := updN s.loops n fun l => { l with switchPreset := some w } }
  else s

theorem switchSelectors_eq (s : State) (up : Bool) :
    switchSelectors s up = (List.finRange 4).foldl (selectorSwitched up (vwVal s.capo.loadSum.cur)) s := rfl

/-- The selectors write no register. -/
theorem switchSelectors_leaves (s : State) (up : Bool) :
    (switchSelectors s up).live = s.live ∧ lossView (switchSelectors s up) = lossView s := by
  have hone (t : State) (h : Fin 4) : ((selectorSwitched up (vwVal s.capo.loadSum.cur) t h).live,
      lossView (selectorSwitched up (vwVal s.capo.loadSum.cur) t h)) = (t.live, lossView t) :=
    ite_eq_of (fun u : State => (u.live, lossView u)) _ _ _ _ rfl rfl
  rw [switchSelectors_eq]
  exact Prod.mk.inj (frame_foldl (fun u : State => (u.live, lossView u)) _ hone _ s)

theorem offCapo_switchSelectors (s : State) (up : Bool) : OffCapo s (switchSelectors s up) := by
  obtain ⟨hlive, hview⟩ := switchSelectors_leaves s up
  exact ⟨(SameRegsOutside.refl _ s).of_live hlive, hview⟩

/-- Hold-up begun in the status and counted. -/
def holdupBegun (s : State) : State :=
  setCapo (inc (fput s Fld.CAPO_STATUS_HOLDUP 1) Fld.CAPO_HCNT_HOLD_CNT) fun c => { c with switchDue := none }

/-- The selectors switched to hold-up, with the record of the loss. -/
def holdupRecorded (s : State) : State := holdupRecord (switchSelectors (holdupBegun s) true) 1 1 0

/-- The switch, reported. -/
def holdupTaken (s : State) : State := remute (report (holdupRecorded s) 0x02A3 0 0 0 (stampE (holdupRecorded s) 0))

theorem exec_holdupSwitch_of_due {s : State} {b : Nat} (hd : s.capo.switchDue = some b) (hb : b < s.time.base) :
    exec .holdupSwitch s = .next (holdupTaken s) := if_pos (by rw [hd]; exact decide_eq_true hb)

theorem exec_holdupSwitch_of_not {s : State} (h : ∀ b, s.capo.switchDue = some b → s.time.base ≤ b) : exec .holdupSwitch s = .next s := by
  refine if_neg fun hany => ?_
  obtain ⟨b, hb, hlt⟩ := (Option.any_eq_true ..).mp hany
  exact absurd (of_decide_eq_true hlt) (Nat.not_lt.2 (h b hb))

/-- A report that what came before has not counted. -/
theorem CorrectedReported.of_keeps {s t u : State} {c : Nat} (h : CorrectedReported t u c) (hk : keepsReport s t c) : CorrectedReported s u c :=
  ⟨h.1.trans (by rw [hk.1]), h.2⟩

/-- A report that what came after has kept. -/
theorem CorrectedReported.keeps {s t u : State} {c : Nat} (h : CorrectedReported s t c) (hk : keepsReport t u c) : CorrectedReported s u c :=
  ⟨hk.1.trans h.1, hk.2.1 h.2.1, hk.2.2 h.2.2⟩

theorem keepsReport_holdupRecorded (s : State) : keepsReport s (holdupRecorded s) 0x02A3 := by
  have hrd {a : Nat} (hs : a ≠ Reg.CAPO_STATUS) (hc : a ≠ Reg.CAPO_HCNT) : rd (switchSelectors (holdupBegun s) true) a = rd s a := by
    rw [rd, (switchSelectors_leaves ..).1, ← rd, holdupBegun, rd_setCapo, inc, rd_fput_of_ne _ _ hc, rd_fput_of_ne _ _ hs]
  exact (keepsReport_of_rd _ _ _ (hrd (by decide) (by decide)) (hrd (by decide) (by decide)) (hrd (by decide) (by decide))).trans
    (keepsReport_pushRecord _ _ _ _ _ _ _ (by decide))

theorem keepsReport_remute (s : State) : keepsReport s (remute s) 0x02A3 :=
  have hrd {a : Nat} (ha : portReg a = false) : rd (remute s) a = rd s a := regs_refreshPorts (muteRound s) a ha
  keepsReport_of_rd _ _ _ (hrd (by decide)) (hrd (by decide)) (hrd (by decide))

theorem holdupSwitch_effects (s : State) : let t := holdupTaken s
    bit t Fld.CAPO_STATUS_HOLDUP = true ∧ CorrectedReported s t 0x02A3 ∧ t.capo.switchDue = none ∧ SameMemory s t ∧
    fget t Fld.CAPO_HCNT_HOLD_CNT = min (fget s Fld.CAPO_HCNT_HOLD_CNT + 1) (2 ^ Fld.CAPO_HCNT_HOLD_CNT.width - 1) := by
  intro t
  have hoff : OffCapo (holdupBegun s) t :=
    (((offCapo_switchSelectors _ true).trans (offCapo_holdupRecord ..)).report 0x02A3 0 0 _ (by decide)).remute
  have hreport : CorrectedReported s t 0x02A3 := by
    have hcounts : CorrectedReported (holdupRecorded s) (report (holdupRecorded s) 0x02A3 0 0 0 (stampE (holdupRecorded s) 0)) 0x02A3 := by
      rw [report_corrected]
      exact reportCorrected_counts _ _ _ (by decide)
    exact (hcounts.of_keeps (keepsReport_holdupRecorded s)).keeps (keepsReport_remute _)
  have hview := hoff.view
  simp only [lossView, Prod.mk.injEq] at hview
  obtain ⟨-, -, hdue, -, -⟩ := hview
  have hmem : SameMemory s (holdupBegun s) := ⟨fun _ => rfl, fun _ => rfl⟩
  refine ⟨?_, hreport, hdue, hmem.trans hoff.memory, ?_⟩
  · rw [hoff.bit_eq _ (by decide), holdupBegun, bit_setCapo, inc, bit_fput_of_ne _ _ _ _ (by decide)]
    exact bit_fput_one _ _ (by decide) rfl
  · rw [hoff.fget_eq _ (by decide), holdupBegun, fget_setCapo, fget_inc_self _ _ (by decide), fget_fput_of_ne _ _ _ _ (by decide)]

/-- Hold-up ended in the status, with its event. -/
def holdupEnded (s : State) : State := raise (fput s Fld.CAPO_STATUS_HOLDUP 0) Fld.CAPO_EVENT_RETURN

/-- The source is back (R220). -/
def sourceBack (s : State) : Bool :=
  if bit s Fld.CAPO_CFG_INSRC then !bit s Fld.CAPO_STATUS_INPUT_LOSS else bit s Fld.TIME_STATUS_MAINS_QUAL

/-- The return, with its record. -/
def holdupLeft (s : State) : State := remute (holdupRecord (switchSelectors (holdupEnded s) false) 2 0 0)

theorem exec_holdupReturn_of_back {s : State} (h : bit s Fld.CAPO_STATUS_HOLDUP = true) (hb : sourceBack s = true) :
    exec .holdupReturn s = .next (holdupLeft s) := if_pos ((Bool.and_eq_true ..).mpr ⟨h, hb⟩)

theorem exec_holdupReturn_of_not {s : State} (h : bit s Fld.CAPO_STATUS_HOLDUP = false ∨ sourceBack s = false) :
    exec .holdupReturn s = .next s := if_neg (Bool.eq_false_iff.1 (Bool.and_eq_false_iff.2 h))

theorem holdupReturn_effects (s : State) : let t := holdupLeft s
    bit t Fld.CAPO_STATUS_HOLDUP = false ∧ bit t Fld.CAPO_EVENT_RETURN = true ∧ SameMemory s t := by
  intro t
  have hoff : OffCapo (holdupEnded s) t := ((offCapo_switchSelectors _ false).trans (offCapo_holdupRecord ..)).remute
  have hmem : SameMemory s (holdupEnded s) := ⟨fun _ => rfl, fun _ => rfl⟩
  refine ⟨?_, ?_, hmem.trans hoff.memory⟩
  · rw [hoff.bit_eq _ (by decide), holdupEnded, raise, bit_fput_of_ne _ _ _ _ (by decide)]
    exact bit_fput_zero _ _ (by decide) rfl
  · rw [hoff.bit_eq _ (by decide)]
    exact bit_raise_self _ _ (by decide) rfl

/-! ### The commands together -/

/-- BUDGET_EMIT ends any emission. -/
theorem exec_budgetEmit (s : State) : AnswersNext (exec .budgetEmit s) fun t => t.capo.emitStamp = none ∧ SameMemory s t ∧
    (s.capo.emitStamp ≠ none → t.capo.emitTable = []) ∧
    (∀ w v, s.capo.emitStamp = some w → (s.capo.emitTable.find? fun e => e.1 == ownAddr s) = some v →
      bit s Fld.CAPO_CFG_FLEET = true → rd t Reg.CAPO_BUDGET = v.2 ∧ rd t Reg.CAPO_BSTAMP = w ∧ t.capo.budget = some v.2) := by
  cases hs : s.capo.emitStamp with
  | none =>
    rw [exec_budgetEmit_of_none hs]
    exact answersNext_next ⟨hs, .refl s, fun h => absurd rfl h, fun w v h => absurd h (Option.some_ne_none w).symm⟩
  | some w =>
    rw [exec_budgetEmit_of_due hs]
    obtain ⟨hstamp, hmem, htable, hown⟩ := budgetEmit_effects s w
    refine answersNext_next ⟨hstamp, hmem, fun _ => htable, fun w' v hw hv hf => ?_⟩
    obtain rfl := Option.some.inj hw
    exact hown v hv hf

/-- HOSTCAP takes a legal value word and ignores another (R205). -/
theorem hostcapWrite_effects {v : Word} (s : State) (h : vwReserved v = false) : let t := writeHostCap v s
    rd t Reg.CAPO_HOSTCAP = v ∧ t.capo.hostCap = s.capo.hostCap ∧ SameBits [wholeReg Reg.CAPO_HOSTCAP] s t ∧
    t = { s with live := t.live, capo := { s.capo with hostPend := true } } := by
  rw [writeHostCap_of_legal s h]
  exact ⟨rd_wr_self .., rfl, ((SameBits.refl _ s).wr _ _ (by simp)).of_live rfl, rfl⟩

/-- Settles O27: each command by what it does where it acts and by its guard where it does not; the hold-up commands through the
operations of the timebase, the recorder and the ports, which leave Capo. -/
theorem budgetsAndHoldUp : Obligations.BudgetsAndHoldUp := by
  unfold Obligations.BudgetsAndHoldUp
  refine ⟨fun s v hb hr => ?decrease, fun s h => exec_budgetDecreaseApply_of_none h, fun s b => ?halfCycle, fun s => ⟨?fresh, ?stale⟩,
    fun s => ⟨exec_budgetEmit_of_none, exec_budgetEmit s⟩, fun s => ?commit, fun s => ⟨_, rfl, rfl⟩, fun s h => ?trims,
    fun s => ⟨_, rfl, clearCapoCnt_effects s⟩,
    fun s v => ⟨fun h => congrArg Host.Outcome.next (if_pos h), fun h => ⟨_, rfl, hostcapWrite_effects s h⟩⟩,
    fun s => ⟨fun h => ⟨_, if_pos h, rfl⟩, fun h => if_neg (Bool.eq_false_iff.1 h), fun h => if_neg (Bool.eq_false_iff.1 h)⟩,
    fun s f => ⟨exec_inputLossBegin_of_not f, fun hl ho => ⟨_, exec_inputLossBegin_of_lost f hl ho, inputLossBegin_effects s f⟩⟩,
    fun s => ⟨exec_inputLossEnd_of_not, fun hl hr hs => ?lossEnd⟩,
    fun s => ⟨exec_holdupSwitch_of_not, fun b hd hb => ⟨_, exec_holdupSwitch_of_due hd hb, holdupSwitch_effects s⟩⟩,
    fun s => ⟨exec_holdupReturn_of_not, fun h hb => ⟨_, exec_holdupReturn_of_back h hb, holdupReturn_effects s⟩⟩⟩
  case decrease =>
    obtain ⟨hcap, hpend, hstale, hbits, honly⟩ := applyBudget_effects s v
    exact ⟨_, exec_budgetDecreaseApply_of_waiting hb hr, hcap, hpend, hstale, rfl, hbits, rfl⟩
  case halfCycle =>
    obtain ⟨u, hu, hexec⟩ := exec_halfCycleBoundary s b
    exact ⟨_, hexec, halfCycle_effects hu _⟩
  case fresh => exact exec_budgetStale_of_fresh
  case stale => exact fun hf ha hb => ⟨_, exec_budgetStale_of_stale hf ha hb, budgetStale_effects ..⟩
  case commit =>
    obtain ⟨hlen, hget⟩ := commitBudget_table s
    exact ⟨_, rfl, hlen, hget, rfl⟩
  case trims => exact ⟨_, exec_trimClrApply_of_asked h, trimClrApply_effects s⟩
  case lossEnd =>
    exact ⟨_, exec_inputLossEnd_of_back hl hr hs, bit_fput_zero _ _ (by decide) rfl, (SameBits.refl _ s).fput _ 0 (by simp), rfl⟩

end Sys2Proof.Machine
end
